-- ==== Sys2Proof/Word.lean ====
section
/-! DEFINITION. The word types of the AQ-8192's registers, bytes and records (R5, R14). -/
namespace Sys2Proof

/-- A register is 32 bits wide and little-endian (R5). -/
abbrev Word := BitVec 32
/-- One byte of a frame, a record or a memory. -/
abbrev Byte := BitVec 8
/-- One word of a host queue is 64 bits (chapter 18). -/
abbrev DWord := BitVec 64

end Sys2Proof
end

