-- ==== Sys2Proof/Syntax.lean ====
section
/-! DEFINITION. The commands of the block: one constructor per row of the table of operations and events, with what the
surroundings give with it (the master, the written word, the received frame, the measured quantity). -/
namespace Sys2Proof

/-- A master ID, 0 to 31 (table Masters of chapter 1): 0 HA, 1 HB, 2 MG, 3 LE, 4–19 AE0–AE15, 20 SPN, 21 CMP, 22 ACQ, 23 COL. -/
abbrev Master := Fin 32
/-- An endpoint: 0 HA, 1 HB. -/
abbrev Endpoint := Fin 2
/-- An Ethernet port. -/
abbrev Port := Fin 4

/-- A Spine path: Spine-A, the LVDS lane pair, or Spine-B, the Ethernet port (R287, R289). -/
inductive SpinePath where
  | a | b
  deriving DecidableEq, Repr

/-- A Spine message that arrives: its bytes on Spine-A, a message that /K30.7/ aborts there, or a frame that Spine-B's port has
handed over (R287, R289). -/
inductive SpineRx where
  | lineA (msg : List Byte)
  | lineAbort
  | portB
  deriving DecidableEq, Repr

/-- What the MAC found wrong below the checks of the frame's bytes (R334): nothing, a wrong FCS or code error, or a
reassembly error. -/
inductive RxError where
  | none | fcs | fragment
  deriving DecidableEq, Repr

/-- A space of registers that masters reach: BAR0, or the queue windows of BAR4 (R416, R422). -/
inductive BusSpace where
  | bar0 | bar4
  deriving DecidableEq, Repr

/-- An access through BAR2: a read of some bytes, or a write (R418). -/
inductive BarAcc where
  | read (n : Nat)
  | write (bytes : List Byte)
  deriving DecidableEq, Repr

/-- An instruction of the TAP (R480). -/
inductive TapOp where
  | bypass | idcode | sample | extest | intest | clamp
  deriving DecidableEq, Repr

/-- A main rail (R455). -/
inductive Rail where
  | vcore | vserdes | vddq | vio
  deriving DecidableEq, Repr

/-- The commands. -/
inductive Instr where
  /-- REGISTER_WRITE (R9): A master writes a register that has no row of its own, and each field acts under its access type. -/
  | registerWrite (m : Master) (sp : BusSpace) (off : Nat) (v : BitVec 32) (be : BitVec 4)
  /-- LOW_WORD_READ (R10): A read of the low word of a 64-bit pair captures the high word into a shadow for the reading master. -/
  | lowWordRead (m : Master) (sp : BusSpace) (off : Nat) (wide : Bool)
  /-- QUIRE_SEND (R20): A producer sends an item while it holds a credit and uses up one credit; an item offered at a dead crossing is discarded instead. -/
  | quireSend (i : Fin 1024)
  /-- QUIRE_CREDIT_RETURN (R20): A consumer takes an item out and returns a credit, which lets a waiting producer continue. -/
  | quireCreditReturn (i : Fin 1024)
  /-- READER_NOTICE_TAKE (R116): A reader takes the next close notice at its cursor and acts on it. -/
  | readerNoticeTake (r : Fin 64)
  /-- FABRIC_TIMEOUT (R16): A fabric handshake does not complete within its timeout; the block is recorded and stopped, and event source 0 is raised. -/
  | fabricTimeout (block : Fin 60)
  /-- DEAD_CROSSING (R25): A domain clock stays absent longer than the timeout while an item waits at its crossing, so the crossing is declared dead. -/
  | deadCrossing (dom : Fin 12)
  /-- CROSSING_REVIVE (R25): The first clock edge after the domain's source has been re-established returns a dead crossing to service. -/
  | crossingRevive (dom : Fin 12)
  /-- QMON_SELECT (R9): A write of GCTL_QMON_SEL.index snapshots the selected quire into GCTL_QMON_DATA for the writing master. -/
  | qmonSelect (m : Master) (v : BitVec 32)
  /-- QMON_CLEAR_HWM (R9): A write of GCTL_QMON_SEL.clear_hwm resets the high-water mark of the selected quire to its current occupancy. -/
  | qmonClearHwm (m : Master) (i : Fin 1024)
  /-- HEADROOM_MEASURE (R28): Every 100 µs the canary rings finish their lap count and the device publishes the minimum headroom. -/
  | headroomMeasure (counts : List Nat)
  /-- HDRM_LOW_CLEAR (R31): A write of 1 to GCTL_HDRM.low clears the flag only while the headroom is zero or above. -/
  | hdrmLowClear (m : Master)
  /-- AVS_EVALUATE (R29): Once per millisecond the AVS loop evaluates the headroom and may request a VCORE step over AVSBus. -/
  | avsEvaluate
  /-- AVS_VOUT_POLL (R458): Every 50 µs during a step the device reads Vout, and the step completes when the value lies within ±5 mV of the request. -/
  | avsVoutPoll (mv : Nat)
  /-- AVS_STEP_TIMEOUT (R458): An AVS step fails when 500 µs pass, or when a frame carries a bad CRC or an error status. -/
  | avsStepTimeout
  /-- LOCK (R46): BND_CMD LOCK locks an UNLOCKED Binding, or gives STATE in any other state. -/
  | bndLock (m : Master)
  /-- BND_VERIFY (R47): BND_CMD VERIFY starts verification of a slot without loading it. -/
  | bndVerify (m : Master) (slot : Fin 4)
  /-- BINDING_VERIFY_DONE (R47): Verification started by VERIFY ends, and its code is recorded in BND_RESULT. -/
  | bindingVerifyDone
  /-- REBIND (R47): BND_CMD REBIND with confirm 0xC3 in state LOCKED starts verification of the named slot while service continues. -/
  | bndRebind (m : Master) (slot : Fin 4) (confirm : Fin 256)
  /-- REBIND_VERIFY_DONE (R48): Re-binding verification ends; on failure nothing changes, and on success the changeover begins. -/
  | rebindVerifyDone
  /-- RCV_BEGIN (R44): MG starts or restarts a recovery load, which zeroes BND_RCV_COUNT and enters RCV_LOADING. -/
  | rcvBegin (m : Master)
  /-- RCV_DATA (R44): MG writes the next four image bytes to BND_RCV_DATA, and they are staged in folio SRAM. -/
  | rcvData (m : Master) (v : BitVec 32)
  /-- RCV_END (R44): MG ends a recovery load, and verification of the staged image starts. -/
  | rcvEnd (m : Master)
  /-- RECOVERY_VERIFY_DONE (R44): Verification of the staged image ends and either starts the recovery build or returns the device to RECOVERY. -/
  | recoveryVerifyDone
  /-- SLOT_VERIFY_DONE (R42): At start-up, verification of slot A or slot B ends, and the device loads the slot, falls back, or enters RECOVERY. -/
  | slotVerifyDone
  /-- FOLIO_BUILD_DONE (R463): The folio build and partition placement complete, which publishes the counts, capacities and partitions. -/
  | folioBuildDone (ok : Bool)
  /-- LOCK_TIMEOUT (R45): lock_timeout_ms elapses in UNLOCKED, so the device locks and sets BND_STAT.lock_timeout. -/
  | lockTimeout
  /-- TIME_CAPTURE_READ (R54): A read of TBS_TIME_FRAC or TBS_NOW_LO captures the whole time counter into a shadow for the reading master. -/
  | timeCaptureRead (m : Master) (nowLo : Bool)
  /-- SET (R55): TBS_CTRL.cmd SET requests loading of the counter from TBS_SET_SEC and TBS_SET_NS, unless it is refused. -/
  | timeSet (m : Master)
  /-- ADJ (R55): TBS_CTRL.cmd ADJ requests adding the signed TBS_ADJ nanoseconds to the counter, unless it is refused. -/
  | timeAdj (m : Master)
  /-- SET_STATE (R63): TBS_CTRL.set_state sets the time state to FREERUN, HOLDOVER or LOCKED in HOST and ENGINE_NOSERVO modes. -/
  | timeSetState (m : Master) (st : Fin 4)
  /-- PTP_MODE_CHANGE (R62): A write that changes TBS_CTRL.ptp_mode takes effect at once, and the integral is loaded when the new mode is ENGINE. -/
  | ptpModeChange (m : Master) (mode : Fin 4)
  /-- INCR_WRITE (R62): A write to TBS_INCR_HI applies the increment pair at the next tick, and is discarded in ENGINE mode. -/
  | incrWrite (m : Master) (v : BitVec 32)
  /-- COUNTER_STEP (R56): The time counter is stepped at a TBC tick, which writes a TIME_STEP record and raises event source 13. -/
  | counterStep
  /-- ANNOUNCE_RX (R59): The engine receives an Announce message and updates master qualification, selection and the UTC fields. -/
  | announceRx
  /-- MASTER_LOST (R59): announce_timeout intervals pass without an Announce or accepted Sync, so the selected master is lost. -/
  | masterLost
  /-- PDELAY_REQ_RX (R58): The engine answers a received Pdelay_Req with a two-step Pdelay_Resp and Pdelay_Resp_Follow_Up. -/
  | pdelayReqRx
  /-- PDELAY_REQ_SEND (R58): At the log_pdelay interval the engine sends its own Pdelay_Req on an enabled port. -/
  | pdelayReqSend (p : Port)
  /-- PDELAY_RESP_RX (R60): A Pdelay_Resp is received, which supplies t2 and t4 of the exchange. -/
  | pdelayRespRx
  /-- PDELAY_RESP_FOLLOW_UP_RX (R60): A Pdelay_Resp_Follow_Up completes the exchange, and the link delay sample updates the mean. -/
  | pdelayRespFollowUpRx
  /-- SYNC_RX (R61): A Sync from the selected master is received; a one-step Sync runs the servo at once. -/
  | syncRx
  /-- FOLLOW_UP_RX (R61): A Follow_Up supplies the origin time of a two-step Sync, and the servo runs. -/
  | followUpRx
  /-- HOLDOVER_TIMEOUT (R63): holdover_s elapses in HOLDOVER, so the state becomes FREERUN. -/
  | holdoverTimeout
  /-- HOLDOVER_SECOND (R64): Each elapsed second raises the holdover estimate and advances the seconds-since-LOCKED count. -/
  | holdoverSecond (fromHold : Bool)
  /-- UTC_WRITE (R66): A write to TBS_UTC is governed by the src value it carries, and may set utc_offset and leap. -/
  | utcWrite (m : Master) (v : BitVec 32)
  /-- LEAP_APPLY (R67): A pending leap is applied at UTC midnight: the offset changes, leap clears and leap_occurred is set. -/
  | leapApply
  /-- LEAP_OCCURRED_EXPIRE (R67): 86,400 s after a leap has been applied, leap_occurred clears. -/
  | leapOccurredExpire
  /-- TXQ_POP (R70): A read of TBS_Pn_TXQ_ID removes the oldest transmit stamp into a shadow for the reading master. -/
  | txqPop (m : Master) (p : Port)
  /-- TTO_ENABLE (R72): Writing enable = 1 checks the period and width, then turns the time-trigger output ON or refuses with cfg_err. -/
  | ttoEnable (m : Master) (n : Fin 8)
  /-- TTO_DISABLE (R74): Writing enable = 0 turns the output OFF at once, or DISABLING while a pulse is active. -/
  | ttoDisable (m : Master) (n : Fin 8)
  /-- TTO_INSTANT (R72): A programmed instant is reached and the leading edge is emitted at the ball, or the instant is counted as missed. -/
  | ttoInstant (n : Fin 8)
  /-- TTO_TRAILING_EDGE (R74): The width count ends and the trailing edge is emitted; a DISABLING output becomes OFF. -/
  | ttoTrailingEdge (n : Fin 8)
  /-- DIN_EDGE_CONFIRM (R75): filt_us + 1 consecutive samples at a new level confirm a DIN edge and stamp its time. -/
  | dinEdgeConfirm (n : Fin 16) (level : Bool) (run : Nat) (t : Nat)
  /-- COMMIT (R81): STR_CMD COMMIT checks the host copy of an entry and, if the checks pass, schedules loading it into the working copy. -/
  | strCommit (m : Master) (n : Fin 8192)
  /-- COMMIT_APPLY (R82): An accepted COMMIT takes effect between two frames of the source and moves its state. -/
  | strCommitApply
  /-- CLEAR_CNT (R101): STR_CMD CLEAR_CNT clears the per-source counters of one entry. -/
  | clearCnt (m : Master) (n : Fin 8192)
  /-- NOTE_CFGCNT (R91): STR_CMD NOTE_CFGCNT compares an observed CFGCNT or confRev with cfg_ref, and on a difference sends the source to CFG_STALE. -/
  | noteCfgcnt (m : Master) (n : Fin 8192)
  /-- STR_CMD_DONE (R495): A stream command completes, which writes result and index and raises event source 41. -/
  | strCmdDone
  /-- SRC_SNAPSHOT (R101): A write of STR_SRC_SEL snapshots the state, counters and time-stamps of one entry for the writing master. -/
  | srcSnapshot (m : Master) (n : Fin 8192)
  /-- SYNCHROPHASOR_FRAME_RX (R86): The RXP lane checks, matches, applies policy to and converts a received C37.118.2 data frame. -/
  | synchrophasorFrameRx
  /-- SV_FRAME_RX (R92): A sampled-value frame is matched, checked and timed, and its samples are accepted in count order. -/
  | svFrameRx
  /-- SILENCE_CHECK (R98): At every 1 ms instant the device checks each source for silence and raises the stream events. -/
  | silenceCheck
  /-- GOOD_FRAME_PLACE (R107): The Collator places a good frame into the gathering of each member grid, or counts it as future, off-grid, late, duplicate or unused. -/
  | goodFramePlace
  /-- GATHERING_OPEN (R117): At g − lead − tol a gathering opens at its ring position with a cleared header and due bits. -/
  | gatheringOpen (n : Fin 8)
  /-- VIEW_INSTANT (R114): At instant g each open view is evaluated, and closes with cause ALL when every expected source has arrived. -/
  | viewInstant (n : Fin 8) (k : Nat)
  /-- QUORUM_MIN_EXPIRE (R115): At g + min_us a QUORUM view with enough arrivals becomes PROVISIONAL. -/
  | quorumMinExpire (n : Fin 8) (k : Nat) (r : Fin 64)
  /-- VIEW_WAIT_EXPIRE (R114): At g + wait every view still open closes with cause WAIT. -/
  | viewWaitExpire (n : Fin 8) (k : Nat) (r : Fin 64)
  /-- GATHERING_FINAL (R120): At final_time the gathering becomes FINAL and the device sends FINAL notices and tells DET the arrived_final count. -/
  | gatheringFinal (n : Fin 8) (k : Nat)
  /-- GATHERING_RETIRE (R117): At retire_time the gathering is RETIRED and its ring position becomes free. -/
  | gatheringRetire (n : Fin 8) (k : Nat)
  /-- GRID_ENABLE (R127): Writing enable = 1 to a grid checks its configuration and turns it ON, or refuses it. -/
  | gridEnable (m : Master) (n : Fin 8)
  /-- GRID_DISABLE (R128): Writing enable = 0 to a grid closes its views with cause DISABLE, disables its readers, and makes its gatherings FINAL and retired. -/
  | gridDisable (m : Master) (n : Fin 8)
  /-- READER_ENABLE (R127): Writing enable = 1 to a reader checks its configuration and turns it ON, or refuses it. -/
  | readerEnable (m : Master) (r : Fin 64)
  /-- READER_DISABLE (R128): Writing enable = 0 to a reader withdraws its open views and enters DISABLING. -/
  | readerDisable (m : Master) (r : Fin 64)
  /-- READER_OFF (R128): An output stream reaches OFF when its frame has left, and its grid reaches OFF when all its readers are OFF. -/
  | readerOff (r : Fin 64)
  /-- FILTER_SAMPLE (R142): The filter lane processes one input sample through rank, calibration, demodulation and decimation, and delivers any output that falls due. -/
  | filterSample
  /-- SWAP_REQUEST (R153): FLT_GRPg_SWAP REQUEST names a target bank and fade length; it is taken, or held during a fade. -/
  | swapRequest (m : Master) (g : Fin 32) (bank : Fin 2) (fade : Fin 8192)
  /-- SWAP_CANCEL (R155): FLT_GRPg_SWAP CANCEL discards a held request, which ends with CANCELLED. -/
  | swapCancel (m : Master) (g : Fin 32)
  /-- FLT_GROUP_ENABLE (R159): Writing enable = 1 checks the selected bank and turns the group ON with a synchronising reset, or refuses it. -/
  | fltGroupEnable (m : Master) (g : Fin 32)
  /-- FLT_GROUP_DISABLE (R159): Writing enable = 0 enters DISABLING, ends any fade and discards a held request. -/
  | fltGroupDisable (m : Master) (g : Fin 32)
  /-- FLT_GROUP_OFF (R159): The output being computed is delivered, the group reaches OFF, and event source 59 is raised. -/
  | fltGroupOff (g : Fin 32)
  /-- TASK_CREATE (R172): A notice or fast emission creates one task for each matching ON instance in its ready list. -/
  | taskCreate
  /-- TASK_SUBMIT (R176): A write of SCH_SUBMIT7 submits a host task descriptor, and the result is set in SCH_SUBMIT_STAT. -/
  | taskSubmit (m : Master) (v : BitVec 32)
  /-- STAGING_COMPLETE (R179): Staging of a prefetched task completes, and the task may start if its engine is idle. -/
  | stagingComplete (e : Fin 16)
  /-- TASK_START (R178): A staged task moves to running on its engine, and its start time is recorded. -/
  | taskStart (e : Fin 16)
  /-- TASK_END (R183): A running task ends DONE, GONE or DENIED; its result goes to DET, and a task record is written if configured. -/
  | taskEnd (e : Fin 16)
  /-- TASK_OVERRUN (R180): A task not started by its deadline ends as an overrun, is counted, and writes an OVERRUN record. -/
  | taskOverrun
  /-- TASK_RUN_LIMIT (R181): A task runs longer than run_limit_ms, which is an engine fault with code RUN_LIMIT. -/
  | taskRunLimit (e : Fin 16)
  /-- ENGINE_FAULT (R181): An uncorrectable ECC error, illegal operation or address fault aborts the task, writes a FAULT record and starts self-test. -/
  | engineFault (e : Fin 16) (code : Fin 3)
  /-- SELFTEST_DONE (R181): Engine self-test ends, and the engine becomes ONLINE or FAILED. -/
  | selftestDone (e : Fin 16) (pass : Bool)
  /-- ENGINE_ENABLE (R182): Writing enable = 1 to an OFF engine after lock runs self-test, or sets enable_pending. -/
  | engineEnable (m : Master) (e : Fin 16)
  /-- ENGINE_DISABLE (R182): Writing enable = 0 to an ONLINE engine returns its prefetched task and enters DISABLING. -/
  | engineDisable (m : Master) (e : Fin 16)
  /-- ENGINE_RETEST (R182): Writing retest to a FAILED engine runs self-test, except after a FABRIC fault. -/
  | engineRetest (m : Master) (e : Fin 16)
  /-- INSTANCE_ENABLE (R173): Writing enable = 1 checks an instance entry and turns it ON with state_reset pending, or refuses it. -/
  | instanceEnable (m : Master) (i : Fin 1024)
  /-- INSTANCE_DISABLE (R173): Writing enable = 0 cancels the instance's ready and staged tasks and takes it to OFF or DISABLING. -/
  | instanceDisable (m : Master) (i : Fin 1024)
  /-- SCH_STATS_WINDOW (R184): At each whole second the engine statistics window closes and is published. -/
  | schStatsWindow
  /-- LVL_CLEAR_HWM (R184): A write of clear_hwm in SCH_LVLp_DEPTH sets the high-water mark of the ready list to its depth. -/
  | lvlClearHwm (m : Master) (p : Fin 8)
  /-- DET_RESULT (R228): DET takes a result, compares its point bits with the state table, and decides alarms. -/
  | detResult
  /-- ACK_POINT (R230): DET_CMD ACK_POINT clears unacked at one point and writes ALARM_ACK. -/
  | ackPoint (m : Master) (p : Fin 16384)
  /-- ACK_CLASS (R230): DET_CMD ACK_CLASS clears unacked at every point of one class and writes ALARM_ACK. -/
  | ackClass (m : Master) (c : Fin 16)
  /-- CONFIRM_TIMEOUT (R232): confirm_ms passes without a re-run result, so a pending point resolves as UNVERIFIED. -/
  | confirmTimeout
  /-- NOTICE_REPEAT (R236): At 1 ms intervals an alarm notice frame is repeated with identical content. -/
  | noticeRepeat
  /-- LE_CYCLE (R245): The logic engine takes its INPUT snapshot, executes the program and delivers its OUTPUT. -/
  | leCycle (ns : Nat) (xns : Nat)
  /-- LE_WATCHDOG (R246): The cycle time reaches watchdog_us, so the engine halts with cause WATCHDOG. -/
  | leWatchdog
  /-- LOCKSTEP_MISMATCH (R243): The checker finds the two cores differ, so the engine halts with cause LOCKSTEP. -/
  | lockstepMismatch (pc : BitVec 32)
  /-- LE_ECC_ERROR (R244): An uncorrectable ECC error in logic data or program memory halts the engine. -/
  | leEccError (pc : BitVec 32)
  /-- START_WARM (R256): LGE_CTRL START_WARM starts the engine, which restores the retained area from a matching save. -/
  | leStartWarm (m : Master)
  /-- START_COLD (R256): LGE_CTRL START_COLD starts the engine with every variable at its initial value. -/
  | leStartCold (m : Master)
  /-- STOP (R256): LGE_CTRL STOP moves a RUNNING engine to STOPPING, and it reaches STOPPED at the end of its OUTPUT. -/
  | leStop (m : Master) (inWait : Bool)
  /-- LE_START_COMPLETE (R256): STARTING finishes self-test, bank verification and data initialisation, and the engine becomes RUNNING, STOPPED or HALTED. -/
  | leStartComplete (ok : Bool)
  /-- STARTUP_RESTART (R257): At start-up or re-binding step 8, the engine applies auto_restart to the configured bank. -/
  | startupRestart
  /-- SWAP (R278): LGE_CTRL.swap arms an exchange, or is refused with NOT_VERIFIED, STATE or ARMED. -/
  | progSwap (m : Master) (inWait : Bool) (xns : Nat)
  /-- DOUT_TOGGLE (R251): At each 50 µs multiple, DOUTn toggles while its command, RUNNING and acting hold, and is static low otherwise. -/
  | doutToggle (balls : BitVec 16)
  /-- GOOSE_RX (R253): A GOOSE frame matching a subscription is accepted, dropped or flagged as a mismatch. -/
  | gooseRx
  /-- GOOSE_STALE (R254): timeAllowedtoLive elapses after the last accepted frame, so the subscription becomes stale. -/
  | gooseStale (b : Fin 64)
  /-- GOOSE_RETRANSMIT (R255): A planned retransmission interval elapses and the publication is resent with sqNum incremented. -/
  | gooseRetransmit (b : Fin 32)
  /-- PROG_VERIFY (R277): LGE_PROG_CMD VERIFY starts verification of a program bank, or gives STATE or BUSY. -/
  | progVerify (m : Master) (bank : Fin 2)
  /-- PROG_VERIFY_DONE (R277): Program verification ends, and the bank becomes VERIFIED or FAILED. -/
  | progVerifyDone
  /-- PROG_CANCEL (R278): LGE_PROG_CMD CANCEL disarms an armed exchange with CANCELLED. -/
  | progCancel (m : Master)
  /-- FORCE_WRITE (R281): A write of LGE_FRCi word 0 applies a force entry and its staged value at the next INPUT. -/
  | forceWrite (m : Master) (i : Fin 256) (v : BitVec 32)
  /-- PAIR_START (R285): At start-up step 10 or re-binding step 9, the unit enters SINGLE, JOINING or RELEASED. -/
  | pairStart
  /-- JOIN (R296): A JOINING unit receives JOIN and the winner enters HOLDER, or a role conflict is flagged. -/
  | spnJoin (rx : SpineRx)
  /-- GRANT (R292): A GRANT is received: the unit answers with ACK, a JOINING unit moves to SYNCING, and a SECONDARY holder may yield. -/
  | spnGrant (rx : SpineRx)
  /-- ACK (R292): An ACK extends the holder's lease from the send instant of the acknowledged GRANT. -/
  | spnAck (rx : SpineRx)
  /-- RELEASE (R294): A STANDBY that receives RELEASE takes the token within 10 µs. -/
  | spnRelease (rx : SpineRx)
  /-- REQUEST (R302): A SECONDARY holder that receives REQUEST prepares a handover at the end of its next OUTPUT. -/
  | spnRequest (rx : SpineRx)
  /-- HANDOVER (R294): A STANDBY that receives HANDOVER takes the token within 10 µs. -/
  | spnHandover (rx : SpineRx)
  /-- MIRROR (R301): A MIRROR message delivers retained-area blocks to the standby. -/
  | spnMirror (rx : SpineRx)
  /-- SNAP_REQ (R301): A received SNAP_REQ makes the next mirror set hold every retained block. -/
  | spnSnapReq (rx : SpineRx)
  /-- ACKCMD (R301): The standby applies a mirrored DET_CMD as a local command. -/
  | spnAckcmd (rx : SpineRx)
  /-- PUBSYNC (R301): The standby copies the holder's GOOSE stNum and sqNum into its own counters. -/
  | spnPubsync (rx : SpineRx)
  /-- GRANT_SEND (R292): Every ⌊lease_us / 6⌋ µs a holder or ISOLATED unit sends a GRANT and records its send instant. -/
  | spnGrantSend
  /-- JOIN_SEND (R296): Every ⌊lease_us / 6⌋ µs a JOINING unit sends JOIN. -/
  | spnJoinSend
  /-- PUBSYNC_SEND (R301): Once per second the holder sends PUBSYNC with its GOOSE counters. -/
  | spnPubsyncSend
  /-- SPINE_TX_DONE (R287): A Spine-A message finishes on the line, and the next pending message is chosen by priority. -/
  | spineTxDone
  /-- HEARTBEAT_PULSE (R290): Every 10 µs HB_OUT pulses high for 2 µs if the SPN core has acknowledged the previous request. -/
  | heartbeatPulse (acked : Bool)
  /-- HB_IN_EDGE (R290): A rising edge at HB_IN marks the peer heartbeat alive. -/
  | hbInEdge
  /-- HEARTBEAT_SILENT (R290): 30 µs without an HB_IN edge makes the peer heartbeat silent. -/
  | heartbeatSilent
  /-- SPINE_PATH_SILENT (R291): No valid message for lease_us + 20 µs makes a Spine path silent, and event source 110 is raised. -/
  | spinePathSilent (path : SpinePath)
  /-- LEASE_LAPSE (R293): A holder's lease lapses while the peer heartbeat is alive, so it enters ISOLATED and stops acting. -/
  | leaseLapse
  /-- TAKE_ON_SILENCE (R294): A STANDBY takes the token when both paths and the heartbeat have been silent for lease + 20 µs. -/
  | takeOnSilence
  /-- SYNC_TIMEOUT (R295): A SYNCING unit with no valid Spine message for lease + 20 µs returns to JOINING. -/
  | syncTimeout
  /-- JOIN_TIMEOUT (R296): join_ms without any message or heartbeat makes a JOINING unit HOLDER, and with a heartbeat alone raises event source 111. -/
  | joinTimeout
  /-- SPN_CMD_RELEASE (R300): SPN_CMD RELEASE with confirm 0xA5 releases the token of a holder whose peer is STANDBY. -/
  | spnCmdRelease (m : Master) (confirm : Fin 256)
  /-- REJOIN (R295): SPN_CMD REJOIN moves a RELEASED unit to JOINING while no cause stands. -/
  | spnRejoin (m : Master)
  /-- SPN_CLEAR_CNT (R295): SPN_CMD CLEAR_CNT clears the pair counters. -/
  | spnClearCnt (m : Master)
  /-- RETURN_HOLDOFF (R302): A PRIMARY STANDBY whose return conditions have held for holdoff_s sends REQUEST. -/
  | returnHoldoff
  /-- SPN_RETURN_WRITE (R302): A write to SPN_RETURN restarts the hold-off count. -/
  | spnReturnWrite (m : Master) (v : BitVec 32)
  /-- ACQ_ENABLE (R313): Writing enable = 1 lays out the segments and moves the recorder to READY, or stays OFF with NO_PARTITION. -/
  | acqEnable (m : Master)
  /-- ACQ_DISABLE (R313): Writing enable = 0 enters DISABLING, and the recorder reaches OFF at once or at completion. -/
  | acqDisable (m : Master)
  /-- ARM (R314): ACQ_CMD ARM checks the configuration and arms the lowest FREE segment. -/
  | acqArm (m : Master)
  /-- DISARM (R313): ACQ_CMD DISARM frees the armed segment, or prevents the rearm of a running record. -/
  | acqDisarm (m : Master)
  /-- FORCE (R319): ACQ_CMD FORCE acts as a firing term in the step that holds the command time. -/
  | acqForce (m : Master)
  /-- FREE (R311): ACQ_CMD FREE makes a COMPLETE segment FREE, or gives STATE. -/
  | acqFree (m : Master) (seg : Fin 64)
  /-- ACQ_CLEAR_CNT (R313): ACQ_CMD CLEAR_CNT clears the acquisition counters. -/
  | acqClearCnt (m : Master)
  /-- ACQ_PRE_FULL (R316): At t_arm + pre_ms the pre-trigger part becomes full. -/
  | acqPreFull
  /-- ACQ_VALUE_TAKE (R309): A lane takes a channel value and forms track entries and condition states. -/
  | acqValueTake (skip : Nat)
  /-- TRIGGER_STEP_EVAL (R317): At step_i+1 + settle a trigger step is evaluated, and a firing term starts a record. -/
  | triggerStepEval
  /-- RECORD_COMPLETE (R320): Every track has formed its last entry, so the record is finished and its segment becomes COMPLETE. -/
  | recordComplete
  /-- RECORD_TAIL_EXPIRE (R320): At tt + post + tail the record completes, with unformed entries set to NaN and marked INCOMPLETE. -/
  | recordTailExpire
  /-- ETH_PORT_ENABLE (R332): Writing enable = 1 checks the port configuration and turns the port ON, or refuses it. -/
  | ethPortEnable (m : Master) (p : Port)
  /-- ETH_PORT_DISABLE (R332): Writing enable = 0 stops reception at a frame boundary and enters DISABLING. -/
  | ethPortDisable (m : Master) (p : Port)
  /-- LINK_CHANGE (R352): A port's link goes up or down, which raises the LINK event source. -/
  | linkChange (p : Port) (up : Bool)
  /-- ETH_FRAME_RX (R336): A received frame is checked, stamped and classified to a fabric block or the host rings. -/
  | ethFrameRx (p : Port) (bytes : List Byte) (err : RxError) (capture : Nat)
  /-- PAUSE_HOLD_END (R342): A PAUSE hold expires and transmission resumes. -/
  | pauseHoldEnd (p : Port)
  /-- RX_RING_TAKE (R344): A read of ETHn_RXRh_TAKE releases the held slots and takes every complete frame. -/
  | rxRingTake (m : Master) (p : Port) (h : Fin 2)
  /-- RX_RING_DONE (R344): A write of ETHn_RXRh_DONE releases the held slots without taking. -/
  | rxRingDone (m : Master) (p : Port) (h : Fin 2)
  /-- RX_RING_ENABLE (R347): Enabling a receive ring from OFF sets all four indices to 0. -/
  | rxRingEnable (m : Master) (p : Port) (h : Fin 2)
  /-- RX_RING_DISABLE (R347): Writing enable = 0 turns the ring OFF at once, and a frame in progress is dropped and rewound. -/
  | rxRingDisable (m : Master) (p : Port) (h : Fin 2)
  /-- TX_RING_TAIL (R348): A write of ETHn_TXRh_TAIL makes the descriptors up to TAIL available for transmission. -/
  | txRingTail (m : Master) (p : Port) (h : Fin 2) (tail : BitVec 16)
  /-- TX_RING_ENABLE (R348): Enabling a transmit ring from OFF sets HEAD and TAIL to 0. -/
  | txRingEnable (m : Master) (p : Port) (h : Fin 2)
  /-- TX_RING_DISABLE (R349): Disabling a transmit ring ends the frame in transmission with ABORTED. -/
  | txRingDisable (m : Master) (p : Port) (h : Fin 2)
  /-- TX_FRAME_END (R339): A frame finishes transmission, its descriptors are written back, and the next frame is chosen by queue priority. -/
  | txFrameEnd (p : Port) (capture : Nat)
  /-- TX_UNDERRUN (R350): The MAC needs a byte that has not arrived, so it ends the frame with an inverted FCS and raises cut_thr. -/
  | txUnderrun (p : Port)
  /-- MM_VERIFY_ATTEMPT (R340): Every verify_ms the port retries IEEE 802.3br verification, and reports FAILED after three attempts. -/
  | mmVerifyAttempt (p : Port)
  /-- MM_CONFIG_WRITE (R340): A change of pre_en or verify_dis restarts preemption verification. -/
  | mmConfigWrite (m : Master) (p : Port) (v : BitVec 32)
  /-- PULSE_CONFIRM (R353): deb_ms consecutive samples confirm a pulse, which is booked to its quantity. -/
  | pulseConfirm (i : Fin 32) (high : Bool) (run : Nat) (ms : Nat)
  /-- DIRECTION_CONFIRM (R356): A direction input's new level is confirmed before the pulse confirmations of the same sample. -/
  | directionConfirm (c : Fin 16) (high : Bool) (run : Nat) (ms : Nat)
  /-- INTERVAL_BOUNDARY (R359): At a calendar boundary the open intervals close with offsets, INTERVAL records are written and staged parameters take effect. -/
  | intervalBoundary
  /-- PERIODIC_SAVE (R362): Every period_s operating seconds the device starts writing a save into the next ring slot. -/
  | periodicSave
  /-- SAVE_COMPLETE (R362): A save's write and read-back end, either succeeding or retrying after a mismatch. -/
  | saveComplete (ok : Bool)
  /-- SEAL_IN_ASSERT (R366): SEAL_IN asserted for 10 µs sets the seal latch, which opens the seal. -/
  | sealInAssert (asserted : Bool) (long : Bool)
  /-- OPEN (R366): ENR_SEAL_CMD OPEN from MG compares the seal key and opens the seal by procedure, or counts a mismatch. -/
  | sealOpen (m : Master)
  /-- CLOSE (R366): ENR_SEAL_CMD CLOSE from MG ends the opening by procedure, and clears the latch while SEAL_IN is released. -/
  | sealClose (m : Master)
  /-- SEAL_OPENING_EXPIRE (R366): 3,600 s after OPEN the opening by procedure ends. -/
  | sealOpeningExpire
  /-- LEGAL_PARAM_WRITE (R365): MG writes a legal parameter while the seal is open, which stages it and appends PARAM_CHANGE. -/
  | legalParamWrite (m : Master) (off : Nat) (v : BitVec 32)
  /-- LEGAL_RECORD_WRITE_DONE (R374): A pending legal record's NVM write and read-back complete, and the record becomes visible. -/
  | legalRecordWriteDone
  /-- LOG_INDEX_SELECT (R378): A write of EVR_x_IDX snapshots the record at that index for the writing master. -/
  | logIndexSelect (m : Master) (l : Fin 2) (i : Fin 16384)
  /-- LOG_REC7_READ (R378): A read of EVR_x_REC7 advances the master's index and snapshots the next record. -/
  | logRec7Read (m : Master) (l : Fin 2)
  /-- LOG_CLEAR (R379): EVR_x_CMD CLEAR checks count, head and seal, then removes n records. -/
  | logClear (m : Master) (l : Fin 2) (n : Fin 16384)
  /-- CMP_JOB_SUBMIT (R382): A write of CMP_JOB7 submits a compression job, which is refused with FIELD or FULL, or queued. -/
  | cmpJobSubmit (m : Master) (v : BitVec 32)
  /-- CMP_JOB_START (R383): The engine picks the next job by priority and starts it. -/
  | cmpJobStart
  /-- CMP_JOB_END (R393): A compression job ends with a status and writes its job record. -/
  | cmpJobEnd
  /-- CMP_JOB_SUSPEND (R389): A job that needs another buffer when next is 0 suspends into a context slot. -/
  | cmpJobSuspend
  /-- CMP_CANCEL (R394): CMP_CMD CANCEL ends every job of the writing master that carries the given tag. -/
  | cmpCancel (m : Master) (tag : BitVec 16)
  /-- RESUME (R389): CMP_CMD RESUME re-reads next and queues a suspended job that can continue. -/
  | cmpResume (m : Master) (k : Fin 4)
  /-- CMP_ENABLE (R395): Writing enable = 1 turns the compression engine ON. -/
  | cmpEnable (m : Master)
  /-- CMP_DISABLE (R395): Writing enable = 0 lets the running job end or suspend, and the engine reaches OFF. -/
  | cmpDisable (m : Master)
  /-- ARCHIVE_RELEASE (R398): A write of CMP_ARCH_RD releases archive entries up to an entry start. -/
  | archiveRelease (m : Master) (v : BitVec 32)
  /-- QUEUE_ENABLE (R400): Writing enable = 1 checks the queue range and turns the queue ON, or refuses it. -/
  | queueEnable (m : Master) (n : Fin 64)
  /-- QUEUE_DISABLE (R401): Writing enable = 0 discards the queue's content and staged packets, and the queue reaches OFF. -/
  | queueDisable (m : Master) (n : Fin 64)
  /-- QUEUE_FLUSH (R407): Writing flush = 1 empties the queue at once without counting losses. -/
  | queueFlush (m : Master) (n : Fin 64)
  /-- QUEUE_POP (R404): A read of POP_LO removes the oldest committed word, or stalls while the queue is empty. -/
  | queuePop (m : Master) (n : Fin 64) (wide : Bool)
  /-- POP_STALL_TIMEOUT (R405): A stalled pop with no word after stall_us returns the empty token. -/
  | popStallTimeout (n : Fin 64)
  /-- PUSH_WORD (R403): A write of PUSH_HI appends a word to the master's staging buffer. -/
  | pushWord (m : Master) (n : Fin 64) (hi : BitVec 32)
  /-- PUSH_COMMIT (R403): PUSH_END COMMIT offers the staged words to the queue as one packet. -/
  | pushCommit (m : Master) (n : Fin 64)
  /-- PUSH_BAD (R403): PUSH_END BAD discards the staged words. -/
  | pushBad (m : Master) (n : Fin 64)
  /-- PACKET_RESERVE (R406): A producer reserves space for a packet, and the oldest packets are overwritten if needed. -/
  | packetReserve (n : Fin 64) (words : List (BitVec 64))
  /-- PACKET_COMMIT (R402): A packet's last word is committed, and the whole packet becomes visible. -/
  | packetCommit (n : Fin 64) (i : Nat) (good : Bool)
  /-- QUE_OCC_CLEAR_HWM (R408): A write of clear_hwm in QUE_Qn_OCC sets the high-water mark to the occupancy. -/
  | queOccClearHwm (m : Master) (n : Fin 64)
  /-- POOL_TEST_WRITE (R409): A change of QUE_POOL.test flushes every queue and switches the pool mode. -/
  | poolTestWrite (m : Master) (on : Bool)
  /-- POOL_INIT_DONE (R409): Initialisation of the pool check bits ends, and the queues serve again in the new mode. -/
  | poolInitDone
  /-- ERROR_INJECT (R412): A write of QUE_TEST injects one or two bit errors into the next word committed to a queue. -/
  | errorInject (m : Master) (n : Fin 64) (kind : Fin 4)
  /-- PCIE_LINK_DOWN (R419): A hot reset or link-down of one endpoint resets its configuration space and aborts its DMA. -/
  | pcieLinkDown (e : Endpoint)
  /-- DMA_START (R420): Writing enable = 1 to an idle DMA channel starts its descriptor chain. -/
  | dmaStart (m : Master) (i : Fin 16)
  /-- DMA_DESCRIPTOR_DONE (R421): A DMA descriptor ends with a status, and the chain continues or stops. -/
  | dmaDescriptorDone (e : Endpoint)
  /-- DMA_ABORT (R421): Writing enable = 0 ends the running descriptor with ABORTED and stops the chain. -/
  | dmaAbort (m : Master) (i : Fin 16)
  /-- SPI_READ (R422): An SPI READ transaction with a good CRC reads a register or pops a queue and returns the response. -/
  | spiRead (mosi : List Byte)
  /-- SPI_WRITE (R422): An SPI WRITE transaction with a good CRC takes effect and returns a status response. -/
  | spiWrite (mosi : List Byte)
  /-- SPI_CS_EARLY_RISE (R424): MG_CS_N rises before the last request bit and the transaction is discarded, or the response is cut and counted. -/
  | spiCsEarlyRise (mosi : List Byte) (after : Bool)
  /-- BAR2_ACCESS (R418): A BAR2 access reaches DRAM through the aperture and is checked against its partition's table. -/
  | bar2Access (e : Endpoint) (off : Nat) (acc : BarAcc)
  /-- EVENT_MERGED_RAISE (R496): A merged raise of a rate-limited event source takes effect at the start of the next aligned millisecond. -/
  | eventMergedRaise (src : Fin 128)
  /-- EVC_MASK_WRITE (R433): Clearing a mask bit while its pending bit is set sends the MSI-X message. -/
  | evcMaskWrite (m : Master) (t : Fin 3) (w : Fin 4) (v : BitVec 32)
  /-- DOORBELL (R436): A write to EVC_DOORBELL raises source 127 and records the value and the writing master. -/
  | doorbell (m : Master) (v : BitVec 32)
  /-- REFCLK_MONITOR_TRIP (R438): The clock monitor trips on an absent or out-of-range REFCLK, which sends the multiplier to COAST and starts fallbacks. -/
  | refclkMonitorTrip (cause : Fin 3)
  /-- MONITOR_CLEAR (R438): Sixteen consecutive REFCLK cycles within the limits clear the monitor. -/
  | monitorClear
  /-- REFCLK_FIRST_EDGE (R439): The first REFCLK edge with the monitor clear moves the multiplier to COUNTING. -/
  | refclkFirstEdge
  /-- COUNT_COMPLETE (R439): 131,072 REFCLK cycles without a trip move the multiplier to LOCKING. -/
  | countComplete
  /-- LOCK_ACHIEVED (R442): The VCO reaches lock, COAST clears and the PHYs resume. -/
  | lockAchieved
  /-- RETRY (R439): CKP_CTRL.retry in HELD returns the multiplier to WAIT_REF with attempts at 0. -/
  | clkRetry (m : Master)
  /-- DOMAIN_ENABLE (R445): Writing enable = 1 to an OFF domain starts it at divider 1,024 and ramps it. -/
  | domainEnable (m : Master) (g : Fin 10)
  /-- DOMAIN_DISABLE (R445): Writing enable = 0 to an ON domain ramps it down and stops it. -/
  | domainDisable (m : Master) (g : Fin 10)
  /-- DOMAIN_SOURCE_SWITCH (R447): A write of source to an ON domain requests a glitch-free switch, or is refused. -/
  | domainSourceSwitch (m : Master) (g : Fin 10) (ref : Bool) (edge : Bool)
  /-- DOMAIN_RAMP_STEP (R446): After 256 cycles at a divider the domain steps its divider, and reaches ON or OFF at its target. -/
  | domainRampStep (g : Fin 10)
  /-- SWITCH_EDGE_TIMEOUT (R448): No edge of the old clock within 1 µs forces the switch from divider 1,024. -/
  | switchEdgeTimeout (g : Fin 10)
  /-- FREQ_MEASURE (R453): Each 1 ms window publishes the frequency of every domain. -/
  | freqMeasure (khz : List Nat)
  /-- SSC_APPLY (R450): A spread-spectrum change takes effect at the next top of the triangle. -/
  | sscApply (n : Fin 4)
  /-- PORN_ASSERT (R462): PORn held low for 1 µs resets the device. -/
  | pornAssert
  /-- RESET_RELEASE (R456): 1 ms after PORn is high with every monitor clear, internal reset is released and start-up begins. -/
  | resetRelease
  /-- SUPPLY_MONITOR_TRIP (R456): A main rail falls below its threshold and resets the device with cause SUPPLY. -/
  | supplyMonitorTrip
  /-- SUPPLY_WARN (R457): A rail lies below its request or nominal value, which raises event source 10. -/
  | supplyWarn (rail : Rail)
  /-- TJ_MEASURE (R460): Every 1 ms Tj is measured and the thermal cause is set or cleared. -/
  | tjMeasure (tj : Int)
  /-- SOFT_RESET (R462): CKP_RESET with confirm 0x5E from an administering master resets the device. -/
  | softReset (m : Master) (confirm : BitVec 32)
  /-- ORDERLY_SHUTDOWN (R466): CKP_SHUTDOWN with confirm 0xD5 starts an orderly shutdown, or is refused with BUSY or STATE. -/
  | orderlyShutdown (m : Master) (confirm : BitVec 32)
  /-- SHUTDOWN_POWER_OFF (R466): Once the pending legal records are written, the island records ORDERLY and drives PWR_EN low. -/
  | shutdownPowerOff
  /-- VSTBY_RISE (R478): VSTBY rising through its threshold sets the SEAL_IN latch and drives PWR_EN high. -/
  | vstbyRise
  /-- WAKE_EDGE (R461): A WAKE rising edge returns PWR_EN high, or is remembered during the 100 ms hold-off. -/
  | wakeEdge
  /-- WAKE_HOLDOFF_EXPIRE (R461): 100 ms after PWR_EN fell, a remembered WAKE edge takes effect. -/
  | wakeHoldoffExpire
  /-- STARTUP_NVM_READ (R463): At start-up step 4 the NVM areas are checked, settings applied, the save restored and training begun. -/
  | startupNvmRead (bad : Fin 16)
  /-- DDR_TRAINING_DONE (R464): DDR5 training completes or fails, which fixes the installed capacity. -/
  | ddrTrainingDone (ok : Bool) (mib : Nat)
  /-- NVM_KEY_WRITE (R471): A write of NVM_KEY advances the two-word key sequence that arms a store. -/
  | nvmKeyWrite (m : Master) (v : BitVec 32)
  /-- NVM_KEY_EXPIRE (R471): 1 ms after arming without an NVM_CMD, the key disarms. -/
  | nvmKeyExpire (m : Master)
  /-- STORE_SLOT (R471): NVM_CMD STORE_SLOT writes an image into a Binding slot. -/
  | storeSlot (m : Master) (slot : Fin 4) (staging : Bool)
  /-- ERASE_SLOT (R471): NVM_CMD ERASE_SLOT erases a Binding slot. -/
  | eraseSlot (m : Master) (slot : Fin 4)
  /-- STORE_SETTINGS (R471): NVM_CMD STORE_SETTINGS writes the persistent settings area. -/
  | storeSettings (m : Master) (staging : Bool)
  /-- ENROLL_KEY (R471): NVM_CMD ENROLL_KEY enrols the owner key once. -/
  | enrollKey (m : Master) (staging : Bool)
  /-- SET_MINVER (R471): NVM_CMD SET_MINVER raises BND_MINVER, and refuses any lowering. -/
  | setMinver (m : Master)
  /-- SET_SEAL_KEY (R471): NVM_CMD SET_SEAL_KEY from MG with the seal open writes the seal key. -/
  | setSealKey (m : Master)
  /-- NVM_CHUNK_DONE (R468): A 64 KiB store chunk completes, and pending appends and saves are taken before the next chunk. -/
  | nvmChunkDone
  /-- NVM_CMD_DONE (R472): An NVM command finishes after read-back, with its result, and raises event source 9. -/
  | nvmCmdDone (ok : Bool)
  /-- DOUT_FAULT (R482): The DOUT monitor and the expected state differ for 200 µs, so the fault bit sets. -/
  | doutFault (n : Fin 16)
  /-- TAP_INSTRUCTION (R480): A TAP instruction loads under IEEE 1149.1, with EXTEST, INTEST and CLAMP selecting BYPASS in service. -/
  | tapInstruction (t : TapOp)
  /-- ECC_CRIT (R297): An uncorrectable ECC error in the alarm state table, the input or output image, the SPN state or the Collator tables raises self-diagnosis cause ECC_CRIT and releases the token. -/
  | eccCrit
  /-- PCIE_LINK_UP (R419): A PCIe endpoint's link comes up, and device writes to that host's memory are delivered again. -/
  | pcieLinkUp (e : Endpoint)
  /-- VSTBY_LOSS (R478): VSTBY falls below the island monitor threshold; the device is held in reset and the island state is lost. -/
  | vstbyLoss
  /-- SPINE_MESSAGE_DISCARD (R288): A Spine message with a wrong CRC, a foreign pair_id, the receiver's own unit_id, an unknown type or an already-seen sequence number is discarded and counted in SPN_CRC_ERR or SPN_FOREIGN. -/
  | spineMessageDiscard (rx : SpineRx)
  /-- MM_VERIFY_RESPONSE_RX (R340): An IEEE 802.3br verify or respond mPacket is received, and port verification can reach SUCCEEDED so that preemption becomes active. -/
  | mmVerifyResponseRx (p : Port)
  deriving DecidableEq, Repr

end Sys2Proof
end

