-- ==== Sys2Proof/Decode.lean ====
section
/-! DEFINITION. Words of the table of operations. The table gives none of its rows any bits: a command comes from outside as an access, a
frame, a message or an event, so no word spells one. -/
namespace Sys2Proof

/-- The command that a word of `nbits` bits spells by the table: none, since no row of the table has a bit. -/
def decodeTableWord (_nbits _w : Nat) : Option Instr := none

end Sys2Proof
end

