-- ==== Sys2Proof/Machine/Fields.lean ====
section
/-! DEFINITION. The named fields of the registers, one per field of the manual's tables: where each is found. -/
namespace Sys2Proof.Machine

/-- A field of a register: the key of its register, its lowest bit and its width. -/
structure Fld where
  key : Nat
  lo : Nat
  width : Nat
  deriving DecidableEq, Repr

/-- GCTL_HDRM (R31). -/
def GCTL_HDRM : Fld := ⟨0x100, 0, 32⟩
/-- GCTL_HDRM.headroom. -/
def GCTL_HDRM_headroom : Fld := ⟨0x100, 0, 16⟩
/-- GCTL_HDRM.ring. -/
def GCTL_HDRM_ring : Fld := ⟨0x100, 16, 3⟩
/-- GCTL_HDRM.low. -/
def GCTL_HDRM_low : Fld := ⟨0x100, 29, 1⟩
/-- GCTL_HDRM.valid. -/
def GCTL_HDRM_valid : Fld := ⟨0x100, 31, 1⟩
/-- GCTL_AVS_CFG (R29). -/
def GCTL_AVS_CFG : Fld := ⟨0x104, 0, 32⟩
/-- GCTL_AVS_CFG.margin. -/
def GCTL_AVS_CFG_margin : Fld := ⟨0x104, 0, 8⟩
/-- GCTL_AVS_CFG.hysteresis. -/
def GCTL_AVS_CFG_hysteresis : Fld := ⟨0x104, 8, 4⟩
/-- GCTL_AVS_CFG.up_step. -/
def GCTL_AVS_CFG_up_step : Fld := ⟨0x104, 12, 4⟩
/-- GCTL_AVS_CFG.down_step. -/
def GCTL_AVS_CFG_down_step : Fld := ⟨0x104, 16, 4⟩
/-- GCTL_AVS_CFG.enable. -/
def GCTL_AVS_CFG_enable : Fld := ⟨0x104, 24, 1⟩
/-- GCTL_HDRM_RING (R28). -/
def GCTL_HDRM_RING (i : Nat) : Fld := ⟨0x110 + i * 0x4, 0, 32⟩
/-- GCTL_HDRM_RING.headroom. -/
def GCTL_HDRM_RING_headroom (i : Nat) : Fld := ⟨0x110 + i * 0x4, 0, 16⟩
/-- GCTL_HDRM_RING.count. -/
def GCTL_HDRM_RING_count (i : Nat) : Fld := ⟨0x110 + i * 0x4, 16, 16⟩
/-- GCTL_QMON_SEL (R9). -/
def GCTL_QMON_SEL (m : Nat) : Fld := ⟨(m + 1) * 0x4000000 + 0x200, 0, 32⟩
/-- GCTL_QMON_SEL.index. -/
def GCTL_QMON_SEL_index (m : Nat) : Fld := ⟨(m + 1) * 0x4000000 + 0x200, 0, 10⟩
/-- GCTL_QMON_SEL.clear_hwm. -/
def GCTL_QMON_SEL_clear_hwm (m : Nat) : Fld := ⟨(m + 1) * 0x4000000 + 0x200, 31, 1⟩
/-- GCTL_QMON_DATA (R9). -/
def GCTL_QMON_DATA (m : Nat) : Fld := ⟨(m + 1) * 0x4000000 + 0x204, 0, 32⟩
/-- GCTL_QMON_DATA.credits. -/
def GCTL_QMON_DATA_credits (m : Nat) : Fld := ⟨(m + 1) * 0x4000000 + 0x204, 0, 12⟩
/-- GCTL_QMON_DATA.capacity. -/
def GCTL_QMON_DATA_capacity (m : Nat) : Fld := ⟨(m + 1) * 0x4000000 + 0x204, 12, 12⟩
/-- GCTL_QMON_DATA.hwm_pct. -/
def GCTL_QMON_DATA_hwm_pct (m : Nat) : Fld := ⟨(m + 1) * 0x4000000 + 0x204, 24, 8⟩
/-- GCTL_FAB_STAT (R16). -/
def GCTL_FAB_STAT : Fld := ⟨0x208, 0, 32⟩
/-- GCTL_FAB_STAT.timeout. -/
def GCTL_FAB_STAT_timeout : Fld := ⟨0x208, 0, 1⟩
/-- GCTL_FAB_STAT.block. -/
def GCTL_FAB_STAT_block : Fld := ⟨0x208, 8, 8⟩
/-- GCTL_FAB_STAT.dead_xing. -/
def GCTL_FAB_STAT_dead_xing : Fld := ⟨0x208, 16, 12⟩
/-- GCTL_XDROP (R25). -/
def GCTL_XDROP : Fld := ⟨0x20C, 0, 32⟩
/-- CKP_CTRL (R439). -/
def CKP_CTRL : Fld := ⟨0x10000, 0, 32⟩
/-- CKP_CTRL.retry. -/
def CKP_CTRL_retry : Fld := ⟨0x10000, 0, 1⟩
/-- CKP_STAT (R439). -/
def CKP_STAT : Fld := ⟨0x10004, 0, 32⟩
/-- CKP_STAT.state. -/
def CKP_STAT_state : Fld := ⟨0x10004, 0, 3⟩
/-- CKP_STAT.coast. -/
def CKP_STAT_coast : Fld := ⟨0x10004, 3, 1⟩
/-- CKP_STAT.attempts. -/
def CKP_STAT_attempts : Fld := ⟨0x10004, 4, 5⟩
/-- CKP_STAT.trip_cause. -/
def CKP_STAT_trip_cause : Fld := ⟨0x10004, 9, 2⟩
/-- CKP_STAT.mon_trip. -/
def CKP_STAT_mon_trip : Fld := ⟨0x10004, 11, 1⟩
/-- CKP_STAT.ref_ok. -/
def CKP_STAT_ref_ok : Fld := ⟨0x10004, 12, 1⟩
/-- CKP_STAT.ref_ppb_valid. -/
def CKP_STAT_ref_ppb_valid : Fld := ⟨0x10004, 13, 1⟩
/-- CKP_STAT.trips. -/
def CKP_STAT_trips : Fld := ⟨0x10004, 16, 16⟩
/-- CKP_REF_PPB (R453). -/
def CKP_REF_PPB : Fld := ⟨0x10008, 0, 32⟩
/-- CKP_DOM_CTRL (R445). -/
def CKP_DOM_CTRL (i : Nat) : Fld := ⟨0x10100 + i * 0x10, 0, 32⟩
/-- CKP_DOM_CTRL.enable. -/
def CKP_DOM_CTRL_enable (i : Nat) : Fld := ⟨0x10100 + i * 0x10, 0, 1⟩
/-- CKP_DOM_CTRL.state. -/
def CKP_DOM_CTRL_state (i : Nat) : Fld := ⟨0x10100 + i * 0x10, 1, 2⟩
/-- CKP_DOM_CTRL.enable_pending. -/
def CKP_DOM_CTRL_enable_pending (i : Nat) : Fld := ⟨0x10100 + i * 0x10, 3, 1⟩
/-- CKP_DOM_CTRL.source. -/
def CKP_DOM_CTRL_source (i : Nat) : Fld := ⟨0x10100 + i * 0x10, 4, 1⟩
/-- CKP_DOM_CTRL.fallback. -/
def CKP_DOM_CTRL_fallback (i : Nat) : Fld := ⟨0x10100 + i * 0x10, 5, 1⟩
/-- CKP_DOM_CTRL.switch_forced. -/
def CKP_DOM_CTRL_switch_forced (i : Nat) : Fld := ⟨0x10100 + i * 0x10, 6, 1⟩
/-- CKP_DOM_CTRL.result. -/
def CKP_DOM_CTRL_result (i : Nat) : Fld := ⟨0x10100 + i * 0x10, 8, 4⟩
/-- CKP_DOM_CTRL.ref_div. -/
def CKP_DOM_CTRL_ref_div (i : Nat) : Fld := ⟨0x10100 + i * 0x10, 12, 4⟩
/-- CKP_DOM_CTRL.divider. -/
def CKP_DOM_CTRL_divider (i : Nat) : Fld := ⟨0x10100 + i * 0x10, 16, 11⟩
/-- CKP_DOM_FREQ (R453). -/
def CKP_DOM_FREQ (i : Nat) : Fld := ⟨0x10104 + i * 0x10, 0, 32⟩
/-- CKP_DOM_FREQ.khz. -/
def CKP_DOM_FREQ_khz (i : Nat) : Fld := ⟨0x10104 + i * 0x10, 0, 24⟩
/-- CKP_DOM_FREQ.valid. -/
def CKP_DOM_FREQ_valid (i : Nat) : Fld := ⟨0x10104 + i * 0x10, 31, 1⟩
/-- CKP_SS_CFG (R450). -/
def CKP_SS_CFG (i : Nat) : Fld := ⟨0x10200 + i * 0x8, 0, 32⟩
/-- CKP_SS_CFG.depth. -/
def CKP_SS_CFG_depth (i : Nat) : Fld := ⟨0x10200 + i * 0x8, 0, 4⟩
/-- CKP_SS_CFG.rate. -/
def CKP_SS_CFG_rate (i : Nat) : Fld := ⟨0x10200 + i * 0x8, 4, 2⟩
/-- CKP_SS_STAT (R450). -/
def CKP_SS_STAT (i : Nat) : Fld := ⟨0x10204 + i * 0x8, 0, 32⟩
/-- CKP_SS_STAT.achieved. -/
def CKP_SS_STAT_achieved (i : Nat) : Fld := ⟨0x10204 + i * 0x8, 0, 8⟩
/-- CKP_SS_STAT.applied. -/
def CKP_SS_STAT_applied (i : Nat) : Fld := ⟨0x10204 + i * 0x8, 8, 4⟩
/-- CKP_CKO (R451). -/
def CKP_CKO : Fld := ⟨0x10300, 0, 32⟩
/-- CKP_CKO.cko0_en. -/
def CKP_CKO_cko0_en : Fld := ⟨0x10300, 0, 1⟩
/-- CKP_CKO.cko0_gate. -/
def CKP_CKO_cko0_gate : Fld := ⟨0x10300, 1, 1⟩
/-- CKP_CKO.cko1_en. -/
def CKP_CKO_cko1_en : Fld := ⟨0x10300, 2, 1⟩
/-- CKP_CKO.cko1_div. -/
def CKP_CKO_cko1_div : Fld := ⟨0x10300, 8, 8⟩
/-- CKP_PWR_STAT (R463). -/
def CKP_PWR_STAT : Fld := ⟨0x10800, 0, 32⟩
/-- CKP_PWR_STAT.step. -/
def CKP_PWR_STAT_step : Fld := ⟨0x10800, 0, 4⟩
/-- CKP_PWR_STAT.last_off. -/
def CKP_PWR_STAT_last_off : Fld := ⟨0x10800, 4, 1⟩
/-- CKP_PWR_STAT.shutting_down. -/
def CKP_PWR_STAT_shutting_down : Fld := ⟨0x10800, 5, 1⟩
/-- CKP_PWR_STAT.warn. -/
def CKP_PWR_STAT_warn : Fld := ⟨0x10800, 8, 4⟩
/-- CKP_PWR_STAT.cycles. -/
def CKP_PWR_STAT_cycles : Fld := ⟨0x10800, 16, 16⟩
/-- CKP_RST_CAUSE (R462). -/
def CKP_RST_CAUSE : Fld := ⟨0x10804, 0, 32⟩
/-- CKP_RST_CAUSE.cause. -/
def CKP_RST_CAUSE_cause : Fld := ⟨0x10804, 0, 4⟩
/-- CKP_RESET (R462). -/
def CKP_RESET : Fld := ⟨0x10808, 0, 32⟩
/-- CKP_RESET.confirm. -/
def CKP_RESET_confirm : Fld := ⟨0x10808, 0, 8⟩
/-- CKP_SHUTDOWN (R466). -/
def CKP_SHUTDOWN : Fld := ⟨0x1080C, 0, 32⟩
/-- CKP_SHUTDOWN.confirm. -/
def CKP_SHUTDOWN_confirm : Fld := ⟨0x1080C, 0, 8⟩
/-- CKP_SHUT_RESULT (R466). -/
def CKP_SHUT_RESULT : Fld := ⟨0x10810, 0, 32⟩
/-- CKP_SHUT_RESULT.result. -/
def CKP_SHUT_RESULT_result : Fld := ⟨0x10810, 0, 4⟩
/-- CKP_AVS_LIM (R458). -/
def CKP_AVS_LIM : Fld := ⟨0x10820, 0, 32⟩
/-- CKP_AVS_LIM.vmin_mv. -/
def CKP_AVS_LIM_vmin_mv : Fld := ⟨0x10820, 0, 16⟩
/-- CKP_AVS_LIM.vmax_mv. -/
def CKP_AVS_LIM_vmax_mv : Fld := ⟨0x10820, 16, 16⟩
/-- CKP_AVS_STAT (R458). -/
def CKP_AVS_STAT : Fld := ⟨0x10824, 0, 32⟩
/-- CKP_AVS_STAT.vout_mv. -/
def CKP_AVS_STAT_vout_mv : Fld := ⟨0x10824, 0, 16⟩
/-- CKP_AVS_STAT.fault. -/
def CKP_AVS_STAT_fault : Fld := ⟨0x10824, 16, 1⟩
/-- CKP_THERM (R460). -/
def CKP_THERM : Fld := ⟨0x10830, 0, 32⟩
/-- CKP_THERM.tj. -/
def CKP_THERM_tj : Fld := ⟨0x10830, 0, 16⟩
/-- CKP_THERM.trip. -/
def CKP_THERM_trip : Fld := ⟨0x10830, 16, 1⟩
/-- CKP_THERM_CFG (R460). -/
def CKP_THERM_CFG : Fld := ⟨0x10834, 0, 32⟩
/-- CKP_THERM_CFG.trip_c. -/
def CKP_THERM_CFG_trip_c : Fld := ⟨0x10834, 0, 8⟩
/-- BND_STAT (R42). -/
def BND_STAT : Fld := ⟨0x20000, 0, 32⟩
/-- BND_STAT.state. -/
def BND_STAT_state : Fld := ⟨0x20000, 0, 4⟩
/-- BND_STAT.active. -/
def BND_STAT_active : Fld := ⟨0x20000, 4, 2⟩
/-- BND_STAT.locked. -/
def BND_STAT_locked : Fld := ⟨0x20000, 6, 1⟩
/-- BND_STAT.key_enrolled. -/
def BND_STAT_key_enrolled : Fld := ⟨0x20000, 7, 1⟩
/-- BND_STAT.fallback. -/
def BND_STAT_fallback : Fld := ⟨0x20000, 8, 1⟩
/-- BND_STAT.slot_changed. -/
def BND_STAT_slot_changed : Fld := ⟨0x20000, 9, 1⟩
/-- BND_STAT.lock_timeout. -/
def BND_STAT_lock_timeout : Fld := ⟨0x20000, 10, 1⟩
/-- BND_RESULT (R40). -/
def BND_RESULT : Fld := ⟨0x20004, 0, 32⟩
/-- BND_RESULT.slot_a. -/
def BND_RESULT_slot_a : Fld := ⟨0x20004, 0, 8⟩
/-- BND_RESULT.slot_b. -/
def BND_RESULT_slot_b : Fld := ⟨0x20004, 8, 8⟩
/-- BND_RESULT.recovery. -/
def BND_RESULT_recovery : Fld := ⟨0x20004, 16, 8⟩
/-- BND_RESULT.command. -/
def BND_RESULT_command : Fld := ⟨0x20004, 24, 8⟩
/-- BND_CMD (R47). -/
def BND_CMD : Fld := ⟨0x20008, 0, 32⟩
/-- BND_CMD.cmd. -/
def BND_CMD_cmd : Fld := ⟨0x20008, 0, 4⟩
/-- BND_CMD.slot. -/
def BND_CMD_slot : Fld := ⟨0x20008, 4, 2⟩
/-- BND_CMD.confirm. -/
def BND_CMD_confirm : Fld := ⟨0x20008, 8, 8⟩
/-- BND_RCV_DATA (R44). -/
def BND_RCV_DATA : Fld := ⟨0x2000C, 0, 32⟩
/-- BND_RCV_COUNT (R44). -/
def BND_RCV_COUNT : Fld := ⟨0x20010, 0, 32⟩
/-- BND_ACT_ID (R40). -/
def BND_ACT_ID : Fld := ⟨0x20014, 0, 32⟩
/-- BND_ACT_VER (R40). -/
def BND_ACT_VER : Fld := ⟨0x20018, 0, 32⟩
/-- BND_MINVER (R41). -/
def BND_MINVER : Fld := ⟨0x2001C, 0, 32⟩
/-- BND_ACT_HASH (R40). -/
def BND_ACT_HASH (i : Nat) : Fld := ⟨0x20020 + i * 0x4, 0, 32⟩
/-- BND_FOLIO_CNT (R38). -/
def BND_FOLIO_CNT : Fld := ⟨0x20040, 0, 32⟩
/-- BND_FOLIO_CNT.rxp. -/
def BND_FOLIO_CNT_rxp : Fld := ⟨0x20040, 0, 4⟩
/-- BND_FOLIO_CNT.col. -/
def BND_FOLIO_CNT_col : Fld := ⟨0x20040, 4, 4⟩
/-- BND_FOLIO_CNT.flt. -/
def BND_FOLIO_CNT_flt : Fld := ⟨0x20040, 8, 5⟩
/-- BND_FOLIO_CNT.acq. -/
def BND_FOLIO_CNT_acq : Fld := ⟨0x20040, 16, 4⟩
/-- BND_FOLIO_CNT.out. -/
def BND_FOLIO_CNT_out : Fld := ⟨0x20040, 20, 4⟩
/-- BND_FOLIO_CNT.unbound. -/
def BND_FOLIO_CNT_unbound : Fld := ⟨0x20040, 24, 6⟩
/-- BND_CAP0 (R38). -/
def BND_CAP0 : Fld := ⟨0x20044, 0, 32⟩
/-- BND_CAP0.remote_sources. -/
def BND_CAP0_remote_sources : Fld := ⟨0x20044, 0, 16⟩
/-- BND_CAP0.all_sources. -/
def BND_CAP0_all_sources : Fld := ⟨0x20044, 16, 16⟩
/-- BND_CAP1 (R38). -/
def BND_CAP1 : Fld := ⟨0x20048, 0, 32⟩
/-- BND_CAP1.frame_kfps. -/
def BND_CAP1_frame_kfps : Fld := ⟨0x20048, 0, 12⟩
/-- BND_CAP1.sv_channels. -/
def BND_CAP1_sv_channels : Fld := ⟨0x20048, 12, 9⟩
/-- BND_CAP1.acq_channels. -/
def BND_CAP1_acq_channels : Fld := ⟨0x20048, 21, 9⟩
/-- BND_CAP1.masks. -/
def BND_CAP1_masks : Fld := ⟨0x20048, 30, 1⟩
/-- BND_FOLIO_MAP (R37). -/
def BND_FOLIO_MAP (i : Nat) : Fld := ⟨0x20050 + i * 0x4, 0, 32⟩
/-- BND_PART (R39). -/
def BND_PART (i : Nat) : Fld := ⟨0x20080 + i * 0x4, 0, 32⟩
/-- BND_PART.base_mib. -/
def BND_PART_base_mib (i : Nat) : Fld := ⟨0x20080 + i * 0x4, 0, 16⟩
/-- BND_PART.size_mib. -/
def BND_PART_size_mib (i : Nat) : Fld := ⟨0x20080 + i * 0x4, 16, 16⟩
/-- BND_RWB_DROP (R46). -/
def BND_RWB_DROP : Fld := ⟨0x200C0, 0, 32⟩
/-- BND_RWB_LAST (R46). -/
def BND_RWB_LAST : Fld := ⟨0x200C4, 0, 32⟩
/-- BND_RWB_LAST.offset. -/
def BND_RWB_LAST_offset : Fld := ⟨0x200C4, 0, 21⟩
/-- BND_RWB_LAST.master. -/
def BND_RWB_LAST_master : Fld := ⟨0x200C4, 24, 5⟩
/-- BND_REBIND_DROP (R50). -/
def BND_REBIND_DROP : Fld := ⟨0x200C8, 0, 32⟩
/-- NVM_KEY (R471). -/
def NVM_KEY : Fld := ⟨0x20100, 0, 32⟩
/-- NVM_CMD (R471). -/
def NVM_CMD : Fld := ⟨0x20104, 0, 32⟩
/-- NVM_CMD.cmd. -/
def NVM_CMD_cmd : Fld := ⟨0x20104, 0, 4⟩
/-- NVM_CMD.slot. -/
def NVM_CMD_slot : Fld := ⟨0x20104, 4, 2⟩
/-- NVM_CMD.src_staging. -/
def NVM_CMD_src_staging : Fld := ⟨0x20104, 6, 1⟩
/-- NVM_SRC_LO (R471). -/
def NVM_SRC_LO : Fld := ⟨0x20108, 0, 32⟩
/-- NVM_SRC_HI (R471). -/
def NVM_SRC_HI : Fld := ⟨0x2010C, 0, 32⟩
/-- NVM_LEN (R471). -/
def NVM_LEN : Fld := ⟨0x20110, 0, 32⟩
/-- NVM_ARG_LO (R471). -/
def NVM_ARG_LO : Fld := ⟨0x20114, 0, 32⟩
/-- NVM_ARG_HI (R471). -/
def NVM_ARG_HI : Fld := ⟨0x20118, 0, 32⟩
/-- NVM_STAT (R472). -/
def NVM_STAT : Fld := ⟨0x2011C, 0, 32⟩
/-- NVM_STAT.busy. -/
def NVM_STAT_busy : Fld := ⟨0x2011C, 0, 1⟩
/-- NVM_STAT.result. -/
def NVM_STAT_result : Fld := ⟨0x2011C, 1, 4⟩
/-- NVM_STAT.area_err. -/
def NVM_STAT_area_err : Fld := ⟨0x2011C, 5, 5⟩
/-- NVM_STAT.set_skip. -/
def NVM_STAT_set_skip : Fld := ⟨0x2011C, 16, 16⟩
/-- NVM_WEAR (R469). -/
def NVM_WEAR : Fld := ⟨0x20120, 0, 32⟩
/-- NVM_WEAR.spares_used. -/
def NVM_WEAR_spares_used : Fld := ⟨0x20120, 0, 6⟩
/-- NVM_WEAR.ring_len. -/
def NVM_WEAR_ring_len : Fld := ⟨0x20120, 6, 7⟩
/-- ACT_VIOL_CNT (R430). -/
def ACT_VIOL_CNT : Fld := ⟨0x30000, 0, 32⟩
/-- ACT_VIOL_FIRST0 (R430). -/
def ACT_VIOL_FIRST0 : Fld := ⟨0x30004, 0, 32⟩
/-- ACT_VIOL_FIRST0.master. -/
def ACT_VIOL_FIRST0_master : Fld := ⟨0x30004, 0, 5⟩
/-- ACT_VIOL_FIRST0.kind. -/
def ACT_VIOL_FIRST0_kind : Fld := ⟨0x30004, 5, 3⟩
/-- ACT_VIOL_FIRST0.target. -/
def ACT_VIOL_FIRST0_target : Fld := ⟨0x30004, 8, 7⟩
/-- ACT_VIOL_FIRST0.valid. -/
def ACT_VIOL_FIRST0_valid : Fld := ⟨0x30004, 31, 1⟩
/-- ACT_VIOL_FIRST1 (R430). -/
def ACT_VIOL_FIRST1 : Fld := ⟨0x30008, 0, 32⟩
/-- ACT_VIOL_LAST0 (R430). -/
def ACT_VIOL_LAST0 : Fld := ⟨0x3000C, 0, 32⟩
/-- ACT_VIOL_LAST0.master. -/
def ACT_VIOL_LAST0_master : Fld := ⟨0x3000C, 0, 5⟩
/-- ACT_VIOL_LAST0.kind. -/
def ACT_VIOL_LAST0_kind : Fld := ⟨0x3000C, 5, 3⟩
/-- ACT_VIOL_LAST0.target. -/
def ACT_VIOL_LAST0_target : Fld := ⟨0x3000C, 8, 7⟩
/-- ACT_VIOL_LAST0.valid. -/
def ACT_VIOL_LAST0_valid : Fld := ⟨0x3000C, 31, 1⟩
/-- ACT_VIOL_LAST1 (R430). -/
def ACT_VIOL_LAST1 : Fld := ⟨0x30010, 0, 32⟩
/-- ACT_AP (R418). -/
def ACT_AP (i : Nat) : Fld := ⟨0x30040 + i * 0x4, 0, 32⟩
/-- ACT_AP.base_mib. -/
def ACT_AP_base_mib (i : Nat) : Fld := ⟨0x30040 + i * 0x4, 0, 17⟩
/-- ACT_MG_STAT (R424). -/
def ACT_MG_STAT : Fld := ⟨0x30080, 0, 32⟩
/-- ACT_MG_STAT.crc_err. -/
def ACT_MG_STAT_crc_err : Fld := ⟨0x30080, 0, 16⟩
/-- ACT_MG_STAT.cut. -/
def ACT_MG_STAT_cut : Fld := ⟨0x30080, 16, 16⟩
/-- ACT_DMA_CTRL (R420). -/
def ACT_DMA_CTRL (i : Nat) : Fld := ⟨0x30100 + i * 0x20, 0, 32⟩
/-- ACT_DMA_CTRL.enable. -/
def ACT_DMA_CTRL_enable (i : Nat) : Fld := ⟨0x30100 + i * 0x20, 0, 1⟩
/-- ACT_DMA_CTRL.busy. -/
def ACT_DMA_CTRL_busy (i : Nat) : Fld := ⟨0x30100 + i * 0x20, 1, 1⟩
/-- ACT_DMA_CTRL.vector. -/
def ACT_DMA_CTRL_vector (i : Nat) : Fld := ⟨0x30100 + i * 0x20, 4, 5⟩
/-- ACT_DMA_CHAIN_LO (R420). -/
def ACT_DMA_CHAIN_LO (i : Nat) : Fld := ⟨0x30104 + i * 0x20, 0, 32⟩
/-- ACT_DMA_CHAIN_LO.addr. -/
def ACT_DMA_CHAIN_LO_addr (i : Nat) : Fld := ⟨0x30104 + i * 0x20, 5, 27⟩
/-- ACT_DMA_CHAIN_HI (R420). -/
def ACT_DMA_CHAIN_HI (i : Nat) : Fld := ⟨0x30108 + i * 0x20, 0, 32⟩
/-- ACT_DMA_STAT (R421). -/
def ACT_DMA_STAT (i : Nat) : Fld := ⟨0x3010C + i * 0x20, 0, 32⟩
/-- ACT_DMA_STAT.status. -/
def ACT_DMA_STAT_status (i : Nat) : Fld := ⟨0x3010C + i * 0x20, 0, 3⟩
/-- ACT_DMA_STAT.done. -/
def ACT_DMA_STAT_done (i : Nat) : Fld := ⟨0x3010C + i * 0x20, 16, 16⟩
/-- ACT_TBL (R426). -/
def ACT_TBL (i : Nat) : Fld := ⟨0x31000 + i * 0x4, 0, 32⟩
/-- TBS_CTRL (R55). -/
def TBS_CTRL : Fld := ⟨0x40000, 0, 32⟩
/-- TBS_CTRL.cmd. -/
def TBS_CTRL_cmd : Fld := ⟨0x40000, 0, 2⟩
/-- TBS_CTRL.set_state. -/
def TBS_CTRL_set_state : Fld := ⟨0x40000, 2, 2⟩
/-- TBS_CTRL.ptp_mode. -/
def TBS_CTRL_ptp_mode : Fld := ⟨0x40000, 8, 2⟩
/-- TBS_STATE (R63). -/
def TBS_STATE : Fld := ⟨0x40004, 0, 32⟩
/-- TBS_STATE.state. -/
def TBS_STATE_state : Fld := ⟨0x40004, 0, 2⟩
/-- TBS_STATE.coast. -/
def TBS_STATE_coast : Fld := ⟨0x40004, 2, 1⟩
/-- TBS_STATE.cmd_refused. -/
def TBS_STATE_cmd_refused : Fld := ⟨0x40004, 3, 1⟩
/-- TBS_STATE.clamp. -/
def TBS_STATE_clamp : Fld := ⟨0x40004, 4, 1⟩
/-- TBS_TIME_FRAC (R54). -/
def TBS_TIME_FRAC : Fld := ⟨0x40008, 0, 32⟩
/-- TBS_TIME_FRAC.value. -/
def TBS_TIME_FRAC_value : Fld := ⟨0x40008, 0, 16⟩
/-- TBS_TIME_NS (R54). -/
def TBS_TIME_NS : Fld := ⟨0x4000C, 0, 32⟩
/-- TBS_TIME_SEC_LO (R54). -/
def TBS_TIME_SEC_LO : Fld := ⟨0x40010, 0, 32⟩
/-- TBS_TIME_SEC_HI (R54). -/
def TBS_TIME_SEC_HI : Fld := ⟨0x40014, 0, 32⟩
/-- TBS_TIME_SEC_HI.value. -/
def TBS_TIME_SEC_HI_value : Fld := ⟨0x40014, 0, 16⟩
/-- TBS_NOW_LO (R54). -/
def TBS_NOW_LO : Fld := ⟨0x40018, 0, 32⟩
/-- TBS_NOW_HI (R54). -/
def TBS_NOW_HI : Fld := ⟨0x4001C, 0, 32⟩
/-- TBS_SET_NS (R55). -/
def TBS_SET_NS : Fld := ⟨0x40020, 0, 32⟩
/-- TBS_SET_SEC_LO (R55). -/
def TBS_SET_SEC_LO : Fld := ⟨0x40024, 0, 32⟩
/-- TBS_SET_SEC_HI (R55). -/
def TBS_SET_SEC_HI : Fld := ⟨0x40028, 0, 32⟩
/-- TBS_SET_SEC_HI.value. -/
def TBS_SET_SEC_HI_value : Fld := ⟨0x40028, 0, 16⟩
/-- TBS_ADJ (R55). -/
def TBS_ADJ : Fld := ⟨0x4002C, 0, 32⟩
/-- TBS_INCR_LO (R62). -/
def TBS_INCR_LO : Fld := ⟨0x40030, 0, 32⟩
/-- TBS_INCR_HI (R62). -/
def TBS_INCR_HI : Fld := ⟨0x40034, 0, 32⟩
/-- TBS_INCR_HI.value. -/
def TBS_INCR_HI_value : Fld := ⟨0x40034, 0, 8⟩
/-- TBS_INCR_NOM_LO (R52). -/
def TBS_INCR_NOM_LO : Fld := ⟨0x40038, 0, 32⟩
/-- TBS_INCR_NOM_HI (R52). -/
def TBS_INCR_NOM_HI : Fld := ⟨0x4003C, 0, 32⟩
/-- TBS_INCR_NOM_HI.value. -/
def TBS_INCR_NOM_HI_value : Fld := ⟨0x4003C, 0, 8⟩
/-- TBS_SERVO_CFG (R61). -/
def TBS_SERVO_CFG : Fld := ⟨0x40040, 0, 32⟩
/-- TBS_SERVO_CFG.kp. -/
def TBS_SERVO_CFG_kp : Fld := ⟨0x40040, 0, 16⟩
/-- TBS_SERVO_CFG.ki. -/
def TBS_SERVO_CFG_ki : Fld := ⟨0x40040, 16, 16⟩
/-- TBS_SERVO_LIM (R61). -/
def TBS_SERVO_LIM : Fld := ⟨0x40044, 0, 32⟩
/-- TBS_SERVO_LIM.step_ns. -/
def TBS_SERVO_LIM_step_ns : Fld := ⟨0x40044, 0, 24⟩
/-- TBS_SERVO_LIM.clamp_ppm. -/
def TBS_SERVO_LIM_clamp_ppm : Fld := ⟨0x40044, 24, 8⟩
/-- TBS_SERVO_OFS (R61). -/
def TBS_SERVO_OFS : Fld := ⟨0x40048, 0, 32⟩
/-- TBS_SERVO_FREQ (R61). -/
def TBS_SERVO_FREQ : Fld := ⟨0x4004C, 0, 32⟩
/-- TBS_LOCK_CFG (R63). -/
def TBS_LOCK_CFG : Fld := ⟨0x40050, 0, 32⟩
/-- TBS_LOCK_CFG.lock_count. -/
def TBS_LOCK_CFG_lock_count : Fld := ⟨0x40050, 0, 8⟩
/-- TBS_LOCK_CFG.unlock_count. -/
def TBS_LOCK_CFG_unlock_count : Fld := ⟨0x40050, 8, 8⟩
/-- TBS_LOCK_CFG.holdover_s. -/
def TBS_LOCK_CFG_holdover_s : Fld := ⟨0x40050, 16, 16⟩
/-- TBS_HOLD_CFG (R64). -/
def TBS_HOLD_CFG : Fld := ⟨0x40054, 0, 32⟩
/-- TBS_HOLD_CFG.drift_ppb. -/
def TBS_HOLD_CFG_drift_ppb : Fld := ⟨0x40054, 0, 16⟩
/-- TBS_HOLD_CFG.sync_ns. -/
def TBS_HOLD_CFG_sync_ns : Fld := ⟨0x40054, 16, 16⟩
/-- TBS_HOLD_EST (R64). -/
def TBS_HOLD_EST : Fld := ⟨0x40058, 0, 32⟩
/-- TBS_PTP_CFG (R58). -/
def TBS_PTP_CFG : Fld := ⟨0x40060, 0, 32⟩
/-- TBS_PTP_CFG.domain. -/
def TBS_PTP_CFG_domain : Fld := ⟨0x40060, 0, 8⟩
/-- TBS_PTP_CFG.port_en. -/
def TBS_PTP_CFG_port_en : Fld := ⟨0x40060, 8, 4⟩
/-- TBS_PTP_CFG.log_pdelay. -/
def TBS_PTP_CFG_log_pdelay : Fld := ⟨0x40060, 12, 4⟩
/-- TBS_PTP_CFG.announce_timeout. -/
def TBS_PTP_CFG_announce_timeout : Fld := ⟨0x40060, 16, 4⟩
/-- TBS_PTP_CFG.delay_k. -/
def TBS_PTP_CFG_delay_k : Fld := ⟨0x40060, 20, 3⟩
/-- TBS_PTP_CFG.copy_rx. -/
def TBS_PTP_CFG_copy_rx : Fld := ⟨0x40060, 23, 1⟩
/-- TBS_PTP_CFG.mirror_tx. -/
def TBS_PTP_CFG_mirror_tx : Fld := ⟨0x40060, 24, 1⟩
/-- TBS_PTP_MASTER (R59). -/
def TBS_PTP_MASTER : Fld := ⟨0x40064, 0, 32⟩
/-- TBS_PTP_MASTER.port. -/
def TBS_PTP_MASTER_port : Fld := ⟨0x40064, 0, 2⟩
/-- TBS_PTP_MASTER.valid. -/
def TBS_PTP_MASTER_valid : Fld := ⟨0x40064, 2, 1⟩
/-- TBS_PTP_MASTER.steps_removed. -/
def TBS_PTP_MASTER_steps_removed : Fld := ⟨0x40064, 8, 8⟩
/-- TBS_PTP_MASTER.port_number. -/
def TBS_PTP_MASTER_port_number : Fld := ⟨0x40064, 16, 16⟩
/-- TBS_PTP_MID_LO (R59). -/
def TBS_PTP_MID_LO : Fld := ⟨0x40068, 0, 32⟩
/-- TBS_PTP_MID_HI (R59). -/
def TBS_PTP_MID_HI : Fld := ⟨0x4006C, 0, 32⟩
/-- TBS_UTC (R66). -/
def TBS_UTC : Fld := ⟨0x40070, 0, 32⟩
/-- TBS_UTC.utc_offset. -/
def TBS_UTC_utc_offset : Fld := ⟨0x40070, 0, 16⟩
/-- TBS_UTC.leap. -/
def TBS_UTC_leap : Fld := ⟨0x40070, 16, 2⟩
/-- TBS_UTC.leap_dir. -/
def TBS_UTC_leap_dir : Fld := ⟨0x40070, 18, 1⟩
/-- TBS_UTC.leap_occurred. -/
def TBS_UTC_leap_occurred : Fld := ⟨0x40070, 19, 1⟩
/-- TBS_UTC.src. -/
def TBS_UTC_src : Fld := ⟨0x40070, 20, 1⟩
/-- TBS_UTC.valid. -/
def TBS_UTC_valid : Fld := ⟨0x40070, 21, 1⟩
/-- TBS_TQ (R65). -/
def TBS_TQ : Fld := ⟨0x40074, 0, 32⟩
/-- TBS_TQ.code. -/
def TBS_TQ_code : Fld := ⟨0x40074, 0, 4⟩
/-- TBS_TQ.unlocked. -/
def TBS_TQ_unlocked : Fld := ⟨0x40074, 4, 2⟩
/-- TBS_TQ.sync_err. -/
def TBS_TQ_sync_err : Fld := ⟨0x40074, 6, 1⟩
/-- TBS_TQ.since_locked. -/
def TBS_TQ_since_locked : Fld := ⟨0x40074, 16, 16⟩
/-- TBS_PTP_DROP (R57). -/
def TBS_PTP_DROP : Fld := ⟨0x40078, 0, 32⟩
/-- TBS_P_RXADJ (R68). -/
def TBS_P_RXADJ (i : Nat) : Fld := ⟨0x40100 + i * 0x20, 0, 32⟩
/-- TBS_P_TXADJ (R68). -/
def TBS_P_TXADJ (i : Nat) : Fld := ⟨0x40104 + i * 0x20, 0, 32⟩
/-- TBS_P_DELAY (R60). -/
def TBS_P_DELAY (i : Nat) : Fld := ⟨0x40108 + i * 0x20, 0, 32⟩
/-- TBS_P_TXQ_STAT (R71). -/
def TBS_P_TXQ_STAT (i : Nat) : Fld := ⟨0x4010C + i * 0x20, 0, 32⟩
/-- TBS_P_TXQ_STAT.count. -/
def TBS_P_TXQ_STAT_count (i : Nat) : Fld := ⟨0x4010C + i * 0x20, 0, 5⟩
/-- TBS_P_TXQ_STAT.overflow. -/
def TBS_P_TXQ_STAT_overflow (i : Nat) : Fld := ⟨0x4010C + i * 0x20, 8, 1⟩
/-- TBS_P_TXQ_STAT.irq_en. -/
def TBS_P_TXQ_STAT_irq_en (i : Nat) : Fld := ⟨0x4010C + i * 0x20, 9, 1⟩
/-- TBS_P_TXQ_STAT.ovf_count. -/
def TBS_P_TXQ_STAT_ovf_count (i : Nat) : Fld := ⟨0x4010C + i * 0x20, 16, 16⟩
/-- TBS_P_TXQ_ID (R70). -/
def TBS_P_TXQ_ID (i : Nat) : Fld := ⟨0x40110 + i * 0x20, 0, 32⟩
/-- TBS_P_TXQ_NS (R70). -/
def TBS_P_TXQ_NS (m i : Nat) : Fld := ⟨(m + 1) * 0x4000000 + 0x40114 + i * 0x20, 0, 32⟩
/-- TBS_P_TXQ_SEC_LO (R70). -/
def TBS_P_TXQ_SEC_LO (m i : Nat) : Fld := ⟨(m + 1) * 0x4000000 + 0x40118 + i * 0x20, 0, 32⟩
/-- TBS_P_TXQ_SEC_HI (R70). -/
def TBS_P_TXQ_SEC_HI (m i : Nat) : Fld := ⟨(m + 1) * 0x4000000 + 0x4011C + i * 0x20, 0, 32⟩
/-- TBS_P_TXQ_SEC_HI.value. -/
def TBS_P_TXQ_SEC_HI_value (m i : Nat) : Fld := ⟨(m + 1) * 0x4000000 + 0x4011C + i * 0x20, 0, 16⟩
/-- TBS_TTO_CTRL (R72). -/
def TBS_TTO_CTRL (i : Nat) : Fld := ⟨0x40200 + i * 0x20, 0, 32⟩
/-- TBS_TTO_CTRL.enable. -/
def TBS_TTO_CTRL_enable (i : Nat) : Fld := ⟨0x40200 + i * 0x20, 0, 1⟩
/-- TBS_TTO_CTRL.polarity. -/
def TBS_TTO_CTRL_polarity (i : Nat) : Fld := ⟨0x40200 + i * 0x20, 1, 1⟩
/-- TBS_TTO_CTRL.gate. -/
def TBS_TTO_CTRL_gate (i : Nat) : Fld := ⟨0x40200 + i * 0x20, 2, 1⟩
/-- TBS_TTO_STAT (R74). -/
def TBS_TTO_STAT (i : Nat) : Fld := ⟨0x40204 + i * 0x20, 0, 32⟩
/-- TBS_TTO_STAT.state. -/
def TBS_TTO_STAT_state (i : Nat) : Fld := ⟨0x40204 + i * 0x20, 0, 2⟩
/-- TBS_TTO_STAT.enable_pending. -/
def TBS_TTO_STAT_enable_pending (i : Nat) : Fld := ⟨0x40204 + i * 0x20, 2, 1⟩
/-- TBS_TTO_STAT.cfg_err. -/
def TBS_TTO_STAT_cfg_err (i : Nat) : Fld := ⟨0x40204 + i * 0x20, 3, 1⟩
/-- TBS_TTO_STAT.wr_drop. -/
def TBS_TTO_STAT_wr_drop (i : Nat) : Fld := ⟨0x40204 + i * 0x20, 4, 1⟩
/-- TBS_TTO_STAT.miss_count. -/
def TBS_TTO_STAT_miss_count (i : Nat) : Fld := ⟨0x40204 + i * 0x20, 16, 16⟩
/-- TBS_TTO_START_LO (R72). -/
def TBS_TTO_START_LO (i : Nat) : Fld := ⟨0x40208 + i * 0x20, 0, 32⟩
/-- TBS_TTO_START_HI (R72). -/
def TBS_TTO_START_HI (i : Nat) : Fld := ⟨0x4020C + i * 0x20, 0, 32⟩
/-- TBS_TTO_PERIOD (R72). -/
def TBS_TTO_PERIOD (i : Nat) : Fld := ⟨0x40210 + i * 0x20, 0, 32⟩
/-- TBS_TTO_WIDTH (R72). -/
def TBS_TTO_WIDTH (i : Nat) : Fld := ⟨0x40214 + i * 0x20, 0, 32⟩
/-- ETH_CFG (R332). -/
def ETH_CFG (i : Nat) : Fld := ⟨0x50000 + i * 0x4000, 0, 32⟩
/-- ETH_CFG.enable. -/
def ETH_CFG_enable (i : Nat) : Fld := ⟨0x50000 + i * 0x4000, 0, 1⟩
/-- ETH_CFG.state. -/
def ETH_CFG_state (i : Nat) : Fld := ⟨0x50000 + i * 0x4000, 1, 2⟩
/-- ETH_CFG.enable_pending. -/
def ETH_CFG_enable_pending (i : Nat) : Fld := ⟨0x50000 + i * 0x4000, 3, 1⟩
/-- ETH_CFG.speed. -/
def ETH_CFG_speed (i : Nat) : Fld := ⟨0x50000 + i * 0x4000, 4, 2⟩
/-- ETH_CFG.fec. -/
def ETH_CFG_fec (i : Nat) : Fld := ⟨0x50000 + i * 0x4000, 6, 1⟩
/-- ETH_CFG.an. -/
def ETH_CFG_an (i : Nat) : Fld := ⟨0x50000 + i * 0x4000, 7, 1⟩
/-- ETH_CFG.promisc. -/
def ETH_CFG_promisc (i : Nat) : Fld := ⟨0x50000 + i * 0x4000, 8, 1⟩
/-- ETH_CFG.wr_drop. -/
def ETH_CFG_wr_drop (i : Nat) : Fld := ⟨0x50000 + i * 0x4000, 9, 1⟩
/-- ETH_CFG.result. -/
def ETH_CFG_result (i : Nat) : Fld := ⟨0x50000 + i * 0x4000, 12, 4⟩
/-- ETH_CFG.max_len. -/
def ETH_CFG_max_len (i : Nat) : Fld := ⟨0x50000 + i * 0x4000, 16, 14⟩
/-- ETH_STAT (R342). -/
def ETH_STAT (i : Nat) : Fld := ⟨0x50004 + i * 0x4000, 0, 32⟩
/-- ETH_STAT.link. -/
def ETH_STAT_link (i : Nat) : Fld := ⟨0x50004 + i * 0x4000, 0, 1⟩
/-- ETH_STAT.paused. -/
def ETH_STAT_paused (i : Nat) : Fld := ⟨0x50004 + i * 0x4000, 1, 1⟩
/-- ETH_STAT.link_changes. -/
def ETH_STAT_link_changes (i : Nat) : Fld := ⟨0x50004 + i * 0x4000, 16, 16⟩
/-- ETH_MAC_LO (R332). -/
def ETH_MAC_LO (i : Nat) : Fld := ⟨0x50008 + i * 0x4000, 0, 32⟩
/-- ETH_MAC_HI (R332). -/
def ETH_MAC_HI (i : Nat) : Fld := ⟨0x5000C + i * 0x4000, 0, 32⟩
/-- ETH_MAC_HI.value. -/
def ETH_MAC_HI_value (i : Nat) : Fld := ⟨0x5000C + i * 0x4000, 0, 16⟩
/-- ETH_VLAN_RX (R335). -/
def ETH_VLAN_RX (i : Nat) : Fld := ⟨0x50010 + i * 0x4000, 0, 32⟩
/-- ETH_VLAN_RX.vid_filter. -/
def ETH_VLAN_RX_vid_filter (i : Nat) : Fld := ⟨0x50010 + i * 0x4000, 0, 1⟩
/-- ETH_VLAN_RX.accept_untagged. -/
def ETH_VLAN_RX_accept_untagged (i : Nat) : Fld := ⟨0x50010 + i * 0x4000, 1, 1⟩
/-- ETH_VLAN_RX.strip. -/
def ETH_VLAN_RX_strip (i : Nat) : Fld := ⟨0x50010 + i * 0x4000, 2, 1⟩
/-- ETH_RXROUTE (R337). -/
def ETH_RXROUTE (i : Nat) : Fld := ⟨0x50014 + i * 0x4000, 0, 32⟩
/-- ETH_RXROUTE.to_ha. -/
def ETH_RXROUTE_to_ha (i : Nat) : Fld := ⟨0x50014 + i * 0x4000, 0, 1⟩
/-- ETH_RXROUTE.to_hb. -/
def ETH_RXROUTE_to_hb (i : Nat) : Fld := ⟨0x50014 + i * 0x4000, 1, 1⟩
/-- ETH_MM (R340). -/
def ETH_MM (i : Nat) : Fld := ⟨0x50018 + i * 0x4000, 0, 32⟩
/-- ETH_MM.pre_en. -/
def ETH_MM_pre_en (i : Nat) : Fld := ⟨0x50018 + i * 0x4000, 0, 1⟩
/-- ETH_MM.verify_dis. -/
def ETH_MM_verify_dis (i : Nat) : Fld := ⟨0x50018 + i * 0x4000, 1, 1⟩
/-- ETH_MM.add_frag. -/
def ETH_MM_add_frag (i : Nat) : Fld := ⟨0x50018 + i * 0x4000, 2, 2⟩
/-- ETH_MM.verify_ms. -/
def ETH_MM_verify_ms (i : Nat) : Fld := ⟨0x50018 + i * 0x4000, 4, 8⟩
/-- ETH_MM_STAT (R340). -/
def ETH_MM_STAT (i : Nat) : Fld := ⟨0x5001C + i * 0x4000, 0, 32⟩
/-- ETH_MM_STAT.verify. -/
def ETH_MM_STAT_verify (i : Nat) : Fld := ⟨0x5001C + i * 0x4000, 0, 3⟩
/-- ETH_MM_STAT.active. -/
def ETH_MM_STAT_active (i : Nat) : Fld := ⟨0x5001C + i * 0x4000, 3, 1⟩
/-- ETH_TXCFG (R350). -/
def ETH_TXCFG (i : Nat) : Fld := ⟨0x50020 + i * 0x4000, 0, 32⟩
/-- ETH_TXCFG.cut_thr. -/
def ETH_TXCFG_cut_thr (i : Nat) : Fld := ⟨0x50020 + i * 0x4000, 0, 6⟩
/-- ETH_EVT (R352). -/
def ETH_EVT (i : Nat) : Fld := ⟨0x50024 + i * 0x4000, 0, 32⟩
/-- ETH_EVT.cause. -/
def ETH_EVT_cause (i : Nat) : Fld := ⟨0x50024 + i * 0x4000, 0, 6⟩
/-- ETH_VID (R335). -/
def ETH_VID (i j : Nat) : Fld := ⟨0x50040 + i * 0x4000 + j * 0x4, 0, 32⟩
/-- ETH_VID.vid. -/
def ETH_VID_vid (i j : Nat) : Fld := ⟨0x50040 + i * 0x4000 + j * 0x4, 0, 12⟩
/-- ETH_VID.en. -/
def ETH_VID_en (i j : Nat) : Fld := ⟨0x50040 + i * 0x4000 + j * 0x4, 12, 1⟩
/-- ETH_VLAN_TX (R338). -/
def ETH_VLAN_TX (i j : Nat) : Fld := ⟨0x50080 + i * 0x4000 + j * 0x4, 0, 32⟩
/-- ETH_VLAN_TX.vid. -/
def ETH_VLAN_TX_vid (i j : Nat) : Fld := ⟨0x50080 + i * 0x4000 + j * 0x4, 0, 12⟩
/-- ETH_VLAN_TX.pcp. -/
def ETH_VLAN_TX_pcp (i j : Nat) : Fld := ⟨0x50080 + i * 0x4000 + j * 0x4, 12, 3⟩
/-- ETH_VLAN_TX.insert. -/
def ETH_VLAN_TX_insert (i j : Nat) : Fld := ⟨0x50080 + i * 0x4000 + j * 0x4, 15, 1⟩
/-- ETH_CNT (R351). -/
def ETH_CNT (i j : Nat) : Fld := ⟨0x50200 + i * 0x4000 + j * 0x4, 0, 32⟩
/-- ETH_RXR_CTRL (R347). -/
def ETH_RXR_CTRL (i j : Nat) : Fld := ⟨0x51000 + i * 0x4000 + j * 0x40, 0, 32⟩
/-- ETH_RXR_CTRL.enable. -/
def ETH_RXR_CTRL_enable (i j : Nat) : Fld := ⟨0x51000 + i * 0x4000 + j * 0x40, 0, 1⟩
/-- ETH_RXR_CTRL.on. -/
def ETH_RXR_CTRL_on (i j : Nat) : Fld := ⟨0x51000 + i * 0x4000 + j * 0x40, 1, 1⟩
/-- ETH_RXR_CTRL.log2_nbuf. -/
def ETH_RXR_CTRL_log2_nbuf (i j : Nat) : Fld := ⟨0x51000 + i * 0x4000 + j * 0x40, 4, 4⟩
/-- ETH_RXR_CTRL.irq_en. -/
def ETH_RXR_CTRL_irq_en (i j : Nat) : Fld := ⟨0x51000 + i * 0x4000 + j * 0x40, 8, 1⟩
/-- ETH_RXR_DATA_LO (R343). -/
def ETH_RXR_DATA_LO (i j : Nat) : Fld := ⟨0x51004 + i * 0x4000 + j * 0x40, 0, 32⟩
/-- ETH_RXR_DATA_LO.addr. -/
def ETH_RXR_DATA_LO_addr (i j : Nat) : Fld := ⟨0x51004 + i * 0x4000 + j * 0x40, 12, 20⟩
/-- ETH_RXR_DATA_HI (R343). -/
def ETH_RXR_DATA_HI (i j : Nat) : Fld := ⟨0x51008 + i * 0x4000 + j * 0x40, 0, 32⟩
/-- ETH_RXR_CMPL_LO (R343). -/
def ETH_RXR_CMPL_LO (i j : Nat) : Fld := ⟨0x5100C + i * 0x4000 + j * 0x40, 0, 32⟩
/-- ETH_RXR_CMPL_LO.addr. -/
def ETH_RXR_CMPL_LO_addr (i j : Nat) : Fld := ⟨0x5100C + i * 0x4000 + j * 0x40, 6, 26⟩
/-- ETH_RXR_CMPL_HI (R343). -/
def ETH_RXR_CMPL_HI (i j : Nat) : Fld := ⟨0x51010 + i * 0x4000 + j * 0x40, 0, 32⟩
/-- ETH_RXR_TAKE (R344). -/
def ETH_RXR_TAKE (i j : Nat) : Fld := ⟨0x51014 + i * 0x4000 + j * 0x40, 0, 32⟩
/-- ETH_RXR_DONE (R344). -/
def ETH_RXR_DONE (i j : Nat) : Fld := ⟨0x51018 + i * 0x4000 + j * 0x40, 0, 32⟩
/-- ETH_RXR_TAIL (R344). -/
def ETH_RXR_TAIL (i j : Nat) : Fld := ⟨0x5101C + i * 0x4000 + j * 0x40, 0, 32⟩
/-- ETH_RXR_TAIL.tail. -/
def ETH_RXR_TAIL_tail (i j : Nat) : Fld := ⟨0x5101C + i * 0x4000 + j * 0x40, 0, 16⟩
/-- ETH_RXR_TAIL.rel. -/
def ETH_RXR_TAIL_rel (i j : Nat) : Fld := ⟨0x5101C + i * 0x4000 + j * 0x40, 16, 16⟩
/-- ETH_RXR_NOBUF (R345). -/
def ETH_RXR_NOBUF (i j : Nat) : Fld := ⟨0x51020 + i * 0x4000 + j * 0x40, 0, 32⟩
/-- ETH_RXR_LOST (R345). -/
def ETH_RXR_LOST (i j : Nat) : Fld := ⟨0x51024 + i * 0x4000 + j * 0x40, 0, 32⟩
/-- ETH_TXR_CTRL (R348). -/
def ETH_TXR_CTRL (i j : Nat) : Fld := ⟨0x51100 + i * 0x4000 + j * 0x40, 0, 32⟩
/-- ETH_TXR_CTRL.enable. -/
def ETH_TXR_CTRL_enable (i j : Nat) : Fld := ⟨0x51100 + i * 0x4000 + j * 0x40, 0, 1⟩
/-- ETH_TXR_CTRL.on. -/
def ETH_TXR_CTRL_on (i j : Nat) : Fld := ⟨0x51100 + i * 0x4000 + j * 0x40, 1, 1⟩
/-- ETH_TXR_CTRL.log2_ndesc. -/
def ETH_TXR_CTRL_log2_ndesc (i j : Nat) : Fld := ⟨0x51100 + i * 0x4000 + j * 0x40, 4, 4⟩
/-- ETH_TXR_BASE_LO (R348). -/
def ETH_TXR_BASE_LO (i j : Nat) : Fld := ⟨0x51104 + i * 0x4000 + j * 0x40, 0, 32⟩
/-- ETH_TXR_BASE_LO.addr. -/
def ETH_TXR_BASE_LO_addr (i j : Nat) : Fld := ⟨0x51104 + i * 0x4000 + j * 0x40, 6, 26⟩
/-- ETH_TXR_BASE_HI (R348). -/
def ETH_TXR_BASE_HI (i j : Nat) : Fld := ⟨0x51108 + i * 0x4000 + j * 0x40, 0, 32⟩
/-- ETH_TXR_TAIL (R348). -/
def ETH_TXR_TAIL (i j : Nat) : Fld := ⟨0x5110C + i * 0x4000 + j * 0x40, 0, 32⟩
/-- ETH_TXR_TAIL.tail. -/
def ETH_TXR_TAIL_tail (i j : Nat) : Fld := ⟨0x5110C + i * 0x4000 + j * 0x40, 0, 16⟩
/-- ETH_TXR_HEAD (R348). -/
def ETH_TXR_HEAD (i j : Nat) : Fld := ⟨0x51110 + i * 0x4000 + j * 0x40, 0, 32⟩
/-- ETH_TXR_HEAD.head. -/
def ETH_TXR_HEAD_head (i j : Nat) : Fld := ⟨0x51110 + i * 0x4000 + j * 0x40, 0, 16⟩
/-- STR_CFG (R86). -/
def STR_CFG : Fld := ⟨0x60000, 0, 32⟩
/-- STR_CFG.unmatched_to_host. -/
def STR_CFG_unmatched_to_host : Fld := ⟨0x60000, 0, 1⟩
/-- STR_UDP_PORT (R85). -/
def STR_UDP_PORT (i : Nat) : Fld := ⟨0x60010 + i * 0x4, 0, 32⟩
/-- STR_UDP_PORT.port. -/
def STR_UDP_PORT_port (i : Nat) : Fld := ⟨0x60010 + i * 0x4, 0, 16⟩
/-- STR_UDP_PORT.en. -/
def STR_UDP_PORT_en (i : Nat) : Fld := ⟨0x60010 + i * 0x4, 16, 1⟩
/-- STR_CMD (R495). -/
def STR_CMD : Fld := ⟨0x60020, 0, 32⟩
/-- STR_CMD.cmd. -/
def STR_CMD_cmd : Fld := ⟨0x60020, 0, 4⟩
/-- STR_CMD.index. -/
def STR_CMD_index : Fld := ⟨0x60020, 4, 13⟩
/-- STR_CMD_ARG (R91). -/
def STR_CMD_ARG : Fld := ⟨0x60024, 0, 32⟩
/-- STR_CMD_STAT (R495). -/
def STR_CMD_STAT : Fld := ⟨0x60028, 0, 32⟩
/-- STR_CMD_STAT.busy. -/
def STR_CMD_STAT_busy : Fld := ⟨0x60028, 0, 1⟩
/-- STR_CMD_STAT.result. -/
def STR_CMD_STAT_result : Fld := ⟨0x60028, 8, 8⟩
/-- STR_CMD_STAT.index. -/
def STR_CMD_STAT_index : Fld := ⟨0x60028, 16, 13⟩
/-- STR_BOOT (R83). -/
def STR_BOOT : Fld := ⟨0x6002C, 0, 32⟩
/-- STR_BOOT.refused. -/
def STR_BOOT_refused : Fld := ⟨0x6002C, 0, 14⟩
/-- STR_BOOT.last_index. -/
def STR_BOOT_last_index : Fld := ⟨0x6002C, 16, 13⟩
/-- STR_BOOT.last_code. -/
def STR_BOOT_last_code : Fld := ⟨0x6002C, 29, 3⟩
/-- STR_UNMATCHED (R86). -/
def STR_UNMATCHED : Fld := ⟨0x60030, 0, 32⟩
/-- STR_ANON_ERR (R86). -/
def STR_ANON_ERR : Fld := ⟨0x60034, 0, 32⟩
/-- STR_STATE_CNT (R96). -/
def STR_STATE_CNT (i : Nat) : Fld := ⟨0x60040 + i * 0x4, 0, 32⟩
/-- STR_STATE_CNT.low. -/
def STR_STATE_CNT_low (i : Nat) : Fld := ⟨0x60040 + i * 0x4, 0, 16⟩
/-- STR_STATE_CNT.high. -/
def STR_STATE_CNT_high (i : Nat) : Fld := ⟨0x60040 + i * 0x4, 16, 16⟩
/-- STR_SRC_SEL (R101). -/
def STR_SRC_SEL (m : Nat) : Fld := ⟨(m + 1) * 0x4000000 + 0x60100, 0, 32⟩
/-- STR_SRC_SEL.index. -/
def STR_SRC_SEL_index (m : Nat) : Fld := ⟨(m + 1) * 0x4000000 + 0x60100, 0, 13⟩
/-- STR_SRC_STAT (R101). -/
def STR_SRC_STAT (m : Nat) : Fld := ⟨(m + 1) * 0x4000000 + 0x60104, 0, 32⟩
/-- STR_SRC_STAT.state. -/
def STR_SRC_STAT_state (m : Nat) : Fld := ⟨(m + 1) * 0x4000000 + 0x60104, 0, 3⟩
/-- STR_SRC_STAT.requal. -/
def STR_SRC_STAT_requal (m : Nat) : Fld := ⟨(m + 1) * 0x4000000 + 0x60104, 4, 8⟩
/-- STR_SRC_STAT.stale_cause. -/
def STR_SRC_STAT_stale_cause (m : Nat) : Fld := ⟨(m + 1) * 0x4000000 + 0x60104, 12, 4⟩
/-- STR_SRC_STAT.flags. -/
def STR_SRC_STAT_flags (m : Nat) : Fld := ⟨(m + 1) * 0x4000000 + 0x60104, 16, 8⟩
/-- STR_SRC_CNT (R101). -/
def STR_SRC_CNT (m i : Nat) : Fld := ⟨(m + 1) * 0x4000000 + 0x60110 + i * 0x4, 0, 32⟩
/-- STR_SRC_TS_LO (R101). -/
def STR_SRC_TS_LO (m : Nat) : Fld := ⟨(m + 1) * 0x4000000 + 0x60140, 0, 32⟩
/-- STR_SRC_TS_HI (R101). -/
def STR_SRC_TS_HI (m : Nat) : Fld := ⟨(m + 1) * 0x4000000 + 0x60144, 0, 32⟩
/-- STR_SRC_ARR_LO (R101). -/
def STR_SRC_ARR_LO (m : Nat) : Fld := ⟨(m + 1) * 0x4000000 + 0x60148, 0, 32⟩
/-- STR_SRC_ARR_HI (R101). -/
def STR_SRC_ARR_HI (m : Nat) : Fld := ⟨(m + 1) * 0x4000000 + 0x6014C, 0, 32⟩
/-- STR_ALERT_MAP (R102). -/
def STR_ALERT_MAP (i : Nat) : Fld := ⟨0x61000 + i * 0x4, 0, 32⟩
/-- STR_SCALE (R84). -/
def STR_SCALE (i : Nat) : Fld := ⟨0x68000 + i * 0x8, 0, 32⟩
/-- STR_SCALE_ANGLE (R84). -/
def STR_SCALE_ANGLE (i : Nat) : Fld := ⟨0x68004 + i * 0x8, 0, 32⟩
/-- COL_CFG (R106). -/
def COL_CFG : Fld := ⟨0x70000, 0, 32⟩
/-- COL_CFG.tol_ns. -/
def COL_CFG_tol_ns : Fld := ⟨0x70000, 0, 17⟩
/-- COL_CFG.lead_ms. -/
def COL_CFG_lead_ms : Fld := ⟨0x70000, 17, 7⟩
/-- COL_REC_CFG (R119). -/
def COL_REC_CFG : Fld := ⟨0x70004, 0, 32⟩
/-- COL_REC_CFG.queue. -/
def COL_REC_CFG_queue : Fld := ⟨0x70004, 0, 6⟩
/-- COL_REC_CFG.amend_en. -/
def COL_REC_CFG_amend_en : Fld := ⟨0x70004, 8, 1⟩
/-- COL_REC_CFG.confirm_en. -/
def COL_REC_CFG_confirm_en : Fld := ⟨0x70004, 9, 1⟩
/-- COL_PART (R131). -/
def COL_PART : Fld := ⟨0x70008, 0, 32⟩
/-- COL_PART.size_mib. -/
def COL_PART_size_mib : Fld := ⟨0x70008, 0, 16⟩
/-- COL_PART.used_mib. -/
def COL_PART_used_mib : Fld := ⟨0x70008, 16, 16⟩
/-- COL_UNUSED (R108). -/
def COL_UNUSED : Fld := ⟨0x70010, 0, 32⟩
/-- COL_AMENDS (R119). -/
def COL_AMENDS : Fld := ⟨0x70014, 0, 32⟩
/-- COL_CONFIRMS (R121). -/
def COL_CONFIRMS : Fld := ⟨0x70018, 0, 32⟩
/-- COL_FORCED (R124). -/
def COL_FORCED : Fld := ⟨0x7001C, 0, 32⟩
/-- COL_STEP_GAP (R125). -/
def COL_STEP_GAP : Fld := ⟨0x70020, 0, 32⟩
/-- COL_ARCH_SKIP (R124). -/
def COL_ARCH_SKIP : Fld := ⟨0x70024, 0, 32⟩
/-- COL_GRID_CTRL (R127). -/
def COL_GRID_CTRL (i : Nat) : Fld := ⟨0x70100 + i * 0x20, 0, 32⟩
/-- COL_GRID_CTRL.enable. -/
def COL_GRID_CTRL_enable (i : Nat) : Fld := ⟨0x70100 + i * 0x20, 0, 1⟩
/-- COL_GRID_CTRL.state. -/
def COL_GRID_CTRL_state (i : Nat) : Fld := ⟨0x70100 + i * 0x20, 1, 2⟩
/-- COL_GRID_CTRL.enable_pending. -/
def COL_GRID_CTRL_enable_pending (i : Nat) : Fld := ⟨0x70100 + i * 0x20, 3, 1⟩
/-- COL_GRID_CTRL.result. -/
def COL_GRID_CTRL_result (i : Nat) : Fld := ⟨0x70100 + i * 0x20, 4, 4⟩
/-- COL_GRID_CTRL.wr_drop. -/
def COL_GRID_CTRL_wr_drop (i : Nat) : Fld := ⟨0x70100 + i * 0x20, 8, 1⟩
/-- COL_GRID_CTRL.archive. -/
def COL_GRID_CTRL_archive (i : Nat) : Fld := ⟨0x70100 + i * 0x20, 9, 1⟩
/-- COL_GRID_CTRL.rate. -/
def COL_GRID_CTRL_rate (i : Nat) : Fld := ⟨0x70100 + i * 0x20, 16, 8⟩
/-- COL_GRID_TIME (R117). -/
def COL_GRID_TIME (i : Nat) : Fld := ⟨0x70104 + i * 0x20, 0, 32⟩
/-- COL_GRID_TIME.hold_ms. -/
def COL_GRID_TIME_hold_ms (i : Nat) : Fld := ⟨0x70104 + i * 0x20, 0, 11⟩
/-- COL_GRID_TIME.horizon_ms. -/
def COL_GRID_TIME_horizon_ms (i : Nat) : Fld := ⟨0x70104 + i * 0x20, 11, 13⟩
/-- COL_GRID_TIME.keep. -/
def COL_GRID_TIME_keep (i : Nat) : Fld := ⟨0x70104 + i * 0x20, 24, 8⟩
/-- COL_GRID_SRC (R103). -/
def COL_GRID_SRC (i : Nat) : Fld := ⟨0x70108 + i * 0x20, 0, 32⟩
/-- COL_GRID_SRC.first. -/
def COL_GRID_SRC_first (i : Nat) : Fld := ⟨0x70108 + i * 0x20, 0, 13⟩
/-- COL_GRID_SRC.count. -/
def COL_GRID_SRC_count (i : Nat) : Fld := ⟨0x70108 + i * 0x20, 16, 14⟩
/-- COL_GRID_SLOT (R129). -/
def COL_GRID_SLOT (i : Nat) : Fld := ⟨0x7010C + i * 0x20, 0, 32⟩
/-- COL_GRID_SLOT.slot_lo. -/
def COL_GRID_SLOT_slot_lo (i : Nat) : Fld := ⟨0x7010C + i * 0x20, 0, 20⟩
/-- COL_GRID_SLOTN (R129). -/
def COL_GRID_SLOTN (i : Nat) : Fld := ⟨0x70110 + i * 0x20, 0, 32⟩
/-- COL_GRID_SLOTN.slot_n. -/
def COL_GRID_SLOTN_slot_n (i : Nat) : Fld := ⟨0x70110 + i * 0x20, 0, 21⟩
/-- COL_GRID_BASE (R131). -/
def COL_GRID_BASE (i : Nat) : Fld := ⟨0x70114 + i * 0x20, 0, 32⟩
/-- COL_GRID_BASE.base_mib. -/
def COL_GRID_BASE_base_mib (i : Nat) : Fld := ⟨0x70114 + i * 0x20, 0, 16⟩
/-- COL_GRID_BASE.need_mib. -/
def COL_GRID_BASE_need_mib (i : Nat) : Fld := ⟨0x70114 + i * 0x20, 16, 16⟩
/-- COL_GRID_HELD (R131). -/
def COL_GRID_HELD (i : Nat) : Fld := ⟨0x70118 + i * 0x20, 0, 32⟩
/-- COL_GRID_HELD.held. -/
def COL_GRID_HELD_held (i : Nat) : Fld := ⟨0x70118 + i * 0x20, 0, 16⟩
/-- COL_GRID_GSIZE (R129). -/
def COL_GRID_GSIZE (i : Nat) : Fld := ⟨0x7011C + i * 0x20, 0, 32⟩
/-- COL_RD_CTRL (R127). -/
def COL_RD_CTRL (i : Nat) : Fld := ⟨0x71000 + i * 0x20, 0, 32⟩
/-- COL_RD_CTRL.enable. -/
def COL_RD_CTRL_enable (i : Nat) : Fld := ⟨0x71000 + i * 0x20, 0, 1⟩
/-- COL_RD_CTRL.state. -/
def COL_RD_CTRL_state (i : Nat) : Fld := ⟨0x71000 + i * 0x20, 1, 2⟩
/-- COL_RD_CTRL.enable_pending. -/
def COL_RD_CTRL_enable_pending (i : Nat) : Fld := ⟨0x71000 + i * 0x20, 3, 1⟩
/-- COL_RD_CTRL.result. -/
def COL_RD_CTRL_result (i : Nat) : Fld := ⟨0x71000 + i * 0x20, 4, 4⟩
/-- COL_RD_CTRL.wr_drop. -/
def COL_RD_CTRL_wr_drop (i : Nat) : Fld := ⟨0x71000 + i * 0x20, 8, 1⟩
/-- COL_RD_CTRL.grid. -/
def COL_RD_CTRL_grid (i : Nat) : Fld := ⟨0x71000 + i * 0x20, 9, 3⟩
/-- COL_RD_CTRL.policy. -/
def COL_RD_CTRL_policy (i : Nat) : Fld := ⟨0x71000 + i * 0x20, 12, 1⟩
/-- COL_RD_CTRL.rerun. -/
def COL_RD_CTRL_rerun (i : Nat) : Fld := ⟨0x71000 + i * 0x20, 13, 1⟩
/-- COL_RD_WAIT (R114). -/
def COL_RD_WAIT (i : Nat) : Fld := ⟨0x71004 + i * 0x20, 0, 32⟩
/-- COL_RD_WAIT.wait_us. -/
def COL_RD_WAIT_wait_us (i : Nat) : Fld := ⟨0x71004 + i * 0x20, 0, 21⟩
/-- COL_RD_QUORUM (R115). -/
def COL_RD_QUORUM (i : Nat) : Fld := ⟨0x71008 + i * 0x20, 0, 32⟩
/-- COL_RD_QUORUM.pct. -/
def COL_RD_QUORUM_pct (i : Nat) : Fld := ⟨0x71008 + i * 0x20, 0, 7⟩
/-- COL_RD_QUORUM.min_us. -/
def COL_RD_QUORUM_min_us (i : Nat) : Fld := ⟨0x71008 + i * 0x20, 8, 21⟩
/-- COL_RD_SKIP (R124). -/
def COL_RD_SKIP (i : Nat) : Fld := ⟨0x7100C + i * 0x20, 0, 32⟩
/-- COL_RD_LAST_LO (R113). -/
def COL_RD_LAST_LO (i : Nat) : Fld := ⟨0x71010 + i * 0x20, 0, 32⟩
/-- COL_RD_LAST_HI (R113). -/
def COL_RD_LAST_HI (i : Nat) : Fld := ⟨0x71014 + i * 0x20, 0, 32⟩
/-- COL_RD_PROV (R116). -/
def COL_RD_PROV (i : Nat) : Fld := ⟨0x71018 + i * 0x20, 0, 32⟩
/-- COL_RD_WAITC (R114). -/
def COL_RD_WAITC (i : Nat) : Fld := ⟨0x7101C + i * 0x20, 0, 32⟩
/-- COL_OS_CFG (R133). -/
def COL_OS_CFG (i : Nat) : Fld := ⟨0x72000 + i * 0x40, 0, 32⟩
/-- COL_OS_CFG.port. -/
def COL_OS_CFG_port (i : Nat) : Fld := ⟨0x72000 + i * 0x40, 0, 2⟩
/-- COL_OS_CFG.version. -/
def COL_OS_CFG_version (i : Nat) : Fld := ⟨0x72000 + i * 0x40, 2, 1⟩
/-- COL_OS_CFG.cfg_change. -/
def COL_OS_CFG_cfg_change (i : Nat) : Fld := ⟨0x72000 + i * 0x40, 3, 1⟩
/-- COL_OS_CFG.dscp. -/
def COL_OS_CFG_dscp (i : Nat) : Fld := ⟨0x72000 + i * 0x40, 4, 6⟩
/-- COL_OS_CFG.idcode. -/
def COL_OS_CFG_idcode (i : Nat) : Fld := ⟨0x72000 + i * 0x40, 16, 16⟩
/-- COL_OS_BLK (R134). -/
def COL_OS_BLK (i : Nat) : Fld := ⟨0x72004 + i * 0x40, 0, 32⟩
/-- COL_OS_BLK.first. -/
def COL_OS_BLK_first (i : Nat) : Fld := ⟨0x72004 + i * 0x40, 0, 11⟩
/-- COL_OS_BLK.count. -/
def COL_OS_BLK_count (i : Nat) : Fld := ⟨0x72004 + i * 0x40, 16, 12⟩
/-- COL_OS_UDP (R137). -/
def COL_OS_UDP (i : Nat) : Fld := ⟨0x72008 + i * 0x40, 0, 32⟩
/-- COL_OS_UDP.src. -/
def COL_OS_UDP_src (i : Nat) : Fld := ⟨0x72008 + i * 0x40, 0, 16⟩
/-- COL_OS_UDP.dst. -/
def COL_OS_UDP_dst (i : Nat) : Fld := ⟨0x72008 + i * 0x40, 16, 16⟩
/-- COL_OS_SIP (R137). -/
def COL_OS_SIP (i : Nat) : Fld := ⟨0x7200C + i * 0x40, 0, 32⟩
/-- COL_OS_DIP (R137). -/
def COL_OS_DIP (i : Nat) : Fld := ⟨0x72010 + i * 0x40, 0, 32⟩
/-- COL_OS_DMAC_LO (R137). -/
def COL_OS_DMAC_LO (i : Nat) : Fld := ⟨0x72014 + i * 0x40, 0, 32⟩
/-- COL_OS_DMAC_HI (R137). -/
def COL_OS_DMAC_HI (i : Nat) : Fld := ⟨0x72018 + i * 0x40, 0, 32⟩
/-- COL_OS_DMAC_HI.value. -/
def COL_OS_DMAC_HI_value (i : Nat) : Fld := ⟨0x72018 + i * 0x40, 0, 16⟩
/-- COL_OS_TBASE (R133). -/
def COL_OS_TBASE (i : Nat) : Fld := ⟨0x7201C + i * 0x40, 0, 32⟩
/-- COL_OS_TBASE.time_base. -/
def COL_OS_TBASE_time_base (i : Nat) : Fld := ⟨0x7201C + i * 0x40, 0, 24⟩
/-- COL_OS_SIZE (R137). -/
def COL_OS_SIZE (i : Nat) : Fld := ⟨0x72020 + i * 0x40, 0, 32⟩
/-- COL_OS_SIZE.value. -/
def COL_OS_SIZE_value (i : Nat) : Fld := ⟨0x72020 + i * 0x40, 0, 16⟩
/-- COL_OS_SENT (R132). -/
def COL_OS_SENT (i : Nat) : Fld := ⟨0x72024 + i * 0x40, 0, 32⟩
/-- COL_OS_NOT_SENT (R132). -/
def COL_OS_NOT_SENT (i : Nat) : Fld := ⟨0x72028 + i * 0x40, 0, 32⟩
/-- COL_OS_LATE (R138). -/
def COL_OS_LATE (i : Nat) : Fld := ⟨0x7202C + i * 0x40, 0, 32⟩
/-- COL_BLK0 (R134). -/
def COL_BLK0 (i : Nat) : Fld := ⟨0x78000 + i * 0x10, 0, 32⟩
/-- COL_BLK0.source. -/
def COL_BLK0_source (i : Nat) : Fld := ⟨0x78000 + i * 0x10, 0, 13⟩
/-- COL_BLK0.format. -/
def COL_BLK0_format (i : Nat) : Fld := ⟨0x78000 + i * 0x10, 16, 4⟩
/-- COL_BLK1 (R134). -/
def COL_BLK1 (i : Nat) : Fld := ⟨0x78004 + i * 0x10, 0, 32⟩
/-- COL_BLK_QPH (R135). -/
def COL_BLK_QPH (i : Nat) : Fld := ⟨0x78008 + i * 0x10, 0, 32⟩
/-- COL_BLK_QAN (R135). -/
def COL_BLK_QAN (i : Nat) : Fld := ⟨0x7800C + i * 0x10, 0, 32⟩
/-- FLT_GRP_CTRL (R159). -/
def FLT_GRP_CTRL (i : Nat) : Fld := ⟨0x80000 + i * 0x40, 0, 32⟩
/-- FLT_GRP_CTRL.enable. -/
def FLT_GRP_CTRL_enable (i : Nat) : Fld := ⟨0x80000 + i * 0x40, 0, 1⟩
/-- FLT_GRP_CTRL.state. -/
def FLT_GRP_CTRL_state (i : Nat) : Fld := ⟨0x80000 + i * 0x40, 1, 2⟩
/-- FLT_GRP_CTRL.enable_pending. -/
def FLT_GRP_CTRL_enable_pending (i : Nat) : Fld := ⟨0x80000 + i * 0x40, 3, 1⟩
/-- FLT_GRP_CTRL.bank. -/
def FLT_GRP_CTRL_bank (i : Nat) : Fld := ⟨0x80000 + i * 0x40, 4, 1⟩
/-- FLT_GRP_CTRL.freq_src. -/
def FLT_GRP_CTRL_freq_src (i : Nat) : Fld := ⟨0x80000 + i * 0x40, 5, 1⟩
/-- FLT_GRP_CTRL.fast_en. -/
def FLT_GRP_CTRL_fast_en (i : Nat) : Fld := ⟨0x80000 + i * 0x40, 6, 1⟩
/-- FLT_GRP_CTRL.ssb_en. -/
def FLT_GRP_CTRL_ssb_en (i : Nat) : Fld := ⟨0x80000 + i * 0x40, 7, 1⟩
/-- FLT_GRP_CTRL.wr_drop. -/
def FLT_GRP_CTRL_wr_drop (i : Nat) : Fld := ⟨0x80000 + i * 0x40, 8, 1⟩
/-- FLT_GRP_CTRL.result. -/
def FLT_GRP_CTRL_result (i : Nat) : Fld := ⟨0x80000 + i * 0x40, 12, 4⟩
/-- FLT_GRP_SWAP (R153). -/
def FLT_GRP_SWAP (i : Nat) : Fld := ⟨0x80004 + i * 0x40, 0, 32⟩
/-- FLT_GRP_SWAP.cmd. -/
def FLT_GRP_SWAP_cmd (i : Nat) : Fld := ⟨0x80004 + i * 0x40, 0, 2⟩
/-- FLT_GRP_SWAP.bank. -/
def FLT_GRP_SWAP_bank (i : Nat) : Fld := ⟨0x80004 + i * 0x40, 2, 1⟩
/-- FLT_GRP_SWAP.fade_len. -/
def FLT_GRP_SWAP_fade_len (i : Nat) : Fld := ⟨0x80004 + i * 0x40, 16, 13⟩
/-- FLT_GRP_SWAPST (R153). -/
def FLT_GRP_SWAPST (i : Nat) : Fld := ⟨0x80008 + i * 0x40, 0, 32⟩
/-- FLT_GRP_SWAPST.fading. -/
def FLT_GRP_SWAPST_fading (i : Nat) : Fld := ⟨0x80008 + i * 0x40, 0, 1⟩
/-- FLT_GRP_SWAPST.held. -/
def FLT_GRP_SWAPST_held (i : Nat) : Fld := ⟨0x80008 + i * 0x40, 1, 1⟩
/-- FLT_GRP_SWAPST.held_bank. -/
def FLT_GRP_SWAPST_held_bank (i : Nat) : Fld := ⟨0x80008 + i * 0x40, 2, 1⟩
/-- FLT_GRP_SWAPST.fade_pos. -/
def FLT_GRP_SWAPST_fade_pos (i : Nat) : Fld := ⟨0x80008 + i * 0x40, 16, 13⟩
/-- FLT_GRP_SHAPE (R147). -/
def FLT_GRP_SHAPE (i : Nat) : Fld := ⟨0x8000C + i * 0x40, 0, 32⟩
/-- FLT_GRP_SHAPE.g_samples. -/
def FLT_GRP_SHAPE_g_samples (i : Nat) : Fld := ⟨0x8000C + i * 0x40, 0, 18⟩
/-- FLT_GRP_SHAPE.d. -/
def FLT_GRP_SHAPE_d (i : Nat) : Fld := ⟨0x8000C + i * 0x40, 18, 14⟩
/-- FLT_GRP_GDNS (R147). -/
def FLT_GRP_GDNS (i : Nat) : Fld := ⟨0x80010 + i * 0x40, 0, 32⟩
/-- FLT_GRP_LATNS (R164). -/
def FLT_GRP_LATNS (i : Nat) : Fld := ⟨0x80014 + i * 0x40, 0, 32⟩
/-- FLT_GRP_SSB_THR (R162). -/
def FLT_GRP_SSB_THR (i : Nat) : Fld := ⟨0x80018 + i * 0x40, 0, 32⟩
/-- FLT_GRP_SSB_PER (R162). -/
def FLT_GRP_SSB_PER (i : Nat) : Fld := ⟨0x8001C + i * 0x40, 0, 32⟩
/-- FLT_GRP_SSB_PER.persist. -/
def FLT_GRP_SSB_PER_persist (i : Nat) : Fld := ⟨0x8001C + i * 0x40, 0, 8⟩
/-- FLT_GRP_RESETS (R156). -/
def FLT_GRP_RESETS (i : Nat) : Fld := ⟨0x80020 + i * 0x40, 0, 32⟩
/-- FLT_GRP_SAT (R142). -/
def FLT_GRP_SAT (i : Nat) : Fld := ⟨0x80024 + i * 0x40, 0, 32⟩
/-- FLT_GRP_INTERP (R157). -/
def FLT_GRP_INTERP (i : Nat) : Fld := ⟨0x80028 + i * 0x40, 0, 32⟩
/-- FLT_GRP_OUT (R149). -/
def FLT_GRP_OUT (i : Nat) : Fld := ⟨0x8002C + i * 0x40, 0, 32⟩
/-- FLT_FAST_VS (R160). -/
def FLT_FAST_VS (i : Nat) : Fld := ⟨0x80800 + i * 0x10, 0, 32⟩
/-- FLT_FAST_FF (R160). -/
def FLT_FAST_FF (i : Nat) : Fld := ⟨0x80804 + i * 0x10, 0, 32⟩
/-- FLT_FAST_RF (R160). -/
def FLT_FAST_RF (i : Nat) : Fld := ⟨0x80808 + i * 0x10, 0, 32⟩
/-- FLT_FAST_STAT (R160). -/
def FLT_FAST_STAT (i : Nat) : Fld := ⟨0x8080C + i * 0x10, 0, 32⟩
/-- FLT_FAST_STAT.stat. -/
def FLT_FAST_STAT_stat (i : Nat) : Fld := ⟨0x8080C + i * 0x10, 0, 3⟩
/-- FLT_CH_PEAK (R161). -/
def FLT_CH_PEAK (i : Nat) : Fld := ⟨0x81000 + i * 0x10, 0, 32⟩
/-- FLT_CH_RMS (R161). -/
def FLT_CH_RMS (i : Nat) : Fld := ⟨0x81004 + i * 0x10, 0, 32⟩
/-- FLT_CH_SSB (R162). -/
def FLT_CH_SSB (i : Nat) : Fld := ⟨0x81008 + i * 0x10, 0, 32⟩
/-- FLT_CH_STAT (R162). -/
def FLT_CH_STAT (i : Nat) : Fld := ⟨0x8100C + i * 0x10, 0, 32⟩
/-- FLT_CH_STAT.unsettled. -/
def FLT_CH_STAT_unsettled (i : Nat) : Fld := ⟨0x8100C + i * 0x10, 0, 1⟩
/-- FLT_CH_STAT.interpolated. -/
def FLT_CH_STAT_interpolated (i : Nat) : Fld := ⟨0x8100C + i * 0x10, 1, 1⟩
/-- FLT_CH_STAT.missing. -/
def FLT_CH_STAT_missing (i : Nat) : Fld := ⟨0x8100C + i * 0x10, 2, 1⟩
/-- FLT_CH_STAT.ssb_alarm. -/
def FLT_CH_STAT_ssb_alarm (i : Nat) : Fld := ⟨0x8100C + i * 0x10, 3, 1⟩
/-- FLT_CH_STAT.window_missing. -/
def FLT_CH_STAT_window_missing (i : Nat) : Fld := ⟨0x8100C + i * 0x10, 4, 1⟩
/-- FLT_CH_STAT.ssb_run. -/
def FLT_CH_STAT_ssb_run (i : Nat) : Fld := ⟨0x8100C + i * 0x10, 8, 8⟩
/-- ACQ_CFG (R313). -/
def ACQ_CFG : Fld := ⟨0x90000, 0, 32⟩
/-- ACQ_CFG.enable. -/
def ACQ_CFG_enable : Fld := ⟨0x90000, 0, 1⟩
/-- ACQ_CFG.rearm. -/
def ACQ_CFG_rearm : Fld := ⟨0x90000, 1, 1⟩
/-- ACQ_CFG.stop_on_violation. -/
def ACQ_CFG_stop_on_violation : Fld := ⟨0x90000, 2, 1⟩
/-- ACQ_CFG.rec_en. -/
def ACQ_CFG_rec_en : Fld := ⟨0x90000, 3, 1⟩
/-- ACQ_CFG.queue. -/
def ACQ_CFG_queue : Fld := ⟨0x90000, 4, 6⟩
/-- ACQ_CFG.n_seg. -/
def ACQ_CFG_n_seg : Fld := ⟨0x90000, 16, 7⟩
/-- ACQ_TIME (R317). -/
def ACQ_TIME : Fld := ⟨0x90004, 0, 32⟩
/-- ACQ_TIME.pre_ms. -/
def ACQ_TIME_pre_ms : Fld := ⟨0x90004, 0, 16⟩
/-- ACQ_TIME.step_rate. -/
def ACQ_TIME_step_rate : Fld := ⟨0x90004, 16, 2⟩
/-- ACQ_TIME.settle. -/
def ACQ_TIME_settle : Fld := ⟨0x90004, 20, 12⟩
/-- ACQ_POST (R320). -/
def ACQ_POST : Fld := ⟨0x90008, 0, 32⟩
/-- ACQ_POST.post_ms. -/
def ACQ_POST_post_ms : Fld := ⟨0x90008, 0, 22⟩
/-- ACQ_POST.tail. -/
def ACQ_POST_tail : Fld := ⟨0x90008, 24, 8⟩
/-- ACQ_STATUS (R313). -/
def ACQ_STATUS : Fld := ⟨0x9000C, 0, 32⟩
/-- ACQ_STATUS.state. -/
def ACQ_STATUS_state : Fld := ⟨0x9000C, 0, 3⟩
/-- ACQ_STATUS.enable_pending. -/
def ACQ_STATUS_enable_pending : Fld := ⟨0x9000C, 3, 1⟩
/-- ACQ_STATUS.arm_result. -/
def ACQ_STATUS_arm_result : Fld := ⟨0x9000C, 4, 4⟩
/-- ACQ_STATUS.segment. -/
def ACQ_STATUS_segment : Fld := ⟨0x9000C, 8, 6⟩
/-- ACQ_STATUS.pre_full. -/
def ACQ_STATUS_pre_full : Fld := ⟨0x9000C, 14, 1⟩
/-- ACQ_STATUS.wr_drop. -/
def ACQ_STATUS_wr_drop : Fld := ⟨0x9000C, 15, 1⟩
/-- ACQ_STATUS.mask_stop. -/
def ACQ_STATUS_mask_stop : Fld := ⟨0x9000C, 16, 1⟩
/-- ACQ_STATUS.complete. -/
def ACQ_STATUS_complete : Fld := ⟨0x9000C, 17, 7⟩
/-- ACQ_CMD (R313). -/
def ACQ_CMD : Fld := ⟨0x90010, 0, 32⟩
/-- ACQ_CMD.cmd. -/
def ACQ_CMD_cmd : Fld := ⟨0x90010, 0, 4⟩
/-- ACQ_CMD.segment. -/
def ACQ_CMD_segment : Fld := ⟨0x90010, 4, 6⟩
/-- ACQ_SEGSZ (R311). -/
def ACQ_SEGSZ : Fld := ⟨0x90014, 0, 32⟩
/-- ACQ_SEGSZ.seg_mib. -/
def ACQ_SEGSZ_seg_mib : Fld := ⟨0x90014, 0, 16⟩
/-- ACQ_SEGSZ.n_seg. -/
def ACQ_SEGSZ_n_seg : Fld := ⟨0x90014, 16, 7⟩
/-- ACQ_SEQ (R325). -/
def ACQ_SEQ : Fld := ⟨0x90018, 0, 32⟩
/-- ACQ_RECORDS (R320). -/
def ACQ_RECORDS : Fld := ⟨0x90020, 0, 32⟩
/-- ACQ_TRIG_EARLY (R316). -/
def ACQ_TRIG_EARLY : Fld := ⟨0x90024, 0, 32⟩
/-- ACQ_TRIG_LATE (R317). -/
def ACQ_TRIG_LATE : Fld := ⟨0x90028, 0, 32⟩
/-- ACQ_TRIG_BUSY (R319). -/
def ACQ_TRIG_BUSY : Fld := ⟨0x9002C, 0, 32⟩
/-- ACQ_FULL (R313). -/
def ACQ_FULL : Fld := ⟨0x90030, 0, 32⟩
/-- ACQ_SKIP (R310). -/
def ACQ_SKIP : Fld := ⟨0x90034, 0, 32⟩
/-- ACQ_SEG (R311). -/
def ACQ_SEG (i : Nat) : Fld := ⟨0x90100 + i * 0x4, 0, 32⟩
/-- ACQ_SEG.state. -/
def ACQ_SEG_state (i : Nat) : Fld := ⟨0x90100 + i * 0x4, 0, 2⟩
/-- ACQ_SEG.flags. -/
def ACQ_SEG_flags (i : Nat) : Fld := ⟨0x90100 + i * 0x4, 8, 8⟩
/-- ACQ_SEG.seq. -/
def ACQ_SEG_seq (i : Nat) : Fld := ⟨0x90100 + i * 0x4, 16, 16⟩
/-- ACQ_COND0 (R318). -/
def ACQ_COND0 (i : Nat) : Fld := ⟨0x90400 + i * 0x10, 0, 32⟩
/-- ACQ_COND0.kind. -/
def ACQ_COND0_kind (i : Nat) : Fld := ⟨0x90400 + i * 0x10, 0, 3⟩
/-- ACQ_COND0.mode. -/
def ACQ_COND0_mode (i : Nat) : Fld := ⟨0x90400 + i * 0x10, 4, 2⟩
/-- ACQ_COND0.index. -/
def ACQ_COND0_index (i : Nat) : Fld := ⟨0x90400 + i * 0x10, 8, 17⟩
/-- ACQ_COND1 (R318). -/
def ACQ_COND1 (i : Nat) : Fld := ⟨0x90404 + i * 0x10, 0, 32⟩
/-- ACQ_COND2 (R318). -/
def ACQ_COND2 (i : Nat) : Fld := ⟨0x90408 + i * 0x10, 0, 32⟩
/-- ACQ_COND3 (R318). -/
def ACQ_COND3 (i : Nat) : Fld := ⟨0x9040C + i * 0x10, 0, 32⟩
/-- ACQ_TERM_T (R319). -/
def ACQ_TERM_T (i : Nat) : Fld := ⟨0x90600 + i * 0x8, 0, 32⟩
/-- ACQ_TERM_Q (R319). -/
def ACQ_TERM_Q (i : Nat) : Fld := ⟨0x90604 + i * 0x8, 0, 32⟩
/-- ACQ_CH0 (R307). -/
def ACQ_CH0 (i : Nat) : Fld := ⟨0x91000 + i * 0x10, 0, 32⟩
/-- ACQ_CH0.type. -/
def ACQ_CH0_type (i : Nat) : Fld := ⟨0x91000 + i * 0x10, 0, 3⟩
/-- ACQ_CH0.index. -/
def ACQ_CH0_index (i : Nat) : Fld := ⟨0x91000 + i * 0x10, 8, 8⟩
/-- ACQ_CH0.reductions. -/
def ACQ_CH0_reductions (i : Nat) : Fld := ⟨0x91000 + i * 0x10, 16, 4⟩
/-- ACQ_CH1 (R309). -/
def ACQ_CH1 (i : Nat) : Fld := ⟨0x91004 + i * 0x10, 0, 32⟩
/-- ACQ_CH1.n_mm. -/
def ACQ_CH1_n_mm (i : Nat) : Fld := ⟨0x91004 + i * 0x10, 0, 16⟩
/-- ACQ_CH1.n_mean. -/
def ACQ_CH1_n_mean (i : Nat) : Fld := ⟨0x91004 + i * 0x10, 16, 16⟩
/-- ACQ_CH2 (R323). -/
def ACQ_CH2 (i : Nat) : Fld := ⟨0x91008 + i * 0x10, 0, 32⟩
/-- ACQ_CH2.mask_mode. -/
def ACQ_CH2_mask_mode (i : Nat) : Fld := ⟨0x91008 + i * 0x10, 0, 2⟩
/-- ACQ_MEAS0 (R324). -/
def ACQ_MEAS0 (i : Nat) : Fld := ⟨0x93000 + i * 0x10, 0, 32⟩
/-- ACQ_MEAS0.channel. -/
def ACQ_MEAS0_channel (i : Nat) : Fld := ⟨0x93000 + i * 0x10, 0, 9⟩
/-- ACQ_MEAS0.en. -/
def ACQ_MEAS0_en (i : Nat) : Fld := ⟨0x93000 + i * 0x10, 15, 1⟩
/-- ACQ_MEAS_BASE (R324). -/
def ACQ_MEAS_BASE (i : Nat) : Fld := ⟨0x93004 + i * 0x10, 0, 32⟩
/-- ACQ_MEAS_TOP (R324). -/
def ACQ_MEAS_TOP (i : Nat) : Fld := ⟨0x93008 + i * 0x10, 0, 32⟩
/-- ACQ_MASK (R323). -/
def ACQ_MASK (i j : Nat) : Fld := ⟨0x98000 + i * 0x200 + j * 0x4, 0, 32⟩
/-- SCH_CFG (R178). -/
def SCH_CFG : Fld := ⟨0xA0000, 0, 32⟩
/-- SCH_CFG.queue. -/
def SCH_CFG_queue : Fld := ⟨0xA0000, 0, 6⟩
/-- SCH_CFG.rec_en. -/
def SCH_CFG_rec_en : Fld := ⟨0xA0000, 8, 1⟩
/-- SCH_CFG.spill. -/
def SCH_CFG_spill : Fld := ⟨0xA0000, 9, 1⟩
/-- SCH_CFG.run_limit_ms. -/
def SCH_CFG_run_limit_ms : Fld := ⟨0xA0000, 16, 8⟩
/-- SCH_CFG.state_part. -/
def SCH_CFG_state_part : Fld := ⟨0xA0000, 24, 4⟩
/-- SCH_SUBMIT (R176). -/
def SCH_SUBMIT (m i : Nat) : Fld := ⟨(m + 1) * 0x4000000 + 0xA0010 + i * 0x4, 0, 32⟩
/-- SCH_SUBMIT_STAT (R176). -/
def SCH_SUBMIT_STAT (m : Nat) : Fld := ⟨(m + 1) * 0x4000000 + 0xA0030, 0, 32⟩
/-- SCH_SUBMIT_STAT.result. -/
def SCH_SUBMIT_STAT_result (m : Nat) : Fld := ⟨(m + 1) * 0x4000000 + 0xA0030, 0, 4⟩
/-- SCH_SUBMIT_STAT.accepted. -/
def SCH_SUBMIT_STAT_accepted (m : Nat) : Fld := ⟨(m + 1) * 0x4000000 + 0xA0030, 16, 16⟩
/-- SCH_INST_RESULT (R173). -/
def SCH_INST_RESULT : Fld := ⟨0xA0040, 0, 32⟩
/-- SCH_INST_RESULT.index. -/
def SCH_INST_RESULT_index : Fld := ⟨0xA0040, 0, 10⟩
/-- SCH_INST_RESULT.code. -/
def SCH_INST_RESULT_code : Fld := ⟨0xA0040, 12, 4⟩
/-- SCH_OVERRUN (R180). -/
def SCH_OVERRUN : Fld := ⟨0xA0044, 0, 32⟩
/-- SCH_GONE (R183). -/
def SCH_GONE : Fld := ⟨0xA0048, 0, 32⟩
/-- SCH_DENIED (R183). -/
def SCH_DENIED : Fld := ⟨0xA004C, 0, 32⟩
/-- SCH_LVL_DEPTH (R184). -/
def SCH_LVL_DEPTH (i : Nat) : Fld := ⟨0xA0100 + i * 0x8, 0, 32⟩
/-- SCH_LVL_DEPTH.depth. -/
def SCH_LVL_DEPTH_depth (i : Nat) : Fld := ⟨0xA0100 + i * 0x8, 0, 11⟩
/-- SCH_LVL_DEPTH.hwm. -/
def SCH_LVL_DEPTH_hwm (i : Nat) : Fld := ⟨0xA0100 + i * 0x8, 16, 11⟩
/-- SCH_LVL_DEPTH.clear_hwm. -/
def SCH_LVL_DEPTH_clear_hwm (i : Nat) : Fld := ⟨0xA0100 + i * 0x8, 31, 1⟩
/-- SCH_LVL_CNT (R180). -/
def SCH_LVL_CNT (i : Nat) : Fld := ⟨0xA0104 + i * 0x8, 0, 32⟩
/-- SCH_LVL_CNT.overruns. -/
def SCH_LVL_CNT_overruns (i : Nat) : Fld := ⟨0xA0104 + i * 0x8, 0, 16⟩
/-- SCH_LVL_CNT.full. -/
def SCH_LVL_CNT_full (i : Nat) : Fld := ⟨0xA0104 + i * 0x8, 16, 16⟩
/-- SCH_ENG_CTRL (R182). -/
def SCH_ENG_CTRL (i : Nat) : Fld := ⟨0xA1000 + i * 0x40, 0, 32⟩
/-- SCH_ENG_CTRL.enable. -/
def SCH_ENG_CTRL_enable (i : Nat) : Fld := ⟨0xA1000 + i * 0x40, 0, 1⟩
/-- SCH_ENG_CTRL.state. -/
def SCH_ENG_CTRL_state (i : Nat) : Fld := ⟨0xA1000 + i * 0x40, 1, 3⟩
/-- SCH_ENG_CTRL.enable_pending. -/
def SCH_ENG_CTRL_enable_pending (i : Nat) : Fld := ⟨0xA1000 + i * 0x40, 4, 1⟩
/-- SCH_ENG_CTRL.retest. -/
def SCH_ENG_CTRL_retest (i : Nat) : Fld := ⟨0xA1000 + i * 0x40, 5, 1⟩
/-- SCH_ENG_CTRL.last_fault. -/
def SCH_ENG_CTRL_last_fault (i : Nat) : Fld := ⟨0xA1000 + i * 0x40, 8, 4⟩
/-- SCH_ENG_CTRL.running. -/
def SCH_ENG_CTRL_running (i : Nat) : Fld := ⟨0xA1000 + i * 0x40, 16, 10⟩
/-- SCH_ENG_CTRL.run_kind. -/
def SCH_ENG_CTRL_run_kind (i : Nat) : Fld := ⟨0xA1000 + i * 0x40, 26, 2⟩
/-- SCH_ENG_TASKS (R184). -/
def SCH_ENG_TASKS (i : Nat) : Fld := ⟨0xA1004 + i * 0x40, 0, 32⟩
/-- SCH_ENG_WAIT_MEAN (R184). -/
def SCH_ENG_WAIT_MEAN (i : Nat) : Fld := ⟨0xA1008 + i * 0x40, 0, 32⟩
/-- SCH_ENG_WAIT_MAX (R184). -/
def SCH_ENG_WAIT_MAX (i : Nat) : Fld := ⟨0xA100C + i * 0x40, 0, 32⟩
/-- SCH_ENG_BUSY (R184). -/
def SCH_ENG_BUSY (i : Nat) : Fld := ⟨0xA1010 + i * 0x40, 0, 32⟩
/-- SCH_ENG_LOAD (R184). -/
def SCH_ENG_LOAD (i : Nat) : Fld := ⟨0xA1014 + i * 0x40, 0, 32⟩
/-- SCH_ENG_LOAD.load. -/
def SCH_ENG_LOAD_load (i : Nat) : Fld := ⟨0xA1014 + i * 0x40, 0, 10⟩
/-- SCH_ENG_LOAD.short. -/
def SCH_ENG_LOAD_short (i : Nat) : Fld := ⟨0xA1014 + i * 0x40, 16, 1⟩
/-- SCH_ENG_FAULTS (R181). -/
def SCH_ENG_FAULTS (i : Nat) : Fld := ⟨0xA1018 + i * 0x40, 0, 32⟩
/-- SCH_ENG_CECC (R181). -/
def SCH_ENG_CECC (i : Nat) : Fld := ⟨0xA101C + i * 0x40, 0, 32⟩
/-- SCH_ENG_DONE (R184). -/
def SCH_ENG_DONE (i : Nat) : Fld := ⟨0xA1020 + i * 0x40, 0, 32⟩
/-- SCH_ENG_HIST (R184). -/
def SCH_ENG_HIST (i j : Nat) : Fld := ⟨0xA2000 + i * 0x40 + j * 0x4, 0, 32⟩
/-- SCH_INST_CTRL (R173). -/
def SCH_INST_CTRL (i : Nat) : Fld := ⟨0xA6000 + i * 0x4, 0, 32⟩
/-- SCH_INST_CTRL.enable. -/
def SCH_INST_CTRL_enable (i : Nat) : Fld := ⟨0xA6000 + i * 0x4, 0, 1⟩
/-- SCH_INST_CTRL.state. -/
def SCH_INST_CTRL_state (i : Nat) : Fld := ⟨0xA6000 + i * 0x4, 1, 2⟩
/-- SCH_INST_CTRL.enable_pending. -/
def SCH_INST_CTRL_enable_pending (i : Nat) : Fld := ⟨0xA6000 + i * 0x4, 3, 1⟩
/-- SCH_INST_CTRL.wr_drop. -/
def SCH_INST_CTRL_wr_drop (i : Nat) : Fld := ⟨0xA6000 + i * 0x4, 4, 1⟩
/-- SCH_INST_CTRL.overruns. -/
def SCH_INST_CTRL_overruns (i : Nat) : Fld := ⟨0xA6000 + i * 0x4, 16, 16⟩
/-- SCH_INST0 (R172). -/
def SCH_INST0 (i : Nat) : Fld := ⟨0xA8000 + i * 0x10, 0, 32⟩
/-- SCH_INST0.kernel_id. -/
def SCH_INST0_kernel_id (i : Nat) : Fld := ⟨0xA8000 + i * 0x10, 0, 16⟩
/-- SCH_INST0.prio. -/
def SCH_INST0_prio (i : Nat) : Fld := ⟨0xA8000 + i * 0x10, 16, 3⟩
/-- SCH_INST0.trig. -/
def SCH_INST0_trig (i : Nat) : Fld := ⟨0xA8000 + i * 0x10, 19, 5⟩
/-- SCH_INST0.trig_kind. -/
def SCH_INST0_trig_kind (i : Nat) : Fld := ⟨0xA8000 + i * 0x10, 24, 1⟩
/-- SCH_INST0.notice_mask. -/
def SCH_INST0_notice_mask (i : Nat) : Fld := ⟨0xA8000 + i * 0x10, 25, 3⟩
/-- SCH_INST0.rec_done. -/
def SCH_INST0_rec_done (i : Nat) : Fld := ⟨0xA8000 + i * 0x10, 28, 1⟩
/-- SCH_INST1 (R172). -/
def SCH_INST1 (i : Nat) : Fld := ⟨0xA8004 + i * 0x10, 0, 32⟩
/-- SCH_INST1.affinity. -/
def SCH_INST1_affinity (i : Nat) : Fld := ⟨0xA8004 + i * 0x10, 0, 16⟩
/-- SCH_INST1.deadline. -/
def SCH_INST1_deadline (i : Nat) : Fld := ⟨0xA8004 + i * 0x10, 16, 16⟩
/-- SCH_INST2 (R173). -/
def SCH_INST2 (i : Nat) : Fld := ⟨0xA8008 + i * 0x10, 0, 32⟩
/-- SCH_INST2.param_off. -/
def SCH_INST2_param_off (i : Nat) : Fld := ⟨0xA8008 + i * 0x10, 0, 18⟩
/-- SCH_INST2.param_len. -/
def SCH_INST2_param_len (i : Nat) : Fld := ⟨0xA8008 + i * 0x10, 18, 10⟩
/-- SCH_INST3 (R172). -/
def SCH_INST3 (i : Nat) : Fld := ⟨0xA800C + i * 0x10, 0, 32⟩
/-- SCH_INST3.state_off. -/
def SCH_INST3_state_off (i : Nat) : Fld := ⟨0xA800C + i * 0x10, 0, 24⟩
/-- SCH_INST3.state_len. -/
def SCH_INST3_state_len (i : Nat) : Fld := ⟨0xA800C + i * 0x10, 24, 8⟩
/-- DET_CFG (R232). -/
def DET_CFG : Fld := ⟨0xB0000, 0, 32⟩
/-- DET_CFG.confirm_ms. -/
def DET_CFG_confirm_ms : Fld := ⟨0xB0000, 0, 8⟩
/-- DET_CMD (R230). -/
def DET_CMD : Fld := ⟨0xB0004, 0, 32⟩
/-- DET_CMD.cmd. -/
def DET_CMD_cmd : Fld := ⟨0xB0004, 0, 4⟩
/-- DET_CMD.index. -/
def DET_CMD_index : Fld := ⟨0xB0004, 4, 14⟩
/-- DET_PEND (R233). -/
def DET_PEND : Fld := ⟨0xB0008, 0, 32⟩
/-- DET_PEND.pending. -/
def DET_PEND_pending : Fld := ⟨0xB0008, 0, 11⟩
/-- DET_PEND.overflow. -/
def DET_PEND_overflow : Fld := ⟨0xB0008, 16, 16⟩
/-- DET_SEQ (R231). -/
def DET_SEQ : Fld := ⟨0xB000C, 0, 32⟩
/-- DET_NOTICE_CFG (R236). -/
def DET_NOTICE_CFG : Fld := ⟨0xB0020, 0, 32⟩
/-- DET_NOTICE_CFG.port. -/
def DET_NOTICE_CFG_port : Fld := ⟨0xB0020, 0, 2⟩
/-- DET_NOTICE_CFG.en. -/
def DET_NOTICE_CFG_en : Fld := ⟨0xB0020, 2, 1⟩
/-- DET_NOTICE_CFG.repeat. -/
def DET_NOTICE_CFG_repeat : Fld := ⟨0xB0020, 3, 2⟩
/-- DET_NOTICE_CFG.dscp. -/
def DET_NOTICE_CFG_dscp : Fld := ⟨0xB0020, 5, 6⟩
/-- DET_NOTICE_CFG.unit_id. -/
def DET_NOTICE_CFG_unit_id : Fld := ⟨0xB0020, 16, 16⟩
/-- DET_NOTICE_UDP (R236). -/
def DET_NOTICE_UDP : Fld := ⟨0xB0024, 0, 32⟩
/-- DET_NOTICE_UDP.src. -/
def DET_NOTICE_UDP_src : Fld := ⟨0xB0024, 0, 16⟩
/-- DET_NOTICE_UDP.dst. -/
def DET_NOTICE_UDP_dst : Fld := ⟨0xB0024, 16, 16⟩
/-- DET_NOTICE_SIP (R236). -/
def DET_NOTICE_SIP : Fld := ⟨0xB0028, 0, 32⟩
/-- DET_NOTICE_DIP (R236). -/
def DET_NOTICE_DIP : Fld := ⟨0xB002C, 0, 32⟩
/-- DET_NOTICE_DMAC_LO (R236). -/
def DET_NOTICE_DMAC_LO : Fld := ⟨0xB0030, 0, 32⟩
/-- DET_NOTICE_DMAC_HI (R236). -/
def DET_NOTICE_DMAC_HI : Fld := ⟨0xB0034, 0, 32⟩
/-- DET_NOTICE_DMAC_HI.value. -/
def DET_NOTICE_DMAC_HI_value : Fld := ⟨0xB0034, 0, 16⟩
/-- DET_NOTICE_SENT (R236). -/
def DET_NOTICE_SENT : Fld := ⟨0xB0038, 0, 32⟩
/-- DET_NOTICE_NOT_SENT (R235). -/
def DET_NOTICE_NOT_SENT : Fld := ⟨0xB003C, 0, 32⟩
/-- DET_ALM_STAT (R238). -/
def DET_ALM_STAT : Fld := ⟨0xB0040, 0, 32⟩
/-- DET_ALM_STAT.alm. -/
def DET_ALM_STAT_alm : Fld := ⟨0xB0040, 0, 4⟩
/-- DET_ALM_STAT.token. -/
def DET_ALM_STAT_token : Fld := ⟨0xB0040, 4, 1⟩
/-- DET_CLASS_CFG (R231). -/
def DET_CLASS_CFG (i : Nat) : Fld := ⟨0xB0100 + i * 0x8, 0, 32⟩
/-- DET_CLASS_CFG.queue. -/
def DET_CLASS_CFG_queue (i : Nat) : Fld := ⟨0xB0100 + i * 0x8, 0, 6⟩
/-- DET_CLASS_CFG.rec_en. -/
def DET_CLASS_CFG_rec_en (i : Nat) : Fld := ⟨0xB0100 + i * 0x8, 6, 1⟩
/-- DET_CLASS_CFG.notice_en. -/
def DET_CLASS_CFG_notice_en (i : Nat) : Fld := ⟨0xB0100 + i * 0x8, 7, 1⟩
/-- DET_CLASS_CFG.goose_en. -/
def DET_CLASS_CFG_goose_en (i : Nat) : Fld := ⟨0xB0100 + i * 0x8, 8, 1⟩
/-- DET_CLASS_CFG.alm_en. -/
def DET_CLASS_CFG_alm_en (i : Nat) : Fld := ⟨0xB0100 + i * 0x8, 9, 1⟩
/-- DET_CLASS_CFG.alm_pin. -/
def DET_CLASS_CFG_alm_pin (i : Nat) : Fld := ⟨0xB0100 + i * 0x8, 10, 2⟩
/-- DET_CLASS_CFG.alm_mode. -/
def DET_CLASS_CFG_alm_mode (i : Nat) : Fld := ⟨0xB0100 + i * 0x8, 12, 1⟩
/-- DET_CLASS_CFG.goose_cb. -/
def DET_CLASS_CFG_goose_cb (i : Nat) : Fld := ⟨0xB0100 + i * 0x8, 13, 5⟩
/-- DET_CLASS_STAT (R239). -/
def DET_CLASS_STAT (i : Nat) : Fld := ⟨0xB0104 + i * 0x8, 0, 32⟩
/-- DET_CLASS_STAT.active. -/
def DET_CLASS_STAT_active (i : Nat) : Fld := ⟨0xB0104 + i * 0x8, 0, 15⟩
/-- DET_CLASS_STAT.latched. -/
def DET_CLASS_STAT_latched (i : Nat) : Fld := ⟨0xB0104 + i * 0x8, 15, 15⟩
/-- DET_CLASS_STAT.unacked. -/
def DET_CLASS_STAT_unacked (i : Nat) : Fld := ⟨0xB0104 + i * 0x8, 30, 1⟩
/-- DET_AST (R227). -/
def DET_AST (i : Nat) : Fld := ⟨0xB8000 + i * 0x4, 0, 32⟩
/-- DET_AST.entry_even. -/
def DET_AST_entry_even (i : Nat) : Fld := ⟨0xB8000 + i * 0x4, 0, 16⟩
/-- DET_AST.entry_odd. -/
def DET_AST_entry_odd (i : Nat) : Fld := ⟨0xB8000 + i * 0x4, 16, 16⟩
/-- LGE_CTRL (R256). -/
def LGE_CTRL : Fld := ⟨0xC0000, 0, 32⟩
/-- LGE_CTRL.cmd. -/
def LGE_CTRL_cmd : Fld := ⟨0xC0000, 0, 3⟩
/-- LGE_CTRL.swap. -/
def LGE_CTRL_swap : Fld := ⟨0xC0000, 3, 1⟩
/-- LGE_STAT (R256). -/
def LGE_STAT : Fld := ⟨0xC0004, 0, 32⟩
/-- LGE_STAT.state. -/
def LGE_STAT_state : Fld := ⟨0xC0004, 0, 3⟩
/-- LGE_STAT.start_pending. -/
def LGE_STAT_start_pending : Fld := ⟨0xC0004, 3, 1⟩
/-- LGE_STAT.halt_cause. -/
def LGE_STAT_halt_cause : Fld := ⟨0xC0004, 4, 4⟩
/-- LGE_STAT.bank. -/
def LGE_STAT_bank : Fld := ⟨0xC0004, 8, 1⟩
/-- LGE_STAT.last_start. -/
def LGE_STAT_last_start : Fld := ⟨0xC0004, 9, 2⟩
/-- LGE_STAT.warm_refused. -/
def LGE_STAT_warm_refused : Fld := ⟨0xC0004, 11, 1⟩
/-- LGE_STAT.wr_drop. -/
def LGE_STAT_wr_drop : Fld := ⟨0xC0004, 12, 1⟩
/-- LGE_STAT.alarm_conflict. -/
def LGE_STAT_alarm_conflict : Fld := ⟨0xC0004, 13, 1⟩
/-- LGE_CFG (R245). -/
def LGE_CFG : Fld := ⟨0xC0008, 0, 32⟩
/-- LGE_CFG.min_cycle_us. -/
def LGE_CFG_min_cycle_us : Fld := ⟨0xC0008, 0, 8⟩
/-- LGE_CFG.watchdog_us. -/
def LGE_CFG_watchdog_us : Fld := ⟨0xC0008, 8, 8⟩
/-- LGE_CFG.auto_restart. -/
def LGE_CFG_auto_restart : Fld := ⟨0xC0008, 16, 2⟩
/-- LGE_CFG.bank. -/
def LGE_CFG_bank : Fld := ⟨0xC0008, 18, 1⟩
/-- LGE_CFG.alarm_class. -/
def LGE_CFG_alarm_class : Fld := ⟨0xC0008, 20, 4⟩
/-- LGE_ALARM_INST (R252). -/
def LGE_ALARM_INST : Fld := ⟨0xC000C, 0, 32⟩
/-- LGE_ALARM_INST.inst. -/
def LGE_ALARM_INST_inst : Fld := ⟨0xC000C, 0, 10⟩
/-- LGE_CYC_LAST (R245). -/
def LGE_CYC_LAST : Fld := ⟨0xC0010, 0, 32⟩
/-- LGE_CYC_MAX (R245). -/
def LGE_CYC_MAX : Fld := ⟨0xC0014, 0, 32⟩
/-- LGE_CYC_COUNT (R245). -/
def LGE_CYC_COUNT : Fld := ⟨0xC0018, 0, 32⟩
/-- LGE_HALT_PC (R243). -/
def LGE_HALT_PC : Fld := ⟨0xC001C, 0, 32⟩
/-- LGE_HALT_PC.value. -/
def LGE_HALT_PC_value : Fld := ⟨0xC001C, 0, 16⟩
/-- LGE_GSUB_STAT (R253). -/
def LGE_GSUB_STAT : Fld := ⟨0xC0020, 0, 32⟩
/-- LGE_GSUB_STAT.test_drop. -/
def LGE_GSUB_STAT_test_drop : Fld := ⟨0xC0020, 0, 16⟩
/-- LGE_GSUB_STAT.mismatch. -/
def LGE_GSUB_STAT_mismatch : Fld := ⟨0xC0020, 16, 16⟩
/-- LGE_PROG_CMD (R277). -/
def LGE_PROG_CMD : Fld := ⟨0xC0040, 0, 32⟩
/-- LGE_PROG_CMD.cmd. -/
def LGE_PROG_CMD_cmd : Fld := ⟨0xC0040, 0, 2⟩
/-- LGE_PROG_CMD.bank. -/
def LGE_PROG_CMD_bank : Fld := ⟨0xC0040, 2, 1⟩
/-- LGE_PROG_STAT (R277). -/
def LGE_PROG_STAT : Fld := ⟨0xC0044, 0, 32⟩
/-- LGE_PROG_STAT.recto. -/
def LGE_PROG_STAT_recto : Fld := ⟨0xC0044, 0, 2⟩
/-- LGE_PROG_STAT.verso. -/
def LGE_PROG_STAT_verso : Fld := ⟨0xC0044, 2, 2⟩
/-- LGE_PROG_STAT.armed. -/
def LGE_PROG_STAT_armed : Fld := ⟨0xC0044, 4, 1⟩
/-- LGE_PROG_STAT.wr_drop. -/
def LGE_PROG_STAT_wr_drop : Fld := ⟨0xC0044, 5, 1⟩
/-- LGE_PROG_STAT.result. -/
def LGE_PROG_STAT_result : Fld := ⟨0xC0044, 8, 8⟩
/-- LGE_PROG_STAT.swap_result. -/
def LGE_PROG_STAT_swap_result : Fld := ⟨0xC0044, 16, 4⟩
/-- LGE_PROG_INFO_ID (R277). -/
def LGE_PROG_INFO_ID (i : Nat) : Fld := ⟨0xC0048 + i * 0x10, 0, 32⟩
/-- LGE_PROG_INFO_RETAIN (R277). -/
def LGE_PROG_INFO_RETAIN (i : Nat) : Fld := ⟨0xC004C + i * 0x10, 0, 32⟩
/-- LGE_PROG_INFO_SIZES (R277). -/
def LGE_PROG_INFO_SIZES (i : Nat) : Fld := ⟨0xC0050 + i * 0x10, 0, 32⟩
/-- LGE_PROG_INFO_SIZES.retain_len. -/
def LGE_PROG_INFO_SIZES_retain_len (i : Nat) : Fld := ⟨0xC0050 + i * 0x10, 0, 16⟩
/-- LGE_PROG_INFO_SIZES.code_count. -/
def LGE_PROG_INFO_SIZES_code_count (i : Nat) : Fld := ⟨0xC0050 + i * 0x10, 16, 16⟩
/-- LGE_PROG_INFO_BOUND (R269). -/
def LGE_PROG_INFO_BOUND (i : Nat) : Fld := ⟨0xC0054 + i * 0x10, 0, 32⟩
/-- LGE_XCHG_TIME_LO (R279). -/
def LGE_XCHG_TIME_LO : Fld := ⟨0xC0068, 0, 32⟩
/-- LGE_XCHG_TIME_HI (R279). -/
def LGE_XCHG_TIME_HI : Fld := ⟨0xC006C, 0, 32⟩
/-- LGE_XCHG_CNT (R279). -/
def LGE_XCHG_CNT : Fld := ⟨0xC0070, 0, 32⟩
/-- LGE_XCHG_CNT.carried. -/
def LGE_XCHG_CNT_carried : Fld := ⟨0xC0070, 0, 16⟩
/-- LGE_XCHG_CNT.initialised. -/
def LGE_XCHG_CNT_initialised : Fld := ⟨0xC0070, 16, 16⟩
/-- LGE_XCHG_DUR (R279). -/
def LGE_XCHG_DUR : Fld := ⟨0xC0074, 0, 32⟩
/-- LGE_FORCE_STAT (R283). -/
def LGE_FORCE_STAT : Fld := ⟨0xC0078, 0, 32⟩
/-- LGE_FORCE_STAT.applied. -/
def LGE_FORCE_STAT_applied : Fld := ⟨0xC0078, 0, 9⟩
/-- LGE_FORCE_STAT.dropped. -/
def LGE_FORCE_STAT_dropped : Fld := ⟨0xC0078, 16, 16⟩
/-- LGE_GSEL_CFG (R249). -/
def LGE_GSEL_CFG : Fld := ⟨0xC0100, 0, 32⟩
/-- LGE_GSEL_CFG.reader. -/
def LGE_GSEL_CFG_reader : Fld := ⟨0xC0100, 0, 6⟩
/-- LGE_GSEL_CFG.en. -/
def LGE_GSEL_CFG_en : Fld := ⟨0xC0100, 8, 1⟩
/-- LGE_GSEL0 (R249). -/
def LGE_GSEL0 (i : Nat) : Fld := ⟨0xC0400 + i * 0x8, 0, 32⟩
/-- LGE_GSEL0.source. -/
def LGE_GSEL0_source (i : Nat) : Fld := ⟨0xC0400 + i * 0x8, 0, 13⟩
/-- LGE_GSEL1 (R249). -/
def LGE_GSEL1 (i : Nat) : Fld := ⟨0xC0404 + i * 0x8, 0, 32⟩
/-- LGE_GSEL1.slot. -/
def LGE_GSEL1_slot (i : Nat) : Fld := ⟨0xC0404 + i * 0x8, 0, 20⟩
/-- LGE_GSUB_CTRL (R253). -/
def LGE_GSUB_CTRL (i : Nat) : Fld := ⟨0xC1000 + i * 0x40, 0, 32⟩
/-- LGE_GSUB_CTRL.en. -/
def LGE_GSUB_CTRL_en (i : Nat) : Fld := ⟨0xC1000 + i * 0x40, 0, 1⟩
/-- LGE_GSUB_CTRL.accept_test. -/
def LGE_GSUB_CTRL_accept_test (i : Nat) : Fld := ⟨0xC1000 + i * 0x40, 1, 1⟩
/-- LGE_GSUB_CTRL.n_mem. -/
def LGE_GSUB_CTRL_n_mem (i : Nat) : Fld := ⟨0xC1000 + i * 0x40, 2, 6⟩
/-- LGE_GSUB_CTRL.port_mask. -/
def LGE_GSUB_CTRL_port_mask (i : Nat) : Fld := ⟨0xC1000 + i * 0x40, 8, 4⟩
/-- LGE_GSUB_CTRL.appid. -/
def LGE_GSUB_CTRL_appid (i : Nat) : Fld := ⟨0xC1000 + i * 0x40, 16, 16⟩
/-- LGE_GSUB_DMAC_LO (R253). -/
def LGE_GSUB_DMAC_LO (i : Nat) : Fld := ⟨0xC1004 + i * 0x40, 0, 32⟩
/-- LGE_GSUB_DMAC_HI (R253). -/
def LGE_GSUB_DMAC_HI (i : Nat) : Fld := ⟨0xC1008 + i * 0x40, 0, 32⟩
/-- LGE_GSUB_DMAC_HI.value. -/
def LGE_GSUB_DMAC_HI_value (i : Nat) : Fld := ⟨0xC1008 + i * 0x40, 0, 16⟩
/-- LGE_GSUB_CONFREV (R253). -/
def LGE_GSUB_CONFREV (i : Nat) : Fld := ⟨0xC100C + i * 0x40, 0, 32⟩
/-- LGE_GSUB_TYPES (R253). -/
def LGE_GSUB_TYPES (i j : Nat) : Fld := ⟨0xC1010 + i * 0x40 + j * 0x4, 0, 32⟩
/-- LGE_GPUB_CTRL (R255). -/
def LGE_GPUB_CTRL (i : Nat) : Fld := ⟨0xC2000 + i * 0x40, 0, 32⟩
/-- LGE_GPUB_CTRL.en. -/
def LGE_GPUB_CTRL_en (i : Nat) : Fld := ⟨0xC2000 + i * 0x40, 0, 1⟩
/-- LGE_GPUB_CTRL.test. -/
def LGE_GPUB_CTRL_test (i : Nat) : Fld := ⟨0xC2000 + i * 0x40, 1, 1⟩
/-- LGE_GPUB_CTRL.n_mem. -/
def LGE_GPUB_CTRL_n_mem (i : Nat) : Fld := ⟨0xC2000 + i * 0x40, 2, 6⟩
/-- LGE_GPUB_CTRL.port. -/
def LGE_GPUB_CTRL_port (i : Nat) : Fld := ⟨0xC2000 + i * 0x40, 8, 2⟩
/-- LGE_GPUB_CTRL.appid. -/
def LGE_GPUB_CTRL_appid (i : Nat) : Fld := ⟨0xC2000 + i * 0x40, 16, 16⟩
/-- LGE_GPUB_DMAC_LO (R255). -/
def LGE_GPUB_DMAC_LO (i : Nat) : Fld := ⟨0xC2004 + i * 0x40, 0, 32⟩
/-- LGE_GPUB_DMAC_HI (R255). -/
def LGE_GPUB_DMAC_HI (i : Nat) : Fld := ⟨0xC2008 + i * 0x40, 0, 32⟩
/-- LGE_GPUB_DMAC_HI.value. -/
def LGE_GPUB_DMAC_HI_value (i : Nat) : Fld := ⟨0xC2008 + i * 0x40, 0, 16⟩
/-- LGE_GPUB_CONFREV (R255). -/
def LGE_GPUB_CONFREV (i : Nat) : Fld := ⟨0xC200C + i * 0x40, 0, 32⟩
/-- LGE_GPUB_TIMING (R255). -/
def LGE_GPUB_TIMING (i : Nat) : Fld := ⟨0xC2010 + i * 0x40, 0, 32⟩
/-- LGE_GPUB_TIMING.t_min_ms. -/
def LGE_GPUB_TIMING_t_min_ms (i : Nat) : Fld := ⟨0xC2010 + i * 0x40, 0, 8⟩
/-- LGE_GPUB_TIMING.t_max_ms. -/
def LGE_GPUB_TIMING_t_max_ms (i : Nat) : Fld := ⟨0xC2010 + i * 0x40, 8, 16⟩
/-- LGE_GPUB_STNUM (R255). -/
def LGE_GPUB_STNUM (i : Nat) : Fld := ⟨0xC2014 + i * 0x40, 0, 32⟩
/-- LGE_GPUB_SQNUM (R255). -/
def LGE_GPUB_SQNUM (i : Nat) : Fld := ⟨0xC2018 + i * 0x40, 0, 32⟩
/-- LGE_GPUB_TYPES (R255). -/
def LGE_GPUB_TYPES (i j : Nat) : Fld := ⟨0xC2020 + i * 0x40 + j * 0x4, 0, 32⟩
/-- LGE_GSTR (R255). -/
def LGE_GSTR (i j : Nat) : Fld := ⟨0xC3000 + i * 0x80 + j * 0x4, 0, 32⟩
/-- LGE_OUT (R250). -/
def LGE_OUT (i : Nat) : Fld := ⟨0xC8000 + i * 0x4, 0, 32⟩
/-- LGE_FRC0 (R281). -/
def LGE_FRC0 (i : Nat) : Fld := ⟨0xCC000 + i * 0x10, 0, 32⟩
/-- LGE_FRC0.id. -/
def LGE_FRC0_id (i : Nat) : Fld := ⟨0xCC000 + i * 0x10, 0, 16⟩
/-- LGE_FRC0.type. -/
def LGE_FRC0_type (i : Nat) : Fld := ⟨0xCC000 + i * 0x10, 16, 4⟩
/-- LGE_FRC0.en. -/
def LGE_FRC0_en (i : Nat) : Fld := ⟨0xCC000 + i * 0x10, 31, 1⟩
/-- LGE_FRC_LO (R281). -/
def LGE_FRC_LO (i : Nat) : Fld := ⟨0xCC004 + i * 0x10, 0, 32⟩
/-- LGE_FRC_HI (R281). -/
def LGE_FRC_HI (i : Nat) : Fld := ⟨0xCC008 + i * 0x10, 0, 32⟩
/-- LGE_FRC_STAT (R281). -/
def LGE_FRC_STAT (i : Nat) : Fld := ⟨0xCC00C + i * 0x10, 0, 32⟩
/-- LGE_FRC_STAT.state. -/
def LGE_FRC_STAT_state (i : Nat) : Fld := ⟨0xCC00C + i * 0x10, 0, 2⟩
/-- LGE_FRC_STAT.addr. -/
def LGE_FRC_STAT_addr (i : Nat) : Fld := ⟨0xCC00C + i * 0x10, 4, 18⟩
/-- LGE_FRC_STAT.bit. -/
def LGE_FRC_STAT_bit (i : Nat) : Fld := ⟨0xCC00C + i * 0x10, 22, 5⟩
/-- SPN_CFG (R285). -/
def SPN_CFG : Fld := ⟨0xD0000, 0, 32⟩
/-- SPN_CFG.enable. -/
def SPN_CFG_enable : Fld := ⟨0xD0000, 0, 1⟩
/-- SPN_CFG.role. -/
def SPN_CFG_role : Fld := ⟨0xD0000, 1, 1⟩
/-- SPN_CFG.auto_return. -/
def SPN_CFG_auto_return : Fld := ⟨0xD0000, 2, 1⟩
/-- SPN_CFG.min_time. -/
def SPN_CFG_min_time : Fld := ⟨0xD0000, 4, 2⟩
/-- SPN_CFG.spine_b_port. -/
def SPN_CFG_spine_b_port : Fld := ⟨0xD0000, 6, 2⟩
/-- SPN_CFG.spine_b_en. -/
def SPN_CFG_spine_b_en : Fld := ⟨0xD0000, 8, 1⟩
/-- SPN_CFG.unit_id. -/
def SPN_CFG_unit_id : Fld := ⟨0xD0000, 16, 16⟩
/-- SPN_ID (R288). -/
def SPN_ID : Fld := ⟨0xD0004, 0, 32⟩
/-- SPN_ID.pair_id. -/
def SPN_ID_pair_id : Fld := ⟨0xD0004, 0, 16⟩
/-- SPN_ID.vid. -/
def SPN_ID_vid : Fld := ⟨0xD0004, 16, 12⟩
/-- SPN_ID.pcp. -/
def SPN_ID_pcp : Fld := ⟨0xD0004, 28, 3⟩
/-- SPN_LEASE (R292). -/
def SPN_LEASE : Fld := ⟨0xD0008, 0, 32⟩
/-- SPN_LEASE.lease_us. -/
def SPN_LEASE_lease_us : Fld := ⟨0xD0008, 0, 10⟩
/-- SPN_LEASE.join_ms. -/
def SPN_LEASE_join_ms : Fld := ⟨0xD0008, 16, 8⟩
/-- SPN_RETURN (R302). -/
def SPN_RETURN : Fld := ⟨0xD000C, 0, 32⟩
/-- SPN_RETURN.holdoff_s. -/
def SPN_RETURN_holdoff_s : Fld := ⟨0xD000C, 0, 16⟩
/-- SPN_CMD (R300). -/
def SPN_CMD : Fld := ⟨0xD0010, 0, 32⟩
/-- SPN_CMD.cmd. -/
def SPN_CMD_cmd : Fld := ⟨0xD0010, 0, 4⟩
/-- SPN_CMD.confirm. -/
def SPN_CMD_confirm : Fld := ⟨0xD0010, 8, 8⟩
/-- SPN_STAT (R295). -/
def SPN_STAT : Fld := ⟨0xD0014, 0, 32⟩
/-- SPN_STAT.state. -/
def SPN_STAT_state : Fld := ⟨0xD0014, 0, 4⟩
/-- SPN_STAT.acting. -/
def SPN_STAT_acting : Fld := ⟨0xD0014, 4, 1⟩
/-- SPN_STAT.lease_valid. -/
def SPN_STAT_lease_valid : Fld := ⟨0xD0014, 5, 1⟩
/-- SPN_STAT.mirror_ok. -/
def SPN_STAT_mirror_ok : Fld := ⟨0xD0014, 6, 1⟩
/-- SPN_STAT.spa_alive. -/
def SPN_STAT_spa_alive : Fld := ⟨0xD0014, 7, 1⟩
/-- SPN_STAT.spb_alive. -/
def SPN_STAT_spb_alive : Fld := ⟨0xD0014, 8, 1⟩
/-- SPN_STAT.hb_alive. -/
def SPN_STAT_hb_alive : Fld := ⟨0xD0014, 9, 1⟩
/-- SPN_STAT.peer_primary. -/
def SPN_STAT_peer_primary : Fld := ⟨0xD0014, 10, 1⟩
/-- SPN_STAT.role_conflict. -/
def SPN_STAT_role_conflict : Fld := ⟨0xD0014, 11, 1⟩
/-- SPN_STAT.cmd_refused. -/
def SPN_STAT_cmd_refused : Fld := ⟨0xD0014, 12, 1⟩
/-- SPN_STAT.diag_cause. -/
def SPN_STAT_diag_cause : Fld := ⟨0xD0014, 16, 4⟩
/-- SPN_DIAG (R297). -/
def SPN_DIAG : Fld := ⟨0xD0018, 0, 32⟩
/-- SPN_DIAG.standing. -/
def SPN_DIAG_standing : Fld := ⟨0xD0018, 0, 6⟩
/-- SPN_PEER (R295). -/
def SPN_PEER : Fld := ⟨0xD001C, 0, 32⟩
/-- SPN_PEER.unit_id. -/
def SPN_PEER_unit_id : Fld := ⟨0xD001C, 0, 16⟩
/-- SPN_PEER.state. -/
def SPN_PEER_state : Fld := ⟨0xD001C, 16, 4⟩
/-- SPN_PEER.time. -/
def SPN_PEER_time : Fld := ⟨0xD001C, 20, 2⟩
/-- SPN_TAKES (R295). -/
def SPN_TAKES : Fld := ⟨0xD0020, 0, 32⟩
/-- SPN_LAPSES (R293). -/
def SPN_LAPSES : Fld := ⟨0xD0024, 0, 32⟩
/-- SPN_CRC_ERR (R288). -/
def SPN_CRC_ERR : Fld := ⟨0xD0028, 0, 32⟩
/-- SPN_FOREIGN (R288). -/
def SPN_FOREIGN : Fld := ⟨0xD002C, 0, 32⟩
/-- SPN_MIRROR_LAG (R301). -/
def SPN_MIRROR_LAG : Fld := ⟨0xD0030, 0, 32⟩
/-- SPN_GAP_MAX (R304). -/
def SPN_GAP_MAX : Fld := ⟨0xD0034, 0, 32⟩
/-- SPN_GAP_LAST (R304). -/
def SPN_GAP_LAST : Fld := ⟨0xD0038, 0, 32⟩
/-- SPN_DMAC_LO (R289). -/
def SPN_DMAC_LO : Fld := ⟨0xD0040, 0, 32⟩
/-- SPN_DMAC_HI (R289). -/
def SPN_DMAC_HI : Fld := ⟨0xD0044, 0, 32⟩
/-- SPN_DMAC_HI.value. -/
def SPN_DMAC_HI_value : Fld := ⟨0xD0044, 0, 16⟩
/-- ENR_CFG (R358). -/
def ENR_CFG : Fld := ⟨0xE0000, 0, 32⟩
/-- ENR_CFG.interval. -/
def ENR_CFG_interval : Fld := ⟨0xE0000, 0, 3⟩
/-- ENR_CFG.rec_en. -/
def ENR_CFG_rec_en : Fld := ⟨0xE0000, 3, 1⟩
/-- ENR_CFG.queue. -/
def ENR_CFG_queue : Fld := ⟨0xE0000, 4, 6⟩
/-- ENR_SAVE (R362). -/
def ENR_SAVE : Fld := ⟨0xE0004, 0, 32⟩
/-- ENR_SAVE.period_s. -/
def ENR_SAVE_period_s : Fld := ⟨0xE0004, 0, 12⟩
/-- ENR_SAVE_STAT (R362). -/
def ENR_SAVE_STAT : Fld := ⟨0xE0008, 0, 32⟩
/-- ENR_SAVE_STAT.slot. -/
def ENR_SAVE_STAT_slot : Fld := ⟨0xE0008, 0, 6⟩
/-- ENR_SAVE_STAT.fail. -/
def ENR_SAVE_STAT_fail : Fld := ⟨0xE0008, 6, 1⟩
/-- ENR_SAVE_STAT.restored. -/
def ENR_SAVE_STAT_restored : Fld := ⟨0xE0008, 7, 1⟩
/-- ENR_SAVE_STAT.bad_slots. -/
def ENR_SAVE_STAT_bad_slots : Fld := ⟨0xE0008, 16, 16⟩
/-- ENR_OPSEC_LO (R362). -/
def ENR_OPSEC_LO : Fld := ⟨0xE0010, 0, 32⟩
/-- ENR_OPSEC_HI (R362). -/
def ENR_OPSEC_HI : Fld := ⟨0xE0014, 0, 32⟩
/-- ENR_SAVED_OPSEC_LO (R362). -/
def ENR_SAVED_OPSEC_LO : Fld := ⟨0xE0018, 0, 32⟩
/-- ENR_SAVED_OPSEC_HI (R362). -/
def ENR_SAVED_OPSEC_HI : Fld := ⟨0xE001C, 0, 32⟩
/-- ENR_SEAL_CMD (R366). -/
def ENR_SEAL_CMD : Fld := ⟨0xE0020, 0, 32⟩
/-- ENR_SEAL_CMD.cmd. -/
def ENR_SEAL_CMD_cmd : Fld := ⟨0xE0020, 0, 2⟩
/-- ENR_SEAL_KEY_LO (R366). -/
def ENR_SEAL_KEY_LO : Fld := ⟨0xE0024, 0, 32⟩
/-- ENR_SEAL_KEY_HI (R366). -/
def ENR_SEAL_KEY_HI : Fld := ⟨0xE0028, 0, 32⟩
/-- ENR_SEAL_STAT (R366). -/
def ENR_SEAL_STAT : Fld := ⟨0xE002C, 0, 32⟩
/-- ENR_SEAL_STAT.open. -/
def ENR_SEAL_STAT_open : Fld := ⟨0xE002C, 0, 1⟩
/-- ENR_SEAL_STAT.latch. -/
def ENR_SEAL_STAT_latch : Fld := ⟨0xE002C, 1, 1⟩
/-- ENR_SEAL_STAT.procedure. -/
def ENR_SEAL_STAT_procedure : Fld := ⟨0xE002C, 2, 1⟩
/-- ENR_SEAL_STAT.contact. -/
def ENR_SEAL_STAT_contact : Fld := ⟨0xE002C, 3, 1⟩
/-- ENR_SEAL_STAT.locked. -/
def ENR_SEAL_STAT_locked : Fld := ⟨0xE002C, 4, 1⟩
/-- ENR_SEAL_STAT.fails. -/
def ENR_SEAL_STAT_fails : Fld := ⟨0xE002C, 5, 3⟩
/-- ENR_SEAL_STAT.openings. -/
def ENR_SEAL_STAT_openings : Fld := ⟨0xE002C, 16, 16⟩
/-- ENR_DENIED (R365). -/
def ENR_DENIED : Fld := ⟨0xE0030, 0, 32⟩
/-- ENR_CH_CFG (R355). -/
def ENR_CH_CFG (i : Nat) : Fld := ⟨0xE0100 + i * 0x80, 0, 32⟩
/-- ENR_CH_CFG.en. -/
def ENR_CH_CFG_en (i : Nat) : Fld := ⟨0xE0100 + i * 0x80, 0, 1⟩
/-- ENR_CH_CFG.mode. -/
def ENR_CH_CFG_mode (i : Nat) : Fld := ⟨0xE0100 + i * 0x80, 1, 2⟩
/-- ENR_CH_CFG.kind. -/
def ENR_CH_CFG_kind (i : Nat) : Fld := ⟨0xE0100 + i * 0x80, 3, 1⟩
/-- ENR_CH_CFG.single_dir. -/
def ENR_CH_CFG_single_dir (i : Nat) : Fld := ⟨0xE0100 + i * 0x80, 4, 1⟩
/-- ENR_CH_CFG.pol_a. -/
def ENR_CH_CFG_pol_a (i : Nat) : Fld := ⟨0xE0100 + i * 0x80, 5, 1⟩
/-- ENR_CH_CFG.pol_b. -/
def ENR_CH_CFG_pol_b (i : Nat) : Fld := ⟨0xE0100 + i * 0x80, 6, 1⟩
/-- ENR_CH_CFG.dir_pol. -/
def ENR_CH_CFG_dir_pol (i : Nat) : Fld := ⟨0xE0100 + i * 0x80, 7, 1⟩
/-- ENR_CH_CFG.deb_ms. -/
def ENR_CH_CFG_deb_ms (i : Nat) : Fld := ⟨0xE0100 + i * 0x80, 8, 6⟩
/-- ENR_CH_GAIN_LO (R357). -/
def ENR_CH_GAIN_LO (i j : Nat) : Fld := ⟨0xE0108 + i * 0x80 + j * 0x8, 0, 32⟩
/-- ENR_CH_GAIN_HI (R357). -/
def ENR_CH_GAIN_HI (i j : Nat) : Fld := ⟨0xE010C + i * 0x80 + j * 0x8, 0, 32⟩
/-- ENR_CH_OFF (R359). -/
def ENR_CH_OFF (i j : Nat) : Fld := ⟨0xE0128 + i * 0x80 + j * 0x4, 0, 32⟩
/-- ENR_CH_STAT (R353). -/
def ENR_CH_STAT (i : Nat) : Fld := ⟨0xE0138 + i * 0x80, 0, 32⟩
/-- ENR_CH_STAT.level_a. -/
def ENR_CH_STAT_level_a (i : Nat) : Fld := ⟨0xE0138 + i * 0x80, 0, 1⟩
/-- ENR_CH_STAT.level_b. -/
def ENR_CH_STAT_level_b (i : Nat) : Fld := ⟨0xE0138 + i * 0x80, 1, 1⟩
/-- ENR_CH_STAT.rate_viol. -/
def ENR_CH_STAT_rate_viol (i : Nat) : Fld := ⟨0xE0138 + i * 0x80, 16, 16⟩
/-- ENR_CH_PULSES (R356). -/
def ENR_CH_PULSES (i : Nat) : Fld := ⟨0xE013C + i * 0x80, 0, 32⟩
/-- ENR_ACC_LO (R357). -/
def ENR_ACC_LO (i j : Nat) : Fld := ⟨0xE1000 + i * 0x20 + j * 0x8, 0, 32⟩
/-- ENR_ACC_HI (R357). -/
def ENR_ACC_HI (i j : Nat) : Fld := ⟨0xE1004 + i * 0x20 + j * 0x8, 0, 32⟩
/-- ENR_IVL_LO (R359). -/
def ENR_IVL_LO (i j : Nat) : Fld := ⟨0xE1200 + i * 0x20 + j * 0x8, 0, 32⟩
/-- ENR_IVL_HI (R359). -/
def ENR_IVL_HI (i j : Nat) : Fld := ⟨0xE1204 + i * 0x20 + j * 0x8, 0, 32⟩
/-- EVR_STAT (R369). -/
def EVR_STAT (i : Nat) : Fld := ⟨0xF0000 + i * 0x100, 0, 32⟩
/-- EVR_STAT.fill. -/
def EVR_STAT_fill (i : Nat) : Fld := ⟨0xF0000 + i * 0x100, 0, 14⟩
/-- EVR_STAT.full. -/
def EVR_STAT_full (i : Nat) : Fld := ⟨0xF0000 + i * 0x100, 14, 1⟩
/-- EVR_STAT.result. -/
def EVR_STAT_result (i : Nat) : Fld := ⟨0xF0000 + i * 0x100, 16, 4⟩
/-- EVR_HEAD (R378). -/
def EVR_HEAD (i : Nat) : Fld := ⟨0xF0004 + i * 0x100, 0, 32⟩
/-- EVR_DISCARD (R376). -/
def EVR_DISCARD (i : Nat) : Fld := ⟨0xF0008 + i * 0x100, 0, 32⟩
/-- EVR_GRID_CFG (R380). -/
def EVR_GRID_CFG : Fld := ⟨0xF000C, 0, 32⟩
/-- EVR_GRID_CFG.warn. -/
def EVR_GRID_CFG_warn : Fld := ⟨0xF000C, 0, 14⟩
/-- EVR_LEG_CFG (R380). -/
def EVR_LEG_CFG : Fld := ⟨0xF010C, 0, 32⟩
/-- EVR_LEG_CFG.warn. -/
def EVR_LEG_CFG_warn : Fld := ⟨0xF010C, 0, 14⟩
/-- EVR_CMD (R379). -/
def EVR_CMD (i : Nat) : Fld := ⟨0xF0010 + i * 0x100, 0, 32⟩
/-- EVR_CMD.cmd. -/
def EVR_CMD_cmd (i : Nat) : Fld := ⟨0xF0010 + i * 0x100, 0, 2⟩
/-- EVR_CMD.count. -/
def EVR_CMD_count (i : Nat) : Fld := ⟨0xF0010 + i * 0x100, 2, 14⟩
/-- EVR_CONFIRM (R379). -/
def EVR_CONFIRM (m i : Nat) : Fld := ⟨(m + 1) * 0x4000000 + 0xF0014 + i * 0x100, 0, 32⟩
/-- EVR_LEG_TORN (R375). -/
def EVR_LEG_TORN : Fld := ⟨0xF0118, 0, 32⟩
/-- EVR_LEG_REFUSED (R377). -/
def EVR_LEG_REFUSED : Fld := ⟨0xF011C, 0, 32⟩
/-- EVR_IDX (R378). -/
def EVR_IDX (m i : Nat) : Fld := ⟨(m + 1) * 0x4000000 + 0xF0020 + i * 0x100, 0, 32⟩
/-- EVR_IDX.index. -/
def EVR_IDX_index (m i : Nat) : Fld := ⟨(m + 1) * 0x4000000 + 0xF0020 + i * 0x100, 0, 14⟩
/-- EVR_RECNUM (R378). -/
def EVR_RECNUM (m i : Nat) : Fld := ⟨(m + 1) * 0x4000000 + 0xF0024 + i * 0x100, 0, 32⟩
/-- EVR_REC (R378). -/
def EVR_REC (m i j : Nat) : Fld := ⟨(m + 1) * 0x4000000 + 0xF0040 + i * 0x100 + j * 0x4, 0, 32⟩
/-- CMP_CFG (R395). -/
def CMP_CFG : Fld := ⟨0x100000, 0, 32⟩
/-- CMP_CFG.enable. -/
def CMP_CFG_enable : Fld := ⟨0x100000, 0, 1⟩
/-- CMP_CFG.state. -/
def CMP_CFG_state : Fld := ⟨0x100000, 1, 2⟩
/-- CMP_CFG.enable_pending. -/
def CMP_CFG_enable_pending : Fld := ⟨0x100000, 3, 1⟩
/-- CMP_CFG.queue. -/
def CMP_CFG_queue : Fld := ⟨0x100000, 4, 6⟩
/-- CMP_CFG.rec_en. -/
def CMP_CFG_rec_en : Fld := ⟨0x100000, 10, 1⟩
/-- CMP_STAT (R382). -/
def CMP_STAT : Fld := ⟨0x100004, 0, 32⟩
/-- CMP_STAT.pending. -/
def CMP_STAT_pending : Fld := ⟨0x100004, 0, 6⟩
/-- CMP_STAT.running. -/
def CMP_STAT_running : Fld := ⟨0x100004, 6, 1⟩
/-- CMP_STAT.cmd_refused. -/
def CMP_STAT_cmd_refused : Fld := ⟨0x100004, 7, 1⟩
/-- CMP_JOB (R382). -/
def CMP_JOB (m i : Nat) : Fld := ⟨(m + 1) * 0x4000000 + 0x100010 + i * 0x4, 0, 32⟩
/-- CMP_SUBMIT_STAT (R382). -/
def CMP_SUBMIT_STAT (m : Nat) : Fld := ⟨(m + 1) * 0x4000000 + 0x100030, 0, 32⟩
/-- CMP_SUBMIT_STAT.result. -/
def CMP_SUBMIT_STAT_result (m : Nat) : Fld := ⟨(m + 1) * 0x4000000 + 0x100030, 0, 4⟩
/-- CMP_SUBMIT_STAT.accepted. -/
def CMP_SUBMIT_STAT_accepted (m : Nat) : Fld := ⟨(m + 1) * 0x4000000 + 0x100030, 16, 16⟩
/-- CMP_CMD (R394). -/
def CMP_CMD : Fld := ⟨0x100034, 0, 32⟩
/-- CMP_CMD.cmd. -/
def CMP_CMD_cmd : Fld := ⟨0x100034, 0, 2⟩
/-- CMP_CMD.slot. -/
def CMP_CMD_slot : Fld := ⟨0x100034, 2, 2⟩
/-- CMP_CMD.tag. -/
def CMP_CMD_tag : Fld := ⟨0x100034, 16, 16⟩
/-- CMP_CTX (R389). -/
def CMP_CTX (i : Nat) : Fld := ⟨0x100040 + i * 0x4, 0, 32⟩
/-- CMP_CTX.suspended. -/
def CMP_CTX_suspended (i : Nat) : Fld := ⟨0x100040 + i * 0x4, 0, 1⟩
/-- CMP_CTX.master. -/
def CMP_CTX_master (i : Nat) : Fld := ⟨0x100040 + i * 0x4, 1, 5⟩
/-- CMP_CTX.tag. -/
def CMP_CTX_tag (i : Nat) : Fld := ⟨0x100040 + i * 0x4, 16, 16⟩
/-- CMP_ARCH_CFG (R396). -/
def CMP_ARCH_CFG : Fld := ⟨0x100080, 0, 32⟩
/-- CMP_ARCH_CFG.en. -/
def CMP_ARCH_CFG_en : Fld := ⟨0x100080, 0, 1⟩
/-- CMP_ARCH_CFG.level. -/
def CMP_ARCH_CFG_level : Fld := ⟨0x100080, 1, 3⟩
/-- CMP_ARCH_CFG.zlib. -/
def CMP_ARCH_CFG_zlib : Fld := ⟨0x100080, 4, 1⟩
/-- CMP_ARCH_CFG.shuffle. -/
def CMP_ARCH_CFG_shuffle : Fld := ⟨0x100080, 5, 1⟩
/-- CMP_ARCH_CFG.fixed. -/
def CMP_ARCH_CFG_fixed : Fld := ⟨0x100080, 6, 1⟩
/-- CMP_ARCH_WR (R398). -/
def CMP_ARCH_WR : Fld := ⟨0x100084, 0, 32⟩
/-- CMP_ARCH_RD (R398). -/
def CMP_ARCH_RD : Fld := ⟨0x100088, 0, 32⟩
/-- CMP_ARCH_SEQ (R397). -/
def CMP_ARCH_SEQ : Fld := ⟨0x10008C, 0, 32⟩
/-- CMP_ARCH_LOST (R398). -/
def CMP_ARCH_LOST : Fld := ⟨0x100090, 0, 32⟩
/-- CMP_JOBS_OK (R393). -/
def CMP_JOBS_OK : Fld := ⟨0x100094, 0, 32⟩
/-- CMP_JOBS_FAIL (R393). -/
def CMP_JOBS_FAIL : Fld := ⟨0x100098, 0, 32⟩
/-- QUE_POOL (R409). -/
def QUE_POOL : Fld := ⟨0x110000, 0, 32⟩
/-- QUE_POOL.mode. -/
def QUE_POOL_mode : Fld := ⟨0x110000, 0, 2⟩
/-- QUE_POOL.test. -/
def QUE_POOL_test : Fld := ⟨0x110000, 2, 1⟩
/-- QUE_TEST (R412). -/
def QUE_TEST : Fld := ⟨0x110004, 0, 32⟩
/-- QUE_TEST.queue. -/
def QUE_TEST_queue : Fld := ⟨0x110004, 0, 6⟩
/-- QUE_TEST.kind. -/
def QUE_TEST_kind : Fld := ⟨0x110004, 8, 2⟩
/-- QUE_NONEMPTY (R404). -/
def QUE_NONEMPTY (i : Nat) : Fld := ⟨0x110010 + i * 0x4, 0, 32⟩
/-- QUE_HIGH (R408). -/
def QUE_HIGH (i : Nat) : Fld := ⟨0x110018 + i * 0x4, 0, 32⟩
/-- QUE_FC (R408). -/
def QUE_FC : Fld := ⟨0x110020, 0, 32⟩
/-- QUE_FC.fc. -/
def QUE_FC_fc : Fld := ⟨0x110020, 0, 4⟩
/-- QUE_Q_CTRL (R400). -/
def QUE_Q_CTRL (i : Nat) : Fld := ⟨0x110100 + i * 0x20, 0, 32⟩
/-- QUE_Q_CTRL.enable. -/
def QUE_Q_CTRL_enable (i : Nat) : Fld := ⟨0x110100 + i * 0x20, 0, 1⟩
/-- QUE_Q_CTRL.state. -/
def QUE_Q_CTRL_state (i : Nat) : Fld := ⟨0x110100 + i * 0x20, 1, 2⟩
/-- QUE_Q_CTRL.enable_pending. -/
def QUE_Q_CTRL_enable_pending (i : Nat) : Fld := ⟨0x110100 + i * 0x20, 3, 1⟩
/-- QUE_Q_CTRL.flush. -/
def QUE_Q_CTRL_flush (i : Nat) : Fld := ⟨0x110100 + i * 0x20, 4, 1⟩
/-- QUE_Q_CTRL.irq_en. -/
def QUE_Q_CTRL_irq_en (i : Nat) : Fld := ⟨0x110100 + i * 0x20, 5, 1⟩
/-- QUE_Q_CTRL.wr_drop. -/
def QUE_Q_CTRL_wr_drop (i : Nat) : Fld := ⟨0x110100 + i * 0x20, 6, 1⟩
/-- QUE_Q_CTRL.result. -/
def QUE_Q_CTRL_result (i : Nat) : Fld := ⟨0x110100 + i * 0x20, 8, 4⟩
/-- QUE_Q_CFG (R400). -/
def QUE_Q_CFG (i : Nat) : Fld := ⟨0x110104 + i * 0x20, 0, 32⟩
/-- QUE_Q_CFG.log2_cap. -/
def QUE_Q_CFG_log2_cap (i : Nat) : Fld := ⟨0x110104 + i * 0x20, 0, 4⟩
/-- QUE_Q_CFG.base. -/
def QUE_Q_CFG_base (i : Nat) : Fld := ⟨0x110104 + i * 0x20, 8, 9⟩
/-- QUE_Q_CFG.stall_us. -/
def QUE_Q_CFG_stall_us (i : Nat) : Fld := ⟨0x110104 + i * 0x20, 24, 6⟩
/-- QUE_Q_WM (R408). -/
def QUE_Q_WM (i : Nat) : Fld := ⟨0x110108 + i * 0x20, 0, 32⟩
/-- QUE_Q_WM.high. -/
def QUE_Q_WM_high (i : Nat) : Fld := ⟨0x110108 + i * 0x20, 0, 14⟩
/-- QUE_Q_WM.fc_en. -/
def QUE_Q_WM_fc_en (i : Nat) : Fld := ⟨0x110108 + i * 0x20, 14, 1⟩
/-- QUE_Q_WM.low. -/
def QUE_Q_WM_low (i : Nat) : Fld := ⟨0x110108 + i * 0x20, 16, 14⟩
/-- QUE_Q_WM.fc_pin. -/
def QUE_Q_WM_fc_pin (i : Nat) : Fld := ⟨0x110108 + i * 0x20, 30, 2⟩
/-- QUE_Q_OCC (R408). -/
def QUE_Q_OCC (i : Nat) : Fld := ⟨0x11010C + i * 0x20, 0, 32⟩
/-- QUE_Q_OCC.occupancy. -/
def QUE_Q_OCC_occupancy (i : Nat) : Fld := ⟨0x11010C + i * 0x20, 0, 14⟩
/-- QUE_Q_OCC.wm_state. -/
def QUE_Q_OCC_wm_state (i : Nat) : Fld := ⟨0x11010C + i * 0x20, 15, 1⟩
/-- QUE_Q_OCC.hwm. -/
def QUE_Q_OCC_hwm (i : Nat) : Fld := ⟨0x11010C + i * 0x20, 16, 14⟩
/-- QUE_Q_OCC.clear_hwm. -/
def QUE_Q_OCC_clear_hwm (i : Nat) : Fld := ⟨0x11010C + i * 0x20, 31, 1⟩
/-- QUE_Q_LOST (R406). -/
def QUE_Q_LOST (i : Nat) : Fld := ⟨0x110110 + i * 0x20, 0, 32⟩
/-- QUE_Q_EMPTY (R405). -/
def QUE_Q_EMPTY (i : Nat) : Fld := ⟨0x110114 + i * 0x20, 0, 32⟩
/-- QUE_Q_REFUSED (R401). -/
def QUE_Q_REFUSED (i : Nat) : Fld := ⟨0x110118 + i * 0x20, 0, 32⟩
/-- QUE_Q_INTEG (R410). -/
def QUE_Q_INTEG (i : Nat) : Fld := ⟨0x11011C + i * 0x20, 0, 32⟩
/-- QUE_Q_INTEG.cecc. -/
def QUE_Q_INTEG_cecc (i : Nat) : Fld := ⟨0x11011C + i * 0x20, 0, 16⟩
/-- QUE_Q_INTEG.poison. -/
def QUE_Q_INTEG_poison (i : Nat) : Fld := ⟨0x11011C + i * 0x20, 16, 16⟩
/-- EVC_ROUTE (R432). -/
def EVC_ROUTE (i : Nat) : Fld := ⟨0x120000 + i * 0x4, 0, 32⟩
/-- EVC_ROUTE.ha_vec. -/
def EVC_ROUTE_ha_vec (i : Nat) : Fld := ⟨0x120000 + i * 0x4, 0, 5⟩
/-- EVC_ROUTE.ha_en. -/
def EVC_ROUTE_ha_en (i : Nat) : Fld := ⟨0x120000 + i * 0x4, 5, 1⟩
/-- EVC_ROUTE.hb_vec. -/
def EVC_ROUTE_hb_vec (i : Nat) : Fld := ⟨0x120000 + i * 0x4, 8, 5⟩
/-- EVC_ROUTE.hb_en. -/
def EVC_ROUTE_hb_en (i : Nat) : Fld := ⟨0x120000 + i * 0x4, 13, 1⟩
/-- EVC_ROUTE.mg_en. -/
def EVC_ROUTE_mg_en (i : Nat) : Fld := ⟨0x120000 + i * 0x4, 16, 1⟩
/-- EVC_ROUTE.le_en. -/
def EVC_ROUTE_le_en (i : Nat) : Fld := ⟨0x120000 + i * 0x4, 17, 1⟩
/-- EVC_PEND (R432). -/
def EVC_PEND (i j : Nat) : Fld := ⟨0x120200 + i * 0x10 + j * 0x4, 0, 32⟩
/-- EVC_MASK (R433). -/
def EVC_MASK (i j : Nat) : Fld := ⟨0x120240 + i * 0x10 + j * 0x4, 0, 32⟩
/-- EVC_DOORBELL (R436). -/
def EVC_DOORBELL : Fld := ⟨0x120300, 0, 32⟩
/-- EVC_DOORBELL_LAST (R436). -/
def EVC_DOORBELL_LAST : Fld := ⟨0x120304, 0, 32⟩
/-- EVC_DOORBELL_SRC (R436). -/
def EVC_DOORBELL_SRC : Fld := ⟨0x120308, 0, 32⟩
/-- EVC_DOORBELL_SRC.master. -/
def EVC_DOORBELL_SRC_master : Fld := ⟨0x120308, 0, 5⟩
/-- EVC_MSIX (R433). -/
def EVC_MSIX (m i j : Nat) : Fld := ⟨(m + 1) * 0x4000000 + 0x128000 + i * 0x10 + j * 0x4, 0, 32⟩
/-- EVC_PBA (R433). -/
def EVC_PBA (m i : Nat) : Fld := ⟨(m + 1) * 0x4000000 + 0x128800 + i * 0x4, 0, 32⟩
/-- DIO_DIN_FILT (R75). -/
def DIO_DIN_FILT : Fld := ⟨0x130100, 0, 32⟩
/-- DIO_DIN_FILT.filt_us. -/
def DIO_DIN_FILT_filt_us : Fld := ⟨0x130100, 0, 8⟩
/-- DIO_DIN_LEVEL (R75). -/
def DIO_DIN_LEVEL : Fld := ⟨0x130104, 0, 32⟩
/-- DIO_DIN_LEVEL.level. -/
def DIO_DIN_LEVEL_level : Fld := ⟨0x130104, 0, 16⟩
/-- DIO_DIN_LEVEL.unc. -/
def DIO_DIN_LEVEL_unc : Fld := ⟨0x130104, 16, 16⟩
/-- DIO_DIN_TIME_LO (R75). -/
def DIO_DIN_TIME_LO (i : Nat) : Fld := ⟨0x130140 + i * 0x8, 0, 32⟩
/-- DIO_DIN_TIME_HI (R75). -/
def DIO_DIN_TIME_HI (i : Nat) : Fld := ⟨0x130144 + i * 0x8, 0, 32⟩
/-- DIO_DOUT_CMD (R251). -/
def DIO_DOUT_CMD : Fld := ⟨0x130200, 0, 32⟩
/-- DIO_DOUT_CMD.dout. -/
def DIO_DOUT_CMD_dout : Fld := ⟨0x130200, 0, 16⟩
/-- DIO_DOUT_MON (R482). -/
def DIO_DOUT_MON : Fld := ⟨0x130204, 0, 32⟩
/-- DIO_DOUT_MON.dout. -/
def DIO_DOUT_MON_dout : Fld := ⟨0x130204, 0, 16⟩
/-- DIO_DOUT_FAULT (R482). -/
def DIO_DOUT_FAULT : Fld := ⟨0x130208, 0, 32⟩
/-- DIO_DOUT_FAULT.fault. -/
def DIO_DOUT_FAULT_fault : Fld := ⟨0x130208, 0, 16⟩
/-- DIO_FC_CFG (R408). -/
def DIO_FC_CFG : Fld := ⟨0x130300, 0, 32⟩
/-- DIO_FC_CFG.pol. -/
def DIO_FC_CFG_pol : Fld := ⟨0x130300, 0, 4⟩

end Sys2Proof.Machine
end

