-- ==== Sys2Proof/Config.lean ====
section
/-! DEFINITION. What an implementation fixes, and the free values: constants with no body, so nothing can be proved of
their values. -/
namespace Sys2Proof.Config

/-- The ordering variant (R1): true for the AQ-8192-E. -/
opaque variantE : Bool

/-- The maximum junction temperature of the variant, in °C (R1). -/
def thermMax : Nat := if variantE then 105 else 95

/-- A byte the manual leaves open, by the free-value counter. -/
opaque freeByte : Nat → BitVec 8
/-- A 32-bit word the manual leaves open, by the free-value counter. -/
opaque freeWord : Nat → BitVec 32
/-- The silicon revision (R415). -/
opaque siliconRevision : BitVec 8
/-- A number the manual leaves open, by the free-value counter. -/
opaque freeNat : Nat → Nat
/-- A byte of an engine's working memory (R167), by the free-value counter and its address: what a kernel leaves there is open. -/
opaque workByte : Nat → Nat → BitVec 8
/-- The cosine or sine of an infinite angle, of which the manual states none. -/
opaque trigOpen : BitVec 32 → BitVec 32
/-- atan2 of (0, 0) and of infinite operands, of which the manual states none. -/
opaque atan2Open : BitVec 32 → BitVec 32 → BitVec 32
/-- The logarithm of zero, of a negative value and of an infinity, of which the manual states none. -/
opaque lnOpen : BitVec 32 → BitVec 32
/-- Which data bit QUE_TEST flips (R412). -/
opaque flipBit : Nat → Fin 64
/-- The device default of a quire's capacity, by index (R34), of which the manual states none. -/
opaque quireDefault : Nat → Fin 4096
/-- The bits of the coded form of a block (R387): the level, fixed Huffman codes, the window before the block and its bytes. The
manual leaves the choice of matches and of dynamic codes to the encoder. -/
opaque codedBlock : Nat → Bool → List (BitVec 8) → List (BitVec 8) → List Bool

end Sys2Proof.Config
end

