-- ==== Sys2Proof/Machine/RegMap.lean ====
section
/-! DEFINITION. The register map of BAR0 (R5-R9, R417): one row per register of the manual's tables, with the
offset, the arrays it repeats over, the gate that a configuration write passes and its fields (place, access type,
reset value, and the values that are not reserved encodings). -/
namespace Sys2Proof.Machine

/-- The access types of R9. -/
inductive Acc where
  | rw | ro | w1c | w1s | wo | rs | rwb
  /-- Reserved bits that a later check looks at: held as written, and read as zero (R6). -/
  | rz
  deriving DecidableEq, Repr

/-- Which condition a write of a configuration register passes before it takes effect: named after the rule's block. -/
inductive Gate where
  | none
  | acq
  | acqCfg
  | acqCh2
  | acqCond3
  | acqMask
  | acqMeas
  | avsLim
  | colBlk
  | colCfg
  | colGrid
  | colReader
  | colStream
  | dmaChain
  | ethCfg
  | ethMac
  | fltGrp
  | fltPer
  | fltThr
  | incr
  | legal
  | lge
  | lgeGsub
  | lgePub
  | lgeTypes
  | queCfg
  | queWm
  | rxRing
  | schCfg
  | schInst
  | tto
  | txRing
  deriving DecidableEq, Repr

/-- One field of a register: its place, its access type, its reset value and the accepted encodings (none listed: all). -/
structure FieldRow where
  lo : Nat
  width : Nat
  acc : Acc
  reset : Nat
  ok : List (Nat × Nat) := []
  deriving DecidableEq, Repr

/-- One register, repeated over its arrays (count, stride); `perMaster` registers have a copy for each master. -/
structure RegRow where
  base : Nat
  dims : List (Nat × Nat)
  perMaster : Bool
  gate : Gate
  fields : List FieldRow
  deriving DecidableEq, Repr

/-- Registers of block GCTL, part 1. -/
def regsGctl0 : List RegRow := [
  -- GCTL_HDRM (R31)
  ⟨0x100, [], false, .none, [⟨0, 16, .ro, 0, []⟩, ⟨16, 3, .ro, 0, []⟩, ⟨29, 1, .w1c, 0, []⟩, ⟨31, 1, .ro, 0, []⟩]⟩,
  -- GCTL_AVS_CFG (R29)
  ⟨0x104, [], false, .none, [⟨0, 8, .rw, 0xa, [(1, 255)]⟩, ⟨8, 4, .rw, 4, []⟩, ⟨12, 4, .rw, 2, [(1, 15)]⟩, ⟨16, 4, .rw, 1, [(1, 15)]⟩, ⟨24, 1, .rw, 0, []⟩]⟩,
  -- GCTL_HDRM_RING (R28)
  ⟨0x110, [(8, 0x4)], false, .none, [⟨0, 16, .ro, 0, []⟩, ⟨16, 16, .ro, 0, []⟩]⟩,
  -- GCTL_QMON_SEL (R9)
  ⟨0x200, [], true, .none, [⟨0, 10, .rw, 0, []⟩, ⟨31, 1, .wo, 0, []⟩]⟩,
  -- GCTL_QMON_DATA (R9)
  ⟨0x204, [], true, .none, [⟨0, 12, .ro, 0, []⟩, ⟨12, 12, .ro, 0, []⟩, ⟨24, 8, .ro, 0, []⟩]⟩,
  -- GCTL_FAB_STAT (R16)
  ⟨0x208, [], false, .none, [⟨0, 1, .w1c, 0, []⟩, ⟨8, 8, .ro, 0xff, []⟩, ⟨16, 12, .ro, 0, []⟩]⟩,
  -- GCTL_XDROP (R25)
  ⟨0x20C, [], false, .none, [⟨0, 32, .ro, 0, []⟩]⟩
]

/-- Registers of block GCTL. -/
def regsGctl : List RegRow := regsGctl0

/-- Registers of block CKP, part 1. -/
def regsCkp0 : List RegRow := [
  -- CKP_CTRL (R439)
  ⟨0x10000, [], false, .none, [⟨0, 1, .wo, 0, []⟩]⟩,
  -- CKP_STAT (R439)
  ⟨0x10004, [], false, .none, [⟨0, 3, .ro, 0, []⟩, ⟨3, 1, .ro, 1, []⟩, ⟨4, 5, .ro, 0, []⟩, ⟨9, 2, .ro, 0, []⟩, ⟨11, 1, .w1c, 0, []⟩, ⟨12, 1, .ro, 0, []⟩, ⟨13, 1, .ro, 0, []⟩, ⟨16, 16, .ro, 0, []⟩]⟩,
  -- CKP_REF_PPB (R453)
  ⟨0x10008, [], false, .none, [⟨0, 32, .ro, 0, []⟩]⟩,
  -- CKP_DOM_CTRL (R445)
  ⟨0x10100, [(10, 0x10)], false, .none, [⟨0, 1, .rw, 1, []⟩, ⟨1, 2, .ro, 0, []⟩, ⟨3, 1, .ro, 0, []⟩, ⟨4, 1, .rw, 0, []⟩, ⟨5, 1, .rw, 1, []⟩, ⟨6, 1, .w1c, 0, []⟩, ⟨8, 4, .ro, 0xf, []⟩, ⟨12, 4, .rw, 1, [(1, 15)]⟩, ⟨16, 11, .ro, 0, []⟩]⟩,
  -- CKP_DOM_FREQ (R453)
  ⟨0x10104, [(12, 0x10)], false, .none, [⟨0, 24, .ro, 0, []⟩, ⟨31, 1, .ro, 0, []⟩]⟩,
  -- CKP_SS_CFG (R450)
  ⟨0x10200, [(4, 0x8)], false, .none, [⟨0, 4, .rw, 0, [(0, 10)]⟩, ⟨4, 2, .rw, 0, []⟩]⟩,
  -- CKP_SS_STAT (R450)
  ⟨0x10204, [(4, 0x8)], false, .none, [⟨0, 8, .ro, 0, []⟩, ⟨8, 4, .ro, 0, []⟩]⟩,
  -- CKP_CKO (R451)
  ⟨0x10300, [], false, .none, [⟨0, 1, .rw, 0, []⟩, ⟨1, 1, .rw, 1, []⟩, ⟨2, 1, .rw, 0, []⟩, ⟨8, 8, .rw, 0xa, [(1, 250)]⟩]⟩,
  -- CKP_PWR_STAT (R463)
  ⟨0x10800, [], false, .none, [⟨0, 4, .ro, 0, []⟩, ⟨4, 1, .ro, 0, []⟩, ⟨5, 1, .ro, 0, []⟩, ⟨8, 4, .w1c, 0, []⟩, ⟨16, 16, .ro, 0, []⟩]⟩,
  -- CKP_RST_CAUSE (R462)
  ⟨0x10804, [], false, .none, [⟨0, 4, .w1c, 0, []⟩]⟩,
  -- CKP_RESET (R462)
  ⟨0x10808, [], false, .none, [⟨0, 8, .wo, 0, []⟩]⟩,
  -- CKP_SHUTDOWN (R466)
  ⟨0x1080C, [], false, .none, [⟨0, 8, .wo, 0, []⟩]⟩
]

/-- Registers of block CKP, part 2. -/
def regsCkp1 : List RegRow := [
  -- CKP_SHUT_RESULT (R466)
  ⟨0x10810, [], false, .none, [⟨0, 4, .ro, 0xf, []⟩]⟩,
  -- CKP_AVS_LIM (R458)
  ⟨0x10820, [], false, .avsLim, [⟨0, 16, .rw, 0x28a, [(650, 900)]⟩, ⟨16, 16, .rw, 0x384, [(650, 900)]⟩]⟩,
  -- CKP_AVS_STAT (R458)
  ⟨0x10824, [], false, .none, [⟨0, 16, .ro, 0, []⟩, ⟨16, 1, .w1c, 0, []⟩]⟩,
  -- CKP_THERM (R460)
  ⟨0x10830, [], false, .none, [⟨0, 16, .ro, 0, []⟩, ⟨16, 1, .ro, 0, []⟩]⟩,
  -- CKP_THERM_CFG (R460)
  ⟨0x10834, [], false, .none, [⟨0, 8, .rw, 0, [(60, 120)]⟩]⟩
]

/-- Registers of block CKP. -/
def regsCkp : List RegRow := regsCkp0 ++ regsCkp1

/-- Registers of block BND, part 1. -/
def regsBnd0 : List RegRow := [
  -- BND_STAT (R42)
  ⟨0x20000, [], false, .none, [⟨0, 4, .ro, 0, []⟩, ⟨4, 2, .ro, 0, []⟩, ⟨6, 1, .ro, 0, []⟩, ⟨7, 1, .ro, 0, []⟩, ⟨8, 1, .w1c, 0, []⟩, ⟨9, 1, .w1c, 0, []⟩, ⟨10, 1, .w1c, 0, []⟩]⟩,
  -- BND_RESULT (R40)
  ⟨0x20004, [], false, .none, [⟨0, 8, .ro, 0xff, []⟩, ⟨8, 8, .ro, 0xff, []⟩, ⟨16, 8, .ro, 0xff, []⟩, ⟨24, 8, .ro, 0xff, []⟩]⟩,
  -- BND_CMD (R47)
  ⟨0x20008, [], false, .none, [⟨0, 4, .wo, 0, []⟩, ⟨4, 2, .wo, 0, []⟩, ⟨8, 8, .wo, 0, []⟩]⟩,
  -- BND_RCV_DATA (R44)
  ⟨0x2000C, [], false, .none, [⟨0, 32, .wo, 0, []⟩]⟩,
  -- BND_RCV_COUNT (R44)
  ⟨0x20010, [], false, .none, [⟨0, 32, .ro, 0, []⟩]⟩,
  -- BND_ACT_ID (R40)
  ⟨0x20014, [], false, .none, [⟨0, 32, .ro, 0, []⟩]⟩,
  -- BND_ACT_VER (R40)
  ⟨0x20018, [], false, .none, [⟨0, 32, .ro, 0, []⟩]⟩,
  -- BND_MINVER (R41)
  ⟨0x2001C, [], false, .none, [⟨0, 32, .ro, 0, []⟩]⟩,
  -- BND_ACT_HASH (R40)
  ⟨0x20020, [(8, 0x4)], false, .none, [⟨0, 32, .ro, 0, []⟩]⟩,
  -- BND_FOLIO_CNT (R38)
  ⟨0x20040, [], false, .none, [⟨0, 4, .ro, 0, []⟩, ⟨4, 4, .ro, 0, []⟩, ⟨8, 5, .ro, 0, []⟩, ⟨16, 4, .ro, 0, []⟩, ⟨20, 4, .ro, 0, []⟩, ⟨24, 6, .ro, 0x28, []⟩]⟩,
  -- BND_CAP0 (R38)
  ⟨0x20044, [], false, .none, [⟨0, 16, .ro, 0, []⟩, ⟨16, 16, .ro, 0, []⟩]⟩,
  -- BND_CAP1 (R38)
  ⟨0x20048, [], false, .none, [⟨0, 12, .ro, 0, []⟩, ⟨12, 9, .ro, 0, []⟩, ⟨21, 9, .ro, 0, []⟩, ⟨30, 1, .ro, 0, []⟩]⟩
]

/-- Registers of block BND, part 2. -/
def regsBnd1 : List RegRow := [
  -- BND_FOLIO_MAP (R37)
  ⟨0x20050, [(10, 0x4)], false, .none, [⟨0, 32, .ro, 0, []⟩]⟩,
  -- BND_PART (R39)
  ⟨0x20080, [(16, 0x4)], false, .none, [⟨0, 16, .ro, 0, []⟩, ⟨16, 16, .ro, 0, []⟩]⟩,
  -- BND_RWB_DROP (R46)
  ⟨0x200C0, [], false, .none, [⟨0, 32, .ro, 0, []⟩]⟩,
  -- BND_RWB_LAST (R46)
  ⟨0x200C4, [], false, .none, [⟨0, 21, .ro, 0, []⟩, ⟨24, 5, .ro, 0, []⟩]⟩,
  -- BND_REBIND_DROP (R50)
  ⟨0x200C8, [], false, .none, [⟨0, 32, .ro, 0, []⟩]⟩,
  -- NVM_KEY (R471)
  ⟨0x20100, [], false, .none, [⟨0, 32, .wo, 0, []⟩]⟩,
  -- NVM_CMD (R471)
  ⟨0x20104, [], false, .none, [⟨0, 4, .wo, 0, []⟩, ⟨4, 2, .wo, 0, []⟩, ⟨6, 1, .wo, 0, []⟩]⟩,
  -- NVM_SRC_LO (R471)
  ⟨0x20108, [], false, .none, [⟨0, 32, .rw, 0, []⟩]⟩,
  -- NVM_SRC_HI (R471)
  ⟨0x2010C, [], false, .none, [⟨0, 32, .rw, 0, []⟩]⟩,
  -- NVM_LEN (R471)
  ⟨0x20110, [], false, .none, [⟨0, 32, .rw, 0, []⟩]⟩,
  -- NVM_ARG_LO (R471)
  ⟨0x20114, [], false, .none, [⟨0, 32, .rw, 0, []⟩]⟩,
  -- NVM_ARG_HI (R471)
  ⟨0x20118, [], false, .none, [⟨0, 32, .rw, 0, []⟩]⟩
]

/-- Registers of block BND, part 3. -/
def regsBnd2 : List RegRow := [
  -- NVM_STAT (R472)
  ⟨0x2011C, [], false, .none, [⟨0, 1, .ro, 0, []⟩, ⟨1, 4, .ro, 0xf, []⟩, ⟨5, 5, .ro, 0, []⟩, ⟨16, 16, .ro, 0, []⟩]⟩,
  -- NVM_WEAR (R469)
  ⟨0x20120, [], false, .none, [⟨0, 6, .ro, 0, []⟩, ⟨6, 7, .ro, 0x40, []⟩]⟩
]

/-- Registers of block BND. -/
def regsBnd : List RegRow := regsBnd0 ++ regsBnd1 ++ regsBnd2

/-- Registers of block ACT, part 1. -/
def regsAct0 : List RegRow := [
  -- ACT_VIOL_CNT (R430)
  ⟨0x30000, [], false, .none, [⟨0, 32, .ro, 0, []⟩]⟩,
  -- ACT_VIOL_FIRST0 (R430)
  ⟨0x30004, [], false, .none, [⟨0, 5, .ro, 0, []⟩, ⟨5, 3, .ro, 0, []⟩, ⟨8, 7, .ro, 0, []⟩, ⟨31, 1, .w1c, 0, []⟩]⟩,
  -- ACT_VIOL_FIRST1 (R430)
  ⟨0x30008, [], false, .none, [⟨0, 32, .ro, 0, []⟩]⟩,
  -- ACT_VIOL_LAST0 (R430)
  ⟨0x3000C, [], false, .none, [⟨0, 5, .ro, 0, []⟩, ⟨5, 3, .ro, 0, []⟩, ⟨8, 7, .ro, 0, []⟩, ⟨31, 1, .ro, 0, []⟩]⟩,
  -- ACT_VIOL_LAST1 (R430)
  ⟨0x30010, [], false, .none, [⟨0, 32, .ro, 0, []⟩]⟩,
  -- ACT_AP (R418)
  ⟨0x30040, [(2, 0x4)], false, .none, [⟨0, 17, .rw, 0, []⟩]⟩,
  -- ACT_MG_STAT (R424)
  ⟨0x30080, [], false, .none, [⟨0, 16, .ro, 0, []⟩, ⟨16, 16, .ro, 0, []⟩]⟩,
  -- ACT_DMA_CTRL (R420)
  ⟨0x30100, [(16, 0x20)], false, .none, [⟨0, 1, .rw, 0, []⟩, ⟨1, 1, .ro, 0, []⟩, ⟨4, 5, .rw, 0, []⟩]⟩,
  -- ACT_DMA_CHAIN_LO (R420)
  ⟨0x30104, [(16, 0x20)], false, .dmaChain, [⟨5, 27, .rw, 0, []⟩]⟩,
  -- ACT_DMA_CHAIN_HI (R420)
  ⟨0x30108, [(16, 0x20)], false, .dmaChain, [⟨0, 32, .rw, 0, []⟩]⟩,
  -- ACT_DMA_STAT (R421)
  ⟨0x3010C, [(16, 0x20)], false, .none, [⟨0, 3, .ro, 0, []⟩, ⟨16, 16, .ro, 0, []⟩]⟩,
  -- ACT_TBL (R426)
  ⟨0x31000, [(1024, 0x4)], false, .none, [⟨0, 32, .rwb, 0, []⟩]⟩
]

/-- Registers of block ACT. -/
def regsAct : List RegRow := regsAct0

/-- Registers of block TBS, part 1. -/
def regsTbs0 : List RegRow := [
  -- TBS_CTRL (R55)
  ⟨0x40000, [], false, .none, [⟨0, 2, .wo, 0, []⟩, ⟨2, 2, .wo, 0, []⟩, ⟨8, 2, .rw, 0, [(0, 2)]⟩]⟩,
  -- TBS_STATE (R63)
  ⟨0x40004, [], false, .none, [⟨0, 2, .ro, 0, []⟩, ⟨2, 1, .ro, 0, []⟩, ⟨3, 1, .w1c, 0, []⟩, ⟨4, 1, .ro, 0, []⟩]⟩,
  -- TBS_TIME_FRAC (R54)
  ⟨0x40008, [], false, .none, [⟨0, 16, .ro, 0, []⟩]⟩,
  -- TBS_TIME_NS (R54)
  ⟨0x4000C, [], false, .none, [⟨0, 32, .ro, 0, []⟩]⟩,
  -- TBS_TIME_SEC_LO (R54)
  ⟨0x40010, [], false, .none, [⟨0, 32, .ro, 0, []⟩]⟩,
  -- TBS_TIME_SEC_HI (R54)
  ⟨0x40014, [], false, .none, [⟨0, 16, .ro, 0, []⟩]⟩,
  -- TBS_NOW_LO (R54)
  ⟨0x40018, [], false, .none, [⟨0, 32, .ro, 0, []⟩]⟩,
  -- TBS_NOW_HI (R54)
  ⟨0x4001C, [], false, .none, [⟨0, 32, .ro, 0, []⟩]⟩,
  -- TBS_SET_NS (R55)
  ⟨0x40020, [], false, .none, [⟨0, 32, .rw, 0, []⟩]⟩,
  -- TBS_SET_SEC_LO (R55)
  ⟨0x40024, [], false, .none, [⟨0, 32, .rw, 0, []⟩]⟩,
  -- TBS_SET_SEC_HI (R55)
  ⟨0x40028, [], false, .none, [⟨0, 16, .rw, 0, []⟩]⟩,
  -- TBS_ADJ (R55)
  ⟨0x4002C, [], false, .none, [⟨0, 32, .rw, 0, []⟩]⟩
]

/-- Registers of block TBS, part 2. -/
def regsTbs1 : List RegRow := [
  -- TBS_INCR_LO (R62)
  ⟨0x40030, [], false, .incr, [⟨0, 32, .rw, 0, []⟩]⟩,
  -- TBS_INCR_HI (R62)
  ⟨0x40034, [], false, .incr, [⟨0, 8, .rw, 4, []⟩]⟩,
  -- TBS_INCR_NOM_LO (R52)
  ⟨0x40038, [], false, .none, [⟨0, 32, .rw, 0, []⟩]⟩,
  -- TBS_INCR_NOM_HI (R52)
  ⟨0x4003C, [], false, .none, [⟨0, 8, .rw, 4, [(1, 255)]⟩]⟩,
  -- TBS_SERVO_CFG (R61)
  ⟨0x40040, [], false, .none, [⟨0, 16, .rw, 0xb3, []⟩, ⟨16, 16, .rw, 0x33, []⟩]⟩,
  -- TBS_SERVO_LIM (R61)
  ⟨0x40044, [], false, .none, [⟨0, 24, .rw, 0x186a0, [(1000, 16777215)]⟩, ⟨24, 8, .rw, 0xc8, [(1, 255)]⟩]⟩,
  -- TBS_SERVO_OFS (R61)
  ⟨0x40048, [], false, .none, [⟨0, 32, .ro, 0, []⟩]⟩,
  -- TBS_SERVO_FREQ (R61)
  ⟨0x4004C, [], false, .none, [⟨0, 32, .ro, 0, []⟩]⟩,
  -- TBS_LOCK_CFG (R63)
  ⟨0x40050, [], false, .none, [⟨0, 8, .rw, 4, [(1, 255)]⟩, ⟨8, 8, .rw, 3, [(1, 255)]⟩, ⟨16, 16, .rw, 0x3e8, [(1, 65535)]⟩]⟩,
  -- TBS_HOLD_CFG (R64)
  ⟨0x40054, [], false, .none, [⟨0, 16, .rw, 0x32, []⟩, ⟨16, 16, .rw, 0x3e8, []⟩]⟩,
  -- TBS_HOLD_EST (R64)
  ⟨0x40058, [], false, .none, [⟨0, 32, .ro, 0, []⟩]⟩,
  -- TBS_PTP_CFG (R58)
  ⟨0x40060, [], false, .none, [⟨0, 8, .rw, 0, []⟩, ⟨8, 4, .rw, 0, []⟩, ⟨12, 4, .rw, 0, [(0, 0), (12, 15)]⟩, ⟨16, 4, .rw, 3, [(2, 10)]⟩, ⟨20, 3, .rw, 3, []⟩, ⟨23, 1, .rw, 0, []⟩, ⟨24, 1, .rw, 0, []⟩]⟩
]

/-- Registers of block TBS, part 3. -/
def regsTbs2 : List RegRow := [
  -- TBS_PTP_MASTER (R59)
  ⟨0x40064, [], false, .none, [⟨0, 2, .ro, 0, []⟩, ⟨2, 1, .ro, 0, []⟩, ⟨8, 8, .ro, 0, []⟩, ⟨16, 16, .ro, 0, []⟩]⟩,
  -- TBS_PTP_MID_LO (R59)
  ⟨0x40068, [], false, .none, [⟨0, 32, .ro, 0, []⟩]⟩,
  -- TBS_PTP_MID_HI (R59)
  ⟨0x4006C, [], false, .none, [⟨0, 32, .ro, 0, []⟩]⟩,
  -- TBS_UTC (R66)
  ⟨0x40070, [], false, .none, [⟨0, 16, .rw, 0, []⟩, ⟨16, 2, .rw, 0, [(0, 2)]⟩, ⟨18, 1, .ro, 0, []⟩, ⟨19, 1, .ro, 0, []⟩, ⟨20, 1, .rw, 0, []⟩, ⟨21, 1, .ro, 0, []⟩]⟩,
  -- TBS_TQ (R65)
  ⟨0x40074, [], false, .none, [⟨0, 4, .ro, 0xf, []⟩, ⟨4, 2, .ro, 3, []⟩, ⟨6, 1, .ro, 1, []⟩, ⟨16, 16, .ro, 0xffff, []⟩]⟩,
  -- TBS_PTP_DROP (R57)
  ⟨0x40078, [], false, .none, [⟨0, 32, .ro, 0, []⟩]⟩,
  -- TBS_P_RXADJ (R68)
  ⟨0x40100, [(4, 0x20)], false, .none, [⟨0, 32, .rw, 0, []⟩]⟩,
  -- TBS_P_TXADJ (R68)
  ⟨0x40104, [(4, 0x20)], false, .none, [⟨0, 32, .rw, 0, []⟩]⟩,
  -- TBS_P_DELAY (R60)
  ⟨0x40108, [(4, 0x20)], false, .none, [⟨0, 32, .ro, 0, []⟩]⟩,
  -- TBS_P_TXQ_STAT (R71)
  ⟨0x4010C, [(4, 0x20)], false, .none, [⟨0, 5, .ro, 0, []⟩, ⟨8, 1, .w1c, 0, []⟩, ⟨9, 1, .rw, 0, []⟩, ⟨16, 16, .ro, 0, []⟩]⟩,
  -- TBS_P_TXQ_ID (R70)
  ⟨0x40110, [(4, 0x20)], false, .none, [⟨0, 32, .ro, 0, []⟩]⟩,
  -- TBS_P_TXQ_NS (R70)
  ⟨0x40114, [(4, 0x20)], true, .none, [⟨0, 32, .ro, 0, []⟩]⟩
]

/-- Registers of block TBS, part 4. -/
def regsTbs3 : List RegRow := [
  -- TBS_P_TXQ_SEC_LO (R70)
  ⟨0x40118, [(4, 0x20)], true, .none, [⟨0, 32, .ro, 0, []⟩]⟩,
  -- TBS_P_TXQ_SEC_HI (R70)
  ⟨0x4011C, [(4, 0x20)], true, .none, [⟨0, 16, .ro, 0, []⟩]⟩,
  -- TBS_TTO_CTRL (R72)
  ⟨0x40200, [(8, 0x20)], false, .none, [⟨0, 1, .rw, 0, []⟩, ⟨1, 1, .rw, 0, []⟩, ⟨2, 1, .rw, 1, []⟩]⟩,
  -- TBS_TTO_STAT (R74)
  ⟨0x40204, [(8, 0x20)], false, .none, [⟨0, 2, .ro, 0, []⟩, ⟨2, 1, .ro, 0, []⟩, ⟨3, 1, .w1c, 0, []⟩, ⟨4, 1, .w1c, 0, []⟩, ⟨16, 16, .ro, 0, []⟩]⟩,
  -- TBS_TTO_START_LO (R72)
  ⟨0x40208, [(8, 0x20)], false, .tto, [⟨0, 32, .rw, 0, []⟩]⟩,
  -- TBS_TTO_START_HI (R72)
  ⟨0x4020C, [(8, 0x20)], false, .tto, [⟨0, 32, .rw, 0, []⟩]⟩,
  -- TBS_TTO_PERIOD (R72)
  ⟨0x40210, [(8, 0x20)], false, .tto, [⟨0, 32, .rw, 0, [(0, 0), (100, 4294967295)]⟩]⟩,
  -- TBS_TTO_WIDTH (R72)
  ⟨0x40214, [(8, 0x20)], false, .tto, [⟨0, 32, .rw, 0, []⟩]⟩
]

/-- Registers of block TBS. -/
def regsTbs : List RegRow := regsTbs0 ++ regsTbs1 ++ regsTbs2 ++ regsTbs3

/-- Registers of block ETH, part 1. -/
def regsEth0 : List RegRow := [
  -- ETH_CFG (R332)
  ⟨0x50000, [(4, 0x4000)], false, .ethCfg, [⟨0, 1, .rw, 0, []⟩, ⟨1, 2, .ro, 0, []⟩, ⟨3, 1, .ro, 0, []⟩, ⟨4, 2, .rw, 0, [(0, 2)]⟩, ⟨6, 1, .rw, 0, []⟩, ⟨7, 1, .rw, 1, []⟩, ⟨8, 1, .rw, 0, []⟩, ⟨9, 1, .w1c, 0, []⟩, ⟨12, 4, .ro, 0xf, []⟩, ⟨16, 14, .rw, 0x5f2, []⟩]⟩,
  -- ETH_STAT (R342)
  ⟨0x50004, [(4, 0x4000)], false, .none, [⟨0, 1, .ro, 0, []⟩, ⟨1, 1, .ro, 0, []⟩, ⟨16, 16, .ro, 0, []⟩]⟩,
  -- ETH_MAC_LO (R332)
  ⟨0x50008, [(4, 0x4000)], false, .ethMac, [⟨0, 32, .rw, 0, []⟩]⟩,
  -- ETH_MAC_HI (R332)
  ⟨0x5000C, [(4, 0x4000)], false, .ethMac, [⟨0, 16, .rw, 0, []⟩]⟩,
  -- ETH_VLAN_RX (R335)
  ⟨0x50010, [(4, 0x4000)], false, .none, [⟨0, 1, .rw, 0, []⟩, ⟨1, 1, .rw, 1, []⟩, ⟨2, 1, .rw, 1, []⟩]⟩,
  -- ETH_RXROUTE (R337)
  ⟨0x50014, [(4, 0x4000)], false, .none, [⟨0, 1, .rw, 1, []⟩, ⟨1, 1, .rw, 0, []⟩]⟩,
  -- ETH_MM (R340)
  ⟨0x50018, [(4, 0x4000)], false, .none, [⟨0, 1, .rw, 0, []⟩, ⟨1, 1, .rw, 0, []⟩, ⟨2, 2, .rw, 0, []⟩, ⟨4, 8, .rw, 0xa, [(1, 128)]⟩]⟩,
  -- ETH_MM_STAT (R340)
  ⟨0x5001C, [(4, 0x4000)], false, .none, [⟨0, 3, .ro, 0, []⟩, ⟨3, 1, .ro, 0, []⟩]⟩,
  -- ETH_TXCFG (R350)
  ⟨0x50020, [(4, 0x4000)], false, .none, [⟨0, 6, .rw, 4, [(1, 36)]⟩]⟩,
  -- ETH_EVT (R352)
  ⟨0x50024, [(4, 0x4000)], false, .none, [⟨0, 6, .w1c, 0, []⟩]⟩,
  -- ETH_VID (R335)
  ⟨0x50040, [(4, 0x4000), (8, 0x4)], false, .none, [⟨0, 12, .rw, 0, []⟩, ⟨12, 1, .rw, 0, []⟩]⟩,
  -- ETH_VLAN_TX (R338)
  ⟨0x50080, [(4, 0x4000), (4, 0x4)], false, .none, [⟨0, 12, .rw, 0, []⟩, ⟨12, 3, .rw, 0, []⟩, ⟨15, 1, .rw, 0, []⟩]⟩
]

/-- Registers of block ETH, part 2. -/
def regsEth1 : List RegRow := [
  -- ETH_CNT (R351)
  ⟨0x50200, [(4, 0x4000), (22, 0x4)], false, .none, [⟨0, 32, .ro, 0, []⟩]⟩,
  -- ETH_RXR_CTRL (R347)
  ⟨0x51000, [(4, 0x4000), (2, 0x40)], false, .rxRing, [⟨0, 1, .rw, 0, []⟩, ⟨1, 1, .ro, 0, []⟩, ⟨4, 4, .rw, 0, []⟩, ⟨8, 1, .rw, 0, []⟩]⟩,
  -- ETH_RXR_DATA_LO (R343)
  ⟨0x51004, [(4, 0x4000), (2, 0x40)], false, .rxRing, [⟨12, 20, .rw, 0, []⟩]⟩,
  -- ETH_RXR_DATA_HI (R343)
  ⟨0x51008, [(4, 0x4000), (2, 0x40)], false, .rxRing, [⟨0, 32, .rw, 0, []⟩]⟩,
  -- ETH_RXR_CMPL_LO (R343)
  ⟨0x5100C, [(4, 0x4000), (2, 0x40)], false, .rxRing, [⟨6, 26, .rw, 0, []⟩]⟩,
  -- ETH_RXR_CMPL_HI (R343)
  ⟨0x51010, [(4, 0x4000), (2, 0x40)], false, .rxRing, [⟨0, 32, .rw, 0, []⟩]⟩,
  -- ETH_RXR_TAKE (R344)
  ⟨0x51014, [(4, 0x4000), (2, 0x40)], false, .none, [⟨0, 32, .ro, 0, []⟩]⟩,
  -- ETH_RXR_DONE (R344)
  ⟨0x51018, [(4, 0x4000), (2, 0x40)], false, .none, [⟨0, 32, .wo, 0, []⟩]⟩,
  -- ETH_RXR_TAIL (R344)
  ⟨0x5101C, [(4, 0x4000), (2, 0x40)], false, .none, [⟨0, 16, .ro, 0, []⟩, ⟨16, 16, .ro, 0, []⟩]⟩,
  -- ETH_RXR_NOBUF (R345)
  ⟨0x51020, [(4, 0x4000), (2, 0x40)], false, .none, [⟨0, 32, .ro, 0, []⟩]⟩,
  -- ETH_RXR_LOST (R345)
  ⟨0x51024, [(4, 0x4000), (2, 0x40)], false, .none, [⟨0, 32, .ro, 0, []⟩]⟩,
  -- ETH_TXR_CTRL (R348)
  ⟨0x51100, [(4, 0x4000), (2, 0x40)], false, .txRing, [⟨0, 1, .rw, 0, []⟩, ⟨1, 1, .ro, 0, []⟩, ⟨4, 4, .rw, 0, []⟩]⟩
]

/-- Registers of block ETH, part 3. -/
def regsEth2 : List RegRow := [
  -- ETH_TXR_BASE_LO (R348)
  ⟨0x51104, [(4, 0x4000), (2, 0x40)], false, .txRing, [⟨6, 26, .rw, 0, []⟩]⟩,
  -- ETH_TXR_BASE_HI (R348)
  ⟨0x51108, [(4, 0x4000), (2, 0x40)], false, .txRing, [⟨0, 32, .rw, 0, []⟩]⟩,
  -- ETH_TXR_TAIL (R348)
  ⟨0x5110C, [(4, 0x4000), (2, 0x40)], false, .none, [⟨0, 16, .rw, 0, []⟩]⟩,
  -- ETH_TXR_HEAD (R348)
  ⟨0x51110, [(4, 0x4000), (2, 0x40)], false, .none, [⟨0, 16, .ro, 0, []⟩]⟩
]

/-- Registers of block ETH. -/
def regsEth : List RegRow := regsEth0 ++ regsEth1 ++ regsEth2

/-- Registers of block STR, part 1. -/
def regsStr0 : List RegRow := [
  -- STR_CFG (R86)
  ⟨0x60000, [], false, .none, [⟨0, 1, .rw, 0, []⟩]⟩,
  -- STR_UDP_PORT (R85)
  ⟨0x60010, [(4, 0x4)], false, .none, [⟨0, 16, .rw, 0, []⟩, ⟨16, 1, .rw, 0, []⟩]⟩,
  -- STR_CMD (R495)
  ⟨0x60020, [], false, .none, [⟨0, 4, .wo, 0, []⟩, ⟨4, 13, .wo, 0, []⟩]⟩,
  -- STR_CMD_ARG (R91)
  ⟨0x60024, [], false, .none, [⟨0, 32, .rw, 0, []⟩]⟩,
  -- STR_CMD_STAT (R495)
  ⟨0x60028, [], false, .none, [⟨0, 1, .ro, 0, []⟩, ⟨8, 8, .ro, 0xff, []⟩, ⟨16, 13, .ro, 0, []⟩]⟩,
  -- STR_BOOT (R83)
  ⟨0x6002C, [], false, .none, [⟨0, 14, .ro, 0, []⟩, ⟨16, 13, .ro, 0, []⟩, ⟨29, 3, .ro, 0, []⟩]⟩,
  -- STR_UNMATCHED (R86)
  ⟨0x60030, [], false, .none, [⟨0, 32, .ro, 0, []⟩]⟩,
  -- STR_ANON_ERR (R86)
  ⟨0x60034, [], false, .none, [⟨0, 32, .ro, 0, []⟩]⟩,
  -- STR_STATE_CNT (R96)
  ⟨0x60040, [(3, 0x4)], false, .none, [⟨0, 16, .ro, 0, []⟩, ⟨16, 16, .ro, 0, []⟩]⟩,
  -- STR_SRC_SEL (R101)
  ⟨0x60100, [], true, .none, [⟨0, 13, .rw, 0, []⟩]⟩,
  -- STR_SRC_STAT (R101)
  ⟨0x60104, [], true, .none, [⟨0, 3, .ro, 0, []⟩, ⟨4, 8, .ro, 0, []⟩, ⟨12, 4, .ro, 0, []⟩, ⟨16, 8, .ro, 0, []⟩]⟩,
  -- STR_SRC_CNT (R101)
  ⟨0x60110, [(12, 0x4)], true, .none, [⟨0, 32, .ro, 0, []⟩]⟩
]

/-- Registers of block STR, part 2. -/
def regsStr1 : List RegRow := [
  -- STR_SRC_TS_LO (R101)
  ⟨0x60140, [], true, .none, [⟨0, 32, .ro, 0, []⟩]⟩,
  -- STR_SRC_TS_HI (R101)
  ⟨0x60144, [], true, .none, [⟨0, 32, .ro, 0, []⟩]⟩,
  -- STR_SRC_ARR_LO (R101)
  ⟨0x60148, [], true, .none, [⟨0, 32, .ro, 0, []⟩]⟩,
  -- STR_SRC_ARR_HI (R101)
  ⟨0x6014C, [], true, .none, [⟨0, 32, .ro, 0, []⟩]⟩,
  -- STR_ALERT_MAP (R102)
  ⟨0x61000, [(256, 0x4)], false, .none, [⟨0, 32, .ro, 0, []⟩]⟩,
  -- STR_SCALE (R84)
  ⟨0x68000, [(4096, 0x8)], false, .none, [⟨0, 32, .rw, 0, []⟩]⟩,
  -- STR_SCALE_ANGLE (R84)
  ⟨0x68004, [(4096, 0x8)], false, .none, [⟨0, 32, .rw, 0, []⟩]⟩
]

/-- Registers of block STR. -/
def regsStr : List RegRow := regsStr0 ++ regsStr1

/-- Registers of block COL, part 1. -/
def regsCol0 : List RegRow := [
  -- COL_CFG (R106)
  ⟨0x70000, [], false, .colCfg, [⟨0, 17, .rw, 0x3e8, [(100, 100000)]⟩, ⟨17, 7, .rw, 5, [(1, 100)]⟩]⟩,
  -- COL_REC_CFG (R119)
  ⟨0x70004, [], false, .none, [⟨0, 6, .rw, 0, []⟩, ⟨8, 1, .rw, 0, []⟩, ⟨9, 1, .rw, 0, []⟩]⟩,
  -- COL_PART (R131)
  ⟨0x70008, [], false, .none, [⟨0, 16, .ro, 0, []⟩, ⟨16, 16, .ro, 0, []⟩]⟩,
  -- COL_UNUSED (R108)
  ⟨0x70010, [], false, .none, [⟨0, 32, .ro, 0, []⟩]⟩,
  -- COL_AMENDS (R119)
  ⟨0x70014, [], false, .none, [⟨0, 32, .ro, 0, []⟩]⟩,
  -- COL_CONFIRMS (R121)
  ⟨0x70018, [], false, .none, [⟨0, 32, .ro, 0, []⟩]⟩,
  -- COL_FORCED (R124)
  ⟨0x7001C, [], false, .none, [⟨0, 32, .ro, 0, []⟩]⟩,
  -- COL_STEP_GAP (R125)
  ⟨0x70020, [], false, .none, [⟨0, 32, .ro, 0, []⟩]⟩,
  -- COL_ARCH_SKIP (R124)
  ⟨0x70024, [], false, .none, [⟨0, 32, .ro, 0, []⟩]⟩,
  -- COL_GRID_CTRL (R127)
  ⟨0x70100, [(8, 0x20)], false, .colGrid, [⟨0, 1, .rw, 0, []⟩, ⟨1, 2, .ro, 0, []⟩, ⟨3, 1, .ro, 0, []⟩, ⟨4, 4, .ro, 0xf, []⟩, ⟨8, 1, .w1c, 0, []⟩, ⟨9, 1, .rw, 0, []⟩, ⟨16, 8, .rw, 0x32, []⟩]⟩,
  -- COL_GRID_TIME (R117)
  ⟨0x70104, [(8, 0x20)], false, .colGrid, [⟨0, 11, .rw, 0x64, []⟩, ⟨11, 13, .rw, 0x1f4, []⟩, ⟨24, 8, .rw, 0xa, []⟩]⟩,
  -- COL_GRID_SRC (R103)
  ⟨0x70108, [(8, 0x20)], false, .colGrid, [⟨0, 13, .rw, 0, []⟩, ⟨16, 14, .rw, 0, []⟩]⟩
]

/-- Registers of block COL, part 2. -/
def regsCol1 : List RegRow := [
  -- COL_GRID_SLOT (R129)
  ⟨0x7010C, [(8, 0x20)], false, .colGrid, [⟨0, 20, .rw, 0, []⟩]⟩,
  -- COL_GRID_SLOTN (R129)
  ⟨0x70110, [(8, 0x20)], false, .colGrid, [⟨0, 21, .rw, 0, []⟩]⟩,
  -- COL_GRID_BASE (R131)
  ⟨0x70114, [(8, 0x20)], false, .colGrid, [⟨0, 16, .rw, 0, []⟩, ⟨16, 16, .ro, 0, []⟩]⟩,
  -- COL_GRID_HELD (R131)
  ⟨0x70118, [(8, 0x20)], false, .none, [⟨0, 16, .ro, 0, []⟩]⟩,
  -- COL_GRID_GSIZE (R129)
  ⟨0x7011C, [(8, 0x20)], false, .none, [⟨0, 32, .ro, 0, []⟩]⟩,
  -- COL_RD_CTRL (R127)
  ⟨0x71000, [(64, 0x20)], false, .colReader, [⟨0, 1, .rw, 0, []⟩, ⟨1, 2, .ro, 0, []⟩, ⟨3, 1, .ro, 0, []⟩, ⟨4, 4, .ro, 0xf, []⟩, ⟨8, 1, .w1c, 0, []⟩, ⟨9, 3, .rw, 0, []⟩, ⟨12, 1, .rw, 0, []⟩, ⟨13, 1, .rw, 0, []⟩]⟩,
  -- COL_RD_WAIT (R114)
  ⟨0x71004, [(64, 0x20)], false, .colReader, [⟨0, 21, .rw, 0x7530, []⟩]⟩,
  -- COL_RD_QUORUM (R115)
  ⟨0x71008, [(64, 0x20)], false, .colReader, [⟨0, 7, .rw, 0x50, []⟩, ⟨8, 21, .rw, 0x1388, []⟩]⟩,
  -- COL_RD_SKIP (R124)
  ⟨0x7100C, [(64, 0x20)], false, .none, [⟨0, 32, .ro, 0, []⟩]⟩,
  -- COL_RD_LAST_LO (R113)
  ⟨0x71010, [(64, 0x20)], false, .none, [⟨0, 32, .ro, 0, []⟩]⟩,
  -- COL_RD_LAST_HI (R113)
  ⟨0x71014, [(64, 0x20)], false, .none, [⟨0, 32, .ro, 0, []⟩]⟩,
  -- COL_RD_PROV (R116)
  ⟨0x71018, [(64, 0x20)], false, .none, [⟨0, 32, .ro, 0, []⟩]⟩
]

/-- Registers of block COL, part 3. -/
def regsCol2 : List RegRow := [
  -- COL_RD_WAITC (R114)
  ⟨0x7101C, [(64, 0x20)], false, .none, [⟨0, 32, .ro, 0, []⟩]⟩,
  -- COL_OS_CFG (R133)
  ⟨0x72000, [(32, 0x40)], false, .colStream, [⟨0, 2, .rw, 0, []⟩, ⟨2, 1, .rw, 0, []⟩, ⟨3, 1, .rw, 0, []⟩, ⟨4, 6, .rw, 0, []⟩, ⟨16, 16, .rw, 0, []⟩]⟩,
  -- COL_OS_BLK (R134)
  ⟨0x72004, [(32, 0x40)], false, .colStream, [⟨0, 11, .rw, 0, []⟩, ⟨16, 12, .rw, 0, []⟩]⟩,
  -- COL_OS_UDP (R137)
  ⟨0x72008, [(32, 0x40)], false, .colStream, [⟨0, 16, .rw, 0, []⟩, ⟨16, 16, .rw, 0, []⟩]⟩,
  -- COL_OS_SIP (R137)
  ⟨0x7200C, [(32, 0x40)], false, .colStream, [⟨0, 32, .rw, 0, []⟩]⟩,
  -- COL_OS_DIP (R137)
  ⟨0x72010, [(32, 0x40)], false, .colStream, [⟨0, 32, .rw, 0, []⟩]⟩,
  -- COL_OS_DMAC_LO (R137)
  ⟨0x72014, [(32, 0x40)], false, .colStream, [⟨0, 32, .rw, 0, []⟩]⟩,
  -- COL_OS_DMAC_HI (R137)
  ⟨0x72018, [(32, 0x40)], false, .colStream, [⟨0, 16, .rw, 0, []⟩]⟩,
  -- COL_OS_TBASE (R133)
  ⟨0x7201C, [(32, 0x40)], false, .colStream, [⟨0, 24, .rw, 0xf4240, []⟩]⟩,
  -- COL_OS_SIZE (R137)
  ⟨0x72020, [(32, 0x40)], false, .none, [⟨0, 16, .ro, 0, []⟩]⟩,
  -- COL_OS_SENT (R132)
  ⟨0x72024, [(32, 0x40)], false, .none, [⟨0, 32, .ro, 0, []⟩]⟩,
  -- COL_OS_NOT_SENT (R132)
  ⟨0x72028, [(32, 0x40)], false, .none, [⟨0, 32, .ro, 0, []⟩]⟩
]

/-- Registers of block COL, part 4. -/
def regsCol3 : List RegRow := [
  -- COL_OS_LATE (R138)
  ⟨0x7202C, [(32, 0x40)], false, .none, [⟨0, 32, .ro, 0, []⟩]⟩,
  -- COL_BLK0 (R134)
  ⟨0x78000, [(2048, 0x10)], false, .colBlk, [⟨0, 13, .rw, 0, []⟩, ⟨16, 4, .rw, 0, []⟩]⟩,
  -- COL_BLK1 (R134)
  ⟨0x78004, [(2048, 0x10)], false, .none, []⟩,
  -- COL_BLK_QPH (R135)
  ⟨0x78008, [(2048, 0x10)], false, .none, [⟨0, 32, .rw, 0, []⟩]⟩,
  -- COL_BLK_QAN (R135)
  ⟨0x7800C, [(2048, 0x10)], false, .none, [⟨0, 32, .rw, 0, []⟩]⟩
]

/-- Registers of block COL. -/
def regsCol : List RegRow := regsCol0 ++ regsCol1 ++ regsCol2 ++ regsCol3

/-- Registers of block FLT, part 1. -/
def regsFlt0 : List RegRow := [
  -- FLT_GRP_CTRL (R159)
  ⟨0x80000, [(32, 0x40)], false, .fltGrp, [⟨0, 1, .rw, 0, []⟩, ⟨1, 2, .ro, 0, []⟩, ⟨3, 1, .ro, 0, []⟩, ⟨4, 1, .rw, 0, []⟩, ⟨5, 1, .rw, 0, []⟩, ⟨6, 1, .rw, 0, []⟩, ⟨7, 1, .rw, 0, []⟩, ⟨8, 1, .w1c, 0, []⟩, ⟨12, 4, .ro, 0xf, []⟩]⟩,
  -- FLT_GRP_SWAP (R153)
  ⟨0x80004, [(32, 0x40)], false, .none, [⟨0, 2, .wo, 0, []⟩, ⟨2, 1, .wo, 0, []⟩, ⟨16, 13, .wo, 0, []⟩]⟩,
  -- FLT_GRP_SWAPST (R153)
  ⟨0x80008, [(32, 0x40)], false, .none, [⟨0, 1, .ro, 0, []⟩, ⟨1, 1, .ro, 0, []⟩, ⟨2, 1, .ro, 0, []⟩, ⟨16, 13, .ro, 0, []⟩]⟩,
  -- FLT_GRP_SHAPE (R147)
  ⟨0x8000C, [(32, 0x40)], false, .none, [⟨0, 18, .ro, 0, []⟩, ⟨18, 14, .ro, 0, []⟩]⟩,
  -- FLT_GRP_GDNS (R147)
  ⟨0x80010, [(32, 0x40)], false, .none, [⟨0, 32, .ro, 0, []⟩]⟩,
  -- FLT_GRP_LATNS (R164)
  ⟨0x80014, [(32, 0x40)], false, .none, [⟨0, 32, .ro, 0, []⟩]⟩,
  -- FLT_GRP_SSB_THR (R162)
  ⟨0x80018, [(32, 0x40)], false, .fltThr, [⟨0, 32, .rw, 0x3dcccccd, []⟩]⟩,
  -- FLT_GRP_SSB_PER (R162)
  ⟨0x8001C, [(32, 0x40)], false, .fltPer, [⟨0, 8, .rw, 3, [(1, 255)]⟩]⟩,
  -- FLT_GRP_RESETS (R156)
  ⟨0x80020, [(32, 0x40)], false, .none, [⟨0, 32, .ro, 0, []⟩]⟩,
  -- FLT_GRP_SAT (R142)
  ⟨0x80024, [(32, 0x40)], false, .none, [⟨0, 32, .ro, 0, []⟩]⟩,
  -- FLT_GRP_INTERP (R157)
  ⟨0x80028, [(32, 0x40)], false, .none, [⟨0, 32, .ro, 0, []⟩]⟩,
  -- FLT_GRP_OUT (R149)
  ⟨0x8002C, [(32, 0x40)], false, .none, [⟨0, 32, .ro, 0, []⟩]⟩
]

/-- Registers of block FLT, part 2. -/
def regsFlt1 : List RegRow := [
  -- FLT_FAST_VS (R160)
  ⟨0x80800, [(32, 0x10)], false, .none, [⟨0, 32, .ro, 0, []⟩]⟩,
  -- FLT_FAST_FF (R160)
  ⟨0x80804, [(32, 0x10)], false, .none, [⟨0, 32, .ro, 0, []⟩]⟩,
  -- FLT_FAST_RF (R160)
  ⟨0x80808, [(32, 0x10)], false, .none, [⟨0, 32, .ro, 0, []⟩]⟩,
  -- FLT_FAST_STAT (R160)
  ⟨0x8080C, [(32, 0x10)], false, .none, [⟨0, 3, .ro, 0, []⟩]⟩,
  -- FLT_CH_PEAK (R161)
  ⟨0x81000, [(256, 0x10)], false, .none, [⟨0, 32, .ro, 0, []⟩]⟩,
  -- FLT_CH_RMS (R161)
  ⟨0x81004, [(256, 0x10)], false, .none, [⟨0, 32, .ro, 0, []⟩]⟩,
  -- FLT_CH_SSB (R162)
  ⟨0x81008, [(256, 0x10)], false, .none, [⟨0, 32, .ro, 0, []⟩]⟩,
  -- FLT_CH_STAT (R162)
  ⟨0x8100C, [(256, 0x10)], false, .none, [⟨0, 1, .ro, 0, []⟩, ⟨1, 1, .ro, 0, []⟩, ⟨2, 1, .ro, 0, []⟩, ⟨3, 1, .ro, 0, []⟩, ⟨4, 1, .ro, 0, []⟩, ⟨8, 8, .ro, 0, []⟩]⟩
]

/-- Registers of block FLT. -/
def regsFlt : List RegRow := regsFlt0 ++ regsFlt1

/-- Registers of block ACQ, part 1. -/
def regsAcq0 : List RegRow := [
  -- ACQ_CFG (R313)
  ⟨0x90000, [], false, .acqCfg, [⟨0, 1, .rw, 0, []⟩, ⟨1, 1, .rw, 0, []⟩, ⟨2, 1, .rw, 0, []⟩, ⟨3, 1, .rw, 0, []⟩, ⟨4, 6, .rw, 0, []⟩, ⟨16, 7, .rw, 0x10, [(1, 64)]⟩]⟩,
  -- ACQ_TIME (R317)
  ⟨0x90004, [], false, .acq, [⟨0, 16, .rw, 0x1f4, []⟩, ⟨16, 2, .rw, 1, []⟩, ⟨20, 12, .rw, 0xa, [(1, 4095)]⟩]⟩,
  -- ACQ_POST (R320)
  ⟨0x90008, [], false, .acq, [⟨0, 22, .rw, 0x7d0, []⟩, ⟨24, 8, .rw, 0xa, [(1, 255)]⟩]⟩,
  -- ACQ_STATUS (R313)
  ⟨0x9000C, [], false, .none, [⟨0, 3, .ro, 0, []⟩, ⟨3, 1, .ro, 0, []⟩, ⟨4, 4, .ro, 0xf, []⟩, ⟨8, 6, .ro, 0, []⟩, ⟨14, 1, .ro, 0, []⟩, ⟨15, 1, .w1c, 0, []⟩, ⟨16, 1, .w1c, 0, []⟩, ⟨17, 7, .ro, 0, []⟩]⟩,
  -- ACQ_CMD (R313)
  ⟨0x90010, [], false, .none, [⟨0, 4, .wo, 0, []⟩, ⟨4, 6, .wo, 0, []⟩]⟩,
  -- ACQ_SEGSZ (R311)
  ⟨0x90014, [], false, .none, [⟨0, 16, .ro, 0, []⟩, ⟨16, 7, .ro, 0, []⟩]⟩,
  -- ACQ_SEQ (R325)
  ⟨0x90018, [], false, .none, [⟨0, 32, .ro, 0, []⟩]⟩,
  -- ACQ_RECORDS (R320)
  ⟨0x90020, [], false, .none, [⟨0, 32, .ro, 0, []⟩]⟩,
  -- ACQ_TRIG_EARLY (R316)
  ⟨0x90024, [], false, .none, [⟨0, 32, .ro, 0, []⟩]⟩,
  -- ACQ_TRIG_LATE (R317)
  ⟨0x90028, [], false, .none, [⟨0, 32, .ro, 0, []⟩]⟩,
  -- ACQ_TRIG_BUSY (R319)
  ⟨0x9002C, [], false, .none, [⟨0, 32, .ro, 0, []⟩]⟩,
  -- ACQ_FULL (R313)
  ⟨0x90030, [], false, .none, [⟨0, 32, .ro, 0, []⟩]⟩
]

/-- Registers of block ACQ, part 2. Which values outside a range are kept out is the model's choice where the manual does not call them
reserved (log entry 183). -/
def regsAcq1 : List RegRow := [
  -- ACQ_SKIP (R310)
  ⟨0x90034, [], false, .none, [⟨0, 32, .ro, 0, []⟩]⟩,
  -- ACQ_SEG (R311)
  ⟨0x90100, [(64, 0x4)], false, .none, [⟨0, 2, .ro, 0, []⟩, ⟨8, 8, .ro, 0, []⟩, ⟨16, 16, .ro, 0, []⟩]⟩,
  -- ACQ_COND0 (R318)
  ⟨0x90400, [(32, 0x10)], false, .acq, [⟨0, 3, .rw, 0, []⟩, ⟨4, 2, .rw, 0, []⟩, ⟨8, 17, .rw, 0, []⟩]⟩,
  -- ACQ_COND1 (R318)
  ⟨0x90404, [(32, 0x10)], false, .acq, [⟨0, 32, .rw, 0, []⟩]⟩,
  -- ACQ_COND2 (R318)
  ⟨0x90408, [(32, 0x10)], false, .acq, [⟨0, 32, .rw, 0, []⟩]⟩,
  -- ACQ_COND3 (R318)
  ⟨0x9040C, [(32, 0x10)], false, .acqCond3, [⟨0, 32, .rw, 0, [(0, 0), (100, 4294967295)]⟩]⟩,
  -- ACQ_TERM_T (R319)
  ⟨0x90600, [(8, 0x8)], false, .acq, [⟨0, 32, .rw, 0, []⟩]⟩,
  -- ACQ_TERM_Q (R319)
  ⟨0x90604, [(8, 0x8)], false, .acq, [⟨0, 32, .rw, 0, []⟩]⟩,
  -- ACQ_CH0 (R307)
  ⟨0x91000, [(320, 0x10)], false, .acq, [⟨0, 3, .rw, 0, []⟩, ⟨8, 8, .rw, 0, []⟩, ⟨16, 4, .rw, 0, []⟩]⟩,
  -- ACQ_CH1 (R309)
  ⟨0x91004, [(320, 0x10)], false, .acq, [⟨0, 16, .rw, 0, []⟩, ⟨16, 16, .rw, 0, []⟩]⟩,
  -- ACQ_CH2 (R323)
  ⟨0x91008, [(320, 0x10)], false, .acqCh2, [⟨0, 2, .rw, 0, [(0, 2)]⟩]⟩,
  -- ACQ_MEAS0 (R324)
  ⟨0x93000, [(64, 0x10)], false, .acqMeas, [⟨0, 9, .rw, 0, []⟩, ⟨15, 1, .rw, 0, []⟩]⟩
]

/-- Registers of block ACQ, part 3. -/
def regsAcq2 : List RegRow := [
  -- ACQ_MEAS_BASE (R324)
  ⟨0x93004, [(64, 0x10)], false, .acqMeas, [⟨0, 32, .rw, 0, []⟩]⟩,
  -- ACQ_MEAS_TOP (R324)
  ⟨0x93008, [(64, 0x10)], false, .acqMeas, [⟨0, 32, .rw, 0, []⟩]⟩,
  -- ACQ_MASK (R323)
  ⟨0x98000, [(64, 0x200), (128, 0x4)], false, .acqMask, [⟨0, 32, .rw, 0, []⟩]⟩
]

/-- Registers of block ACQ. -/
def regsAcq : List RegRow := regsAcq0 ++ regsAcq1 ++ regsAcq2

/-- Registers of block SCH, part 1. -/
def regsSch0 : List RegRow := [
  -- SCH_CFG (R178)
  ⟨0xA0000, [], false, .schCfg, [⟨0, 6, .rw, 0, []⟩, ⟨8, 1, .rw, 0, []⟩, ⟨9, 1, .rw, 0, []⟩, ⟨16, 8, .rw, 0x32, [(1, 255)]⟩, ⟨24, 4, .rw, 0, [(0, 0), (3, 15)]⟩]⟩,
  -- SCH_SUBMIT (R176)
  ⟨0xA0010, [(8, 0x4)], true, .none, [⟨0, 32, .rw, 0, []⟩]⟩,
  -- SCH_SUBMIT_STAT (R176)
  ⟨0xA0030, [], true, .none, [⟨0, 4, .ro, 0xf, []⟩, ⟨16, 16, .ro, 0, []⟩]⟩,
  -- SCH_INST_RESULT (R173)
  ⟨0xA0040, [], false, .none, [⟨0, 10, .ro, 0, []⟩, ⟨12, 4, .ro, 0xf, []⟩]⟩,
  -- SCH_OVERRUN (R180)
  ⟨0xA0044, [], false, .none, [⟨0, 32, .ro, 0, []⟩]⟩,
  -- SCH_GONE (R183)
  ⟨0xA0048, [], false, .none, [⟨0, 32, .ro, 0, []⟩]⟩,
  -- SCH_DENIED (R183)
  ⟨0xA004C, [], false, .none, [⟨0, 32, .ro, 0, []⟩]⟩,
  -- SCH_LVL_DEPTH (R184)
  ⟨0xA0100, [(8, 0x8)], false, .none, [⟨0, 11, .ro, 0, []⟩, ⟨16, 11, .ro, 0, []⟩, ⟨31, 1, .wo, 0, []⟩]⟩,
  -- SCH_LVL_CNT (R180)
  ⟨0xA0104, [(8, 0x8)], false, .none, [⟨0, 16, .ro, 0, []⟩, ⟨16, 16, .ro, 0, []⟩]⟩,
  -- SCH_ENG_CTRL (R182)
  ⟨0xA1000, [(16, 0x40)], false, .none, [⟨0, 1, .rw, 1, []⟩, ⟨1, 3, .ro, 0, []⟩, ⟨4, 1, .ro, 0, []⟩, ⟨5, 1, .wo, 0, []⟩, ⟨8, 4, .ro, 0, []⟩, ⟨16, 10, .ro, 0, []⟩, ⟨26, 2, .ro, 0, []⟩]⟩,
  -- SCH_ENG_TASKS (R184)
  ⟨0xA1004, [(16, 0x40)], false, .none, [⟨0, 32, .ro, 0, []⟩]⟩,
  -- SCH_ENG_WAIT_MEAN (R184)
  ⟨0xA1008, [(16, 0x40)], false, .none, [⟨0, 32, .ro, 0, []⟩]⟩
]

/-- Registers of block SCH, part 2. -/
def regsSch1 : List RegRow := [
  -- SCH_ENG_WAIT_MAX (R184)
  ⟨0xA100C, [(16, 0x40)], false, .none, [⟨0, 32, .ro, 0, []⟩]⟩,
  -- SCH_ENG_BUSY (R184)
  ⟨0xA1010, [(16, 0x40)], false, .none, [⟨0, 32, .ro, 0, []⟩]⟩,
  -- SCH_ENG_LOAD (R184)
  ⟨0xA1014, [(16, 0x40)], false, .none, [⟨0, 10, .ro, 0, []⟩, ⟨16, 1, .ro, 0, []⟩]⟩,
  -- SCH_ENG_FAULTS (R181)
  ⟨0xA1018, [(16, 0x40)], false, .none, [⟨0, 32, .ro, 0, []⟩]⟩,
  -- SCH_ENG_CECC (R181)
  ⟨0xA101C, [(16, 0x40)], false, .none, [⟨0, 32, .ro, 0, []⟩]⟩,
  -- SCH_ENG_DONE (R184)
  ⟨0xA1020, [(16, 0x40)], false, .none, [⟨0, 32, .ro, 0, []⟩]⟩,
  -- SCH_ENG_HIST (R184)
  ⟨0xA2000, [(16, 0x40), (16, 0x4)], false, .none, [⟨0, 32, .ro, 0, []⟩]⟩,
  -- SCH_INST_CTRL (R173)
  ⟨0xA6000, [(1024, 0x4)], false, .none, [⟨0, 1, .rw, 0, []⟩, ⟨1, 2, .ro, 0, []⟩, ⟨3, 1, .ro, 0, []⟩, ⟨4, 1, .w1c, 0, []⟩, ⟨16, 16, .ro, 0, []⟩]⟩,
  -- SCH_INST0 (R172)
  ⟨0xA8000, [(1024, 0x10)], false, .schInst, [⟨0, 16, .rw, 0, []⟩, ⟨16, 3, .rw, 0, []⟩, ⟨19, 5, .rw, 0, []⟩, ⟨24, 1, .rw, 0, []⟩, ⟨25, 3, .rw, 0, []⟩, ⟨28, 1, .rw, 0, []⟩, ⟨29, 3, .rz, 0, []⟩]⟩,
  -- SCH_INST1 (R172)
  ⟨0xA8004, [(1024, 0x10)], false, .schInst, [⟨0, 16, .rw, 0, []⟩, ⟨16, 16, .rw, 0, []⟩]⟩,
  -- SCH_INST2 (R173)
  ⟨0xA8008, [(1024, 0x10)], false, .none, [⟨0, 18, .rw, 0, []⟩, ⟨18, 10, .rw, 0, []⟩, ⟨28, 4, .rz, 0, []⟩]⟩,
  -- SCH_INST3 (R172)
  ⟨0xA800C, [(1024, 0x10)], false, .schInst, [⟨0, 24, .rw, 0, []⟩, ⟨24, 8, .rw, 0, []⟩]⟩
]

/-- Registers of block SCH. -/
def regsSch : List RegRow := regsSch0 ++ regsSch1

/-- Registers of block DET, part 1. -/
def regsDet0 : List RegRow := [
  -- DET_CFG (R232)
  ⟨0xB0000, [], false, .none, [⟨0, 8, .rw, 0xa, [(1, 255)]⟩]⟩,
  -- DET_CMD (R230)
  ⟨0xB0004, [], false, .none, [⟨0, 4, .wo, 0, []⟩, ⟨4, 14, .wo, 0, []⟩]⟩,
  -- DET_PEND (R233)
  ⟨0xB0008, [], false, .none, [⟨0, 11, .ro, 0, []⟩, ⟨16, 16, .ro, 0, []⟩]⟩,
  -- DET_SEQ (R231)
  ⟨0xB000C, [], false, .none, [⟨0, 32, .ro, 0, []⟩]⟩,
  -- DET_NOTICE_CFG (R236)
  ⟨0xB0020, [], false, .none, [⟨0, 2, .rw, 0, []⟩, ⟨2, 1, .rw, 0, []⟩, ⟨3, 2, .rw, 0, []⟩, ⟨5, 6, .rw, 0, []⟩, ⟨16, 16, .rw, 0, []⟩]⟩,
  -- DET_NOTICE_UDP (R236)
  ⟨0xB0024, [], false, .none, [⟨0, 16, .rw, 0, []⟩, ⟨16, 16, .rw, 0, []⟩]⟩,
  -- DET_NOTICE_SIP (R236)
  ⟨0xB0028, [], false, .none, [⟨0, 32, .rw, 0, []⟩]⟩,
  -- DET_NOTICE_DIP (R236)
  ⟨0xB002C, [], false, .none, [⟨0, 32, .rw, 0, []⟩]⟩,
  -- DET_NOTICE_DMAC_LO (R236)
  ⟨0xB0030, [], false, .none, [⟨0, 32, .rw, 0, []⟩]⟩,
  -- DET_NOTICE_DMAC_HI (R236)
  ⟨0xB0034, [], false, .none, [⟨0, 16, .rw, 0, []⟩]⟩,
  -- DET_NOTICE_SENT (R236)
  ⟨0xB0038, [], false, .none, [⟨0, 32, .ro, 0, []⟩]⟩,
  -- DET_NOTICE_NOT_SENT (R235)
  ⟨0xB003C, [], false, .none, [⟨0, 32, .ro, 0, []⟩]⟩
]

/-- Registers of block DET, part 2. -/
def regsDet1 : List RegRow := [
  -- DET_ALM_STAT (R238)
  ⟨0xB0040, [], false, .none, [⟨0, 4, .ro, 0, []⟩, ⟨4, 1, .ro, 0, []⟩]⟩,
  -- DET_CLASS_CFG (R231)
  ⟨0xB0100, [(12, 0x8)], false, .none, [⟨0, 6, .rw, 0, []⟩, ⟨6, 1, .rw, 0, []⟩, ⟨7, 1, .rw, 0, []⟩, ⟨8, 1, .rw, 0, []⟩, ⟨9, 1, .rw, 0, []⟩, ⟨10, 2, .rw, 0, []⟩, ⟨12, 1, .rw, 0, []⟩, ⟨13, 5, .rw, 0, []⟩]⟩,
  -- DET_CLASS_STAT (R239)
  ⟨0xB0104, [(12, 0x8)], false, .none, [⟨0, 15, .ro, 0, []⟩, ⟨15, 15, .ro, 0, []⟩, ⟨30, 1, .ro, 0, []⟩]⟩,
  -- DET_AST (R227)
  ⟨0xB8000, [(8192, 0x4)], false, .none, [⟨0, 16, .ro, 0, []⟩, ⟨16, 16, .ro, 0, []⟩]⟩
]

/-- Registers of block DET. -/
def regsDet : List RegRow := regsDet0 ++ regsDet1

/-- Registers of block LGE, part 1. -/
def regsLge0 : List RegRow := [
  -- LGE_CTRL (R256)
  ⟨0xC0000, [], false, .none, [⟨0, 3, .wo, 0, []⟩, ⟨3, 1, .wo, 0, []⟩]⟩,
  -- LGE_STAT (R256)
  ⟨0xC0004, [], false, .none, [⟨0, 3, .ro, 0, []⟩, ⟨3, 1, .ro, 0, []⟩, ⟨4, 4, .ro, 0, []⟩, ⟨8, 1, .ro, 0, []⟩, ⟨9, 2, .ro, 0, []⟩, ⟨11, 1, .w1c, 0, []⟩, ⟨12, 1, .w1c, 0, []⟩, ⟨13, 1, .ro, 0, []⟩]⟩,
  -- LGE_CFG (R245)
  ⟨0xC0008, [], false, .lge, [⟨0, 8, .rw, 0x14, [(20, 250)]⟩, ⟨8, 8, .rw, 0xfa, [(50, 250)]⟩, ⟨16, 2, .rw, 0, [(0, 2)]⟩, ⟨18, 1, .rw, 0, []⟩, ⟨20, 4, .rw, 0xf, [(0, 11), (15, 15)]⟩]⟩,
  -- LGE_ALARM_INST (R252)
  ⟨0xC000C, [], false, .lge, [⟨0, 10, .rw, 0, []⟩]⟩,
  -- LGE_CYC_LAST (R245)
  ⟨0xC0010, [], false, .none, [⟨0, 32, .ro, 0, []⟩]⟩,
  -- LGE_CYC_MAX (R245)
  ⟨0xC0014, [], false, .none, [⟨0, 32, .ro, 0, []⟩]⟩,
  -- LGE_CYC_COUNT (R245)
  ⟨0xC0018, [], false, .none, [⟨0, 32, .ro, 0, []⟩]⟩,
  -- LGE_HALT_PC (R243)
  ⟨0xC001C, [], false, .none, [⟨0, 16, .ro, 0, []⟩]⟩,
  -- LGE_GSUB_STAT (R253)
  ⟨0xC0020, [], false, .none, [⟨0, 16, .ro, 0, []⟩, ⟨16, 16, .ro, 0, []⟩]⟩,
  -- LGE_PROG_CMD (R277)
  ⟨0xC0040, [], false, .none, [⟨0, 2, .wo, 0, []⟩, ⟨2, 1, .wo, 0, []⟩]⟩,
  -- LGE_PROG_STAT (R277)
  ⟨0xC0044, [], false, .none, [⟨0, 2, .ro, 0, []⟩, ⟨2, 2, .ro, 0, []⟩, ⟨4, 1, .ro, 0, []⟩, ⟨5, 1, .w1c, 0, []⟩, ⟨8, 8, .ro, 0xff, []⟩, ⟨16, 4, .ro, 0xf, []⟩]⟩,
  -- LGE_PROG_INFO_ID (R277)
  ⟨0xC0048, [(2, 0x10)], false, .none, [⟨0, 32, .ro, 0, []⟩]⟩
]

/-- Registers of block LGE, part 2. -/
def regsLge1 : List RegRow := [
  -- LGE_PROG_INFO_RETAIN (R277)
  ⟨0xC004C, [(2, 0x10)], false, .none, [⟨0, 32, .ro, 0, []⟩]⟩,
  -- LGE_PROG_INFO_SIZES (R277)
  ⟨0xC0050, [(2, 0x10)], false, .none, [⟨0, 16, .ro, 0, []⟩, ⟨16, 16, .ro, 0, []⟩]⟩,
  -- LGE_PROG_INFO_BOUND (R269)
  ⟨0xC0054, [(2, 0x10)], false, .none, [⟨0, 32, .ro, 0, []⟩]⟩,
  -- LGE_XCHG_TIME_LO (R279)
  ⟨0xC0068, [], false, .none, [⟨0, 32, .ro, 0, []⟩]⟩,
  -- LGE_XCHG_TIME_HI (R279)
  ⟨0xC006C, [], false, .none, [⟨0, 32, .ro, 0, []⟩]⟩,
  -- LGE_XCHG_CNT (R279)
  ⟨0xC0070, [], false, .none, [⟨0, 16, .ro, 0, []⟩, ⟨16, 16, .ro, 0, []⟩]⟩,
  -- LGE_XCHG_DUR (R279)
  ⟨0xC0074, [], false, .none, [⟨0, 32, .ro, 0, []⟩]⟩,
  -- LGE_FORCE_STAT (R283)
  ⟨0xC0078, [], false, .none, [⟨0, 9, .ro, 0, []⟩, ⟨16, 16, .ro, 0, []⟩]⟩,
  -- LGE_GSEL_CFG (R249)
  ⟨0xC0100, [], false, .lge, [⟨0, 6, .rw, 0x20, [(32, 63)]⟩, ⟨8, 1, .rw, 0, []⟩]⟩,
  -- LGE_GSEL0 (R249)
  ⟨0xC0400, [(256, 0x8)], false, .lge, [⟨0, 13, .rw, 0, []⟩]⟩,
  -- LGE_GSEL1 (R249)
  ⟨0xC0404, [(256, 0x8)], false, .lge, [⟨0, 20, .rw, 0, []⟩]⟩,
  -- LGE_GSUB_CTRL (R253)
  ⟨0xC1000, [(64, 0x40)], false, .lgeGsub, [⟨0, 1, .rw, 0, []⟩, ⟨1, 1, .rw, 0, []⟩, ⟨2, 6, .rw, 0, []⟩, ⟨8, 4, .rw, 0, []⟩, ⟨16, 16, .rw, 0, []⟩]⟩
]

/-- Registers of block LGE, part 3. Which values outside a range are kept out is the model's choice where the manual does not call them
reserved (log entry 183). -/
def regsLge2 : List RegRow := [
  -- LGE_GSUB_DMAC_LO (R253)
  ⟨0xC1004, [(64, 0x40)], false, .lge, [⟨0, 32, .rw, 0, []⟩]⟩,
  -- LGE_GSUB_DMAC_HI (R253)
  ⟨0xC1008, [(64, 0x40)], false, .lge, [⟨0, 16, .rw, 0, []⟩]⟩,
  -- LGE_GSUB_CONFREV (R253)
  ⟨0xC100C, [(64, 0x40)], false, .lge, [⟨0, 32, .rw, 0, []⟩]⟩,
  -- LGE_GSUB_TYPES (R253)
  ⟨0xC1010, [(64, 0x40), (4, 0x4)], false, .lgeTypes, [⟨0, 32, .rw, 0, []⟩]⟩,
  -- LGE_GPUB_CTRL (R255)
  ⟨0xC2000, [(32, 0x40)], false, .lge, [⟨0, 1, .rw, 0, []⟩, ⟨1, 1, .rw, 0, []⟩, ⟨2, 6, .rw, 0, []⟩, ⟨8, 2, .rw, 0, []⟩, ⟨16, 16, .rw, 0, []⟩]⟩,
  -- LGE_GPUB_DMAC_LO (R255)
  ⟨0xC2004, [(32, 0x40)], false, .lge, [⟨0, 32, .rw, 0, []⟩]⟩,
  -- LGE_GPUB_DMAC_HI (R255)
  ⟨0xC2008, [(32, 0x40)], false, .lge, [⟨0, 16, .rw, 0, []⟩]⟩,
  -- LGE_GPUB_CONFREV (R255)
  ⟨0xC200C, [(32, 0x40)], false, .lge, [⟨0, 32, .rw, 0, []⟩]⟩,
  -- LGE_GPUB_TIMING (R255)
  ⟨0xC2010, [(32, 0x40)], false, .lge, [⟨0, 8, .rw, 2, [(1, 100)]⟩, ⟨8, 16, .rw, 0x3e8, [(100, 60000)]⟩]⟩,
  -- LGE_GPUB_STNUM (R255)
  ⟨0xC2014, [(32, 0x40)], false, .none, [⟨0, 32, .ro, 0, []⟩]⟩,
  -- LGE_GPUB_SQNUM (R255)
  ⟨0xC2018, [(32, 0x40)], false, .none, [⟨0, 32, .ro, 0, []⟩]⟩,
  -- LGE_GPUB_TYPES (R255)
  ⟨0xC2020, [(32, 0x40), (4, 0x4)], false, .lgePub, [⟨0, 32, .rw, 0, []⟩]⟩
]

/-- Registers of block LGE, part 4. -/
def regsLge3 : List RegRow := [
  -- LGE_GSTR (R255)
  ⟨0xC3000, [(32, 0x80), (32, 0x4)], false, .lge, [⟨0, 32, .rw, 0, []⟩]⟩,
  -- LGE_OUT (R250)
  ⟨0xC8000, [(2064, 0x4)], false, .none, [⟨0, 32, .ro, 0, []⟩]⟩,
  -- LGE_FRC0 (R281)
  ⟨0xCC000, [(256, 0x10)], false, .none, [⟨0, 16, .rw, 0, []⟩, ⟨16, 4, .rw, 0, [(0, 3)]⟩, ⟨31, 1, .rw, 0, []⟩]⟩,
  -- LGE_FRC_LO (R281)
  ⟨0xCC004, [(256, 0x10)], false, .none, [⟨0, 32, .rw, 0, []⟩]⟩,
  -- LGE_FRC_HI (R281)
  ⟨0xCC008, [(256, 0x10)], false, .none, [⟨0, 32, .rw, 0, []⟩]⟩,
  -- LGE_FRC_STAT (R281)
  ⟨0xCC00C, [(256, 0x10)], false, .none, [⟨0, 2, .ro, 0, []⟩, ⟨4, 18, .ro, 0, []⟩, ⟨22, 5, .ro, 0, []⟩]⟩
]

/-- Registers of block LGE. -/
def regsLge : List RegRow := regsLge0 ++ regsLge1 ++ regsLge2 ++ regsLge3

/-- Registers of block SPN, part 1. Which values outside a range are kept out is the model's choice where the manual does not call them
reserved (log entry 183). -/
def regsSpn0 : List RegRow := [
  -- SPN_CFG (R285)
  ⟨0xD0000, [], false, .none, [⟨0, 1, .rwb, 0, []⟩, ⟨1, 1, .rwb, 0, []⟩, ⟨2, 1, .rw, 1, []⟩, ⟨4, 2, .rw, 0, []⟩, ⟨6, 2, .rwb, 0, []⟩, ⟨8, 1, .rwb, 0, []⟩, ⟨16, 16, .rwb, 0, []⟩]⟩,
  -- SPN_ID (R288)
  ⟨0xD0004, [], false, .none, [⟨0, 16, .rwb, 0, []⟩, ⟨16, 12, .rwb, 0, []⟩, ⟨28, 3, .rwb, 7, []⟩]⟩,
  -- SPN_LEASE (R292)
  ⟨0xD0008, [], false, .none, [⟨0, 10, .rw, 0x12c, [(100, 700)]⟩, ⟨16, 8, .rw, 0x32, [(10, 255)]⟩]⟩,
  -- SPN_RETURN (R302)
  ⟨0xD000C, [], false, .none, [⟨0, 16, .rw, 0xa, [(1, 3600)]⟩]⟩,
  -- SPN_CMD (R300)
  ⟨0xD0010, [], false, .none, [⟨0, 4, .wo, 0, []⟩, ⟨8, 8, .wo, 0, []⟩]⟩,
  -- SPN_STAT (R295)
  ⟨0xD0014, [], false, .none, [⟨0, 4, .ro, 0, []⟩, ⟨4, 1, .ro, 0, []⟩, ⟨5, 1, .ro, 0, []⟩, ⟨6, 1, .ro, 0, []⟩, ⟨7, 1, .ro, 0, []⟩, ⟨8, 1, .ro, 0, []⟩, ⟨9, 1, .ro, 0, []⟩, ⟨10, 1, .ro, 0, []⟩, ⟨11, 1, .w1c, 0, []⟩, ⟨12, 1, .w1c, 0, []⟩, ⟨16, 4, .ro, 0, []⟩]⟩,
  -- SPN_DIAG (R297)
  ⟨0xD0018, [], false, .none, [⟨0, 6, .ro, 0, []⟩]⟩,
  -- SPN_PEER (R295)
  ⟨0xD001C, [], false, .none, [⟨0, 16, .ro, 0, []⟩, ⟨16, 4, .ro, 0, []⟩, ⟨20, 2, .ro, 0, []⟩]⟩,
  -- SPN_TAKES (R295)
  ⟨0xD0020, [], false, .none, [⟨0, 32, .ro, 0, []⟩]⟩,
  -- SPN_LAPSES (R293)
  ⟨0xD0024, [], false, .none, [⟨0, 32, .ro, 0, []⟩]⟩,
  -- SPN_CRC_ERR (R288)
  ⟨0xD0028, [], false, .none, [⟨0, 32, .ro, 0, []⟩]⟩,
  -- SPN_FOREIGN (R288)
  ⟨0xD002C, [], false, .none, [⟨0, 32, .ro, 0, []⟩]⟩
]

/-- Registers of block SPN, part 2. -/
def regsSpn1 : List RegRow := [
  -- SPN_MIRROR_LAG (R301)
  ⟨0xD0030, [], false, .none, [⟨0, 32, .ro, 0, []⟩]⟩,
  -- SPN_GAP_MAX (R304)
  ⟨0xD0034, [], false, .none, [⟨0, 32, .ro, 0, []⟩]⟩,
  -- SPN_GAP_LAST (R304)
  ⟨0xD0038, [], false, .none, [⟨0, 32, .ro, 0, []⟩]⟩,
  -- SPN_DMAC_LO (R289)
  ⟨0xD0040, [], false, .none, [⟨0, 32, .rwb, 0, []⟩]⟩,
  -- SPN_DMAC_HI (R289)
  ⟨0xD0044, [], false, .none, [⟨0, 16, .rwb, 0, []⟩]⟩
]

/-- Registers of block SPN. -/
def regsSpn : List RegRow := regsSpn0 ++ regsSpn1

/-- Registers of block ENR, part 1. -/
def regsEnr0 : List RegRow := [
  -- ENR_CFG (R358)
  ⟨0xE0000, [], false, .legal, [⟨0, 3, .rw, 3, [(0, 5)]⟩, ⟨3, 1, .rw, 0, []⟩, ⟨4, 6, .rw, 0, []⟩]⟩,
  -- ENR_SAVE (R362)
  ⟨0xE0004, [], false, .legal, [⟨0, 12, .rw, 0x384, [(60, 3600)]⟩]⟩,
  -- ENR_SAVE_STAT (R362)
  ⟨0xE0008, [], false, .none, [⟨0, 6, .ro, 0, []⟩, ⟨6, 1, .w1c, 0, []⟩, ⟨7, 1, .ro, 0, []⟩, ⟨16, 16, .ro, 0, []⟩]⟩,
  -- ENR_OPSEC_LO (R362)
  ⟨0xE0010, [], false, .none, [⟨0, 32, .ro, 0, []⟩]⟩,
  -- ENR_OPSEC_HI (R362)
  ⟨0xE0014, [], false, .none, [⟨0, 32, .ro, 0, []⟩]⟩,
  -- ENR_SAVED_OPSEC_LO (R362)
  ⟨0xE0018, [], false, .none, [⟨0, 32, .ro, 0, []⟩]⟩,
  -- ENR_SAVED_OPSEC_HI (R362)
  ⟨0xE001C, [], false, .none, [⟨0, 32, .ro, 0, []⟩]⟩,
  -- ENR_SEAL_CMD (R366)
  ⟨0xE0020, [], false, .none, [⟨0, 2, .wo, 0, []⟩]⟩,
  -- ENR_SEAL_KEY_LO (R366)
  ⟨0xE0024, [], false, .none, [⟨0, 32, .wo, 0, []⟩]⟩,
  -- ENR_SEAL_KEY_HI (R366)
  ⟨0xE0028, [], false, .none, [⟨0, 32, .wo, 0, []⟩]⟩,
  -- ENR_SEAL_STAT (R366)
  ⟨0xE002C, [], false, .none, [⟨0, 1, .ro, 0, []⟩, ⟨1, 1, .ro, 0, []⟩, ⟨2, 1, .ro, 0, []⟩, ⟨3, 1, .ro, 0, []⟩, ⟨4, 1, .ro, 0, []⟩, ⟨5, 3, .ro, 0, []⟩, ⟨16, 16, .ro, 0, []⟩]⟩,
  -- ENR_DENIED (R365)
  ⟨0xE0030, [], false, .none, [⟨0, 32, .ro, 0, []⟩]⟩
]

/-- Registers of block ENR, part 2. -/
def regsEnr1 : List RegRow := [
  -- ENR_CH_CFG (R355)
  ⟨0xE0100, [(16, 0x80)], false, .legal, [⟨0, 1, .rw, 0, []⟩, ⟨1, 2, .rw, 0, [(0, 2)]⟩, ⟨3, 1, .rw, 0, []⟩, ⟨4, 1, .rw, 0, []⟩, ⟨5, 1, .rw, 0, []⟩, ⟨6, 1, .rw, 0, []⟩, ⟨7, 1, .rw, 0, []⟩, ⟨8, 6, .rw, 3, [(1, 50)]⟩]⟩,
  -- ENR_CH_GAIN_LO (R357)
  ⟨0xE0108, [(16, 0x80), (4, 0x8)], false, .legal, [⟨0, 32, .rw, 0, []⟩]⟩,
  -- ENR_CH_GAIN_HI (R357)
  ⟨0xE010C, [(16, 0x80), (4, 0x8)], false, .legal, [⟨0, 32, .rw, 0, []⟩]⟩,
  -- ENR_CH_OFF (R359)
  ⟨0xE0128, [(16, 0x80), (4, 0x4)], false, .legal, [⟨0, 32, .rw, 0, []⟩]⟩,
  -- ENR_CH_STAT (R353)
  ⟨0xE0138, [(16, 0x80)], false, .none, [⟨0, 1, .ro, 0, []⟩, ⟨1, 1, .ro, 0, []⟩, ⟨16, 16, .ro, 0, []⟩]⟩,
  -- ENR_CH_PULSES (R356)
  ⟨0xE013C, [(16, 0x80)], false, .none, [⟨0, 32, .ro, 0, []⟩]⟩,
  -- ENR_ACC_LO (R357)
  ⟨0xE1000, [(16, 0x20), (4, 0x8)], false, .none, [⟨0, 32, .ro, 0, []⟩]⟩,
  -- ENR_ACC_HI (R357)
  ⟨0xE1004, [(16, 0x20), (4, 0x8)], false, .none, [⟨0, 32, .ro, 0, []⟩]⟩,
  -- ENR_IVL_LO (R359)
  ⟨0xE1200, [(16, 0x20), (4, 0x8)], false, .none, [⟨0, 32, .ro, 0, []⟩]⟩,
  -- ENR_IVL_HI (R359)
  ⟨0xE1204, [(16, 0x20), (4, 0x8)], false, .none, [⟨0, 32, .ro, 0, []⟩]⟩
]

/-- Registers of block ENR. -/
def regsEnr : List RegRow := regsEnr0 ++ regsEnr1

/-- Registers of block EVR, part 1. -/
def regsEvr0 : List RegRow := [
  -- EVR_STAT (R369)
  ⟨0xF0000, [(2, 0x100)], false, .none, [⟨0, 14, .ro, 0, []⟩, ⟨14, 1, .ro, 0, []⟩, ⟨16, 4, .ro, 0xf, []⟩]⟩,
  -- EVR_HEAD (R378)
  ⟨0xF0004, [(2, 0x100)], false, .none, [⟨0, 32, .ro, 0, []⟩]⟩,
  -- EVR_DISCARD (R376)
  ⟨0xF0008, [(2, 0x100)], false, .none, [⟨0, 32, .ro, 0, []⟩]⟩,
  -- EVR_GRID_CFG (R380)
  ⟨0xF000C, [], false, .none, [⟨0, 14, .rw, 0x1800, []⟩]⟩,
  -- EVR_LEG_CFG (R380)
  ⟨0xF010C, [], false, .none, [⟨0, 14, .rw, 0xc00, []⟩]⟩,
  -- EVR_CMD (R379)
  ⟨0xF0010, [(2, 0x100)], false, .none, [⟨0, 2, .wo, 0, []⟩, ⟨2, 14, .wo, 0, []⟩]⟩,
  -- EVR_CONFIRM (R379)
  ⟨0xF0014, [(2, 0x100)], true, .none, [⟨0, 32, .rw, 0, []⟩]⟩,
  -- EVR_LEG_TORN (R375)
  ⟨0xF0118, [], false, .none, [⟨0, 32, .ro, 0, []⟩]⟩,
  -- EVR_LEG_REFUSED (R377)
  ⟨0xF011C, [], false, .none, [⟨0, 32, .ro, 0, []⟩]⟩,
  -- EVR_IDX (R378)
  ⟨0xF0020, [(2, 0x100)], true, .none, [⟨0, 14, .rw, 0, [(0, 8192)]⟩]⟩,
  -- EVR_RECNUM (R378)
  ⟨0xF0024, [(2, 0x100)], true, .none, [⟨0, 32, .ro, 0, []⟩]⟩,
  -- EVR_REC (R378)
  ⟨0xF0040, [(2, 0x100), (8, 0x4)], true, .none, [⟨0, 32, .ro, 0, []⟩]⟩
]

/-- Registers of block EVR. -/
def regsEvr : List RegRow := regsEvr0

/-- Registers of block CMP, part 1. -/
def regsCmp0 : List RegRow := [
  -- CMP_CFG (R395)
  ⟨0x100000, [], false, .none, [⟨0, 1, .rw, 1, []⟩, ⟨1, 2, .ro, 0, []⟩, ⟨3, 1, .ro, 0, []⟩, ⟨4, 6, .rw, 0, []⟩, ⟨10, 1, .rw, 0, []⟩]⟩,
  -- CMP_STAT (R382)
  ⟨0x100004, [], false, .none, [⟨0, 6, .ro, 0, []⟩, ⟨6, 1, .ro, 0, []⟩, ⟨7, 1, .w1c, 0, []⟩]⟩,
  -- CMP_JOB (R382)
  ⟨0x100010, [(8, 0x4)], true, .none, [⟨0, 32, .rw, 0, []⟩]⟩,
  -- CMP_SUBMIT_STAT (R382)
  ⟨0x100030, [], true, .none, [⟨0, 4, .ro, 0xf, []⟩, ⟨16, 16, .ro, 0, []⟩]⟩,
  -- CMP_CMD (R394)
  ⟨0x100034, [], false, .none, [⟨0, 2, .wo, 0, []⟩, ⟨2, 2, .wo, 0, []⟩, ⟨16, 16, .wo, 0, []⟩]⟩,
  -- CMP_CTX (R389)
  ⟨0x100040, [(4, 0x4)], false, .none, [⟨0, 1, .ro, 0, []⟩, ⟨1, 5, .ro, 0, []⟩, ⟨16, 16, .ro, 0, []⟩]⟩,
  -- CMP_ARCH_CFG (R396)
  ⟨0x100080, [], false, .none, [⟨0, 1, .rw, 0, []⟩, ⟨1, 3, .rw, 1, [(1, 4)]⟩, ⟨4, 1, .rw, 1, []⟩, ⟨5, 1, .rw, 1, []⟩, ⟨6, 1, .rw, 0, []⟩]⟩,
  -- CMP_ARCH_WR (R398)
  ⟨0x100084, [], false, .none, [⟨0, 32, .ro, 0, []⟩]⟩,
  -- CMP_ARCH_RD (R398)
  ⟨0x100088, [], false, .none, [⟨0, 32, .rw, 0, []⟩]⟩,
  -- CMP_ARCH_SEQ (R397)
  ⟨0x10008C, [], false, .none, [⟨0, 32, .ro, 0, []⟩]⟩,
  -- CMP_ARCH_LOST (R398)
  ⟨0x100090, [], false, .none, [⟨0, 32, .ro, 0, []⟩]⟩,
  -- CMP_JOBS_OK (R393)
  ⟨0x100094, [], false, .none, [⟨0, 32, .ro, 0, []⟩]⟩
]

/-- Registers of block CMP, part 2. -/
def regsCmp1 : List RegRow := [
  -- CMP_JOBS_FAIL (R393)
  ⟨0x100098, [], false, .none, [⟨0, 32, .ro, 0, []⟩]⟩
]

/-- Registers of block CMP. -/
def regsCmp : List RegRow := regsCmp0 ++ regsCmp1

/-- Registers of block QUE, part 1. -/
def regsQue0 : List RegRow := [
  -- QUE_POOL (R409)
  ⟨0x110000, [], false, .none, [⟨0, 2, .ro, 0, []⟩, ⟨2, 1, .rw, 0, []⟩]⟩,
  -- QUE_TEST (R412)
  ⟨0x110004, [], false, .none, [⟨0, 6, .wo, 0, []⟩, ⟨8, 2, .wo, 0, []⟩]⟩,
  -- QUE_NONEMPTY (R404)
  ⟨0x110010, [(2, 0x4)], false, .none, [⟨0, 32, .ro, 0, []⟩]⟩,
  -- QUE_HIGH (R408)
  ⟨0x110018, [(2, 0x4)], false, .none, [⟨0, 32, .ro, 0, []⟩]⟩,
  -- QUE_FC (R408)
  ⟨0x110020, [], false, .none, [⟨0, 4, .ro, 0, []⟩]⟩,
  -- QUE_Q_CTRL (R400)
  ⟨0x110100, [(64, 0x20)], false, .none, [⟨0, 1, .rw, 0, []⟩, ⟨1, 2, .ro, 0, []⟩, ⟨3, 1, .ro, 0, []⟩, ⟨4, 1, .wo, 0, []⟩, ⟨5, 1, .rw, 0, []⟩, ⟨6, 1, .w1c, 0, []⟩, ⟨8, 4, .ro, 0xf, []⟩]⟩,
  -- QUE_Q_CFG (R400)
  ⟨0x110104, [(64, 0x20)], false, .queCfg, [⟨0, 4, .rw, 9, []⟩, ⟨8, 9, .rw, 0, []⟩, ⟨24, 6, .rw, 0xa, [(0, 40)]⟩]⟩,
  -- QUE_Q_WM (R408)
  ⟨0x110108, [(64, 0x20)], false, .queWm, [⟨0, 14, .rw, 0x180, []⟩, ⟨14, 1, .rw, 0, []⟩, ⟨16, 14, .rw, 0x80, []⟩, ⟨30, 2, .rw, 0, []⟩]⟩,
  -- QUE_Q_OCC (R408)
  ⟨0x11010C, [(64, 0x20)], false, .none, [⟨0, 14, .ro, 0, []⟩, ⟨15, 1, .ro, 0, []⟩, ⟨16, 14, .ro, 0, []⟩, ⟨31, 1, .wo, 0, []⟩]⟩,
  -- QUE_Q_LOST (R406)
  ⟨0x110110, [(64, 0x20)], false, .none, [⟨0, 32, .ro, 0, []⟩]⟩,
  -- QUE_Q_EMPTY (R405)
  ⟨0x110114, [(64, 0x20)], false, .none, [⟨0, 32, .ro, 0, []⟩]⟩,
  -- QUE_Q_REFUSED (R401)
  ⟨0x110118, [(64, 0x20)], false, .none, [⟨0, 32, .ro, 0, []⟩]⟩
]

/-- Registers of block QUE, part 2. -/
def regsQue1 : List RegRow := [
  -- QUE_Q_INTEG (R410)
  ⟨0x11011C, [(64, 0x20)], false, .none, [⟨0, 16, .ro, 0, []⟩, ⟨16, 16, .ro, 0, []⟩]⟩
]

/-- Registers of block QUE. -/
def regsQue : List RegRow := regsQue0 ++ regsQue1

/-- Registers of block EVC, part 1. -/
def regsEvc0 : List RegRow := [
  -- EVC_ROUTE (R432)
  ⟨0x120000, [(128, 0x4)], false, .none, [⟨0, 5, .rw, 0, []⟩, ⟨5, 1, .rw, 0, []⟩, ⟨8, 5, .rw, 0, []⟩, ⟨13, 1, .rw, 0, []⟩, ⟨16, 1, .rw, 0, []⟩, ⟨17, 1, .rw, 0, []⟩]⟩,
  -- EVC_PEND (R432)
  ⟨0x120200, [(3, 0x10), (4, 0x4)], false, .none, [⟨0, 32, .w1c, 0, []⟩]⟩,
  -- EVC_MASK (R433)
  ⟨0x120240, [(3, 0x10), (4, 0x4)], false, .none, [⟨0, 32, .rw, 0, []⟩]⟩,
  -- EVC_DOORBELL (R436)
  ⟨0x120300, [], false, .none, [⟨0, 32, .wo, 0, []⟩]⟩,
  -- EVC_DOORBELL_LAST (R436)
  ⟨0x120304, [], false, .none, [⟨0, 32, .ro, 0, []⟩]⟩,
  -- EVC_DOORBELL_SRC (R436)
  ⟨0x120308, [], false, .none, [⟨0, 5, .ro, 0, []⟩]⟩,
  -- EVC_MSIX (R433)
  ⟨0x128000, [(32, 0x10), (4, 0x4)], true, .none, [⟨0, 32, .rw, 0, []⟩]⟩,
  -- EVC_PBA (R433)
  ⟨0x128800, [(2, 0x4)], true, .none, [⟨0, 32, .ro, 0, []⟩]⟩
]

/-- Registers of block EVC. -/
def regsEvc : List RegRow := regsEvc0

/-- Registers of block DIO, part 1. -/
def regsDio0 : List RegRow := [
  -- DIO_DIN_FILT (R75)
  ⟨0x130100, [], false, .none, [⟨0, 8, .rw, 0, []⟩]⟩,
  -- DIO_DIN_LEVEL (R75)
  ⟨0x130104, [], false, .none, [⟨0, 16, .ro, 0, []⟩, ⟨16, 16, .ro, 0, []⟩]⟩,
  -- DIO_DIN_TIME_LO (R75)
  ⟨0x130140, [(16, 0x8)], false, .none, [⟨0, 32, .ro, 0, []⟩]⟩,
  -- DIO_DIN_TIME_HI (R75)
  ⟨0x130144, [(16, 0x8)], false, .none, [⟨0, 32, .ro, 0, []⟩]⟩,
  -- DIO_DOUT_CMD (R251)
  ⟨0x130200, [], false, .none, [⟨0, 16, .ro, 0, []⟩]⟩,
  -- DIO_DOUT_MON (R482)
  ⟨0x130204, [], false, .none, [⟨0, 16, .ro, 0, []⟩]⟩,
  -- DIO_DOUT_FAULT (R482)
  ⟨0x130208, [], false, .none, [⟨0, 16, .w1c, 0, []⟩]⟩,
  -- DIO_FC_CFG (R408)
  ⟨0x130300, [], false, .none, [⟨0, 4, .rw, 0, []⟩]⟩
]

/-- Registers of block DIO. -/
def regsDio : List RegRow := regsDio0

/-- The rows of the block whose 64 KiB hold the offset (R417); none for another offset. -/
def blockRows (blk : Nat) : List RegRow :=
  match blk with
  | 0 => regsGctl
  | 1 => regsCkp
  | 2 => regsBnd
  | 3 => regsAct
  | 4 => regsTbs
  | 5 => regsEth
  | 6 => regsStr
  | 7 => regsCol
  | 8 => regsFlt
  | 9 => regsAcq
  | 10 => regsSch
  | 11 => regsDet
  | 12 => regsLge
  | 13 => regsSpn
  | 14 => regsEnr
  | 15 => regsEvr
  | 16 => regsCmp
  | 17 => regsQue
  | 18 => regsEvc
  | 19 => regsDio
  | _ => []

/-- The indices of an offset inside a register's arrays, or none where the offset is not one of the register. -/
def dimIndex : List (Nat × Nat) → Nat → Option (List Nat)
  | [], o => if o = 0 then some [] else none
  | (n, s) :: ds, o => if o / s < n then (dimIndex ds (o % s)).map (o / s :: ·) else none

/-- The register row at a BAR0 offset, with the indices; none for an unassigned offset (R6). -/
def findRow (off : Nat) : Option (RegRow × List Nat) :=
  (blockRows (off / 0x10000)).findSome? (fun r =>
    if off < r.base then none else (dimIndex r.dims (off - r.base)).map (fun ix => (r, ix)))

/-- The reset word of a register from its fields. -/
def rowReset (r : RegRow) : Nat := r.fields.foldl (fun a f => a + f.reset * 2 ^ f.lo) 0

/-- Reset values that depend on the index or on the variant: STR_STATE_CNT counts the 8,192 entries as DISABLED,
QUE_Qn_CFG.base is 8n, an MSI-X vector is masked, and CKP_THERM_CFG.trip_c is the variant's maximum Tj (R1). -/
def indexedReset (off : Nat) (ix : List Nat) : Nat :=
  if off = 0x60048 then 0x20000000
  else if off / 0x10000 = 0x11 ∧ off ≠ 0x110000 ∧ 0x110100 ≤ off ∧ off % 0x20 = 4 then 8 * ix.headD 0 * 2 ^ 8
  else if 0x128000 ≤ off ∧ off < 0x128200 ∧ off % 16 = 12 then 1
  else if off = 0x10834 then Config.thermMax
  else 0

/-- The reset value of the register at a BAR0 offset; zero at an unassigned offset. -/
def resetAt (off : Nat) : Word :=
  match findRow off with
  | none => 0
  | some (r, ix) => BitVec.ofNat 32 (rowReset r + indexedReset off ix)

/-- The span of one copy of BAR0 among the keys of the register file: key = offset for a register with one copy,
and (master + 1) × 2^26 + offset for the copy of one master. -/
def masterSpan : Nat := 0x4000000

/-- The reset value at a key of the register file. -/
def resetOf (key : Nat) : Word := resetAt (key % masterSpan)

end Sys2Proof.Machine
end

