-- ==== Sys2Proof/Machine/State.lean ====
section
/-! DEFINITION. The state of the AQ-8192: every register, memory, queue, counter, mode and pin the manual gives it, as
plain data, and the queue of commands that wait. -/
namespace Sys2Proof.Machine

/-- Why the machine stops. Nothing in the manual stops the device, so the type has no constructor and no meaning can
answer a fault. -/
inductive Fault where
  deriving DecidableEq, Repr

/-- Why a command has no meaning. -/
inductive Refusal where
  /-- Raised by an arm of `exec` whose command has not been given its meaning (safe: the run ends there). -/
  | notModelled (mnemonic : String)
  deriving DecidableEq, Repr

/-! ## Chapter 1: quires and headroom -/

/-- One quire (R20): the credits of its producer, its capacity and its highest occupancy. -/
structure Quire where
  credits : Nat := 0
  capacity : Nat := 0
  high : Nat := 0
  deriving DecidableEq, Repr

/-- Headroom and core voltage (R28-R30, R458-R459). -/
structure AvsSt where
  /-- Run of evaluations with the headroom at or above margin + hysteresis. -/
  goodRun : Nat := 0
  /-- The VCORE request of the last completed step, in mV; 0 before the first. -/
  request : Nat := 0
  /-- A step waits for its target: the requested voltage. -/
  stepping : Option Nat := none
  /-- Consecutive failed steps, and the failed step that the next evaluation retries (R459). -/
  failures : Nat := 0
  retry : Option Nat := none
  deriving DecidableEq, Repr

/-! ## Chapter 3: device time -/

/-- A transmit stamp queued for a port (R70): the word of TXQ_ID and the stamp. -/
structure TxStamp where
  id : Nat
  stamp : Nat
  deriving DecidableEq, Repr

/-- A master of the announce protocol seen on a port (R59). -/
structure Foreign where
  port : Nat
  clockId : Nat
  portNumber : Nat
  /-- Device times of its latest Announce messages, newest first. -/
  seen : List Nat := []
  qualified : Bool := false
  /-- The latest Announce body's fields used by the dataset comparison and by R59, R66. -/
  priority1 : Nat := 0
  clockClass : Nat := 0
  accuracy : Nat := 0
  variance : Nat := 0
  priority2 : Nat := 0
  grandmaster : Nat := 0
  steps : Nat := 0
  utcOffset : Nat := 0
  flags : Nat := 0
  /-- The master's Announce interval in ns, and the device time of its last Sync the servo accepted. -/
  interval : Nat := 0
  lastSync : Nat := 0
  deriving DecidableEq, Repr

/-- A running or refused command of TBS_CTRL that waits for the next TBC tick (R55). -/
inductive TimeCmd where
  | set (sec ns : Nat)
  /-- A signed change, in 2^-16 ns: a whole number of ns for ADJ, the servo's offset for a servo step. -/
  | adj (delta : Int)
  deriving DecidableEq, Repr

/-- The selected master (R59): the port it is seen on and its port identity. -/
structure MasterSel where
  port : Nat
  clockId : Nat
  portNumber : Nat
  deriving DecidableEq, Repr

/-- A two-step Sync that waits for its Follow_Up (R61): its port and sequence, the receive stamp and the correction, in
2^-16 ns. -/
structure SyncWait where
  port : Nat
  seq : Nat
  stamp : Int
  corr : Int
  deriving DecidableEq, Repr

/-- The peer-delay exchange of a port (R58, R60): the sequence of the own Pdelay_Req and the elapsed time of the last one, its t1 once
sent, and t2, t4 and the correction of a response that waits for its follow-up; times in 2^-16 ns. -/
structure PdelaySt where
  seq : Nat := 0
  last : Option Nat := none
  t1 : Option Int := none
  t2 : Int := 0
  t4 : Option Int := none
  corr : Int := 0
  deriving DecidableEq, Repr

/-- The time base (R52-R67). -/
structure TimeSt where
  /-- The counter, in 2^-32 ns. -/
  clock : Nat := 0
  /-- Elapsed TBC time in quarter nanoseconds (R64). -/
  elapsed : Nat := 0
  pending : Option TimeCmd := none
  /-- The increment applied at a tick, loaded from the INCR pair (R62). -/
  incr : Nat := 0x400000000
  /-- The time captured for each master by R54. -/
  shadows : List (Nat × Nat) := []
  /-- Servo: first_update of R61, the integral and the frequency in 2^-4 ppb. -/
  firstUpdate : Bool := true
  integ : Int := 0
  freq : Int := 0
  /-- Last offset, in 2^-16 ns (R61, R65). -/
  offset : Int := 0
  /-- Consecutive updates below, and at or above, 100 ns (R63). -/
  goodRun : Nat := 0
  badRun : Nat := 0
  /-- The counter was stepped after COAST cleared (R63). -/
  stepped : Bool := false
  /-- Elapsed time at which HOLDOVER was entered, and at which LOCKED was left. -/
  holdFrom : Nat := 0
  lockedLeft : Option Nat := none
  foreign : List Foreign := []
  selected : Option MasterSel := none
  /-- A new master was selected in HOLDOVER. -/
  newMaster : Bool := false
  waitSync : Option SyncWait := none
  pdelay : List (Nat × PdelaySt) := []
  /-- Pdelay_Req that have been answered and whose follow-up is to be sent: port, sequence, requester and correction. -/
  answered : List (Nat × Nat × List Byte × Int) := []
  /-- Ports whose mean link delay has been loaded. -/
  delayValid : List Nat := []
  /-- Mean link delays in 2^-16 ns. -/
  delays : List (Nat × Int) := []
  txq : List (Nat × List TxStamp) := []
  /-- Time-trigger outputs: next instant, and the elapsed time at which the pulse ends while it is active. -/
  ttoNext : List (Nat × Nat) := []
  ttoPulse : List (Nat × Nat) := []
  /-- When the pending leap was set (R67). -/
  leapSet : Nat := 0
  /-- When the last leap was applied (R67), for leap_occurred. -/
  leapAt : Option Nat := none
  /-- What TBS_TQ.code, the time state and TBS_UTC were, newest first: the device time from which, and the three values. -/
  past : List (Nat × Nat × Nat × Nat) := []
  deriving DecidableEq, Repr

/-! ## Chapter 16: logs -/

/-- The event logs (R369-R375). -/
structure LogSt where
  /-- Grid records held, oldest first, each 32 bytes. -/
  grid : List (List (BitVec 8)) := []
  legal : List (List (BitVec 8)) := []
  /-- Legal records not yet written to NVM, oldest first. -/
  legalQueue : List (List (BitVec 8)) := []
  /-- The sequence number of the next legal record. -/
  legalSeq : Nat := 0
  deriving DecidableEq, Repr

/-! ## Chapter 18: host queues -/

/-- A word of the pool: the data written and the number of flipped bits its check bits see (R410-R412). -/
structure QWord where
  val : BitVec 64
  flips : Nat := 0
  deriving DecidableEq, Repr

/-- A committed packet: the words not yet popped, and its original length. -/
structure QPacket where
  words : List QWord
  total : Nat
  deriving DecidableEq, Repr

/-- A stalled pop (R405): the master, whether it asked for both halves at once, and the elapsed time at which its stall limit ends. -/
structure QStall where
  master : Nat
  wide : Bool
  due : Nat
  deriving DecidableEq, Repr

/-- The content of one host queue (R400-R412). -/
structure QueueSt where
  packets : List QPacket := []
  /-- Device packets being written: the words reserved for each. -/
  writing : List (List (BitVec 64)) := []
  stalled : List QStall := []
  lostBefore : Bool := false
  /-- The error QUE_TEST injects into the next committed word: 0 none. -/
  inject : Nat := 0
  deriving DecidableEq, Repr

/-- What a master has staged (R403), and the low word of its next push. -/
structure Staging where
  queue : Nat := 0
  words : List (BitVec 64) := []
  low : Nat := 0
  err : Bool := false
  deriving DecidableEq, Repr

/-! ## Chapter 19: hosts and events -/

/-- The answer of the last read of a master: the data and how the read ended. -/
structure ReadAns where
  data : Nat := 0
  /-- Completer Abort on PCIe, the violation bit on SPI (R430). -/
  violation : Bool := false
  /-- The poisoned bit (R410). -/
  poison : Bool := false
  /-- The read stalls (R405). -/
  stalled : Bool := false
  deriving DecidableEq, Repr

/-- The configuration space of an endpoint (R414-R416, R419): its identification, the bases of its three 64-bit memory BARs, the payload
and read-request limits in force (code c for 128 × 2^c bytes), MSI-X enable, and the AER uncorrectable error status (bit 15 Completer Abort)
with its first error pointer. -/
structure PcieCfg where
  vendor : Nat := 0
  device : Nat := 0x8192
  classCode : Nat := 0x118000
  subVendor : Nat := 0
  subsystem : Nat := 0
  bars : List Nat := [0, 0, 0]
  payload : Nat := 0
  readRequest : Nat := 2
  msixEnable : Bool := false
  aerStatus : Nat := 0
  aerFirst : Nat := 0
  deriving DecidableEq, Repr

/-- Host links, events and DMA (R414-R436, R496). -/
structure HostSt where
  /-- Which endpoints have their link up (R419): bit e. -/
  linkUp : Nat := 0
  /-- The last read answer of each master. -/
  reads : List (Nat × ReadAns) := []
  /-- The last MISO response of MG (R423). -/
  miso : List (BitVec 8) := []
  /-- The aligned millisecond in which a merged source last took effect (R496). -/
  evLast : List (Nat × Nat) := []
  /-- Merged raises that wait: source and the instant at which they take effect. -/
  evMerged : List (Nat × Nat) := []
  /-- The latch of R435, one bit per source. -/
  leLatch : Nat := 0
  /-- DMA channels that run: the address of the descriptor to run next. -/
  dma : List (Nat × Nat) := []
  /-- The channel that runs its descriptor, of each endpoint where one does. -/
  dmaCur : List (Nat × Nat) := []
  /-- The configuration spaces of HA and HB. -/
  cfgA : PcieCfg := {}
  cfgB : PcieCfg := {}
  deriving DecidableEq, Repr

/-! ## Chapter 21: non-volatile memory -/

/-- The non-volatile memory, area by area (map of chapter 21). -/
structure NvmSt where
  /-- The bytes of the Binding slots A and B; empty when erased. -/
  slotA : List (BitVec 8) := []
  slotB : List (BitVec 8) := []
  /-- Persistent settings: BAR0 offset and value, in order. -/
  settings : List (Nat × Nat) := []
  /-- Identity: PCIe identifiers, the owner key (64 bytes, or none), BND_MINVER and the seal key. -/
  vendor : Nat := 0
  subVendor : Nat := 0
  subsystem : Nat := 0
  ownerKey : List (BitVec 8) := []
  minver : Nat := 0
  sealKey : Nat := 0
  /-- Calibration: the floor counts of the canary rings (R28); empty while absent. -/
  floor : List Nat := []
  /-- Counters: power cycles and the pending legal discard count. -/
  cycles : Nat := 0
  legalDiscard : Nat := 0
  /-- The legal-log area: its valid records in the order of their writes, and the number of torn slots. -/
  legal : List (List (BitVec 8)) := []
  torn : Nat := 0
  /-- The save ring: by slot 0-63 and spare 64-95 the bytes of a save (R362, R469). -/
  saves : List (Nat × List (BitVec 8)) := []
  /-- The physical slots of the save ring in rotation order, and the spares taken (R469). -/
  ring : List Nat := List.range 64
  spares : Nat := 0
  deriving DecidableEq, Repr

/-! ## Chapter 14: Ethernet -/

/-- What kind of frame waits at a MAC (R338). -/
inductive TxKind where
  /-- Output stream `os` (R132). -/
  | stream (os : Nat)
  | alarm
  | goose
  | ptp
  | spineB
  /-- A host frame of ring `h`: the first descriptor's index, their number, and the ts, irq and stamp-queue flags. -/
  | host (h first count : Nat) (ts irq event : Bool)
  deriving DecidableEq, Repr

/-- A frame waiting at, or in transmission on, a port: its bytes from the destination address to before the FCS. -/
structure TxItem where
  kind : TxKind
  bytes : List (BitVec 8)
  express : Bool := false
  preempted : Bool := false
  /-- cut_thr as it stood when the frame started, and the bytes of a host frame that its host gives (R350). -/
  thr : Nat := 36
  hostLen : Nat := 0
  /-- Of an output stream's frame: the elapsed time by which it starts, time held by PAUSE apart, and the port's held time when it was
  handed over (R138). -/
  due : Nat := 0
  heldAt : Nat := 0
  deriving DecidableEq, Repr

/-- A receive ring (R344): the four indices, the slots of each unclaimed complete frame, and lost_before pending. -/
structure RxRing where
  rel : Nat := 0
  take : Nat := 0
  tail : Nat := 0
  /-- W, the device's write position. -/
  w : Nat := 0
  frames : List Nat := []
  lost : Bool := false
  deriving DecidableEq, Repr

/-- One port. -/
structure EthPort where
  express : List TxItem := []
  preemptable : List TxItem := []
  current : Option TxItem := none
  suspended : Option TxItem := none
  /-- The end and the start of the PAUSE hold that runs, in elapsed time, a hold in ns that starts after the frame in transmission, and the
  quarter ns held so far (R342). -/
  holdEnd : Option Nat := none
  holdFrom : Nat := 0
  holdNext : Option Nat := none
  held : Nat := 0
  /-- Verify attempts made (R340), and the elapsed time at which the next falls due. -/
  attempts : Nat := 0
  verifyDue : Option Nat := none
  ringA : RxRing := {}
  ringB : RxRing := {}
  deriving DecidableEq, Repr

/-- A received frame handed to a fabric block (R336): its port, the corrected receive stamp in 2^-16 ns, the bytes
without tag and FCS, the bytes as received, and its tag. -/
structure RxFrame where
  port : Nat
  stamp : Int
  bytes : List (BitVec 8)
  raw : List (BitVec 8)
  tci : Nat := 0
  tagged : Bool := false
  locked : Bool := true
  /-- TBS_UTC.utc_offset in force at its arrival (R89). -/
  utc : Int := 0
  deriving DecidableEq, Repr

/-- Ethernet: the ports, and the frames handed over and not yet taken by their block. -/
structure EthSt where
  ports : List (Nat × EthPort) := []
  ptpIn : List RxFrame := []
  streamIn : List RxFrame := []
  svIn : List RxFrame := []
  gooseIn : List RxFrame := []
  spineIn : List RxFrame := []
  deriving DecidableEq, Repr

/-! ## Chapter 2: the Binding -/

/-- What the Binding machinery holds besides its registers (R42-R51). -/
structure BndSt where
  /-- The staged bytes of a recovery load, lowest address first, and whether they are intact (R44). -/
  staging : List (BitVec 8) := []
  staged : Bool := false
  /-- The image being verified or built, or in force. -/
  image : List (BitVec 8) := []
  /-- A VERIFY or REBIND runs: the slot, and whether it is a REBIND. -/
  verifying : Option (Nat × Bool) := none
  /-- A verification runs whose good end starts a build (state VERIFYING): slot A or B as 1 or 2 (R42, R51), or 3, the staged image of a
  recovery load (R44). -/
  loading : Option Nat := none
  /-- lock_timeout_ms of the Binding in UNLOCKED, and lock_deferred. -/
  deferred : Bool := false
  timeoutMs : Nat := 0
  /-- Elapsed time at which UNLOCKED was entered; the source of the image being built: 1 slot A, 2 slot B, 3 recovery. -/
  unlockedAt : Nat := 0
  target : Nat := 0
  /-- From teardown to the end of the build of a re-binding (R50): received fabric frames are dropped. -/
  rebuild : Bool := false
  /-- A re-binding waits for the end of the next logic cycle (R49 step 3), or for its save (step 4). -/
  releasing : Bool := false
  saving : Bool := false
  /-- A re-binding is between its acceptance and its restart (steps 1-8). -/
  rebinding : Bool := false
  /-- Its restart (step 8) has been applied. -/
  restarted : Bool := false
  /-- It has ended in RECOVERY without one (R51): the restart follows the next recovery load. -/
  broken : Bool := false
  /-- Kernel IDs of the Binding's KERNEL sections (R36). -/
  kernels : List Nat := []
  deriving DecidableEq, Repr

/-! ## Chapter 4: measurement streams -/

/-- A stream table entry: its 128 bytes (R78). -/
structure Ent where
  bytes : List (BitVec 8) := List.replicate 128 0
  deriving DecidableEq, Repr

/-- What the device keeps of a source besides its working copy (R96, R101). -/
structure SrcSt where
  /-- 0 DISABLED, 1 ACTIVE, 2 LATE, 3 STALLED, 4 REQUALIFYING, 5 CFG_STALE. -/
  state : Nat := 0
  requal : Nat := 0
  cause : Nat := 0
  flags : Nat := 0
  /-- The twelve counters of R101. -/
  cnt : List Nat := List.replicate 12 0
  /-- Time-stamp and arrival of the last good frame; arrival of the last valid frame. -/
  ts : Nat := 0
  arr : Nat := 0
  lastValid : Nat := 0
  /-- stall_ms in force: a new policy applies from the next frame (R82). -/
  stall : Nat := 0
  /-- STAT bit 10 of the previous valid frame. -/
  stat10 : Bool := false
  /-- Consecutive good frames above, and at or below, late_ms. -/
  slow : Nat := 0
  fast : Nat := 0
  /-- The time-stamp of the previous good on-grid frame (R110). -/
  lastGrid : Option Nat := none
  /-- The accepted samples (R94), as runs of absolute indices from first to last, the newest run first. -/
  svRuns : List (Nat × Nat) := []
  deriving DecidableEq, Repr

/-- The command of STR_CMD that runs (R495): 1 COMMIT, 2 CLEAR_CNT, 3 NOTE_CFGCNT, its entry, its result code, the copy
that was checked, and whether it has taken effect. -/
structure StrCmdSt where
  op : Nat
  index : Nat
  code : Nat := 0
  ent : Ent := {}
  applied : Bool := false
  deriving DecidableEq, Repr

/-- The stream table besides its window (R77-R101). -/
structure StrSt where
  working : List (Nat × Ent) := []
  src : List (Nat × SrcSt) := []
  cmd : Option StrCmdSt := none
  /-- The conditions of sources 36-40 met since the last silence check, bit k for source 36 + k (R102). -/
  evs : Nat := 0
  deriving DecidableEq, Repr

/-- A good frame handed to the Collator (R86, R149): its source, time-stamp, arrival stamp, port, status fields and the slots
of the source in 64-bit words, low half first. -/
structure GoodFrame where
  src : Nat
  t : Nat
  arr : Nat
  port : Nat := 0
  flags : Nat := 0
  tq : Nat := 0
  unlocked : Nat := 0
  trigger : Nat := 0
  leap : Nat := 0
  /-- A channel was marked missing (R111). -/
  part : Bool := false
  slots : List Nat := []
  deriving DecidableEq, Repr

/-- A sample handed to a filter lane (R92-R94, R149): its group, absolute index, time, the lowest smpSynch, the eight values,
and by channel the missing and questionable bits; `test` where it carries TEST. -/
structure Sample where
  group : Nat
  index : Nat
  time : Int
  sync : Nat
  vals : List Int
  missing : Nat := 0
  quest : Nat := 0
  test : Bool := false
  /-- Arrival stamp of the frame. -/
  arr : Nat := 0
  deriving DecidableEq, Repr

/-! ## Chapter 5: the Collator -/

/-- A frame placed in a gathering (R130). -/
structure Placed where
  src : Nat
  order : Nat
  flags : Nat
  tq : Nat
  unlocked : Nat
  trigger : Nat
  leap : Nat
  part : Bool
  amended : Bool
  t : Nat
  arr : Nat
  port : Nat
  latency : Nat
  deriving DecidableEq, Repr

/-- A reader's view of a gathering (R113-R116): 0 OPEN, 1 PROVISIONAL, 2 CLOSED, and the arrived value of its last notice. -/
structure View where
  reader : Nat
  state : Nat := 0
  arrived : Option Nat := none
  deriving DecidableEq, Repr

/-- A held gathering (R117-R130). -/
structure Gathering where
  k : Nat
  g : Nat
  due : List Nat := []
  placed : List Placed := []
  views : List View := []
  step : Bool := false
  forced : Bool := false
  memLost : Bool := false
  disabled : Bool := false
  amendments : Nat := 0
  arrivedFirst : Nat := 0
  expectedFirst : List Nat := []
  firstClose : Nat := 0
  closedMask : Nat := 0
  provMask : Nat := 0
  /-- Device time at FINAL; none before. -/
  finalAt : Option Nat := none
  deriving DecidableEq, Repr

/-- A notice on its way to a reader (R116, R118). -/
structure Notice where
  grid : Nat
  k : Nat
  g : Nat
  arrived : Nat
  /-- 0 PROVISIONAL, 1 CLOSED, 2 FINAL. -/
  kind : Nat
  cause : Nat
  memLost : Bool := false
  /-- Device time and elapsed time at which it was made. -/
  made : Nat := 0
  tick : Nat := 0
  deriving DecidableEq, Repr

/-- What a grid holds besides its registers: the index of the next instant to open, and its held gatherings in order of
opening. -/
structure GridSt where
  next : Nat := 0
  held : List Gathering := []
  /-- Retired gatherings whose ring position has not been opened again: their headers still stand there (R168). -/
  retired : List Gathering := []
  deriving DecidableEq, Repr

/-- What a reader holds: when it entered ON, its notices, the instants of the held gatherings it has composed, and the channel
counts latched for each block at its enable (R136): n_ph, n_an, n_dig. -/
structure ReaderSt where
  onAt : Nat := 0
  notices : List Notice := []
  composed : List Nat := []
  /-- The latest notice the reader has received (R249). -/
  last : Option Notice := none
  latched : List (List Nat) := []
  /-- The blocks whose channel counts a COMMIT has changed since (R136). -/
  recount : List Nat := []
  deriving DecidableEq, Repr

/-- The Collator (R103-R139). -/
structure ColSt where
  inbox : List GoodFrame := []
  grids : List (Nat × GridSt) := []
  readers : List (Nat × ReaderSt) := []
  /-- FINAL gatherings of archived grids that wait for the archive, as notices (R396). -/
  archive : List Notice := []
  /-- FINAL gatherings told to DET: grid, instant, arrived_final and the sources present (R120). -/
  finals : List Notice := []
  deriving DecidableEq, Repr

/-! ## Chapter 6: the filter chain -/

/-- A swap request (R153, R155): its target bank and fade length. -/
structure SwapReq where
  bank : Nat
  fade : Nat
  deriving DecidableEq, Repr

/-- A running fade (R154): its length, and the outputs computed so far. -/
structure FadeSt where
  len : Nat
  pos : Nat := 0
  deriving DecidableEq, Repr

/-- A complex pair of 32-bit integers between stages. -/
structure CInt where
  re : Int := 0
  im : Int := 0
  deriving DecidableEq, Repr

/-- The delay lines of a chain, newest first: rank window, stage-1 and stage-2 histories. -/
structure ChainSt where
  rank : List Int := []
  h1 : List CInt := []
  h2 : List CInt := []
  deriving DecidableEq, Repr

/-- An envelope value (R162): the time of its centre, the value, and whether it is neither UNSETTLED nor missing. -/
structure EnvV where
  time : Int
  e : Nat
  good : Bool
  deriving DecidableEq, Repr

/-- The second that the sub-synchronous monitor fills (R162): its number, Σ of the squared numerators of b, Σ e, the count,
whether it is spoiled, and the threshold and persistence in force in it. -/
structure SsbSt where
  sec : Int := 0
  sumB : Nat := 0
  sumE : Nat := 0
  count : Nat := 0
  spoiled : Bool := true
  thr : Nat := 0
  persist : Nat := 0
  deriving DecidableEq, Repr

/-- A channel of a group: its chains under the active bank and under the new bank of a fade, its gap state (R157), and its
detectors (R160-R162). -/
structure ChanSt where
  a : ChainSt := {}
  b : ChainSt := {}
  /-- The last accepted value since the last reset. -/
  last : Option Int := none
  missRun : Nat := 0
  /-- Outputs still to be marked UNSETTLED (R156). -/
  unsettled : Nat := 0
  /-- Demodulated samples of the last cycle, newest first (R160). -/
  demod : List CInt := []
  /-- The open cycle window: rank outputs present, Σ r², max |r|. -/
  winCount : Nat := 0
  winSq : Nat := 0
  winMax : Nat := 0
  env : List EnvV := []
  ssb : Option SsbSt := none
  alarm : Bool := false
  run : Nat := 0
  deriving DecidableEq, Repr

/-- The marks of a processed sample index of a group: the rate it is counted at, its time, smpSynch, TEST, and by channel the filled,
missing and questionable bits. A mark from before a reset is cut: it still tells the time and the index. -/
structure Mark where
  index : Nat
  rate : Nat
  cut : Bool := false
  time : Int
  sync : Nat
  test : Bool
  filled : Nat
  gone : Nat
  quest : Nat
  deriving DecidableEq, Repr

/-- A computed output of a group (R146, R148): the time of its centre, the ten phasors, the missing and unsettled bits (channels
0-7, then I1 and V1), and what the flags of R158 need. -/
structure PhasorOut where
  time : Int
  ph : List (Nat × Nat)
  miss : Nat
  uns : Nat
  interp : Nat
  quest : Nat
  test : Bool
  sync : Nat
  fade : Bool
  sat : Bool
  deriving DecidableEq, Repr

/-- A fast emission (R160): its group and stamp, Xf, vs, ff, rf and the status bits of FLT_FASTg. -/
structure FastOut where
  group : Nat
  time : Nat
  xr : Nat
  xi : Nat
  vs : Nat
  ff : Nat
  rf : Nat
  stat : Nat
  miss : Bool
  deriving DecidableEq, Repr

/-- A channel group (R140-R162). -/
structure FltGroup where
  chans : List ChanSt := List.replicate 8 {}
  /-- Marks of processed samples, newest first, as far back as an output's span reaches. -/
  marks : List Mark := []
  fade : Option FadeSt := none
  held : Option SwapReq := none
  /-- A saturation since the last output (R142). -/
  sat : Bool := false
  /-- The last phasor delivered or given up, and the one that waits for its successor. -/
  prev : Option PhasorOut := none
  wait : Option PhasorOut := none
  /-- The lowest contributing smpSynch of the last output. -/
  lastSync : Nat := 2
  /-- The open cycle window. -/
  window : Option Nat := none
  /-- Fast emissions, newest first, and their number since the last reset. -/
  fast : List FastOut := []
  fastRun : Nat := 0
  deriving DecidableEq, Repr

/-- The filter chain: samples accepted and not yet processed, and the groups. -/
structure FltSt where
  queue : List Sample := []
  groups : List (Nat × FltGroup) := []
  /-- By group, the device second of the latest write of FLT_GRPg_SSB_THR or _SSB_PER, with the values in force up to its end (R162). -/
  ssb : List (Nat × (Nat × Nat × Nat)) := []
  deriving DecidableEq, Repr

/-! ## Chapter 9: the alarm decisions of DET -/

/-- A result on its way to DET (R205, R225), or the word that a task re-initialised its instance (R234, `signal`). -/
structure DetResult where
  inst : Nat
  cls : Nat
  bits : Nat := 0
  rerun : Bool := false
  signal : Bool := false
  restruct : Bool := false
  /-- The gathering instant g; the ready time of ISL_LOCAL; the INPUT start time of a logic alarm point. -/
  instant : Nat
  isLocal : Bool := false
  grid : Nat := 0
  arrived : Nat := 0
  prov : Bool := false
  final : Bool := false
  memLost : Bool := false
  /-- The first value field of the first record that names a point, by point. -/
  vals : List (Nat × Nat) := []
  /-- The records that follow the header (R205, R225); their number is header byte 1. -/
  recs : List (List (BitVec 8)) := []
  /-- More than seven entries changed (R225): header byte 5 bit 0. -/
  more : Bool := false
  deriving DecidableEq, Repr

/-- The latest result DET has received for an instance and a gathering (R232). -/
structure ResNote where
  inst : Nat
  grid : Nat
  g : Nat
  arrived : Nat
  eval : Bool
  bits : Nat
  deriving DecidableEq, Repr

/-- The arrived_final given for a gathering (R232). -/
structure FinalNote where
  grid : Nat
  g : Nat
  arrived : Nat
  deriving DecidableEq, Repr

/-- A pending point (R232, R233): `current` while no later set of the point has occurred; `until_` is the end of its wait for
a re-run. -/
structure PendPoint where
  point : Nat
  inst : Nat
  grid : Nat
  g : Nat
  cls : Nat
  memLost : Bool
  current : Bool := true
  until_ : Option Nat := none
  deriving DecidableEq, Repr

/-- Repeats of a notice frame that are still to be sent (R236). -/
structure NoticeRep where
  port : Nat
  bytes : List (BitVec 8)
  left : Nat
  due : Nat
  deriving DecidableEq, Repr

/-- DET besides its registers (R227-R237). -/
structure DetSt where
  inbox : List DetResult := []
  pend : List PendPoint := []
  notes : List ResNote := []
  finals : List FinalNote := []
  /-- By instance: the instant of its latest result, and whether it is a ready time of ISL_LOCAL. -/
  last : List (Nat × (Nat × Bool)) := []
  frameSeq : Nat := 0
  repeats : List NoticeRep := []
  deriving DecidableEq, Repr

/-! ## Chapter 7: engines and their scheduler -/

/-- What creates tasks (R172): a notice to a detector group, or a fast emission of a filter group; with its device time and its
elapsed time. -/
inductive Trigger where
  | notice (group : Nat) (nt : Notice) (time tick : Nat)
  | fast (out : FastOut) (time tick : Nat)
  deriving DecidableEq, Repr

/-- A task (R175): its descriptor, its ready time in device time and in elapsed time, its number in order of creation, and what
staging and the start add. -/
structure Task where
  kernel : Nat
  prio : Nat
  host : Bool := false
  recDone : Bool := false
  noGath : Bool := false
  inst : Nat
  affinity : Nat
  ref : Nat := 0
  deadline : Nat
  paramOff : Nat := 0
  paramLen : Nat := 0
  ready : Nat
  readyTick : Nat := 0
  no : Nat := 0
  fast : Option FastOut := none
  stateReset : Bool := false
  staged : Bool := false
  params : List (BitVec 8) := []
  start : Nat := 0
  startTick : Nat := 0
  /-- run_limit_ms, rec_en and queue of SCH_CFG as they stood at the start (R181, R183). -/
  runLimit : Nat := 0
  recEn : Bool := false
  recQueue : Nat := 0
  deriving DecidableEq, Repr

/-- An engine besides its registers: its two task slots, a FABRIC failure (R181), and the statistics of the open window (R184):
tasks started, waiting times in ns, busy time in quarter ns up to `mark`, tasks done, the histogram. -/
structure EngSt where
  prefetch : Option Task := none
  running : Option Task := none
  /-- Local memory (R167): the task frame and parameter block at 0x0_0000, the staging frame at 0x0_1000, and the working memory at
  0x0_2000, whose bytes are `Config.workByte` of this number: open anew after each task and each scrub (log entry 184). -/
  frame : List (BitVec 8) := []
  stage : List (BitVec 8) := []
  work : Nat := 0
  fabric : Bool := false
  started : Nat := 0
  waitSum : Nat := 0
  waitMax : Nat := 0
  busy : Nat := 0
  mark : Nat := 0
  done : Nat := 0
  hist : List Nat := List.replicate 16 0
  deriving DecidableEq, Repr

/-- An input signal of ODA and RDA (R192): its values since its last reset, newest first, which of them are held, its last value,
its run of missing values, and how many inputs were taken since the reset. -/
structure SigSt where
  xs : List Nat := []
  held : List Bool := []
  last : Option Nat := none
  miss : Nat := 0
  since : Nat := 0
  deriving DecidableEq, Repr

/-- A decimated sample (R193). -/
structure Samp where
  y : Nat
  valid : Bool
  prov : Bool
  deriving DecidableEq, Repr

/-- Decimation (R191-R193): the last processed instant, the signals, the prov marks of the latest instants, and the decimated
samples of all signals, newest first. -/
structure DecSt where
  crc : Nat := 0
  lastK : Option Nat := none
  /-- The last processed instant as device time: an index counts at one rate only (R187). -/
  lastG : Option Nat := none
  sigs : List SigSt := []
  provs : List Bool := []
  samples : List (List Samp) := []
  deriving DecidableEq, Repr

/-- A band of ODA (R197-R201): its energies, newest first, its run counts, its alarm and the peak bins of its windows. -/
structure OdaBand where
  hist : List Nat := []
  exRun : Nat := 0
  quietRun : Nat := 0
  alarm : Bool := false
  kps : List Nat := []
  deriving DecidableEq, Repr

/-- The state of an ODA instance; `wins` holds, newest window first and by signal, the scaled spectra of each band of a valid
signal (R202). -/
structure OdaSt where
  dec : DecSt := {}
  bands : List OdaBand := []
  wins : List (List (Option (List (List (Nat × Nat))))) := []
  restruct : Bool := false
  deriving DecidableEq, Repr

/-- The state of an RDA instance (R206): 0 IDLE, 1 COLLECTING, 2 HOLDOFF. -/
structure RdaSt where
  dec : DecSt := {}
  mode : Nat := 0
  trig : Nat := 0
  step : Bool := false
  ext : Bool := false
  ignored : Bool := false
  /-- The instant time at which HOLDOFF ends. -/
  holdEnd : Nat := 0
  extLast : Nat := 0
  extPend : Bool := false
  alarm : Bool := false
  restruct : Bool := false
  deriving DecidableEq, Repr

/-- A check, pair or local measure (R216, R218, R220): `prev` is rel_prev and its instant index. -/
structure Check where
  crc : Nat := 0
  active : Bool := false
  run : Nat := 0
  resetFlag : Bool := false
  prev : Option ((Nat × Nat) × Nat) := none
  /-- The point of the entry and the value bytes of a record without a measurement, as last evaluated. -/
  point : Nat := 0
  blank : List (BitVec 8) := []
  deriving DecidableEq, Repr

/-- The state of an ISL_AREA, LIM_EVAL or ISL_LOCAL instance: its structural CRC, the last instant it evaluated, its entries. -/
structure EvalSt where
  crc : Nat := 0
  lastG : Option Nat := none
  entries : List Check := []
  deriving DecidableEq, Repr

/-- The private state of the instances, by instance, and the ranges of DRAM it occupies (R190, R216). -/
structure KernSt where
  oda : List (Nat × OdaSt) := []
  rda : List (Nat × RdaSt) := []
  eval : List (Nat × EvalSt) := []
  areas : List (Nat × (Nat × Nat)) := []
  deriving DecidableEq, Repr

/-- The scheduler besides its registers (R172-R184). -/
structure SchSt where
  inbox : List Trigger := []
  /-- Ready lists by level, in list order. -/
  ready : List (Nat × List Task) := []
  engines : List (Nat × EngSt) := []
  /-- Instances whose state_reset is pending (R174). -/
  resets : List Nat := []
  next : Nat := 0
  /-- Start of the open statistics window: elapsed time and second. -/
  winTick : Nat := 0
  winSec : Nat := 0
  deriving DecidableEq, Repr

/-! ## Chapters 10 and 11: the logic engine -/

/-- An applied force (R281, R282): the symbol's ID, type and kind, its address and bit, and the value. -/
structure Force where
  id : Nat
  ty : Nat
  kind : Nat
  addr : Nat
  bit : Nat
  value : Nat
  deriving DecidableEq, Repr

/-- A GOOSE subscription (R253, R254): the image fields, and the end of its validity. -/
structure SubSt where
  stNum : Nat := 0
  sqNum : Nat := 0
  arrival : Nat := 0
  valid : Bool := false
  stale : Bool := false
  test : Bool := false
  sim : Bool := false
  nds : Bool := false
  mismatch : Bool := false
  vals : List Nat := []
  expiry : Option Nat := none
  deriving DecidableEq, Repr

/-- A GOOSE publication (R255): whether a state has begun since the start, the members of the last state, its device time and the
utc_offset in force then, the retransmissions made, and the next one's device time. -/
structure PubSt where
  begun : Bool := false
  members : List Nat := []
  t : Nat := 0
  utc : Int := 0
  n : Nat := 0
  due : Option Nat := none
  deriving DecidableEq, Repr

/-- The logic engine besides its registers and its data window (R243-R283). -/
structure LeSt where
  /-- The start that runs, and the one that waits in STOPPING: warm or cold; whether the start came from HALTED. -/
  warmStart : Bool := false
  pendWarm : Bool := false
  fromHalt : Bool := false
  /-- The next cycle is the first after a start; the last start was warm and was not refused. -/
  first : Bool := false
  wasWarm : Bool := false
  /-- The cycle number of the input image, and the start of the previous INPUT: elapsed time. -/
  cycle : Nat := 0
  startTick : Option Nat := none
  /-- Device time at the start of the last INPUT. -/
  now : Nat := 0
  /-- The input image and the output image, as bytes by offset. -/
  input : List Host.Cell := []
  output : List Host.Cell := []
  /-- DIN edges since the previous snapshot: rising and falling bits, and the count of each input. -/
  rise : Nat := 0
  fall : Nat := 0
  edges : List Nat := List.replicate 16 0
  forces : List (Nat × Force) := []
  /-- Force entries written and not yet applied, with the value staged then. -/
  forcePend : List (Nat × (Nat × Nat)) := []
  /-- The retained area as copied at the end of the last OUTPUT, with retain_id, retain_len and prog_id (R260). -/
  retained : List (BitVec 8) := []
  retainId : Nat := 0
  retainLen : Nat := 0
  progId : Nat := 0
  /-- The bank that VERIFY verifies. -/
  verifying : Option Nat := none
  /-- Logic-driven outputs are delivered: an OUTPUT has ended since the start and since the take (R299). -/
  outOk : Bool := false
  /-- Levels of the DOUT balls, and the device time of their last 50 µs edge. -/
  dout : Nat := 0
  doutAt : Option Nat := none
  /-- By DOUT the elapsed time of the last rising edge that reached its ball (R482). -/
  doutRise : List (Nat × Nat) := []
  /-- The DOUTs expected to toggle, and by DOUT whose monitor differs from that the elapsed time since when it does (R482). -/
  doutWas : Nat := 0
  doutDiff : List (Nat × Nat) := []
  /-- The logic alarm points as last delivered (R252). -/
  alm : Nat := 0
  /-- Acquisition trigger bits as delivered. -/
  trig : Nat := 0
  subs : List (Nat × SubSt) := []
  pubs : List (Nat × PubSt) := []
  deriving DecidableEq, Repr

/-! ## Chapter 12: paired operation -/

/-- A message on its way out of Spine-A (R287): its type, flag bit 3, the number it refers to and its body, whether Spine-B sends a copy, and
its bytes once it has started. -/
structure SpnMsg where
  ty : Nat
  last : Bool
  ref : Nat
  body : List (BitVec 8)
  viaB : Bool
  bytes : List (BitVec 8) := []
  deriving DecidableEq, Repr

/-- A set of the mirror as received (R301): its cycle, its retain_id, its blocks of 64 bytes, the sequence number of its latest message, and
whether no message of it can have been lost so far. -/
structure MirrorSet where
  cycle : Nat
  retain : Nat
  blocks : List (Nat × List (BitVec 8)) := []
  seq : Nat := 0
  whole : Bool := true
  deriving DecidableEq, Repr

/-- Paired operation besides its registers (R285-R305); every instant is elapsed TBC time. -/
structure SpnSt where
  /-- The next sequence number. -/
  seq : Nat := 0
  line : Option SpnMsg := none
  queue : List SpnMsg := []
  /-- Sequence numbers whose first copy has arrived, newest first, and whether it came on Spine-B. -/
  seen : List (Nat × Bool) := []
  /-- GRANTs sent: sequence number, send instant and lease_us. -/
  grants : List (Nat × (Nat × Nat)) := []
  /-- Send instant of the newest acknowledged GRANT, and the end of the lease. -/
  ackedAt : Option Nat := none
  leaseEnd : Option Nat := none
  /-- lease_us of the last GRANT received. -/
  grantLease : Option Nat := none
  /-- The last valid message on Spine-A and on Spine-B, and the last rising edge at HB_IN. -/
  lastA : Option Nat := none
  lastB : Option Nat := none
  hbIn : Option Nat := none
  /-- The last GRANT or JOIN sent. -/
  sendLast : Option Nat := none
  /-- The last rising edge of HB_OUT. -/
  hbOut : Option Nat := none
  /-- Entry into JOINING; source 111 of R296 was raised since. -/
  joinFrom : Nat := 0
  noted : Bool := false
  /-- The time state in the flags of the peer's latest ACK. -/
  peerTime : Nat := 0
  /-- The mirror set that arrives, and the complete ones that wait for the next INPUT. -/
  opened : Option MirrorSet := none
  sets : List MirrorSet := []
  /-- The previous copy of the retained area, the blocks of the last set sent, and a SNAP_REQ that waits. -/
  copy : List (BitVec 8) := []
  setBlocks : List Nat := []
  snapReq : Bool := false
  /-- A REQUEST was accepted (R302). -/
  handover : Bool := false
  /-- Since when the conditions of R302 have held. -/
  returnFrom : Option Nat := none
  /-- The reference instant of R304 until the gap is measured. -/
  gapRef : Option Nat := none
  /-- An uncorrectable ECC error of cause ECC_CRIT (R297). -/
  ecc : Bool := false
  deriving DecidableEq, Repr

/-! ## Chapter 13: disturbance acquisition -/

/-- A value that a filter lane publishes for acquisition (R307): source type and index, absolute index, time, the source's rate and
fnom, the value, and whether the group's smpSynch is 0. -/
structure AcqIn where
  ty : Nat
  idx : Nat
  k : Nat
  time : Int
  rate : Nat
  fnom : Nat
  val : Nat
  susp : Bool
  deriving DecidableEq, Repr

/-- A track (R309, R315): what it reduces and where its region lies, the index of its first entry, the entries formed, which of
those held are NaN, and the open window: its index, the least and greatest value, Σv in 2^-149, Σv² in 2^-298, and the count. -/
structure AcqTrack where
  chan : Nat
  red : Nat
  ty : Nat
  idx : Nat
  rate : Nat
  fnom : Nat
  n : Nat
  eb : Nat
  cap : Nat
  off : Nat
  first : Nat
  count : Nat := 0
  nans : List Nat := []
  cur : Option Nat := none
  mn : Nat := 0
  mx : Nat := 0
  sum : Int := 0
  sq : Nat := 0
  cnt : Nat := 0
  inf : Bool := false
  susp : Bool := false
  ended : Bool := false
  deriving DecidableEq, Repr

/-- An event of a condition (R318): its time, the state after it, and whether it fires. -/
structure AcqEv where
  cond : Nat
  time : Int
  state : Bool
  fires : Bool
  deriving DecidableEq, Repr

/-- A mask violation (R323). -/
structure MaskHit where
  chan : Nat
  time : Int
  val : Nat
  limit : Nat
  upper : Bool
  point : Nat
  deriving DecidableEq, Repr

/-- The record being recorded (R319, R325). -/
structure AcqRec where
  tt : Nat
  mask : Nat
  states : Nat
  cause : Nat
  term : Nat
  forced : Bool
  tq : Nat
  tstate : Nat
  utc : Nat
  seq : Nat
  stop : Bool := false
  deriving DecidableEq, Repr

/-- Acquisition besides its registers (R307-R329). -/
structure AcqSt where
  inbox : List AcqIn := []
  /-- Source types and indexes that some channel names, while armed or recording. -/
  want : List (Nat × Nat) := []
  tracks : List AcqTrack := []
  tArm : Nat := 0
  /-- States of the conditions as known, and at the end of the last step evaluated; the run of LEVEL and SLOPE needs none. -/
  known : Nat := 0
  states : Nat := 0
  /-- The last value of each SLOPE condition: its index and value. -/
  slopes : List (Nat × (Nat × Nat)) := []
  events : List AcqEv := []
  /-- ALARM_SETs decided in this command: point and class. -/
  sets : List (Nat × Nat) := []
  forces : List Nat := []
  nextStep : Nat := 0
  /-- TIME instants count from this device time on: that of the ARM, or of the last step of the counter. -/
  timeFrom : Nat := 0
  disarm : Bool := false
  recd : Option AcqRec := none
  /-- Values of the measured channels, newest first, and the violations, newest first. -/
  hist : List (Nat × List (Int × Nat)) := []
  hits : List MaskHit := []
  deriving DecidableEq, Repr

/-! ## Chapter 15: energy -/

/-- A save in progress (R362): its bytes, its place in the ring, the first slot tried and the failed read-backs so far. -/
structure SaveSt where
  bytes : List (BitVec 8)
  pos : Nat
  first : Nat
  fails : Nat := 0
  deriving DecidableEq, Repr

/-- Energy besides its registers (R353-R368). -/
structure EnrSt where
  /-- Confirmed levels of PLS0-PLS31, and the pulses each has counted. -/
  levels : Nat := 0
  counts : List Nat := List.replicate 32 0
  /-- By input the elapsed time of its last pulse; by channel the elapsed and the device time of its last direction change. -/
  lastPulse : List (Nat × Nat) := []
  lastDir : List (Nat × (Nat × Nat)) := []
  /-- The words still in force of legal parameters whose staged copy differs, by key; the interval code in force. -/
  held : List (Nat × BitVec 32) := []
  interval : Nat := 3
  /-- Channels whose next interval is the first under changed parameters. -/
  changed : Nat := 0
  /-- The open interval: device time of its start, the utc_offset then, its length in minutes, and by channel its flags and the
  directions booked (bit 0 import, bit 1 export). -/
  ivStart : Option Nat := none
  ivOff : Int := 0
  ivLen : Nat := 15
  flags : List Nat := List.replicate 16 0
  booked : List Nat := List.replicate 16 0
  /-- Pulses were booked before any interval was open; the open interval was restored and not yet evaluated (R364). -/
  early : Bool := false
  restored : Bool := false
  /-- Boundaries are being evaluated (R358); a step came while they were not. -/
  evalOn : Bool := false
  stepped : Bool := false
  /-- Operating seconds at a mark of elapsed time. -/
  opMark : Nat := 0
  opBase : Nat := 0
  /-- Operating seconds at which the next save falls due, its sequence and its place in the ring. -/
  saveDue : Nat := 900
  saveSeq : Nat := 0
  next : Nat := 0
  saving : Option SaveSt := none
  /-- A save that a changeover or a shutdown asks for waits for the one in progress. -/
  again : Bool := false
  /-- Pulse sampling has stopped (R466). -/
  halted : Bool := false
  /-- Parameter writes accepted since the seal opened, and the elapsed time at which an opening by procedure ends. -/
  accepted : Nat := 0
  procEnd : Option Nat := none
  key : Nat := 0
  deriving DecidableEq, Repr

/-! ## Chapter 17: the compression engine -/

/-- A compression job (R382-R393): its descriptor, and once it has run the stream still to be delivered, the status at its end,
the buffer descriptor in use and the bytes already in that buffer, and the counts of its record. -/
structure CmpJob where
  op : Nat
  level : Nat
  flags : Nat
  elem : Nat
  tag : Nat
  master : Nat
  src : Nat
  srcLen : Nat
  limit : Nat
  buf : Nat
  /-- Grid and instant of an archive job. -/
  arch : Option (Nat × Nat) := none
  ran : Bool := false
  /-- The input of a job that has run, as it was read. -/
  input : List (BitVec 8) := []
  out : List (BitVec 8) := []
  status : Nat := 0
  used : Nat := 0
  /-- Input read, output delivered and the Adler-32 so far; the first and the last as they are at the job's end. -/
  consumed : Nat := 0
  produced : Nat := 0
  adler : Nat := 1
  total : Nat := 0
  adlerEnd : Nat := 1
  buffers : Nat := 0
  deriving DecidableEq, Repr

/-- The compression engine besides its registers. -/
structure CmpSt where
  pending : List CmpJob := []
  resumed : List CmpJob := []
  running : Option CmpJob := none
  /-- The context slots that hold a suspended job. -/
  ctx : List (Nat × CmpJob) := []
  /-- The last job to end or suspend was an archive job (R383). -/
  lastArch : Bool := false
  /-- Archive entries not yet released, oldest first: start and length in units. -/
  entries : List (Nat × Nat) := []
  deriving DecidableEq, Repr

/-! ## Chapters 20 to 22: clocks, power, the standby island and the TAP -/

/-- Clock generation besides its registers: LOCKED was reached since PORn; domains whose switch waits for an edge of the old clock. -/
structure CkpSt where
  started : Bool := false
  switching : List Nat := []
  /-- REFCLK is absent; at reset no edge of it has been seen (DESIGN CHOICE, log entry 108). -/
  refGone : Bool := true
  /-- CKO0 after a step of the counter: until when it stays high, and its next rising edge (R451). -/
  cko0 : Option (Nat × Nat) := none
  /-- cko1_div in force (R452). -/
  cko1Div : Nat := 10
  /-- The REF dividers in force, by domain, and the rate codes in force of the spread outputs. -/
  refDiv : List (Nat × Nat) := []
  ssRate : List (Nat × Nat) := []
  deriving DecidableEq, Repr

/-- The standby island (R461, R462, R366, R478): it survives every reset but a loss of VSTBY. -/
structure IslandSt where
  vstby : Bool := true
  sealLatch : Bool := false
  contact : Bool := false
  orderly : Bool := false
  /-- Reset causes since the last clear, as CKP_RST_CAUSE. -/
  causes : Nat := 1
  pwrEn : Bool := true
  /-- The 100 ms after PWR_EN fell run; a WAKE edge came in them. -/
  holdOff : Bool := false
  wake : Bool := false
  deriving DecidableEq, Repr

/-- The states of the TAP controller of IEEE 1149.1. -/
inductive TapCtrl where
  | testLogicReset | runTestIdle | selectDr | captureDr | shiftDr | exit1Dr | pauseDr | exit2Dr | updateDr
  | selectIr | captureIr | shiftIr | exit1Ir | pauseIr | exit2Ir | updateIr
  deriving DecidableEq, Repr

/-- The TAP (R475, R480): the TEST_MODE strap, the state of its controller, the instruction in force and the bypass bit. -/
structure TapSt where
  testMode : Bool := false
  ctrl : TapCtrl := .testLogicReset
  instr : TapOp := .idcode
  bypass : Bool := false
  deriving DecidableEq, Repr

/-- An NVM command that runs (R468, R471): the command, its slot and bytes, and the bytes written so far. -/
structure StoreSt where
  cmd : Nat
  slot : Nat
  bytes : List (BitVec 8) := []
  done : Nat := 0
  deriving DecidableEq, Repr

/-- Who writes the NVM (R468). -/
inductive NvmWriter where
  | append | save | store
  deriving DecidableEq, Repr

/-- Power, reset and NVM commands besides their registers. -/
structure PwrSt where
  /-- Internal reset holds the device; thermal reset holds it. -/
  held : Bool := false
  thermHold : Bool := false
  /-- Consecutive measurements at or above 125 °C. -/
  thermRun : Nat := 0
  /-- DDR5 training has ended, and the installed capacity in MiB. -/
  trained : Bool := false
  ddrMib : Nat := 0
  /-- The last step of R466 taken: 0 while no orderly shutdown was accepted. -/
  shut : Nat := 0
  /-- The key sequence of R471 by master: 1 after its first word, 2 armed, and the elapsed time of arming. -/
  keys : List (Nat × (Nat × Nat)) := []
  store : Option StoreSt := none
  /-- Whose NVM write is in progress. -/
  writer : Option NvmWriter := none
  deriving DecidableEq, Repr

/-- The device: everything the manual gives it, but the queue of waiting commands. -/
structure Dev where
  /-- The registers that differ from their reset value, by key (see `RegMap`). -/
  regs : List (Nat × Word) := []
  /-- The high words captured by R10, by key of the high register and master. -/
  shadow : List (Nat × Word) := []
  /-- The BAR0 memory windows (R417), by BAR0 offset. -/
  win : List Host.Cell := []
  /-- DDR5 memory, by byte address. -/
  dram : List Host.Cell := []
  nvm : NvmSt := {}
  /-- Memory of the hosts HA and HB, which the device reads and writes over PCI Express. -/
  hostA : List Host.Cell := []
  hostB : List Host.Cell := []
  /-- How many free values have been drawn (the model's own field). -/
  free : Nat := 0
  stopped : List Nat := []
  quires : List (Nat × Quire) := []
  avs : AvsSt := {}
  time : TimeSt := {}
  logs : LogSt := {}
  queues : List (Nat × QueueSt) := []
  staging : List (Nat × Staging) := []
  host : HostSt := {}
  eth : EthSt := {}
  bnd : BndSt := {}
  str : StrSt := {}
  col : ColSt := {}
  flt : FltSt := {}
  det : DetSt := {}
  sch : SchSt := {}
  kern : KernSt := {}
  le : LeSt := {}
  spn : SpnSt := {}
  acq : AcqSt := {}
  enr : EnrSt := {}
  cmp : CmpSt := {}
  ckp : CkpSt := {}
  pwr : PwrSt := {}
  island : IslandSt := {}
  tap : TapSt := {}
  deriving DecidableEq, Repr

/-- The state of the block: the device, and the commands that wait, first in, first out. -/
structure State where
  dev : Dev
  pending : List Instr
  deriving DecidableEq, Repr

/-- The machine right after reset: every register at its reset value, nothing listed in any memory, no command waiting. CKP_RST_CAUSE (key
0x10804) shows the island's record, as its reset value is "from the island" (R8). -/
def State.reset : State := { dev := { regs := [(0x10804, 1)] }, pending := [] }

end Sys2Proof.Machine
end

