-- ==== Sys2Proof/Machine/Ops.lean ====
section
/-! DEFINITION. The named operations over registers, memories, time and free values. -/
namespace Sys2Proof.Machine

/-! ## Sparse lists in one canonical form -/

/-- The value listed at a key. -/
def cellGet {α : Type} (dflt : Nat → α) : List (Nat × α) → Nat → α
  | [], k => dflt k
  | (j, v) :: xs, k => if j = k then v else cellGet dflt xs k

/-- A list without a key. -/
def cellDrop {α : Type} (k : Nat) (xs : List (Nat × α)) : List (Nat × α) := xs.filter (fun p => p.1 != k)

/-- Store a value at a key: the list stays in strictly rising key order, and a value equal to what the key reads as
when it is not listed is not listed. -/
def cellPut {α : Type} [DecidableEq α] (dflt : Nat → α) (k : Nat) (v : α) : List (Nat × α) → List (Nat × α)
  | [] => if v = dflt k then [] else [(k, v)]
  | (j, w) :: xs =>
    if k < j then (if v = dflt k then cellDrop k ((j, w) :: xs) else (k, v) :: (j, w) :: xs)
    else if k = j then (if v = dflt k then cellDrop k xs else (k, v) :: xs)
    else (j, w) :: cellPut dflt k v xs

/-- The canonical form: keys strictly rise, and no listed value equals the unlisted one. -/
def cellWf {α : Type} [DecidableEq α] (dflt : Nat → α) : List (Nat × α) → Bool
  | [] => true
  | [(k, v)] => decide (v ≠ dflt k)
  | (k, v) :: (j, w) :: xs => decide (v ≠ dflt k) && decide (k < j) && cellWf dflt ((j, w) :: xs)

/-! ## Memories -/

/-- A byte of memory that nothing has written reads as zero (DESIGN CHOICE for DRAM, NVM and host memory; log entry 3). -/
def memDefault (_ : Nat) : Byte := 0

/-- Read one byte. -/
def memRead (m : List Host.Cell) (a : Nat) : Byte := cellGet memDefault m a

/-- Write one byte. -/
def memWrite (a : Nat) (b : Byte) (m : List Host.Cell) : List Host.Cell := cellPut memDefault a b m

/-- The canonical form of a memory. -/
def Memory.wf (m : List Host.Cell) : Bool := cellWf memDefault m

/-- Read `n` bytes from `a`, lowest address first. -/
def memReadN (m : List Host.Cell) : Nat → Nat → List Byte
  | _, 0 => []
  | a, n + 1 => memRead m a :: memReadN m (a + 1) n

/-- Write bytes from `a` upwards. -/
def memWriteN (m : List Host.Cell) : Nat → List Byte → List Host.Cell
  | _, [] => m
  | a, b :: bs => memWriteN (memWrite a b m) (a + 1) bs

/-- Clear the range [a, a + n) to the unlisted value. -/
def memClear (a n : Nat) (m : List Host.Cell) : List Host.Cell := m.filter (fun c => c.1 < a || a + n ≤ c.1)

/-- A little-endian field of `n` bytes. -/
def memLe (m : List Host.Cell) (a n : Nat) : Nat := ofLe (memReadN m a n)

/-! ## Registers -/

/-- The word held at a key of the register file; its reset value while nothing else was stored. -/
def Dev.word (d : Dev) (k : Nat) : Word := cellGet resetOf d.regs k

/-- Store a word at a key of the register file. -/
def Dev.putWord (k : Nat) (w : Word) (d : Dev) : Dev := { d with regs := cellPut resetOf k w d.regs }

/-- The value of a field. -/
def Dev.get (d : Dev) (f : Fld) : Nat := bits (d.word f.key).toNat f.lo f.width

/-- The device sets a field (no access type applies). -/
def Dev.set (f : Fld) (v : Nat) (d : Dev) : Dev :=
  d.putWord f.key (BitVec.ofNat 32 (putBits (d.word f.key).toNat f.lo f.width v))

/-- A one-bit field as a Bool. -/
def Dev.flag (d : Dev) (f : Fld) : Bool := d.get f != 0

/-- Set a one-bit field. -/
def Dev.setFlag (f : Fld) (b : Bool) (d : Dev) : Dev := d.set f (b2n b)

/-- Advance a counter, which saturates at the maximum of its field (R11). -/
def Dev.add (f : Fld) (n : Nat) (d : Dev) : Dev := d.set f (min (d.get f + n) (2 ^ f.width - 1))

/-- Advance a saturating counter by one (R11). -/
def Dev.inc (f : Fld) (d : Dev) : Dev := d.add f 1

/-- Advance a counter that wraps. -/
def Dev.incWrap (f : Fld) (d : Dev) : Dev := d.set f (d.get f + 1)

/-- A signed field. -/
def Dev.getI (d : Dev) (f : Fld) : Int := toInt f.width (d.get f)

/-- Set a signed field. -/
def Dev.setI (f : Fld) (v : Int) (d : Dev) : Dev := d.set f (ofInt f.width v)

/-- A 64-bit value held in two registers, low word first (R10). -/
def Dev.get2 (d : Dev) (lo hi : Fld) : Nat := d.get lo + 2 ^ 32 * d.get hi

/-- Store a value in two registers. -/
def Dev.set2 (lo hi : Fld) (v : Nat) (d : Dev) : Dev := (d.set lo v).set hi (v / 2 ^ 32)

/-! ## Crossings (R25) -/

/-- The crossing of domain bit `b` is dead: 0 TBC, 1 to 4 ETH, 5 PCIA, 6 PCIB, 7 MEM, 8 SPINE, 9 MGMT, 10 CKO, 11 REF. -/
def Dev.xingDead (d : Dev) (b : Nat) : Bool := bitAt (d.get GCTL_FAB_STAT_dead_xing) b

/-- An item offered to a dead crossing is accepted, discarded and counted. -/
def xdrop (d : Dev) : Dev := d.inc GCTL_XDROP

/-! ## Domain clocks (R438, R443) -/

/-- Domain `g` is on REF-bypass. -/
def Dev.onRef (d : Dev) (g : Nat) : Bool := d.flag (CKP_DOM_CTRL_source g)

/-- The monitor is clear. -/
def Dev.refOk (d : Dev) : Bool := d.flag CKP_STAT_ref_ok

/-- REFCLK is absent, as far as its monitor has seen (R438). -/
def Dev.refAbsent (d : Dev) : Bool := d.ckp.refGone

/-- The PHY behind domain `g` is held inactive: in COAST, and on REF-bypass (R440, R444). -/
def Dev.phyHeld (d : Dev) (g : Nat) : Bool := d.flag CKP_STAT_coast || d.onRef g

/-- Domain `g` has edges: no switch waits for one of its old clock (R447), and its source gives them. -/
def Dev.domEdges (d : Dev) (g : Nat) : Bool := !d.ckp.switching.contains g && (!d.onRef g || d.refOk)

/-! ## Stopped blocks and lanes (R16, R37) -/

/-- The block of a fabric number runs unless a timeout has stopped it (R16). -/
def Dev.blockRuns (d : Dev) (b : Nat) : Bool := !d.stopped.contains b

/-- The folio of lane `n` of a type, by ascending folio number (R37). -/
def Dev.laneFolio (d : Dev) (type n : Nat) : Nat :=
  (((List.range 40).filter (fun f => bits (d.get (BND_FOLIO_MAP (f / 4))) (8 * (f % 4)) 8 == type)).drop n).headD 60

/-- Lane `n` of a type is not stopped. -/
def Dev.laneRuns (d : Dev) (type n : Nat) : Bool := d.blockRuns (d.laneFolio type n)

/-- Work of the Collator core. -/
def colRun (f : Dev → Dev) (d : Dev) : Dev := if d.blockRuns 58 then f d else d

/-- Work of the scheduler. -/
def schRun (f : Dev → Dev) (d : Dev) : Dev := if d.blockRuns 57 then f d else d

/-- Work of the compression engine. -/
def cmpWork (f : Dev → Dev) (d : Dev) : Dev := if d.blockRuns 59 then f d else d

/-! ## Device time -/

/-- One nanosecond of the counter, in its 2^-32 ns units. -/
def nsUnit : Nat := 0x100000000

/-- The counter wraps with its 48 bits of seconds (R52). -/
def clockSpan : Nat := 2 ^ 48 * 1000000000 * nsUnit

/-- The 48 bits of seconds of the counter. -/
def Dev.sec (d : Dev) : Nat := d.time.clock / nsUnit / 1000000000

/-- The nanoseconds of the counter, 0 to 999,999,999. -/
def Dev.ns (d : Dev) : Nat := d.time.clock / nsUnit % 1000000000

/-- Device time (R12, R52): seconds × 10⁹ + nanoseconds, as 64 bits. -/
def Dev.now (d : Dev) : Nat := (d.time.clock / nsUnit) % 2 ^ 64

/-- A TBC time stamp in 2^-16 ns. -/
def Dev.now16 (d : Dev) : Int := ((d.time.clock / 0x10000 : Nat) : Int)

/-- Calendar time in ns (R66): device time − utc_offset × 10⁹. -/
def Dev.calendar (d : Dev) : Int := (d.now : Int) - d.getI TBS_UTC_utc_offset * 1000000000

/-- The time state (R63): 0 INVALID, 1 FREERUN, 2 HOLDOVER, 3 LOCKED. -/
def Dev.timeState (d : Dev) : Nat := d.get TBS_STATE_state

/-- Whole elapsed seconds of TBC ticks since a mark, in quarter nanoseconds (R64). -/
def Dev.elapsedSince (d : Dev) (mark : Nat) : Nat := (d.time.elapsed - mark) / 4000000000

/-! ## Free values -/

/-- Draw a free 32-bit word: nothing constrains it. -/
def Dev.drawWord (d : Dev) : Nat × Dev := ((Config.freeWord d.free).toNat, { d with free := d.free + 1 })

/-- Draw a free number. -/
def Dev.drawNat (d : Dev) : Nat × Dev := (Config.freeNat d.free, { d with free := d.free + 1 })

/-- Draw `n` free bytes. -/
def Dev.drawBytes : Nat → Dev → List Byte × Dev
  | 0, d => ([], d)
  | n + 1, d =>
    let (bs, d') := Dev.drawBytes n { d with free := d.free + 1 }
    (Config.freeByte d.free :: bs, d')

end Sys2Proof.Machine
end

