-- ==== Sys2Proof/Machine/Events.lean ====
section
/-! DEFINITION. The event controller: routing, pending bits, MSI-X messages, the latch of the logic engine and the
merging of raises (R431-R436, R496). -/
namespace Sys2Proof.Machine

/-- Host memory of an endpoint. -/
def Dev.hostMem (d : Dev) (e : Nat) : List Host.Cell := if e = 0 then d.hostA else d.hostB

/-- The link of an endpoint is up (R419). -/
def Dev.linkUp (d : Dev) (e : Nat) : Bool := bitAt d.host.linkUp e

/-- A device write to a host's memory; it is discarded at a dead PCIA or PCIB crossing (R25), and while that host's link is down (R419). -/
def Dev.hostWrite (e a : Nat) (bs : List Byte) (d : Dev) : Dev :=
  if d.xingDead (5 + e) then xdrop d
  else if d.linkUp e then
    if e = 0 then { d with hostA := memWriteN d.hostA a bs } else { d with hostB := memWriteN d.hostB a bs }
  else d

/-- Send the MSI-X message of a vector of endpoint `e`: a write of the vector's data to its address (R433). -/
def msixWrite (e v : Nat) (d : Dev) : Dev :=
  d.hostWrite e (d.get2 (EVC_MSIX e v 0) (EVC_MSIX e v 1)) (toLe 4 (d.get (EVC_MSIX e v 2)))

/-- A message on a vector: a masked vector sets its PBA bit and sends when it is unmasked (R433). -/
def msixSend (e v : Nat) (d : Dev) : Dev :=
  if bitAt (d.get (EVC_MSIX e v 3)) 0 then
    d.set (EVC_PBA e (v / 32)) (setBit (d.get (EVC_PBA e (v / 32))) (v % 32) true)
  else msixWrite e v d

/-- A vector was unmasked: a message that waits in the PBA is sent (R433). -/
def msixUnmask (e v : Nat) (d : Dev) : Dev :=
  if bitAt (d.get (EVC_PBA e (v / 32))) (v % 32) && !bitAt (d.get (EVC_MSIX e v 3)) 0 then
    msixWrite e v (d.set (EVC_PBA e (v / 32)) (setBit (d.get (EVC_PBA e (v / 32))) (v % 32) false))
  else d

/-- Pending bit of target `t` (0 HA, 1 HB, 2 MG) for source `s` (R432). -/
def Dev.evPending (d : Dev) (t s : Nat) : Bool := bitAt (d.get (EVC_PEND t (s / 32))) (s % 32)

/-- Mask bit of target `t` for source `s`. -/
def Dev.evMasked (d : Dev) (t s : Nat) : Bool := bitAt (d.get (EVC_MASK t (s / 32))) (s % 32)

/-- The vector of host `e` for source `s`. -/
def Dev.evVector (d : Dev) (e s : Nat) : Nat := if e = 0 then d.get (EVC_ROUTE_ha_vec s) else d.get (EVC_ROUTE_hb_vec s)

/-- Set the pending bit of one target; a host gets a message when the bit goes from 0 to 1 unmasked (R432, R433). -/
def evPend (t s : Nat) (d : Dev) : Dev :=
  let fresh := !d.evPending t s
  let d := d.set (EVC_PEND t (s / 32)) (setBit (d.get (EVC_PEND t (s / 32))) (s % 32) true)
  if fresh && t < 2 && !d.evMasked t s then msixSend t (d.evVector t s) d else d

/-- Raise an event source (R432, R435). -/
def raise (s : Nat) (d : Dev) : Dev :=
  let d := if d.flag (EVC_ROUTE_ha_en s) then evPend 0 s d else d
  let d := if d.flag (EVC_ROUTE_hb_en s) then evPend 1 s d else d
  let d := if d.flag (EVC_ROUTE_mg_en s) then evPend 2 s d else d
  if d.flag (EVC_ROUTE_le_en s) then { d with host := { d.host with leLatch := setBit d.host.leLatch s true } } else d

/-- The start of the first aligned millisecond after an instant. -/
def nextMs (t : Nat) : Nat := (t / 1000000 + 1) * 1000000

/-- A merged raise takes effect at its instant, as the raise of the millisecond that starts there (R496). -/
def raiseMerged (s : Nat) (d : Dev) : Dev :=
  match lookup s d.host.evMerged with
  | none => d
  | some due =>
    if d.now < due then d
    else raise s { d with host := { d.host with
      evMerged := eraseKey s d.host.evMerged, evLast := insertKey s (due / 1000000) d.host.evLast } }

/-- Raise a source that takes effect at most once per aligned millisecond (R496): a merged raise that has fallen due takes effect
first, and a further raise in the same millisecond is merged into one, which waits for the next. -/
def raiseMs (s : Nat) (d : Dev) : Dev :=
  let d := raiseMerged s d
  if lookup s d.host.evLast = some (d.now / 1000000) then
    if (lookup s d.host.evMerged).isSome then d
    else { d with host := { d.host with evMerged := insertKey s (nextMs d.now) d.host.evMerged } }
  else raise s { d with host := { d.host with evLast := insertKey s (d.now / 1000000) d.host.evLast } }

/-- After a step of the counter a merged raise takes effect at the first multiple of 1 ms after the new time (R496). -/
def remergeAfterStep (d : Dev) : Dev :=
  { d with host := { d.host with evMerged := d.host.evMerged.map (fun p => (p.1, nextMs d.now)) } }

/-- MG_IRQ_N is asserted while some source is pending for MG and unmasked (R425). -/
def Dev.mgIrq (d : Dev) : Bool :=
  (List.range 4).any (fun w => (List.range 32).any (fun i => bitAt (d.get (EVC_PEND 2 w)) i && !bitAt (d.get (EVC_MASK 2 w)) i))

/-- A write of a mask word: a message is sent where a mask bit is cleared while the pending bit is 1 (R433). -/
def evMaskWrite (t w v : Nat) (d : Dev) : Dev :=
  let old := d.get (EVC_MASK t w)
  let d := d.set (EVC_MASK t w) v
  if t < 2 then
    forN 32 (fun i d =>
      if bitAt old i && !bitAt v i && bitAt (d.get (EVC_PEND t w)) i then msixSend t (d.evVector t (32 * w + i)) d else d) d
  else d

/-- EVC_DOORBELL: the value and the master are recorded and source 127 is raised (R436). -/
def doorbell (m v : Nat) (d : Dev) : Dev :=
  raise 127 ((d.set EVC_DOORBELL_LAST v).set EVC_DOORBELL_SRC_master m)

end Sys2Proof.Machine
end

