-- ==== Sys2Proof/Machine/Access.lean ====
section
/-! DEFINITION. Targets, access tables and violations (R26, R426-R430), and the map of DRAM partitions (R39, R418). -/
namespace Sys2Proof.Machine

/-- The kinds of a violation record (register ACT_VIOL_FIRST). -/
inductive VKind where
  | read | write | push | pop | admin | partialWrite | fixed
  deriving DecidableEq, Repr

/-- The code of a kind in ACT_VIOL_FIRST and ACT_VIOL_LAST. -/
def VKind.code : VKind → Nat
  | .read => 0 | .write => 1 | .push => 2 | .pop => 3 | .admin => 4 | .partialWrite => 5 | .fixed => 6

/-- The target of a BAR0 offset (R417): a register block or a memory window; none outside them. -/
def targetOf (off : Nat) : Option Nat :=
  if off < 0x140000 then some (off / 0x10000)
  else if 0x1000000 ≤ off ∧ off < 0x1100000 then some 20
  else if 0x1100000 ≤ off ∧ off < 0x1200000 then some 21
  else if 0x1200000 ≤ off ∧ off < 0x1240000 then some 22
  else if 0x1240000 ≤ off ∧ off < 0x1280000 then some 23
  else if 0x1280000 ≤ off ∧ off < 0x12A0000 then some 24
  else if 0x1400000 ≤ off ∧ off < 0x1480000 then some 25
  else none

/-- The right a kind of access needs: words 0-4 of a table entry (R426). -/
def VKind.right : VKind → Nat
  | .read => 0 | .write => 1 | .push => 2 | .pop => 3 | .admin => 4 | .partialWrite => 1 | .fixed => 1

/-- A Binding is in force, and with it its access tables (R427; DEDUCED: before one is loaded no table applies, log entry 4). -/
def Dev.tablesLoaded (d : Dev) : Bool := d.get BND_STAT_active != 0

/-- The table of target `t` grants master `m` the right of a kind of access (R426, R428). -/
def Dev.granted (d : Dev) (k : VKind) (t m : Nat) : Bool :=
  !d.tablesLoaded || bitAt (d.get (ACT_TBL (8 * t + k.right))) m

/-- Record a violation (R430): count it, fill LAST and, if empty, FIRST, and raise source 126. -/
def violation (k : VKind) (m t off : Nat) (d : Dev) : Dev :=
  let w := m + k.code * 2 ^ 5 + (t % 128) * 2 ^ 8 + 2 ^ 31
  let d := d.inc ACT_VIOL_CNT
  let d := (d.set ACT_VIOL_LAST0 w).set ACT_VIOL_LAST1 off
  let d := if d.flag ACT_VIOL_FIRST0_valid then d else (d.set ACT_VIOL_FIRST0 w).set ACT_VIOL_FIRST1 off
  raiseMs 126 d

/-- BND_STAT.state of R42-R49. -/
inductive BndState where
  | start | verifying | building | unlocked | locked | recovery | rcvLoading | rebinding
  deriving DecidableEq, Repr

/-- The code of a Binding state. -/
def BndState.code : BndState → Nat
  | .start => 0 | .verifying => 1 | .building => 2 | .unlocked => 3 | .locked => 4 | .recovery => 5 | .rcvLoading => 6
  | .rebinding => 7

/-- The Binding is in the given state. -/
def Dev.bndIs (d : Dev) (b : BndState) : Bool := d.get BND_STAT_state == b.code

/-- RECOVERY and the recovery load: only GCTL, CKP and BND respond (R43; DEDUCED for RCV_LOADING, log entry 5). -/
def Dev.inRecovery (d : Dev) : Bool := d.bndIs .recovery || d.bndIs .rcvLoading

/-- What an access check decides: the access goes on, is silently void (R6, R43), or is a violation of a kind. -/
inductive Verdict where
  | pass | void | deny (k : VKind)
  deriving DecidableEq, Repr

/-- An access of master `m` arrives: HA and HB reach the device over a link that is up and a crossing that works (R25, R419, R441). -/
def Dev.arrives (d : Dev) (m : Nat) : Bool := 2 ≤ m || (bitAt d.host.linkUp m && !d.xingDead (5 + m))

/-- Writes of an access that does not arrive: an item at a dead crossing is counted. -/
def lostAccess (m : Nat) (d : Dev) : Dev := if d.xingDead (5 + m) then xdrop d else d

/-- The configuration space of endpoint `e`. -/
def Dev.pcie (d : Dev) (e : Nat) : PcieCfg := if e = 0 then d.host.cfgA else d.host.cfgB

def Dev.putPcie (d : Dev) (e : Nat) (c : PcieCfg) : Dev :=
  if e = 0 then { d with host := { d.host with cfgA := c } } else { d with host := { d.host with cfgB := c } }

/-- A read that ends with Completer Abort is logged under AER (R430): its bit of the uncorrectable error status sets, and the first error
pointer names it where none stood. -/
def aerAbort (m : Nat) (d : Dev) : Dev :=
  if 2 ≤ m then d
  else
    let c := d.pcie m
    d.putPcie m { c with aerStatus := setBit c.aerStatus 15 true, aerFirst := if c.aerStatus = 0 then 15 else c.aerFirst }

/-- The check of an access to target `t` by the table, after the fixed rules, RECOVERY and partial byte enables (R429). -/
def Dev.check (d : Dev) (k : VKind) (whole : Bool) (t m : Nat) : Verdict :=
  if d.inRecovery && !(t ≤ 2) then .void
  else if !whole then .deny .partialWrite
  else if d.granted k t m then .pass else .deny k

/-! ## DRAM partitions -/

/-- One MiB. -/
def mib : Nat := 0x100000

/-- The byte base and size of partition `p` (R39). -/
def Dev.part (d : Dev) (p : Nat) : Nat × Nat := (d.get (BND_PART_base_mib p) * mib, d.get (BND_PART_size_mib p) * mib)

/-- The MEM crossing works: its dead_xing bit is clear (R25, R126). -/
def Dev.memAlive (d : Dev) : Bool := !d.xingDead 7

/-- Write bytes into DRAM; discarded while the MEM crossing is dead (R25). -/
def Dev.dramWrite (a : Nat) (bs : List Byte) (d : Dev) : Dev :=
  if d.memAlive then { d with dram := memWriteN d.dram a bs } else xdrop d

/-- Read bytes from DRAM. -/
def Dev.dramRead (d : Dev) (a n : Nat) : List Byte := memReadN d.dram a n

/-- The present partition that holds a DRAM address. -/
def Dev.partOf (d : Dev) (a : Nat) : Option Nat :=
  (List.range 16).find? (fun p => let (b, n) := d.part p; b ≤ a && a < b + n)

end Sys2Proof.Machine
end

