-- ==== Sys2Proof/Machine/Queues.lean ====
section
/-! DEFINITION. Host queues: the pool, packets, pops, pushes, overwriting, watermarks and word protection (R400-R413). -/
namespace Sys2Proof.Machine

/-- The content of queue `n`. -/
def Dev.queue (d : Dev) (n : Nat) : QueueSt := (lookup n d.queues).getD {}

/-- Replace the content of queue `n`. -/
def Dev.putQueue (n : Nat) (q : QueueSt) (d : Dev) : Dev := { d with queues := insertKey n q d.queues }

/-- Committed words of a queue. -/
def QueueSt.occupancy (q : QueueSt) : Nat := (q.packets.map (fun p => p.words.length)).sum

/-- Words reserved by device packets being written. -/
def QueueSt.reserved (q : QueueSt) : Nat := (q.writing.map List.length).sum

/-- Capacity of queue `n` in words (R400). -/
def Dev.queueCap (d : Dev) (n : Nat) : Nat := 2 ^ d.get (QUE_Q_CFG_log2_cap n)

/-- Queue `n` is ON and the pool is not switching modes (R401, R409). -/
def Dev.queueOn (d : Dev) (n : Nat) : Bool := d.get (QUE_Q_CTRL_state n) == 1 && d.get QUE_POOL_mode != 1

/-- FC pin `k` is asserted while any queue mapped to it with fc_en = 1 has its watermark state set (R408). -/
def Dev.fcAsserted (d : Dev) (k : Nat) : Bool :=
  (List.range 64).any (fun n => d.flag (QUE_Q_WM_fc_en n) && d.get (QUE_Q_WM_fc_pin n) == k && d.flag (QUE_Q_OCC_wm_state n))

/-- Keep QUE_FC equal to the asserted pins (R408). -/
def queueFc (d : Dev) : Dev :=
  d.set QUE_FC_fc ((List.range 4).foldl (fun a k => a + b2n (d.fcAsserted k) * 2 ^ k) 0)

/-- The level FC pin `k` is driven to outside reset, where `Dev.fcBall` releases it (R408, R477): high when pol = 0 and asserted, or pol = 1 and not. -/
def Dev.fcLevel (d : Dev) (k : Nat) : Bool := d.fcAsserted k != bitAt (d.get DIO_FC_CFG_pol) k

/-- The watermark state of a queue is written with its summary bit and the flow-control pins. -/
def queueWmState (n : Nat) (b : Bool) (d : Dev) : Dev :=
  let d := d.setFlag (QUE_Q_OCC_wm_state n) b
  queueFc (d.set (QUE_HIGH (n / 32)) (setBit (d.get (QUE_HIGH (n / 32))) (n % 32) b))

/-- After a change of the committed content of queue `n`: occupancy, high-water mark, the summary bit and the watermark
state follow, and sources 122 and 123 are raised (R408, R413). `emptied` says that a flush or OFF emptied it. -/
def queueNote (n : Nat) (emptied : Bool) (d : Dev) : Dev :=
  let occ := (d.queue n).occupancy
  let was := d.get (QUE_Q_OCC_occupancy n)
  let d := d.set (QUE_Q_OCC_occupancy n) occ
  let d := d.set (QUE_Q_OCC_hwm n) (max (d.get (QUE_Q_OCC_hwm n)) occ)
  let d := d.set (QUE_NONEMPTY (n / 32)) (setBit (d.get (QUE_NONEMPTY (n / 32))) (n % 32) (occ != 0))
  let d := if was = 0 && occ != 0 && d.flag (QUE_Q_CTRL_irq_en n) then raise 122 d else d
  if emptied then queueWmState n false d
  else if !d.flag (QUE_Q_OCC_wm_state n) && d.get (QUE_Q_WM_high n) ≤ occ && was != occ then raiseMs 123 (queueWmState n true d)
  else if d.flag (QUE_Q_OCC_wm_state n) && occ ≤ d.get (QUE_Q_WM_low n) && was != occ then queueWmState n false d
  else d

/-- The empty token (R405). -/
def emptyToken : Nat := 0xFFFFFFFFFFFFFFFF

/-- The empty token is returned to a pop: the status shows empty and QUE_Qn_EMPTY counts (R405). -/
def popEmpty (n : Nat) (d : Dev) : Nat × Nat × Dev :=
  (emptyToken, 2 + d.get (QUE_Q_OCC_occupancy n) * 2 ^ 16, d.inc (QUE_Q_EMPTY n))

/-- The data bits an injected error flips (R412): one bit, or two different bits; which ones the manual leaves open. -/
def flipMask (w : QWord) (k : Nat) : BitVec 64 :=
  let i := (Config.flipBit k).val
  let j := (i + 1 + (Config.flipBit (k + 1)).val % 63) % 64
  if w.flips = 0 then 0 else if w.flips = 1 then BitVec.ofNat 64 (2 ^ i) else BitVec.ofNat 64 (2 ^ i + 2 ^ j)

/-- Take the oldest committed word of a non-empty queue (R404, R410, R411). Answers the data and the pop status. -/
def popWord (n : Nat) (d : Dev) : Nat × Nat × Dev :=
  let q := d.queue n
  match q.packets with
  | [] => popEmpty n d
  | p :: ps =>
    match p.words with
    | [] => popEmpty n (d.putQueue n { q with packets := ps })
    | w :: ws =>
      let first := p.words.length == p.total
      let last := ws.isEmpty
      let ecc := d.get QUE_POOL_mode == 2
      let poison := if ecc then w.flips == 2 else w.flips == 1
      let corrected := ecc && w.flips == 1
      let data := if corrected then w.val else w.val ^^^ flipMask w d.free
      let d := if w.flips = 0 || corrected then d else { d with free := d.free + 2 }
      let lost := q.lostBefore
      let d := d.putQueue n { q with packets := if last then ps else { p with words := ws } :: ps, lostBefore := false }
      let d := queueNote n false d
      let d := if corrected then d.inc (QUE_Q_INTEG_cecc n) else d
      let d := if poison then raiseMs 125 (d.inc (QUE_Q_INTEG_poison n)) else d
      let status := 1 + b2n first * 4 + b2n last * 8 + b2n poison * 16 + b2n corrected * 32 + b2n lost * 64
        + d.get (QUE_Q_OCC_occupancy n) * 2 ^ 16
      (data.toNat, status, d)

/-- The keys of the per-master shadows of POP_HI and POP_STAT (R404): BAR4 offsets above the keys of BAR0. -/
def popHiKey (m n : Nat) : Nat := (m + 1) * masterSpan + 0x3000000 + 0x1000 * n + 4
def popStatKey (m n : Nat) : Nat := (m + 1) * masterSpan + 0x3000000 + 0x1000 * n + 8

/-- A shadow word of a master; zero before its first capture. -/
def Dev.shadowWord (d : Dev) (k : Nat) : Option Word := lookup k d.shadow

/-- Capture a shadow word. -/
def Dev.capture (k v : Nat) (d : Dev) : Dev := { d with shadow := insertKey k (BitVec.ofNat 32 v) d.shadow }

/-- The answer of a read reaches its master. -/
def Dev.answer (m : Nat) (a : ReadAns) (d : Dev) : Dev := { d with host := { d.host with reads := insertKey m a d.host.reads } }

/-- A pop completes for master `m`: the low half is the answer (both halves for an 8-byte read), and the high half and
the status are captured (R404). -/
def popAnswer (m n : Nat) (wide : Bool) (r : Nat × Nat × Dev) : Dev :=
  let (v, st, d) := r
  let d := d.capture (popHiKey m n) (v / 2 ^ 32)
  let d := d.capture (popStatKey m n) st
  d.answer m { data := if wide then v else v % 2 ^ 32, poison := bitAt st 4 }

/-- A read of POP_LO by a master with pop right (R404, R405). MG never stalls; an OFF or DISABLING queue, and any queue
while the pool switches modes, answers the empty token at once. -/
def popRead (m n : Nat) (wide : Bool) (d : Dev) : Dev :=
  let q := d.queue n
  if !d.queueOn n then popAnswer m n wide (popEmpty n d)
  else if q.occupancy != 0 then popAnswer m n wide (popWord n d)
  else if m = 2 || d.get (QUE_Q_CFG_stall_us n) = 0 then popAnswer m n wide (popEmpty n d)
  else (d.putQueue n { q with stalled := q.stalled ++ [⟨m, wide, d.time.elapsed + 4000 * d.get (QUE_Q_CFG_stall_us n)⟩] }).answer m { stalled := true }

/-- The stalled pop whose limit ends first, the older of two that end together. -/
def earliestStall : List QStall → Option QStall
  | [] => none
  | w :: ws => match earliestStall ws with
    | none => some w
    | some v => some (if v.due < w.due then v else w)

/-- The stalled pop whose limit ends first returns the empty token (R405). -/
def popTimeout (n : Nat) (d : Dev) : Dev :=
  let q := d.queue n
  match earliestStall q.stalled with
  | none => d
  | some w => popAnswer w.master n w.wide (popEmpty n (d.putQueue n { q with stalled := q.stalled.erase w }))

/-- The stalled pops whose limit has elapsed return the empty token (R405). -/
def popExpire (n : Nat) (d : Dev) : Dev :=
  iterate (d.queue n).stalled.length (fun d => match earliestStall (d.queue n).stalled with
    | none => none
    | some w => if w.due < d.time.elapsed then some (popTimeout n d) else none) d

/-- Every stalled pop returns the empty token (R401, R407). -/
def popReleaseAll (n : Nat) (d : Dev) : Dev :=
  iterate (d.queue n).stalled.length (fun d => if (d.queue n).stalled.isEmpty then none else some (popTimeout n d)) d

/-- Stalled pops whose limit has not elapsed are served in arrival order while words are committed (R405). -/
def popServe (n : Nat) (d : Dev) : Dev :=
  let d := popExpire n d
  iterate (d.queue n).stalled.length (fun d =>
    let q := d.queue n
    match q.stalled with
    | [] => none
    | w :: ws =>
      if q.occupancy = 0 then none
      else some (popAnswer w.master n w.wide (popWord n (d.putQueue n { q with stalled := ws })))) d

/-- Remove the oldest packets whole until `need` words are free; each counts in LOST and raises source 124 (R406). -/
def queueMakeRoom (n need : Nat) (d : Dev) : Dev :=
  iterate ((d.queue n).packets.length) (fun d =>
    let q := d.queue n
    if q.occupancy + q.reserved + need ≤ d.queueCap n then none
    else match q.packets with
      | [] => none
      | _ :: ps => some (raiseMs 124 ((d.putQueue n { q with packets := ps, lostBefore := true }).inc (QUE_Q_LOST n)))) d

/-- A device producer reserves space for its whole packet of 1 to 64 words (R402, R406); a packet offered to a queue that is not ON, or
while the pool switches, is discarded and counted (R401, R409). Anything longer is no packet. -/
def packetReserve (n : Nat) (words : List (BitVec 64)) (d : Dev) : Dev :=
  if words.isEmpty || decide (64 < words.length) then d
  else if !d.queueOn n then d.inc (QUE_Q_REFUSED n)
  else
    let d := queueMakeRoom n words.length d
    let q := d.queue n
    queueNote n false (d.putQueue n { q with writing := q.writing ++ [words] })

/-- The words of a packet as stored, with the error QUE_TEST injects into the first of them (R412). -/
def storeWords (inject : Nat) : List (BitVec 64) → List QWord
  | [] => []
  | w :: ws => { val := w, flips := inject } :: ws.map (fun v => { val := v })

/-- The `i`-th packet being written commits: it becomes visible whole (R402), and stalled pops are served. A bad packet
is rewound and nothing is counted. -/
def packetCommit (n i : Nat) (good : Bool) (d : Dev) : Dev :=
  let q := d.queue n
  match q.writing[i]? with
  | none => d
  | some ws =>
    let q := { q with writing := q.writing.eraseIdx i }
    if good then
      popServe n (queueNote n false (d.putQueue n
        { q with packets := q.packets ++ [⟨storeWords q.inject ws, ws.length⟩], inject := 0 }))
    else d.putQueue n q

/-- A device block writes a packet whole: it reserves, writes and commits it in one step (R402). -/
def packetWrite (n : Nat) (words : List (BitVec 64)) (d : Dev) : Dev :=
  let k := (d.queue n).writing.length
  let on := d.queueOn n
  let d := packetReserve n words d
  if on then packetCommit n k true d else d

/-- Bytes as 64-bit words, lowest byte first (R402). -/
def toWords : Nat → List Byte → List (BitVec 64)
  | 0, _ => []
  | n + 1, bs => BitVec.ofNat 64 (leAt bs 0 8) :: toWords n (bs.drop 8)

/-- A block writes a record to a host queue: bytes 8w to 8w + 7 form word w (R402). -/
def queueRecord (n : Nat) (bs : List Byte) (d : Dev) : Dev := packetWrite n (toWords ((bs.length + 7) / 8) bs) d

/-- Host packets staged for queue `n` are discarded (R401, R407). -/
def stagingDrop (n : Nat) (d : Dev) : Dev :=
  { d with staging := d.staging.map (fun p => if p.2.queue = n && !p.2.words.isEmpty then (p.1, { p.2 with words := [] }) else p) }

/-- Empty a queue: committed words are removed, packets being written rewound, staged host packets discarded and stalled
pops answered with the empty token; nothing counts as lost (R407). -/
def queueEmpty (n : Nat) (d : Dev) : Dev :=
  let d := popReleaseAll n (stagingDrop n d)
  let q := d.queue n
  queueNote n true (d.putQueue n { q with packets := [], writing := [] })

/-- The code of an enable under R400: FIELD, then OVERLAP, else OK. -/
def queueEnableCode (n : Nat) (d : Dev) : Nat :=
  let lc := d.get (QUE_Q_CFG_log2_cap n)
  let lo := 64 * d.get (QUE_Q_CFG_base n)
  let hi := lo + 2 ^ lc
  if lc < 6 || 13 < lc || 32768 < hi then 1
  else if (List.range 64).any (fun k => k != n && d.get (QUE_Q_CTRL_state k) != 0 &&
      (let l := 64 * d.get (QUE_Q_CFG_base k); let h := l + d.queueCap k; lo < h && l < hi)) then 2
  else 0

/-- An enable of a queue that is OFF (R400). -/
def queueOpen (n : Nat) (d : Dev) : Dev :=
  let c := queueEnableCode n d
  let d := d.set (QUE_Q_CTRL_result n) c
  if c = 0 then (d.set (QUE_Q_CTRL_state n) 1).setFlag (QUE_Q_CTRL_enable n) true
  else d.setFlag (QUE_Q_CTRL_enable n) false

/-- enable written as 1 (R400, R401): acted on at OFF, held pending in DISABLING, without effect in ON. -/
def queueEnable (n : Nat) (d : Dev) : Dev :=
  let st := d.get (QUE_Q_CTRL_state n)
  if st = 0 then queueOpen n d
  else if st = 2 then (d.setFlag (QUE_Q_CTRL_enable n) true).setFlag (QUE_Q_CTRL_enable_pending n) true
  else d

/-- A DISABLING queue reaches OFF once nothing is being written: its content is gone, and a pending enable is acted on. -/
def queueReachOff (n : Nat) (d : Dev) : Dev :=
  if d.get (QUE_Q_CTRL_state n) = 2 && (d.queue n).writing.isEmpty then
    let d := queueEmpty n d
    let d := d.set (QUE_Q_CTRL_state n) 0
    if d.flag (QUE_Q_CTRL_enable_pending n) then queueOpen n (d.setFlag (QUE_Q_CTRL_enable_pending n) false) else d
  else d

/-- enable written as 0 (R401): DISABLING, in which stalled reads return the empty token, host packets staged are
discarded, and a device packet being written completes before the queue reaches OFF. -/
def queueDisable (n : Nat) (d : Dev) : Dev :=
  let d := (d.setFlag (QUE_Q_CTRL_enable n) false).setFlag (QUE_Q_CTRL_enable_pending n) false
  if d.get (QUE_Q_CTRL_state n) = 1 then
    queueReachOff n (popReleaseAll n (stagingDrop n (d.set (QUE_Q_CTRL_state n) 2)))
  else d

/-- PACKET_COMMIT as a step: the packet commits or is rewound, and a DISABLING queue may reach OFF (R401, R402). -/
def packetCommitStep (n i : Nat) (good : Bool) (d : Dev) : Dev := queueReachOff n (packetCommit n i good d)

/-- A write of QUE_Qn_CFG (R400): log2_cap and base only while OFF, with wr_drop on a change otherwise; stall_us always. -/
def queueCfgWrite (n v : Nat) (d : Dev) : Dev :=
  let d := if bits v 24 6 ≤ 40 then d.set (QUE_Q_CFG_stall_us n) (bits v 24 6) else d
  if d.get (QUE_Q_CTRL_state n) = 0 then
    (d.set (QUE_Q_CFG_log2_cap n) (bits v 0 4)).set (QUE_Q_CFG_base n) (bits v 8 9)
  else if bits v 0 4 != d.get (QUE_Q_CFG_log2_cap n) || bits v 8 9 != d.get (QUE_Q_CFG_base n) then
    d.setFlag (QUE_Q_CTRL_wr_drop n) true
  else d

/-- A write of QUE_Qn_WM (R408): low not below high, or high above the capacity, leaves both fields unchanged. -/
def queueWmWrite (n v : Nat) (d : Dev) : Dev :=
  let hi := bits v 0 14
  let lo := bits v 16 14
  let d := if lo < hi && hi ≤ d.queueCap n then (d.set (QUE_Q_WM_high n) hi).set (QUE_Q_WM_low n) lo else d
  queueFc ((d.set (QUE_Q_WM_fc_en n) (bits v 14 1)).set (QUE_Q_WM_fc_pin n) (bits v 30 2))

/-- clear_hwm: the mark becomes the occupancy (register QUE_Qn_OCC). -/
def queueClearHwm (n : Nat) (d : Dev) : Dev := d.set (QUE_Q_OCC_hwm n) (d.get (QUE_Q_OCC_occupancy n))

/-! ## Pushes (R403) -/

/-- What master `m` has staged. -/
def Dev.stage (d : Dev) (m : Nat) : Staging := (lookup m d.staging).getD {}

/-- Replace what a master has staged. -/
def Dev.putStage (m : Nat) (g : Staging) (d : Dev) : Dev := { d with staging := insertKey m g d.staging }

/-- PUSH_LO: the low half of the next word. -/
def pushLow (m v : Nat) (d : Dev) : Dev := d.putStage m { d.stage m with low := v }

/-- PUSH_HI: the word is appended; a 65th word, or a push to another queue while words are staged, discards the buffer
and sets push_err (R403). -/
def pushHigh (m n v : Nat) (d : Dev) : Dev :=
  let g := d.stage m
  if (!g.words.isEmpty && g.queue != n) || g.words.length = 64 then d.putStage m { g with words := [], err := true }
  else d.putStage m { g with queue := n, words := g.words ++ [BitVec.ofNat 64 (g.low + v * 2 ^ 32)] }

/-- PUSH_END COMMIT: the staged words are offered as one packet (R403); nothing staged does nothing. -/
def pushCommit (m n : Nat) (d : Dev) : Dev :=
  let g := d.stage m
  let d := d.putStage m { g with words := if g.queue = n then [] else g.words, err := false }
  if g.words.isEmpty || g.queue != n then d else packetWrite n g.words d

/-- PUSH_END BAD: the master's staged words are discarded (R403). -/
def pushBad (m : Nat) (d : Dev) : Dev := d.putStage m { d.stage m with words := [], err := false }

/-- PUSH_STAT: words this master has staged, and push_err. -/
def Dev.pushStat (d : Dev) (m : Nat) : Nat := (d.stage m).words.length + b2n (d.stage m).err * 128

/-! ## Pool modes (R409) and error injection (R412) -/

/-- The mode the pool is due: ECC, but PARITY before start-up step 7, in RECOVERY, during a re-binding and while test = 1. -/
def Dev.poolDue (d : Dev) : Nat :=
  if d.flag QUE_POOL_test || !(d.bndIs .locked || (d.bndIs .rebinding && d.flag BND_STAT_locked)) then 0 else 2

/-- A change of the due mode flushes every queue and starts the initialisation of the check bits (R409). -/
def poolUpdate (d : Dev) : Dev :=
  if d.get QUE_POOL_mode = d.poolDue then d
  else forN 64 (fun n d => queueReachOff n (queueEmpty n d)) (d.set QUE_POOL_mode 1)

/-- The initialisation of the pool ends and the due mode is in force. -/
def poolInitDone (d : Dev) : Dev := if d.get QUE_POOL_mode = 1 then d.set QUE_POOL_mode d.poolDue else d

/-- QUE_TEST: the error applies once, to the next committed word (R412); kinds 0 and 3 do nothing. -/
def errorInject (n kind : Nat) (d : Dev) : Dev :=
  if kind = 1 || kind = 2 then d.putQueue n { d.queue n with inject := kind } else d

end Sys2Proof.Machine
end

