-- ==== Sys2Proof/Machine/Logs.lean ====
section
/-! DEFINITION. The grid log and the legal log: records, appending, discards, reading and clearing (R369-R380). -/
namespace Sys2Proof.Machine

/-- The two logs, by the index of their registers: 0 grid, 1 legal. -/
inductive Log where
  | grid | legal
  deriving DecidableEq, Repr

/-- The register index of a log. -/
def Log.idx : Log → Nat
  | .grid => 0 | .legal => 1

/-- The capacity of a log in records (R369). -/
def Log.capacity : Log → Nat
  | .grid => 8192 | .legal => 4096

/-- The event source of a log (R380). -/
def Log.source : Log → Nat
  | .grid => 118 | .legal => 119

/-- The fill at which the log warns (EVR_x_CFG.warn). -/
def Dev.logWarn (d : Dev) : Log → Nat
  | .grid => d.get EVR_GRID_CFG_warn | .legal => d.get EVR_LEG_CFG_warn

/-- The records held, oldest first. -/
def Dev.logRecords (d : Dev) : Log → List (List Byte)
  | .grid => d.logs.grid | .legal => d.logs.legal

/-- Replace the records held; fill and full follow. -/
def Dev.putLog (l : Log) (rs : List (List Byte)) (d : Dev) : Dev :=
  let d := match l with
    | .grid => { d with logs := { d.logs with grid := rs } }
    | .legal => { d with logs := { d.logs with legal := rs } }
  (d.set (EVR_STAT_fill l.idx) rs.length).setFlag (EVR_STAT_full l.idx) (rs.length == l.capacity)

/-- A record is not recorded: the discard counter advances and the source is raised (R376, R380). -/
def logDiscard (l : Log) (d : Dev) : Dev :=
  let d := d.inc (EVR_DISCARD l.idx)
  let d := match l with
    | .grid => d
    | .legal => { d with nvm := { d.nvm with legalDiscard := min (d.nvm.legalDiscard + 1) (2 ^ 32 - 1) } }
  raiseMs l.source d

/-- A record enters a log, or is discarded when the log is full; the source is raised at the warning and when full. -/
def logAppend (l : Log) (r : List Byte) (d : Dev) : Dev :=
  let rs := d.logRecords l
  if l.capacity ≤ rs.length then logDiscard l d
  else
    let d := d.putLog l (rs ++ [r])
    let n := rs.length + 1
    if n = d.logWarn l || n = l.capacity then raiseMs l.source d else d

/-- A 32-bit little-endian parameter. -/
def p32 (v : Nat) : List Byte := toLe 4 v

/-- A grid record (R371), stamped with an instant. -/
def gridRecord (code stamp p0 p1 p2 p3 : Nat) (d : Dev) : List Byte :=
  let flags := b2n (d.timeState != 3) + b2n (d.timeState == 0) * 2 + b2n (!d.flag TBS_UTC_valid) * 4
  toLe 2 code ++ toLe 2 flags ++ toLe 2 (d.get TBS_UTC_utc_offset) ++ toLe 2 0 ++ toLe 8 stamp ++ p32 p0 ++ p32 p1 ++ p32 p2 ++ p32 p3

/-- Append a grid record stamped now (R370, R371). -/
def gridLog (code p0 p1 p2 p3 : Nat) (d : Dev) : Dev := logAppend .grid (gridRecord code d.now p0 p1 p2 p3 d) d

/-- Operating seconds (ENR_OPSEC). -/
def Dev.opSec (d : Dev) : Nat := d.enr.opBase + d.elapsedSince d.enr.opMark

/-- The stamp of a legal record (R372): operating seconds in [39:0] and the power-cycle count in [63:40], saturating. -/
def Dev.legalStamp (d : Dev) : Nat := min d.opSec (2 ^ 40 - 1) + min d.nvm.cycles (2 ^ 24 - 1) * 2 ^ 40

/-- A legal record (R372). -/
def legalRecord (code seq p0 p1 p2 p3 : Nat) (d : Dev) : List Byte :=
  toLe 2 code ++ toLe 2 (d.get ENR_SEAL_STAT_open) ++ toLe 4 seq ++ toLe 8 d.legalStamp ++ p32 p0 ++ p32 p1 ++ p32 p2 ++ p32 p3

/-- The pending queue of the legal log has room (R374). -/
def Dev.legalRoom (d : Dev) : Bool := d.logs.legalQueue.length < 128

/-- Append a legal record to the pending queue; at a full log or a full queue it is discarded and counted (R374, R376). -/
def legalLog (code p0 p1 p2 p3 : Nat) (d : Dev) : Dev :=
  if !d.legalRoom || 4096 ≤ d.logs.legal.length then logDiscard .legal d
  else
    let r := legalRecord code d.logs.legalSeq p0 p1 p2 p3 d
    { d with logs := { d.logs with legalQueue := d.logs.legalQueue ++ [r], legalSeq := (d.logs.legalSeq + 1) % 2 ^ 32 } }

/-- A kind of NVM write waits or is in progress. -/
def Dev.nvmHas (d : Dev) : NvmWriter → Bool
  | .append => !d.logs.legalQueue.isEmpty
  | .save => d.enr.saving.isSome
  | .store => d.pwr.store.isSome

/-- Whose write is in progress: only one at a time, a legal append before a save, and both between the chunks of a store (R468). -/
def Dev.nvmOwner (d : Dev) : Option NvmWriter :=
  match d.pwr.writer with
  | some w => if d.nvmHas w then some w else [.append, .save, .store].find? d.nvmHas
  | none => [.append, .save, .store].find? d.nvmHas

/-- The write in progress ends. -/
def nvmFree (d : Dev) : Dev := { d with pwr := { d.pwr with writer := none } }

/-- The oldest pending legal record has been written to NVM and read back: it becomes visible (R374). It waits for a write in
progress. One whose turn comes when the log has filled is discarded and not written (DEDUCED, log entry 7). With the LOG_CLEARED of a
clear the discards counted before the clear go from NVM too (R379). -/
def legalWriteDone (d : Dev) : Dev :=
  if d.nvmOwner != some .append then d
  else match d.logs.legalQueue with
  | [] => d
  | r :: rs =>
    let d := { nvmFree d with logs := { d.logs with legalQueue := rs } }
    if 4096 ≤ d.logs.legal.length then logDiscard .legal d
    else
      let gone := if leAt r 0 2 = 0x11FF then leAt r 24 4 else 0
      logAppend .legal r { d with nvm := { d.nvm with legal := d.nvm.legal ++ [r], legalDiscard := d.nvm.legalDiscard - gone } }

/-- A legal parameter write may be accepted: its record can enter the pending queue and the log is not full (R377). -/
def Dev.legalAccepts (d : Dev) : Bool := d.legalRoom && d.logs.legal.length < 4096

/-! ## Reading (R378) -/

/-- The snapshot of the record at an index into the copies of master `m`: zero at or beyond fill. -/
def logSnapshot (l : Log) (m i : Nat) (d : Dev) : Dev :=
  let r := (d.logRecords l).getD i (List.replicate 32 0)
  let d := forN 8 (fun w d => d.set (EVR_REC m l.idx w) (leAt r (4 * w) 4)) d
  d.set (EVR_RECNUM m l.idx) (d.get (EVR_HEAD l.idx) + i)

/-- A write of EVR_x_IDX (R378): values above 8,192 are reserved. -/
def logSelect (l : Log) (m i : Nat) (d : Dev) : Dev :=
  if 8192 < i then d else logSnapshot l m i (d.set (EVR_IDX_index m l.idx) i)

/-- A read of EVR_x_REC7 answers its word and then advances the index, saturating at 8,192 (R378). -/
def logAdvance (l : Log) (m : Nat) (d : Dev) : Dev :=
  let i := min (d.get (EVR_IDX_index m l.idx) + 1) 8192
  logSnapshot l m i (d.set (EVR_IDX_index m l.idx) i)

/-! ## Clearing (R379) -/

/-- The result of a CLEAR of `n` records by master `m`: COUNT, then HEAD, then SEALED. -/
def clearCode (l : Log) (m n : Nat) (d : Dev) : Nat :=
  if n = 0 || (d.logRecords l).length < n then 1
  else if d.get (EVR_CONFIRM m l.idx) != d.get (EVR_HEAD l.idx) then 2
  else if l = .legal && !d.flag ENR_SEAL_STAT_open then 3 else 0

/-- A CLEAR by a master that the fixed rule and the access check let through. An accepted clear removes the `n` oldest
records, appends LOG_CLEARED and clears the discard counter (R379). -/
def logClear (l : Log) (m n : Nat) (d : Dev) : Dev :=
  let c := clearCode l m n d
  let d := d.set (EVR_STAT_result l.idx) c
  let d := raiseMs l.source d
  if c != 0 then d
  else
    let head := d.get (EVR_HEAD l.idx)
    let disc := d.get (EVR_DISCARD l.idx)
    let d := (d.putLog l ((d.logRecords l).drop n)).set (EVR_HEAD l.idx) (head + n)
    let d := d.set (EVR_DISCARD l.idx) 0
    match l with
    | .grid => gridLog 0x10FF n head disc m d
    | .legal => legalLog 0x11FF n head disc m d

/-! ## Start-up scan (R375) -/

/-- The sequence number of a legal record. -/
def recSeq (r : List Byte) : Nat := leAt r 4 4

/-- The head the scan finds: p1 + p0 of the newest LOG_CLEARED, else the lowest sequence, else 0. The records of the
area are kept in the order of their writes, so the newest is the last. -/
def scanHead (rs : List (List Byte)) : Nat :=
  match rs.reverse.find? (fun r => leAt r 0 2 == 0x11FF) with
  | some r => (leAt r 20 4 + leAt r 16 4) % 2 ^ 32
  | none => match rs with
    | [] => 0
    | r :: _ => recSeq r

/-- The legal-log area is scanned (R375): torn slots are counted, and the live records are established. -/
def legalScan (d : Dev) : Dev :=
  let h := scanHead d.nvm.legal
  let live := d.nvm.legal.filter (fun r => (recSeq r + 2 ^ 32 - h) % 2 ^ 32 < 4096)
  let next := match live.getLast? with
    | some r => (recSeq r + 1) % 2 ^ 32
    | none => h
  let d := d.set EVR_LEG_TORN d.nvm.torn
  let d := { d with logs := { d.logs with legalQueue := [], legalSeq := next }, nvm := { d.nvm with legal := live, torn := 0 } }
  ((d.putLog .legal live).set (EVR_HEAD 1) h).set (EVR_DISCARD 1) d.nvm.legalDiscard

end Sys2Proof.Machine
end

