-- ==== Sys2Proof/Machine/Time.lean ====
section
/-! DEFINITION. Device time: the counter, its steps, the time states, the own-time quality, UTC and leap seconds, the
time-trigger outputs and the DIN capture (R52-R56, R62-R67, R70-R75). -/
namespace Sys2Proof.Machine

/-! ## The counter (R52, R53) -/

/-- The TBC domain gives ticks: it is RAMPING or ON (R53, R445). -/
def Dev.tbcRuns (d : Dev) : Bool := d.get (CKP_DOM_CTRL_state 0) == 1 || d.get (CKP_DOM_CTRL_state 0) == 2

/-- COAST (R439). -/
def Dev.coast (d : Dev) : Bool := d.flag CKP_STAT_coast

/-- The nominal increment in 2^-32 ns. -/
def Dev.incrNom (d : Dev) : Nat := d.get TBS_INCR_NOM_LO + 2 ^ 32 * d.get TBS_INCR_NOM_HI_value

/-- What a tick adds (R53): the current increment, or 1.5625 × nominal in COAST, rounded down to a unit of the counter (DESIGN CHOICE, log
entry 166). -/
def Dev.tickStep (d : Dev) : Nat := if d.coast then d.incrNom * 25 / 16 else d.time.incr

/-- Elapsed time of a tick in quarter ns (R64). -/
def Dev.tickElapsed (d : Dev) : Nat := if d.coast then 25 else 16

/-- One TBC tick. -/
def tick (d : Dev) : Dev :=
  if d.tbcRuns then
    { d with time := { d.time with clock := (d.time.clock + d.tickStep) % clockSpan, elapsed := d.time.elapsed + d.tickElapsed } }
  else d

/-- `n` ticks of TBC pass, each with the increment in force. -/
def passTicks (n : Nat) (d : Dev) : Dev :=
  { d with time := { d.time with clock := (d.time.clock + n * d.tickStep) % clockSpan, elapsed := d.time.elapsed + n * d.tickElapsed } }

/-- Ticks may pass: TBC runs, and no step waits for the next tick, which is COUNTER_STEP's (R55). -/
def Dev.tickable (d : Dev) : Bool := d.tbcRuns && d.time.pending.isNone

/-- Time passes until the first tick at or after device time `t` (DESIGN CHOICE, log entry 1); with a zero increment no tick reaches it. -/
def passTo (t : Nat) (d : Dev) : Dev :=
  if d.tickable && d.now < t && 0 < d.tickStep then passTicks (cdiv ((t - d.now) * nsUnit - d.time.clock % nsUnit) d.tickStep) d else d

/-- Time passes until the first tick at or after `e` quarter ns of elapsed TBC time (DESIGN CHOICE, log entry 1). -/
def passElapsed (e : Nat) (d : Dev) : Dev :=
  if d.tickable && d.time.elapsed < e then passTicks (cdiv (e - d.time.elapsed) d.tickElapsed) d else d

/-- An effect that falls due at device time `t`: it takes place once the counter has reached `t`, and not while the
counter stands before `t` without ticks. -/
def atTime (t : Nat) (f : Dev → Dev) (d : Dev) : Dev :=
  let d := passTo t d
  if d.now < t then d else f d

/-- An effect that falls due at `e` quarter ns of elapsed TBC time, and not before. -/
def atElapsed (e : Nat) (f : Dev → Dev) (d : Dev) : Dev :=
  let d := passElapsed e d
  if d.time.elapsed < e then d else f d

/-! ## Own-time quality (R65) -/

/-- The smallest TIME_QUALITY code whose bound exceeds an error of `e` ns. -/
def qualityCode (e : Nat) : Nat :=
  if e < 1000 then 4 else if e < 10000 then 5 else if e < 100000 then 6 else if e < 1000000 then 7
  else if e < 10000000 then 8 else if e < 100000000 then 9 else if e < 1000000000 then 10
  else if e < 10000000000 then 11 else 15

/-- The unlocked-time bits for a count of seconds. -/
def unlockedCode (s : Nat) : Nat := if s < 10 then 0 else if s < 100 then 1 else if s < 1000 then 2 else 3

/-- Whole seconds since LOCKED was last left (R64); 0 in the first LOCKED period too (DEDUCED, log entry 194). -/
def Dev.sinceLocked (d : Dev) : Nat :=
  if d.timeState = 3 then 0
  else match d.time.lockedLeft with
    | none => 65535
    | some m => min (d.elapsedSince m) 65535

/-- The holdover error estimate (R64); 0 outside HOLDOVER. -/
def Dev.holdEst (d : Dev) : Nat :=
  if d.timeState = 2 then min (100 + d.get TBS_HOLD_CFG_drift_ppb * d.elapsedSince d.time.holdFrom) (2 ^ 32 - 1) else 0

/-- The last offset in ns, away from zero where it is not whole. -/
def Dev.offsetAbs (d : Dev) : Nat := d.time.offset.natAbs / 65536

/-- Publish the own-time quality and the holdover estimate (R64, R65). -/
def updateTq (d : Dev) : Dev :=
  let since := d.sinceLocked
  let st := d.timeState
  let est := d.holdEst
  let code := if st = 3 then 0 else if st = 2 then qualityCode est
    else if st = 1 && d.time.selected.isSome then qualityCode d.offsetAbs else 15
  let unl := if st = 3 then 0 else if st = 0 then 3 else unlockedCode since
  let err := if st = 3 then false else if st = 2 then !(est < d.get TBS_HOLD_CFG_sync_ns) else true
  let d := (d.set TBS_TQ_code code).set TBS_TQ_unlocked unl
  ((d.setFlag TBS_TQ_sync_err err).set TBS_TQ_since_locked since).set TBS_HOLD_EST est

/-! ## The increment and the frequency (R61, R62) -/

/-- Put an increment in force and show it in the INCR pair. -/
def setIncr (i : Nat) (d : Dev) : Dev :=
  let i := i % 2 ^ 40
  let d := { d with time := { d.time with incr := i } }
  (d.set TBS_INCR_LO i).set TBS_INCR_HI_value (i / 2 ^ 32)

/-- nominal × (1 + freq × 10⁻⁹), rounded half to even; freq in 2^-4 ppb. -/
def incrOf (nominal : Nat) (freq : Int) : Nat := natOf (divHalfEven ((nominal : Int) * (16000000000 + freq)) 16000000000)

/-- The frequency of the current increment, in 2^-4 ppb. -/
def Dev.currentFreq (d : Dev) : Int :=
  if d.incrNom = 0 then 0 else divHalfEven (((d.time.incr : Int) - d.incrNom) * 16000000000) d.incrNom

/-- CKP_REF_PPB (R453): the negated servo correction, valid in ENGINE mode while LOCKED. -/
def updateRefPpb (d : Dev) : Dev :=
  let d := d.setI CKP_REF_PPB (-d.getI TBS_SERVO_FREQ)
  d.setFlag CKP_STAT_ref_ppb_valid (d.get TBS_CTRL_ptp_mode == 1 && d.timeState == 3)

/-- The clamp in 2^-4 ppb. -/
def Dev.clamp16 (d : Dev) : Int := (d.get TBS_SERVO_LIM_clamp_ppm : Int) * 1000 * 16

/-- Put a frequency correction in force; an arrival at the clamp raises source 16 (R61). -/
def setFreq (f : Int) (d : Dev) : Dev :=
  let d := { d with time := { d.time with freq := f } }
  let d := updateRefPpb (setIncr (incrOf d.incrNom f) (d.setI TBS_SERVO_FREQ f))
  let atClamp := f.natAbs == d.clamp16.natAbs
  let was := d.flag TBS_STATE_clamp
  let d := d.setFlag TBS_STATE_clamp atClamp
  if atClamp && !was then raise 16 d else d

/-! ## Time states (R63) -/

/-- The time state changes: the state, the marks of R64, source 12 and a TIME_STATE record. HOLDOVER applies
freq := −integ, once (DEDUCED, log entry 193). -/
def setTimeState (new : Nat) (d : Dev) : Dev :=
  let old := d.timeState
  if old = new then updateTq d
  else
    let d := d.set TBS_STATE_state new
    let d := { d with time := { d.time with
      goodRun := 0, badRun := 0, newMaster := false
      lockedLeft := if old = 3 then some d.time.elapsed else d.time.lockedLeft
      holdFrom := if new = 2 then d.time.elapsed else d.time.holdFrom
      firstUpdate := d.time.firstUpdate || new == 0
      stepped := if new = 0 then false else d.time.stepped } }
    let d := gridLog 0x1001 old new (d.get TBS_CTRL_ptp_mode) 0 (raise 12 d)
    let d := if new = 2 && d.get TBS_CTRL_ptp_mode == 1 then setFreq (-d.time.integ) d else d
    updateRefPpb (updateTq d)

/-! ## Commands of TBS_CTRL (R55, R62, R63) -/

/-- A command of TBS_CTRL is refused. -/
def timeRefuse (d : Dev) : Dev := d.setFlag TBS_STATE_cmd_refused true

/-- SET (R55). -/
def timeSetCmd (d : Dev) : Dev :=
  if d.get TBS_CTRL_ptp_mode = 1 || 1000000000 ≤ d.get TBS_SET_NS || d.time.pending.isSome then timeRefuse d
  else { d with time := { d.time with pending := some (.set (d.get TBS_SET_SEC_LO + 2 ^ 32 * d.get TBS_SET_SEC_HI_value) (d.get TBS_SET_NS)) } }

/-- ADJ (R55). -/
def timeAdjCmd (d : Dev) : Dev :=
  if d.get TBS_CTRL_ptp_mode = 1 || d.time.pending.isSome then timeRefuse d
  else { d with time := { d.time with pending := some (.adj (d.getI TBS_ADJ * 65536)) } }

/-- set_state: acted on only in HOST and ENGINE_NOSERVO modes and while not INVALID; 0 does nothing (R63). -/
def timeSetState (v : Nat) (d : Dev) : Dev :=
  if v = 0 || d.get TBS_CTRL_ptp_mode = 1 || d.timeState = 0 then d else setTimeState v d

/-- ptp_mode changes (R62): a change to ENGINE loads integ with the negated frequency of the current increment. -/
def ptpModeChange (v : Nat) (d : Dev) : Dev :=
  if 2 < v || v = d.get TBS_CTRL_ptp_mode then d
  else
    let d := d.set TBS_CTRL_ptp_mode v
    updateRefPpb (if v = 1 then { d with time := { d.time with integ := -d.currentFreq } } else d)

/-- A write of TBS_INCR_LO or _HI (R62): discarded in ENGINE mode; a write of HI applies the pair. -/
def incrWrite (hi : Bool) (v : Nat) (d : Dev) : Dev :=
  if d.get TBS_CTRL_ptp_mode = 1 then d
  else if hi then
    let d := d.set TBS_INCR_HI_value v
    { d with time := { d.time with incr := d.get TBS_INCR_LO + 2 ^ 32 * d.get TBS_INCR_HI_value } }
  else d.set TBS_INCR_LO v

/-- A command word of TBS_CTRL: the mode, the command and set_state of one write. -/
def timeCtrlWrite (v : Nat) (d : Dev) : Dev :=
  let d := ptpModeChange (bits v 8 2) d
  let d := if bits v 0 2 = 1 then timeSetCmd d else if bits v 0 2 = 2 then timeAdjCmd d else d
  timeSetState (bits v 2 2) d

/-! ## A step of the counter (R56) -/

/-- The pending step takes effect at this tick (R55): SET loads the time and clears the fraction, and the tick adds nothing to it; a signed
change adds to the counter after its tick, and stops at zero (DESIGN CHOICE, log entry 166). -/
def applyStep (c : TimeCmd) (d : Dev) : Dev :=
  match c with
  | .set sec ns => { d with time := { d.time with clock := (sec * 1000000000 + ns) * nsUnit % clockSpan, elapsed := d.time.elapsed + d.tickElapsed, pending := none } }
  | .adj δ =>
    let d := tick d
    { d with time := { d.time with clock := ((d.time.clock : Int) + δ * 65536).toNat % clockSpan, pending := none } }

/-- The state rows of R63 that a step takes. -/
def stepState (d : Dev) : Dev :=
  let d := { d with time := { d.time with stepped := true } }
  if d.timeState = 0 && !d.coast then setTimeState 1 d
  else if d.get TBS_CTRL_ptp_mode = 1 && (d.timeState = 3 || d.timeState = 2) then setTimeState 1 d
  else d

/-! ## Time-trigger outputs (R72-R74) -/

/-- The programmed start of output `n`. -/
def Dev.ttoStart (d : Dev) (n : Nat) : Nat := d.get2 (TBS_TTO_START_LO n) (TBS_TTO_START_HI n)

/-- The first instant of output `n` that is its start, from `t` on, or else lies after `t`; none for a one-shot already passed. -/
def Dev.ttoFrom (d : Dev) (n t : Nat) : Option Nat :=
  let s := d.ttoStart n
  let p := d.get (TBS_TTO_PERIOD n)
  if t ≤ s then some s else if p = 0 then none else some (s + ((t - s) / p + 1) * p)

/-- An instant is not emitted: counted, and source 19 is raised (R73). -/
def ttoMiss (n k : Nat) (d : Dev) : Dev := if k = 0 then d else raise 19 (d.add (TBS_TTO_STAT_miss_count n) k)

/-- Schedule the next instant of an output. -/
def Dev.ttoPlan (n : Nat) (t : Option Nat) (d : Dev) : Dev :=
  { d with time := { d.time with ttoNext := match t with
    | none => eraseKey n d.time.ttoNext
    | some x => insertKey n x d.time.ttoNext } }

/-- The output goes to OFF; a pending enable is not acted on here. -/
def ttoOff (n : Nat) (d : Dev) : Dev :=
  ((d.set (TBS_TTO_STAT_state n) 0).setFlag (TBS_TTO_CTRL_enable n) false).ttoPlan n none

/-- An enable from OFF (R72, R73): the checks, then ON from the first instant after the enable; a one-shot whose start has
passed is missed and stays OFF. -/
def ttoOpen (n : Nat) (d : Dev) : Dev :=
  let p := d.get (TBS_TTO_PERIOD n)
  let w := d.get (TBS_TTO_WIDTH n)
  let good := if p = 0 then 4 ≤ w else 100 ≤ p && 4 ≤ w && w + 4 ≤ p
  if !good then (d.setFlag (TBS_TTO_STAT_cfg_err n) true).setFlag (TBS_TTO_CTRL_enable n) false
  else if p = 0 && d.ttoStart n < d.now then
    ttoMiss n 1 (d.setFlag (TBS_TTO_CTRL_enable n) false)
  else ((d.set (TBS_TTO_STAT_state n) 1).setFlag (TBS_TTO_CTRL_enable n) true).ttoPlan n (d.ttoFrom n d.now)

/-- enable written as 1 (R72, R74). -/
def ttoEnable (n : Nat) (d : Dev) : Dev :=
  let st := d.get (TBS_TTO_STAT_state n)
  if st = 0 then ttoOpen n d
  else if st = 2 then (d.setFlag (TBS_TTO_STAT_enable_pending n) true).setFlag (TBS_TTO_CTRL_enable n) true
  else d

/-- The pulse of output `n` is active. -/
def Dev.ttoActive (d : Dev) (n : Nat) : Bool := (lookup n d.time.ttoPulse).isSome

/-- enable written as 0 (R74): OFF at once with the pulse inactive, else DISABLING until the trailing edge. -/
def ttoDisable (n : Nat) (d : Dev) : Dev :=
  let d := (d.setFlag (TBS_TTO_CTRL_enable n) false).setFlag (TBS_TTO_STAT_enable_pending n) false
  if d.get (TBS_TTO_STAT_state n) = 1 then
    if d.ttoActive n then (d.set (TBS_TTO_STAT_state n) 2).ttoPlan n none else ttoOff n d
  else d

/-- The tick at which an instant `t` was due has passed. -/
def Dev.tickPassed (d : Dev) (t : Nat) : Bool := t * nsUnit + d.tickStep ≤ d.time.clock

/-- An instant is reached (R72, R73): the leading edge at the instant rounded up to 4 ns, or a miss while gated. It is never emitted late:
once its tick has passed it is a miss (DEDUCED, log entry 167). A one-shot that has emitted goes to OFF by itself at its trailing edge. -/
def ttoInstant (n : Nat) (d : Dev) : Dev :=
  match lookup n d.time.ttoNext with
  | none => d
  | some t => atTime ((t + 3) / 4 * 4) (fun d =>
    let p := d.get (TBS_TTO_PERIOD n)
    let gated := d.flag (TBS_TTO_CTRL_gate n) && d.timeState ≤ 1
    let d := d.ttoPlan n (if p = 0 then none else some (t + p))
    if gated || d.tickPassed ((t + 3) / 4 * 4) then
      let d := ttoMiss n 1 d
      if p = 0 then ttoOff n d else d
    else { d with time := { d.time with
      ttoPulse := insertKey n (d.time.elapsed + 4 * d.get (TBS_TTO_WIDTH n)) d.time.ttoPulse } }) d

/-- The trailing edge, width ns of TBC ticks after the leading edge (R72, R74). -/
def ttoTrailing (n : Nat) (d : Dev) : Dev :=
  match lookup n d.time.ttoPulse with
  | none => d
  | some e =>
    let d := passElapsed e d
    if d.time.elapsed < e then d
    else
      let d := { d with time := { d.time with ttoPulse := eraseKey n d.time.ttoPulse } }
      if d.get (TBS_TTO_STAT_state n) = 2 then
        let d := d.set (TBS_TTO_STAT_state n) 0
        if d.flag (TBS_TTO_STAT_enable_pending n) then
          let d := d.setFlag (TBS_TTO_STAT_enable_pending n) false
          if d.flag (TBS_TTO_CTRL_enable n) then ttoOpen n d else d
        else d
      else if d.get (TBS_TTO_PERIOD n) = 0 then ttoOff n d else d

/-- A write of START, PERIOD or WIDTH (R74): discarded with wr_drop unless OFF; a period of 1 to 99 is reserved. -/
def ttoCfgWrite (n : Nat) (f : Fld) (v : Nat) (d : Dev) : Dev :=
  if d.get (TBS_TTO_STAT_state n) != 0 then d.setFlag (TBS_TTO_STAT_wr_drop n) true
  else if f = TBS_TTO_PERIOD n && 1 ≤ v && v ≤ 99 then d
  else d.set f v

/-- A write of TBS_TTOn_CTRL (R74): polarity is discarded unless OFF, gate applies, enable acts. -/
def ttoCtrlWrite (n v : Nat) (d : Dev) : Dev :=
  let d := if d.get (TBS_TTO_STAT_state n) = 0 then d.set (TBS_TTO_CTRL_polarity n) (bits v 1 1) else d
  let d := d.set (TBS_TTO_CTRL_gate n) (bits v 2 1)
  if bitAt v 0 then ttoEnable n d else ttoDisable n d

/-- The level at the ball of output `n`. -/
def Dev.ttoLevel (d : Dev) (n : Nat) : Bool := d.ttoActive n != d.flag (TBS_TTO_CTRL_polarity n)

/-- After a step (R73): instants a forward step jumps over are missed; a backward step continues a periodic output from
the first instant after the new time. -/
def ttoAfterStep (before : Nat) (d : Dev) : Dev :=
  forN 8 (fun n d =>
    match lookup n d.time.ttoNext with
    | none => d
    | some t =>
      let p := d.get (TBS_TTO_PERIOD n)
      if before ≤ d.now then
        if t < d.now then
          if p = 0 then ttoOff n (ttoMiss n 1 d)
          else
            let k := cdiv (d.now - t) p
            ttoMiss n k (d.ttoPlan n (some (t + k * p)))
        else d
      else if p = 0 then d else d.ttoPlan n (d.ttoFrom n d.now)) d

/-- The intervals in which masters are timed are elapsed time: a step moves the times kept for them along (DEDUCED, log entry 164). -/
def mastersAfterStep (before : Nat) (d : Dev) : Dev :=
  let move (t : Nat) : Nat := natOf ((t : Int) + d.now - before)
  { d with time := { d.time with foreign := d.time.foreign.map (fun f =>
    { f with seen := f.seen.map move, lastSync := move f.lastSync }) } }

/-- What is in force at a backward step is in force from the new time on (DEDUCED, log entry 83). -/
def pastAfterStep (d : Dev) : Dev := { d with time := { d.time with past := d.time.past.map (fun q => (min q.1 d.now, q.2)) } }

/-- The time base's own part of a step: the counter, the record, source 13, merged raises, outputs and the state. -/
def counterStep (d : Dev) : Dev :=
  match d.time.pending with
  | none => d
  | some c =>
    if !d.tbcRuns then d
    else
      let before := d.now
      let d := raise 13 (remergeAfterStep (pastAfterStep (applyStep c d)))
      let d := gridLog 0x1002 before (before / 2 ^ 32) d.now (d.now / 2 ^ 32) d
      stepState (ttoAfterStep before (mastersAfterStep before d))

/-! ## Holdover (R63, R64) -/

/-- A whole second since HOLDOVER was entered, or since LOCKED was left, has elapsed: the counts are published. `fromHold`
names the mark whose next second it is. -/
def holdoverSecond (fromHold : Bool) (d : Dev) : Dev :=
  let mark := if fromHold then some d.time.holdFrom else d.time.lockedLeft
  match mark with
  | none => d
  | some m =>
    if d.timeState = 3 || (fromHold && d.timeState != 2) then d
    else updateTq (passElapsed (m + (d.elapsedSince m + 1) * 4000000000) d)

/-- holdover_s elapsed in HOLDOVER, in ENGINE mode: FREERUN (R63). -/
def holdoverTimeout (d : Dev) : Dev :=
  if d.timeState = 2 && d.get TBS_CTRL_ptp_mode = 1 then
    let e := d.time.holdFrom + d.get TBS_LOCK_CFG_holdover_s * 4000000000
    let d := passElapsed e d
    if d.time.elapsed < e then d else setTimeState 1 (updateTq d)
  else d

/-! ## UTC and leap seconds (R66, R67) -/

/-- The leap field changes: setting and clearing a leap raises source 14 (R67). -/
def setLeap (v : Nat) (d : Dev) : Dev :=
  if v = d.get TBS_UTC_leap then d
  else raise 14 { (d.set TBS_UTC_leap v) with time := { d.time with leapSet := d.now } }

/-- utc_offset and leap are set by one of the sources. -/
def setUtc (off leap : Nat) (d : Dev) : Dev := setLeap leap ((d.set TBS_UTC_utc_offset off).setFlag TBS_UTC_valid true)

/-- A write of TBS_UTC (R66): governed by the src it carries; a reserved leap encoding leaves leap unchanged. -/
def utcWrite (v : Nat) (d : Dev) : Dev :=
  let d := d.set TBS_UTC_src (bits v 20 1)
  if bitAt v 20 then setUtc (bits v 0 16) (if bits v 16 2 = 3 then d.get TBS_UTC_leap else bits v 16 2) d else d

/-- One day in ns. -/
def dayNs : Int := 86400000000000

/-- The device time at which a pending leap is applied (R67): the first UTC midnight, by the current offset, after it was
set; one second earlier for a deletion. -/
def Dev.leapDue (d : Dev) : Nat :=
  let off := d.getI TBS_UTC_utc_offset * 1000000000
  let cal := (d.time.leapSet : Int) - off
  let back : Int := if d.get TBS_UTC_leap = 2 then 1000000000 else 0
  natOf (((cal + back) / dayNs + 1) * dayNs - back + off)

/-- The leap is applied (R67). -/
def leapApply (d : Dev) : Dev :=
  let k := d.get TBS_UTC_leap
  if k = 0 then d
  else atTime d.leapDue (fun d =>
    let d := d.setI TBS_UTC_utc_offset (d.getI TBS_UTC_utc_offset + (if k = 1 then 1 else -1))
    let d := ((d.set TBS_UTC_leap 0).set TBS_UTC_leap_dir (if k = 1 then 0 else 1)).setFlag TBS_UTC_leap_occurred true
    raise 14 { d with time := { d.time with leapAt := some d.now } }) d

/-- leap_occurred is held for 86,400 s (R67). -/
def leapExpire (d : Dev) : Dev :=
  match d.time.leapAt with
  | none => d
  | some t => atTime (t + 86400000000000) (fun d =>
    { (d.setFlag TBS_UTC_leap_occurred false) with time := { d.time with leapAt := none } }) d

/-! ## The time quality and TBS_UTC at an instant (R133, R325) -/

/-- TBS_TQ.code, the time state and the word of TBS_UTC. -/
def Dev.timeWords (d : Dev) : Nat × Nat × Nat := (d.get TBS_TQ_code, d.timeState, (d.word TBS_UTC_utc_offset.key).toNat)

/-- A change of them is kept with its device time. -/
def timeNotice (d : Dev) : Dev :=
  match d.time.past with
  | (_, p) :: _ => if p = d.timeWords then d else { d with time := { d.time with past := (d.now, d.timeWords) :: d.time.past } }
  | [] => { d with time := { d.time with past := [(d.now, d.timeWords)] } }

/-- What they were at device time `t`. -/
def Dev.timeAt (d : Dev) (t : Nat) : Nat × Nat × Nat :=
  match d.time.past.find? (fun q => decide (q.1 ≤ t)) with
  | some q => q.2
  | none => match d.time.past.getLast? with
    | some q => q.2
    | none => d.timeWords

/-! ## Time capture (R54) -/

/-- The value a captured counter shows at one of the five capture registers, by BAR0 offset. -/
def captureValue (clock off : Nat) : Nat :=
  let ns := clock / nsUnit
  let sec := ns / 1000000000
  if off = 0x40008 then clock % nsUnit / 0x10000
  else if off = 0x4000C then ns % 1000000000
  else if off = 0x40010 then sec % 2 ^ 32
  else if off = 0x40014 then sec / 2 ^ 32 % 2 ^ 16
  else if off = 0x40018 then ns % 2 ^ 32
  else ns / 2 ^ 32 % 2 ^ 32

/-- A read of a time register by master `m`: TIME_FRAC and NOW_LO capture the whole counter for that master; a master
that has captured nothing reads the live counter (DEDUCED after R10, log entry 6). -/
def timeRead (m off : Nat) (d : Dev) : Nat × Dev :=
  if off = 0x40008 || off = 0x40018 then
    (captureValue d.time.clock off, { d with time := { d.time with shadows := insertKey m d.time.clock d.time.shadows } })
  else (captureValue ((lookup m d.time.shadows).getD d.time.clock) off, d)

/-! ## Transmit stamp queues (R70, R71) -/

/-- The stamps queued for port `p`. -/
def Dev.txq (d : Dev) (p : Nat) : List TxStamp := (lookup p d.time.txq).getD []

/-- Replace the stamps queued for a port. -/
def Dev.putTxq (p : Nat) (q : List TxStamp) (d : Dev) : Dev :=
  ({ d with time := { d.time with txq := insertKey p q d.time.txq } }).set (TBS_P_TXQ_STAT_count p) q.length

/-- A stamp arrives at a queue: discarded at a full one, with overflow and source 17; the first of an empty queue with
irq_en = 1 raises source 18 (R71). -/
def txqPush (p : Nat) (s : TxStamp) (d : Dev) : Dev :=
  let q := d.txq p
  if 16 ≤ q.length then
    raise 17 ((d.setFlag (TBS_P_TXQ_STAT_overflow p) true).inc (TBS_P_TXQ_STAT_ovf_count p))
  else
    let d := d.putTxq p (q ++ [s])
    if q.isEmpty && d.flag (TBS_P_TXQ_STAT_irq_en p) then raise 18 d else d

/-- A read of TXQ_ID by master `m` removes the oldest entry into that master's shadow (R70); an empty queue answers
valid = 0 and changes nothing. -/
def txqPop (p m : Nat) (d : Dev) : Nat × Dev :=
  match d.txq p with
  | [] => (0, d)
  | s :: q =>
    let d := d.putTxq p q
    let d := d.set (TBS_P_TXQ_NS m p) (s.stamp % 1000000000)
    let d := d.set (TBS_P_TXQ_SEC_LO m p) (s.stamp / 1000000000)
    (s.id, d.set (TBS_P_TXQ_SEC_HI_value m p) (s.stamp / 1000000000 / 2 ^ 32))

/-! ## DIN capture (R75) -/

/-- The sample of device time `t` (a multiple of 1,000 ns) is the `run`-th consecutive one of DIN `n` at a level: the edge
is confirmed once the run reaches filt_us + 1, with the filt_us in force at that sample. -/
def dinConfirm (n : Nat) (level : Bool) (run t : Nat) (d : Dev) : Dev :=
  let t := t / 1000 * 1000
  atTime t (fun d =>
    if run < d.get DIO_DIN_FILT_filt_us + 1 || bitAt (d.get DIO_DIN_LEVEL_level) n = level then d
    else
      let d := d.set DIO_DIN_LEVEL_level (setBit (d.get DIO_DIN_LEVEL_level) n level)
      let d := d.set DIO_DIN_LEVEL_unc (setBit (d.get DIO_DIN_LEVEL_unc) n (d.timeState != 3))
      let d := d.set2 (DIO_DIN_TIME_LO n) (DIO_DIN_TIME_HI n) t
      let l := d.le
      { d with le := { l with
        rise := if level then setBit l.rise n true else l.rise, fall := if level then l.fall else setBit l.fall n true
        edges := modAt l.edges n (fun c => min 255 (c + 1)) } }) d

end Sys2Proof.Machine
end

