-- ==== Sys2Proof/Machine/EthTx.lean ====
section
/-! DEFINITION. The transmit side of the MACs that every block uses: tagging, queues, preemption and discards at a port
that is not ON or whose link is down (R333, R338-R340). -/
namespace Sys2Proof.Machine

/-- Port `p`. -/
def Dev.port (d : Dev) (p : Nat) : EthPort := (lookup p d.eth.ports).getD {}

/-- Replace port `p`. -/
def Dev.putPort (p : Nat) (e : EthPort) (d : Dev) : Dev := { d with eth := { d.eth with ports := insertKey p e d.eth.ports } }

/-- The source address of port `p`: ETHn_MAC, byte 0 in the lowest bits (laid out as COL_OSn_DMAC). -/
def Dev.macOf (d : Dev) (p : Nat) : List Byte := toLe 6 (d.get (ETH_MAC_LO p) + 2 ^ 32 * d.get (ETH_MAC_HI_value p))

/-- A destination address held in a _LO and _HI pair, byte 0 in [7:0] of LO. -/
def macBytes (lo hi : Nat) : List Byte := toLe 6 (lo + 2 ^ 32 * hi)

/-- The tag inserted for transmit class `c` (R338), DEI 0; none when insert = 0. -/
def Dev.vlanTag (d : Dev) (p c : Nat) : List Byte :=
  if d.flag (ETH_VLAN_TX_insert p c) then
    [0x81, 0x00] ++ toBe 2 (d.get (ETH_VLAN_TX_pcp p c) * 8192 + d.get (ETH_VLAN_TX_vid p c))
  else []

/-- A frame of the device on port `p`: destination, source, tag, Ethertype and payload, padded to 60 bytes so that it has 64
with its FCS (R338). -/
def Dev.frame (d : Dev) (p : Nat) (dst tag : List Byte) (etype : Nat) (payload : List Byte) : List Byte :=
  padTo 60 (dst ++ d.macOf p ++ tag ++ toBe 2 etype ++ payload)

/-- Counter `k` of port `p` (R351). -/
def ethCount (p k : Nat) (d : Dev) : Dev := d.inc (ETH_CNT p k)

/-- A 64-bit port counter advances, saturating. -/
def ethCount2 (p k n : Nat) (d : Dev) : Dev :=
  d.set2 (ETH_CNT p k) (ETH_CNT p (k + 1)) (min (d.get2 (ETH_CNT p k) (ETH_CNT p (k + 1)) + n) (2 ^ 64 - 1))

/-- Raise a port event with its cause latched in ETHn_EVT (R352): 0 link, 1 rx_ready, 2 rx_lost, 3 rx_nobuf, 4 underrun,
5 other transmit events. -/
def ethEvent (p cause : Nat) (d : Dev) : Dev :=
  let d := d.set (ETH_EVT_cause p) (setBit (d.get (ETH_EVT_cause p)) cause true)
  raiseMs (20 + 4 * p + (if cause = 0 then 0 else if cause = 1 then 1 else if cause ≤ 3 then 2 else 3)) d

/-- The port transmits: it is not OFF and its link is up (R332, R333). -/
def Dev.portSends (d : Dev) (p : Nat) : Bool := d.get (ETH_CFG_state p) == 1 && d.flag (ETH_STAT_link p)

/-- The address of descriptor `i` (free-running) of transmit ring `h`. -/
def Dev.txDesc (d : Dev) (p h i : Nat) : Nat :=
  d.get2 (ETH_TXR_BASE_LO p h) (ETH_TXR_BASE_HI p h) + 16 * (i % 2 ^ d.get (ETH_TXR_CTRL_log2_ndesc p h))

/-- A run of descriptors is completed: status and done into every one, the stamp into the last when ts = 1, HEAD past
them, and TX_EVENT when irq = 1 (R348, R349). -/
def txWriteBack (p h first count status stamp : Nat) (ts irq : Bool) (d : Dev) : Dev :=
  let d := forN count (fun k d =>
    let a := d.txDesc p h (first + k)
    let fl := memLe (d.hostMem h) (a + 12) 2
    d.hostWrite h (a + 12) (toLe 2 (setBit fl 15 true) ++ toLe 2 status)) d
  let d := if ts && status = 0 && 0 < count then d.hostWrite h (d.txDesc p h (first + count - 1)) (toLe 8 stamp) else d
  let d := d.set (ETH_TXR_HEAD_head p h) (first + count)
  if irq then ethEvent p 5 d else d

/-- A frame at a port that is not ON or whose link is down is discarded and counted, in GCTL_XDROP while the port's crossing is dead
(R25), and a host frame is completed with LINK_DOWN (R333). -/
def txDrop (p : Nat) (it : TxItem) (d : Dev) : Dev :=
  let d := if d.xingDead (1 + p) then xdrop d else ethCount p 19 d
  match it.kind with
  | .host h first count ts irq _ => txWriteBack p h first count 3 0 ts irq d
  | _ => d

/-- A frame offered to such a port is discarded; a producer that counts what it sends counts it as not sent (R132, R333). -/
def txDiscard (p : Nat) (it : TxItem) (d : Dev) : Dev :=
  let d := txDrop p it d
  match it.kind with
  | .stream os => d.inc (COL_OS_NOT_SENT os)
  | .alarm => d.inc DET_NOTICE_NOT_SENT
  | _ => d

/-- Spine-B frames go first among the express frames (R339). -/
def nextExpress : List TxItem → Option (TxItem × List TxItem)
  | [] => none
  | x :: xs =>
    match (x :: xs).findIdx? (fun i => i.kind == .spineB) with
    | some k => (x :: xs)[k]?.map (fun i => (i, (x :: xs).eraseIdx k))
    | none => some (x, xs)

/-- Output-stream frames go before host frames (R339). -/
def nextPreemptable : List TxItem → Option (TxItem × List TxItem)
  | [] => none
  | x :: xs =>
    match (x :: xs).findIdx? (fun i => match i.kind with | .stream _ => true | _ => false) with
    | some k => (x :: xs)[k]?.map (fun i => (i, (x :: xs).eraseIdx k))
    | none => some (x, xs)

/-- The time in quarter ns that `n` octets take at the port's speed. -/
def Dev.octetsQ (d : Dev) (p n : Nat) : Nat := match d.get (ETH_CFG_speed p) with
  | 0 => 32 * n
  | 1 => 32 * n / 10
  | _ => 32 * n / 25

/-- The serialisation time of a frame: preamble, SFD, FCS and the gap after it included. -/
def Dev.frameQ (d : Dev) (p : Nat) (i : TxItem) : Nat := d.octetsQ p (i.bytes.length + 24)

/-- The quarter ns that PAUSE has held a port so far. -/
def Dev.heldQ (d : Dev) (p : Nat) : Nat :=
  let e := d.port p
  e.held + match e.holdEnd with | some _ => d.time.elapsed - e.holdFrom | none => 0

/-- An output stream's frame as it joins a port: its bound grows by the frames queued before it (R138; log entry 37). -/
def Dev.txJoins (d : Dev) (p : Nat) (i : TxItem) : TxItem :=
  let e := d.port p
  let q := e.current.toList ++ e.suspended.toList ++ e.express ++ e.preemptable
  { i with due := i.due + (q.map (d.frameQ p)).sum, heldAt := d.heldQ p }

/-- A frame of an output stream starts: it misses its bound when its first octet after the SFD comes later (R138). -/
def outStart (p : Nat) (i : TxItem) (d : Dev) : Dev := match i.kind with
  | .stream os => if i.due + (d.heldQ p - i.heldAt) < d.time.elapsed + d.octetsQ p 8 then raiseMs 50 (d.inc (COL_OS_LATE os)) else d
  | _ => d

/-- The next frame starts when none is in transmission and no PAUSE hold runs; express first, then the preempted frame,
then the preemptable queue (R339, R340, R342). A port that is DISABLING starts no frame and ends the preempted one (R332). -/
def txStart (p : Nat) (d : Dev) : Dev :=
  let e := d.port p
  let thr := d.get (ETH_TXCFG_cut_thr p)
  if e.current.isSome || e.holdEnd.isSome then d
  else match (if d.get (ETH_CFG_state p) = 1 then nextExpress e.express else none) with
    | some (i, xs) => d.putPort p { e with current := some { i with thr := thr }, express := xs }
    | none => match e.suspended with
      | some i => d.putPort p { e with current := some i, suspended := none }
      | none => match (if d.get (ETH_CFG_state p) = 1 then nextPreemptable e.preemptable else none) with
        | some (i, xs) => outStart p i (d.putPort p { e with current := some { i with thr := thr }, preemptable := xs })
        | none => d

/-- The hold starts now, or ends at once for no quanta (R342). -/
def holdStart (p ns : Nat) (d : Dev) : Dev :=
  let e := d.port p
  let held := match e.holdEnd with | some _ => d.time.elapsed - e.holdFrom | none => 0
  let tot := e.held + held
  let d := d.set (ETH_CNT p 21) (min (tot / 4000) (2 ^ 32 - 1))
  if ns = 0 then
    txStart p ((d.putPort p { e with holdEnd := none, holdNext := none, held := tot }).setFlag (ETH_STAT_paused p) false)
  else (d.putPort p { e with holdEnd := some (d.time.elapsed + 4 * ns), holdFrom := d.time.elapsed, holdNext := none, held := tot }).setFlag (ETH_STAT_paused p) true

/-- A frame or fragment has ended: a PAUSE hold that waits for this starts (R342). -/
def txHold (p : Nat) (d : Dev) : Dev :=
  match (d.port p).current, (d.port p).holdNext with
  | none, some ns => holdStart p ns d
  | _, _ => d

/-- While preemption is active a waiting express frame preempts the preemptable frame in transmission at the next point that leaves
fragments of at least 64 × (1 + add_frag) bytes before it and 64 bytes after it (R340). A frame too short for two has no such point; in
another, whether one still comes is open (log entry 174). -/
def txPreempt (p : Nat) (d : Dev) : Dev :=
  let e := d.port p
  match e.current with
  | some c =>
    if d.flag (ETH_MM_STAT_active p) && !c.express && !e.express.isEmpty
        && decide (64 * (1 + d.get (ETH_MM_add_frag p)) + 64 ≤ c.bytes.length + 4) then
      let (n, d) := d.drawNat
      if n % 2 = 0 then d
      else
        let d := if c.preempted then d else ethCount p 20 d
        let e := d.port p
        txStart p (txHold p (d.putPort p { e with current := none, suspended := some { c with preempted := true } }))
    else d
  | none => d

/-- A whole frame is offered to a port for transmission (R25, R333, R339); an output stream's and an alarm notice's frame counts as sent
when a port that transmits takes it (R132, R236). -/
def ethSend (p : Nat) (it : TxItem) (d : Dev) : Dev :=
  if !d.portSends p || d.xingDead (1 + p) then txDiscard p it d
  else
    let d := match it.kind with
      | .stream os => d.inc (COL_OS_SENT os)
      | .alarm => d.inc DET_NOTICE_SENT
      | _ => d
    let e := d.port p
    let it := d.txJoins p it
    let e := if it.express then { e with express := e.express ++ [it] } else { e with preemptable := e.preemptable ++ [it] }
    txPreempt p (txStart p (d.putPort p e))

/-- A frame that the port took and that it discards now counts as not sent instead (R132, R236, R333). -/
def txUncount (it : TxItem) (d : Dev) : Dev :=
  match it.kind with
  | .stream os => (d.set (COL_OS_SENT os) (d.get (COL_OS_SENT os) - 1)).inc (COL_OS_NOT_SENT os)
  | .alarm => (d.set DET_NOTICE_SENT (d.get DET_NOTICE_SENT - 1)).inc DET_NOTICE_NOT_SENT
  | _ => d

/-- Every frame waiting at, or in transmission on, a port is discarded: its link went down (R333). A PAUSE hold that waits for the end of
the frame starts (R342). -/
def txFlush (p : Nat) (d : Dev) : Dev :=
  let e := d.port p
  let its := e.current.toList ++ e.suspended.toList ++ e.express ++ e.preemptable
  let d := d.putPort p { e with current := none, suspended := none, express := [], preemptable := [] }
  txHold p (forL its (fun i d => txUncount i (txDrop p i d)) d)

end Sys2Proof.Machine
end

