-- ==== Sys2Proof/Machine/Ptp.lean ====
section
/-! DEFINITION. The PTP slave: messages, peer delay, master selection and the servo (R57-R66). Message layouts are those of
IEEE 1588-2008, which R57 names (PRESUMED, log entry 8). -/
namespace Sys2Proof.Machine

/-! ## Messages -/

/-- messageType of a PTP message that starts after the Ethertype. -/
def ptpType (b : List Byte) : Nat := byteAt b 0 % 16

/-- The payload of a handed-over frame: what follows the Ethertype. -/
def RxFrame.payload (f : RxFrame) : List Byte := f.bytes.drop 14

/-- correctionField, in 2^-16 ns. -/
def ptpCorr (b : List Byte) : Int := toInt 64 (beAt b 8 8)

/-- sequenceId. -/
def ptpSeq (b : List Byte) : Nat := beAt b 30 2

/-- An origin time-stamp at offset `o`, in 2^-16 ns. -/
def ptpStamp (b : List Byte) (o : Nat) : Int := ((beAt b o 6 * 1000000000 + beAt b (o + 6) 4 : Nat) : Int) * 65536

/-- logMessageInterval as an interval in ns. -/
def ptpInterval (b : List Byte) : Nat :=
  let l := toInt 8 (byteAt b 33)
  if 0 ≤ l then 1000000000 * 2 ^ (min l.toNat 20) else 1000000000 / 2 ^ (min (-l).toNat 20)

/-- The engine runs on a port (R58). -/
def Dev.ptpRuns (d : Dev) (p : Nat) : Bool := d.get TBS_CTRL_ptp_mode != 0 && bitAt (d.get TBS_PTP_CFG_port_en) p

/-- A message is discarded and counted (register TBS_PTP_DROP). -/
def ptpDrop (d : Dev) : Dev := d.inc TBS_PTP_DROP

/-- Take the oldest handed-over PTP message of a type. -/
def ptpTake (ty : Nat) (d : Dev) : Option (RxFrame × Dev) :=
  match d.eth.ptpIn.findIdx? (fun f => ptpType f.payload == ty) with
  | none => none
  | some k => d.eth.ptpIn[k]?.map (fun f => (f, { d with eth := { d.eth with ptpIn := d.eth.ptpIn.eraseIdx k } }))

/-- A message of the engine's kind is well formed: version 2, at least `n` bytes, and of the accepted domain. -/
def Dev.ptpGood (d : Dev) (n : Nat) (b : List Byte) : Bool :=
  n ≤ b.length && byteAt b 1 % 16 == 2 && byteAt b 4 == d.get TBS_PTP_CFG_domain

/-- Handle the oldest message of a type: malformed or foreign-domain messages are dropped and counted. -/
def ptpHandle (ty n : Nat) (f : RxFrame → Dev → Dev) (d : Dev) : Dev :=
  match ptpTake ty d with
  | none => d
  | some (m, d) => if !d.ptpRuns m.port then d else if d.ptpGood n m.payload then f m d else ptpDrop d

/-! ## Own messages -/

/-- The clock identity of the device: its MAC as an EUI-64 (PRESUMED after IEEE 1588, log entry 8). -/
def Dev.clockIdentity (d : Dev) : List Byte :=
  let m := d.macOf 0
  m.take 3 ++ [0xFF, 0xFE] ++ m.drop 3

/-- A header of the engine: type, length, flags, correction, port number, sequence, control and log interval. -/
def Dev.ptpHeader (d : Dev) (p ty len flags : Nat) (corr : Int) (seq interval : Nat) : List Byte :=
  [BitVec.ofNat 8 ty, 2] ++ toBe 2 len ++ [BitVec.ofNat 8 (d.get TBS_PTP_CFG_domain), 0] ++ toBe 2 flags ++ toBe 8 (ofInt 64 corr)
    ++ toBe 4 0 ++ d.clockIdentity ++ toBe 2 (p + 1) ++ toBe 2 seq ++ [5] ++ [BitVec.ofNat 8 interval]

/-- A stamp as seconds and nanoseconds. -/
def stampBytes (ns : Nat) : List Byte := toBe 6 (ns / 1000000000) ++ toBe 4 (ns % 1000000000)

/-- Send an engine message: Layer 2, to the peer-delay address (R57), in transmit class 3. -/
def ptpSend (p : Nat) (b : List Byte) (d : Dev) : Dev :=
  ethSend p { kind := .ptp, express := true,
              bytes := d.frame p [0x01, 0x80, 0xC2, 0x00, 0x00, 0x0E] (d.vlanTag p 3) 0x88F7 b } d

/-- The peer-delay exchange of port `p`. -/
def Dev.pdelay (d : Dev) (p : Nat) : PdelaySt := (lookup p d.time.pdelay).getD {}

/-- Replace the peer-delay exchange of a port. -/
def Dev.putPdelay (p : Nat) (x : PdelaySt) (d : Dev) : Dev := { d with time := { d.time with pdelay := insertKey p x d.time.pdelay } }

/-- log_pdelay as a signed octet. -/
def Dev.logPdelay (d : Dev) : Nat := ofInt 8 (d.getI TBS_PTP_CFG_log_pdelay)

/-- Clearing a bit of port_en stops the peer delay on the port at once; the first sample after the port is enabled loads
the mean (R60, register TBS_PTP_CFG). Masters seen on the port are forgotten (DEDUCED, log entry 163). -/
def ptpPorts (old : Nat) (d : Dev) : Dev :=
  forN 4 (fun p d =>
    if bitAt old p = bitAt (d.get TBS_PTP_CFG_port_en) p then d
    else { d with time := { d.time with delayValid := d.time.delayValid.filter (· != p), pdelay := eraseKey p d.time.pdelay,
                                        foreign := d.time.foreign.filter (fun f => f.port != p) } }) d

/-- The interval of log_pdelay, in quarter ns. -/
def Dev.pdelayInterval (d : Dev) : Nat := 4000000000 / 2 ^ (-d.getI TBS_PTP_CFG_log_pdelay).toNat

/-- The elapsed time at which the next own Pdelay_Req of port `p` is due: one interval after the last one, the first at once. -/
def Dev.pdelayDue (d : Dev) (p : Nat) : Nat := match (d.pdelay p).last with
  | none => d.time.elapsed
  | some t => t + d.pdelayInterval

/-- The engine sends its own Pdelay_Req, at the interval given by log_pdelay (R58). -/
def pdelayReqSend (p : Nat) (d : Dev) : Dev :=
  if !d.ptpRuns p then d
  else
    let due := d.pdelayDue p
    let d := passElapsed due d
    if d.time.elapsed < due then d
    else
      let s := (d.pdelay p).seq
      let d := d.putPdelay p { seq := (s + 1) % 65536, last := some d.time.elapsed }
      ptpSend p (d.ptpHeader p 2 54 0 0 s (d.logPdelay) ++ List.replicate 20 0) d

/-- Remember the correction of a Pdelay_Req for the follow-up of its answer. -/
def Dev.noteAnswer (p : Nat) (b : List Byte) (d : Dev) : Dev :=
  let others := d.time.answered.filter (fun a => !(a.1 == p && a.2.1 == ptpSeq b && a.2.2.1 == slice b 20 10))
  { d with time := { d.time with answered := (p, ptpSeq b, slice b 20 10, ptpCorr b) :: others } }

/-- A Pdelay_Req is answered with a two-step Pdelay_Resp that carries the receive stamp, its fraction of a nanosecond taken off the
correction (R57, R58); the follow-up is sent once the response's transmit stamp is known. -/
def pdelayReqRx (d : Dev) : Dev :=
  ptpHandle 2 54 (fun m d =>
    let b := m.payload
    let t2 := natOf (m.stamp / 65536)
    ptpSend m.port (d.ptpHeader m.port 3 54 0x0200 (-(m.stamp % 65536)) (ptpSeq b) 0x7F ++ stampBytes t2 ++ slice b 20 10)
      (d.noteAnswer m.port b)) d

/-- A message of the engine has left port `p` with a corrected stamp in 2^-16 ns: t1 of an own request, or t3 of a response, whose
follow-up is then sent with it and the request's correction (R58, R60). -/
def ptpTxStamped (p : Nat) (frame : List Byte) (stamp : Int) (d : Dev) : Dev :=
  let tagged := beAt frame 12 2 == 0x8100
  let b := frame.drop (if tagged then 18 else 14)
  if ptpType b = 2 then
    let x := d.pdelay p
    d.putPdelay p { x with t1 := some stamp }
  else if ptpType b = 3 then
    let t3 := natOf (stamp / 65536)
    let mine (a : Nat × Nat × List Byte × Int) : Bool := a.1 == p && a.2.1 == ptpSeq b && a.2.2.1 == slice b 44 10
    let corr : Int := ((d.time.answered.find? mine).map (fun a => a.2.2.2)).getD 0
    ptpSend p (d.ptpHeader p 10 54 0 (stamp % 65536 + corr) (ptpSeq b) 0x7F ++ stampBytes t3 ++ slice b 44 10)
      { d with time := { d.time with answered := d.time.answered.filter (fun a => !mine a) } }
  else d

/-- The response to the own request: its receive stamp t4, its requestReceiptTimestamp t2 and its correction (R60). -/
def pdelayRespRx (d : Dev) : Dev :=
  ptpHandle 3 54 (fun m d =>
    let b := m.payload
    let x := d.pdelay m.port
    if (ptpSeq b + 1) % 65536 = x.seq && slice b 44 8 = d.clockIdentity && beAt b 52 2 = m.port + 1 then
      d.putPdelay m.port { x with t2 := ptpStamp b 34, t4 := some m.stamp, corr := ptpCorr b }
    else d) d

/-- The mean link delay of port `p`, in 2^-16 ns. -/
def Dev.meanDelay (d : Dev) (p : Nat) : Int := (lookup p d.time.delays).getD 0

/-- A link delay sample, given as twice its value (R60): a negative one is discarded and counted, the first loads the mean, later ones
move it by 2^-delay_k of the difference. The mean is held in 2⁻¹⁶ ns, and each quotient is rounded half to even (DESIGN CHOICE, log entry
191). -/
def delaySample (p : Nat) (twice : Int) (d : Dev) : Dev :=
  if twice < 0 then ptpDrop d
  else
    let s := divHalfEven twice 2
    let m := d.meanDelay p
    let new := if d.time.delayValid.contains p then m + divHalfEven (s - m) (2 ^ d.get TBS_PTP_CFG_delay_k) else s
    let d := { d with time := { d.time with delays := insertKey p new d.time.delays,
                                            delayValid := if d.time.delayValid.contains p then d.time.delayValid else p :: d.time.delayValid } }
    d.setI (TBS_P_DELAY p) (divHalfEven new 4096)

/-- The follow-up completes an exchange: ((t4 − t1) − (t3 − t2) − c) / 2 (R60). -/
def pdelayFollowUpRx (d : Dev) : Dev :=
  ptpHandle 10 54 (fun m d =>
    let b := m.payload
    let x := d.pdelay m.port
    match x.t1, x.t4 with
    | some t1, some t4 =>
      if (ptpSeq b + 1) % 65536 = x.seq then
        let c := x.corr + ptpCorr b
        delaySample m.port ((t4 - t1) - (ptpStamp b 34 - x.t2) - c)
          (d.putPdelay m.port { x with t1 := none, t4 := none })
      else d
    | _, _ => d) d

/-! ## Master selection (R59) -/

/-- The dataset comparison of IEEE 1588-2008, 9.3.4, over the fields of two Announce messages: true when `a` is better.
The same grandmaster is decided by the steps removed, then the sender and the lower receiving port. -/
def betterMaster (a b : Foreign) : Bool :=
  let lex (xs ys : List Nat) : Bool := (xs.zip ys).foldr (fun p r => if p.1 < p.2 then true else if p.2 < p.1 then false else r) false
  if a.grandmaster = b.grandmaster then
    lex [a.steps, a.clockId, a.portNumber, a.port] [b.steps, b.clockId, b.portNumber, b.port]
  else
    lex [a.priority1, a.clockClass, a.accuracy, a.variance, a.priority2, a.grandmaster]
        [b.priority1, b.clockClass, b.accuracy, b.variance, b.priority2, b.grandmaster]

/-- The best qualified master on the enabled ports. -/
def Dev.bestMaster (d : Dev) : Option Foreign :=
  (d.time.foreign.filter (fun f => f.qualified && d.ptpRuns f.port)).foldl (fun best f =>
    match best with
    | none => some f
    | some g => if betterMaster f g then some f else some g) none

/-- Publish the selected master (register TBS_PTP_MASTER). -/
def showMaster (d : Dev) : Dev :=
  match d.time.selected with
  | none => d.setFlag TBS_PTP_MASTER_valid false
  | some s =>
    let steps := match d.time.foreign.find? (fun f => f.port = s.port && f.clockId = s.clockId && f.portNumber = s.portNumber) with
      | some f => min f.steps 255
      | none => d.get TBS_PTP_MASTER_steps_removed
    let d := ((d.set TBS_PTP_MASTER_port s.port).setFlag TBS_PTP_MASTER_valid true).set TBS_PTP_MASTER_steps_removed steps
    let id := ofLe (toBe 8 s.clockId)
    ((d.set TBS_PTP_MASTER_port_number s.portNumber).set TBS_PTP_MID_LO id).set TBS_PTP_MID_HI (id / 2 ^ 32)

/-- Master `s`, whose Sync is awaited from now on. -/
def awaitSync (s : Option MasterSel) (d : Dev) : Dev :=
  { d with time := { d.time with foreign := d.time.foreign.map (fun f =>
    if s = some { port := f.port, clockId := f.clockId, portNumber := f.portNumber } then { f with lastSync := d.now } else f) } }

/-- Select the best master; a change, including loss, raises source 15 (R59). Losing the last one in LOCKED enters HOLDOVER
in ENGINE mode (R63). -/
def selectMaster (d : Dev) : Dev :=
  let sel := d.bestMaster.map (fun f => ({ port := f.port, clockId := f.clockId, portNumber := f.portNumber } : MasterSel))
  if sel = d.time.selected then showMaster d
  else
    let d := awaitSync sel d
    let d := { d with time := { d.time with selected := sel, waitSync := none, newMaster := sel.isSome && d.timeState == 2,
                                            goodRun := if d.timeState = 2 then 0 else d.time.goodRun } }
    let d := showMaster (raise 15 d)
    if sel.isNone && d.timeState = 3 && d.get TBS_CTRL_ptp_mode = 1 then setTimeState 2 d else updateTq d

/-- The UTC fields of the selected master's Announce are copied when src = PTP and currentUtcOffsetValid is set (R66). -/
def announceUtc (f : Foreign) (d : Dev) : Dev :=
  if d.flag TBS_UTC_src || !bitAt f.flags 2 then d
  else setUtc f.utcOffset (if bitAt f.flags 0 then 1 else if bitAt f.flags 1 then 2 else 0) d

/-- An Announce message (R59): the sender is qualified by two within four of its announce intervals. -/
def announceRx (d : Dev) : Dev :=
  ptpHandle 11 64 (fun m d =>
    let b := m.payload
    let id := beAt b 20 8
    let pn := beAt b 28 2
    let now := natOf (m.stamp / 65536)
    let same (f : Foreign) : Bool := f.port = m.port && f.clockId = id && f.portNumber = pn
    let old := d.time.foreign.find? same
    let iv := ptpInterval b
    let recent := match old with
      | some f => f.seen.any (fun t => now < t + 4 * iv)
      | none => false
    let f : Foreign := { port := m.port, clockId := id, portNumber := pn
                         seen := now :: (match old with | some f => f.seen.take 1 | none => [])
                         qualified := recent || (match old with | some f => f.qualified | none => false)
                         priority1 := byteAt b 47, clockClass := byteAt b 48, accuracy := byteAt b 49
                         variance := beAt b 50 2, priority2 := byteAt b 52, grandmaster := beAt b 53 8, steps := beAt b 61 2
                         utcOffset := beAt b 44 2, flags := byteAt b 7, interval := iv
                         lastSync := match old with | some f => f.lastSync | none => now }
    let d := { d with time := { d.time with foreign := f :: d.time.foreign.filter (fun g => !same g) } }
    let d := selectMaster d
    match d.time.selected with
    | some s => if s.port = f.port && s.clockId = id && s.portNumber = pn then announceUtc f d else d
    | none => d) d

/-- The record of the selected master. -/
def Dev.selectedForeign (d : Dev) : Option Foreign :=
  match d.time.selected with
  | none => none
  | some s => d.time.foreign.find? (fun f => f.port = s.port && f.clockId = s.clockId && f.portNumber = s.portNumber)

/-- The selected master is lost when announce_timeout announce intervals pass without an Announce, or without a Sync
that the servo accepts (R59). A master whose Announces have stopped for as long is not there to be selected (DEDUCED, log entry 163). -/
def masterLost (d : Dev) : Dev :=
  match d.selectedForeign with
  | none => d
  | some f =>
    let n := d.get TBS_PTP_CFG_announce_timeout * f.interval
    let due := min (f.seen.headD 0 + n) (f.lastSync + n)
    atTime due (fun d =>
      selectMaster { d with time := { d.time with foreign := d.time.foreign.filter (fun g =>
        !(g.port = f.port && g.clockId = f.clockId && g.portNumber = f.portNumber)
          && d.now < g.seen.headD 0 + d.get TBS_PTP_CFG_announce_timeout * g.interval) } }) d

/-! ## The servo (R61, R63) -/

/-- Publish the offset in ns, saturating (register TBS_SERVO_OFS), rounded half to even (DEDUCED, log entry 9). -/
def showOffset (o : Int) (d : Dev) : Dev :=
  let d := { d with time := { d.time with offset := o } }
  d.setI TBS_SERVO_OFS (clampI (-2147483647) 2147483647 (divHalfEven o 65536))

/-- The servo steps the counter by −offset; the step takes effect at the next tick (R56, R61). A Sync measured without steering does not
count as the first one (DEDUCED, log entry 192). -/
def servoStep (o : Int) (d : Dev) : Dev :=
  { d with time := { d.time with pending := some (.adj (-o)), integ := if d.time.firstUpdate then 0 else d.time.integ, firstUpdate := false } }

/-- The servo updates the integral, the frequency and the increment (R61). -/
def servoSteer (o : Int) (d : Dev) : Dev :=
  let lim := d.clamp16
  let integ := clampI (-lim) lim (d.time.integ + divHalfEven ((d.get TBS_SERVO_CFG_ki : Int) * o) (2 ^ 24))
  setFreq (clampI (-lim) lim (-(divHalfEven ((d.get TBS_SERVO_CFG_kp : Int) * o) (2 ^ 20)) - integ))
    { d with time := { d.time with integ := integ } }

/-- The time state after an update with |offset| below, or at or above, 100 ns (R63). -/
def servoState (o : Int) (d : Dev) : Dev :=
  let good := o.natAbs < 6553600
  let d := { d with time := { d.time with goodRun := if good then d.time.goodRun + 1 else 0, badRun := if good then 0 else d.time.badRun + 1 } }
  let st := d.timeState
  if (st = 1 || (st = 2 && d.time.newMaster)) && d.get TBS_LOCK_CFG_lock_count ≤ d.time.goodRun then setTimeState 3 d
  else if st = 3 && d.get TBS_LOCK_CFG_unlock_count ≤ d.time.badRun then setTimeState 1 d
  else updateTq d

/-- One servo run for a Sync of the selected master whose origin time is known (R61, R62). In HOLDOVER a Sync of a newly selected master
steers (DEDUCED, log entry 193). -/
def servoRun (port : Nat) (t1 t2 c : Int) (d : Dev) : Dev :=
  let o := t2 - t1 - c - d.meanDelay port
  let now := natOf (t2 / 65536)
  let d := { d with time := { d.time with foreign := d.time.foreign.map (fun f =>
    match d.time.selected with
    | some s => if f.port = s.port && f.clockId = s.clockId && f.portNumber = s.portNumber then { f with lastSync := now } else f
    | none => f) } }
  let d := showOffset o d
  if d.get TBS_CTRL_ptp_mode != 1 then updateTq d
  else if d.coast then d
  else if d.time.firstUpdate || d.get TBS_SERVO_LIM_step_ns * 65536 ≤ o.natAbs then servoState o (servoStep o d)
  else servoState o (servoSteer o d)

/-- A message comes from the selected master. -/
def Dev.fromSelected (d : Dev) (m : RxFrame) : Bool :=
  match d.time.selected with
  | some s => s.port == m.port && s.clockId == beAt m.payload 20 8 && s.portNumber == beAt m.payload 28 2
  | none => false

/-- A Sync (R61): a one-step Sync runs the servo, a two-step Sync waits for its Follow_Up; from any other master it is
dropped and counted. -/
def syncRx (d : Dev) : Dev :=
  ptpHandle 0 44 (fun m d =>
    let b := m.payload
    if !d.fromSelected m then ptpDrop d
    else if bitAt (byteAt b 6) 1 then
      { d with time := { d.time with waitSync := some ⟨m.port, ptpSeq b, m.stamp, ptpCorr b⟩ } }
    else servoRun m.port (ptpStamp b 34) m.stamp (ptpCorr b) { d with time := { d.time with waitSync := none } }) d

/-- A Follow_Up gives the origin time of the waiting Sync (R61). -/
def followUpRx (d : Dev) : Dev :=
  ptpHandle 8 44 (fun m d =>
    let b := m.payload
    match d.time.waitSync with
    | some w =>
      if d.fromSelected m && w.port = m.port && w.seq = ptpSeq b then
        servoRun m.port (ptpStamp b 34) w.stamp (w.corr + ptpCorr b) { d with time := { d.time with waitSync := none } }
      else ptpDrop d
    | none => if d.fromSelected m then d else ptpDrop d) d

end Sys2Proof.Machine
end

