-- ==== Sys2Proof/Machine/Eth.lean ====
section
/-! DEFINITION. Ethernet ports: enabling, links, reception, classification, rings, transmission, preemption and PAUSE
(R68, R331-R352). -/
namespace Sys2Proof.Machine

/-! ## Transmit rings (R348-R350) -/

/-- The frame's first Ethertype, its tag and the bytes without it (R335). -/
def untag (bs : List Byte) : Nat × Nat × Bool × List Byte :=
  if beAt bs 12 2 = 0x8100 then (beAt bs 16 2, beAt bs 14 2, true, bs.take 12 ++ bs.drop 16) else (beAt bs 12 2, 0, false, bs)

/-- A host frame of ring `h` waits at, or is in transmission on, the port. -/
def EthPort.hasHost (e : EthPort) (h : Nat) : Bool :=
  (e.current.toList ++ e.suspended.toList ++ e.express ++ e.preemptable).any (fun i =>
    match i.kind with | .host h' _ _ _ _ _ => h' == h | _ => false)

/-- A transmit descriptor: address, length, TCI and flags. -/
structure TxDesc where
  addr : Nat
  len : Nat
  tci : Nat
  flags : Nat
  deriving DecidableEq, Repr

/-- The run of descriptors from index `i` that ends with eop or, without one, before TAIL; true when eop was found. -/
def txRun (d : Dev) (p h i : Nat) : Nat → List TxDesc → List TxDesc × Bool
  | 0, acc => (acc, false)
  | n + 1, acc =>
    let a := d.txDesc p h i
    let m := d.hostMem h
    let x : TxDesc := ⟨memLe m a 8, memLe m (a + 8) 2, memLe m (a + 10) 2, memLe m (a + 12) 2⟩
    if bitAt x.flags 0 then (acc ++ [x], true) else txRun d p h (i + 1) n (acc ++ [x])

/-- The PTP event message a frame carries, if any: its PTP bytes (R70, R349). -/
def eventMessage (bs : List Byte) : Option (List Byte) :=
  let (et, _, _, inner) := untag bs
  if et = 0x88F7 && ptpType (inner.drop 14) ≤ 3 then some (inner.drop 14) else none

/-- Fetch the next frame of ring `h` when none of that ring is at the MAC (R348, R349): descriptor errors are skipped, counted and
written back; the first descriptor gives insert, tci and express, the last ts and irq (DEDUCED, log entry 10). -/
def txFetch (p h : Nat) : Nat → Dev → Dev
  | 0, d => d
  | fuel + 1, d =>
    let head := d.get (ETH_TXR_HEAD_head p h)
    let n := (d.get (ETH_TXR_TAIL_tail p h) + 65536 - head) % 65536
    if !d.flag (ETH_TXR_CTRL_on p h) || n = 0 || (d.port p).hasHost h then d
    else
      let (run, eop) := txRun d p h head (min n 4096) []
      if !eop && run.length ≤ 8 then d
      else
        let f0 := (run.headD ⟨0, 0, 0, 0⟩)
        let fl := (run.getLastD ⟨0, 0, 0, 0⟩).flags
        let total := (run.map TxDesc.len).sum
        let insert := bitAt f0.flags 1
        let bad := run.any (fun x => x.len = 0) || 8 < run.length || d.get (ETH_CFG_max_len p) < total + 4 + b2n insert * 4
        if bad then
          let d := txWriteBack p h head run.length 2 0 false (bitAt fl 4) (ethCount p 18 d)
          txFetch p h fuel (ethEvent p 5 d)
        else
          let raw := (run.map (fun x => memReadN (d.hostMem h) x.addr x.len)).flatten
          let bs := if insert then raw.take 12 ++ [0x81, 0x00] ++ toBe 2 f0.tci ++ raw.drop 12 else raw
          let ev := (eventMessage bs).isSome
          let it : TxItem := { kind := .host h head run.length (bitAt fl 2) (bitAt fl 4) ev, bytes := padTo 60 bs, express := ev && bitAt f0.flags 3, hostLen := total }
          txFetch p h fuel (ethSend p it d)

/-- Every frame at the port is discarded, and those that its rings hold up to TAIL follow (R333, R348). -/
def portFlush (p : Nat) (d : Dev) : Dev := forN 2 (fun h d => txFetch p h (2 ^ d.get (ETH_TXR_CTRL_log2_ndesc p h)) d) (txFlush p d)

/-! ## Ports and links (R331-R333, R352) -/

/-- The code of an enable (R332): FIELD, FEC, CLOCK, else OK. -/
def ethEnableCode (p : Nat) (d : Dev) : Nat :=
  let ml := d.get (ETH_CFG_max_len p)
  if ml < 1518 || 9216 < ml then 1
  else if d.flag (ETH_CFG_fec p) && d.get (ETH_CFG_speed p) != 2 then 2
  else if !((d.get (CKP_DOM_CTRL_state (1 + p)) == 1 || d.get (CKP_DOM_CTRL_state (1 + p)) == 2) && d.domEdges (1 + p)
      && !d.ckp.switching.contains (1 + p)) then 3 else 0

/-- An enable from OFF (R332). -/
def ethOpen (p : Nat) (d : Dev) : Dev :=
  let c := ethEnableCode p d
  let d := d.set (ETH_CFG_result p) c
  if c = 0 then (d.set (ETH_CFG_state p) 1).setFlag (ETH_CFG_enable p) true else d.setFlag (ETH_CFG_enable p) false

/-- enable written as 1. -/
def ethEnable (p : Nat) (d : Dev) : Dev :=
  let st := d.get (ETH_CFG_state p)
  if st = 0 then ethOpen p d
  else if st = 2 then (d.setFlag (ETH_CFG_enable p) true).setFlag (ETH_CFG_enable_pending p) true
  else d

/-- A DISABLING port with nothing in transmission reaches OFF; frames that wait are discarded under R333, and a pending enable
is acted on as the enable field then stands (R332, R467). -/
def ethReachOff (p : Nat) (d : Dev) : Dev :=
  if d.get (ETH_CFG_state p) = 2 && (d.port p).current.isNone && (d.port p).suspended.isNone then
    let d := portFlush p (d.set (ETH_CFG_state p) 0)
    if d.flag (ETH_CFG_enable_pending p) then
      let d := d.setFlag (ETH_CFG_enable_pending p) false
      if d.flag (ETH_CFG_enable p) then ethOpen p d else d
    else d
  else d

/-- enable written as 0. -/
def ethDisable (p : Nat) (d : Dev) : Dev :=
  let d := (d.setFlag (ETH_CFG_enable p) false).setFlag (ETH_CFG_enable_pending p) false
  if d.get (ETH_CFG_state p) = 1 then ethReachOff p (d.set (ETH_CFG_state p) 2) else d

/-- A write of ETHn_CFG (R332): speed, fec, an and max_len only while OFF, with wr_drop when the write would change one of them
otherwise; promisc applies; enable acts. -/
def ethCfgWrite (p v : Nat) (d : Dev) : Dev :=
  let off := d.get (ETH_CFG_state p) == 0
  let same := bits v 4 2 == d.get (ETH_CFG_speed p) && bits v 6 1 == d.get (ETH_CFG_fec p) && bits v 7 1 == d.get (ETH_CFG_an p)
    && bits v 16 14 == d.get (ETH_CFG_max_len p)
  let d := if bitAt v 9 then d.setFlag (ETH_CFG_wr_drop p) false else d
  let d := if off then
      let d := if bits v 4 2 = 3 then d else d.set (ETH_CFG_speed p) (bits v 4 2)
      ((d.set (ETH_CFG_fec p) (bits v 6 1)).set (ETH_CFG_an p) (bits v 7 1)).set (ETH_CFG_max_len p) (bits v 16 14)
    else if same then d else d.setFlag (ETH_CFG_wr_drop p) true
  let d := d.set (ETH_CFG_promisc p) (bits v 8 1)
  if bitAt v 0 then ethEnable p d else ethDisable p d

/-- A write of the MAC address: only while OFF (R332). -/
def ethMacWrite (p : Nat) (f : Fld) (v : Nat) (d : Dev) : Dev :=
  if d.get (ETH_CFG_state p) = 0 then d.set f v else d.setFlag (ETH_CFG_wr_drop p) true

/-- The link of port `p` goes up or down (R352, R333). -/
def linkChange (p : Nat) (up : Bool) (d : Dev) : Dev :=
  if d.flag (ETH_STAT_link p) = up then d
  else
    let d := ethEvent p 0 ((d.setFlag (ETH_STAT_link p) up).inc (ETH_STAT_link_changes p))
    if up then d else ethReachOff p (portFlush p d)

/-! ## Time stamps (R68) -/

/-- fixed_rx and fixed_tx of a port's speed, in ns. -/
def Dev.fixedCorr (d : Dev) (p : Nat) : Nat × Nat :=
  match d.get (ETH_CFG_speed p), d.flag (ETH_CFG_fec p) with
  | 0, _ => (212, 148)
  | 1, _ => (86, 61)
  | _, false => (54, 38)
  | _, true => (241, 97)

/-- A corrected receive stamp, in 2^-16 ns. -/
def Dev.rxStamp (d : Dev) (p capture : Nat) : Int :=
  ((capture : Int) - (d.fixedCorr p).1) * 65536 - d.getI (TBS_P_RXADJ p) * 4096

/-- A corrected transmit stamp, in 2^-16 ns. -/
def Dev.txStamp (d : Dev) (p capture : Nat) : Int :=
  ((capture : Int) + (d.fixedCorr p).2) * 65536 + d.getI (TBS_P_TXADJ p) * 4096

/-- Device time of a stamp: whole ns. -/
def stampNs (s : Int) : Nat := natOf (s / 65536)

/-! ## Receive rings (R343-R347) -/

/-- Ring `h` of a port. -/
def EthPort.ring (e : EthPort) (h : Nat) : RxRing := if h = 0 then e.ringA else e.ringB

/-- Replace ring `h` of port `p`; TAIL and REL follow. -/
def Dev.putRing (p h : Nat) (r : RxRing) (d : Dev) : Dev :=
  let e := d.port p
  let d := d.putPort p (if h = 0 then { e with ringA := r } else { e with ringB := r })
  (d.set (ETH_RXR_TAIL_tail p h) r.tail).set (ETH_RXR_TAIL_rel p h) r.rel

/-- Slots of a ring. -/
def Dev.nbuf (d : Dev) (p h : Nat) : Nat := 2 ^ d.get (ETH_RXR_CTRL_log2_nbuf p h)

/-- Bytes of a frame in chunks of 2,048. -/
def chunks2048 : Nat → List Byte → List (List Byte)
  | 0, _ => []
  | n + 1, bs => bs.take 2048 :: chunks2048 n (bs.drop 2048)

/-- Write a frame's slots and completion entries from slot index `w` (R343, R346). -/
def ringWrite (p h w : Nat) (f : RxFrame) (bs : List Byte) (cls flags : Nat) (d : Dev) : Dev :=
  let n := (bs.length + 2047) / 2048
  let data := d.get (ETH_RXR_DATA_LO_addr p h) * 4096 + 2 ^ 32 * d.get (ETH_RXR_DATA_HI p h)
  let cmpl := d.get (ETH_RXR_CMPL_LO_addr p h) * 64 + 2 ^ 32 * d.get (ETH_RXR_CMPL_HI p h)
  let nb := d.nbuf p h
  ((chunks2048 n bs).zip (List.range n)).foldl (fun d x =>
    let (c, k) := x
    let slot := (w + k) % nb
    let d := d.hostWrite h (data + 2048 * slot) c
    let entry := if k = 0 then
        toLe 8 (stampNs f.stamp) ++ toLe 2 bs.length ++ toLe 2 f.tci ++ toLe 1 cls ++ toLe 1 n ++ toLe 2 flags
      else toLe 8 0 ++ toLe 2 c.length ++ toLe 2 f.tci ++ toLe 1 cls ++ toLe 1 0 ++ toLe 2 (flags - flags % 2)
    d.hostWrite h (cmpl + 16 * slot) entry) d

/-- Make room for a frame of `n` slots (R345): while no slot is free, discard the oldest unclaimed frame if the host holds
none. Answers whether there is room, the ring, and how many frames were discarded. -/
def ringRoom (nb n : Nat) : Nat → RxRing → Nat → Bool × RxRing × Nat
  | 0, r, k => (decide (r.tail + n ≤ r.rel + nb), r, k)
  | fuel + 1, r, k =>
    if r.tail + n ≤ r.rel + nb then (true, r, k)
    else match r.frames with
      | [] => (false, r, k)
      | s :: fs =>
        if r.rel = r.take then ringRoom nb n fuel { r with rel := r.rel + s, take := r.take + s, frames := fs, lost := true } (k + 1)
        else (false, r, k)

/-- Slot indices are free-running and 16 bits wide; the model keeps them from growing by taking the common multiple off. -/
def RxRing.wrap (r : RxRing) : RxRing :=
  let k := r.rel / 65536 * 65536
  { r with rel := r.rel - k, take := r.take - k, tail := r.tail - k, w := r.w - k }

/-- The first slots of a frame that is then dropped: as many as are free, from W. Completion entries are written when a frame is complete
(log entry 175). -/
def ringPart (p h free : Nat) (bs : List Byte) (d : Dev) : Dev :=
  let data := d.get (ETH_RXR_DATA_LO_addr p h) * 4096 + 2 ^ 32 * d.get (ETH_RXR_DATA_HI p h)
  let w := ((d.port p).ring h).w
  ((chunks2048 free bs).zip (List.range free)).foldl (fun d x => d.hostWrite h (data + 2048 * ((w + x.2) % d.nbuf p h)) x.1) d

/-- The frame being written is dropped, W goes back to TAIL, and RX_NOBUF counts it (R345). -/
def ringDrop (p h : Nat) (d : Dev) : Dev :=
  let r := (d.port p).ring h
  ethEvent p 3 ((d.putRing p h { r with w := r.tail }).inc (ETH_RXR_NOBUF p h))

/-- Store a host-bound frame in the ring of host `h` (R337, R345, R347). -/
def ringStore (p h : Nat) (f : RxFrame) (cls : Nat) (d : Dev) : Dev :=
  let strip := d.flag (ETH_VLAN_RX_strip p)
  let bs := if f.tagged && strip then f.bytes else f.raw
  let n := (bs.length + 2047) / 2048
  let r := (d.port p).ring h
  let (room, r', lost) := ringRoom (d.nbuf p h) n r.frames.length r 0
  let d := if lost = 0 then d else ethEvent p 2 (d.add (ETH_RXR_LOST p h) lost)
  if !room then ringDrop p h (ringPart p h (r'.rel + d.nbuf p h - r'.w) bs (d.putRing p h r'.wrap))
  else
    let flags := 1 + b2n f.tagged * 2 + b2n (f.tagged && strip) * 4 + b2n (!f.locked) * 8 + b2n r'.lost * 16
    let d := ringWrite p h r'.w f bs cls flags d
    let d := d.putRing p h ({ r' with tail := r'.tail + n, w := r'.tail + n, frames := r'.frames ++ [n], lost := false }).wrap
    if r.frames.isEmpty && d.flag (ETH_RXR_CTRL_irq_en p h) then ethEvent p 1 d else d

/-- A host-bound frame goes to the rings it is routed to, or is counted in RX_NOROUTE (R337). -/
def hostDeliver (p : Nat) (f : RxFrame) (cls : Nat) (d : Dev) : Dev :=
  let a := d.flag (ETH_RXROUTE_to_ha p) && d.flag (ETH_RXR_CTRL_on p 0)
  let b := d.flag (ETH_RXROUTE_to_hb p) && d.flag (ETH_RXR_CTRL_on p 1)
  if !a && !b then ethCount p 12 d
  else
    let d := if a then ringStore p 0 f cls d else d
    if b then ringStore p 1 f cls d else d

/-- A read of TAKE: the held slots are released, then every complete frame is taken (R344). -/
def rxRingTake (p h : Nat) (d : Dev) : Nat × Dev :=
  let r := (d.port p).ring h
  let v := r.take % 65536 + r.tail % 65536 * 65536
  (v, d.putRing p h ({ r with rel := r.take, take := r.tail, frames := [] }).wrap)

/-- A write of DONE releases the held slots (R344). -/
def rxRingDone (p h : Nat) (d : Dev) : Dev :=
  let r := (d.port p).ring h
  d.putRing p h ({ r with rel := r.take }).wrap

/-- Enabling a ring from OFF sets all indices to 0 (R347); log2_nbuf must be 4 to 12. -/
def rxRingEnable (p h : Nat) (d : Dev) : Dev :=
  if d.flag (ETH_RXR_CTRL_on p h) then d
  else ((d.putRing p h {}).setFlag (ETH_RXR_CTRL_on p h) true).setFlag (ETH_RXR_CTRL_enable p h) true

/-- enable = 0 turns the ring OFF at once (R347). Whether a frame is being written then, how much of it has been, and its bytes are open:
it is dropped under R345. -/
def rxRingDisable (p h : Nat) (d : Dev) : Dev :=
  if !d.flag (ETH_RXR_CTRL_on p h) then d.setFlag (ETH_RXR_CTRL_enable p h) false
  else
    let r := (d.port p).ring h
    let (n, d) := d.drawNat
    let d := if d.get (ETH_CFG_state p) = 1 && d.flag (ETH_STAT_link p) && n % 6 != 0 then
        let k := min (n % 6 - 1) (r.rel + d.nbuf p h - r.w)
        let (bs, d) := d.drawBytes (2048 * k)
        ringDrop p h (ringPart p h k bs d)
      else d
    (d.setFlag (ETH_RXR_CTRL_on p h) false).setFlag (ETH_RXR_CTRL_enable p h) false

/-- A write of ETHn_RXRh_CTRL (R347). A log2_nbuf outside 4 to 12 leaves the field as it is (DESIGN CHOICE, log entry 176). -/
def rxRingCtrl (p h v : Nat) (d : Dev) : Dev :=
  let lg := bits v 4 4
  let d := if lg = d.get (ETH_RXR_CTRL_log2_nbuf p h) then d
    else if d.flag (ETH_RXR_CTRL_on p h) then d.setFlag (ETH_CFG_wr_drop p) true
    else if 4 ≤ lg && lg ≤ 12 then d.set (ETH_RXR_CTRL_log2_nbuf p h) lg else d
  let d := d.set (ETH_RXR_CTRL_irq_en p h) (bits v 8 1)
  if bitAt v 0 then rxRingEnable p h d else rxRingDisable p h d

/-- A write of a ring address: only while the ring is OFF (R347). -/
def rxRingAddr (p h : Nat) (f : Fld) (v : Nat) (d : Dev) : Dev :=
  if d.flag (ETH_RXR_CTRL_on p h) then d.setFlag (ETH_CFG_wr_drop p) true else d.set f v

/-! ## Reception (R334-R337, R342) -/

/-- The VID of a received frame passes R335. -/
def Dev.vlanOk (d : Dev) (p tci : Nat) (tagged : Bool) : Bool :=
  let vid := tci % 4096
  if !(d.flag (ETH_VLAN_RX_vid_filter p)) then (tagged || d.flag (ETH_VLAN_RX_accept_untagged p))
  else if tagged && vid != 0 then
    (List.range 8).any (fun k => d.flag (ETH_VID_en p k) && d.get (ETH_VID_vid p k) == vid)
  else d.flag (ETH_VLAN_RX_accept_untagged p)

/-- The counter that a bad frame increments (R334), in the order of the table; none for an accepted frame. -/
def rxDropCounter (p : Nat) (bs : List Byte) (e : RxError) (d : Dev) : Option Nat :=
  let len := bs.length + 4
  let (et, tci, tagged, inner) := untag bs
  let unicast := byteAt bs 0 % 2 == 0
  if e = .fcs then some 3
  else if len < 64 then some 4
  else if d.get (ETH_CFG_max_len p) < len then some 5
  else if (et ≤ 1500 && inner.length - 14 < et) || (tagged && bs.length < 18) then some 6
  else if unicast && !d.flag (ETH_CFG_promisc p) && bs.take 6 != d.macOf p then some 7
  else if !d.vlanOk p tci tagged then some 8
  else if e = .fragment then some 13
  else none

/-- The frame is UDP over IPv4 to an enabled STR_UDP_PORTn (R336 class 7). -/
def Dev.udpMatches (d : Dev) (b : List Byte) : Bool :=
  let ihl := byteAt b 14 % 16 * 4
  byteAt b 14 / 16 == 4 && byteAt b 23 == 17 &&
  (List.range 4).any (fun k => d.flag (STR_UDP_PORT_en k) && d.get (STR_UDP_PORT_port k) == beAt b (14 + ihl + 2) 2)

/-- The duration of `q` PAUSE quanta in ns at the port's speed: 512 bit times each (R342). -/
def Dev.quantaNs (d : Dev) (p q : Nat) : Nat :=
  match d.get (ETH_CFG_speed p) with
  | 0 => q * 512
  | 1 => q * 512 / 10
  | _ => q * 512 / 25

/-- A PAUSE frame (R342): counted; it holds all transmission from the end of the frame in transmission. -/
def pauseRx (p : Nat) (bs : List Byte) (d : Dev) : Dev :=
  let d := ethCount p 9 d
  let ns := d.quantaNs p (beAt bs 16 2)
  if bs.take 6 = [0x01, 0x80, 0xC2, 0x00, 0x00, 0x01] || bs.take 6 = d.macOf p then
    let e := d.port p
    if e.current.isSome && e.holdEnd.isNone then d.putPort p { e with holdNext := if ns = 0 then none else some ns }
    else holdStart p ns d
  else d

/-- The hold ends: the time held is added and the next frame starts (R342). -/
def pauseHoldEnd (p : Nat) (d : Dev) : Dev :=
  match (d.port p).holdEnd with
  | none => d
  | some t => atElapsed t (holdStart p 0) d

/-- A frame of a class that the fabric consumes: dropped and counted from teardown to the end of the build of a
re-binding (R50). -/
def toFabric (f : Dev → Dev) (d : Dev) : Dev := if d.bnd.rebuild then d.inc BND_REBIND_DROP else f d

/-- An accepted frame goes to the destination of its class (R336). -/
def classify (p : Nat) (f : RxFrame) (d : Dev) : Dev :=
  let et := beAt f.bytes 12 2
  if et = 0x8808 then
    if beAt f.bytes 14 2 = 1 then pauseRx p f.bytes d
    else if beAt f.bytes 14 2 = 0x0101 then ethCount p 10 d else d
  else if et = 0x88B5 then
    if d.get SPN_CFG_spine_b_port = p && d.flag SPN_CFG_spine_b_en && f.tagged && f.tci % 4096 = d.get SPN_ID_vid then
      { d with eth := { d.eth with spineIn := d.eth.spineIn ++ [f] } }
    else ethCount p 11 d
  else if et = 0x88F7 then
    let d := if d.ptpRuns p then { d with eth := { d.eth with ptpIn := d.eth.ptpIn ++ [f] } } else d
    if d.get TBS_CTRL_ptp_mode = 0 || d.flag TBS_PTP_CFG_copy_rx then hostDeliver p f 1 d else d
  else if et = 0x88BA then toFabric (fun d => { d with eth := { d.eth with svIn := d.eth.svIn ++ [f] } }) d
  else if et = 0x88B8 then toFabric (fun d => { d with eth := { d.eth with gooseIn := d.eth.gooseIn ++ [f] } }) d
  else if et = 0x0800 && d.udpMatches f.bytes then
    toFabric (fun d => { d with eth := { d.eth with streamIn := d.eth.streamIn ++ [f] } }) d
  else hostDeliver p f 0 d

/-- A frame has been received on port `p` (R334-R337): its bytes without the FCS, what the MAC found wrong, and the device
time captured at its time-stamp point. A port that is not ON receives nothing. -/
def frameRx (p : Nat) (bs : List Byte) (e : RxError) (capture : Nat) (d : Dev) : Dev :=
  let d := passTo capture d
  if d.get (ETH_CFG_state p) != 1 || !d.flag (ETH_STAT_link p) then d
  else match rxDropCounter p bs e d with
    | some k => ethCount p k d
    | none =>
      let (_, tci, tagged, inner) := untag bs
      let d := ethCount2 p 1 (bs.length + 4) (ethCount p 0 d)
      classify p { port := p, stamp := d.rxStamp p capture, bytes := inner, raw := bs, tci := tci, tagged := tagged,
                   locked := d.timeState == 3, utc := d.getI TBS_UTC_utc_offset } d

/-! ## Transmit ring registers (R348-R350) -/

/-- A write of TAIL: the device fetches from HEAD up to it (R348). -/
def txRingTail (p h v : Nat) (d : Dev) : Dev :=
  txFetch p h (2 ^ d.get (ETH_TXR_CTRL_log2_ndesc p h)) (d.set (ETH_TXR_TAIL_tail p h) v)

/-- Enabling a transmit ring from OFF sets HEAD and TAIL to 0 (register ETHn_TXRh). -/
def txRingEnable (p h : Nat) (d : Dev) : Dev :=
  if d.flag (ETH_TXR_CTRL_on p h) then d
  else (((d.set (ETH_TXR_HEAD_head p h) 0).set (ETH_TXR_TAIL_tail p h) 0).setFlag (ETH_TXR_CTRL_on p h) true).setFlag (ETH_TXR_CTRL_enable p h) true

/-- The item is a host frame of ring `h`. -/
def TxItem.ofRing (h : Nat) (i : TxItem) : Bool := match i.kind with | .host h' _ _ _ _ _ => h' == h | _ => false

/-- Disabling a ring ends its frame in transmission with ABORTED and leaves descriptors not started untouched (R349). -/
def txRingDisable (p h : Nat) (d : Dev) : Dev :=
  let d := (d.setFlag (ETH_TXR_CTRL_on p h) false).setFlag (ETH_TXR_CTRL_enable p h) false
  let e := d.port p
  let begun := (e.current.toList ++ e.suspended.toList).filter (TxItem.ofRing h)
  let keep (o : Option TxItem) : Option TxItem := match o with | some i => if i.ofRing h then none else some i | none => none
  let d := d.putPort p { e with current := keep e.current, suspended := keep e.suspended
                                express := e.express.filter (fun i => !i.ofRing h), preemptable := e.preemptable.filter (fun i => !i.ofRing h) }
  let d := forL begun (fun i d => match i.kind with
    | .host h' first count _ irq _ => txWriteBack p h' first count 4 0 false irq d
    | _ => d) d
  ethReachOff p (txStart p (txHold p d))

/-- A write of ETHn_TXRh_CTRL. A log2_ndesc outside 4 to 12 leaves the field as it is (DESIGN CHOICE, log entry 176). -/
def txRingCtrl (p h v : Nat) (d : Dev) : Dev :=
  let lg := bits v 4 4
  let d := if lg = d.get (ETH_TXR_CTRL_log2_ndesc p h) then d
    else if d.flag (ETH_TXR_CTRL_on p h) then d
    else if 4 ≤ lg && lg ≤ 12 then d.set (ETH_TXR_CTRL_log2_ndesc p h) lg else d
  if bitAt v 0 then txRingEnable p h d else txRingDisable p h d

/-! ## The end of a transmission (R339, R70) -/

/-- What completing a frame does for its producer. -/
def txComplete (p : Nat) (it : TxItem) (stamp : Int) (d : Dev) : Dev :=
  let queueStamp (d : Dev) : Dev := match eventMessage it.bytes with
    | some b => txqPush p ⟨ptpSeq b + ptpType b * 2 ^ 16 + byteAt b 4 * 2 ^ 20 + 2 ^ 31, stampNs stamp⟩ d
    | none => d
  match it.kind with
  | .ptp =>
    let d := if d.flag TBS_PTP_CFG_mirror_tx then queueStamp d else d
    ptpTxStamped p it.bytes stamp d
  | .host h first count ts irq _ => txWriteBack p h first count 0 (stampNs stamp) ts irq (queueStamp d)
  | _ => d

/-- The frame in transmission on port `p` ends, its time-stamp point captured at `capture`; its descriptors are written back, a
PAUSE hold that waits starts, and the next frame is chosen (R339, R342). -/
def txFrameEnd (p capture : Nat) (d : Dev) : Dev :=
  let d := passTo capture d
  let e := d.port p
  match e.current with
  | none => d
  | some it =>
    let d := ethCount2 p 15 (it.bytes.length + 4) (ethCount p 14 (d.putPort p { e with current := none }))
    let d := txComplete p it (d.txStamp p capture) (txHold p d)
    let d : Dev := match it.kind with
      | .host h _ _ _ _ _ => txFetch p h (2 ^ d.get (ETH_TXR_CTRL_log2_ndesc p h)) d
      | _ => d
    ethReachOff p (txStart p d)

/-- The MAC needs a byte of the host frame in transmission that has not arrived (R350): the frame, or the last fragment of one that was
preempted, ends with an inverted FCS, UNDERRUN is written back, and cut_thr rises by 1 up to 36. It happens only to a frame that was longer
than the bytes fetched before it started. -/
def txUnderrun (p : Nat) (d : Dev) : Dev :=
  let e := d.port p
  match e.current with
  | none => d
  | some it =>
    match it.kind with
    | .host h first count _ irq _ =>
      if it.hostLen ≤ 256 * it.thr then d
      else
        let d := ethCount p 17 (txHold p (d.putPort p { e with current := none }))
        let d := txWriteBack p h first count 1 0 false irq d
        let d := ethEvent p 4 (d.set (ETH_TXCFG_cut_thr p) (min (d.get (ETH_TXCFG_cut_thr p) + 1) 36))
        let d := txFetch p h (2 ^ d.get (ETH_TXR_CTRL_log2_ndesc p h)) d
        ethReachOff p (txStart p d)
    | _ => d

/-! ## Preemption (R340) -/

/-- Verification states of ETHn_MM_STAT. -/
inductive MmVerify where
  | disabled | initial | verifying | succeeded | failed
  deriving DecidableEq, Repr

/-- The code of a verification state. -/
def MmVerify.code : MmVerify → Nat
  | .disabled => 0 | .initial => 1 | .verifying => 2 | .succeeded => 3 | .failed => 4

/-- A write of ETHn_MM applies at once; a change of pre_en or verify_dis restarts verification. -/
def mmWrite (p v : Nat) (d : Dev) : Dev :=
  let pre := bits v 0 1
  let dis := bits v 1 1
  let changed := pre != d.get (ETH_MM_pre_en p) || dis != d.get (ETH_MM_verify_dis p)
  let d := ((d.set (ETH_MM_pre_en p) pre).set (ETH_MM_verify_dis p) dis).set (ETH_MM_add_frag p) (bits v 2 2)
  let ms := bits v 4 8
  let d := if 1 ≤ ms && ms ≤ 128 then d.set (ETH_MM_verify_ms p) ms else d
  if !changed then d
  else
    let d := d.putPort p { d.port p with attempts := 0, verifyDue := none }
    if pre = 0 then (d.set (ETH_MM_STAT_verify p) MmVerify.disabled.code).setFlag (ETH_MM_STAT_active p) false
    else if dis = 1 then txPreempt p ((d.set (ETH_MM_STAT_verify p) MmVerify.disabled.code).setFlag (ETH_MM_STAT_active p) true)
    else (d.set (ETH_MM_STAT_verify p) MmVerify.initial.code).setFlag (ETH_MM_STAT_active p) false

/-- A verify attempt falls due: the first at once, the next each verify_ms after the last; up to three are made, and then FAILED is
reported. -/
def mmAttempt (p : Nat) (d : Dev) : Dev :=
  let st := d.get (ETH_MM_STAT_verify p)
  if st = 1 || st = 2 then
    let d := match (d.port p).verifyDue with
      | some t => passElapsed t d
      | none => d
    let e := d.port p
    if d.tbcRuns && decide (d.time.elapsed < e.verifyDue.getD 0) then d
    else if 3 ≤ e.attempts then d.set (ETH_MM_STAT_verify p) MmVerify.failed.code
    else (d.putPort p { e with attempts := e.attempts + 1, verifyDue := some (d.time.elapsed + 4000000 * d.get (ETH_MM_verify_ms p)) }).set
      (ETH_MM_STAT_verify p) MmVerify.verifying.code
  else d

/-- The partner's verify response arrives: SUCCEEDED, and preemption is active. -/
def mmResponse (p : Nat) (d : Dev) : Dev :=
  if d.get (ETH_MM_STAT_verify p) = 2 then
    txPreempt p ((d.set (ETH_MM_STAT_verify p) MmVerify.succeeded.code).setFlag (ETH_MM_STAT_active p) true)
  else d

end Sys2Proof.Machine
end

