-- ==== Sys2Proof/Machine/Float32.lean ====
section
/-! DEFINITION. binary32 arithmetic: every operation evaluates exactly and rounds once to nearest, ties to even (rn of R88), and
cos, sin, atan2 and ln correctly rounded. A binary32 value is its 32-bit pattern as a natural number. -/
namespace Sys2Proof.Machine

/-! ## Patterns -/

/-- The quiet NaN the device writes (R111, R266). -/
def fNaN : Nat := 0x7FC00000
/-- Positive infinity. -/
def fInf : Nat := 0x7F800000
/-- 1.0. -/
def fOne : Nat := 0x3F800000

/-- The sign bit. -/
def fSign (a : Nat) : Bool := bitAt a 31
/-- The pattern without its sign. -/
def fMag (a : Nat) : Nat := a % 2 ^ 31
/-- The pattern is a NaN. -/
def fIsNaN (a : Nat) : Bool := fInf < fMag a
/-- The pattern is an infinity. -/
def fIsInf (a : Nat) : Bool := fMag a == fInf
/-- The pattern is finite. -/
def fIsFinite (a : Nat) : Bool := fMag a < fInf
/-- The pattern is +0 or −0. -/
def fIsZero (a : Nat) : Bool := fMag a == 0
/-- The pattern with the sign inverted. -/
def fNeg (a : Nat) : Nat := if fSign a then a % 2 ^ 31 else a + 2 ^ 31
/-- The pattern with the sign cleared. -/
def fAbs (a : Nat) : Nat := fMag a
/-- A pattern with the given sign and magnitude. -/
def fMk (neg : Bool) (mag : Nat) : Nat := if neg then mag + 2 ^ 31 else mag

/-- The exact value of a finite pattern as numerator and (positive) denominator. -/
def fQ (a : Nat) : Int × Nat :=
  let e := bits a 23 8
  let m := if e = 0 then bits a 0 23 else bits a 0 23 + 2 ^ 23
  let x := if e = 0 then 1 else e
  let s : Int := if fSign a then -(m : Int) else m
  if 150 ≤ x then (s * (2 ^ (x - 150) : Nat), 1) else (s, 2 ^ (150 - x))

/-! ## Rounding -/

/-- Quotient of naturals, rounded half to even. -/
def divRne (n d : Nat) : Nat :=
  let q := n / d
  let r := n % d
  if 2 * r < d then q else if d < 2 * r then q + 1 else q + q % 2

/-- The binary32 magnitude nearest to n / d, ties to even; d is positive. Beyond the largest finite value it is infinity. -/
def roundMag (n d : Nat) : Nat :=
  if n = 0 then 0
  else
    let k : Int := (Nat.log2 n : Int) - Nat.log2 d
    -- the exponent of the leading bit: k or k - 1
    let below : Bool := if 0 ≤ k then n < d * 2 ^ k.toNat else n * 2 ^ (-k).toNat < d
    let e : Int := if below then k - 1 else k
    let u : Int := if e - 23 < -149 then -149 else e - 23
    let q := if 0 ≤ u then divRne n (d * 2 ^ u.toNat) else divRne (n * 2 ^ (-u).toNat) d
    let b := if q < 2 ^ 23 then q else (u + 150).toNat * 2 ^ 23 + (q - 2 ^ 23)
    min b fInf

/-- rn of an exact rational: a zero result is +0. -/
def rnQ (n : Int) (d : Nat) : Nat := fMk (n < 0) (roundMag n.natAbs d)

/-- rn of an integer. -/
def rnInt (n : Int) : Nat := rnQ n 1

/-- The nearest integer to a rational, ties to even (rn_int of R89, rc of R142). -/
def rnIntQ (n : Int) (d : Nat) : Int := divHalfEven n d

/-! ## Arithmetic -/

/-- rn(a + b). -/
def fAdd (a b : Nat) : Nat :=
  if fIsNaN a || fIsNaN b then fNaN
  else if fIsInf a then (if fIsInf b && fSign a != fSign b then fNaN else a)
  else if fIsInf b then b
  else
    let (n, d) := fQ a
    let (m, e) := fQ b
    let s := n * e + m * d
    if s = 0 then (if fSign a && fSign b then 2 ^ 31 else 0) else rnQ s (d * e)

/-- rn(a − b). -/
def fSub (a b : Nat) : Nat := fAdd a (if fIsNaN b then b else fNeg b)

/-- rn(a × b). -/
def fMul (a b : Nat) : Nat :=
  let s := fSign a != fSign b
  if fIsNaN a || fIsNaN b then fNaN
  else if fIsInf a || fIsInf b then (if fIsZero a || fIsZero b then fNaN else fMk s fInf)
  else
    let (n, d) := fQ a
    let (m, e) := fQ b
    fMk s (roundMag (n.natAbs * m.natAbs) (d * e))

/-- rn(a ÷ b). -/
def fDiv (a b : Nat) : Nat :=
  let s := fSign a != fSign b
  if fIsNaN a || fIsNaN b then fNaN
  else if fIsInf a then (if fIsInf b then fNaN else fMk s fInf)
  else if fIsInf b then fMk s 0
  else if fIsZero b then (if fIsZero a then fNaN else fMk s fInf)
  else
    let (n, d) := fQ a
    let (m, e) := fQ b
    fMk s (roundMag (n.natAbs * e) (d * m.natAbs))

/-- rn of the square root of a non-negative rational: the integer root of a scaled value, with a sticky bit. -/
def rnSqrtQ (n d : Nat) : Nat :=
  if n = 0 then 0
  else
    let t := 40 + Nat.log2 d
    let v := n * 2 ^ (2 * t) / d
    let r := Nat.sqrt v
    let sticky := if r * r = v && n * 2 ^ (2 * t) % d = 0 then 0 else 1
    roundMag (2 * r + sticky) (2 ^ (t + 1))

/-- rn(√a); the root of a negative value is a NaN, and √−0 = −0. -/
def fSqrt (a : Nat) : Nat :=
  if fIsNaN a then fNaN
  else if fIsZero a then a
  else if fSign a then fNaN
  else if fIsInf a then a
  else
    let (n, d) := fQ a
    rnSqrtQ n.natAbs d

/-- A key that orders the finite patterns and the infinities; +0 and −0 have the same key. -/
def fKey (a : Nat) : Int := if fSign a then -(fMag a : Int) else fMag a

/-- a < b; false with a NaN. -/
def fLt (a b : Nat) : Bool := !fIsNaN a && !fIsNaN b && fKey a < fKey b
/-- a ≤ b; false with a NaN. -/
def fLe (a b : Nat) : Bool := !fIsNaN a && !fIsNaN b && fKey a ≤ fKey b
/-- a = b; false with a NaN. -/
def fEq (a b : Nat) : Bool := !fIsNaN a && !fIsNaN b && fKey a == fKey b
/-- The larger of two values that are no NaN. -/
def fMax (a b : Nat) : Nat := if fLt a b then b else a
/-- The smaller of two values that are no NaN. -/
def fMin (a b : Nat) : Nat := if fLt b a then b else a

/-- The nearest integer, ties to even, of a finite value. -/
def fToInt (a : Nat) : Int := let (n, d) := fQ a; rnIntQ n d

/-! ## Functions, in fixed point with 320 fraction bits -/

/-- 1 in fixed point. -/
def fxOne : Int := 0x100000000000000000000000000000000000000000000000000000000000000000000000000000000
/-- π in fixed point. -/
def fxPi : Int := 0x3243f6a8885a308d313198a2e03707344a4093822299f31d0082efa98ec4e6c89452821e638d01377
/-- ln 2 in fixed point. -/
def fxLn2 : Int := 0xb17217f7d1cf79abc9e3b39803f2f6af40f343267298b62d8a0d175b8baafa2be7b876206debac98

/-- Product in fixed point. -/
def fxMul (a b : Int) : Int := a * b / fxOne

/-- The alternating series Σ t·(−x²)ᵏ / ((a+1)(a+2)…), from term `t` with the last factorial index `a`. -/
def fxSeries (x2 : Int) : Nat → Nat → Int → Int → Int
  | 0, _, _, acc => acc
  | n + 1, a, t, acc =>
    let t' := -(fxMul t x2) / (((a + 1) * (a + 2) : Nat) : Int)
    fxSeries x2 n (a + 2) t' (acc + t')

/-- cos and sin of a fixed-point argument of any size. -/
def fxCosSin (x : Int) : Int × Int :=
  let half := fxPi / 2
  let k := (x + half / 2) / half
  let r := x - k * half - 0
  let r2 := fxMul r r
  let c := fxSeries r2 70 0 fxOne fxOne
  let s := fxSeries r2 70 1 r r
  match (k % 4).toNat with
  | 0 => (c, s)
  | 1 => (-s, c)
  | 2 => (-c, -s)
  | _ => (s, -c)

/-- A finite pattern in fixed point; exact, since the smallest is 2^-149. -/
def fxOf (a : Nat) : Int := let (n, d) := fQ a; n * fxOne / d

/-- rn of a fixed-point value. -/
def rnFx (v : Int) : Nat := rnQ v fxOne.toNat

/-- cos a, correctly rounded to binary32 (R88); of an infinity the manual states none. -/
def fCos (a : Nat) : Nat :=
  if fIsNaN a then fNaN else if fIsInf a then (Config.trigOpen (BitVec.ofNat 32 a)).toNat else rnFx (fxCosSin (fxOf a)).1

/-- sin a, correctly rounded to binary32 (R88). -/
def fSin (a : Nat) : Nat :=
  if fIsNaN a then fNaN else if fIsInf a then (Config.trigOpen (BitVec.ofNat 32 a)).toNat
  else if fMag a < 0x20000000 then a else rnFx (fxCosSin (fxOf a)).2

/-- The series Σ t·(−y²)ᵏ·/(2k+1) of the arctangent. -/
def fxAtanSeries (y2 : Int) : Nat → Nat → Int → Int → Int
  | 0, _, _, acc => acc
  | n + 1, k, t, acc =>
    let t' := -(fxMul t y2)
    fxAtanSeries y2 n (k + 2) t' (acc + t' / ((k : Nat) : Int))

/-- One halving of the argument: y ↦ y / (1 + √(1 + y²)). -/
def fxHalve (y : Int) : Int :=
  let r : Int := Nat.sqrt ((fxOne + fxMul y y).toNat * fxOne.toNat)
  y * fxOne / (fxOne + r)

/-- The arctangent of a fixed-point value in [0, 1]. -/
def fxAtan (y : Int) : Int :=
  let h := fxHalve (fxHalve (fxHalve y))
  8 * fxAtanSeries (fxMul h h) 55 3 h h

/-- The angle of (x, y) with y > 0 in fixed point, from exact non-negative magnitudes. -/
def fxAngle (xn xd yn yd : Nat) (xneg : Bool) : Int :=
  -- |y| / |x| as p / q
  let p := yn * xd
  let q := xn * yd
  let a := if p ≤ q then fxAtan (((p * fxOne.toNat / q : Nat)) : Int) else fxPi / 2 - fxAtan (((q * fxOne.toNat / p : Nat)) : Int)
  if xneg then fxPi - a else a

/-- rn(π) and rn(π / 2). -/
def fPi : Nat := 0x40490FDB
def fHalfPi : Nat := 0x3FC90FDB

/-- atan2(y, x), correctly rounded to binary32, in (−π, π] (R135, R148). Of (0, 0) and of infinities the manual states none. A
quotient below 2^-60 is rounded from the exact value of its first two terms. -/
def fAtan2 (y x : Nat) : Nat :=
  if fIsNaN y || fIsNaN x then fNaN
  else if fIsInf y || fIsInf x || (fIsZero y && fIsZero x) then (Config.atan2Open (BitVec.ofNat 32 y) (BitVec.ofNat 32 x)).toNat
  else if fIsZero y then (if fSign x then fPi else 0)
  else if fIsZero x then fMk (fSign y) fHalfPi
  else
    let (xn, xd) := fQ x
    let (yn, yd) := fQ y
    let p := yn.natAbs * xd
    let q := xn.natAbs * yd
    if !fSign x && p * 2 ^ 60 < q then
      -- t − t³/3 with t = p / q
      fMk (fSign y) (roundMag (3 * p * q * q - p * p * p) (3 * q * q * q))
    else fMk (fSign y) (roundMag (fxAngle xn.natAbs xd yn.natAbs yd (fSign x)).toNat (fxOne.toNat))

/-- The series Σ t·(y²)ᵏ / (2k+1) of the hyperbolic arctangent. -/
def fxAtanhSeries (y2 : Int) : Nat → Nat → Int → Int → Int
  | 0, _, _, acc => acc
  | n + 1, k, t, acc =>
    let t' := fxMul t y2
    fxAtanhSeries y2 n (k + 2) t' (acc + t' / ((k : Nat) : Int))

/-- ln of a positive rational n / d in fixed point. -/
def fxLnQ (n d : Nat) : Int :=
  let k : Int := (Nat.log2 n : Int) - Nat.log2 d
  let (a, b) := if 0 ≤ k then (n, d * 2 ^ k.toNat) else (n * 2 ^ (-k).toNat, d)
  -- a / b lies in (1/2, 2)
  let y : Int := ((a : Int) - b) * fxOne / ((a + b : Nat) : Int)
  k * fxLn2 + 2 * fxAtanhSeries (fxMul y y) 105 3 y y

/-- ln a, correctly rounded to binary32, of a positive finite value; the logarithm of zero, of a negative value and of an
infinity is left open. -/
def fLn (a : Nat) : Nat :=
  if fIsNaN a then fNaN
  else if fSign a || fIsZero a || fIsInf a then (Config.lnOpen (BitVec.ofNat 32 a)).toNat
  else let (n, d) := fQ a; rnFx (fxLnQ n.natAbs d)

/-- Complex product in binary32 (R146): re := rn(rn(ar·br) − rn(ai·bi)), im := rn(rn(ar·bi) + rn(ai·br)). -/
def cMul (a b : Nat × Nat) : Nat × Nat :=
  (fSub (fMul a.1 b.1) (fMul a.2 b.2), fAdd (fMul a.1 b.2) (fMul a.2 b.1))

/-- Complex sum, rounded per component. -/
def cAdd (a b : Nat × Nat) : Nat × Nat := (fAdd a.1 b.1, fAdd a.2 b.2)

/-- The conjugate. -/
def cConj (a : Nat × Nat) : Nat × Nat := (a.1, fNeg a.2)

/-- A complex value scaled, rounded per component. -/
def cScale (s : Nat) (a : Nat × Nat) : Nat × Nat := (fMul s a.1, fMul s a.2)

/-- The angle of a complex value (∠ of R148). -/
def cArg (a : Nat × Nat) : Nat := fAtan2 a.2 a.1

end Sys2Proof.Machine
end

