-- ==== Sys2Proof/Machine/Streams.lean ====
section
/-! DEFINITION. Measurement streams: the stream table, COMMIT and the other commands, synchrophasor frames, sampled-value
frames and source states (R77-R102, R495). -/
namespace Sys2Proof.Machine

/-! ## Entries (R78-R80) -/

/-- A little-endian field of an entry. -/
def Ent.le (e : Ent) (o n : Nat) : Nat := leAt e.bytes o n

def Ent.kind (e : Ent) : Nat := e.le 0 1
def Ent.ctrl (e : Ent) : Nat := e.le 1 1
def Ent.enable (e : Ent) : Bool := bitAt e.ctrl 0
/-- Nominal frequency, 50 or 60. -/
def Ent.fnom (e : Ent) : Nat := if bitAt e.ctrl 1 then 60 else 50
def Ent.rate (e : Ent) : Int := toInt 16 (e.le 2 2)
def Ent.cfgRef (e : Ent) : Nat := e.le 4 4
def Ent.udp (e : Ent) : Nat := e.le 0x0C 2
def Ent.idcode (e : Ent) : Nat := e.le 0x0E 2
def Ent.timeBase (e : Ent) : Nat := e.le 0x10 4
def Ent.appid (e : Ent) : Nat := e.le 0x0E 2
def Ent.svRate (e : Ent) : Nat := e.le 0x10 2
def Ent.svSlot (e : Ent) : Nat := e.le 0x12 1
def Ent.svAsdu (e : Ent) : Nat := e.le 0x13 1
def Ent.svidLen (e : Ent) : Nat := e.le 0x14 1
def Ent.formats (e : Ent) : Nat := e.le 0x30 1
def Ent.nPh (e : Ent) : Nat := e.le 0x31 1
def Ent.nAn (e : Ent) : Nat := e.le 0x32 1
def Ent.nDig (e : Ent) : Nat := e.le 0x33 1
def Ent.phSel (e : Ent) : Nat := e.le 0x34 8
def Ent.anSel (e : Ent) : Nat := e.le 0x3C 2
def Ent.digSel (e : Ent) : Nat := e.le 0x3E 1
def Ent.slotBase (e : Ent) : Nat := e.le 0x40 4
def Ent.scaleBase (e : Ent) : Nat := e.le 0x44 2
def Ent.policy (e : Ent) : Nat := e.le 0x48 2
def Ent.requalN (e : Ent) : Nat := e.le 0x4A 1
def Ent.stallMs (e : Ent) : Nat := e.le 0x4C 2
def Ent.lateMs (e : Ent) : Nat := e.le 0x4E 2
def Ent.svDelay (e : Ent) : Nat := e.le 0x50 4

/-- The entry is a member of its grids: kind ≠ 0 and enable = 1. -/
def Ent.on (e : Ent) : Bool := e.kind != 0 && e.enable

/-- Channel numbers selected among `n`, ascending. -/
def selected (n sel : Nat) : List Nat := (List.range n).filter (bitAt sel)

/-- The gathering slots a source occupies (R80, R141). -/
def Ent.nSlots (e : Ent) : Nat :=
  if e.kind = 2 then 12
  else 1 + (selected e.nPh e.phSel).length + ((selected e.nAn e.anSel).length + 1) / 2 + ((selected e.nDig e.digSel).length + 3) / 4

/-- The structural part of an entry: everything before its policy fields. -/
def Ent.structural (e : Ent) : List Byte := e.bytes.take 0x48

/-- The bytes of a range are all zero. -/
def Ent.zero (e : Ent) (o n : Nat) : Bool := ((e.bytes.drop o).take n).all (fun b => b == 0)

/-- The fields of an enabled entry lie in the ranges of R78 and R84, and its reserved bytes and bits are zero. -/
def Ent.fieldsOk (e : Ent) : Bool :=
  let r := e.rate
  e.ctrl < 4 && ((1 ≤ r && r ≤ 240) || (-60 ≤ r && r ≤ -1)) && e.zero 0x3F 1 && e.scaleBase < 4096 && e.zero 0x46 2 && e.policy < 2048
  && 1 ≤ e.requalN && e.zero 0x4B 1 && 10 ≤ e.stallMs && e.zero 0x54 12
  && (if e.kind = 1 then
      e.zero 6 2 && 1 ≤ e.timeBase && e.timeBase < 2 ^ 24 && e.zero 0x14 28 && e.formats < 16 && e.nPh ≤ 64 && e.nAn ≤ 16 && e.nDig ≤ 8
      && e.phSel < 2 ^ e.nPh && e.anSel < 2 ^ e.nAn && e.digSel < 2 ^ e.nDig && bits e.policy 8 3 == 0 && e.zero 0x50 4
      && e.scaleBase + e.nPh + e.nAn ≤ 4096
    else
      (e.svRate == 4000 || e.svRate == 4800 || e.svRate == 12800 || e.svRate == 14400) && e.svSlot < 32
      && 1 ≤ e.svAsdu && e.svAsdu ≤ 8 && 1 ≤ e.svidLen && e.svidLen ≤ 27
      && ((e.bytes.drop 0x15).take e.svidLen).all (fun b => decide (b.toNat < 128)) && e.zero (0x15 + e.svidLen) (27 - e.svidLen)
      && e.zero 0x30 16 && bits e.policy 8 2 != 3)

/-- The bytes of the key of R81: source address, port and IDCODE, or destination MAC, APPID and svID. -/
def Ent.key (e : Ent) : List Byte :=
  if e.kind = 1 then slice e.bytes 0x08 8 else slice e.bytes 0x08 8 ++ slice e.bytes 0x14 28

/-- What a negative data_rate counts in the lane limit. -/
def Ent.load (e : Ent) : Nat := if e.rate < 0 then 1 else natOf e.rate

/-- The host copy of entry `n` (R77). -/
def Dev.hostEnt (d : Dev) (n : Nat) : Ent := ⟨memReadN d.win (0x1000000 + 128 * n) 128⟩

/-- The working copy of entry `n`. -/
def Dev.ent (d : Dev) (n : Nat) : Ent := (lookup n d.str.working).getD {}

/-- What is kept of source `n`. -/
def Dev.srcSt (d : Dev) (n : Nat) : SrcSt := (lookup n d.str.src).getD {}

/-- Replace what is kept of a source. -/
def Dev.putSrc (n : Nat) (x : SrcSt) (d : Dev) : Dev := { d with str := { d.str with src := insertKey n x d.str.src } }

/-- Counter `k` of source `n` advances (R101, R11). -/
def srcCount (n k amount : Nat) (d : Dev) : Dev :=
  let x := d.srcSt n
  d.putSrc n { x with cnt := modAt x.cnt k (fun c => min (c + amount) (2 ^ 32 - 1)) }

/-- The enabled entries besides `n`. -/
def Dev.others (d : Dev) (n : Nat) : List (Nat × Ent) := d.str.working.filter (fun p => p.1 != n && p.2.on)

/-- The code of a COMMIT (R81), in the order of its table. -/
def commitCode (n : Nat) (e : Ent) (d : Dev) : Nat :=
  if 2 < e.kind then 1
  else if !e.on then 0
  else if !e.fieldsOk then 1
  else if (if e.kind = 1 then d.get BND_CAP0_remote_sources ≤ n || d.get BND_CAP0_all_sources ≤ n
      else d.get BND_CAP0_all_sources ≤ n || 2 * d.get BND_FOLIO_CNT_flt ≤ e.svSlot) then 2
  else if (d.others n).any (fun p => p.2.kind == e.kind && (p.2.key == e.key || (e.kind == 2 && p.2.svSlot == e.svSlot))) then 3
  else if e.kind = 1 && 250000 < e.load + ((d.others n).map (fun p => if p.2.kind = 1 && p.1 / 1024 = n / 1024 then p.2.load else 0)).sum then 4
  else if 1048576 < e.slotBase + e.nSlots || (d.others n).any (fun p =>
      p.2.slotBase < e.slotBase + e.nSlots && e.slotBase < p.2.slotBase + p.2.nSlots) then 5
  else 0

/-! ## States (R96, R102) -/

/-- The counts of STR_STATE_CNT follow a change of one source. -/
def stateCount (st : Nat) (up : Bool) (d : Dev) : Dev :=
  let f : Fld := match st with
    | 1 => STR_STATE_CNT_low 0
    | 2 => STR_STATE_CNT_high 0
    | 3 => STR_STATE_CNT_low 1
    | 4 => STR_STATE_CNT_high 1
    | 5 => STR_STATE_CNT_low 2
    | _ => STR_STATE_CNT_high 2
  d.set f (if up then d.get f + 1 else d.get f - 1)

/-- A condition of event source 36 + `k` is met; the event is raised at the next silence check (R102). -/
def strEvent (k : Nat) (d : Dev) : Dev := { d with str := { d.str with evs := setBit d.str.evs k true } }

/-- Source `n` moves to a state (R96): the counts, the alert bit and the conditions of R102 follow. The count under R97 starts
when a requalification starts, and stays afterwards (DEDUCED, log entry 24); the counts of slow and fast frames start at each change
(DEDUCED, log entry 197). -/
def srcMove (n st : Nat) (d : Dev) : Dev :=
  let x := d.srcSt n
  let old := x.state
  if old = st then d
  else
    let d := stateCount st true (stateCount old false d)
    let d := d.putSrc n { x with state := st, requal := if st = 4 then 0 else x.requal, slow := 0, fast := 0 }
    let d := d.set (STR_ALERT_MAP (n / 32)) (setBit (d.get (STR_ALERT_MAP (n / 32))) (n % 32) (st == 3 || st == 5))
    if st = 3 then strEvent 0 (srcCount n 9 1 d)
    else if st = 5 then strEvent 1 d
    else if st = 1 && old = 4 then strEvent 2 d
    else if st = 2 then strEvent 3 d
    else d

/-- Source `n` enters CFG_STALE with a cause (R91): 1 SIZE, 2 STAT10, 3 NOTE, 4 CONFREV. -/
def cfgStale (n cause : Nat) (d : Dev) : Dev :=
  let d := srcMove n 5 d
  let d := d.putSrc n { d.srcSt n with cause := cause, stat10 := false }
  gridLog 0x1003 n cause 0 0 d

/-! ## Commands (R81-R83, R91, R101, R495) -/

/-- A command is written: BUSY while another runs, else it runs. -/
def strIssue (f : Dev → Dev) (d : Dev) : Dev :=
  if d.flag STR_CMD_STAT_busy then d.set STR_CMD_STAT_result 6 else f (d.setFlag STR_CMD_STAT_busy true)

/-- STR_CMD COMMIT (R81): the host copy is checked; an accepted one takes effect later. -/
def strCommit (n : Nat) (d : Dev) : Dev :=
  strIssue (fun d => { d with str := { d.str with cmd := some { op := 1, index := n, code := commitCode n (d.hostEnt n) d, ent := d.hostEnt n } } }) d

/-- Load a checked copy as the working copy and move the source (R82); the silence timer starts at the commit where a structural field or
enable has changed. The memory of accepted counts (R94) starts empty with each requalification by a commit (DEDUCED, log entry 196). -/
def commitLoad (n : Nat) (e : Ent) (d : Dev) : Dev :=
  let old := d.ent n
  let x := d.srcSt n
  let d := { d with str := { d.str with working := insertKey n e d.str.working } }
  if !e.on then srcMove n 0 d
  else if old.structural != e.structural || x.state = 0 || x.state = 5 then
    let fresh := old.structural != e.structural || x.state = 0
    let d := srcMove n 4 d
    let x := d.srcSt n
    d.putSrc n { x with requal := 0, stall := e.stallMs, svRuns := [], lastValid := if fresh then d.now else x.lastValid, stat10 := x.stat10 && !fresh }
  else d

/-- The accepted COMMIT takes effect between two frames of its source (R82). -/
def commitApply (d : Dev) : Dev :=
  match d.str.cmd with
  | some c =>
    if c.op = 1 && c.code = 0 && !c.applied then
      commitLoad c.index c.ent { d with str := { d.str with cmd := some { c with applied := true } } }
    else d
  | none => d

/-- STR_CMD CLEAR_CNT (R101). -/
def strClear (n : Nat) (d : Dev) : Dev :=
  strIssue (fun d =>
    let d := d.putSrc n { d.srcSt n with cnt := List.replicate 12 0 }
    { d with str := { d.str with cmd := some { op := 2, index := n, applied := true } } }) d

/-- STR_CMD NOTE_CFGCNT (R91). -/
def strNote (n : Nat) (d : Dev) : Dev :=
  strIssue (fun d =>
    let e := d.ent n
    let st := (d.srcSt n).state
    let arg := d.get STR_CMD_ARG
    let differs := if e.kind = 2 then arg != e.cfgRef else arg % 65536 != e.cfgRef % 65536
    let d := if st != 0 && st != 5 && differs then cfgStale n 3 d else d
    { d with str := { d.str with cmd := some { op := 3, index := n, applied := true } } }) d

/-- The running command completes (R495): result and index are written and source 41 is raised. An accepted COMMIT completes
once it has taken effect. -/
def strDone (d : Dev) : Dev :=
  match d.str.cmd with
  | some c =>
    if c.op = 1 && c.code = 0 && !c.applied then d
    else
      let d := { d with str := { d.str with cmd := none } }
      let d := ((d.set STR_CMD_STAT_result c.code).set STR_CMD_STAT_index c.index).setFlag STR_CMD_STAT_busy false
      raise 41 d
  | none => d

/-- At lock every entry with kind ≠ 0 is committed in ascending order (R83); `load` is how an accepted copy takes effect. -/
def commitAll (load : Nat → Ent → Dev → Dev) (d : Dev) : Dev :=
  forN 8192 (fun n d =>
    let e := d.hostEnt n
    if e.kind = 0 then d
    else
      let c := commitCode n e d
      if c = 0 then load n e d
      else ((d.set STR_BOOT_refused (d.get STR_BOOT_refused + 1)).set STR_BOOT_last_index n).set STR_BOOT_last_code c) d

/-- STR_SRC_SEL: the snapshot of entry `n` into the registers of master `m` (R101). -/
def srcSnapshot (m n : Nat) (d : Dev) : Dev :=
  let x := d.srcSt n
  let d := d.set (STR_SRC_SEL_index m) n
  let d := (((d.set (STR_SRC_STAT_state m) x.state).set (STR_SRC_STAT_requal m) x.requal).set (STR_SRC_STAT_stale_cause m) x.cause).set (STR_SRC_STAT_flags m) x.flags
  let d := forN 12 (fun k d => d.set (STR_SRC_CNT m k) (x.cnt.getD k 0)) d
  (d.set2 (STR_SRC_TS_LO m) (STR_SRC_TS_HI m) x.ts).set2 (STR_SRC_ARR_LO m) (STR_SRC_ARR_HI m) x.arr

/-! ## Good frames and latency (R95-R97) -/

/-- A valid frame of source `n` arrived. -/
def srcValid (n arr : Nat) (d : Dev) : Dev := d.putSrc n { d.srcSt n with lastValid := arr }

/-- A frame is withheld: valid, counted, without data; it resets the count of R97. -/
def srcWithheld (n arr : Nat) (d : Dev) : Dev :=
  let d := srcCount n 1 1 (srcValid n arr d)
  let x := d.srcSt n
  if x.state = 4 then d.putSrc n { x with requal := 0 } else d

/-- A good frame of source `n` with time-stamp `t` (R95, R96): the counters, the return from STALLED and the latency limit. -/
def srcGood (n t arr flags : Nat) (d : Dev) : Dev :=
  let d := srcCount n 0 1 (srcValid n arr d)
  let d := if (d.srcSt n).state = 3 then srcMove n 4 d else d
  let x := d.srcSt n
  let lim := (d.ent n).lateMs
  let lat : Int := (arr : Int) - t
  let slow := lim != 0 && (lim : Int) * 1000000 < lat
  let fast := lat ≤ (lim : Int) * 1000000
  let x := { x with ts := t, arr := arr, flags := flags,
                    slow := if slow then min (x.slow + 1) 3 else 0, fast := if fast then min (x.fast + 1) 3 else 0 }
  let d := d.putSrc n x
  if x.state = 1 && x.slow = 3 then srcMove n 2 d
  else if x.state = 2 && x.fast = 3 then srcMove n 1 d
  else d

/-! ## Checks of a data frame (R85-R91) -/

/-- CRC-CCITT: polynomial 0x1021, initial 0xFFFF, no reflection, no final XOR (R86). -/
def crcCcittByte (c : Nat) (b : Byte) : Nat :=
  (List.range 8).foldl (fun c _ => if bitAt c 15 then Nat.xor (c * 2 % 65536) 0x1021 else c * 2 % 65536) (Nat.xor c (b.toNat * 256))

def crcCcitt (bs : List Byte) : Nat := bs.foldl crcCcittByte 0xFFFF

/-- The ones' complement sum of big-endian 16-bit words, an odd last byte padded with zero. -/
def sum16 : List Byte → Nat
  | [] => 0
  | [a] => a.toNat * 256
  | a :: b :: rest => a.toNat * 256 + b.toNat + sum16 rest

/-- Carries folded into 16 bits. -/
def fold16 (v : Nat) : Nat := let a := v % 65536 + v / 65536; let b := a % 65536 + a / 65536; b % 65536 + b / 65536

/-- The Internet checksum field of data whose sum is `v`. -/
def inetCk (v : Nat) : Nat := 65535 - fold16 v

/-- The expected size of a data frame (R86). -/
def Ent.frameSize (e : Ent) : Nat :=
  let f := e.formats
  18 + e.nPh * (if bitAt f 1 then 8 else 4) + 2 * (if bitAt f 3 then 4 else 2) + e.nAn * (if bitAt f 2 then 4 else 2) + 2 * e.nDig

/-- The outcome of the checks of R85 on an IPv4 frame: its UDP payload, source address and ports, or nothing where it is
dropped. `b` is the frame from its destination address, without tag. -/
def udpPayload (b : List Byte) : Option (List Byte) :=
  let ip := b.drop 14
  let ihl := byteAt ip 0 % 16 * 4
  let total := beAt ip 2 2
  let udp := (ip.take total).drop ihl
  let ulen := beAt udp 4 2
  let hdrOk := 20 ≤ ihl && ihl + 8 ≤ total && total ≤ ip.length && fold16 (sum16 (ip.take ihl)) == 65535
  let whole := beAt ip 6 2 % 0x4000 == 0
  let pseudo := sum16 (slice ip 12 8) + 17 + ulen
  let ckOk := beAt udp 6 2 == 0 || fold16 (pseudo + sum16 (udp.take ulen)) == 65535
  if hdrOk && whole && 8 ≤ ulen && ulen ≤ udp.length && ckOk then some ((udp.take ulen).drop 8) else none

/-- Checks 1 of R86. -/
def syncOk (p : List Byte) : Bool :=
  18 ≤ p.length && byteAt p 0 == 0xAA && (byteAt p 1 % 16 == 1 || byteAt p 1 % 16 == 2) && beAt p 2 2 == p.length

/-- The enabled kind 1 entry with a key (R86 check 2). -/
def Dev.matchC37 (d : Dev) (key : List Byte) : Option Nat :=
  (d.str.working.find? (fun p => p.2.on && p.2.kind == 1 && p.2.key == key)).map Prod.fst

/-- The time-stamp of a kind 1 frame (R89), by the UTC offset in force at its arrival. -/
def c37Time (utc : Int) (e : Ent) (p : List Byte) : Nat :=
  natOf (((beAt p 6 4 : Nat) + utc) * 1000000000 + (divRne (beAt p 11 3 * 1000000000) e.timeBase : Nat))

/-- The time-quality code of a frame. -/
def c37Tq (p : List Byte) : Nat := byteAt p 10 % 16

/-- The frame is withheld by policy (R90). -/
def withheld (e : Ent) (stat tq : Nat) : Bool :=
  let pol := e.policy
  let err := stat / 2 ^ 14
  (bitAt pol 0 && (err == 1 || err == 3)) || (bitAt pol 1 && err == 2) || (bitAt pol 2 && bitAt stat 13) || (bitAt pol 3 && bits pol 4 4 < tq)

/-- The source flags of a frame (R90). -/
def c37Flags (e : Ent) (stat tq : Nat) : Nat :=
  let err := stat / 2 ^ 14
  b2n (bits e.policy 4 4 < tq || bitAt stat 13) + b2n (bitAt stat 13) * 2 + b2n (err == 2) * 4 + b2n (err == 1 || err == 3) * 8
  + b2n (bitAt stat 9) * 16 + b2n (bitAt stat 11) * 32 + b2n (bitAt stat 12) * 64

/-! ## Conversion (R88) -/

/-- The scale entry `k`: factor and angle. -/
def Dev.scale (d : Dev) (k : Nat) : Nat × Nat := (d.get (STR_SCALE k), d.get (STR_SCALE_ANGLE k))

/-- A phasor from magnitude and angle: re := rn(m × rn(cos θ)), im := rn(m × rn(sin θ)). -/
def polar (m θ : Nat) : Nat × Nat := (fMul m (fCos θ), fMul m (fSin θ))

/-- The rotation of a rectangular form by a ≠ 0. -/
def rotate (z : Nat × Nat) (a : Nat) : Nat × Nat :=
  if fIsZero a then z
  else
    let c := fCos a
    let n := fSin a
    (fSub (fMul z.1 c) (fMul z.2 n), fAdd (fMul z.1 n) (fMul z.2 c))

/-- The missing value of a channel (R111). -/
def missing : Nat × Nat := (fNaN, fNaN)

/-- Phasor `k` of a frame: its value, or none where it is marked missing. -/
def c37Phasor (d : Dev) (e : Ent) (p : List Byte) (k : Nat) : Option (Nat × Nat) :=
  let f := e.formats
  let (s, a) := d.scale (e.scaleBase + k)
  if bitAt f 1 then
    let o := 16 + 8 * k
    let x := beAt p o 4
    let y := beAt p (o + 4) 4
    if fIsNaN x || fIsNaN y then none
    else if bitAt f 0 then some (polar (fMul x s) (fAdd y a))
    else some (rotate (fMul x s, fMul y s) a)
  else
    let o := 16 + 4 * k
    let x := beAt p o 2
    let y := beAt p (o + 2) 2
    if x = 0x8000 || y = 0x8000 then none
    else if bitAt f 0 then some (polar (fMul (rnInt x) s) (fAdd (rnQ (toInt 16 y) 10000) a))
    else some (rotate (fMul (rnInt (toInt 16 x)) s, fMul (rnInt (toInt 16 y)) s) a)

/-- Where FREQ begins. -/
def Ent.freqAt (e : Ent) : Nat := 16 + e.nPh * (if bitAt e.formats 1 then 8 else 4)

/-- Frequency and ROCOF; a float NaN marks the channel missing. -/
def c37Freq (e : Ent) (p : List Byte) : Nat × Nat :=
  let o := e.freqAt
  if bitAt e.formats 3 then
    let f := beAt p o 4
    let r := beAt p (o + 4) 4
    (if fIsNaN f then fNaN else f, if fIsNaN r then fNaN else r)
  else (rnQ ((e.fnom : Int) * 1000 + toInt 16 (beAt p o 2)) 1000, rnQ (toInt 16 (beAt p (o + 2) 2)) 100)

/-- Analogue `j`, or none where it is marked missing. -/
def c37Analog (d : Dev) (e : Ent) (p : List Byte) (j : Nat) : Option Nat :=
  let (s, _) := d.scale (e.scaleBase + e.nPh + j)
  let o := e.freqAt + 2 * (if bitAt e.formats 3 then 4 else 2)
  if bitAt e.formats 2 then
    let v := beAt p (o + 4 * j) 4
    if fIsNaN v then none else some (fMul v s)
  else
    let v := beAt p (o + 2 * j) 2
    if v = 0x8000 then none else some (fMul (rnInt (toInt 16 v)) s)

/-- Digital word `j`. -/
def c37Digital (e : Ent) (p : List Byte) (j : Nat) : Nat :=
  beAt p (e.freqAt + 2 * (if bitAt e.formats 3 then 4 else 2) + e.nAn * (if bitAt e.formats 2 then 4 else 2) + 2 * j) 2

/-- A slot of two 32-bit halves, the first in bytes 0-3. -/
def slot2 (z : Nat × Nat) : Nat := z.1 + 2 ^ 32 * z.2

/-- Values packed `per` to a slot of 64 bits, each `w` bits wide; the rest of the last slot is zero (R80). -/
def packSlots (per w : Nat) : Nat → List Nat → List Nat
  | 0, _ => []
  | fuel + 1, xs => if xs.isEmpty then [] else ((xs.take per).reverse.foldl (fun a x => a * 2 ^ w + x) 0) :: packSlots per w fuel (xs.drop per)

/-- The slots of a frame (R80, R88, R111) and whether a selected channel is missing. -/
def c37Slots (d : Dev) (e : Ent) (p : List Byte) : List Nat × Bool :=
  let ph := (selected e.nPh e.phSel).map (c37Phasor d e p)
  let an := (selected e.nAn e.anSel).map (c37Analog d e p)
  let dg := (selected e.nDig e.digSel).map (c37Digital e p)
  let fr := c37Freq e p
  (slot2 fr :: ph.map (fun z => slot2 (z.getD missing)) ++ packSlots 2 32 an.length (an.map (fun v => v.getD fNaN)) ++ packSlots 4 16 dg.length dg,
    ph.any Option.isNone || an.any Option.isNone || fr.1 == fNaN || fr.2 == fNaN)

/-! ## A synchrophasor frame (R86) -/

/-- A frame of no entry is counted; source 40 is due where the count has increased (R102). -/
def strUnmatched (d : Dev) : Dev :=
  let e := d.inc STR_UNMATCHED
  if e.get STR_UNMATCHED = d.get STR_UNMATCHED then e else strEvent 4 e

/-- A frame that failed before a match. -/
def anonErr (d : Dev) : Dev := d.inc STR_ANON_ERR

/-- A frame of source `n` is processed: the policy of the working copy is in force from here on (R82). -/
def policyFrame (n : Nat) (d : Dev) : Dev := d.putSrc n { d.srcSt n with stall := (d.ent n).stallMs }

/-- A data frame of source `n`, from check 3 on. -/
def c37Data (n : Nat) (f : RxFrame) (p : List Byte) (d : Dev) : Dev :=
  let d := policyFrame n d
  let e := d.ent n
  let arr := stampNs f.stamp
  let stat := beAt p 14 2
  let tq := c37Tq p
  if crcCcitt (p.take (p.length - 2)) != beAt p (p.length - 2) 2 then srcCount n 2 1 d
  else if (d.srcSt n).state = 5 then srcCount n 4 1 d
  else if p.length != e.frameSize then cfgStale n 1 d
  else if (d.srcSt n).stat10 && !bitAt stat 10 then cfgStale n 2 d
  else if e.timeBase ≤ beAt p 11 3 then srcCount n 3 1 d
  else
    let d := d.putSrc n { d.srcSt n with stat10 := bitAt stat 10 }
    if withheld e stat tq then srcWithheld n arr d
    else
      let t := c37Time f.utc e p
      let flags := c37Flags e stat tq
      let (slots, part) := c37Slots d e p
      let d := srcGood n t arr flags d
      let fr : GoodFrame :=
        { src := n, t := t, arr := arr, port := f.port, flags := flags, tq := bits stat 6 3, unlocked := bits stat 4 2,
          trigger := bits stat 0 4, leap := byteAt p 10 / 16, part := part, slots := slots }
      { d with col := { d.col with inbox := d.col.inbox ++ [fr] } }

/-- The RXP lane takes the oldest frame of the synchrophasor class (R85, R86). -/
def c37Rx (d : Dev) : Dev :=
  match d.eth.streamIn with
  | [] => d
  | f :: fs =>
    let d := { d with eth := { d.eth with streamIn := fs } }
    match udpPayload f.bytes with
    | none => anonErr d
    | some p =>
      let ihl := byteAt f.bytes 14 % 16 * 4
      if 2 ≤ p.length && byteAt p 0 = 0xAA && bits (byteAt p 1) 4 3 != 0 then hostDeliver f.port f 2 d
      else if !syncOk p then anonErr d
      else
        let port := beAt f.bytes (14 + ihl + 2) 2
        match d.matchC37 (slice f.bytes 26 4 ++ toLe 2 port ++ toLe 2 (beAt p 4 2)) with
        | none =>
          let d := strUnmatched d
          if d.flag STR_CFG_unmatched_to_host then hostDeliver f.port f 3 d else d
        | some n => c37Data n f p d

/-! ## Sampled-value frames (R92-R94) -/

/-- A BER element: its tag, content and what follows; definite lengths in the short form and in the long form of 1 to 126 bytes. -/
def berTake (bs : List Byte) : Option (Nat × List Byte × List Byte) :=
  match bs with
  | t :: l :: rest =>
    let (n, rest, ok) : Nat × List Byte × Bool :=
      if l.toNat < 128 then (l.toNat, rest, true)
      else
        let k := l.toNat - 128
        (ofBe (rest.take k), rest.drop k, 1 ≤ k && k ≤ 126 && k ≤ rest.length)
    if ok && n ≤ rest.length then some (t.toNat, rest.take n, rest.drop n) else none
  | _ => none

/-- The elements of a BER content; none where it is not well formed. -/
def berList : Nat → List Byte → Option (List (Nat × List Byte))
  | _, [] => some []
  | 0, _ => none
  | fuel + 1, bs => match berTake bs with
    | none => none
    | some (t, c, rest) => (berList fuel rest).map (fun xs => (t, c) :: xs)

/-- One ASDU of a frame. -/
structure Asdu where
  svid : List Byte
  smpCnt : Nat
  confRev : Nat
  sync : Option Nat
  data : List Byte
  deriving DecidableEq, Repr

/-- The content of the first element with a tag. -/
def berGet (xs : List (Nat × List Byte)) (t : Nat) : Option (List Byte) := (xs.find? (fun x => x.1 == t)).map Prod.snd

/-- An ASDU (IEC 61850-9-2: svID 0x80, smpCnt 0x82, confRev 0x83, smpSynch 0x85, seqData 0x87; PRESUMED, log entry 11). -/
def asduOf (c : List Byte) : Option Asdu :=
  match berList c.length c with
  | none => none
  | some xs => match berGet xs 0x80, berGet xs 0x82, berGet xs 0x83, berGet xs 0x87 with
    | some s, some n, some r, some q => some ⟨s, ofBe n, ofBe r, (berGet xs 0x85).map ofBe, q⟩
    | _, _, _, _ => none

/-- The ASDUs of an SV frame and its noASDU; none where the savPdu is not well formed. -/
def savPdu (apdu : List Byte) : Option (Nat × List Asdu) :=
  match berTake apdu with
  | some (0x60, c, _) => match berList c.length c with
    | some xs => match berGet xs 0x80, berGet xs 0xA2 with
      | some no, some seq => match berList seq.length seq with
        | some as => (as.mapM (fun (a : Nat × List Byte) => asduOf a.2)).map (fun l => (ofBe no, l))
        | none => none
      | _, _ => none
    | none => none
  | _ => none

/-- The content of the first element with a tag, of elements up to it that are well formed. -/
def berFind (tag : Nat) : Nat → List Byte → Option (List Byte)
  | 0, _ => none
  | fuel + 1, bs => match berTake bs with
    | none => none
    | some (t, c, rest) => if t = tag then some c else berFind tag fuel rest

/-- The svID of the first ASDU of an SV frame, by which it is matched; what follows it need not be well formed (R92). -/
def firstSvid (apdu : List Byte) : Option (List Byte) :=
  ((((berFind 0x60 1 apdu).bind (fun c => berFind 0xA2 c.length c)).bind berTake).bind
    (fun a => berFind 0x80 a.2.1.length a.2.1))

/-- The enabled kind 2 entry of a frame: destination MAC, APPID and svID (R92). -/
def Dev.matchSv (d : Dev) (dst : List Byte) (appid : Nat) (svid : List Byte) : Option Nat :=
  (d.str.working.find? (fun p => p.2.on && p.2.kind == 2 && slice p.2.bytes 8 6 == dst && p.2.appid == appid
    && slice p.2.bytes 0x15 p.2.svidLen == svid)).map Prod.fst

/-- Nanoseconds of count `c` within its second. -/
def svOffset (rate c : Nat) : Nat := divRne (c * 1000000000) rate

/-- The whole second S for which arrival − t lies in [−1 ms, 999 ms) (R93), in seconds. -/
def svSecond (arr off : Nat) : Nat := natOf (((arr : Int) - off + 1000000) / 1000000000)

/-- The absolute index of a sample with count `c` at time `t` (R142): the index congruent to the count that lies nearest to its
time, which for a synchronised sample is its whole second × sv_rate + its count (DEDUCED for smpSynch = 0, log entry 12). -/
def svIndex (rate c : Nat) (t : Int) : Nat :=
  let base := t * rate / 1000000000
  let r := ((c : Int) - base) % rate
  natOf (if 2 * r < rate then base + r else base + r - rate)

/-- The time of ASDU `i` of `n` (R93): by its count, or from the arrival for a frame with smpSynch = 0, where the distance to the last
one is rounded half to even (DESIGN CHOICE, log entry 195). -/
def svTime (e : Ent) (arr i n cnt : Nat) (synced : Bool) : Int :=
  let off := svOffset e.svRate cnt
  if synced then ((svSecond arr off * 1000000000 + off : Nat) : Int)
  else (arr : Int) - e.svDelay - (divRne ((n - 1 - i) * 1000000000) e.svRate : Nat)

/-- The quality word of channel `j` of an ASDU: bits [1:0] validity (R94). -/
def svQual (q : List Byte) (j : Nat) : Nat := beAt q (8 * j + 4) 4

/-- Channel `j` of an ASDU carries TEST (R94): its test bit or the frame's simulate bit, unless wh_sv_test makes it missing. -/
def Asdu.test (pol : Nat) (sim : Bool) (a : Asdu) (j : Nat) : Bool := !bitAt pol 10 && (sim || bitAt (svQual a.data j) 11)

/-- A channel's sample is missing by its quality (R94). -/
def qualMissing (pol q : Nat) (sim : Bool) : Bool :=
  q % 4 == 1 || q % 4 == 2 || bitAt q 2 || bitAt q 12 || (bitAt pol 10 && (bitAt q 11 || sim))

/-- A bit mask over the eight channels. -/
def mask8 (f : Nat → Bool) : Nat := (List.range 8).foldl (fun a j => a + b2n (f j) * 2 ^ j) 0

/-- The absolute index of the last accepted sample. -/
def SrcSt.svLast (x : SrcSt) : Option Nat := x.svRuns.head?.map Prod.snd

/-- The runs of accepted samples with one more, newer than all. -/
def runsAdd (i : Nat) : List (Nat × Nat) → List (Nat × Nat)
  | [] => [(i, i)]
  | (a, b) :: rs => if i = b + 1 then (a, i) :: rs else (i, i) :: (a, b) :: rs

/-- One ASDU enters the chain of its group (R94): a count accepted before is a duplicate, another older one is dropped, and a jump marks
the samples in between missing. `wh` says that the frame is withheld, so its samples are missing (R149); a missing sample carries no
flag. A count that is missing on several channels counts once (DESIGN CHOICE, log entry 196). -/
def svAccept (n : Nat) (a : Asdu) (idx : Nat) (t : Int) (arr sync : Nat) (sim wh : Bool) (d : Dev) : Dev :=
  let e := d.ent n
  let x := d.srcSt n
  let dup := x.svRuns.any (fun r => r.1 ≤ idx && idx ≤ r.2)
  let old := match x.svLast with | some l => decide (idx < l) | none => false
  if dup then srcCount n 6 1 d
  else if old then srcCount n 11 1 d
  else
    let gap := match x.svLast with | some l => idx - l - 1 | none => 0
    let bad := mask8 (fun j => qualMissing e.policy (svQual a.data j) sim)
    let miss := if wh then 255 else bad
    let quest := mask8 (fun j => !bitAt miss j && ((svQual a.data j) % 4 == 3 || bitAt (svQual a.data j) 10))
    let test := (List.range 8).any (fun j => !bitAt miss j && a.test e.policy sim j)
    let d := d.putSrc n { x with svRuns := runsAdd idx x.svRuns }
    let d := srcCount n 10 (gap + b2n (bad != 0)) d
    let smp : Sample := { group := e.svSlot, index := idx, time := t, sync := sync, vals := (List.range 8).map (fun j => toInt 32 (beAt a.data (8 * j) 4)),
                          missing := miss, quest := quest, test := test, arr := arr }
    { d with flt := { d.flt with queue := d.flt.queue ++ [smp] } }

/-- The APDU of a sampled-value frame. -/
def RxFrame.apdu (f : RxFrame) : List Byte := (f.bytes.drop 22).take (beAt f.bytes 16 2 - 8)

/-- A frame of the sampled-value class is taken from its lane (R92-R94): counted by its source from the match on. The order of its checks
and the use of the lowest smpSynch of its ASDUs are the model's (DESIGN CHOICE, log entry 195). -/
def svRx (d : Dev) : Dev :=
  match d.eth.svIn with
  | [] => d
  | f :: fs =>
    let d := { d with eth := { d.eth with svIn := fs } }
    let arr := stampNs f.stamp
    let appid := beAt f.bytes 14 2
    let sim := bitAt (beAt f.bytes 18 2) 15
    match firstSvid f.apdu with
    | none => anonErr d
    | some svid => match d.matchSv (f.bytes.take 6) appid svid with
      | none => strUnmatched d
      | some n =>
        let d := policyFrame n d
        let e := d.ent n
        if (d.srcSt n).state = 5 then srcCount n 4 1 d
        else match savPdu f.apdu with
        | none | some (_, []) => srcCount n 3 1 d
        | some (no, a :: as) =>
        let all := a :: as
        let sync := ((all.map (fun x => x.sync.getD 0)).foldl min 2)
        let ok := no == e.svAsdu && all.length == e.svAsdu && all.all (fun x => x.svid == a.svid && x.sync.isSome && x.data.length == 64)
        if !ok then srcCount n 3 1 d
        else if all.any (fun x => x.confRev != e.cfgRef) then cfgStale n 4 d
        else
          let min := bits e.policy 8 2
          let wh := sync < min
          let synced := 1 ≤ sync
          if all.any (fun x => e.svRate ≤ x.smpCnt) then srcCount n 3 1 d
          else
            let last := svTime e arr (all.length - 1) all.length ((all.getLastD a).smpCnt) synced
            let d := if wh then srcWithheld n arr d
              else srcGood n (natOf last) arr (b2n (sync < 2) + b2n (sync == 0) * 2
                + b2n (all.any (fun x => (List.range 8).any (x.test e.policy sim))) * 4) d
            (all.zip (List.range all.length)).foldl (fun d x =>
              let t := svTime e arr x.2 all.length x.1.smpCnt synced
              svAccept n x.1 (svIndex e.svRate x.1.smpCnt t) t arr sync sim wh d) d

/-! ## Silence (R98, R102) -/

/-- The silence check of a 1 ms instant (R98), and the stream events of that millisecond (R102). -/
def silenceCheck (d : Dev) : Dev :=
  let d := d.str.src.foldl (fun d p =>
    let x := d.srcSt p.1
    if (x.state = 1 || x.state = 2 || x.state = 4) && x.stall * 1000000 ≤ d.now - x.lastValid then srcMove p.1 3 d else d) d
  let evs := d.str.evs
  let d := { d with str := { d.str with evs := 0 } }
  forN 5 (fun k d => if bitAt evs k then raiseMs (36 + k) d else d) d

/-- After a step of the counter each source's last valid arrival is the time after the step (R98), and the order of its samples starts
anew. -/
def streamsAfterStep (d : Dev) : Dev :=
  { d with str := { d.str with src := d.str.src.map (fun p => (p.1, { p.2 with lastValid := d.now, svRuns := [] })) } }

end Sys2Proof.Machine
end

