-- ==== Sys2Proof/Machine/Collator.lean ====
section
/-! DEFINITION. The Collator: grids, placement, views and their closing, amendments, finality, steps and disabling
(R103-R131, R139). -/
namespace Sys2Proof.Machine

/-! ## Grids and instants (R103-R106) -/

/-- What grid `n` holds. -/
def Dev.grid (d : Dev) (n : Nat) : GridSt := (lookup n d.col.grids).getD {}

/-- Replace what a grid holds. -/
def Dev.putGrid (n : Nat) (x : GridSt) (d : Dev) : Dev := { d with col := { d.col with grids := insertKey n x d.col.grids } }

/-- What reader `r` holds. -/
def Dev.reader (d : Dev) (r : Nat) : ReaderSt := (lookup r d.col.readers).getD {}

/-- Replace what a reader holds. -/
def Dev.putReader (r : Nat) (x : ReaderSt) (d : Dev) : Dev := { d with col := { d.col with readers := insertKey r x d.col.readers } }

/-- The placement tolerance and the open window ahead, in ns (R106). -/
def Dev.tol (d : Dev) : Nat := d.get COL_CFG_tol_ns
def Dev.lead (d : Dev) : Nat := d.get COL_CFG_lead_ms * 1000000

/-- The times of a grid, in ns. -/
def Dev.hold (d : Dev) (n : Nat) : Nat := d.get (COL_GRID_TIME_hold_ms n) * 1000000
def Dev.horizon (d : Dev) (n : Nat) : Nat := d.get (COL_GRID_TIME_horizon_ms n) * 1000000
def Dev.keep (d : Dev) (n : Nat) : Nat := d.get (COL_GRID_TIME_keep n) * 10000000
def Dev.rate (d : Dev) (n : Nat) : Nat := d.get (COL_GRID_CTRL_rate n)

/-- The instant with index `k` of a rate (R104). -/
def instantAt (rate k : Nat) : Nat := k / rate * 1000000000 + divRne (k % rate * 1000000000) rate

/-- The index of the first instant at or after `t`. -/
def firstIndex (rate t : Nat) : Nat :=
  let b := t / 1000000000 * rate + t % 1000000000 * rate / 1000000000
  if t ≤ instantAt rate b then b else b + 1

/-- The index of the instant g with g − tol ≤ t < g + tol, if there is one. -/
def indexWithin (rate t tol : Nat) : Option Nat :=
  let k := firstIndex rate (t + 1 - tol)
  if instantAt rate k ≤ t + tol then some k else none

/-- The calendar second of a whole second of device time is a multiple of `r` (R105). -/
def Dev.calendarMultiple (d : Dev) (s r : Nat) : Bool := ((s : Int) - d.getI TBS_UTC_utc_offset) % r == 0

/-- The time-stamp lies on the own grid of an entry (R105, R107). -/
def Dev.onOwnGrid (d : Dev) (e : Ent) (t : Nat) : Bool :=
  if 0 < e.rate then (indexWithin (natOf e.rate) t d.tol).isSome
  else match indexWithin 1 t d.tol with
    | some s => d.calendarMultiple s e.rate.natAbs
    | none => false

/-- An entry is due at instant `g`: an instant of its own grid lies in [g − tol, g + tol) (R105). -/
def Dev.isDue (d : Dev) (e : Ent) (g : Nat) : Bool :=
  if 0 < e.rate then decide (instantAt (natOf e.rate) (firstIndex (natOf e.rate) (g - d.tol)) < g + d.tol)
  else
    let s := cdiv (g - d.tol) 1000000000
    decide (s * 1000000000 < g + d.tol) && d.calendarMultiple s e.rate.natAbs

/-- An entry lies in the source range of a grid. -/
def Dev.inRange (d : Dev) (n s : Nat) : Bool :=
  d.get (COL_GRID_SRC_first n) ≤ s && s < d.get (COL_GRID_SRC_first n) + d.get (COL_GRID_SRC_count n)

/-- The members of a grid (R103), ascending. -/
def Dev.members (d : Dev) (n : Nat) : List Nat :=
  (d.str.working.filter (fun p => p.2.on && d.inRange n p.1)).map Prod.fst

/-- A due member is expected while it is ACTIVE or LATE (R105). -/
def Dev.expected (d : Dev) (x : Gathering) : List Nat :=
  x.due.filter (fun s => (d.srcSt s).state == 1 || (d.srcSt s).state == 2)

/-! ## Storage (R129, R130) -/

/-- The size of a gathering in bytes (R129). -/
def Dev.gsize (d : Dev) (n : Nat) : Nat :=
  cdiv (64 + 8 * d.get (COL_GRID_SRC_count n) + 8 * d.get (COL_GRID_SLOTN_slot_n n)) 64 * 64

/-- The number of ring positions of a grid (R131). -/
def Dev.ringHeld (d : Dev) (n : Nat) : Nat :=
  cdiv ((d.get COL_CFG_lead_ms + d.get (COL_GRID_TIME_hold_ms n) + d.get (COL_GRID_TIME_horizon_ms n) + 10 * d.get (COL_GRID_TIME_keep n)) * d.rate n) 1000 + 1

/-- The MiB a grid needs (R131). -/
def Dev.needMib (d : Dev) (n : Nat) : Nat := cdiv (d.ringHeld n * d.gsize n) mib

/-- The sizes of a grid are published (R129, R131; DEDUCED: at each write of its configuration and at its enable, log entry 13). -/
def gridPublish (n : Nat) (d : Dev) : Dev :=
  ((d.set (COL_GRID_HELD_held n) (d.ringHeld n)).set (COL_GRID_GSIZE n) (d.gsize n)).set (COL_GRID_BASE_need_mib n) (d.needMib n)

/-- COL_PART: the size of partition 0, and 1 plus what every grid that is not OFF needs. -/
def colPart (d : Dev) : Dev :=
  let used := 1 + ((List.range 8).map (fun n => if d.get (COL_GRID_CTRL_state n) = 0 then 0 else d.get (COL_GRID_BASE_need_mib n))).sum
  (d.set COL_PART_size_mib (d.get (BND_PART_size_mib 0))).set COL_PART_used_mib (min used 65535)

/-- The DRAM address of gathering `k` of a grid (R118). -/
def Dev.gathAddr (d : Dev) (n k : Nat) : Nat :=
  (d.part 0).1 + d.get (COL_GRID_BASE_base_mib n) * mib + k % d.ringHeld n * d.gsize n

/-- The state of a gathering (R117): 0 OPEN, 1 PROVISIONAL, 2 CLOSED, 3 FINAL. Of a gathering without a view, in a grid with a reader in
ON, every view is CLOSED (DEDUCED, log entry 169). -/
def Dev.gathState (d : Dev) (n : Nat) (x : Gathering) : Nat :=
  let reader := (List.range 64).any (fun r => d.get (COL_RD_CTRL_state r) == 1 && d.get (COL_RD_CTRL_grid r) == n)
  if x.finalAt.isSome then 3
  else if !reader || x.views.any (fun v => v.state == 0) then 0
  else if x.views.any (fun v => v.state == 1) then 1 else 2

/-- The header of a gathering (R129). -/
def Dev.gathHeader (d : Dev) (n : Nat) (x : Gathering) : List Byte :=
  let flags := b2n x.step + b2n x.forced * 2 + b2n x.memLost * 4 + b2n (x.amendments != 0) * 8 + b2n x.disabled * 16
  toLe 8 x.g ++ toLe 1 (d.gathState n x) ++ toLe 1 flags ++ toLe 2 x.due.length ++ toLe 2 x.placed.length ++ toLe 2 x.amendments
  ++ toLe 2 x.arrivedFirst ++ toLe 2 (if x.firstClose = 0 then 0 else x.expectedFirst.length) ++ toLe 4 0 ++ toLe 8 x.firstClose
  ++ toLe 8 x.closedMask ++ toLe 8 x.provMask ++ toLe 8 (x.finalAt.getD 0) ++ toLe 8 0

/-- The status entry of a source in a gathering (R130). -/
def Gathering.status (x : Gathering) (s : Nat) : List Byte :=
  let due := b2n (x.due.contains s) * 2 ^ 9 + b2n (x.expectedFirst.contains s) * 2 ^ 25
  match x.placed.find? (fun p => p.src == s) with
  | none => toLe 4 due ++ toLe 4 0
  | some p =>
    toLe 4 (p.flags + 2 ^ 8 + due + b2n p.amended * 2 ^ 10 + b2n p.part * 2 ^ 11 + p.tq * 2 ^ 12 + p.unlocked * 2 ^ 15
      + p.trigger * 2 ^ 17 + p.leap * 2 ^ 21) ++ toLe 4 (p.order + p.latency * 2 ^ 13)

/-- The held gathering with an index. -/
def Dev.gath (d : Dev) (n k : Nat) : Option Gathering := (d.grid n).held.find? (fun x => x.k == k)

/-- Replace a held gathering. -/
def Dev.putGath (n : Nat) (x : Gathering) (d : Dev) : Dev :=
  d.putGrid n { d.grid n with held := (d.grid n).held.map (fun y => if y.k = x.k then x else y) }

/-- Write the header of a gathering to DRAM; a marked gathering's is not maintained (R126). -/
def headerWrite (n : Nat) (x : Gathering) (d : Dev) : Dev :=
  if x.memLost then d else d.dramWrite (d.gathAddr n x.k) (d.gathHeader n x)

/-- Write the status entry of a source to DRAM. -/
def statusWrite (n : Nat) (x : Gathering) (s : Nat) (d : Dev) : Dev :=
  if x.memLost || !d.inRange n s then d else d.dramWrite (d.gathAddr n x.k + 64 + 8 * (s - d.get (COL_GRID_SRC_first n))) (x.status s)

/-- Where slot `j` of gathering slot space lies in a stored gathering; none outside the slot range. -/
def Dev.slotAddr (d : Dev) (n k j : Nat) : Option Nat :=
  let lo := d.get (COL_GRID_SLOT_slot_lo n)
  if lo ≤ j && j < lo + d.get (COL_GRID_SLOTN_slot_n n) then
    some (d.gathAddr n k + 64 + 8 * d.get (COL_GRID_SRC_count n) + 8 * (j - lo))
  else none

/-- The 64-bit content of slot `j` in gathering `k`; zero outside the slot range. -/
def Dev.slotRead (d : Dev) (n k j : Nat) : Nat :=
  match d.slotAddr n k j with
  | some a => memLe d.dram a 8
  | none => 0

/-! ## Views (R113-R118) -/

/-- The arrived value of a notice made now; 0 for a marked gathering (R126). -/
def Gathering.arrivedNow (x : Gathering) : Nat := if x.memLost then 0 else x.placed.length

/-- A notice is sent to a reader (R116, R118). -/
def notify (r n : Nat) (x : Gathering) (kind cause : Nat) (d : Dev) : Dev :=
  let nt : Notice := { grid := n, k := x.k, g := x.g, arrived := x.arrivedNow, kind := kind, cause := cause, memLost := x.memLost, made := d.now, tick := d.time.elapsed }
  let d := d.putReader r { d.reader r with notices := (d.reader r).notices ++ [nt] }
  d.set2 (COL_RD_LAST_LO r) (COL_RD_LAST_HI r) x.g

/-- Set a view of a gathering. -/
def Gathering.setView (x : Gathering) (v : View) : Gathering :=
  { x with views := x.views.map (fun w => if w.reader = v.reader then v else w) }

/-- A view leaves OPEN or PROVISIONAL at instant `now` (R116): 1 PROVISIONAL, 2 CLOSED. The first close of a gathering latches its counts
(R129; a PROVISIONAL view counts, DEDUCED, log entry 14). A stopped Collator closes nothing (R16). -/
def viewClose (n k r st cause now : Nat) (d : Dev) : Dev :=
  if !d.blockRuns 58 then d
  else match d.gath n k with
  | none => d
  | some x => match x.views.find? (fun v => v.reader == r) with
    | none => d
    | some v =>
      let first := x.firstClose == 0 && x.closedMask == 0
      let sends := v.state == 0 || decide (v.arrived.getD 0 < x.arrivedNow)
      let x := if first then { x with firstClose := now, arrivedFirst := x.placed.length, expectedFirst := d.expected x } else x
      let x := x.setView { v with state := st, arrived := if sends then some x.arrivedNow else v.arrived }
      let x := { x with closedMask := setBit x.closedMask r true, provMask := if st = 1 then setBit x.provMask r true else x.provMask }
      let d := d.putGath n x
      let d := if first then x.expectedFirst.foldl (fun d s => statusWrite n x s d) d else d
      let d := headerWrite n x d
      let d := if st = 1 then d.inc (COL_RD_PROV r) else d
      let d := if cause = 2 then d.inc (COL_RD_WAITC r) else d
      if sends then notify r n x (st - 1) cause d else d

/-- A view is evaluated at instant `now` (R114, R115). -/
def viewEval (n k r now : Nat) (d : Dev) : Dev :=
  match d.gath n k with
  | none => d
  | some x => match x.views.find? (fun v => v.reader == r) with
    | none => d
    | some v =>
      let exp := d.expected x
      let arr := (exp.filter (fun s => x.placed.any (fun p => p.src == s))).length
      let wait := d.get (COL_RD_WAIT_wait_us r) * 1000
      let quorum := d.flag (COL_RD_CTRL_policy r)
      let need := max 1 (cdiv (exp.length * d.get (COL_RD_QUORUM_pct r)) 100)
      if v.state = 2 || (v.state = 1 && !quorum) then d
      else if x.g ≤ now && arr = exp.length then viewClose n k r 2 0 now d
      else if x.g + wait ≤ now then viewClose n k r 2 2 now d
      else if quorum && v.state = 0 && x.g + d.get (COL_RD_QUORUM_min_us r) * 1000 ≤ now && need ≤ arr then viewClose n k r 1 1 now d
      else d

/-- Every view of a gathering is evaluated at an instant. -/
def gathEval (n k now : Nat) (d : Dev) : Dev :=
  match d.gath n k with
  | none => d
  | some x => if x.finalAt.isSome then d else x.views.foldl (fun d v => viewEval n k v.reader now d) d

/-- A view is evaluated at each of its instants g, g + min_us (of a QUORUM view, R115) and g + wait that lie at or before `now`, in order
(R112). -/
def viewUpTo (n k r now : Nat) (d : Dev) : Dev :=
  match d.gath n k with
  | none => d
  | some x =>
    let at_ (t : Nat) (d : Dev) : Dev := if t ≤ now then viewEval n k r t d else d
    let quorum (d : Dev) : Dev := if d.flag (COL_RD_CTRL_policy r) then at_ (x.g + d.get (COL_RD_QUORUM_min_us r) * 1000) d else d
    at_ (x.g + d.get (COL_RD_WAIT_wait_us r) * 1000) (quorum (at_ x.g d))

/-- Every view of a gathering is brought up to an instant. -/
def gathUpTo (n k now : Nat) (d : Dev) : Dev :=
  match d.gath n k with
  | none => d
  | some x => if x.finalAt.isSome then d else x.views.foldl (fun d v => viewUpTo n k v.reader now d) d

/-- Every view of every grid is brought up to instant `t`. -/
def viewsUpTo (t : Nat) (d : Dev) : Dev := forN 8 (fun n d => (d.grid n).held.foldl (fun d x => gathUpTo n x.k t d) d) d

/-- The expected sets changed at instant `t` (R105): every open view is evaluated. -/
def colReevalAt (t : Nat) (d : Dev) : Dev := forN 8 (fun n d => (d.grid n).held.foldl (fun d x => gathEval n x.k t d) d) d

/-- The expected sets changed now. -/
def colReeval (d : Dev) : Dev := colReevalAt d.now d

/-- The states of the sources that are not OFF. -/
def Dev.srcStates (d : Dev) : List (Nat × Nat) := (d.str.src.map (fun p => (p.1, p.2.state))).filter (fun p => p.2 != 0)

/-! ## Finality (R120-R122) and retirement -/

/-- The confirmation record (R121). -/
def confirmRecord (n : Nat) (x : Gathering) : List Byte :=
  toLe 2 0x0502 ++ toLe 2 (b2n x.step + b2n x.forced * 2 + b2n x.memLost * 4 + b2n x.disabled * 8) ++ toLe 2 x.due.length
  ++ toLe 1 n ++ toLe 1 0 ++ toLe 8 x.g ++ toLe 2 x.placed.length ++ toLe 2 x.amendments ++ toLe 2 x.arrivedFirst ++ toLe 2 0 ++ toLe 8 x.provMask

/-- A gathering becomes FINAL (R120-R122): the confirmation record, FINAL notices to readers with rerun = 1, and the word to DET and
to the archive. `early` says that it is made FINAL early. -/
def gathFinal (n k : Nat) (early : Bool) (d : Dev) : Dev :=
  match d.gath n k with
  | none => d
  | some x =>
    if x.finalAt.isSome || !d.blockRuns 58 then d
    else
      let x := { x with finalAt := some d.now }
      let d := headerWrite n x (d.putGath n x)
      let d := if d.flag COL_REC_CFG_confirm_en && (early || x.amendments != 0 || x.provMask != 0) then
          raiseMs 44 ((queueRecord (d.get COL_REC_CFG_queue) (confirmRecord n x) d).inc COL_CONFIRMS)
        else d
      let d := x.views.foldl (fun d v =>
        let r := v.reader
        match v.arrived with
        | some a => if d.flag (COL_RD_CTRL_rerun r) && d.get (COL_RD_CTRL_state r) == 1 && a < x.arrivedNow then notify r n x 2 5 d else d
        | none => d) d
      let nt : Notice := { grid := n, k := x.k, g := x.g, arrived := x.arrivedNow, kind := 2, cause := 5, memLost := x.memLost, made := d.now, tick := d.time.elapsed }
      let d := { d with col := { d.col with finals := d.col.finals ++ [nt] } }
      if d.flag (COL_GRID_CTRL_archive n) && d.flag CMP_ARCH_CFG_en then { d with col := { d.col with archive := d.col.archive ++ [nt] } } else d

/-- A gathering is RETIRED and its ring position becomes free. -/
def gathRetire (n k : Nat) (d : Dev) : Dev :=
  if !d.blockRuns 58 then d
  else
    let x := d.grid n
    d.putGrid n { x with held := x.held.filter (fun y => y.k != k), retired := x.retired ++ x.held.filter (fun y => y.k == k) }

/-- final_time and retire_time (R117). -/
def Dev.finalTime (d : Dev) (n g : Nat) : Nat := g + d.hold n + d.horizon n
def Dev.retireTime (d : Dev) (n g : Nat) : Nat := d.finalTime n g + d.keep n

/-- Every OPEN or PROVISIONAL view of a gathering closes with a cause. -/
def closeAllViews (n k cause : Nat) (d : Dev) : Dev :=
  match d.gath n k with
  | none => d
  | some x => x.views.foldl (fun d v => if v.state ≤ 1 then viewClose n k v.reader 2 cause d.now d else d) d

/-- A gathering that stands at a needed position is forced out (R124). -/
def gathForce (n k : Nat) (d : Dev) : Dev :=
  match d.gath n k with
  | none => d
  | some x =>
    let d := if x.finalAt.isSome then d else closeAllViews n k 3 (d.putGath n { x with forced := true })
    raiseMs 45 ((gathRetire n k (gathFinal n k true d)).inc COL_FORCED)

/-! ## Opening (R117, R113) -/

/-- The readers that have a view of a gathering at `g`: ON since no later than `g`. -/
def Dev.viewers (d : Dev) (n g : Nat) : List View :=
  ((List.range 64).filter (fun r => d.get (COL_RD_CTRL_state r) == 1 && d.get (COL_RD_CTRL_grid r) == n && (d.reader r).onAt ≤ g)).map
    (fun r => { reader := r })

/-- An instant of a grid that opens, first or anew, has no frame composed yet (R132). -/
def forgetComposed (n g : Nat) (d : Dev) : Dev :=
  d.col.readers.foldl (fun d p =>
    let x := d.reader p.1
    if d.get (COL_RD_CTRL_grid p.1) = n && x.composed.contains g then d.putReader p.1 { x with composed := x.composed.filter (fun t => t != g) } else d) d

/-- A gathering opens at its ring position: the occupant is forced out, what DET was told of an earlier gathering of the instant is void (R125, R232), the header and status entries are cleared, the due bits are
set, and the slots of members not present hold unspecified values (R111, R130). -/
def gathOpen (n k : Nat) (d : Dev) : Dev :=
  let g := instantAt (d.rate n) k
  let pos := k % d.ringHeld n
  let d := (d.grid n).held.foldl (fun d y => if y.k % d.ringHeld n = pos then gathForce n y.k d else d) d
  let d := forgetComposed n g d
  let d := { d with det := { d.det with finals := d.det.finals.filter (fun f => f.grid != n || f.g != g) } }
  let due := (d.members n).filter (fun s => d.isDue (d.ent s) g)
  let x : Gathering := { k := k, g := g, due := due, views := d.viewers n g, memLost := !d.memAlive }
  let d := d.putGrid n { d.grid n with held := (d.grid n).held ++ [x], retired := (d.grid n).retired.filter (fun y => y.k % d.ringHeld n != pos) }
  if x.memLost then d
  else
    let first := d.get (COL_GRID_SRC_first n)
    let d := headerWrite n x d
    let d := d.dramWrite (d.gathAddr n k + 64) ((List.range (d.get (COL_GRID_SRC_count n))).map (fun i => x.status (first + i))).flatten
    let (bs, d) := d.drawBytes (8 * d.get (COL_GRID_SLOTN_slot_n n))
    d.dramWrite (d.gathAddr n k + 64 + 8 * d.get (COL_GRID_SRC_count n)) bs

/-- The next instant of a grid reaches its hold start (R117): it opens, unless it is still held (R125). -/
def gatheringOpen (n : Nat) (d : Dev) : Dev :=
  if d.get (COL_GRID_CTRL_state n) != 1 then d
  else
    let k := (d.grid n).next
    let g := instantAt (d.rate n) k
    atTime (g - d.lead - d.tol) (fun d =>
      let d := d.putGrid n { d.grid n with next := k + 1 }
      if (d.gath n k).isSome then d else gathOpen n k d) d

/-! ## Placement (R107-R112, R119) -/

/-- The gathering of a grid that a time-stamp falls in, and whether a frame arriving at `a` is late for it. -/
def Dev.place? (d : Dev) (n t a : Nat) : Option (Nat × Bool) :=
  match indexWithin (d.rate n) t d.tol with
  | none => none
  | some k => match d.gath n k with
    | none => some (k, true)
    | some x => some (k, x.finalAt.isSome || decide (d.finalTime n x.g ≤ a))

/-- The grids that a source is placed in: not OFF, with the source in range (R107). -/
def Dev.gridsOf (d : Dev) (s : Nat) : List Nat :=
  (List.range 8).filter (fun n => d.get (COL_GRID_CTRL_state n) != 0 && d.inRange n s)

/-- The amendment record (R119). -/
def amendRecord (n : Nat) (x : Gathering) (f : GoodFrame) (part : Bool) (mask : Nat) : List Byte :=
  toLe 2 0x0501 ++ toLe 2 (f.flags + b2n part * 256) ++ toLe 2 f.src ++ toLe 1 n ++ toLe 1 0 ++ toLe 8 x.g ++ toLe 8 f.arr ++ toLe 8 mask

/-- The frame's slots are written, and whether some lie outside the slot range (R129). -/
def slotsWrite (n k : Nat) (f : GoodFrame) (d : Dev) : Dev × Bool :=
  let base := (d.ent f.src).slotBase
  (f.slots.zip (List.range f.slots.length)).foldl (fun (r : Dev × Bool) x =>
    match r.1.slotAddr n k (base + x.2) with
    | some a => (r.1.dramWrite a (toLe 8 x.1), r.2)
    | none => (r.1, true)) (d, false)

/-- A frame enters a gathering as its placed frame of the source with an order value; its latency in whole µs is rounded down, and 0 for a
frame before its instant (DESIGN CHOICE, log entry 198). -/
def putPlaced (n : Nat) (x : Gathering) (f : GoodFrame) (order : Nat) (amended : Bool) (d : Dev) : Gathering × Bool × Dev :=
  let (d, out) := slotsWrite n x.k f d
  let part := f.part || out
  let p : Placed := { src := f.src, order := order, flags := f.flags, tq := f.tq, unlocked := f.unlocked, trigger := f.trigger, leap := f.leap,
                      part := part, amended := amended, t := f.t, arr := f.arr, port := f.port, latency := min ((f.arr - x.g) / 1000) 524287 }
  let x := { x with placed := x.placed.filter (fun q => q.src != f.src) ++ [p], amendments := x.amendments + b2n amended }
  let d := d.putGath n x
  (x, part, headerWrite n x (statusWrite n x f.src d))

/-- What placing a frame in one grid came to. -/
inductive PlaceOutcome where
  | none | placed | replaced | late | dup
  deriving DecidableEq, Repr

/-- A frame is offered to one grid (R107, R109, R119). -/
def placeIn (n : Nat) (f : GoodFrame) (d : Dev) : PlaceOutcome × Dev :=
  match d.place? n f.t f.arr with
  | none => (.none, d)
  | some (_, true) => (.late, d)
  | some (k, false) =>
    let d := gathUpTo n k f.arr d
    match d.gath n k with
    | none => (.late, d)
    | some x =>
      if x.memLost || !d.memAlive then (.placed, d.add GCTL_XDROP (b2n (!d.memAlive)))
      else match x.placed.find? (fun p => p.src == f.src) with
        | some p =>
          let earlier := p.t == f.t && (decide (f.arr < p.arr) || (f.arr == p.arr && decide (f.port < p.port)))
          if earlier && x.closedMask = 0 then
            let (_, _, d) := putPlaced n x f p.order p.amended d
            (.replaced, d)
          else (.dup, d)
        | none =>
          let amend := x.closedMask != 0
          let mask := x.closedMask
          let (x, part, d) := putPlaced n x f x.placed.length amend d
          let d := if amend then
              let d := raiseMs 43 (d.inc COL_AMENDS)
              if d.flag COL_REC_CFG_amend_en then queueRecord (d.get COL_REC_CFG_queue) (amendRecord n x f part mask) d else d
            else d
          (.placed, gathEval n k f.arr d)

/-- A frame of an ACTIVE or LATE source is offered to each member grid in ascending order, and counted when it was placed in none
(R107, R108); a frame that replaces another counts one duplicate (R109). -/
def placeAll (f : GoodFrame) (d : Dev) : Dev :=
  let (outs, d) := (d.gridsOf f.src).foldl (fun (r : List PlaceOutcome × Dev) n =>
    let (o, d) := placeIn n f r.2
    (o :: r.1, d)) ([], d)
  if outs.contains .replaced then srcCount f.src 6 1 d
  else if outs.contains .placed then d
  else if outs.contains .late then srcCount f.src 8 1 d
  else if outs.contains .dup then srcCount f.src 6 1 d
  else d.inc COL_UNUSED

/-- The count of R97 restarts at zero. -/
def requalReset (s : Nat) (d : Dev) : Dev :=
  let x := d.srcSt s
  if x.state = 4 then d.putSrc s { x with requal := 0 } else d

/-- A frame of a REQUALIFYING source is classified (R97, R110). The frame that completes the count is placed. -/
def requalify (f : GoodFrame) (d : Dev) : Dev :=
  let places := (d.gridsOf f.src).filterMap (fun n => d.place? n f.t f.arr)
  let x := d.srcSt f.src
  if places.isEmpty then d.inc COL_UNUSED
  else if places.all Prod.snd then srcCount f.src 8 1 d
  else if x.lastGrid = some f.t then srcCount f.src 6 1 d
  else
    let d := d.putSrc f.src { x with requal := x.requal + 1, lastGrid := some f.t }
    if (d.ent f.src).requalN ≤ x.requal + 1 then placeAll f (colReevalAt f.arr (srcMove f.src 1 (viewsUpTo f.arr d))) else d

/-- The Collator takes the oldest good frame (R107). -/
def goodFramePlace (d : Dev) : Dev :=
  match d.col.inbox with
  | [] => d
  | f :: fs =>
    let d := { d with col := { d.col with inbox := fs } }
    let st := (d.srcSt f.src).state
    if f.arr + d.lead ≤ f.t then raiseMs 51 (requalReset f.src (srcCount f.src 7 1 d))
    else if !d.onOwnGrid (d.ent f.src) f.t then requalReset f.src (srcCount f.src 5 1 d)
    else if st = 4 then requalify f d
    else if st = 1 || st = 2 then
      placeAll f (d.putSrc f.src { d.srcSt f.src with lastGrid := some f.t })
    else d

/-! ## Frames before an instant (R100, R112) -/

/-- The good frames with the earliest arrival among those of a class in front; the others keep their order. -/
def earliestFirst (p : GoodFrame → Bool) (l : List GoodFrame) : List GoodFrame :=
  match (l.filter p).foldl (fun (b : Option GoodFrame) f => match b with
    | some g => if f.arr < g.arr then some f else b
    | none => some f) none with
  | some f => f :: l.erase f
  | none => l

/-- The waiting good frames in the order in which the Collator takes them: the earliest arrival of a lane that runs first (R109, R112). -/
def Dev.frames (d : Dev) : List GoodFrame := earliestFirst (fun f => d.laneRuns 2 (f.src / 1024)) d.col.inbox

/-- The Collator lane of the source places the good frame that arrived first. -/
def framePlace (d : Dev) : Dev :=
  match d.frames with
  | [] => d
  | f :: fs => if d.blockRuns 58 && d.laneRuns 2 (f.src / 1024) then goodFramePlace { d with col := { d.col with inbox := f :: fs } } else d

/-- Frames that the Collator holds are placed, by arrival, until none with a property is left. -/
def placeUpTo (p : GoodFrame → Bool) (d : Dev) : Dev :=
  iterate d.col.inbox.length (fun d => if d.col.inbox.any p then some (framePlace d) else none) d

/-- What the Collator does before instant `t`: frames stamped earlier are placed and views are brought up to it (R112). -/
def colUpTo (t : Nat) (d : Dev) : Dev := viewsUpTo t (placeUpTo (fun f => decide (f.arr < t)) d)

/-- A change at instant `t` that moves a source's state is followed by the views, which have come up to `t` before (R105, R112). -/
def colFollow (t : Nat) (f : Dev → Dev) (d : Dev) : Dev :=
  let e := f d
  if e.srcStates = d.srcStates then e else colReevalAt t (f (colUpTo t d))

/-- The RXP lane of the frame's source takes the oldest synchrophasor frame, once the frames before
it are finished (R100); a frame without a source goes past every lane. -/
def phasorFrameRx (d : Dev) : Dev :=
  let lane := match d.eth.streamIn with
    | [] => none
    | f :: _ => match udpPayload f.bytes with
      | none => none
      | some p => d.matchC37 (slice f.bytes 26 4 ++ toLe 2 (beAt f.bytes (14 + byteAt f.bytes 14 % 16 * 4 + 2) 2) ++ toLe 2 (beAt p 4 2))
  if lane.all (fun n => d.laneRuns 1 (n / 1024)) then
    colFollow (d.eth.streamIn.head?.elim d.now (fun f => stampNs f.stamp)) c37Rx (lane.elim d (fun n => placeUpTo (fun f => f.src == n) d))
  else d

/-- Every synchrophasor frame stamped before an instant is parsed. -/
def parseBefore (t : Nat) (d : Dev) : Dev :=
  iterate d.eth.streamIn.length (fun d => if d.eth.streamIn.any (fun f => decide (stampNs f.stamp < t)) then some (phasorFrameRx d) else none) d

/-- Every frame stamped before an instant is parsed and placed, before the Collator acts on the instant (R112). -/
def placeBefore (t : Nat) (d : Dev) : Dev := placeUpTo (fun f => decide (f.arr < t)) (parseBefore t d)

/-- GOOD_FRAME_PLACE: what is stamped before the frame has been parsed, so that nothing that comes before it is overtaken (R112). -/
def framePlaceNext (d : Dev) : Dev := framePlace (d.frames.head?.elim d (fun f => parseBefore f.arr d))

/-- The frames of source `s` that have been parsed are finished, with what is stamped before them: what touches the source takes effect
between two of its frames (R82, R100). -/
def finishSource (s : Nat) (d : Dev) : Dev :=
  placeUpTo (fun f => f.src == s) (parseBefore (((d.col.inbox.filter (fun f => f.src == s)).map (fun f => f.arr)).foldl max 0) d)

/-! ## Instants of a gathering -/

/-- A row names a gathering and an instant of it: time reaches the instant, every frame stamped
earlier is placed, and its views are brought up to it (R112). -/
def viewInstant (n k : Nat) (due : Gathering → Nat) (d : Dev) : Dev :=
  match d.gath n k with
  | none => d
  | some x => atTime (due x) (fun d => gathUpTo n k (due x) (placeBefore (due x) d)) d

/-- At g + wait of reader `r`'s view. -/
def viewWait (n k r : Nat) (d : Dev) : Dev :=
  match d.gath n k with
  | none => d
  | some x =>
    let t := x.g + d.get (COL_RD_WAIT_wait_us r) * 1000
    atTime t (fun d => viewUpTo n k r d.now (placeBefore t d)) d

/-- At g + min_us of reader `r`'s view. -/
def viewQuorum (n k r : Nat) (d : Dev) : Dev :=
  match d.gath n k with
  | none => d
  | some x =>
    let t := x.g + d.get (COL_RD_QUORUM_min_us r) * 1000
    atTime t (fun d => viewUpTo n k r (max t (min d.now (x.g + d.get (COL_RD_WAIT_wait_us r) * 1000 - 1))) (placeBefore t d)) d

/-- final_time of a held gathering is reached. -/
def gatheringFinal (n k : Nat) (d : Dev) : Dev :=
  match d.gath n k with
  | none => d
  | some x => atTime (d.finalTime n x.g) (fun d => gathFinal n k false (gathUpTo n k d.now (placeBefore (d.finalTime n x.g) d))) d

/-- retire_time of a held gathering is reached; it becomes FINAL first if it was not. -/
def gatheringRetire (n k : Nat) (d : Dev) : Dev :=
  match d.gath n k with
  | none => d
  | some x => atTime (d.retireTime n x.g) (fun d => gathRetire n k (gathFinal n k false (gathUpTo n k d.now (placeBefore (d.retireTime n x.g) d)))) d

/-! ## Enabling and disabling (R127, R128) -/

/-- The check of a grid's enable (R127). -/
def gridCode (n : Nat) (d : Dev) : Nat :=
  let hold := d.get (COL_GRID_TIME_hold_ms n)
  let keep := d.get (COL_GRID_TIME_keep n)
  let base := d.get (COL_GRID_BASE_base_mib n)
  let need := d.needMib n
  if !(1 ≤ d.rate n && d.rate n ≤ 240 && 1 ≤ hold && hold ≤ 2000 && d.get (COL_GRID_TIME_horizon_ms n) ≤ 5000 && 1 ≤ keep && keep ≤ 200
      && 1 ≤ d.get (COL_GRID_SRC_count n) && d.get (COL_GRID_SRC_first n) + d.get (COL_GRID_SRC_count n) ≤ 8192
      && d.get (COL_GRID_SLOT_slot_lo n) + d.get (COL_GRID_SLOTN_slot_n n) ≤ 1048576) then 1
  else if base = 0 || d.get (BND_PART_size_mib 0) < base + need || (List.range 8).any (fun m => m != n && d.get (COL_GRID_CTRL_state m) != 0
      && d.get (COL_GRID_BASE_base_mib m) < base + need && base < d.get (COL_GRID_BASE_base_mib m) + d.get (COL_GRID_BASE_need_mib m)) then 6
  else 0

/-- An enable of a grid that is OFF: the checks, then ON; its first instant is the first whose hold start is not earlier (R117). -/
def gridOpen (n : Nat) (d : Dev) : Dev :=
  let d := gridPublish n d
  let c := gridCode n d
  let d := d.set (COL_GRID_CTRL_result n) c
  if c != 0 then raise 48 (d.setFlag (COL_GRID_CTRL_enable n) false)
  else
    let d := (d.set (COL_GRID_CTRL_state n) 1).setFlag (COL_GRID_CTRL_enable n) true
    colPart (d.putGrid n { next := firstIndex (d.rate n) (d.now + d.lead + d.tol), held := [], retired := (d.grid n).retired })

/-- enable written as 1. -/
def gridEnable (n : Nat) (d : Dev) : Dev :=
  let st := d.get (COL_GRID_CTRL_state n)
  if st = 0 then gridOpen n d
  else if st = 2 then (d.setFlag (COL_GRID_CTRL_enable n) true).setFlag (COL_GRID_CTRL_enable_pending n) true
  else d

/-- A DISABLING grid reaches OFF when all its readers are OFF; a pending enable is acted on (R128, R467). -/
def gridTryOff (n : Nat) (d : Dev) : Dev :=
  if d.get (COL_GRID_CTRL_state n) = 2 && d.blockRuns 58 && (List.range 64).all (fun r => d.get (COL_RD_CTRL_grid r) != n || d.get (COL_RD_CTRL_state r) == 0) then
    let d := colPart (raise 49 (d.set (COL_GRID_CTRL_state n) 0))
    if d.flag (COL_GRID_CTRL_enable_pending n) then
      let d := d.setFlag (COL_GRID_CTRL_enable_pending n) false
      if d.flag (COL_GRID_CTRL_enable n) then gridOpen n d else d
    else d
  else d

/-- The channel counts of a block's source (R134, R136, R141): phasors, analogues, digital words. -/
def Dev.blockCounts (d : Dev) (s : Nat) : List Nat :=
  let e := d.ent s
  if e.kind = 2 then [10, 0, 2]
  else [(selected e.nPh e.phSel).length, (selected e.nAn e.anSel).length, (selected e.nDig e.digSel).length]

/-- The block list of stream `r`: the entries' indices. -/
def Dev.blocks (d : Dev) (r : Nat) : List Nat := (List.range (d.get (COL_OS_BLK_count r))).map (fun i => d.get (COL_OS_BLK_first r) + i)

/-- A COMMIT of entry `n` has changed the channel counts that an output stream latched: the block stays absent until the stream is
enabled again (R136). -/
def outRecount (n : Nat) (d : Dev) : Dev :=
  d.col.readers.foldl (fun d p =>
    let x := d.reader p.1
    let new := ((d.blocks p.1).zip x.latched).filter (fun b => d.get (COL_BLK0_source b.1) == n && d.blockCounts n != b.2)
    if d.get (COL_RD_CTRL_state p.1) = 1 && !new.isEmpty then d.putReader p.1 { x with recount := (x.recount ++ new.map (·.1)).eraseDups } else d) d

/-- The bytes of a block with channel counts under FORMAT bits (R137). -/
def blockSize (fmt : Nat) (c : List Nat) : Nat :=
  2 + c.getD 0 0 * (if bitAt fmt 1 then 8 else 4) + 2 * (if bitAt fmt 3 then 4 else 2) + c.getD 1 0 * (if bitAt fmt 2 then 4 else 2) + 2 * c.getD 2 0


/-- The FRAMESIZE of stream `r` (R137). -/
def Dev.frameSizeOf (d : Dev) (r : Nat) : Nat :=
  16 + ((d.blocks r).map (fun b => blockSize (d.get (COL_BLK0_format b)) (d.blockCounts (d.get (COL_BLK0_source b))))).sum

/-- The check of a reader's enable (R127); a stream beyond the capacity of the OUT folios is refused with FIELD (R18, R38; DESIGN CHOICE for
the code, log entry 168). -/
def readerCode (r : Nat) (d : Dev) : Nat :=
  let g := d.get (COL_RD_CTRL_grid r)
  let wait := d.get (COL_RD_WAIT_wait_us r)
  let quorum := d.flag (COL_RD_CTRL_policy r)
  let pct := d.get (COL_RD_QUORUM_pct r)
  let cnt := d.get (COL_OS_BLK_count r)
  let tb := d.get (COL_OS_TBASE_time_base r)
  if (r < 32 && 4 * d.get BND_FOLIO_CNT_out ≤ r) || !(1000 ≤ wait && wait ≤ 2000000) || (quorum && !(1 ≤ pct && pct ≤ 100)) || (r < 32 && (cnt = 0 || 2048 < cnt || tb = 0)) then 1
  else if d.get (COL_GRID_CTRL_state g) != 1 then 2
  else if 1000 * d.get (COL_GRID_TIME_hold_ms g) < wait || (quorum && wait ≤ d.get (COL_RD_QUORUM_min_us r)) then 3
  else if r < 32 && (2048 < d.get (COL_OS_BLK_first r) + cnt || !(d.blocks r).all (fun b => d.inRange g (d.get (COL_BLK0_source b)))) then 4
  else if r < 32 && (65535 < d.frameSizeOf r || d.get (ETH_CFG_max_len (d.get (COL_OS_CFG_port r))) < d.frameSizeOf r + 50) then 5
  else 0

/-- The headers of a grid's held gatherings follow a change of their state (R117, R129). -/
def headersFollow (n : Nat) (f : Dev → Dev) (d : Dev) : Dev :=
  let e := f d
  (e.grid n).held.foldl (fun e x =>
    match d.gath n x.k with
    | some y => if d.gathState n y = e.gathState n x then e else headerWrite n x e
    | none => e) e

/-- An enable of a reader that is OFF: it has views of the held gatherings from now on (R113), and an output stream latches its
counts and its size (R136). Notices made for it before stay (R128). -/
def readerOpen (r : Nat) (d : Dev) : Dev :=
  let c := readerCode r d
  let d := d.set (COL_RD_CTRL_result r) c
  if c != 0 then raise 48 (d.setFlag (COL_RD_CTRL_enable r) false)
  else
    let n := d.get (COL_RD_CTRL_grid r)
    let d := (d.set (COL_RD_CTRL_state r) 1).setFlag (COL_RD_CTRL_enable r) true
    let latched := if r < 32 then (d.blocks r).map (fun b => d.blockCounts (d.get (COL_BLK0_source b))) else []
    let d := d.putReader r { d.reader r with onAt := d.now, latched := latched, recount := [] }
    let d := if r < 32 then d.set (COL_OS_SIZE_value r) (d.frameSizeOf r) else d
    (d.grid n).held.foldl (fun d x =>
      if d.now ≤ x.g && x.finalAt.isNone && x.views.all (fun v => v.reader != r) then d.putGath n { x with views := x.views ++ [{ reader := r }] } else d) d

/-- enable written as 1. -/
def readerEnable (r : Nat) (d : Dev) : Dev :=
  let st := d.get (COL_RD_CTRL_state r)
  if st = 0 then headersFollow (d.get (COL_RD_CTRL_grid r)) (readerOpen r) d
  else if st = 2 then (d.setFlag (COL_RD_CTRL_enable r) true).setFlag (COL_RD_CTRL_enable_pending r) true
  else d

/-- A DISABLING reader reaches OFF: a detector group at once, an output stream when the frame it is composing has left, so with
no notice left to act on (R128). -/
def readerTryOff (r : Nat) (d : Dev) : Dev :=
  if d.get (COL_RD_CTRL_state r) = 2 && (32 ≤ r || (d.reader r).notices.isEmpty) then
    let d := raise 49 (d.set (COL_RD_CTRL_state r) 0)
    let d := gridTryOff (d.get (COL_RD_CTRL_grid r)) d
    if d.flag (COL_RD_CTRL_enable_pending r) then
      let d := d.setFlag (COL_RD_CTRL_enable_pending r) false
      if d.flag (COL_RD_CTRL_enable r) then headersFollow (d.get (COL_RD_CTRL_grid r)) (readerOpen r) d else d
    else d
  else d

/-- Every OPEN or PROVISIONAL view of a reader is withdrawn without a notice (R128). -/
def withdraw (r : Nat) (d : Dev) : Dev :=
  let n := d.get (COL_RD_CTRL_grid r)
  (d.grid n).held.foldl (fun d x =>
    if x.views.any (fun v => v.reader == r && v.state ≤ 1) then
      d.putGath n { x with views := x.views.filter (fun v => !(v.reader == r && v.state ≤ 1)) }
    else d) d

/-- enable written as 0 to a reader. -/
def readerDisable (r : Nat) (d : Dev) : Dev :=
  let d := (d.setFlag (COL_RD_CTRL_enable r) false).setFlag (COL_RD_CTRL_enable_pending r) false
  if d.get (COL_RD_CTRL_state r) = 1 then
    readerTryOff r (headersFollow (d.get (COL_RD_CTRL_grid r)) (fun d => withdraw r (d.set (COL_RD_CTRL_state r) 2)) d)
  else d

/-- enable written as 0 to a grid: DISABLING, and every OPEN or PROVISIONAL view closes with cause DISABLE while its reader is ON. -/
def gridDisable (n : Nat) (d : Dev) : Dev :=
  let d := (d.setFlag (COL_GRID_CTRL_enable n) false).setFlag (COL_GRID_CTRL_enable_pending n) false
  if d.get (COL_GRID_CTRL_state n) = 1 then
    (d.grid n).held.foldl (fun d x =>
      if x.finalAt.isSome then d else closeAllViews n x.k 4 (d.putGath n { x with disabled := true })) (d.set (COL_GRID_CTRL_state n) 2)
  else d

/-- Then its readers' enables are cleared, and every held gathering becomes FINAL and is retired (R128). -/
def gridDisableEnd (n : Nat) (d : Dev) : Dev :=
  let d := forN 64 (fun r d => if d.get (COL_RD_CTRL_grid r) = n then readerDisable r d else d) d
  let d := (d.grid n).held.foldl (fun d x => gathRetire n x.k (gathFinal n x.k true d)) d
  gridTryOff n d

/-- A write of a configuration register of a grid: discarded with wr_drop unless OFF (R127). -/
def gridCfgWrite (n : Nat) (f : Fld) (v : Nat) (d : Dev) : Dev :=
  if d.get (COL_GRID_CTRL_state n) = 0 then gridPublish n (d.set f v) else d.setFlag (COL_GRID_CTRL_wr_drop n) true

/-- The same for a reader and its output stream. -/
def readerCfgWrite (r : Nat) (f : Fld) (v : Nat) (d : Dev) : Dev :=
  if d.get (COL_RD_CTRL_state r) = 0 then d.set f v else d.setFlag (COL_RD_CTRL_wr_drop r) true

/-! ## Steps and lost memory (R125, R126) -/

/-- A step of the counter acts on the Collator (R125): views close with cause STEP, and gatherings whose final_time
the new time has reached become FINAL early; their retirement follows at GATHERING_RETIRE; `before` is the time before the step. After a
backward step the readers that are ON have views of every instant from the new time on. -/
def colAfterStep (before : Nat) (d : Dev) : Dev :=
  let d := forN 8 (fun n d =>
    if d.get (COL_GRID_CTRL_state n) = 0 then d
    else
      let d := (d.grid n).held.foldl (fun d x =>
        if x.finalAt.isSome then d else
          let d := closeAllViews n x.k 3 (d.putGath n { x with step := true })
          match d.gath n x.k with
          | some y => headerWrite n y d
          | none => d) d
      let d := (d.grid n).held.foldl (fun d x =>
        if d.finalTime n x.g ≤ d.now then gathFinal n x.k true d else d) d
      let next := (d.grid n).next
      if d.now < before then
        let d := forN 64 (fun r d => if d.get (COL_RD_CTRL_grid r) = n && d.get (COL_RD_CTRL_state r) = 1 then
            d.putReader r { d.reader r with onAt := min (d.reader r).onAt d.now } else d) d
        d.putGrid n { d.grid n with next := firstIndex (d.rate n) (d.now + d.lead + d.tol) }
      else
        let k := firstIndex (d.rate n) (d.now - d.hold n + 1)
        if next < k && d.get (COL_GRID_CTRL_state n) = 1 then (d.putGrid n { d.grid n with next := k }).add COL_STEP_GAP (k - next) else d) d
  raise 46 d

/-- The MEM crossing died (R126): every held gathering is marked, and the content of its DRAM area is unspecified. -/
def memLost (d : Dev) : Dev :=
  raise 47 (forN 8 (fun n d =>
    let d := d.putGrid n { d.grid n with retired := [] }
    (d.grid n).held.foldl (fun d x =>
      if x.memLost then d
      else
        let (bs, d) := d.drawBytes (d.gsize n)
        let d := { d with dram := memWriteN d.dram (d.gathAddr n x.k) bs }
        d.putGath n { x with memLost := true }) d) d)

/-! ## Notices at the reader (R116, R124) -/

/-- The next notice of a reader whose gathering is still held; notices of retired gatherings are skipped and counted (R22, R124).
Answers the notice taken. -/
def noticeNext (r : Nat) (d : Dev) : Option Notice × Dev :=
  let x := d.reader r
  let gone := x.notices.takeWhile (fun nt => (d.gath nt.grid nt.k).isNone)
  let rest := x.notices.dropWhile (fun nt => (d.gath nt.grid nt.k).isNone)
  let skipped := (gone.map (fun nt => nt.k)).eraseDups.length
  let d := if skipped = 0 then d else raiseMs 42 (d.add (COL_RD_SKIP r) skipped)
  match rest with
  | [] => (none, d.putReader r { x with notices := [] })
  | nt :: ns => (some nt, d.putReader r { x with notices := ns, last := some nt })

end Sys2Proof.Machine
end

