-- ==== Sys2Proof/Machine/Hosts.lean ====
section
/-! DEFINITION. The PCI Express hosts: links, engine addresses, DMA channels and the DRAM aperture (R381, R414-R421). -/
namespace Sys2Proof.Machine

/-! ## Engine addresses (R381) -/

/-- Where an engine address points: a DRAM partition, or the memory of an endpoint; none for a form R381 does not give. -/
inductive Place where
  | dram (part off : Nat)
  | host (e addr : Nat)
  deriving DecidableEq, Repr

/-- Read an engine address; partition 0 is left to the user of the address. -/
def placeOf (a : Nat) : Option Place :=
  match a / 2 ^ 60 with
  | 0 => if bits a 40 16 = 0 then some (.dram (bits a 56 4) (bits a 0 40)) else none
  | 1 => if bits a 57 3 = 0 then some (.host 0 (bits a 0 57)) else none
  | 2 => if bits a 57 3 = 0 then some (.host 1 (bits a 0 57)) else none
  | _ => none

/-- How many of `n` bytes from `off` lie inside partition `p`. -/
def Dev.partRoom (d : Dev) (p off n : Nat) : Nat := min n ((d.part p).2 - off)

/-- The bytes a host's memory answers; free while its link is down. -/
def hostRead (e a n : Nat) (d : Dev) : List Byte × Dev :=
  if d.linkUp e then (memReadN (d.hostMem e) a n, d) else d.drawBytes n

/-! ## Links (R415, R419) -/

/-- The PHY behind generated domain `g` runs: COAST is clear and the domain is ON on LOOP (R440, R444). -/
def Dev.phyRuns (d : Dev) (g : Nat) : Bool :=
  !d.flag CKP_STAT_coast && d.get (CKP_DOM_CTRL_state g) == 2 && d.get (CKP_DOM_CTRL_source g) == 0 && d.domEdges g

/-- The DMA channels of endpoint `e`. -/
def dmaOf (e : Nat) : List Nat := (List.range 8).map (fun c => 8 * e + c)

/-- The channel of endpoint `e` that runs its descriptor (R421). -/
def Dev.dmaRuns (d : Dev) (e : Nat) : Option Nat := lookup e d.host.dmaCur

/-- The channel of endpoint `e` whose turn comes after channel `i`: the next busy one in ascending order (R421). -/
def Dev.dmaAfter (d : Dev) (e i : Nat) : Option Nat :=
  let busy := (dmaOf e).filter (fun j => d.flag (ACT_DMA_CTRL_busy j))
  (busy.find? (fun j => i < j)).or busy.head?

/-- The turn passes on from channel `i`. -/
def dmaTurn (i : Nat) (d : Dev) : Dev :=
  let e := i / 8
  { d with host := { d.host with dmaCur := match d.dmaAfter e i with
    | some j => insertKey e j d.host.dmaCur
    | none => eraseKey e d.host.dmaCur } }

/-- A channel stops. -/
def dmaStop (i : Nat) (d : Dev) : Dev :=
  { d with host := { d.host with dma := eraseKey i d.host.dma } }.setFlag (ACT_DMA_CTRL_busy i) false

/-- A descriptor ends with a status: written back with done, counted, signalled on its vector with irq = 1 (R421). -/
def dmaEnd (i at_ flags status : Nat) (d : Dev) : Dev :=
  let e := i / 8
  let d := d.hostWrite e (at_ + 0x14) (toLe 2 (setBit flags 15 true) ++ toLe 2 status)
  let d := (d.set (ACT_DMA_STAT_status i) status).incWrap (ACT_DMA_STAT_done i)
  if bitAt flags 0 then msixSend e (d.get (ACT_DMA_CTRL_vector i)) d else d

/-- The descriptor of a busy channel: its address and bytes. -/
def dmaFetch (i : Nat) (d : Dev) : Nat × List Byte × Dev :=
  let a := (lookup i d.host.dma).getD 0
  let (bs, d) := hostRead (i / 8) a 32 d
  (a, bs, d)

/-- The copy of a descriptor between this host's memory and DRAM: the two ends, or none where R421 refuses it with FIELD. -/
def dmaForm (e : Nat) (b : List Byte) : Option (Bool × Nat × Nat × Nat) :=
  if leAt b 0x10 4 = 0 || bits (leAt b 0x14 2) 1 14 != 0 then none
  else match placeOf (leAt b 0 8), placeOf (leAt b 8 8) with
    | some (.host h a), some (.dram p o) => if h = e then some (true, a, p, o) else none
    | some (.dram p o), some (.host h a) => if h = e then some (false, a, p, o) else none
    | _, _ => none

/-- Copy up to `limit` bytes of a descriptor; answers its status (R420, R421): 2 beyond a partition, into the first MiB of
partition 0 or a write to it, 3 where the partition's table denies the host. -/
def dmaCopy (e : Nat) (b : List Byte) (limit : Nat) (d : Dev) : Nat × Dev :=
  match dmaForm e b with
  | none => (1, d)
  | some (toDram, a, p, o) =>
    let len := leAt b 0x10 4
    let k : VKind := if toDram then .write else .read
    if p = 0 && (toDram || o < mib) then (2, d)
    else if (d.part p).2 ≤ o then (2, d)
    else if !d.granted k (96 + p) e then (3, violation k e (96 + p) (((d.part p).1 + o) % 2 ^ 32) d)
    else
      let n := min limit (d.partRoom p o len)
      let base := (d.part p).1 + o
      let d :=
        if toDram then
          let (bs, d) := hostRead e a n d
          d.dramWrite base bs
        else d.hostWrite e a (d.dramRead base n)
      (if d.partRoom p o len < len then 2 else 0, d)

/-- Writing enable = 1 to an idle channel starts its chain (R420), at once where no other channel of the endpoint runs. -/
def dmaStart (i : Nat) (d : Dev) : Dev :=
  let d := d.setFlag (ACT_DMA_CTRL_enable i) true
  if d.flag (ACT_DMA_CTRL_busy i) then d
  else
    let a := d.get2 (ACT_DMA_CHAIN_LO i) (ACT_DMA_CHAIN_HI i)
    { d with host := { d.host with
      dma := insertKey i (bits a 0 57) d.host.dma
      dmaCur := if (d.dmaRuns (i / 8)).isSome then d.host.dmaCur else insertKey (i / 8) i d.host.dmaCur } }.setFlag (ACT_DMA_CTRL_busy i) true

/-- DMA_DESCRIPTOR_DONE: the descriptor that runs on endpoint `e` ends, and its chain continues or stops; with the link down it ends
with ABORTED (R419). -/
def dmaDone (e : Nat) (d : Dev) : Dev :=
  match d.dmaRuns e with
  | none => d
  | some i =>
    if !d.linkUp e then dmaTurn i (dmaStop i (dmaEnd i ((lookup i d.host.dma).getD 0) 0 4 d))
    else
    let (a, b, d) := dmaFetch i d
    let (st, d) := dmaCopy e b (leAt b 0x10 4) d
    let next := leAt b 0x18 8
    let d := dmaEnd i a (leAt b 0x14 2) st d
    dmaTurn i (if st = 0 && next != 0 then { d with host := { d.host with dma := insertKey i (bits next 0 57) d.host.dma } } else dmaStop i d)

/-- The running descriptor of a channel is cut short, with a part of its bytes copied that the manual leaves open; answers its address
and its flags. -/
def dmaCut (i : Nat) (d : Dev) : Nat × Nat × Dev :=
  let (a, b, d) := dmaFetch i d
  let (n, d) := d.drawNat
  let (_, d) := dmaCopy (i / 8) b (n % (leAt b 0x10 4 + 1)) d
  (a, leAt b 0x14 2, d)

/-- A channel is disabled: the descriptor it runs ends with ABORTED, and the chain stops. -/
def dmaAbort (i : Nat) (d : Dev) : Dev :=
  if !d.flag (ACT_DMA_CTRL_busy i) then d
  else if d.dmaRuns (i / 8) = some i then
    let (a, flags, d) := dmaCut i d
    dmaTurn i (dmaStop i (dmaEnd i a flags 4 d))
  else dmaStop i d

/-- A write of ACT_DMAi_CTRL. -/
def dmaCtrlWrite (i v : Nat) (d : Dev) : Dev :=
  let d := d.set (ACT_DMA_CTRL_vector i) (bits v 4 5)
  if bitAt v 0 then dmaStart i d else dmaAbort i (d.setFlag (ACT_DMA_CTRL_enable i) false)

/-- The configuration space returns to its reset values; the identification stays as step 4 of the start-up has read it (R415, R419). -/
def PcieCfg.afterReset (c : PcieCfg) : PcieCfg := { vendor := c.vendor, subVendor := c.subVendor, subsystem := c.subsystem }

/-- A memory BAR of an endpoint (R416): a 64-bit one of `size` bytes. -/
structure PcieBar where
  size : Nat
  prefetchable : Bool
  deriving DecidableEq, Repr

/-- The Revision ID of both endpoints (R415). -/
def pcieRevision : Nat := Config.siliconRevision.toNat

/-- BAR0, BAR2 and BAR4 of each endpoint. -/
def pcieBars : List PcieBar := [⟨0x2000000, false⟩, ⟨0x100000000, true⟩, ⟨0x40000, false⟩]

/-- A hot reset or link-down of endpoint `e` (R419): its configuration and MSI-X table return to reset with every vector masked,
and its DMA channels end their running descriptors with ABORTED. -/
def pcieDown (e : Nat) (d : Dev) : Dev :=
  let down (d : Dev) : Dev := { d with host := { d.host with linkUp := setBit d.host.linkUp e false } }
  let d := match d.dmaRuns e with
    | none => down d
    | some i => let (a, flags, d) := dmaCut i d; dmaEnd i a flags 4 (down d)
  let d := forL (dmaOf e) dmaStop d
  let d := { d with host := { d.host with dmaCur := eraseKey e d.host.dmaCur } }
  let d := d.putPcie e (d.pcie e).afterReset
  let d := forN 32 (fun v d => forN 4 (fun w d => d.set (EVC_MSIX e v w) (if w = 3 then 1 else 0)) d) d
  forN 2 (fun w d => d.set (EVC_PBA e w) 0) d

/-- The link of endpoint `e` comes up: after start-up step 4, while its PHY runs (R415, R440, R444). -/
def pcieUp (e : Nat) (d : Dev) : Dev :=
  if 4 ≤ d.get CKP_PWR_STAT_step && d.phyRuns (5 + e) then
    { d with host := { d.host with linkUp := setBit d.host.linkUp e true } }
  else d

/-! ## The DRAM aperture (R418) -/

/-- The DRAM address of an offset of BAR2. -/
def Dev.apertureAddr (d : Dev) (e off : Nat) : Nat := d.get (ACT_AP_base_mib e) * mib + off % 2 ^ 32

/-- The partition an aperture access reaches; none for an address that reads as zero and discards writes. -/
def Dev.apertureHit (d : Dev) (a : Nat) : Option Nat :=
  match d.partOf a with
  | none => none
  | some p => if (p = 0 && a < (d.part 0).1 + mib) || d.pwr.ddrMib * mib ≤ a then none else some p

/-- A BAR2 access of endpoint `e`, where it arrives. -/
def bar2Access (e off : Nat) (acc : BarAcc) (d : Dev) : Dev :=
  let a := d.apertureAddr e off
  if !d.arrives e then lostAccess e d
  else match d.apertureHit a, acc with
  | none, .read _ => d.answer e {}
  | none, .write _ => d
  | some p, .read n =>
    if d.granted .read (96 + p) e then
      d.answer e { data := ofLe (d.dramRead a (d.partRoom p (a - (d.part p).1) n)) }
    else (aerAbort e (violation .read e (96 + p) (a % 2 ^ 32) d)).answer e { violation := true }
  | some p, .write bs =>
    if d.granted .write (96 + p) e then d.dramWrite a (bs.take (d.partRoom p (a - (d.part p).1) bs.length))
    else violation .write e (96 + p) (a % 2 ^ 32) d

end Sys2Proof.Machine
end

