-- ==== Sys2Proof/Machine/Clocks.lean ====
section
/-! DEFINITION. Clocks: crossings, the monitor, the multiplier, the domains, spread spectrum, the measurements and the clock
outputs (R24, R25, R437-R454). -/
namespace Sys2Proof.Machine

/-! ## Crossings (R25) -/

/-- The bit of GCTL_FAB_STAT.dead_xing for generated domain `g`. -/
def xingOf (g : Nat) : Nat := if g = 9 then 10 else g

/-- A crossing is declared dead: its bit, event source 0 and the grid record; a dead MEM crossing loses the gatherings in DRAM. -/
def crossingDie (b : Nat) (d : Dev) : Dev :=
  if d.xingDead b then d
  else
    let d := d.set GCTL_FAB_STAT_dead_xing (setBit (d.get GCTL_FAB_STAT_dead_xing) b true)
    let d := gridLog 0x1007 (d.get GCTL_FAB_STAT_dead_xing) 0 0 0 (raise 0 d)
    if b = 7 then memLost d else d

/-- A crossing returns to service. -/
def crossingRevive (b : Nat) (d : Dev) : Dev :=
  d.set GCTL_FAB_STAT_dead_xing (setBit (d.get GCTL_FAB_STAT_dead_xing) b false)

/-! ## Domains (R443-R449) -/

/-- The states of CKP_DOMd_CTRL. -/
inductive DomState where
  | off | ramping | on | disabling
  deriving DecidableEq, Repr

def DomState.code : DomState → Nat
  | .off => 0 | .ramping => 1 | .on => 2 | .disabling => 3

/-- Domain `g` is in a state. -/
def Dev.domIs (d : Dev) (g : Nat) (s : DomState) : Bool := d.get (CKP_DOM_CTRL_state g) == s.code

def Dev.domPut (g : Nat) (s : DomState) (d : Dev) : Dev := d.set (CKP_DOM_CTRL_state g) s.code

/-- The target divider on LOOP. -/
def loopTarget (g : Nat) : Nat := ([20, 32, 32, 32, 32, 20, 20, 50, 32, 20]).getD g 20

/-- The target divider of domain `g` on its source; on REF it is the ref_div in force since the switch to REF. -/
def Dev.domTarget (d : Dev) (g : Nat) : Nat :=
  if d.onRef g then (lookup g d.ckp.refDiv).getD (d.get (CKP_DOM_CTRL_ref_div g)) % 16 else loopTarget g

/-- A switch to REF, or a start on it: ref_div applies from now on (register CKP_DOMd_CTRL). -/
def refDivApply (g : Nat) (d : Dev) : Dev :=
  { d with ckp := { d.ckp with refDiv := insertKey g (d.get (CKP_DOM_CTRL_ref_div g)) d.ckp.refDiv } }

/-- Event source 3. -/
def domEvent (d : Dev) : Dev := raiseMs 3 d

/-- The PHY behind a domain stops (R440, R444): the link of the port or endpoint goes down, the DRAM goes into self-refresh behind a dead
MEM crossing, and a message on Spine-A is cut (DEDUCED for a domain on REF-bypass, log entry 188). -/
def phyStop (g : Nat) (d : Dev) : Dev :=
  if 1 ≤ g && g ≤ 4 then linkChange (g - 1) false d
  else if g = 5 || g = 6 then (if d.linkUp (g - 5) then pcieDown (g - 5) d else d)
  else if g = 7 then crossingDie 7 d
  else if g = 8 then { d with spn := { d.spn with line := none } }
  else d

/-- The crossing of a domain returns with the first edge of its source; that of MEM once its PHY runs again (R25, R440, R442). -/
def domRevive (g : Nat) (d : Dev) : Dev :=
  if d.domEdges g && (g != 7 || !d.phyHeld 7) then crossingRevive (xingOf g) d else d

/-- The domain reaches OFF: its clock stops, its count is no longer valid (R453) and its crossing is dead. -/
def domReachOff (g : Nat) (d : Dev) : Dev :=
  let d := d.setFlag (CKP_DOM_FREQ_valid g) false
  crossingDie (xingOf g) (phyStop g (domEvent ((d.domPut g .off).set (CKP_DOM_CTRL_divider g) 0)))

/-- The divider of a starting domain: ON where it is the target. -/
def domSpeed (g n : Nat) (d : Dev) : Dev :=
  let d := d.set (CKP_DOM_CTRL_divider g) n
  if n = d.domTarget g then domEvent (d.domPut g .on) else d.domPut g .ramping

/-- The domain starts from divider 1,024 on its source (R445); its crossing returns with the first edge of that (R25). -/
def domStart (g : Nat) (d : Dev) : Dev := domRevive g (domSpeed g 1024 (refDivApply g d))

/-- The domain begins to slow down. -/
def domSlow (g : Nat) (d : Dev) : Dev := phyStop g (d.domPut g .disabling)

/-- enable_pending is acted on at ON and at OFF, on the enable field as it stands (R445, R467). -/
def domPending (g : Nat) (d : Dev) : Dev :=
  if !d.flag (CKP_DOM_CTRL_enable_pending g) || !(d.domIs g .off || d.domIs g .on) then d
  else
    let d := d.setFlag (CKP_DOM_CTRL_enable_pending g) false
    if d.domIs g .off && d.flag (CKP_DOM_CTRL_enable g) then domStart g d
    else if d.domIs g .on && !d.flag (CKP_DOM_CTRL_enable g) then domSlow g d
    else d

/-- DOMAIN_RAMP_STEP: 256 cycles at a divider have passed (R446). -/
def domRamp (g : Nat) (d : Dev) : Dev :=
  let n := d.get (CKP_DOM_CTRL_divider g)
  if !d.domEdges g then d
  else if d.domIs g .ramping then domPending g (domSpeed g (max (d.domTarget g) (cdiv (3 * n) 4)) d)
  else if d.domIs g .disabling then
    if n = 1024 then domPending g (domReachOff g d) else d.set (CKP_DOM_CTRL_divider g) (min 1024 (4 * n / 3))
  else d

/-- TBC and MEM cannot be disabled (R445). -/
def domFixed (g : Nat) : Bool := g == 0 || g == 7

/-- enable written to domain `g`. -/
def domEnableWrite (g : Nat) (on : Bool) (d : Dev) : Dev :=
  if domFixed g then d
  else if d.domIs g .ramping then (d.setFlag (CKP_DOM_CTRL_enable g) on).setFlag (CKP_DOM_CTRL_enable_pending g) true
  else if d.domIs g .disabling then
    (d.setFlag (CKP_DOM_CTRL_enable g) on).setFlag (CKP_DOM_CTRL_enable_pending g) on
  else if d.flag (CKP_DOM_CTRL_enable g) = on then d
  else
    let d := d.setFlag (CKP_DOM_CTRL_enable g) on
    if on && d.domIs g .off && d.ckp.started then domStart g d
    else if !on && d.domIs g .on then domSlow g d
    else d

/-- The VCO's frequency in kHz (R439). -/
def Dev.vcoKhz (d : Dev) : Nat := if d.flag CKP_STAT_coast then 3200000 else 5000000

/-- The frequency of the source, in kHz. -/
def Dev.sourceKhz (d : Dev) (ref : Bool) : Nat := if ref then 25000 else d.vcoKhz

/-- The start divider of a switch (R447): the frequency is the highest not above the current one, the divider not below the
target. No divider is above 1,024 (DEDUCED, log entry 181). -/
def Dev.switchDivider (d : Dev) (g : Nat) (ref : Bool) : Nat :=
  let target := if ref then d.get (CKP_DOM_CTRL_ref_div g) else loopTarget g
  min 1024 (max target (cdiv (d.sourceKhz ref * d.get (CKP_DOM_CTRL_divider g)) (d.sourceKhz (!ref))))

/-- A refused switch: its result and event source 3. -/
def switchRefuse (g code : Nat) (d : Dev) : Dev := domEvent (d.set (CKP_DOM_CTRL_result g) code)

/-- A write of source to domain `g`; `edge`: an edge of the old clock arrives within 1 µs (R447, R448). -/
def domSource (g : Nat) (ref edge : Bool) (d : Dev) : Dev :=
  if d.onRef g = ref then d
  else if g = 0 then switchRefuse g 3 d
  else if d.domIs g .off then d.setFlag (CKP_DOM_CTRL_source g) ref
  else if ref && !d.refOk then switchRefuse g 1 d
  else if !d.domIs g .on || d.ckp.switching.contains g then switchRefuse g 2 d
  else
    let n := d.switchDivider g ref
    let d := (d.set (CKP_DOM_CTRL_result g) 0).setFlag (CKP_DOM_CTRL_source g) ref
    let d := if ref then phyStop g (refDivApply g d) else d
    if edge then domRevive g (domSpeed g n d) else { d with ckp := { d.ckp with switching := g :: d.ckp.switching } }

/-- SWITCH_EDGE_TIMEOUT: the switch is forced from divider 1,024 (R448). A domain in DISABLING is then at the end of its way down. -/
def switchForce (g : Nat) (d : Dev) : Dev :=
  if !d.ckp.switching.contains g then d
  else
    let d := { d with ckp := { d.ckp with switching := d.ckp.switching.filter (fun x => x != g) } }
    let d := domEvent (d.setFlag (CKP_DOM_CTRL_switch_forced g) true)
    if d.domIs g .disabling then d.set (CKP_DOM_CTRL_divider g) 1024 else domStart g d

/-- At a monitor trip each domain on REF with fallback = 1 requests a switch to LOOP, whose old clock has stopped (R449). -/
def domFallback (g : Nat) (d : Dev) : Dev :=
  if g != 0 && !d.domIs g .off && d.onRef g && d.flag (CKP_DOM_CTRL_fallback g) then
    let d := (d.setFlag (CKP_DOM_CTRL_source g) false).set (CKP_DOM_CTRL_result g) 0
    { d with ckp := { d.ckp with switching := g :: d.ckp.switching.filter (fun x => x != g) } }
  else d

/-- A write of CKP_DOMd_CTRL: fallback, ref_div, the source and then enable. An enable that stays as it is counts only where the write
finds the domain RAMPING or DISABLING (R467). -/
def domCtrlWrite (g v : Nat) (edge : Option Bool) (d : Dev) : Dev :=
  let d := d.set (CKP_DOM_CTRL_fallback g) (bits v 5 1)
  let d := if bitAt v 6 then d.setFlag (CKP_DOM_CTRL_switch_forced g) false else d
  let d := if bits v 12 4 = 0 then d else d.set (CKP_DOM_CTRL_ref_div g) (bits v 12 4)
  let kept := d.flag (CKP_DOM_CTRL_enable g) == bitAt v 0 && !d.domIs g .ramping && !d.domIs g .disabling
  let d := domSource g (bitAt v 4) (edge.getD (d.domEdges g)) d
  if kept then d else domEnableWrite g (bitAt v 0) d

/-! ## The monitor and the multiplier (R438-R442) -/

/-- The states of CKP_STAT. -/
inductive MultState where
  | waitRef | counting | locking | locked | coast | held
  deriving DecidableEq, Repr

def MultState.code : MultState → Nat
  | .waitRef => 0 | .counting => 1 | .locking => 2 | .locked => 3 | .coast => 4 | .held => 5

/-- The multiplier is in a state. -/
def Dev.multIs (d : Dev) (s : MultState) : Bool := d.get CKP_STAT_state == s.code

/-- The multiplier enters a state; coast is 1 in every state but LOCKED (R439). -/
def multPut (s : MultState) (d : Dev) : Dev :=
  let d := (d.set CKP_STAT_state s.code).setFlag CKP_STAT_coast (s != .locked)
  d.setFlag TBS_STATE_coast (s != .locked)

/-- Event source 2. -/
def multEvent (d : Dev) : Dev := raiseMs 2 d

/-- A trip from LOCKED (R440): the domains run in coast, the PHYs of domains 1 to 8 stop, with the DRAM in self-refresh, and time is
INVALID. The records of the grid log come in the order of their blocks (R370). -/
def coastEnter (d : Dev) : Dev :=
  let d := setTimeState 0 (crossingDie 7 (multEvent (multPut .coast d)))
  forN 9 phyStop d

/-- A failed attempt to count or to lock (R439). -/
def attemptFail (d : Dev) : Dev :=
  let d := d.inc CKP_STAT_attempts
  multEvent (if 16 ≤ d.get CKP_STAT_attempts then multPut .held d
    else if d.ckp.started then multPut .coast d else multPut .waitRef d)

/-- REFCLK is seen to be absent, or to run: while it is absent no count of a clock is valid (R453). -/
def refSeen (absent : Bool) (d : Dev) : Dev :=
  let d := { d with ckp := { d.ckp with refGone := absent } }
  if absent then forN 12 (fun g d => d.setFlag (CKP_DOM_FREQ_valid g) false) d else d

/-- REFCLK_MONITOR_TRIP with cause 1 ABSENT, 2 LOW or 3 HIGH: only a clear monitor trips (R438); one that is not clear sees only whether
REFCLK is absent (DEDUCED, log entry 108). -/
def monitorTrip (cause : Nat) (d : Dev) : Dev :=
  let d := refSeen (cause == 1) d
  if !d.refOk then d
  else
    let d := ((d.setFlag CKP_STAT_ref_ok false).inc CKP_STAT_trips).setFlag CKP_STAT_mon_trip true
    let d := (d.set CKP_STAT_trip_cause cause).setFlag GCTL_HDRM_valid false
    let d := if d.multIs .locked then coastEnter d
      else if d.multIs .counting || d.multIs .locking then attemptFail d else d
    forN 10 domFallback d

/-- MONITOR_CLEAR. -/
def monitorClear (d : Dev) : Dev := refSeen false (d.setFlag CKP_STAT_ref_ok true)

/-- REFCLK_FIRST_EDGE. -/
def refEdge (d : Dev) : Dev := if d.refOk && (d.multIs .waitRef || d.multIs .coast) then multPut .counting d else d

/-- A start-up step is completed. -/
def stepDone (n : Nat) (d : Dev) : Dev := if d.get CKP_PWR_STAT_step + 1 = n then d.set CKP_PWR_STAT_step n else d

/-- COUNT_COMPLETE. -/
def countComplete (d : Dev) : Dev := if d.multIs .counting then stepDone 2 (multPut .locking d) else d

/-- LOCK_ACHIEVED (R442, R445): COAST clears, the DRAM leaves self-refresh; at start-up every enabled domain starts. -/
def lockAchieved (d : Dev) : Dev :=
  if !d.multIs .locking then d
  else
    let d := (multEvent (multPut .locked d)).set CKP_STAT_attempts 0
    let d := { d with time := { d.time with stepped := false } }
    if d.ckp.started then domRevive 7 d
    else
      let d := { d with ckp := { d.ckp with started := true } }
      forN 10 (fun g d => if domFixed g || d.flag (CKP_DOM_CTRL_enable g) then domStart g d else d) d

/-- RETRY: only HELD is left (R439). -/
def multRetry (d : Dev) : Dev := if d.multIs .held then (multPut .waitRef d).set CKP_STAT_attempts 0 else d

/-- Start-up step 3 is complete once every enabled domain is ON (R463). -/
def domainsReady (d : Dev) : Bool :=
  d.ckp.started && (List.range 10).all (fun g => d.domIs g .on || !(domFixed g || d.flag (CKP_DOM_CTRL_enable g)))

/-! ## Spread spectrum, measurements and outputs (R450-R453) -/

/-- SSC_APPLY: the top of a triangle of output `n`; depth and rate as written are in force from it, and the depth of the triangle that
ends is published, in 0.01 %. -/
def sscApply (n : Nat) (d : Dev) : Dev :=
  let d := d.set (CKP_SS_STAT_achieved n) (5 * d.get (CKP_SS_STAT_applied n))
  let d := { d with ckp := { d.ckp with ssRate := insertKey n (d.get (CKP_SS_CFG_rate n)) d.ckp.ssRate } }
  d.set (CKP_SS_STAT_applied n) (d.get (CKP_SS_CFG_depth n))

/-- FREQ_MEASURE: a window of 1 ms of device time ends, with the counts of the twelve domains in kHz (R453). -/
def freqMeasure (khz : List Nat) (d : Dev) : Dev :=
  atTime (nextMs d.now) (forN 12 (fun g d =>
    if d.refAbsent || (g < 10 && d.domIs g .off) then d.setFlag (CKP_DOM_FREQ_valid g) false
    else (d.set (CKP_DOM_FREQ_khz g) (khz.getD g 0)).setFlag (CKP_DOM_FREQ_valid g) true)) d

/-- CKO0 runs: enabled, the CKO domain ON on LOOP, and not gated by an INVALID time (R451). -/
def Dev.cko0Runs (d : Dev) : Bool :=
  d.flag CKP_CKO_cko0_en && d.domIs 9 .on && !d.onRef 9 && !(d.flag CKP_CKO_cko0_gate && d.timeState == 0)

/-- The level of CKO0 while it runs: high in the first half of every 100 ns of device time, but between a step of the counter and the
next rising edge only as long as a phase must last (R451). -/
def Dev.cko0Level (d : Dev) : Bool :=
  d.cko0Runs && match d.ckp.cko0 with
    | some (hi, e) => if d.now < e then d.now < hi else d.now % 100 < 50
    | none => d.now % 100 < 50

/-- A step of the counter moves the next rising edge of CKO0 to the first multiple of 100 ns after the new time, and no phase is then
shorter than 20 ns: a phase that would be lasts for 20 ns, and where the low one cannot, the edge is the next multiple (R451; DEDUCED, log
entry 190). -/
def ckoAfterStep (before : Dev) (d : Dev) : Dev :=
  let age := before.now % 50
  let hi := d.now + (if before.cko0Level then 20 - age else 0)
  let lowFrom : Int := if before.cko0Level then hi else (d.now : Int) - age
  let e := (d.now / 100 + 1) * 100
  { d with ckp := { d.ckp with cko0 := some (hi, if (e : Int) < lowFrom + 20 then e + 100 else e) } }

/-- CKO1 runs: enabled, and the CKO domain has a clock (R452). -/
def Dev.cko1Runs (d : Dev) : Bool := d.flag CKP_CKO_cko1_en && !d.domIs 9 .off && d.domEdges 9

/-- The frequency of CKO1 in kHz: the CKO domain clock divided by the cko1_div in force (R452). -/
def Dev.cko1Khz (d : Dev) : Nat :=
  if d.cko1Runs then d.sourceKhz (d.onRef 9) / d.get (CKP_DOM_CTRL_divider 9) / d.ckp.cko1Div else 0

/-- A written cko1_div takes effect at the next rising edge of CKO1, of whose phase the manual says nothing: at the next tick while it
runs (R452; DESIGN CHOICE, log entry 208). -/
def cko1Edge (d : Dev) : Dev :=
  if d.cko1Runs then { d with ckp := { d.ckp with cko1Div := d.get CKP_CKO_cko1_div } } else d

end Sys2Proof.Machine
end

