-- ==== Sys2Proof/Machine/Gctl.lean ====
section
/-! DEFINITION. Global control: quires, fabric timeouts, headroom, the core voltage loop, supply warnings (R16-R31, R457-R459). -/
namespace Sys2Proof.Machine

/-! ## Quires (R20-R24) -/

/-- The dead_xing bit of a quire that is a clocked crossing. -/
def quireXing (i : Nat) : Option Nat :=
  if 392 ≤ i ∧ i < 400 then some (1 + (i - 392) / 2)
  else if i = 400 then some 5 else if i = 401 then some 6 else if i = 402 then some 7 else if i = 403 then some 8
  else if i = 404 then some 9 else if i = 405 then some 0 else if i = 406 then some 10 else none

/-- A quire; one that is unbound or reserved has capacity 0. -/
def Dev.quire (d : Dev) (i : Nat) : Quire := (lookup i d.quires).getD {}

def Dev.putQuire (i : Nat) (q : Quire) (d : Dev) : Dev := { d with quires := insertKey i q d.quires }

/-- The crossing of quire `i` is dead. -/
def Dev.quireDead (d : Dev) (i : Nat) : Bool :=
  match quireXing i with
  | none => false
  | some b => d.xingDead b

/-- QUIRE_SEND: an item uses a credit, waits without one, and is discarded at a dead crossing (R20, R25). -/
def quireSend (i : Nat) (d : Dev) : Dev :=
  let q := d.quire i
  if d.quireDead i then xdrop d
  else if q.credits = 0 then d
  else d.putQuire i { q with credits := q.credits - 1, high := max q.high (q.capacity - (q.credits - 1)) }

/-- QUIRE_CREDIT_RETURN: the consumer has taken an item out. -/
def quireReturn (i : Nat) (d : Dev) : Dev :=
  let q := d.quire i
  if q.credits < q.capacity then d.putQuire i { q with credits := q.credits + 1 } else d

/-- A write of GCTL_QMON_SEL by master `m`: the index, the snapshot, then clear_hwm. -/
def qmonWrite (m v : Nat) (d : Dev) : Dev :=
  let i := v % 1024
  let q := d.quire i
  let d := d.set (GCTL_QMON_SEL_index m) i
  let d := (d.set (GCTL_QMON_DATA_credits m) q.credits).set (GCTL_QMON_DATA_capacity m) q.capacity
  let d := d.set (GCTL_QMON_DATA_hwm_pct m) (if q.capacity = 0 then 0 else cdiv (100 * q.high) q.capacity)
  if bitAt v 31 && q.capacity != 0 then d.putQuire i { q with high := q.capacity - q.credits } else d

/-! ## Fabric timeouts (R16) -/

/-- A handshake timeout is recorded: the first block, event source 0, the grid record with that block (R373); the block is stopped. -/
def fabricRecord (b : Nat) (d : Dev) : Dev :=
  let d := if d.flag GCTL_FAB_STAT_timeout then d else (d.setFlag GCTL_FAB_STAT_timeout true).set GCTL_FAB_STAT_block b
  let d := gridLog 0x1006 (d.get GCTL_FAB_STAT_block) 0 0 0 (raise 0 d)
  if d.stopped.contains b then d else { d with stopped := b :: d.stopped }

/-- A write of 1 to GCTL_FAB_STAT.timeout: it clears, and block reads 0xFF from then on. -/
def fabricClear (d : Dev) : Dev := (d.setFlag GCTL_FAB_STAT_timeout false).set GCTL_FAB_STAT_block 0xFF

/-! ## Headroom (R28, R31) -/

/-- The headroom of a ring in 0.1 %, rounded down. -/
def ringHeadroom (count floor : Nat) : Int := ((1000 * count / floor : Nat) : Int) - 1000

/-- The measurement runs: REFCLK is present and the multiplier is not in coast. -/
def Dev.hdrmRuns (d : Dev) : Bool := d.refOk && !d.coast

/-- HEADROOM_MEASURE: the laps of the eight rings over 100 µs. Among rings that tie the lowest is named, and a value that does not fit
its field is clamped (DESIGN CHOICE, log entry 165). The published value becomes negative when the one published before it was not. -/
def headroomMeasure (counts : List Nat) (d : Dev) : Dev :=
  if !d.hdrmRuns then d.setFlag GCTL_HDRM_valid false
  else
    let d := forN 8 (fun i d => d.set (GCTL_HDRM_RING_count i) (counts.getD i 0)) d
    if d.nvm.floor.length < 8 || d.nvm.floor.any (fun f => f == 0) then d
    else
      let hs := (List.range 8).map (fun i => clampI (-32768) 32767 (ringHeadroom (counts.getD i 0) (d.nvm.floor.getD i 1)))
      let d := forN 8 (fun i d => d.setI (GCTL_HDRM_RING_headroom i) (hs.getD i 0)) d
      let best := (List.range 8).foldl (fun b i => if hs.getD i 0 < hs.getD b 0 then i else b) 0
      let h := hs.getD best 0
      let was := d.getI GCTL_HDRM_headroom < 0
      let d := ((d.setI GCTL_HDRM_headroom h).set GCTL_HDRM_ring best).setFlag GCTL_HDRM_valid true
      if h < 0 && !was then raise 1 (d.setFlag GCTL_HDRM_low true) else d

/-- A write of 1 to GCTL_HDRM.low clears it only while the headroom is zero or above (R31). -/
def hdrmLowClear (d : Dev) : Dev := if 0 ≤ d.getI GCTL_HDRM_headroom then d.setFlag GCTL_HDRM_low false else d

/-! ## The core voltage (R29, R30, R458, R459) -/

/-- Request a change of VCORE in mV, limited to CKP_AVS_LIM; a change upwards never lowers the voltage (R30). Before the first request
the voltage the change starts from is open. -/
def avsRequest (δ : Int) (d : Dev) : Dev :=
  let (base, d) := if d.avs.request = 0 then let (n, d) := d.drawNat; (n % 65536, d) else (d.avs.request, d)
  let v := natOf (clampI (d.get CKP_AVS_LIM_vmin_mv) (d.get CKP_AVS_LIM_vmax_mv) ((base : Int) + δ))
  if v = d.avs.request || (0 ≤ δ && v ≤ base) then d else { d with avs := { d.avs with stepping := some v, goodRun := 0, retry := none } }

/-- AVS_EVALUATE: a failed step is retried, but a headroom that asks for an upward change goes first (R459; DEDUCED, log entry 203). -/
def avsEvaluate (d : Dev) : Dev :=
  if !d.flag GCTL_AVS_CFG_enable || !d.hdrmRuns || d.avs.stepping.isSome then d
  else
    let up : Int := 5 * d.get GCTL_AVS_CFG_up_step
    let margin : Int := 5 * d.get GCTL_AVS_CFG_margin
    let high : Int := margin + 5 * d.get GCTL_AVS_CFG_hysteresis
    let h := d.getI GCTL_HDRM_headroom
    if !d.flag GCTL_HDRM_valid || h < margin then avsRequest up { d with avs := { d.avs with goodRun := 0 } }
    else if d.avs.retry.isSome then { d with avs := { d.avs with stepping := d.avs.retry, retry := none } }
    else if h < high then { d with avs := { d.avs with goodRun := 0 } }
    else
      let n := d.avs.goodRun + 1
      if n < 16 then { d with avs := { d.avs with goodRun := n } }
      else avsRequest (-(5 * (d.get GCTL_AVS_CFG_down_step : Int))) { d with avs := { d.avs with goodRun := 0 } }

/-- AVS_VOUT_POLL: the step is complete within ±5 mV of the request. -/
def avsPoll (mv : Nat) (d : Dev) : Dev :=
  match d.avs.stepping with
  | none => d
  | some v =>
    if !d.hdrmRuns then d
    else
      let d := d.set CKP_AVS_STAT_vout_mv mv
      if v ≤ mv + 5 && mv ≤ v + 5 then { d with avs := { d.avs with stepping := none, request := v, failures := 0 } } else d

/-- AVS_STEP_TIMEOUT: the step failed; the third consecutive failure ends the loop (R459). It does not advance without REFCLK
or in coast (R30). -/
def avsFail (d : Dev) : Dev :=
  if d.avs.stepping.isNone || !d.hdrmRuns then d
  else
    let n := d.avs.failures + 1
    if 3 ≤ n then
      raise 8 ((({ d with avs := { d.avs with stepping := none, failures := 0 } }).setFlag GCTL_AVS_CFG_enable false).setFlag
        CKP_AVS_STAT_fault true)
    else { d with avs := { d.avs with stepping := none, failures := n, retry := d.avs.stepping } }

/-- The bit of CKP_PWR_STAT.warn of a rail. -/
def railBit : Rail → Nat
  | .vcore => 0 | .vserdes => 1 | .vddq => 2 | .vio => 3

/-- SUPPLY_WARN (R457). -/
def supplyWarn (r : Rail) (d : Dev) : Dev :=
  raiseMs 10 (d.set CKP_PWR_STAT_warn (setBit (d.get CKP_PWR_STAT_warn) (railBit r) true))

end Sys2Proof.Machine
end

