-- ==== Sys2Proof/Machine/Output.lean ====
section
/-! DEFINITION. Output streams: composing C37.118.2 data frames from gatherings (R132-R138). -/
namespace Sys2Proof.Machine

/-- This unit acts (R286). -/
def Dev.acting (d : Dev) : Bool := d.flag SPN_STAT_acting

/-! ## Time fields (R133) -/

/-- The UTC offset in force at device time `g`. -/
def Dev.utcAt (d : Dev) (g : Nat) : Int := toInt 16 (bits (d.timeAt g).2.2 0 16)

/-- FRACSEC bits [31:28] at instant `g`: a leap pending, leap occurred, and its direction. -/
def Dev.leapBits (d : Dev) (g : Nat) : Nat :=
  let w := (d.timeAt g).2.2
  let leap := bits w 16 2
  b2n (leap != 0) + bits w 19 1 * 2 + b2n (leap == 2 || (bitAt w 19 && bitAt w 18)) * 4

/-! ## Values (R135) -/

/-- rn_int of an exact product, saturated; none where an operand is not finite. -/
def intProduct (a q : Nat) (lo hi : Int) : Option Int :=
  if fIsFinite a && fIsFinite q then
    let (n, d) := fQ a
    let (m, e) := fQ q
    some (clampI lo hi (rnIntQ (n * m) (d * e)))
  else none

/-- A 16-bit field: the value, or 0x8000. -/
def int16 (v : Option Int) : List Byte := toBe 2 (match v with | some x => ofInt 16 x | none => 0x8000)

/-- A float field: a finite value, or the quiet NaN. -/
def float32 (v : Nat) : List Byte := toBe 4 (if fIsFinite v then v else fNaN)

/-- The magnitude of a phasor (R135). -/
def phMag (z : Nat × Nat) : Nat := fSqrt (fAdd (fMul z.1 z.1) (fMul z.2 z.2))

/-- A phasor under FORMAT bits. -/
def outPhasor (fmt q : Nat) (z : Nat × Nat) : List Byte :=
  let bad := fIsNaN z.1 || fIsNaN z.2
  if bitAt fmt 1 then
    if bad then toBe 4 fNaN ++ toBe 4 fNaN
    else if bitAt fmt 0 then float32 (phMag z) ++ float32 (cArg z)
    else float32 z.1 ++ float32 z.2
  else if bad then int16 none ++ int16 none
  else if bitAt fmt 0 then int16 (intProduct (phMag z) q 0 65535) ++ int16 (intProduct (cArg z) (rnInt 10000) (-32767) 32767)
  else int16 (intProduct z.1 q (-32767) 32767) ++ int16 (intProduct z.2 q (-32767) 32767)

/-- FREQ and DFREQ under FORMAT bits. -/
def outFreq (fmt fnom : Nat) (f r : Nat) : List Byte :=
  if bitAt fmt 3 then float32 f ++ float32 r
  else
    let fi := if fIsFinite f then
        let (n, d) := fQ f
        some (clampI (-32767) 32767 (rnIntQ ((n - fnom * d) * 1000) d))
      else none
    int16 fi ++ int16 (intProduct r (rnInt 100) (-32767) 32767)

/-- An analogue under FORMAT bits. -/
def outAnalog (fmt q v : Nat) : List Byte :=
  if bitAt fmt 2 then float32 v else int16 (intProduct v q (-32767) 32767)

/-! ## Blocks (R134, R136) -/

/-- The time quality bits 8:6 of a kind 2 block. -/
def Dev.localTq (d : Dev) : Nat :=
  let st := d.timeState
  let e := if st = 2 then d.holdEst else d.offsetAbs
  if st = 3 then 1
  else if st = 2 || (st = 1 && d.time.selected.isSome) then
    if e < 1000 then 2 else if e < 10000 then 3 else if e < 100000 then 4 else if e < 1000000 then 5 else if e < 10000000 then 6 else 7
  else 7

/-- The STAT word of a present block. -/
def Dev.blockStat (d : Dev) (kind cfg : Nat) (p : Placed) : Nat :=
  let f := p.flags
  let err := if bitAt f 3 then 3 else if bitAt f 2 then 2 else 0
  let sync := if kind = 2 then d.get TBS_TQ_sync_err else bits f 1 1
  let unl := if kind = 2 then d.get TBS_TQ_unlocked else p.unlocked
  let tq := if kind = 2 then d.localTq else p.tq
  err * 2 ^ 14 + sync * 2 ^ 13 + (if p.part then 1 else bits f 6 1) * 2 ^ 12 + bits f 5 1 * 2 ^ 11 + cfg * 2 ^ 10 + bits f 4 1 * 2 ^ 9
  + tq * 2 ^ 6 + unl * 2 ^ 4 + p.trigger

/-- The values of an absent block: every channel substituted. -/
def blockAbsent (fmt : Nat) (c : List Nat) : List Byte :=
  (List.replicate (c.getD 0 0) (outPhasor fmt 0 missing)).flatten ++ outFreq fmt 0 fNaN fNaN
  ++ (List.replicate (c.getD 1 0) (outAnalog fmt 0 fNaN)).flatten ++ List.replicate (2 * c.getD 2 0) 0

/-- Slot `j` of gathering slot space in a gathering as a pair; missing outside the slot range. -/
def Dev.slotPair (d : Dev) (n k j : Nat) : Nat × Nat :=
  match d.slotAddr n k j with
  | some _ => let v := d.slotRead n k j; (v % 2 ^ 32, v / 2 ^ 32)
  | none => missing

/-- The values of a present block, read from the slots of its source (R80, R141). -/
def Dev.blockValues (d : Dev) (n k : Nat) (e : Ent) (fmt qph qan : Nat) : List Byte :=
  let base := e.slotBase
  let np := if e.kind = 2 then 10 else (selected e.nPh e.phSel).length
  let na := if e.kind = 2 then 0 else (selected e.nAn e.anSel).length
  let nd := if e.kind = 2 then 2 else (selected e.nDig e.digSel).length
  let fr := d.slotPair n k base
  let ph := ((List.range np).map (fun i => outPhasor fmt qph (d.slotPair n k (base + 1 + i)))).flatten
  let an := ((List.range na).map (fun j =>
    let z := d.slotPair n k (base + 1 + np + j / 2)
    outAnalog fmt qan (if j % 2 = 0 then z.1 else z.2))).flatten
  let dg := ((List.range nd).map (fun j =>
    let a := base + 1 + np + (na + 1) / 2 + j / 4
    toBe 2 (match d.slotAddr n k a with
      | some _ => bits (d.slotRead n k a) (16 * (j % 4)) 16
      | none => 0))).flatten
  ph ++ outFreq fmt e.fnom fr.1 fr.2 ++ an ++ dg

/-- One block of a stream's frame: present where its source lies in the reader's view, its working copy is enabled and its channel counts
are those latched; absent otherwise (R118, R134, R136). -/
def Dev.outBlock (d : Dev) (r : Nat) (nt : Notice) (b : Nat) (latched : List Nat) : List Byte :=
  let s := d.get (COL_BLK0_source b)
  let fmt := d.get (COL_BLK0_format b)
  let cfg := d.get (COL_OS_CFG_cfg_change r)
  let e := d.ent s
  let placed := match d.gath nt.grid nt.k with
    | some x => if nt.memLost || x.memLost then none else x.placed.find? (fun p => p.src == s && decide (p.order < nt.arrived))
    | none => none
  match placed with
  | some p =>
    if e.on && !(d.reader r).recount.contains b && d.blockCounts s == latched then
      toBe 2 (d.blockStat e.kind cfg p) ++ d.blockValues nt.grid nt.k e fmt (d.get (COL_BLK_QPH b)) (d.get (COL_BLK_QAN b))
    else toBe 2 (2 * 2 ^ 14 + 2 ^ 12 + cfg * 2 ^ 10) ++ blockAbsent fmt latched
  | none => toBe 2 (2 * 2 ^ 14 + 2 ^ 12 + cfg * 2 ^ 10) ++ blockAbsent fmt latched

/-! ## Frames (R132, R133, R137) -/

/-- The C37.118.2 data frame of stream `r` for a gathering (R133). -/
def Dev.outFrame (d : Dev) (r : Nat) (nt : Notice) : List Byte :=
  let soc := ofInt 32 (((nt.g : Int) - d.utcAt nt.g * 1000000000) / 1000000000)
  let frac := divRne (nt.g % 1000000000 * d.get (COL_OS_TBASE_time_base r)) 1000000000 % 2 ^ 24
  let fracsec := frac + d.get TBS_TQ_code * 2 ^ 24 + d.leapBits nt.g * 2 ^ 28
  let body := ((d.blocks r).zip (d.reader r).latched).map (fun x => d.outBlock r nt x.1 x.2)
  let head := toBe 2 (if d.flag (COL_OS_CFG_version r) then 0xAA02 else 0xAA01) ++ toBe 2 (d.get (COL_OS_SIZE_value r))
    ++ toBe 2 (d.get (COL_OS_CFG_idcode r)) ++ toBe 4 soc ++ toBe 4 fracsec
  let all := head ++ body.flatten
  all ++ toBe 2 (crcCcitt all)

/-- A UDP datagram over IPv4 (R137): DF set, identification 0, TTL 64; addresses as four bytes in network order. -/
def udpPacket (dscp sport dport : Nat) (sip dip : List Byte) (p : List Byte) : List Byte :=
  let len := 8 + p.length
  let h0 := [0x45, BitVec.ofNat 8 (dscp * 4)] ++ toBe 2 (20 + len) ++ toBe 2 0 ++ toBe 2 0x4000 ++ [64, 17]
  let ck := inetCk (sum16 (h0 ++ toBe 2 0 ++ sip ++ dip))
  let u0 := toBe 2 sport ++ toBe 2 dport ++ toBe 2 len
  let uc := inetCk (sum16 (sip ++ dip) + 17 + len + sum16 (u0 ++ toBe 2 0 ++ p))
  h0 ++ toBe 2 ck ++ sip ++ dip ++ u0 ++ toBe 2 (if uc = 0 then 0xFFFF else uc) ++ p

/-- The data frame of stream `r` in UDP, IPv4 and Ethernet (R133). -/
def Dev.outPacket (d : Dev) (r : Nat) (nt : Notice) : List Byte :=
  let p := d.get (COL_OS_CFG_port r)
  let sip := toLe 4 (d.get (COL_OS_SIP r))
  let dip := toLe 4 (d.get (COL_OS_DIP r))
  let udp := udpPacket (d.get (COL_OS_CFG_dscp r)) (d.get (COL_OS_UDP_src r)) (d.get (COL_OS_UDP_dst r)) sip dip (d.outFrame r nt)
  d.frame p (macBytes (d.get (COL_OS_DMAC_LO r)) (d.get (COL_OS_DMAC_HI_value r))) (d.vlanTag p 0) 0x0800 udp

/-- Stream `r` composes one frame for a gathering and sends it, or discards it when the unit does not act (R132). Its bound of 200 µs runs
from its notice to its start at the port (R138). -/
def outSend (r : Nat) (nt : Notice) (d : Dev) : Dev :=
  let bs := d.outPacket r nt
  if d.acting then
    ethSend (d.get (COL_OS_CFG_port r)) { kind := .stream r, bytes := bs, due := nt.tick + 800000 } d
  else d.inc (COL_OS_NOT_SENT r)

/-- An output stream takes its next notice (R116): it composes one frame on the first notice for each gathering. -/
def streamNotice (r : Nat) (d : Dev) : Dev :=
  let (nt?, d) := noticeNext r d
  let d := match nt? with
    | none => d
    | some nt =>
      let x := d.reader r
      let keep := x.composed.filter (fun g => (d.grid nt.grid).held.any (fun y => y.g == g))
      if keep.contains nt.g then d else outSend r nt (d.putReader r { x with composed := keep ++ [nt.g] })
  readerTryOff r d

end Sys2Proof.Machine
end

