-- ==== Sys2Proof/Machine/Filter.lean ====
section
/-! DEFINITION. The filter chain: banks, the chain of a sample, local phasors, swaps and fades, resets and gaps, fast phasors and
channel detectors (R140-R165). -/
namespace Sys2Proof.Machine

/-! ## Banks (R150, R151) -/

/-- A coefficient bank: the shape, and the BAR0 offset its words lie at. -/
structure Bank where
  l1 : Nat
  d1 : Nat
  l2 : Nat
  d2 : Nat
  taps : Nat
  rank : Nat
  base : Nat
  deriving DecidableEq, Repr

/-- The word of the BAR0 windows at an offset. -/
def Dev.winWord (d : Dev) (o : Nat) : Nat := memLe d.win o 4

/-- Bank `b` of group `g`. -/
def Dev.bank (d : Dev) (g b : Nat) : Bank :=
  let base := 0x1400000 + 0x4000 * g + 0x2000 * b
  let s1 := d.winWord base
  let s2 := d.winWord (base + 4)
  let r := d.winWord (base + 8)
  { l1 := bits s1 0 11, d1 := bits s1 16 8, l2 := bits s2 0 11, d2 := bits s2 16 8, taps := bits r 0 3, rank := bits r 4 3, base := base }

/-- N of R143. -/
def Bank.n (b : Bank) : Nat := if b.taps = 0 then 1 else b.taps
/-- D of R142. -/
def Bank.d (b : Bank) : Nat := b.d1 * b.d2
/-- Twice G (R147). -/
def Bank.g2 (b : Bank) : Nat := (b.n - 1) + (b.l1 - 1) + b.d1 * (b.l2 - 1)
/-- G of R147. -/
def Bank.g (b : Bank) : Nat := b.g2 / 2
/-- Gr of R143. -/
def Bank.gr (b : Bank) : Nat := (b.n - 1) / 2
/-- The shape of a bank (R151). -/
def Bank.shape (b : Bank) : List Nat := [b.taps, b.rank, b.l1, b.d1, b.l2, b.d2]

/-- A word is a 24-bit value sign-extended to 32 bits. -/
def q22Ok (w : Nat) : Bool := let v := toInt 32 w; -8388608 ≤ v && v ≤ 8388607

/-- The words of a range are all zero. -/
def Dev.winZero (d : Dev) (o words : Nat) : Bool := (List.range words).all (fun i => d.winWord (o + 4 * i) == 0)

/-- Every field of a bank lies in the ranges of R150. -/
def Dev.bankOk (d : Dev) (b : Bank) : Bool :=
  let w (o : Nat) : Nat := d.winWord (b.base + o)
  let stage (v : Nat) : Bool := 1 ≤ bits v 0 11 && bits v 0 11 ≤ 1024 && 1 ≤ bits v 16 8 && bits v 11 5 == 0 && bits v 24 8 == 0
  stage (w 0) && stage (w 4) && (b.taps == 0 || b.taps == 3 || b.taps == 5 || b.taps == 7)
  && (if b.taps = 0 then b.rank == 0 else decide (b.rank < b.taps)) && bits (w 8) 3 1 == 0 && bits (w 8) 7 25 == 0 && w 0xC == 0
  && (List.range 16).all (fun i => q22Ok (w (0x10 + 4 * i)))
  && (List.range 8).all (fun j => fIsFinite (w (0x50 + 4 * j)) && !fIsZero (w (0x50 + 4 * j)))
  && d.winZero (b.base + 0x70) 36
  && (List.range ((b.l1 + 1) / 2)).all (fun i => q22Ok (w (0x100 + 4 * i)))
  && (List.range ((b.l2 + 1) / 2)).all (fun i => q22Ok (w (0x900 + 4 * i)))
  && d.winZero (b.base + 0x1100) 960

/-- The coefficients of a stage: word i of a symmetric filter of length `l` (R145). -/
def Dev.coeffs (d : Dev) (base l : Nat) : List Int :=
  (List.range l).map (fun i => toInt 32 (d.winWord (base + 4 * (if 2 * i < l then i else l - 1 - i))))

/-- The unit of channel `j`, and its calibration. -/
def Dev.unit (d : Dev) (b : Bank) (j : Nat) : Nat := d.winWord (b.base + 0x50 + 4 * j)
def Dev.cal (d : Dev) (b : Bank) (j : Nat) : Int × Int := (toInt 32 (d.winWord (b.base + 0x10 + 8 * j)), toInt 32 (d.winWord (b.base + 0x14 + 8 * j)))

/-! ## Groups -/

/-- Group `g`. -/
def Dev.fgroup (d : Dev) (g : Nat) : FltGroup := (lookup g d.flt.groups).getD {}

/-- Replace a group. -/
def Dev.putFgroup (g : Nat) (x : FltGroup) (d : Dev) : Dev := { d with flt := { d.flt with groups := insertKey g x d.flt.groups } }

/-- The source of a group: the enabled kind 2 entry whose sv_slot is `g` (R140). -/
def Dev.groupSrc (d : Dev) (g : Nat) : Option (Nat × Ent) :=
  d.str.working.find? (fun p => p.2.on && p.2.kind == 2 && p.2.svSlot == g)

/-- The active bank of a group. -/
def Dev.activeBank (d : Dev) (g : Nat) : Bank := d.bank g (d.get (FLT_GRP_CTRL_bank g))

/-- The bank that the detectors use: the new one during a fade (R154). -/
def Dev.detBank (d : Dev) (g : Nat) : Bank :=
  if (d.fgroup g).fade.isSome then d.bank g (1 - d.get (FLT_GRP_CTRL_bank g)) else d.activeBank g

/-- The lane of a group is bound (R140). -/
def Dev.fltBound (d : Dev) (g : Nat) : Bool := g / 2 < d.get BND_FOLIO_CNT_flt

/-- RATE of R151. -/
def rateBad (b : Bank) (e : Ent) : Bool :=
  e.rate ≤ 0 || e.svRate % natOf e.rate != 0 || b.d != e.svRate / natOf e.rate

/-- The check of a bank (R151), in the order of its table. `swap` gives the fade length and the bank in use for a swap; none at an
enable. -/
def fltCode (g b : Nat) (swap : Option SwapReq) (d : Dev) : Nat :=
  let k := d.bank g b
  let src := d.groupSrc g
  let long := match swap with | some r => decide (4096 < r.fade) | none => false
  let rate := match src with | some (_, e) => rateBad k e | none => false
  let shape := match swap with | some r => r.fade != 0 && k.shape != (d.activeBank g).shape | none => false
  let same := swap.isSome && b == d.get (FLT_GRP_CTRL_bank g)
  let fast := match src with | some (_, e) => d.flag (FLT_GRP_CTRL_fast_en g) && e.svRate % (4 * e.fnom) != 0 | none => false
  let ssb := match src with | some (_, e) => d.flag (FLT_GRP_CTRL_ssb_en g) && e.svRate < 4 * e.fnom * k.d1 | none => false
  if !d.bankOk k || long then 1
  else if rate then 2
  else if k.g2 % 2 = 1 then 3
  else if shape then 4
  else if same then 5
  else if src.isNone && swap.isNone then 6
  else if fast then 9
  else if ssb then 10
  else 0

/-! ## Integer stages (R142-R145) -/

/-- A number of saturations beside a value. -/
abbrev Sat := Int × Nat

/-- The accumulator saturates at 56 bits. -/
def sat56 (v : Int) : Sat :=
  if v < -36028797018963968 then (-36028797018963968, 1) else if 36028797018963967 < v then (36028797018963967, 1) else (v, 0)

/-- Narrowing: round to the nearest integer with ties to even after division by 2²², limited to 32 bits. -/
def nar (v : Int) : Sat :=
  let q := divHalfEven v 4194304
  if q < -2147483648 then (-2147483648, 1) else if 2147483647 < q then (2147483647, 1) else (q, 0)

/-- Σ h·x in the accumulator, then narrowed. -/
def macNar (hx : List (Int × Int)) : Sat :=
  let (a, s) := hx.foldl (fun (r : Sat) p => let (v, k) := sat56 (r.1 + p.1 * p.2); (v, r.2 + k)) (0, 0)
  let (q, k) := nar a
  (q, s + k)

/-- COS[p] and SIN[p] (R142). -/
def cosSin22 (p : Nat) : Int × Int :=
  let (c, s) := fxCosSin (2 * fxPi * p / 65536)
  (divHalfEven (c * 4194304) fxOne.toNat, divHalfEven (s * 4194304) fxOne.toNat)

/-- Insertion into ascending order. -/
def insertAsc (x : Int) : List Int → List Int
  | [] => [x]
  | y :: ys => if x ≤ y then x :: y :: ys else y :: insertAsc x ys

/-- Ascending order. -/
def sortAsc (xs : List Int) : List Int := xs.foldl (fun a x => insertAsc x a) []

/-- A list padded or cut to `n` entries. -/
def fitTo {α : Type} (n : Nat) (z : α) (xs : List α) : List α := xs.take n ++ List.replicate (n - xs.length) z

/-- What a chain makes of one sample: its new delay lines, the rank output, the demodulated sample, the outputs that fall due, and
the saturations. -/
structure ChainOut where
  st : ChainSt
  r : Int
  dm : CInt
  z : Option CInt := none
  y : Option CInt := none
  sat : Nat := 0
  deriving DecidableEq, Repr

/-- One stage on a history: real and imaginary separately. -/
def stage (h : List Int) (hist : List CInt) : CInt × Nat :=
  let hist := fitTo h.length {} hist
  let (r, s) := macNar (h.zip (hist.map CInt.re))
  let (i, t) := macNar (h.zip (hist.map CInt.im))
  (⟨r, i⟩, s + t)

/-- The chain of channel `j` on sample `n` with value `x` (R142, R143); `tr` is the time of sample n − Gr. -/
def chainStep (d : Dev) (b : Bank) (fnom n : Nat) (tr : Int) (j : Nat) (x : Int) (c : ChainSt) : ChainOut :=
  let win := fitTo b.n 0 (x :: c.rank)
  let r := (sortAsc win).getD b.rank 0
  let p := natOf (divHalfEven ((fnom : Int) * (tr % 1000000000) * 65536) 1000000000 % 65536)
  let (kr, ki) := d.cal b j
  let (co, si) := cosSin22 p
  let (ar, s1) := nar (r * kr)
  let (ai, s2) := nar (r * ki)
  let (dr, s3) := macNar [(ar, co), (ai, si)]
  let (di, s4) := macNar [(ai, co), (-ar, si)]
  let dm : CInt := ⟨dr, di⟩
  let h1 := fitTo b.l1 {} (dm :: c.h1)
  let st : ChainSt := { rank := win, h1 := h1, h2 := c.h2 }
  let o : ChainOut := { st := st, r := r, dm := dm, sat := s1 + s2 + s3 + s4 }
  if ((n : Int) - b.g) % b.d1 = 0 then
    let (z, s5) := stage (d.coeffs (b.base + 0x100) b.l1) h1
    let h2 := fitTo b.l2 {} (z :: c.h2)
    let o := { o with st := { st with h2 := h2 }, z := some z, sat := o.sat + s5 }
    if ((n : Int) - b.g) % b.d = 0 then
      let (y, s6) := stage (d.coeffs (b.base + 0x900) b.l2) h2
      { o with y := some y, sat := o.sat + s6 }
    else o
  else o

/-! ## Phasors (R146, R148) -/

/-- rn(√2), α, α² and rn(1/3). -/
def rnSqrt2 : Nat := 0x3FB504F3
def alpha1 : Nat × Nat := (0xBF000000, 0x3F5DB3D7)
def alpha2 : Nat × Nat := (0xBF000000, 0xBF5DB3D7)
def rnThird : Nat := 0x3EAAAAAB

/-- q_j of R146. -/
def Dev.qOf (d : Dev) (b : Bank) (j : Nat) : Nat := fMul (d.unit b j) rnSqrt2

/-- The phasor of an output. -/
def phasorOf (q : Nat) (y : CInt) : Nat × Nat := (fMul q (rnInt y.re), fMul q (rnInt y.im))

/-- The positive sequence of three phasors. -/
def posSeq (a b c : Nat × Nat) : Nat × Nat := cScale rnThird (cAdd (cAdd a (cMul alpha1 b)) (cMul alpha2 c))

/-- The eight phasors with their two sequences. -/
def withSequences (p : List (Nat × Nat)) : List (Nat × Nat) :=
  let g (i : Nat) := p.getD i (0, 0)
  p ++ [posSeq (g 0) (g 1) (g 2), posSeq (g 4) (g 5) (g 6)]

/-- A mask of the eight channels with the two sequence bits, each set while any of its components is. -/
def maskSequences (m : Nat) : Nat := m + b2n (bits m 0 3 != 0) * 256 + b2n (bits m 4 3 != 0) * 512

/-- ∠(a · conj b). -/
def angleTo (a b : Nat × Nat) : Nat := cArg (cMul a (cConj b))

/-- κ1 = rn(rate / 4π), κ2 = rn(rate² / 2π), and rn(fnom / 2π). -/
def rnOverPi (num k : Nat) : Nat := rnQ ((num : Int) * fxOne) (natOf (k * fxPi))

/-- Frequency and ROCOF of output k from X[k−1], X[k], X[k+1] (R148). -/
def localFreq (fnom rate : Nat) (x0 x1 x2 : Nat × Nat) : Nat × Nat :=
  let d0 := angleTo x1 x0
  let d1 := angleTo x2 x1
  (fAdd (rnInt fnom) (fMul (fAdd d0 d1) (rnOverPi rate 4)), fMul (fSub d1 d0) (rnOverPi (rate * rate) 2))

/-! ## Resets (R156) -/

/-- The outputs marked UNSETTLED after a reset. -/
def Bank.settle (b : Bank) : Nat := cdiv (2 * b.g) b.d

/-- A channel's delay lines are cleared. The envelope values that the open second of R162 would still need are missing, so it gives no
ratio. -/
def chanReset (b : Bank) (c : ChanSt) : ChanSt :=
  { c with a := {}, b := {}, last := none, missRun := 0, unsettled := b.settle, demod := [], env := [], ssb := none }

/-- A reset is counted and raises source 54. -/
def resetNote (g : Nat) (d : Dev) : Dev := raiseMs 54 (d.inc (FLT_GRP_RESETS g))

/-- A synchronising reset of a group. The indices go on, so the times of the samples before it still serve (R147), and a gap shows
(R157). -/
def groupReset (g : Nat) (d : Dev) : Dev :=
  let x := d.fgroup g
  resetNote g (d.putFgroup g { x with
    chans := x.chans.map (chanReset (d.activeBank g)), marks := x.marks.map (fun m => { m with cut := true }), fast := [], fastRun := 0 })

/-- The registers that show the shape in use (R147, R164). -/
def fltShape (g : Nat) (d : Dev) : Dev :=
  let b := d.activeBank g
  let rate := match d.groupSrc g with | some (_, e) => e.svRate | none => 1
  let d := (d.set (FLT_GRP_SHAPE_g_samples g) b.g).set (FLT_GRP_SHAPE_d g) b.d
  (d.set (FLT_GRP_GDNS g) (divRne (b.g * 1000000000) rate)).set (FLT_GRP_LATNS g) (divRne ((b.g + b.d) * 1000000000) rate)

/-! ## Swaps (R153-R155) -/

/-- A request is taken (R153). -/
def swapTake (g : Nat) (r : SwapReq) (d : Dev) : Dev :=
  let c := fltCode g r.bank (some r) d
  let d := d.set (FLT_GRP_CTRL_result g) c
  if c = 5 then d
  else if c != 0 then raiseMs 52 d
  else
    let d := raiseMs 53 d
    if r.fade = 0 then
      let differs := (d.bank g r.bank).shape != (d.activeBank g).shape
      let d := fltShape g (d.set (FLT_GRP_CTRL_bank g) r.bank)
      if differs then groupReset g d else d
    else
      let x := d.fgroup g
      let d := d.putFgroup g { x with fade := some { len := r.fade }, chans := x.chans.map (fun c => { c with b := c.a }) }
      (d.setFlag (FLT_GRP_SWAPST_fading g) true).set (FLT_GRP_SWAPST_fade_pos g) 0

/-- Show the held request. -/
def heldShow (g : Nat) (d : Dev) : Dev :=
  match (d.fgroup g).held with
  | some r => (d.setFlag (FLT_GRP_SWAPST_held g) true).set (FLT_GRP_SWAPST_held_bank g) r.bank
  | none => d.setFlag (FLT_GRP_SWAPST_held g) false

/-- SWAP REQUEST (R153, R155): taken, or held during a fade; it replaces a held one. Discarded unless the group is ON. -/
def swapRequest (g : Nat) (r : SwapReq) (d : Dev) : Dev :=
  if d.get (FLT_GRP_CTRL_state g) != 1 then d
  else
    let x := d.fgroup g
    if x.fade.isNone && x.held.isNone then swapTake g r d
    else
      let d := if x.held.isSome then d.set (FLT_GRP_CTRL_result g) 7 else d
      heldShow g (d.putFgroup g { x with held := some r })

/-- SWAP CANCEL (R155). -/
def swapCancel (g : Nat) (d : Dev) : Dev :=
  let x := d.fgroup g
  if d.get (FLT_GRP_CTRL_state g) = 1 && x.held.isSome then
    heldShow g ((d.putFgroup g { x with held := none }).set (FLT_GRP_CTRL_result g) 8)
  else d

/-- A held request is taken before the first input sample after a fade (R155). -/
def swapHeld (g : Nat) (d : Dev) : Dev :=
  let x := d.fgroup g
  match x.held with
  | some r => if x.fade.isSome then d else swapTake g r (heldShow g (d.putFgroup g { x with held := none }))
  | none => d

/-- The fade ends: the new chain and bank are the active ones (R154). -/
def fadeEnd (g : Nat) (d : Dev) : Dev :=
  let x := d.fgroup g
  let d := d.putFgroup g { x with fade := none, chans := x.chans.map (fun c => { c with a := c.b, b := {} }) }
  let d := d.set (FLT_GRP_CTRL_bank g) (1 - d.get (FLT_GRP_CTRL_bank g))
  raiseMs 53 (fltShape g (d.setFlag (FLT_GRP_SWAPST_fading g) false))

/-! ## Values for acquisition (R307, R308) -/

/-- A lane publishes a value; it is kept for acquisition while a channel in use names it. -/
def acqPush (v : AcqIn) (d : Dev) : Dev :=
  if d.acq.want.contains (v.ty, v.idx) then { d with acq := { d.acq with inbox := d.acq.inbox ++ [v] } } else d

/-- The derived quantities of an output of group `g`: magnitudes of the phasors, frequency and ROCOF; NaN where one is missing or
unsettled. -/
def acqOutput (g rate fnom : Nat) (o : PhasorOut) (fr : Nat × Nat) (freqGood : Bool) (d : Dev) : Dev :=
  let t := natOf o.time
  let v (ty i x : Nat) (good : Bool) : AcqIn :=
    { ty := ty, idx := i, k := t / 1000000000 * rate + divRne (t % 1000000000 * rate) 1000000000, time := o.time, rate := rate, fnom := fnom,
      val := if good then x else fNaN, susp := o.sync == 0 }
  let d := forN 8 (fun j d =>
    let p := o.ph.getD j (0, 0)
    acqPush (v 4 (8 * g + j) (fSqrt (fAdd (fMul p.1 p.1) (fMul p.2 p.2))) (!bitAt o.miss j && !bitAt o.uns j)) d) d
  acqPush (v 6 g fr.2 freqGood) (acqPush (v 5 g fr.1 freqGood) d)

/-! ## Delivery (R149, R158) -/

/-- The frame of output k, once its successor is known: frequency, flags, digital words and slots; it is offered to the Collator and
the channel status follows. -/
def deliverOut (g : Nat) (e : Nat × Ent) (prev : Option PhasorOut) (o next : PhasorOut) (d : Dev) : Dev :=
  let sel := if d.flag (FLT_GRP_CTRL_freq_src g) then 8 else 9
  let x (p : PhasorOut) : Nat × Nat := p.ph.getD sel (0, 0)
  let miss := bitAt o.miss sel || bitAt next.miss sel || (match prev with | some p => bitAt p.miss sel | none => false)
  let x0 := match prev with | some p => x p | none => (0, 0)
  let fr := if miss then missing else localFreq e.2.fnom (natOf e.2.rate) x0 (x o) (x next)
  let fu := bitAt o.uns sel || (match prev with | some p => bitAt p.uns sel | none => true)
  let flags := b2n (o.sync < 2) + b2n (o.sync == 0) * 2 + b2n o.test * 4 + b2n (o.uns % 256 != 0 || fu) * 8 + b2n (o.interp != 0) * 16
  let w0 := o.uns % 256 + o.interp * 256
  let w1 := o.quest + b2n o.sat * 2 ^ 8 + b2n fu * 2 ^ 9 + b2n o.fade * 2 ^ 10
  let slots := slot2 fr :: (List.range 10).map (fun i => slot2 (if bitAt o.miss i then missing else o.ph.getD i (0, 0))) ++ [w0 + w1 * 65536]
  let fm : GoodFrame := { src := e.1, t := natOf o.time, arr := d.now, flags := flags, part := o.miss % 256 != 0, slots := slots }
  let d := { d with col := { d.col with inbox := d.col.inbox ++ [fm] } }
  let d := acqOutput g (natOf e.2.rate) e.2.fnom o fr (!miss && !fu) d
  let d := d.inc (FLT_GRP_OUT g)
  let d := forN 8 (fun j d =>
    let c := 8 * g + j
    ((d.setFlag (FLT_CH_STAT_unsettled c) (bitAt o.uns j)).setFlag (FLT_CH_STAT_interpolated c) (bitAt o.interp j)).setFlag (FLT_CH_STAT_missing c) (bitAt o.miss j)) d
  let d := if o.sync < 2 && (d.fgroup g).lastSync = 2 then raiseMs 58 d else d
  d.putFgroup g { d.fgroup g with lastSync := o.sync }

/-- A computed output waits for its successor; the one that waited is delivered. -/
def outputStep (g : Nat) (e : Nat × Ent) (o : PhasorOut) (d : Dev) : Dev :=
  let x := d.fgroup g
  let d := match x.wait with
    | some w => deliverOut g e x.prev w o d
    | none => d
  d.putFgroup g { d.fgroup g with prev := x.wait, wait := some o }

/-! ## Channel detectors (R161, R162) -/

/-- The cycle window that a time lies in. -/
def windowOf (fnom : Nat) (t : Int) : Nat :=
  let s := natOf (t / 1000000000)
  let r := natOf (t % 1000000000)
  let i := r * fnom / 1000000000
  s * fnom + (if i + 1 < fnom + 1 && divRne ((i + 1) * 1000000000) fnom ≤ r then i + 1 else if r < divRne (i * 1000000000) fnom then i - 1 else i)

/-- A window ends: peak and rms of channel `c` are published (R161), to acquisition too. -/
def windowPublish (g j fnom w : Nat) (susp : Bool) (u : Nat) (c : ChanSt) (d : Dev) : Dev :=
  let ch := 8 * g + j
  let t : Int := ((w / fnom * 1000000000 + divRne (w % fnom * 1000000000) fnom : Nat) : Int)
  let v (ty x : Nat) : AcqIn := { ty := ty, idx := ch, k := w, time := t, rate := fnom, fnom := fnom, val := x, susp := susp }
  if c.winCount = 0 then acqPush (v 3 fNaN) (acqPush (v 2 fNaN) (d.setFlag (FLT_CH_STAT_window_missing ch) true))
  else
    let pk := fMul (rnInt c.winMax) u
    let rms := fMul (rnSqrtQ c.winSq c.winCount) u
    let d := (d.set (FLT_CH_PEAK ch) pk).set (FLT_CH_RMS ch) rms
    acqPush (v 3 rms) (acqPush (v 2 pk) (d.setFlag (FLT_CH_STAT_window_missing ch) false))

/-- The rounded integer square root. -/
def isqrtRound (v : Nat) : Nat := let r := Nat.sqrt v; if r * r + r < v then r + 1 else r

/-- The odd integer nearest a / b; the larger at a tie. -/
def oddNearest (a b : Nat) : Nat := let k := a / b; if k % 2 = 1 then k else k + 1

/-- A second of the monitor ends: the ratio, the run and the alarm (R162). -/
def ssbClose (g j m1 m2 : Nat) (s : SsbSt) (c : ChanSt) (d : Dev) : ChanSt × Dev :=
  let ch := 8 * g + j
  if s.spoiled || s.count = 0 then (c, d)
  else
    let ratio := if s.sumE = 0 then 0 else rnSqrtQ (s.sumB * s.count) ((m1 * m2 * s.sumE) * (m1 * m2 * s.sumE))
    let above := fLt s.thr ratio
    let run := if above != c.alarm then c.run + 1 else 0
    let flip := s.persist ≤ run && 0 < run
    let c' := { c with run := if flip then 0 else run, alarm := if flip then above else c.alarm }
    let d := (d.set (FLT_CH_SSB ch) ratio).set (FLT_CH_STAT_ssb_run ch) (min c'.run 255)
    let d := d.setFlag (FLT_CH_STAT_ssb_alarm ch) c'.alarm
    (c', if flip && above then raiseMs 56 d else d)

/-- A write of FLT_GRPg_SSB_THR or _SSB_PER comes: what is in force stays so until the end of the second. -/
def ssbNote (g : Nat) (d : Dev) : Dev :=
  if (lookup g d.flt.ssb).any (fun x => x.1 == d.sec) then d
  else { d with flt := { d.flt with
    ssb := insertKey g (d.sec, d.get (FLT_GRP_SSB_THR g), d.get (FLT_GRP_SSB_PER_persist g)) d.flt.ssb } }

/-- thr and persist of a second of the monitor: a write applies from the second after it. -/
def Dev.ssbCfg (d : Dev) (g sec : Nat) : Nat × Nat :=
  match lookup g d.flt.ssb with
  | some (s, thr, per) => if sec ≤ s then (thr, per) else (d.get (FLT_GRP_SSB_THR g), d.get (FLT_GRP_SSB_PER_persist g))
  | none => (d.get (FLT_GRP_SSB_THR g), d.get (FLT_GRP_SSB_PER_persist g))

/-- An envelope value enters the monitor (R162). -/
def ssbStep (g j : Nat) (e : Ent) (b : Bank) (v : EnvV) (c : ChanSt) (d : Dev) : ChanSt × Dev :=
  let m1 := oddNearest e.svRate (b.d1 * e.fnom)
  let m2 := oddNearest e.svRate (b.d1 * 5)
  let env := (v :: c.env).take m2
  let c := { c with env := env }
  if !d.flag (FLT_GRP_CTRL_ssb_en g) || env.length < m2 then (c, d)
  else
    let mid := (m2 - 1) / 2
    let i := env.getD mid v
    let s1 := (((env.drop (mid - (m1 - 1) / 2)).take m1).map EnvV.e).sum
    let s2 := (env.map EnvV.e).sum
    let num : Int := (m2 : Int) * s1 - (m1 : Int) * s2
    let sec := i.time / 1000000000
    let cfg := d.ssbCfg g (natOf sec)
    let fresh : SsbSt := { sec := sec, spoiled := false, thr := cfg.1, persist := cfg.2 }
    let (cur, c, d) : SsbSt × ChanSt × Dev := match c.ssb with
      | none => ({ fresh with spoiled := true }, c, d)
      | some s => if s.sec = sec then (s, c, d) else
        let (c, d) := ssbClose g j m1 m2 s c d
        (fresh, c, d)
    let cur := { cur with sumB := cur.sumB + (num * num).toNat, sumE := cur.sumE + i.e, count := cur.count + 1, spoiled := cur.spoiled || !i.good }
    ({ c with ssb := some cur }, d)

/-! ## Fast phasors (R160) -/

/-- Channels of freq_src. -/
def Dev.freqChans (d : Dev) (g : Nat) : List Nat := if d.flag (FLT_GRP_CTRL_freq_src g) then [0, 1, 2] else [4, 5, 6]

/-- A fast emission at sample `m` of times t(m − Nc + 1) and t(m). With a missing channel Xf is missing (R146), and with it what is formed
from it. -/
def fastEmit (g : Nat) (e : Ent) (t0 t1 : Int) (d : Dev) : Dev :=
  let x := d.fgroup g
  let nc := e.svRate / e.fnom
  let b := d.detBank g
  let ph := (d.freqChans g).map (fun j =>
    let c := x.chans.getD j {}
    let s := (c.demod.take nc).foldl (fun (a : CInt) z => ⟨a.re + z.re, a.im + z.im⟩) {}
    let k := fDiv (d.qOf b j) (rnInt nc)
    (fMul (rnInt s.re) k, fMul (rnInt s.im) k))
  let miss := (d.freqChans g).any (fun j => decide (3 ≤ (x.chans.getD j {}).missRun))
  let xf := if miss then missing else posSeq (ph.getD 0 (0, 0)) (ph.getD 1 (0, 0)) (ph.getD 2 (0, 0))
  let back := x.fast.getD 3 { group := g, time := 0, xr := 0, xi := 0, vs := 0, ff := 0, rf := 0, stat := 7, miss := false }
  let vs := if miss || back.miss then fNaN else angleTo xf (back.xr, back.xi)
  let ff := if fIsNaN vs then fNaN else fAdd (rnInt e.fnom) (fMul vs (rnOverPi e.fnom 2))
  let rf := if fIsNaN ff || fIsNaN back.ff then fNaN else fMul (fSub ff back.ff) (rnInt e.fnom)
  let k := x.fastRun
  let stat := b2n (k < 4) + b2n (k < 8) * 2 + b2n (k < 12) * 4
  let o : FastOut := { group := g, time := natOf (divHalfEven (t0 + t1) 2), xr := xf.1, xi := xf.2, vs := vs, ff := ff, rf := rf, stat := stat, miss := miss }
  let d := d.putFgroup g { x with fast := (o :: x.fast).take 8, fastRun := k + 1 }
  let d := (((d.set (FLT_FAST_VS g) vs).set (FLT_FAST_FF g) ff).set (FLT_FAST_RF g) rf).set (FLT_FAST_STAT g) stat
  { d with sch := { d.sch with inbox := d.sch.inbox ++ [.fast o d.now d.time.elapsed] } }

/-! ## A sample (R142, R157) -/

/-- The time of sample index `i` of a group: as processed, or by its index, or by its distance from the sample at hand. -/
def sampleTime (marks : List Mark) (rate : Nat) (s : Sample) (i : Int) : Int :=
  match marks.find? (fun m => (m.index : Int) == i && m.rate == rate) with
  | some m => m.time
  | none =>
    if 1 ≤ s.sync then i / rate * 1000000000 + (svOffset rate (natOf (i % rate)) : Nat)
    else s.time - (divRne (natOf ((s.index : Int) - i) * 1000000000) rate : Nat)

/-- One channel takes one sample: gaps and fills (R157), the chains, and the detectors. Answers the channel, the mark bits (filled, gone),
the saturations, the outputs of both chains, and the device. -/
structure ChanOut where
  chan : ChanSt
  filled : Bool
  gone : Bool
  sat : Nat
  ya : Option CInt
  yb : Option CInt
  dev : Dev

/-- Channel `j` of group `g` takes sample `s`. -/
def chanStep (g : Nat) (e : Ent) (fading : Bool) (ba bn : Bank) (s : Sample) (tra trn : Int) (tenv : Int) (present : Bool) (j : Nat) (c : ChanSt) (d : Dev) : ChanOut :=
  let miss := bitAt s.missing j
  let back := !miss && decide (3 ≤ c.missRun)
  let c := if back then chanReset ba c else c
  let d := if back then resetNote g d else d
  let x := if miss then c.last.getD 0 else s.vals.getD j 0
  let run := if miss then c.missRun + 1 else 0
  let filled := miss && decide (run ≤ 2)
  let gone := miss && decide (3 ≤ run)
  let d := if filled then raiseMs 57 (d.inc (FLT_GRP_INTERP g)) else d
  let c := { c with last := if miss then c.last else some x, missRun := run }
  let oa := chainStep d ba e.fnom s.index tra j x c.a
  let ob := if fading then chainStep d bn e.fnom s.index trn j x c.b else oa
  let r := ob.r
  let nc := e.svRate / e.fnom
  let c := { c with a := oa.st, b := if fading then ob.st else c.b, demod := (ob.dm :: c.demod).take nc }
  let c := if present then { c with winCount := c.winCount + 1, winSq := c.winSq + (r * r).toNat, winMax := max c.winMax r.natAbs } else c
  let (c, d) := match ob.z with
    | some z => ssbStep g j e bn { time := tenv, e := isqrtRound ((z.re * z.re + z.im * z.im).toNat), good := c.unsettled == 0 && !gone } c d
    | none => (c, d)
  { chan := c, filled := filled, gone := gone, sat := oa.sat + (if fading then ob.sat else 0), ya := oa.y, yb := ob.y, dev := d }

/-- A group processes one sample index. -/
def groupSample (g : Nat) (src : Nat × Ent) (s : Sample) (real : Bool) (d : Dev) : Dev :=
  let e := src.2
  let x := d.fgroup g
  let fading := x.fade.isSome
  let ba := d.activeBank g
  let bn := d.detBank g
  let n := s.index
  let tm (i : Int) : Int := if i = n then s.time else sampleTime x.marks e.svRate s i
  let tra := tm ((n : Int) - ba.gr)
  let trn := tm ((n : Int) - bn.gr)
  let tenv := tm ((n : Int) - (bn.n - 1 + (bn.l1 - 1)) / 2)
  let d := forN 8 (fun j d =>
    let x := if bitAt s.missing j then fNaN else fMul (rnInt (s.vals.getD j 0)) (d.unit ba j)
    acqPush { ty := 1, idx := 8 * g + j, k := n, time := s.time, rate := e.svRate, fnom := e.fnom, val := x, susp := s.sync == 0 } d) d
  -- the cycle window of the rank output
  let w := windowOf e.fnom trn
  let d := match x.window with
    | some v => if v < w then (x.chans.zip (List.range 8)).foldl (fun d p =>
          let d := windowPublish g p.2 e.fnom v (s.sync == 0) (d.unit bn p.2) p.1 d
          if v + 1 < w then d.setFlag (FLT_CH_STAT_window_missing (8 * g + p.2)) true else d) d else d
    | none => d
  let x := if x.window = some w then x else { x with window := some w, chans := x.chans.map (fun c => { c with winCount := 0, winSq := 0, winMax := 0 }) }
  let isPresent (j : Nat) : Bool :=
    if bn.gr = 0 then !bitAt s.missing j
    else match x.marks.find? (fun m => m.index + bn.gr == n && !m.cut) with
      | some m => !bitAt m.filled j && !bitAt m.gone j
      | none => false
  let (chans, filled, gone, sat, ys, d) := (x.chans.zip (List.range 8)).foldl
    (fun (r : List ChanSt × Nat × Nat × Nat × List (Option CInt × Option CInt) × Dev) p =>
      let o := chanStep g e fading ba bn s tra trn tenv (isPresent p.2) p.2 p.1 r.2.2.2.2.2
      (r.1 ++ [o.chan], r.2.1 + b2n o.filled * 2 ^ p.2, r.2.2.1 + b2n o.gone * 2 ^ p.2, r.2.2.2.1 + o.sat, r.2.2.2.2.1 ++ [(o.ya, o.yb)], o.dev))
    ([], 0, 0, 0, [], d)
  let d := if sat = 0 then d else raiseMs 55 (d.add (FLT_GRP_SAT g) sat)
  let wasReset := (d.freqChans g).any (fun j => decide (3 ≤ (x.chans.getD j {}).missRun) && !bitAt s.missing j)
  let mk : Mark := { index := n, rate := e.svRate, time := s.time, sync := if real && s.missing != 255 then s.sync else 2, test := s.test, filled := filled, gone := gone, quest := if real then s.quest else 0 }
  let marks := (mk :: x.marks).take (2 * max ba.g bn.g + e.svRate / e.fnom + 2)
  let x := { x with chans := chans, marks := marks, sat := x.sat || sat != 0,
                    fast := if wasReset then [] else x.fast, fastRun := if wasReset then 0 else x.fastRun }
  let d := d.putFgroup g x
  -- fast phasors
  let nc := e.svRate / e.fnom
  let d := if d.flag (FLT_GRP_CTRL_fast_en g) && 4 ≤ nc && (n + 1) % (nc / 4) = 0 then fastEmit g e (tm ((n : Int) - nc + 1)) s.time d else d
  -- the output that falls due
  if ys.all (fun y => y.1.isSome) then
    let x := d.fgroup g
    let old := (ys.zip (List.range 8)).map (fun p => phasorOf (d.qOf ba p.2) (p.1.1.getD {}))
    let new := (ys.zip (List.range 8)).map (fun p => phasorOf (d.qOf bn p.2) (p.1.2.getD {}))
    let ph := match x.fade with
      | some f =>
        let w := rnQ ((f.pos + 1 : Nat) : Int) (f.len + 1)
        (old.zip new).map (fun p => cAdd (cScale (fSub fOne w) p.1) (cScale w p.2))
      | none => old
    let span := marks.filter (fun m => decide (n ≤ m.index + 2 * ba.g) && !m.cut)
    let uns := mask8 (fun j => decide (0 < (x.chans.getD j {}).unsettled))
    let miss := mask8 (fun j => decide (3 ≤ (x.chans.getD j {}).missRun))
    let o : PhasorOut := { time := tm ((n : Int) - ba.g), ph := withSequences ph, miss := maskSequences miss, uns := maskSequences uns,
                           interp := span.foldl (fun a m => Nat.lor a m.filled) 0, quest := span.foldl (fun a m => Nat.lor a m.quest) 0,
                           test := span.any Mark.test, sync := span.foldl (fun a m => min a m.sync) 2, fade := x.fade.isSome, sat := x.sat }
    let d := d.putFgroup g { x with sat := false, chans := x.chans.map (fun c => { c with unsettled := c.unsettled - 1 }) }
    let d := outputStep g src o d
    match (d.fgroup g).fade with
    | some f =>
      let d := (d.putFgroup g { d.fgroup g with fade := some { f with pos := f.pos + 1 } }).set (FLT_GRP_SWAPST_fade_pos g) (f.pos + 1)
      if f.pos + 1 = f.len then fadeEnd g d else d
    | none => d
  else d

/-- The lane takes the oldest sample (R142, R149, R157): a held request first, then a gap is filled or resets the group. -/
def filterSample (d : Dev) : Dev :=
  match d.flt.queue with
  | [] => d
  | s :: q =>
    let d := { d with flt := { d.flt with queue := q } }
    let g := s.group
    match d.groupSrc g with
    | none => d
    | some src =>
      if d.get (FLT_GRP_CTRL_state g) != 1 || !d.fltBound g then d
      else
        let d := swapHeld g (passTo s.arr d)
        let gap := match (d.fgroup g).marks with
          | [] => 0
          | m :: _ => if m.rate = src.2.svRate then s.index - m.index - 1 else 0
        let d := if 2 < gap then groupReset g d
          else forN gap (fun i d =>
            let n := s.index - gap + i
            let t := sampleTime [] src.2.svRate s n
            groupSample g src { s with index := n, time := t, missing := 255, quest := 0, test := false } false d) d
        groupSample g src s true d

/-! ## Enabling and disabling (R159) -/

/-- An enable of a group that is OFF. The alarm of the envelope monitor and its run count stand on, as FLT_CHc shows them (R162). -/
def groupOpen (g : Nat) (d : Dev) : Dev :=
  let c := fltCode g (d.get (FLT_GRP_CTRL_bank g)) none d
  let d := d.set (FLT_GRP_CTRL_result g) c
  if c != 0 then raiseMs 52 (d.setFlag (FLT_GRP_CTRL_enable g) false)
  else
    let d := (d.set (FLT_GRP_CTRL_state g) 1).setFlag (FLT_GRP_CTRL_enable g) true
    let chans := (d.fgroup g).chans.map (fun c => { alarm := c.alarm, run := c.run })
    groupReset g (fltShape g (d.putFgroup g { chans := chans }))

/-- enable written as 1. -/
def groupEnable (g : Nat) (d : Dev) : Dev :=
  let st := d.get (FLT_GRP_CTRL_state g)
  if !d.fltBound g then d
  else if st = 0 then groupOpen g d
  else if st = 2 then (d.setFlag (FLT_GRP_CTRL_enable g) true).setFlag (FLT_GRP_CTRL_enable_pending g) true
  else d

/-- A group enters DISABLING: a running fade ends, and a held request is discarded. -/
def groupStop (g : Nat) (d : Dev) : Dev :=
  let d := d.set (FLT_GRP_CTRL_state g) 2
  let d := if (d.fgroup g).fade.isSome then fadeEnd g d else d
  heldShow g (d.putFgroup g { d.fgroup g with held := none })

/-- enable written as 0. -/
def groupDisable (g : Nat) (d : Dev) : Dev :=
  if !d.fltBound g then d
  else
    let d := (d.setFlag (FLT_GRP_CTRL_enable g) false).setFlag (FLT_GRP_CTRL_enable_pending g) false
    if d.get (FLT_GRP_CTRL_state g) = 1 then groupStop g d else d

/-- The output being computed is delivered: the one that waits for a successor, which no sample can bring any more, so that its frequency
and ROCOF are missing (R148, R159; DEDUCED, log entry 39). -/
def groupLast (g : Nat) (d : Dev) : Dev :=
  match (d.fgroup g).wait, d.groupSrc g with
  | some w, some src =>
    let d := deliverOut g src (d.fgroup g).prev w { w with miss := 1023 } d
    d.putFgroup g { d.fgroup g with wait := none }
  | _, _ => d

/-- A DISABLING group delivers its last output and reaches OFF; a pending enable is acted on. -/
def groupOff (g : Nat) (d : Dev) : Dev :=
  if d.get (FLT_GRP_CTRL_state g) = 2 then
    let d := groupLast g d
    let d := raiseMs 59 ((d.set (FLT_GRP_CTRL_state g) 0).setFlag (FLT_GRP_CTRL_enable g) (d.flag (FLT_GRP_CTRL_enable g) && d.flag (FLT_GRP_CTRL_enable_pending g)))
    let pend := d.flag (FLT_GRP_CTRL_enable_pending g)
    let d := d.setFlag (FLT_GRP_CTRL_enable_pending g) false
    if pend && d.flag (FLT_GRP_CTRL_enable g) then groupOpen g d else d
  else d

/-- A COMMIT took effect on the source of a group (R156, R159): the delays follow its rate (R147, R164), a move to REQUALIFYING resets the group, and an active bank that fails
RATE stops it. `moved` says that the source moved to REQUALIFYING. -/
def groupCommit (g : Nat) (moved : Bool) (d : Dev) : Dev :=
  if d.get (FLT_GRP_CTRL_state g) != 1 then d
  else
    let bad := match d.groupSrc g with | some (_, e) => rateBad (d.activeBank g) e | none => false
    if bad then raiseMs 52 (groupStop g (d.set (FLT_GRP_CTRL_result g) 2))
    else
      let d := fltShape g d
      if moved then groupReset g d else d

/-- A step of the counter resets every group that is ON (R156); its indices begin anew. -/
def filterAfterStep (d : Dev) : Dev :=
  forN 32 (fun g d => if d.get (FLT_GRP_CTRL_state g) = 1 then
    let d := groupReset g d
    d.putFgroup g { d.fgroup g with marks := [] } else d) d

/-- A write of a bank word (R152): discarded with wr_drop where the bank is in use. `off` is the offset within the bank windows. -/
def bankLocked (d : Dev) (off : Nat) : Bool :=
  let g := off / 0x4000
  let b := off / 0x2000 % 2
  d.get (FLT_GRP_CTRL_state g) != 0 && ((d.fgroup g).fade.isSome || b == d.get (FLT_GRP_CTRL_bank g))

/-- A write of FLT_GRPg_CTRL (R159). -/
def groupCtrlWrite (g v : Nat) (d : Dev) : Dev :=
  if !d.fltBound g then d
  else
    let d := if bitAt v 8 then d.setFlag (FLT_GRP_CTRL_wr_drop g) false else d
    let d := if d.get (FLT_GRP_CTRL_state g) = 0 then
        (((d.set (FLT_GRP_CTRL_bank g) (bits v 4 1)).set (FLT_GRP_CTRL_freq_src g) (bits v 5 1)).set (FLT_GRP_CTRL_fast_en g) (bits v 6 1)).set (FLT_GRP_CTRL_ssb_en g) (bits v 7 1)
      else if bits v 4 1 != d.get (FLT_GRP_CTRL_bank g) || bits v 5 1 != d.get (FLT_GRP_CTRL_freq_src g)
          || bits v 6 1 != d.get (FLT_GRP_CTRL_fast_en g) || bits v 7 1 != d.get (FLT_GRP_CTRL_ssb_en g) then
        d.setFlag (FLT_GRP_CTRL_wr_drop g) true
      else d
    if bitAt v 0 then groupEnable g d else groupDisable g d

end Sys2Proof.Machine
end

