-- ==== Sys2Proof/Machine/Det.lean ====
section
/-! DEFINITION. DET: the alarm state table, decisions, provisional alarms and their confirmation, acknowledgement, records and notice
frames (R227-R239). -/
namespace Sys2Proof.Machine

/-! ## The state table (R227) -/

/-- The 16-bit entry of point `p`. -/
def Dev.ast (d : Dev) (p : Nat) : Nat := if p % 2 = 0 then d.get (DET_AST_entry_even (p / 2)) else d.get (DET_AST_entry_odd (p / 2))

/-- Store an entry. -/
def Dev.putAst (p v : Nat) (d : Dev) : Dev := if p % 2 = 0 then d.set (DET_AST_entry_even (p / 2)) v else d.set (DET_AST_entry_odd (p / 2)) v

/-- The entries that are not zero: the register cells of DET_AST that are listed. -/
def Dev.astEntries (d : Dev) : List Nat :=
  (d.regs.filter (fun c => 0xB8000 ≤ c.1 && c.1 < 0xC0000)).flatMap (fun c => [c.2.toNat % 65536, c.2.toNat / 65536])

/-- The summaries of a class and the ALM pins that the table commands (R238, R239). -/
def detPublish (d : Dev) : Dev :=
  let es := d.astEntries
  let of (c : Nat) (i : Nat) : Nat := (es.filter (fun e => bits e 6 4 == c && bitAt e i)).length
  let d := forN 12 (fun c d =>
    ((d.set (DET_CLASS_STAT_active c) (of c 0)).set (DET_CLASS_STAT_latched c) (of c 1)).setFlag (DET_CLASS_STAT_unacked c) (of c 2 != 0)) d
  let pin (d : Dev) (k : Nat) : Bool := (List.range 12).any (fun c =>
    d.flag (DET_CLASS_CFG_alm_en c) && d.get (DET_CLASS_CFG_alm_pin c) == k
      && (if d.flag (DET_CLASS_CFG_alm_mode c) then d.get (DET_CLASS_STAT_latched c) != 0 else d.get (DET_CLASS_STAT_active c) != 0))
  let alm := (List.range 4).foldl (fun a k => a + b2n (pin d k) * 2 ^ k) 0
  (d.set DET_ALM_STAT_alm alm).setFlag DET_ALM_STAT_token d.acting

/-- ALM pin `k` is driven low (R235, R238). -/
def Dev.almLow (d : Dev) (k : Nat) : Bool := bitAt (d.get DET_ALM_STAT_alm) k && d.acting

/-! ## Records and notice frames (R231, R236) -/

/-- An alarm record with its class. -/
structure AlmRec where
  cls : Nat
  bytes : List Byte
  deriving DecidableEq, Repr

/-- What an alarm record is formed from. -/
structure AlmData where
  code : Nat
  flags : Nat
  inst : Nat
  point : Nat
  cls : Nat
  instant : Nat
  value : Nat := fNaN

/-- Form one record: seq counts it. -/
def almForm (a : AlmData) (d : Dev) : AlmRec × Dev :=
  let bs := toLe 2 a.code ++ toLe 2 a.flags ++ toLe 2 a.inst ++ toLe 1 a.point ++ toLe 1 a.cls ++ toLe 8 a.instant ++ toLe 8 d.now
    ++ toLe 4 a.value ++ toLe 4 (d.get DET_SEQ)
  ({ cls := a.cls, bytes := bs }, d.incWrap DET_SEQ)

/-- Groups of at most eight. -/
def chunks8 {α : Type} : Nat → List α → List (List α)
  | 0, _ => []
  | _ + 1, [] => []
  | n + 1, xs => xs.take 8 :: chunks8 n (xs.drop 8)

/-- Send one notice frame, or discard it where the unit does not act (R235, R236). -/
def noticeSend (rs : List AlmRec) (d : Dev) : Dev :=
  let p := d.get DET_NOTICE_CFG_port
  let payload := [0x41, 0x51, 0x41, 0x4E, 0x01] ++ toLe 1 rs.length ++ toLe 2 (d.get DET_NOTICE_CFG_unit_id) ++ toLe 4 d.det.frameSeq
    ++ toLe 8 d.now ++ (rs.map AlmRec.bytes).flatten
  let udp := udpPacket (d.get DET_NOTICE_CFG_dscp) (d.get DET_NOTICE_UDP_src) (d.get DET_NOTICE_UDP_dst) (toLe 4 (d.get DET_NOTICE_SIP))
    (toLe 4 (d.get DET_NOTICE_DIP)) payload
  let bs := d.frame p (macBytes (d.get DET_NOTICE_DMAC_LO) (d.get DET_NOTICE_DMAC_HI_value)) (d.vlanTag p 1) 0x0800 udp
  let d := { d with det := { d.det with frameSeq := (d.det.frameSeq + 1) % 2 ^ 32 } }
  if d.acting then
    let n := d.get DET_NOTICE_CFG_repeat
    let d := if n = 0 then d
      else { d with det := { d.det with repeats := d.det.repeats ++ [{ port := p, bytes := bs, left := n, due := d.now + 1000000 }] } }
    ethSend p { kind := .alarm, bytes := bs, express := true } d
  else d.inc DET_NOTICE_NOT_SENT

/-- The records of one result go to the queues of their classes and to notice frames (R231, R236). -/
def almOut (rs : List AlmRec) (d : Dev) : Dev :=
  let d := forL rs (fun r d => if d.flag (DET_CLASS_CFG_rec_en r.cls) then queueRecord (d.get (DET_CLASS_CFG_queue r.cls)) r.bytes d else d) d
  let ns := rs.filter (fun r => d.flag (DET_CLASS_CFG_notice_en r.cls))
  if d.flag DET_NOTICE_CFG_en then forL (chunks8 ns.length ns) noticeSend d else d

/-- The next due repeat of a notice frame is sent (R236); a unit that has lost the token discards it (R235). -/
def noticeRepeat (d : Dev) : Dev :=
  match d.det.repeats with
  | [] => d
  | x :: xs =>
    let t := xs.foldl (fun a y => min a y.due) x.due
    atTime t (fun d =>
      let (now, later) := d.det.repeats.partition (fun y => decide (y.due ≤ t))
      let again := (now.map (fun y => { y with left := y.left - 1, due := y.due + 1000000 })).filter (fun y => decide (0 < y.left))
      let d := { d with det := { d.det with repeats := later ++ again } }
      forL now (fun y d => if d.acting then ethSend y.port { kind := .alarm, bytes := y.bytes, express := true } d
        else d.inc DET_NOTICE_NOT_SENT) d) d

/-! ## Pending points (R232-R234) -/

/-- Show how many points are pending. -/
def detPendShow (d : Dev) : Dev := d.set DET_PEND_pending d.det.pend.length

/-- Resolve a pending point: ALARM_CONFIRM, and the confirm field while the set it resolves is the latest (R233). `extra` holds the
flags UNCHANGED, DISABLED and RESTRUCT. -/
def pendResolve (x : PendPoint) (outcome extra : Nat) (acc : List AlmRec × Dev) : List AlmRec × Dev :=
  let (rs, d) := acc
  let (r, d) := almForm {
    code := 0x0903, flags := 1 + outcome * 2 + b2n x.memLost * 32 + extra, inst := x.inst, point := x.point % 16
    cls := x.cls, instant := x.g } d
  let d := if x.current then d.putAst x.point (putBits (d.ast x.point) 4 2 outcome) else d
  (rs ++ [r], d)

/-- Resolve every pending point that `sel` selects, in the order in which they were set, with an outcome each. -/
def pendResolveAll (sel : PendPoint → Bool) (f : PendPoint → Nat × Nat) (acc : List AlmRec × Dev) : List AlmRec × Dev :=
  let (rs, d) := acc
  let (now, rest) := d.det.pend.partition sel
  forL now (fun x acc => pendResolve x (f x).1 (f x).2 acc) (rs, detPendShow { d with det := { d.det with pend := rest } })

/-- The latest result note for an instance and a gathering. -/
def Dev.resNote (d : Dev) (i n g : Nat) : Option ResNote := d.det.notes.find? (fun x => x.inst == i && x.grid == n && x.g == g)

/-- Point bit of a re-run as an outcome: 1 SUPPORTED, 2 NOT_SUPPORTED. -/
def pointOutcome (bits p : Nat) : Nat := if bitAt bits (p % 16) then 1 else 2

/-- A point whose gathering has its arrived_final resolves at once when the latest result has seen as many sources (R232), else
it waits for a re-run for confirm_ms. -/
def pendFinal (x : PendPoint) (arrived : Nat) (acc : List AlmRec × Dev) : List AlmRec × Dev :=
  let (rs, d) := acc
  match d.resNote x.inst x.grid x.g with
  | some n =>
    if n.arrived = arrived then
      if n.eval then pendResolve x 1 8 (rs, d) else pendResolve x (pointOutcome n.bits x.point) 0 (rs, d)
    else (rs, detPendShow { d with det := { d.det with
      pend := d.det.pend ++ [{ x with until_ := some (d.now + d.get DET_CFG_confirm_ms * 1000000) }] } })
  | none => (rs, detPendShow { d with det := { d.det with
      pend := d.det.pend ++ [{ x with until_ := some (d.now + d.get DET_CFG_confirm_ms * 1000000) }] } })

/-- How many arrived_final values DET keeps: far more than any decision can lag (log entry 18). -/
def finalsKept : Nat := 4096

/-- The Collator gives DET the present count of a gathering at FINAL (R120, R232). -/
def detFinalOne (nt : Notice) (d : Dev) : Dev :=
  let d := { d with det := { d.det with finals := (FinalNote.mk nt.grid nt.g nt.arrived :: d.det.finals).take finalsKept } }
  let (mine, rest) := d.det.pend.partition (fun x => x.grid == nt.grid && x.g == nt.g && x.until_.isNone)
  let d := { d with det := { d.det with pend := rest } }
  let (rs, d) := forL mine (fun x acc => pendFinal x nt.arrived acc) ([], detPendShow d)
  if mine.isEmpty then d else detPublish (almOut rs d)

/-- Every gathering that became FINAL is told to DET, in order. -/
def detFinals (d : Dev) : Dev :=
  let fs := d.col.finals
  forL fs detFinalOne { d with col := { d.col with finals := [] } }

/-- confirm_ms passes without a re-run: the points that have waited longest resolve as UNVERIFIED (R232). -/
def confirmTimeout (d : Dev) : Dev :=
  match d.det.pend.filterMap (fun x => x.until_) with
  | [] => d
  | t :: ts =>
    let due := ts.foldl min t
    atTime due (fun d =>
      let (rs, d) := pendResolveAll (fun x => match x.until_ with | some u => decide (u ≤ due) | none => false) (fun _ => (3, 0)) ([], d)
      detPublish (almOut rs d)) d

/-! ## Decisions (R228) -/

/-- A point is set: active, latched, unacked, its class, and provisional; a provisional set becomes pending (R228, R232, R233). -/
def pointSet (r : DetResult) (b : Nat) (acc : List AlmRec × Dev) : List AlmRec × Dev :=
  let (rs, d) := acc
  let p := 16 * r.inst + b
  let d := d.putAst p (7 + b2n r.prov * 8 + r.cls * 64)
  let d := { d with det := { d.det with pend := d.det.pend.map (fun x => if x.point = p then { x with current := false } else x) } }
  let (a, d) := almForm {
    code := 0x0901, flags := b2n r.prov + b2n r.memLost * 32 + b2n r.isLocal * 64, inst := r.inst, point := b
    cls := r.cls, instant := r.instant, value := (lookup b r.vals).getD fNaN } d
  let d := raiseMs (88 + r.cls) { d with acq := { d.acq with sets := d.acq.sets ++ [(p, r.cls)] } }
  let rs := rs ++ [a]
  if r.prov then
    let x : PendPoint := { point := p, inst := r.inst, grid := r.grid, g := r.instant, cls := r.cls, memLost := r.memLost }
    if 1024 ≤ d.det.pend.length then pendResolve x 3 0 (rs, d.inc DET_PEND_overflow)
    else match d.det.finals.find? (fun f => f.grid == r.grid && f.g == r.instant) with
      | some f => pendFinal x f.arrived (rs, d)
      | none => (rs, detPendShow { d with det := { d.det with pend := d.det.pend ++ [x] } })
  else (rs, d)

/-- A point is cleared; the record carries the class the entry was set with. -/
def pointClear (inst b flags instant value : Nat) (acc : List AlmRec × Dev) : List AlmRec × Dev :=
  let (rs, d) := acc
  let p := 16 * inst + b
  let e := d.ast p
  let d := d.putAst p (setBit e 0 false)
  let (a, d) := almForm { code := 0x0902, flags := flags, inst := inst, point := b, cls := bits e 6 4, instant := instant, value := value } d
  (rs ++ [a], d)

/-- DET takes a note of a result (R232); notes of gatherings that are neither held nor pending are dropped. -/
def detNote (r : DetResult) (d : Dev) : Dev :=
  let held (x : ResNote) : Bool := (d.grid x.grid).held.any (fun y => y.g == x.g) || d.det.pend.any (fun y => y.grid == x.grid && y.g == x.g)
  let others := d.det.notes.filter (fun x => held x && !(x.inst == r.inst && x.grid == r.grid && x.g == r.instant))
  { d with det := { d.det with
    notes := { inst := r.inst, grid := r.grid, g := r.instant, arrived := r.arrived, eval := !r.rerun, bits := r.bits } :: others,
    last := insertKey r.inst (r.instant, r.isLocal) d.det.last } }

/-- The instance of a result was re-initialised: its pending points resolve as UNVERIFIED with RESTRUCT (R234). -/
def pendRestruct (i : Nat) (acc : List AlmRec × Dev) : List AlmRec × Dev :=
  pendResolveAll (fun x => x.inst == i) (fun _ => (3, 4096)) acc

/-- DET handles one result (R228, R232, R234). -/
def detHandle (r : DetResult) (d : Dev) : Dev :=
  if r.signal then
    let (rs, d) := pendRestruct r.inst ([], d)
    detPublish (almOut rs d)
  else if 11 < r.cls then
    if r.restruct then
      let (rs, d) := pendRestruct r.inst ([], d)
      detPublish (almOut rs d)
    else d
  else
    let d := detNote r d
    if r.rerun then
      let sel (x : PendPoint) : Bool := x.inst == r.inst && x.grid == r.grid && x.g == r.instant && x.until_.isSome && r.final
      let (rs, d) := pendResolveAll sel (fun x => (pointOutcome r.bits x.point, 0)) ([], d)
      detPublish (almOut rs d)
    else
      let old := d.det.pend.filter (fun x => x.inst == r.inst)
      let acc := forN 16 (fun b acc =>
        let active := bitAt (acc.2.ast (16 * r.inst + b)) 0
        if bitAt r.bits b && !active then pointSet r b acc
        else if !bitAt r.bits b && active then
          pointClear r.inst b (b2n r.memLost * 32 + b2n r.isLocal * 64) r.instant ((lookup b r.vals).getD fNaN) acc
        else acc) ([], d)
      let (rs, d) := if r.restruct then
          pendResolveAll (fun x => old.any (fun y => y.point == x.point && y.grid == x.grid && y.g == x.g)) (fun _ => (3, 4096)) acc
        else acc
      detPublish (almOut rs d)

/-- DET_RESULT: the oldest result that waits. -/
def detResult (d : Dev) : Dev :=
  match d.det.inbox with
  | [] => d
  | r :: rs => detHandle r { d with det := { d.det with inbox := rs } }

/-- Every result that waits, in order. -/
def detDrain (d : Dev) : Dev := forL d.det.inbox (fun _ d => detResult d) d

/-- Give DET a result. -/
def detGive (r : DetResult) (d : Dev) : Dev := { d with det := { d.det with inbox := d.det.inbox ++ [r] } }

/-- An instance reached OFF: its active points clear with DISABLED, then its pending points resolve as UNVERIFIED with DISABLED
(R229, R234). -/
def detInstOff (i : Nat) (d : Dev) : Dev :=
  let (t, isLocal) := (lookup i d.det.last).getD (0, false)
  let acc := forN 16 (fun b acc => if bitAt (acc.2.ast (16 * i + b)) 0 then pointClear i b (16 + b2n isLocal * 64) t fNaN acc else acc) ([], d)
  let (rs, d) := pendResolveAll (fun x => x.inst == i) (fun _ => (3, 16)) acc
  detPublish (almOut rs d)

/-! ## Acknowledgement (R230) -/

/-- An entry acknowledged: unacked clears, and latched where active is 0. -/
def ackEntry (e : Nat) : Nat := let e := setBit e 2 false; if bitAt e 0 then e else setBit e 1 false

/-- ACK_POINT by a master. -/
def ackPoint (m p : Nat) (d : Dev) : Dev :=
  let p := p % 16384
  let d := d.putAst p (ackEntry (d.ast p))
  let (r, d) := almForm { code := 0x0904, flags := m * 128, inst := p / 16, point := p % 16, cls := bits (d.ast p) 6 4, instant := d.now } d
  detPublish (almOut [r] d)

/-- ACK_CLASS by a master; a number that names no class changes nothing. -/
def ackClass (m c : Nat) (d : Dev) : Dev :=
  if 11 < c then d
  else
    let cells := d.regs.filter (fun x => 0xB8000 ≤ x.1 && x.1 < 0xC0000)
    let one (e : Nat) : Nat := if bits e 6 4 = c then ackEntry e else e
    let d := forL cells (fun x d =>
      let w := (d.word x.1).toNat
      d.putWord x.1 (BitVec.ofNat 32 (one (w % 65536) + one (w / 65536) * 65536))) d
    let (r, d) := almForm { code := 0x0904, flags := m * 128, inst := 0xFFFF, point := 0xFF, cls := c, instant := d.now } d
    detPublish (almOut [r] d)

/-- DET_CMD: one command per write. -/
def detCmd (m v : Nat) (d : Dev) : Dev :=
  match bits v 0 4 with
  | 1 => ackPoint m (bits v 4 14) d
  | 2 => ackClass m (bits v 4 14) d
  | _ => d

end Sys2Proof.Machine
end

