-- ==== Sys2Proof/Machine/Goose.lean ====
section
/-! DEFINITION. GOOSE: subscriptions and publications of the logic engine (R253-R255). The frame layout is that of IEC 61850-8-1
(PRESUMED, log entry 22). -/
namespace Sys2Proof.Machine

/-! ## Member values -/

/-- The member types. -/
inductive GType where
  | unused | bool | int32 | float32 | bitstring | quality | time | alarm
  deriving DecidableEq, Repr

/-- A type code. -/
def gType (c : Nat) : GType :=
  match c with
  | 1 => .bool | 2 => .int32 | 3 => .float32 | 4 => .bitstring | 5 => .quality | 6 => .time | 7 => .alarm | _ => .unused

/-- A BER element. -/
def berTlv (tag : Nat) (v : List Byte) : List Byte :=
  let n := v.length
  BitVec.ofNat 8 tag :: (if n < 128 then toBe 1 n else if n < 256 then 0x81 :: toBe 1 n else 0x82 :: toBe 2 n) ++ v

/-- An integer in the fewest bytes. -/
def berInt (x : Int) : List Byte :=
  let fits (n : Nat) : Bool := -(2 ^ (8 * n - 1) : Nat) ≤ x && x < (2 ^ (8 * n - 1) : Nat)
  let n := if fits 1 then 1 else if fits 2 then 2 else if fits 3 then 3 else if fits 4 then 4 else if fits 5 then 5 else 9
  toBe n (ofInt (8 * n) x)

/-- Reverse the lowest `n` bits: the first bit of a bit string is the most significant bit of its first byte. -/
def revBits (n v : Nat) : Nat := (List.range n).foldl (fun a i => a * 2 + b2n (bitAt v i)) 0

/-- A bit string of `n` bits. -/
def berBits (n v : Nat) : List Byte :=
  let bytes := (n + 7) / 8
  let pad := 8 * bytes - n
  BitVec.ofNat 8 pad :: toBe bytes (revBits n v * 2 ^ pad)

/-- A device time as UtcTime under a utc_offset, without its quality: seconds and fraction. -/
def utcTime (utc : Int) (t : Nat) : List Byte :=
  let u := (t : Int) - utc * 1000000000
  toBe 4 (ofInt 32 (u / 1000000000)) ++ toBe 3 (min (divRne ((u % 1000000000).toNat * 2 ^ 24) 1000000000) (2 ^ 24 - 1))

/-- TimeQuality (R255). -/
def Dev.timeQuality (d : Dev) : Nat :=
  b2n (d.flag TBS_UTC_valid) * 128 + b2n (d.timeState == 0) * 64 + b2n (d.timeState != 3) * 32 + (if d.timeState = 3 then 10 else 31)

/-- The value of a member that a state compares: the part of the 8 bytes that its type uses. -/
def memberValue (t : GType) (v : Nat) : Nat :=
  match t with
  | .bool => b2n (v % 2 ^ 32 != 0)
  | .int32 => v % 2 ^ 32
  | .float32 => v % 2 ^ 32
  | .bitstring => let n := max 1 (min 32 (v / 2 ^ 32)); v % 2 ^ n + n * 2 ^ 32
  | .quality => v % 2 ^ 13
  | .time => v
  | .alarm => v % 2 ^ 12
  | .unused => 0

/-- A member as sent; a time is converted with the utc_offset of the state (R255). -/
def memberBytes (d : Dev) (utc : Int) (t : GType) (v : Nat) : List Byte :=
  match t with
  | .bool => berTlv 0x83 [BitVec.ofNat 8 v]
  | .int32 => berTlv 0x85 (berInt (toInt 32 v))
  | .float32 => berTlv 0x87 (8 :: toBe 4 v)
  | .bitstring => berTlv 0x84 (berBits (v / 2 ^ 32) (v % 2 ^ 32))
  | .quality => berTlv 0x84 (berBits 13 v)
  | .time => berTlv 0x91 (utcTime utc v ++ toBe 1 d.timeQuality)
  | .alarm => berTlv 0x84 (berBits 12 v)
  | .unused => []

/-- A member as received: its image value; none when it does not decode as its type. -/
def memberRead (d : Dev) (t : GType) (e : Nat × List Byte) : Option Nat :=
  let (tag, v) := e
  match t with
  | .bool => if tag = 0x83 && v.length = 1 then some (b2n (byteAt v 0 != 0)) else none
  | .int32 => if tag = 0x85 && 1 ≤ v.length && v.length ≤ 5 then
      let x := toInt (8 * v.length) (beAt v 0 v.length)
      if -(2 ^ 31 : Nat) ≤ x && x < (2 ^ 31 : Nat) then some (ofInt 32 x) else none
    else none
  | .float32 => if tag = 0x87 && v.length = 5 && byteAt v 0 = 8 then some (beAt v 1 4) else none
  | .bitstring =>
    let n := 8 * (v.length - 1) - byteAt v 0
    if tag = 0x84 && 2 ≤ v.length && byteAt v 0 ≤ 7 && 1 ≤ n && n ≤ 32 then
      some (revBits n (beAt v 1 (v.length - 1) / 2 ^ byteAt v 0) + n * 2 ^ 32)
    else none
  | .quality => if tag = 0x84 && v.length = 3 && byteAt v 0 = 3 then some (revBits 13 (beAt v 1 2 / 8) + 13 * 2 ^ 32) else none
  | .time => if tag = 0x91 && v.length = 8 then
      some (natOf (((beAt v 0 4 : Nat) + d.getI TBS_UTC_utc_offset) * 1000000000 + divRne (beAt v 4 3 * 1000000000) (2 ^ 24)) % 2 ^ 64)
    else none
  | .alarm => none
  | .unused => some 0

/-! ## Subscriptions (R253, R254) -/

/-- A subscription's state. -/
def Dev.sub (d : Dev) (s : Nat) : SubSt := (lookup s d.le.subs).getD {}

/-- Store it. -/
def Dev.putSub (s : Nat) (x : SubSt) (d : Dev) : Dev := { d with le := { d.le with subs := insertKey s x d.le.subs } }

/-- The types of a subscription's members. -/
def Dev.subTypes (d : Dev) (s : Nat) : List GType :=
  (List.range (d.get (LGE_GSUB_CTRL_n_mem s))).map (fun m => gType (bits (d.get (LGE_GSUB_TYPES s (m / 8))) (4 * (m % 8)) 4))

/-- The enabled subscription that a frame matches. -/
def Dev.matchSub (d : Dev) (port : Nat) (dst : List Byte) (appid : Nat) : Option Nat :=
  (List.range 64).find? (fun s => d.flag (LGE_GSUB_CTRL_en s) && bitAt (d.get (LGE_GSUB_CTRL_port_mask s)) port
    && d.get (LGE_GSUB_CTRL_appid s) == appid && macBytes (d.get (LGE_GSUB_DMAC_LO s)) (d.get (LGE_GSUB_DMAC_HI_value s)) == dst)

/-- The fields of a GOOSE PDU by tag; none where it is no PDU. -/
def goosePdu (apdu : List Byte) : Option (List (Nat × List Byte)) :=
  match berTake apdu with
  | some (0x61, v, _) => berList v.length v
  | _ => none

/-- An accepted frame's values, or none for a mismatch. -/
def gooseValues (d : Dev) (s : Nat) (fs : List (Nat × List Byte)) : Option (List Nat) :=
  let g (t : Nat) : Option Nat := (berGet fs t).map (fun v => beAt v 0 v.length)
  let ts := d.subTypes s
  match berGet fs 0xAB with
  | some data =>
    if g 0x88 = some (d.get (LGE_GSUB_CONFREV s)) && g 0x8A = some ts.length then
      match berList data.length data with
      | some es => if es.length = ts.length then allSome ((ts.zip es).map (fun x => memberRead d x.1 x.2)) else none
      | none => none
    else none
  | none => none

/-- GOOSE_RX: the oldest frame handed over. -/
def gooseRx (d : Dev) : Dev :=
  match d.eth.gooseIn with
  | [] => d
  | f :: rest =>
    let d := { d with eth := { d.eth with gooseIn := rest } }
    let b := f.bytes
    match d.matchSub f.port (slice b 0 6) (beAt b 14 2) with
    | none => d
    | some s =>
      let x := d.sub s
      let bad (d : Dev) : Dev := (d.inc LGE_GSUB_STAT_mismatch).putSub s { x with mismatch := true, valid := false }
      match goosePdu (b.drop 22) with
      | none => bad d
      | some fs =>
        let num (t : Nat) : Nat := ((berGet fs t).map (fun v => beAt v 0 v.length)).getD 0
        let test := num 0x87 != 0
        if test && !d.flag (LGE_GSUB_CTRL_accept_test s) then d.inc LGE_GSUB_STAT_test_drop
        else match gooseValues d s fs with
          | none => bad d
          | some vs =>
            let arr := natOf (f.stamp / 65536)
            d.putSub s {
              stNum := num 0x85 % 2 ^ 32, sqNum := num 0x86 % 2 ^ 32, arrival := arr, valid := true, stale := false, test := test
              sim := bitAt (beAt b 18 2) 15, nds := num 0x89 != 0, mismatch := false, vals := vs, expiry := some (arr + num 0x81 * 1000000) }

/-- GOOSE_STALE: timeAllowedtoLive of a subscription has elapsed. -/
def gooseStale (s : Nat) (d : Dev) : Dev :=
  match (d.sub s).expiry with
  | none => d
  | some t => atTime t (fun d => raiseMs 105 (d.putSub s { d.sub s with valid := false, stale := true, expiry := none })) d

/-- The 288 bytes of a subscription in the input image. -/
def subImage (x : SubSt) : List Byte :=
  toLe 4 x.stNum ++ toLe 4 x.sqNum ++ toLe 8 x.arrival
    ++ toLe 4 (b2n (x.valid && !x.mismatch) + b2n x.stale * 2 + b2n x.test * 4 + b2n x.sim * 8 + b2n x.nds * 16 + b2n x.mismatch * 32)
    ++ toLe 12 0 ++ (x.vals.map (toLe 8)).flatten

/-! ## Publications (R237, R255) -/

/-- A publication's state. -/
def Dev.pub (d : Dev) (b : Nat) : PubSt := (lookup b d.le.pubs).getD {}

/-- Store it. -/
def Dev.putPub (b : Nat) (x : PubSt) (d : Dev) : Dev := { d with le := { d.le with pubs := insertKey b x d.le.pubs } }

/-- The types of a publication's members. -/
def Dev.pubTypes (d : Dev) (b : Nat) : List GType :=
  (List.range (d.get (LGE_GPUB_CTRL_n_mem b))).map (fun m => gType (bits (d.get (LGE_GPUB_TYPES b (m / 8))) (4 * (m % 8)) 4))

/-- The ALARM member of a control block: bit c is the OR of the active bits of class c (R237). -/
def Dev.alarmMember (d : Dev) (b : Nat) : Nat :=
  (List.range 12).foldl (fun a c => a + b2n (d.flag (DET_CLASS_CFG_goose_en c) && d.get (DET_CLASS_CFG_goose_cb c) == b
    && d.get (DET_CLASS_STAT_active c) != 0) * 2 ^ c) 0

/-- The members of a control block as delivered. -/
def Dev.pubMembers (d : Dev) (b : Nat) : List Nat :=
  (d.pubTypes b).zipIdx.map (fun x =>
    let o := 0x40 + 0x100 * b + 8 * x.2
    if x.1 = .alarm then d.alarmMember b
    else memberValue x.1 (d.get (LGE_OUT (o / 4)) + 2 ^ 32 * d.get (LGE_OUT (o / 4 + 1))))

/-- The interval in ms to the next retransmission after `n` of them: at t_min, 2·t_min, 4·t_min … after the change, each interval at
most t_max. -/
def Dev.pubInterval (d : Dev) (b n : Nat) : Nat :=
  let t := d.get (LGE_GPUB_TIMING_t_min_ms b)
  min (if n = 0 then t else t * 2 ^ min (n - 1) 20) (d.get (LGE_GPUB_TIMING_t_max_ms b))

/-- Text of the GSTR words: ASCII, up to the first NUL. -/
def Dev.gstr (d : Dev) (b o n : Nat) : List Byte :=
  (((List.range 32).map (fun i => toLe 4 (d.get (LGE_GSTR b i)))).flatten.drop o |>.take n).takeWhile (fun c => c != 0)

/-- The frame of a publication's current state. -/
def Dev.gooseFrame (d : Dev) (b : Nat) (x : PubSt) : List Byte :=
  let p := d.get (LGE_GPUB_CTRL_port b)
  let ts := d.pubTypes b
  let data := ((ts.zip x.members).map (fun y => memberBytes d x.utc y.1 y.2)).flatten
  let num (t v : Nat) : List Byte := berTlv t (berInt v)
  let bool (t : Nat) (v : Bool) : List Byte := berTlv t [BitVec.ofNat 8 (b2n v)]
  let pdu := berTlv 0x61 (berTlv 0x80 (d.gstr b 0 64) ++ num 0x81 (2 * d.pubInterval b x.n) ++ berTlv 0x82 (d.gstr b 64 40)
    ++ berTlv 0x83 (d.gstr b 104 24) ++ berTlv 0x84 (utcTime x.utc x.t ++ toBe 1 d.timeQuality) ++ num 0x85 (d.get (LGE_GPUB_STNUM b))
    ++ num 0x86 (d.get (LGE_GPUB_SQNUM b)) ++ bool 0x87 (d.flag (LGE_GPUB_CTRL_test b)) ++ num 0x88 (d.get (LGE_GPUB_CONFREV b))
    ++ bool 0x89 false ++ num 0x8A (ts.filter (fun t => t != .unused)).length ++ berTlv 0xAB data)
  d.frame p (macBytes (d.get (LGE_GPUB_DMAC_LO b)) (d.get (LGE_GPUB_DMAC_HI_value b))) (d.vlanTag p 2) 0x88B8
    (toBe 2 (d.get (LGE_GPUB_CTRL_appid b)) ++ toBe 2 (8 + pdu.length) ++ toBe 4 0 ++ pdu)

/-- Compose, plan the next retransmission from the instant `t` that was planned for this one, and send where the unit acts and its
logic-driven outputs have started (R255, R299). -/
def gooseSend (b t : Nat) (d : Dev) : Dev :=
  let x := d.pub b
  let bs := d.gooseFrame b x
  let d := d.putPub b { x with due := some (t + d.pubInterval b x.n * 1000000) }
  if d.acting && d.le.outOk then ethSend (d.get (LGE_GPUB_CTRL_port b)) { kind := .goose, bytes := bs, express := true } d else d

/-- A new state of a publication: stNum advances, sqNum is 0, and it is sent at once. -/
def gooseState (b : Nat) (ms : List Nat) (d : Dev) : Dev :=
  let st := if (d.pub b).begun then (d.get (LGE_GPUB_STNUM b) + 1) % 2 ^ 32 else 1
  let d := (d.set (LGE_GPUB_STNUM b) st).set (LGE_GPUB_SQNUM b) 0
  gooseSend b d.now (d.putPub b { begun := true, members := ms, t := d.now, utc := d.getI TBS_UTC_utc_offset })

/-- A publication is enabled with a member count in its range. -/
def Dev.pubOn (d : Dev) (b : Nat) : Bool := d.flag (LGE_GPUB_CTRL_en b) && 1 ≤ d.get (LGE_GPUB_CTRL_n_mem b) && d.get (LGE_GPUB_CTRL_n_mem b) ≤ 32

/-- Clocks are lost (R17, R477): TBC gives no ticks, or REFCLK is absent (DEDUCED, log entry 189). -/
def Dev.clocksLost (d : Dev) : Bool := !d.tbcRuns || d.refAbsent

/-- The engine is RUNNING. -/
def Dev.leRunning (d : Dev) : Bool := d.get LGE_STAT_state == 2

/-- Cycles run and publications go on: RUNNING, or STOPPING up to the end of its OUTPUT (R256). -/
def Dev.leCycles (d : Dev) : Bool := d.leRunning || d.get LGE_STAT_state == 3

/-- At the end of an OUTPUT a publication whose delivered members differ begins a new state. -/
def gooseOutput (d : Dev) : Dev :=
  forN 32 (fun b d =>
    if d.pubOn b then
      let ms := d.pubMembers b
      if !(d.pub b).begun || (d.pub b).members != ms then gooseState b ms d else d
    else d) d

/-- A change of the alarm OR takes effect at DET's decision and does not wait for a cycle (R237, R255). -/
def gooseSync (d : Dev) : Dev :=
  if !d.leCycles then d
  else forN 32 (fun b d =>
    let x := d.pub b
    if d.pubOn b && x.begun then
      let ms := (d.pubTypes b).zipIdx.map (fun y => if y.1 = .alarm then d.alarmMember b else x.members.getD y.2 0)
      if ms != x.members then gooseState b ms d else d
    else d) d

/-- GOOSE_RETRANSMIT: the planned retransmission of publication `b`. -/
def gooseRetransmit (b : Nat) (d : Dev) : Dev :=
  match (d.pub b).due with
  | none => d
  | some t => atTime t (fun d =>
    if !d.leCycles || !d.pubOn b then d
    else
      let sq := d.get (LGE_GPUB_SQNUM b) + 1
      let x := d.pub b
      gooseSend b t ((d.set (LGE_GPUB_SQNUM b) (if sq = 2 ^ 32 then 1 else sq)).putPub b { x with n := x.n + 1 })) d

/-- Publication stops (R244); `fresh` says that a start begins the numbering again. -/
def gooseStop (fresh : Bool) (d : Dev) : Dev :=
  forN 32 (fun b d =>
    let x := d.pub b
    if x.begun || x.due.isSome then d.putPub b (if fresh then {} else { x with due := none }) else d) d

end Sys2Proof.Machine
end

