-- ==== Sys2Proof/Machine/Crypto.lean ====
section
/-! DEFINITION. SHA-256 and ECDSA over P-256, as R40 and R273 check signatures. -/
namespace Sys2Proof.Machine

/-! ## SHA-256 -/

/-- Rotate right of a 32-bit value. -/
def rotr32 (n x : Nat) : Nat := x / 2 ^ n + x % 2 ^ n * 2 ^ (32 - n)

/-- The first 64 primes. -/
def shaPrimes : List Nat :=
  (List.range 312).filter (fun n => 2 ≤ n && (List.range 18).all (fun k => k < 2 || n ≤ k || n % k != 0))

/-- The first 32 fraction bits of the `k`-th root of `p`, `k` 2 or 3 and `p` below 343: the root of p × 2^(32k) is found bit by bit. -/
def rootFraction (k p : Nat) : Nat :=
  (List.range 35).foldl (fun x i => if (x + 2 ^ (34 - i)) ^ k ≤ p * 2 ^ (32 * k) then x + 2 ^ (34 - i) else x) 0 % 2 ^ 32

/-- The 64 round constants: fractions of the cube roots of the primes. -/
def shaK : List Nat := shaPrimes.map (rootFraction 3)

/-- The eight working values. -/
structure Sha where
  a : Nat
  b : Nat
  c : Nat
  d : Nat
  e : Nat
  f : Nat
  g : Nat
  h : Nat
  deriving DecidableEq, Repr

/-- The initial hash value: fractions of the square roots of the first eight primes. -/
def shaInit : Sha :=
  let h (i : Nat) : Nat := rootFraction 2 (shaPrimes.getD i 0)
  ⟨h 0, h 1, h 2, h 3, h 4, h 5, h 6, h 7⟩

/-- One round with its message word and constant. -/
def shaRound (s : Sha) (wk : Nat) : Sha :=
  let s1 := rotr32 6 s.e ^^^ rotr32 11 s.e ^^^ rotr32 25 s.e
  let ch := (s.e &&& s.f) ^^^ ((0xFFFFFFFF - s.e) &&& s.g)
  let t1 := s.h + s1 + ch + wk
  let s0 := rotr32 2 s.a ^^^ rotr32 13 s.a ^^^ rotr32 22 s.a
  let mj := (s.a &&& s.b) ^^^ (s.a &&& s.c) ^^^ (s.b &&& s.c)
  ⟨(t1 + s0 + mj) % 2 ^ 32, s.a, s.b, s.c, (s.d + t1) % 2 ^ 32, s.e, s.f, s.g⟩

/-- Extend a window of the newest sixteen words, newest first, by `n` words; answers all words, newest first. -/
def shaExtend : Nat → List Nat → List Nat
  | 0, w => w
  | n + 1, w =>
    let x := w.getD 14 0
    let y := w.getD 1 0
    let s0 := rotr32 7 x ^^^ rotr32 18 x ^^^ x / 8
    let s1 := rotr32 17 y ^^^ rotr32 19 y ^^^ y / 1024
    shaExtend n ((w.getD 15 0 + s0 + w.getD 6 0 + s1) % 2 ^ 32 :: w)

/-- One block of 64 bytes. -/
def shaBlock (s : Sha) (bs : List Byte) : Sha :=
  let w0 := (List.range 16).map (fun i => beAt bs (4 * i) 4)
  let w := (shaExtend 48 w0.reverse).reverse
  let r := (w.zip shaK).foldl (fun s x => shaRound s (x.1 + x.2)) s
  let add (x y : Nat) : Nat := (x + y) % 2 ^ 32
  ⟨add s.a r.a, add s.b r.b, add s.c r.c, add s.d r.d, add s.e r.e, add s.f r.f, add s.g r.g, add s.h r.h⟩

/-- Fold over blocks of 64 bytes. -/
def shaBlocks : Nat → List Byte → Sha → Sha
  | 0, _, s => s
  | n + 1, bs, s => shaBlocks n (bs.drop 64) (shaBlock s (bs.take 64))

/-- The SHA-256 digest. -/
def sha256 (bs : List Byte) : List Byte :=
  let z := (119 - bs.length % 64) % 64
  let m := bs ++ [0x80] ++ List.replicate z 0 ++ toBe 8 (8 * bs.length)
  let s := shaBlocks (m.length / 64) m shaInit
  ([s.a, s.b, s.c, s.d, s.e, s.f, s.g, s.h].map (toBe 4)).flatten

/-! ## P-256 -/

/-- The field prime. -/
def p256P : Nat := 0xffffffff00000001000000000000000000000000ffffffffffffffffffffffff
/-- The group order. -/
def p256N : Nat := 0xffffffff00000000ffffffffffffffffbce6faada7179e84f3b9cac2fc632551
/-- The curve's b. -/
def p256B : Nat := 0x5ac635d8aa3a93e7b3ebbd55769886bc651d06b0cc53b0f63bce3c3e27d2604b
/-- The base point. -/
def p256G : Nat × Nat := (0x6b17d1f2e12c4247f8bce6e563a440f277037d812deb33a0f4a13945d898c296,
  0x4fe342e2fe1a7f9b8ee7eb4a7c0f9e162bce33576b315ececbb6406837bf51f5)

/-- x^e mod m by squaring over the `n` low bits of e. -/
def powMod (m : Nat) : Nat → Nat → Nat → Nat → Nat
  | 0, _, _, acc => acc
  | n + 1, x, e, acc => powMod m n (x * x % m) (e / 2) (if e % 2 = 1 then acc * x % m else acc)

/-- The inverse modulo a prime. -/
def invMod (m x : Nat) : Nat := powMod m 256 (x % m) (m - 2) 1

/-- A point in projective coordinates: x = X / Z², y = Y / Z³; Z = 0 is the point at infinity. -/
structure EcPoint where
  x : Nat
  y : Nat
  z : Nat
  deriving DecidableEq, Repr

/-- Difference in the field. -/
def fpSub (a b : Nat) : Nat := (a + p256P - b % p256P) % p256P

/-- Doubling. -/
def ecDouble (p : EcPoint) : EcPoint :=
  if p.z = 0 || p.y = 0 then ⟨1, 1, 0⟩
  else
    let zz := p.z * p.z % p256P
    let yy := p.y * p.y % p256P
    let s := 4 * p.x * yy % p256P
    let m := 3 * fpSub p.x zz * (p.x + zz) % p256P
    let x := fpSub (m * m % p256P) (2 * s)
    ⟨x, fpSub (m * fpSub s x % p256P) (8 * yy * yy), 2 * p.y * p.z % p256P⟩

/-- Addition. -/
def ecAdd (p q : EcPoint) : EcPoint :=
  if p.z = 0 then q
  else if q.z = 0 then p
  else
    let z1 := p.z * p.z % p256P
    let z2 := q.z * q.z % p256P
    let u1 := p.x * z2 % p256P
    let u2 := q.x * z1 % p256P
    let s1 := p.y * q.z % p256P * z2 % p256P
    let s2 := q.y * p.z % p256P * z1 % p256P
    let h := fpSub u2 u1
    let r := fpSub s2 s1
    if h = 0 then (if r = 0 then ecDouble p else ⟨1, 1, 0⟩)
    else
      let hh := h * h % p256P
      let hhh := hh * h % p256P
      let v := u1 * hh % p256P
      let x := fpSub (fpSub (r * r % p256P) hhh) (2 * v)
      ⟨x, fpSub (r * fpSub v x % p256P) (s1 * hhh), p.z * q.z % p256P * h % p256P⟩

/-- k · p over the `n` low bits of k. -/
def ecMul : Nat → Nat → EcPoint → EcPoint → EcPoint
  | 0, _, _, acc => acc
  | n + 1, k, p, acc => ecMul n (k / 2) (ecDouble p) (if k % 2 = 1 then ecAdd acc p else acc)

/-- A point lies on the curve. -/
def onCurve (x y : Nat) : Bool := x < p256P && y < p256P && y * y % p256P == (x * x % p256P * x + (p256P - 3) * x + p256B) % p256P

/-- ECDSA verification: the key is x then y, the signature r then s, each 32 bytes and big-endian. -/
def ecdsaVerify (key digest sig : List Byte) : Bool :=
  let x := beAt key 0 32
  let y := beAt key 32 32
  let r := beAt sig 0 32
  let s := beAt sig 32 32
  if key.length = 64 && onCurve x y && 1 ≤ r && r < p256N && 1 ≤ s && s < p256N then
    let w := invMod p256N s
    let u1 := beAt digest 0 32 * w % p256N
    let u2 := r * w % p256N
    let q := ecAdd (ecMul 256 u1 ⟨p256G.1, p256G.2, 1⟩ ⟨1, 1, 0⟩) (ecMul 256 u2 ⟨x, y, 1⟩ ⟨1, 1, 0⟩)
    if q.z = 0 then false
    else
      let zi := invMod p256P q.z
      (q.x * (zi * zi % p256P) % p256P) % p256N == r
  else false

end Sys2Proof.Machine
end

