-- ==== Sys2Proof/Machine/Kernel.lean ====
section
/-! DEFINITION. What every ROM kernel shares: its ports, the CRC of structural fields, and the signals and decimation of ODA and RDA
(R168, R169, R187-R193). -/
namespace Sys2Proof.Machine

/-! ## CRC-32C -/

/-- One bit of the reflected CRC-32C (polynomial 0x82F63B78). -/
def crc32cBit (c : Nat) : Nat := if c % 2 = 1 then (c / 2) ^^^ 0x82F63B78 else c / 2

/-- One byte. -/
def crc32cByte (c : Nat) (b : Byte) : Nat :=
  let x := c ^^^ b.toNat
  crc32cBit (crc32cBit (crc32cBit (crc32cBit (crc32cBit (crc32cBit (crc32cBit (crc32cBit x)))))))

/-- CRC-32C: initial and final value 0xFFFFFFFF. -/
def crc32c (bs : List Byte) : Nat := bs.foldl crc32cByte 0xFFFFFFFF ^^^ 0xFFFFFFFF

/-! ## How a kernel ends -/

/-- The end of a task: its outcome as the code of its record (1 DONE, 4 GONE, 5 DENIED), the kernel's status, and its result. -/
structure KEnd where
  outcome : Nat := 1
  status : Nat := 0
  result : Option DetResult := none
  deriving DecidableEq, Repr

/-- The statuses of R188 and R214. -/
def stDup : Nat := 0x01
def stParam : Nat := 0x02
def stStateSmall : Nat := 0x03
def stRestruct : Nat := 0x04
def stRerun : Nat := 0x05

/-! ## The gathering port (R168) -/

/-- The gathering a task refers to: its grid and the gathering whose header stands at the ring position with the index of the reference;
none where the position holds another, or none (R168). -/
def Dev.taskView (d : Dev) (t : Task) : Option (Nat × Gathering) :=
  if t.noGath then none
  else
    let n := bits t.ref 0 3
    (((d.grid n).held ++ (d.grid n).retired).find? (fun x =>
      x.k % 2 ^ 32 == bits t.ref 32 32 && (x.memLost || memLe d.dram (d.gathAddr n x.k) 8 == x.g))).map (fun x => (n, x))

/-- The kind of a task's reference: 0 PROVISIONAL, 1 CLOSED, 2 FINAL. -/
def Task.kind (t : Task) : Nat := bits t.ref 18 2

/-- The arrived field of a task's reference. -/
def Task.arrived (t : Task) : Nat := bits t.ref 4 14

/-- The mem_lost bit of a task's reference. -/
def Task.memLost (t : Task) : Bool := bitAt t.ref 3

/-- The frame of source `s` in the view of a task: present, with an order below arrived; none with mem_lost, of the reference or of the
gathering (R126). -/
def Task.present (t : Task) (x : Gathering) (s : Nat) : Option Placed :=
  if t.memLost || x.memLost then none else x.placed.find? (fun p => p.src == s && decide (p.order < t.arrived))

/-- A source is usable: present, without ERR and TEST (R192, R217). -/
def Task.usable (t : Task) (x : Gathering) (s : Nat) : Bool :=
  match t.present x s with
  | some p => !bitAt p.flags 2 && !bitAt p.flags 3
  | none => false

/-- The two words of a slot as the kernel reads it; NaN outside the grid's slot range (R191). -/
def Dev.kslot (d : Dev) (n k j : Nat) : Nat × Nat := d.slotPair n k j

/-! ## The state block (R169, R190) -/

/-- The state partition's target, the byte base of an instance's block in DRAM, its offset in the partition and its length. -/
def Dev.stateBlock (d : Dev) (i : Nat) : Nat × Nat × Nat × Nat :=
  let p := d.get SCH_CFG_state_part
  let off := d.get (SCH_INST3_state_off i) * 4096
  (96 + p, (d.part p).1 + off, off, d.get (SCH_INST3_state_len i) * 65536)

/-- The length of a task's state block; a host task has none (R176). -/
def Dev.stateLen (d : Dev) (t : Task) : Nat := if t.host then 0 else d.get (SCH_INST3_state_len t.inst) * 65536

/-- A state transfer of a task on engine `e` is checked under the engine's master ID (R169); a denied one is recorded. -/
def stateAccess (e i : Nat) (k : VKind) (d : Dev) : Bool × Dev :=
  let (tgt, _, off, _) := d.stateBlock i
  match d.check k true tgt (4 + e) with
  | .pass => (true, d)
  | .void => (false, d)
  | .deny k => (false, violation k (4 + e) tgt off d)

/-- The gathering port reads DRAM partition 0 under the engine's master ID (R26); a denied read is recorded (DEDUCED, log entry 171). -/
def gathAccess (e : Nat) (t : Task) (d : Dev) : Bool × Dev :=
  match d.check .read true 96 (4 + e) with
  | .pass => (true, d)
  | .void => (false, d)
  | .deny k => (false, violation k (4 + e) 96 (d.gathAddr (bits t.ref 0 3) (bits t.ref 32 32) - (d.part 0).1) d)

/-- A kernel that reads its gathering; where the read is denied the task ends DENIED. -/
def onGathering (e : Nat) (t : Task) (f : Dev → KEnd × Dev) (d : Dev) : KEnd × Dev :=
  if t.noGath then f d
  else
    let (ok, d) := gathAccess e t d
    if ok then f d else ({ outcome := 5 }, d)

/-- Bytes of an instance's state block at an offset: the tables of ISL_AREA and LIM_EVAL (R216). -/
def Dev.stateBytes (d : Dev) (i off n : Nat) : List Byte := d.dramRead ((d.stateBlock i).2.1 + off) n

/-- The private area of an instance: its bytes are the kernel's own (R190, R216). -/
def privateArea (i n : Nat) (d : Dev) : Dev :=
  { d with kern := { d.kern with areas := insertKey i ((d.stateBlock i).2.1, n) d.kern.areas } }

/-- A DRAM byte as a master reads it: a byte of a kernel's private area is free (R190: its layout is private). -/
def Dev.dramPeek (d : Dev) (a n : Nat) : List Byte × Dev :=
  let own (b : Nat) : Bool := d.kern.areas.any (fun x => x.2.1 ≤ b && b < x.2.1 + x.2.2)
  if (List.range n).any (fun i => own (a + i)) then
    let (fs, d') := d.drawBytes n
    ((List.range n).map (fun i => if own (a + i) then fs.getD i 0 else memRead d.dram (a + i)), d')
  else (d.dramRead a n, d)

/-! ## Results -/

/-- A result of a task on a gathering (R205, R225). -/
def gathResult (t : Task) (n : Nat) (x : Gathering) (cls bits : Nat) (vals : List (Nat × Nat)) (rerun restruct : Bool)
    (recs : List (List Byte)) (more : Bool) : DetResult :=
  { inst := t.inst, cls := cls, bits := bits, rerun := rerun, restruct := restruct, instant := x.g, grid := n, arrived := t.arrived
    prov := t.kind == 0, final := t.kind == 2, memLost := t.memLost, vals := vals, recs := recs, more := more }

/-- A kernel's record goes to a host queue (R167). -/
def kernRecord (q : Nat) (bs : List Byte) (d : Dev) : Dev := queueRecord q bs d

/-! ## Complex values and constants -/

/-- Complex difference, rounded per component. -/
def cSub (a b : Nat × Nat) : Nat × Nat := (fSub a.1 b.1, fSub a.2 b.2)

/-- The magnitude as quantity MAG (R191). -/
def cMag (a : Nat × Nat) : Nat := fSqrt (fAdd (fMul a.1 a.1) (fMul a.2 a.2))

/-- rn of the cosine and sine of 2π·j / m, exact at the quarter turns. -/
def cosSinTurn (j m : Nat) : Nat × Nat :=
  let a := fxCosSin ((2 * j : Nat) * fxPi / (m : Nat))
  let c := if 4 * j % m = 0 ∧ 4 * j / m % 2 = 1 then 0 else rnFx a.1
  let s := if 4 * j % m = 0 ∧ 4 * j / m % 2 = 0 then 0 else rnFx a.2
  (c, s)

/-! ## Signals (R191, R192) -/

/-- A signal descriptor. -/
structure Sigd where
  src : Nat
  qty : Nat
  slot : Nat
  deriving DecidableEq, Repr

/-- The descriptor in 8 bytes; none outside its ranges. -/
def sigdOf (bs : List Byte) : Option Sigd :=
  let s : Sigd := { src := leAt bs 0 2, qty := byteAt bs 2, slot := leAt bs 4 4 }
  if s.src < 8192 && s.qty ≤ 5 && byteAt bs 3 == 0 && s.slot < 2 ^ 20 then some s else none

/-- A phasor of the view, none when it is missing. -/
def Dev.viewPhasor (d : Dev) (t : Task) (n : Nat) (x : Gathering) (src slot : Nat) : Option (Nat × Nat) :=
  if t.usable x src then
    let z := d.kslot n x.k slot
    if fIsNaN z.1 || fIsNaN z.2 then none else some z
  else none

/-- A word of the view, none when it is missing. -/
def Dev.viewWord (d : Dev) (t : Task) (n : Nat) (x : Gathering) (src slot w : Nat) : Option Nat :=
  if t.usable x src then
    let z := d.kslot n x.k slot
    let v := if w = 0 then z.1 else z.2
    if fIsNaN v then none else some v
  else none

/-- The value of a signal at the task's instant; none when it is missing (R192). `ref` is the reference signal. -/
def Dev.sigValue (d : Dev) (t : Task) (n : Nat) (x : Gathering) (ref s : Sigd) : Option Nat :=
  let v := match s.qty with
    | 0 => (d.viewPhasor t n x s.src s.slot).map cMag
    | 1 => match d.viewPhasor t n x s.src s.slot, d.viewPhasor t n x ref.src ref.slot with
      | some p, some r => some (cArg (cMul p (cConj r)))
      | _, _ => none
    | 2 => d.viewWord t n x s.src s.slot 0
    | 3 => d.viewWord t n x s.src s.slot 1
    | 4 => d.viewWord t n x s.src s.slot 0
    | _ => d.viewWord t n x s.src s.slot 1
  match v with
  | some a => if fIsNaN a then none else some a
  | none => none

/-! ## Decimation (R192, R193) -/

/-- One input of a signal (R192): present, or held; a signal that has been missing for gap_max values is reset at each further one,
and its run starts again at its next present value. After state_reset a missing value is a held 0 (DEDUCED, log entry 162). -/
def sigInput (lh gapMax : Nat) (v : Option Nat) (s : SigSt) : SigSt :=
  match v with
  | some x => { xs := (x :: s.xs).take lh, held := (false :: s.held).take lh, last := some x, miss := 0, since := min (s.since + 1) lh }
  | none =>
    if gapMax ≤ s.miss then { xs := [], held := [], last := none, since := 0, miss := s.miss + 1 }
    else { s with
      xs := (s.last.getD 0 :: s.xs).take lh, held := (true :: s.held).take lh, miss := s.miss + 1, since := min (s.since + 1) lh }

/-- The decimation filter of a parameter block. -/
structure DecPar where
  dd : Nat
  lh : Nat
  rate : Nat
  maxHold : Nat
  gapMax : Nat
  h : List Nat
  /-- How many decimated samples the kernel keeps. -/
  keep : Nat
  deriving DecidableEq, Repr

/-- Σ h[j]·x[k − j], each operation rounded. -/
def firSum : List Nat → List Nat → Nat → Nat
  | h :: hs, x :: xs, y => firSum hs xs (fAdd y (fMul h x))
  | _, _, y => y

/-- The decimated sample of a signal. -/
def decSample (c : DecPar) (prov : Bool) (s : SigSt) : Samp :=
  { y := firSum c.h s.xs 0, valid := c.lh ≤ s.since && decide ((s.held.filter id).length ≤ c.maxHold), prov := prov }

/-- One instant: every signal takes an input, and at k mod dd = 0 a decimated sample of each is formed. Answers whether one was. -/
def decInstant (c : DecPar) (k : Nat) (prov : Bool) (vs : List (Option Nat)) (s : DecSt) : Bool × DecSt :=
  let sigs := s.sigs.zipWith (fun g v => sigInput c.lh c.gapMax v g) vs
  let provs := (prov :: s.provs).take c.lh
  let formed := k % c.dd == 0
  let row := sigs.map (decSample c (provs.any id))
  (formed, { s with
    sigs := sigs, provs := provs, lastK := some k, samples := if formed then (row :: s.samples).take c.keep else s.samples })

/-- Decimation at the start: `m` signals that have taken nothing. -/
def DecSt.init (crc m : Nat) : DecSt := { crc := crc, sigs := List.replicate m {} }

/-- The instants of a filled gap before `k`, in order (R192). -/
def gapInstants (s : DecSt) (k : Nat) : List Nat :=
  match s.lastK with
  | some j => (List.range (k - j - 1)).map (fun i => j + 1 + i)
  | none => []

/-- The last `n` samples of signal `i`, oldest first. -/
def DecSt.column (s : DecSt) (i n : Nat) : List Samp := ((s.samples.take n).map (fun r => r.getD i ⟨0, false, false⟩)).reverse

/-- fa is an integer from 5 to 60, and the rate a multiple of dd (R193, R203). -/
def decRateOk (rate dd : Nat) : Bool := 1 ≤ rate && rate ≤ 240 && 1 ≤ dd && dd ≤ 48 && rate % dd == 0 && 5 ≤ rate / dd && rate / dd ≤ 60

/-- The absolute index of an instant under a rate; none when it is no instant of that rate (R187). -/
def indexOf (rate g : Nat) : Option Nat :=
  let k := firstIndex rate g
  if instantAt rate k = g then some k else none

/-- binary32 words from a block. -/
def wordsAt (bs : List Byte) (o n : Nat) : List Nat := (List.range n).map (fun j => leAt bs (o + 4 * j) 4)

/-- All bytes of a range are zero. -/
def zeroAt (bs : List Byte) (o n : Nat) : Bool := (slice bs o n).all (fun b => b == 0)

/-- A value is a finite binary32 above zero. -/
def fPositive (a : Nat) : Bool := fIsFinite a && fLt 0 a

/-- A class byte is 0–11 or 0xFF. -/
def classOk (c : Nat) : Bool := c ≤ 11 || c == 255

/-- The rounded sum of a list, left to right. -/
def fSum (xs : List Nat) : Nat := xs.foldl fAdd 0

end Sys2Proof.Machine
end

