-- ==== Sys2Proof/Machine/LeCode.lean ====
section
/-! DEFINITION. The logic instructions: their words, what each computes, and one pass of a program (R263-R272). -/
namespace Sys2Proof.Machine

/-! ## Instructions (R264, R265) -/

/-- A logic instruction. -/
inductive LInstr where
  | nop
  | alu (fn rd rs rt : Nat)
  | ldi (rd imm : Nat)
  | ldhi (rd imm : Nat)
  /-- A load or store of `size` bytes, by address and index register. -/
  | ld (size rd x a : Nat)
  | st (size rd x a : Nat)
  | jmp (target : Nat)
  | jz (rs target : Nat)
  | jnz (rs target : Nat)
  | loop (rc back max : Nat)
  | tmr (rd rs pair kind slot : Nat)
  | edg (rd rs kind word : Nat)
  | end_
  deriving DecidableEq, Repr

/-- The ALU functions. -/
def aluFns : List Nat :=
  (List.range 14).filter (fun f => f ≤ 13) ++ [0x10, 0x11, 0x12, 0x13, 0x14] ++ (List.range 13).map (fun i => 0x20 + i) ++ [0x30, 0x31, 0x32, 0x33]

/-- The cost of an ALU function in ns. -/
def aluCost (f : Nat) : Nat :=
  if f = 3 then 16 else if f = 4 || f = 5 then 40 else if f = 0x23 then 48
  else if [0x20, 0x21, 0x22, 0x24, 0x25, 0x28, 0x29, 0x2A, 0x2B, 0x2C, 0x30, 0x31, 0x32, 0x33].contains f then 16 else 8

/-- Decode one word; none breaks the form of R264-R266 (ENCODING). -/
def lDecode (w : Nat) : Option LInstr :=
  let op := bits w 26 6
  let rd := bits w 22 4
  let rs := bits w 18 4
  let a := bits w 0 18
  match op with
  | 0x00 => if w = 0 then some .nop else none
  | 0x01 =>
    let rt := bits w 14 4
    let fn := bits w 0 8
    let even (r : Nat) : Bool := r % 2 == 0
    if bits w 8 6 != 0 || !aluFns.contains fn then none
    else if (fn = 0x30 || fn = 0x31) && !(even rd && even rs && even rt) then none
    else if (fn = 0x32 || fn = 0x33) && !(even rs && even rt) then none
    else some (.alu fn rd rs rt)
  | 0x02 => if rs = 0 then some (.ldi rd a) else none
  | 0x03 => if rs = 0 && bits w 14 4 = 0 then some (.ldhi rd (bits w 0 14)) else none
  | 0x04 => some (.ld 4 rd rs a)
  | 0x05 => some (.ld 2 rd rs a)
  | 0x06 => some (.ld 1 rd rs a)
  | 0x07 => some (.st 4 rd rs a)
  | 0x08 => some (.st 2 rd rs a)
  | 0x09 => some (.st 1 rd rs a)
  | 0x0A => if rd % 2 = 0 then some (.ld 8 rd rs a) else none
  | 0x0B => if rd % 2 = 0 then some (.st 8 rd rs a) else none
  | 0x0C => if rd = 0 && rs = 0 && bits w 16 2 = 0 then some (.jmp (bits w 0 16)) else none
  | 0x0D => if rd = 0 && bits w 16 2 = 0 then some (.jz rs (bits w 0 16)) else none
  | 0x0E => if rd = 0 && bits w 16 2 = 0 then some (.jnz rs (bits w 0 16)) else none
  | 0x0F => if bits w 12 10 = 0 then none else some (.loop rd (bits w 12 10) (bits w 0 12 + 1))
  | 0x10 => if bits w 12 1 != 0 || bits w 13 2 = 3 then none else some (.tmr rd rs (bits w 15 3) (bits w 13 2) (bits w 0 12))
  | 0x11 => if bits w 15 2 != 0 then none else some (.edg rd rs (bits w 17 1) (bits w 0 15))
  | 0x12 => if bits w 0 26 = 0 then some .end_ else none
  | _ => none

/-- The cost of an instruction in ns (R265). -/
def LInstr.cost : LInstr → Nat
  | .alu fn _ _ _ => aluCost fn
  | .ld 8 _ _ _ => 24
  | .st 8 _ _ _ => 24
  | .ld _ _ _ _ => 20
  | .st _ _ _ _ => 20
  | .tmr _ _ _ _ _ => 40
  | .edg _ _ _ _ => 24
  | _ => 8

/-! ## The address map (R247, R248, R264) -/

/-- Bytes of the output image. -/
def leOutBytes : Nat := 8256

/-- BAR0 offset of the data window. -/
def leDataWin : Nat := 0x1280000

/-- What the program can see during EXECUTE: registers, the snapshot, the output image, the windows with its data, the forced bits by LE
address (a mask per byte), whether the table of the logic data window lets LE read and write it (R26), and the accesses it denied, newest
first: whether a write, and the LE address. -/
structure LEnv where
  regs : List Nat := List.replicate 16 0
  input : List Host.Cell
  output : List Host.Cell
  win : List Host.Cell
  forced : List (Nat × Nat)
  canRead : Bool := true
  canWrite : Bool := true
  denied : List (Bool × Nat) := []

/-- A register. -/
def LEnv.reg (e : LEnv) (r : Nat) : Nat := e.regs.getD r 0

/-- Write a register. -/
def LEnv.put (r v : Nat) (e : LEnv) : LEnv := { e with regs := setAt e.regs r (v % 2 ^ 32) }

/-- A register pair as 64 bits. -/
def LEnv.pair (e : LEnv) (r : Nat) : Nat := e.reg r + 2 ^ 32 * e.reg (r + 1)

/-- Write a register pair. -/
def LEnv.putPair (r v : Nat) (e : LEnv) : LEnv := (e.put r v).put (r + 1) (v / 2 ^ 32)

/-- One byte of LE memory; an unmapped address reads as zero. -/
def LEnv.byte (e : LEnv) (a : Nat) : Byte :=
  if a < 0x10000 then memRead e.input a
  else if a < 0x10000 + leOutBytes then memRead e.output (a - 0x10000)
  else if 0x20000 ≤ a ∧ a < 0x40000 then memRead e.win (leDataWin + (a - 0x20000))
  else 0

/-- A little-endian value of LE memory. -/
def LEnv.read (e : LEnv) (a n : Nat) : Nat := ofLe ((List.range n).map (fun i => e.byte (a + i)))

/-- Store a byte: outside the output image and data it is discarded, and forced bits keep their value (R282). -/
def LEnv.store (a : Nat) (b : Byte) (e : LEnv) : LEnv :=
  let m := BitVec.ofNat 8 ((lookup a e.forced).getD 0)
  let b := (b &&& ~~~m) ||| (e.byte a &&& m)
  if 0x10000 ≤ a ∧ a < 0x10000 + leOutBytes then { e with output := memWrite (a - 0x10000) b e.output }
  else if 0x20000 ≤ a ∧ a < 0x40000 then { e with win := memWrite (leDataWin + (a - 0x20000)) b e.win }
  else e

/-- Store the `n` low bytes of a value. -/
def LEnv.write (a n v : Nat) (e : LEnv) : LEnv := forN n (fun i e => e.store (a + i) (BitVec.ofNat 8 (v / 256 ^ i))) e

/-- An LE address lies in data, the logic data window. -/
def inData (a : Nat) : Bool := decide (0x20000 ≤ a ∧ a < 0x40000)

/-- An access of the program for reading: a denied one reads as zero (R430). -/
def LEnv.load (e : LEnv) (a n : Nat) : Nat × LEnv :=
  if inData a && !e.canRead then (0, { e with denied := (false, a) :: e.denied }) else (e.read a n, e)

/-- An access of the program for writing: a denied one is discarded (R430). -/
def LEnv.save (a n v : Nat) (e : LEnv) : LEnv :=
  if inData a && !e.canWrite then { e with denied := (true, a) :: e.denied } else e.write a n v

/-- The effective address of an access of `n` bytes. -/
def LEnv.ea (e : LEnv) (x a n : Nat) : Nat :=
  let v := if x = 0 then a else (a + e.reg x) % 2 ^ 18
  v / n * n

/-! ## The ALU (R265, R266) -/

/-- Signed value of a register. -/
def s32 (v : Nat) : Int := toInt 32 v

/-- The smaller or larger operand of FMIN and FMAX: the other one if one is a NaN. -/
def fPick (min_ : Bool) (a b : Nat) : Nat :=
  if fIsNaN a && fIsNaN b then fNaN
  else if fIsNaN a then b
  else if fIsNaN b then a
  else if min_ then fMin a b else fMax a b

/-- FTOI: toward zero, saturating; a NaN gives 0. -/
def ftoi (a : Nat) : Nat :=
  if fIsNaN a then 0
  else if fIsInf a then (if fSign a then 2 ^ 31 else 2 ^ 31 - 1)
  else
    let (n, d) := fQ a
    ofInt 32 (clampI (-(2 ^ 31 : Nat)) ((2 ^ 31 - 1 : Nat)) (Int.tdiv n d))

/-- A function of two 32-bit operands. -/
def alu32 (fn a b : Nat) : Nat :=
  match fn with
  | 0x00 => a
  | 0x01 => a + b
  | 0x02 => a + (2 ^ 32 - b)
  | 0x03 => a * b
  | 0x04 => if b = 0 then 0 else ofInt 32 (Int.tdiv (s32 a) (s32 b))
  | 0x05 => if b = 0 then 0 else ofInt 32 (Int.tmod (s32 a) (s32 b))
  | 0x06 => a &&& b
  | 0x07 => a ||| b
  | 0x08 => a ^^^ b
  | 0x09 => a * 2 ^ (b % 32)
  | 0x0A => a / 2 ^ (b % 32)
  | 0x0B => ofInt 32 (s32 a / (2 ^ (b % 32) : Nat))
  | 0x0C => if s32 a ≤ s32 b then a else b
  | 0x0D => if s32 a ≤ s32 b then b else a
  | 0x10 => b2n (a == b)
  | 0x11 => b2n (a != b)
  | 0x12 => b2n (decide (s32 a < s32 b))
  | 0x13 => b2n (decide (s32 a ≤ s32 b))
  | 0x14 => b2n (a == 0)
  | 0x20 => fAdd a b
  | 0x21 => fSub a b
  | 0x22 => fMul a b
  | 0x23 => fDiv a b
  | 0x24 => fPick true a b
  | 0x25 => fPick false a b
  | 0x26 => a % 2 ^ 31
  | 0x27 => fNeg a
  | 0x28 => b2n (fEq a b)
  | 0x29 => b2n (fLt a b)
  | 0x2A => b2n (fLe a b)
  | 0x2B => rnInt (s32 a)
  | _ => ftoi a

/-- One ALU instruction. -/
def LEnv.alu (fn rd rs rt : Nat) (e : LEnv) : LEnv :=
  match fn with
  | 0x30 => e.putPair rd ((e.pair rs + e.pair rt) % 2 ^ 64)
  | 0x31 => e.putPair rd ((e.pair rs + (2 ^ 64 - e.pair rt)) % 2 ^ 64)
  | 0x32 => e.put rd (b2n (decide (toInt 64 (e.pair rs) < toInt 64 (e.pair rt))))
  | 0x33 => e.put rd (b2n (e.pair rs == e.pair rt))
  | _ => e.put rd (alu32 fn (e.reg rs) (e.reg rt))

/-! ## Timers and edge detectors (R270, R271) -/

/-- A timer instance. -/
structure TimerSt where
  start : Int
  et : Int
  q : Bool
  running : Bool
  prev : Bool
  deriving DecidableEq, Repr

/-- While a timer runs: et follows, and at pt it ends. -/
def timerRun (el pt : Int) (qEnd : Bool) (t : TimerSt) : TimerSt :=
  if t.running then
    let t := { t with et := min (max el 0) pt }
    if pt ≤ el then { t with q := qEnd, running := false } else t
  else t

/-- The update of R270. -/
def timerStep (kind : Nat) (now pt : Int) (inp : Bool) (t : TimerSt) : TimerSt :=
  let el := toInt 64 (ofInt 64 (now - t.start))
  let out := match kind with
    | 0 =>
      if !inp then { t with q := false, running := false, et := 0 }
      else if !t.running && !t.q then timerRun 0 pt true { t with start := now, running := true }
      else timerRun el pt true t
    | 1 =>
      if inp then timerRun el pt false { t with q := true, running := false, et := 0 }
      else if t.prev then timerRun 0 pt false { t with start := now, running := true }
      else timerRun el pt false t
    | _ =>
      if !t.running && inp && !t.prev then timerRun 0 pt false { t with start := now, running := true, q := true }
      else if t.running then timerRun el pt false t
      else if !inp then { t with et := 0 } else t
  { out with prev := inp }

/-- TMR: the instance is read as one access and written as one. -/
def LEnv.tmr (rd rs pair kind slot : Nat) (e : LEnv) : LEnv :=
  let a := 0x20000 + 32 * slot
  let (x, e) := e.load a 32
  let f := bits x 128 32
  let t : TimerSt := { start := toInt 64 (bits x 0 64), et := toInt 64 (bits x 64 64), q := bitAt f 0, running := bitAt f 1, prev := bitAt f 2 }
  let pt := max (toInt 64 (e.pair (2 * pair))) 0
  let t := timerStep kind (toInt 64 (e.read 8 8)) pt (e.reg rs != 0) t
  (e.save a 32 (ofInt 64 t.start + 2 ^ 64 * ofInt 64 t.et + 2 ^ 128 * (b2n t.q + b2n t.running * 2 + b2n t.prev * 4))).put rd (b2n t.q)

/-- EDG. -/
def LEnv.edg (rd rs kind word : Nat) (e : LEnv) : LEnv :=
  let a := 0x20000 + 4 * word
  let (w, e) := e.load a 4
  let inp := e.reg rs != 0
  let out := if !bitAt w 1 then false else if kind = 0 then inp && !bitAt w 0 else bitAt w 0 && !inp
  (e.save a 4 (b2n inp + 2)).put rd (b2n out)

/-! ## One pass (R263, R267, R268) -/

/-- One instruction at index `pc`: the next index. -/
def LEnv.exec (count pc : Nat) (e : LEnv) : LInstr → Nat × LEnv
  | .nop => (pc + 1, e)
  | .alu fn rd rs rt => (pc + 1, e.alu fn rd rs rt)
  | .ldi rd imm => (pc + 1, e.put rd (ofInt 32 (toInt 18 imm)))
  | .ldhi rd imm => (pc + 1, e.put rd (imm * 2 ^ 18 + e.reg rd % 2 ^ 18))
  | .ld n rd x a => let (v, e) := e.load (e.ea x a n) n; (pc + 1, if n = 8 then e.putPair rd v else e.put rd v)
  | .st n rd x a => (pc + 1, e.save (e.ea x a n) n (if n = 8 then e.pair rd else e.reg rd))
  | .jmp t => (t, e)
  | .jz rs t => (if e.reg rs = 0 then t else pc + 1, e)
  | .jnz rs t => (if e.reg rs = 0 then pc + 1 else t, e)
  | .loop rc back max =>
    let v := (e.reg rc + (2 ^ 32 - 1)) % 2 ^ 32
    (if 1 ≤ v && v ≤ max - 1 then pc - back else pc + 1, e.put rc v)
  | .tmr rd rs pair kind slot => (pc + 1, e.tmr rd rs pair kind slot)
  | .edg rd rs kind word => (pc + 1, e.edg rd rs kind word)
  | .end_ => (count, e)

/-- Run from index `pc` until the end; the bound of R269 keeps a verified pass below 32,768 instructions. -/
def LEnv.run (code : Nat → Option LInstr) (count : Nat) : Nat → Nat → LEnv → LEnv
  | 0, _, e => e
  | n + 1, pc, e =>
    if count ≤ pc then e
    else match code pc with
      | none => e
      | some i => let (pc', e') := e.exec count pc i; LEnv.run code count n pc' e'

/-- How often the pass from index `pc` arrives at index `stop`. -/
def LEnv.visits (code : Nat → Option LInstr) (count stop : Nat) : Nat → Nat → LEnv → Nat
  | 0, _, _ => 0
  | n + 1, pc, e =>
    if count ≤ pc then 0
    else match code pc with
      | none => 0
      | some i => let (pc', e') := e.exec count pc i; b2n (pc == stop) + LEnv.visits code count stop n pc' e'

/-- Run from index `pc` until the arrival at index `stop` that `k` others come before; that instruction does not execute (R243). -/
def LEnv.runTo (code : Nat → Option LInstr) (count stop : Nat) : Nat → Nat → Nat → LEnv → LEnv
  | 0, _, _, e => e
  | n + 1, k, pc, e =>
    if count ≤ pc || (pc == stop && k == 0) then e
    else match code pc with
      | none => e
      | some i => let (pc', e') := e.exec count pc i; LEnv.runTo code count stop n (k - b2n (pc == stop)) pc' e'

end Sys2Proof.Machine
end

