-- ==== Sys2Proof/Machine/LeVerify.lean ====
section
/-! DEFINITION. Program images: the header, the checks of R277 in their order, and the execute bound of R269. -/
namespace Sys2Proof.Machine

/-! ## The image (R273-R275) -/

/-- BAR0 offset of a bank window: 0 recto, 1 verso. -/
def bankWin (b : Nat) : Nat := 0x1200000 + 0x40000 * b

/-- The header of a program. -/
structure ProgHdr where
  base : Nat
  imageBytes : Nat
  progId : Nat
  retainId : Nat
  retainLen : Nat
  wcet : Nat
  codeOff : Nat
  codeCount : Nat
  symOff : Nat
  symCount : Nat
  initOff : Nat
  initCount : Nat
  deriving DecidableEq, Repr

/-- The header as a bank holds it. -/
def Dev.progHdr (d : Dev) (b : Nat) : ProgHdr :=
  let w (o : Nat) : Nat := memLe d.win (bankWin b + o) 4
  { base := bankWin b, imageBytes := w 8, progId := w 12, retainId := w 16, retainLen := w 20, wcet := w 24, codeOff := w 28
    codeCount := w 32, symOff := w 36, symCount := w 40, initOff := w 44, initCount := w 48 }

/-- A symbol (R274). -/
structure Sym where
  id : Nat
  ty : Nat
  kind : Nat
  bit : Nat
  retained : Bool
  addr : Nat
  raw : List Byte
  deriving DecidableEq, Repr

/-- The symbol table. -/
def Dev.progSyms (d : Dev) (h : ProgHdr) : List Sym :=
  (List.range h.symCount).map (fun i =>
    let bs := memReadN d.win (h.base + h.symOff + 8 * i) 8
    { id := leAt bs 0 2, ty := byteAt bs 2 % 16, kind := byteAt bs 2 / 16, bit := byteAt bs 3 % 32, retained := bitAt (byteAt bs 3) 5
      addr := leAt bs 4 4, raw := bs })

/-- The bytes a symbol occupies by its type: BOOL, INT32, REAL32, TIME, the timers and the edge detectors. -/
def symSize (ty : Nat) : Nat := if ty = 0 then 1 else if ty = 1 || ty = 2 then 4 else if ty = 3 then 8 else if ty ≤ 6 then 32 else 4

/-- The initial-value table: LE address and value. -/
def Dev.progInit (d : Dev) (h : ProgHdr) : List (Nat × Nat) :=
  (List.range h.initCount).map (fun i =>
    (memLe d.win (h.base + h.initOff + 8 * i) 4, memLe d.win (h.base + h.initOff + 8 * i + 4) 4))

/-- Instruction `i` of a program. -/
def Dev.progInstr (d : Dev) (h : ProgHdr) (i : Nat) : Option LInstr := lDecode (memLe d.win (h.base + h.codeOff + 4 * i) 4)

/-- Bytes of a bank. -/
def Dev.progBytes (d : Dev) (b n : Nat) : List Byte := memReadN d.win (bankWin b) n

/-! ## Header, CRC, signature -/

/-- Two ranges (offset, length) do not overlap. -/
def disjoint (a b : Nat × Nat) : Bool := a.1 + a.2 ≤ b.1 || b.1 + b.2 ≤ a.1 || a.2 == 0 || b.2 == 0

/-- HEADER. -/
def headerOk (d : Dev) (b : Nat) : Bool :=
  let h := d.progHdr b
  let w (o : Nat) : Nat := memLe d.win (bankWin b + o) 4
  let code := (h.codeOff, 4 * h.codeCount)
  let sym := (h.symOff, 8 * h.symCount)
  let init := (h.initOff, 8 * h.initCount)
  let within (t : Nat × Nat) : Bool := t.1 % 4 == 0 && 0x40 ≤ t.1 && t.1 + t.2 ≤ h.imageBytes - 64
  memReadN d.win (bankWin b) 4 == [0x41, 0x51, 0x4C, 0x50] && w 4 == 1 && 1024 ≤ h.imageBytes && h.imageBytes ≤ 262144
    && 1 ≤ h.codeCount && h.codeCount ≤ 65520 && h.symCount ≤ 65535 && w 0x38 == 0 && w 0x3C == 0
    && within code && within sym && within init && disjoint code sym && disjoint code init && disjoint sym init

/-- CRC. -/
def progCrcOk (d : Dev) (b : Nat) : Bool :=
  let n := (d.progHdr b).imageBytes - 64
  let bs := d.progBytes b n
  crc32c (bs.take 0x34 ++ List.replicate 4 0 ++ bs.drop 0x38) == leAt bs 0x34 4

/-- SIGNATURE. -/
def progSigOk (d : Dev) (b : Nat) : Bool :=
  let n := (d.progHdr b).imageBytes
  let bs := d.progBytes b n
  ecdsaVerify d.nvm.ownerKey (sha256 (bs.take (n - 64))) (bs.drop (n - 64))

/-! ## Branches and loops (R267, R268) -/

/-- The branch target of an instruction. -/
def LInstr.target : LInstr → Option Nat
  | .jmp t => some t
  | .jz _ t => some t
  | .jnz _ t => some t
  | _ => none

/-- BRANCH. -/
def branchOk (code : List LInstr) : Bool :=
  code.zipIdx.all (fun x => match x.1.target with | some t => x.2 < t && t ≤ code.length | none => true)

/-- An instruction writes register `r`. -/
def LInstr.writes (r : Nat) : LInstr → Bool
  | .alu fn rd _ _ => rd == r || ((fn == 0x30 || fn == 0x31) && rd + 1 == r)
  | .ldi rd _ => rd == r
  | .ldhi rd _ => rd == r
  | .ld n rd _ _ => rd == r || (n == 8 && rd + 1 == r)
  | .loop rc _ _ => rc == r
  | .tmr rd _ _ _ _ => rd == r
  | .edg rd _ _ _ => rd == r
  | _ => false

/-- A loop: its body runs from `lo` to its LOOP at `hi`. -/
structure LoopB where
  lo : Nat
  hi : Nat
  max : Nat
  deriving DecidableEq, Repr

/-- The loops whose back does not exceed their index. -/
def loopsOf (code : List LInstr) : List LoopB :=
  code.zipIdx.filterMap (fun x => match x.1 with
    | .loop _ back m => if back ≤ x.2 then some { lo := x.2 - back, hi := x.2, max := m } else none
    | _ => none)

/-- LOOP. -/
def loopOk (code : List LInstr) : Bool :=
  let ls := loopsOf code
  code.zipIdx.all (fun x => match x.1 with
    | .loop rc back _ => back ≤ x.2 && ((code.drop (x.2 - back)).take back).all (fun i => !i.writes rc)
    | _ => true)
  && ls.all (fun a => ls.all (fun b => a.hi < b.lo || b.hi < a.lo || (a.lo ≤ b.lo && b.hi ≤ a.hi) || (b.lo ≤ a.lo && a.hi ≤ b.hi)))

/-! ## Addresses and symbols -/

/-- An access of `n` bytes at a fixed address is mapped. -/
def leMapped (a n : Nat) : Bool := a + n ≤ 0x10000 || (0x10000 ≤ a && a + n ≤ 0x10000 + leOutBytes) || (0x20000 ≤ a && a + n ≤ 0x40000)

/-- ADDRESS. -/
def addressOk (code : List LInstr) : Bool :=
  code.all (fun i => match i with
    | .ld n _ 0 a => a % n == 0 && leMapped a n
    | .st n _ 0 a => a % n == 0 && leMapped a n && 0x10000 ≤ a
    | _ => true)

/-- Insertion of a range in ascending order. -/
def rangesDisjoint (rs : List (Nat × Nat)) : Bool :=
  let s := rs.mergeSort (fun a b => decide (a.1 ≤ b.1))
  (s.zip s.tail).all (fun x => x.1.1 + x.1.2 ≤ x.2.1)

/-- SYMBOL. -/
def symbolOk (code : List LInstr) (syms : List Sym) (retainLen : Nat) : Bool :=
  (syms.zip syms.tail).all (fun x => x.1.id < x.2.id)
  && syms.all (fun s =>
    let n := symSize s.ty
    let a := s.addr
    let inR (lo len : Nat) (n : Nat) : Bool := lo ≤ a && a + n ≤ lo + len
    let single := s.kind != 0 && s.ty == 0
    1 ≤ s.id && s.ty ≤ 8 && s.kind ≤ 2 && byteAt s.raw 3 < 64 && a < 2 ^ 18 && (s.ty ≤ 3 || s.kind == 0)
      && (s.ty ≤ 3 || (a - 0x20000) % (if s.ty ≤ 6 then 32 else 4) == 0)
      && (if s.kind = 0 then inR 0x20000 0x20000 n
          else if s.kind = 1 then (if single then a + s.bit / 8 < 0x10000 else inR 0 0x10000 n)
          else (if single then 0x10000 ≤ a && a + s.bit / 8 < 0x10000 + leOutBytes else inR 0x10000 leOutBytes n))
      && (!s.retained || (0x20000 ≤ a && a + n ≤ 0x20000 + retainLen)))
  && rangesDisjoint ((syms.filter (fun s => s.kind == 0)).map (fun s => (s.addr, symSize s.ty)))
  && code.all (fun i => match i with
    | .tmr _ _ _ kind slot => syms.any (fun s => s.kind == 0 && s.ty == 4 + kind && s.addr == 0x20000 + 32 * slot)
    | .edg _ _ kind word => syms.any (fun s => s.kind == 0 && s.ty == 7 + kind && s.addr == 0x20000 + 4 * word)
    | _ => true)

/-- INIT. -/
def initOk (es : List (Nat × Nat)) : Bool := es.all (fun e => e.1 % 4 == 0 && 0x20000 ≤ e.1 && e.1 + 4 ≤ 0x40000)

/-- RETAIN (R275). -/
def retainOk (h : ProgHdr) (syms : List Sym) : Bool :=
  let rs := syms.filter (fun s => s.retained)
  h.retainLen % 4 == 0 && h.retainLen ≤ 16384 && h.retainId == (if rs.isEmpty then 0 else crc32c (rs.map Sym.raw).flatten)

/-! ## The execute bound (R269) -/

/-- One sweep over the code in ascending order: what a reached instruction leads to is reached, a LOOP's target too. -/
def reachSweep (code : List LInstr) (a : Array Bool) : Array Bool :=
  code.zipIdx.foldl (fun (a : Array Bool) x =>
    if a.getD x.2 false then
      let a := match x.1 with
        | .jmp _ => a
        | .end_ => a
        | .loop _ back _ => (a.setIfInBounds (x.2 + 1) true).setIfInBounds (x.2 - back) true
        | _ => a.setIfInBounds (x.2 + 1) true
      match x.1.target with
      | some t => a.setIfInBounds t true
      | none => a
    else a) a

/-- The indices that can be reached from index 0, as flags: a sweep for every LOOP, whose body may be entered behind its start. -/
def reachable (code : List LInstr) : Array Bool :=
  (List.range ((loopsOf code).length + 1)).foldl (fun a _ => reachSweep code a)
    ((Array.replicate (code.length + 1) false).setIfInBounds 0 true)

/-- The loops that lie immediately inside [lo, hi], other than the loop of `hi` itself. -/
def innerLoops (ls : List LoopB) (lo hi : Nat) (own : Bool) : List LoopB :=
  let cs := ls.filter (fun l => lo ≤ l.lo && l.hi ≤ hi && !(own && l.hi == hi))
  cs.filter (fun l => !cs.any (fun o => o != l && o.lo ≤ l.lo && l.hi ≤ o.hi))

/-- Longest paths of a region, by index: `own` says that the region is the body of the loop at `hi`. `fuel` exceeds the depth of
nesting. -/
def regionPaths (code : Array LInstr) (reach : Array Bool) (ls : List LoopB) : Nat → Nat → Nat → Bool → Array Nat
  | 0, _, _, _ => #[]
  | fuel + 1, lo, hi, own =>
    let inner := innerLoops ls lo hi own
    let n := hi + 1 - lo
    -- the value at an index of the region; outside the region a path has ended
    let at_ (a : Array Nat) (i : Nat) : Nat := if lo ≤ i && i ≤ hi then a.getD (i - lo) 0 else 0
    (List.range n).reverse.foldl (fun (a : Array Nat) o =>
      let i := lo + o
      match inner.find? (fun l => l.lo ≤ i && i ≤ l.hi) with
      | some l =>
        if i = l.hi then
          let body := regionPaths code reach ls fuel l.lo l.hi true
          -- indices at which the body can be entered: its start, and targets of branches from outside it
          let entries := ((List.range (l.hi + 1 - l.lo)).map (fun j => l.lo + j)).filter (fun j =>
            reach.getD j false && (j == l.lo || (List.range code.size).any (fun k => !(l.lo ≤ k && k ≤ l.hi) && reach.getD k false
              && (code.getD k .nop).target == some j)))
          let longest := (entries.map (fun j => body.getD (j - l.lo) 0)).foldl max 0
          let leaves := ((List.range (l.hi + 1 - l.lo)).filterMap (fun j =>
            if reach.getD (l.lo + j) false then (code.getD (l.lo + j) .nop).target else none)).filter (fun t => l.hi < t)
          let after := ((l.hi + 1) :: leaves).map (at_ a)
          a.setIfInBounds o (l.max * longest + after.foldl max 0)
        else a.setIfInBounds o (at_ a (i + 1))
      | none =>
        let c := code.getD i .nop
        let next : List Nat := match c with
          | .jmp t => [t]
          | .jz _ t => [t, i + 1]
          | .jnz _ t => [t, i + 1]
          | .end_ => []
          | _ => if own && i = hi then [] else [i + 1]
        a.setIfInBounds o (c.cost + (next.map (at_ a)).foldl max 0)) (Array.replicate n 0)

/-- The execute bound of a program. -/
def executeBound (code : List LInstr) : Nat :=
  if code.isEmpty then 0
  else (regionPaths code.toArray (reachable code) (loopsOf code) (code.length + 1) 0 (code.length - 1) false).getD 0 0

/-! ## Verification (R277) -/

/-- The code of a verification of bank `b`, with the execute bound where it was computed. -/
def progVerifyCode (b : Nat) (d : Dev) : Nat × Nat :=
  let h := d.progHdr b
  if !headerOk d b then (1, 0)
  else if !progCrcOk d b then (2, 0)
  else if d.nvm.ownerKey.isEmpty then (3, 0)
  else if !progSigOk d b then (4, 0)
  else match allSome ((List.range h.codeCount).map (d.progInstr h)) with
    | none => (5, 0)
    | some code =>
      let syms := d.progSyms h
      if !branchOk code then (6, 0)
      else if !loopOk code then (7, 0)
      else if !addressOk code then (8, 0)
      else if !symbolOk code syms h.retainLen then (9, 0)
      else if !initOk (d.progInit h) then (10, 0)
      else if !retainOk h syms then (11, 0)
      else
        let bound := executeBound code
        if h.wcet < bound || d.get LGE_CFG_watchdog_us * 1000 ≤ bound + 17000 then (12, bound) else (0, bound)

/-- The state field of a bank. -/
def bankState (b : Nat) : Fld := if b = 0 then LGE_PROG_STAT_recto else LGE_PROG_STAT_verso

/-- Show a bank's header words while it is VERIFIED; zero otherwise. -/
def bankInfo (b bound : Nat) (ok : Bool) (d : Dev) : Dev :=
  let h := d.progHdr b
  let v (x : Nat) : Nat := if ok then x else 0
  (((d.set (LGE_PROG_INFO_ID b) (v h.progId)).set (LGE_PROG_INFO_RETAIN b) (v h.retainId)).set (LGE_PROG_INFO_SIZES b)
    (v (h.retainLen + h.codeCount * 65536))).set (LGE_PROG_INFO_BOUND b) (v bound)

/-- A verification ends: result, bank state, INFO words and event source 106 (R277, R284). -/
def bankVerified (b : Nat) (d : Dev) : Nat × Dev :=
  let (code, bound) := progVerifyCode b d
  let d := (d.set LGE_PROG_STAT_result code).set (bankState b) (if code = 0 then 2 else 3)
  (code, raise 106 (bankInfo b bound (code == 0) d))

/-- An accepted write to a bank makes it UNVERIFIED (R276). -/
def bankTouched (b : Nat) (d : Dev) : Dev := bankInfo b 0 false (d.set (bankState b) 0)

end Sys2Proof.Machine
end

