-- ==== Sys2Proof/Machine/KernelOda.lean ====
section
/-! DEFINITION. The ODA kernels: windows, spectra, floors, damping, class, mode shape and records (R186-R205). -/
namespace Sys2Proof.Machine

/-! ## Parameter block (R203) -/

/-- A band of the block: its bins and factor. -/
structure BandPar where
  klo : Nat
  khi : Nat
  factor : Nat
  deriving DecidableEq, Repr

/-- The ODA parameter block. -/
structure OdaPar where
  m : Nat
  ref : Nat
  dec : DecPar
  log2n : Nat
  hopDiv : Nat
  welch : Nat
  persistOn : Nat
  persistOff : Nat
  minSig : Nat
  cls : Nat
  queue : Nat
  recMode : Nat
  freeze : Bool
  bands : List BandPar
  sigs : List Sigd
  deriving DecidableEq, Repr

/-- N. -/
def OdaPar.n (p : OdaPar) : Nat := 2 ^ p.log2n
/-- fa. -/
def OdaPar.fa (p : OdaPar) : Nat := p.dec.rate / p.dec.dd

/-- ⌈f × N / fa⌉ of a finite non-negative frequency, exactly (R196). -/
def binCeil (f n fa : Nat) : Nat := let (a, b) := fQ f; cdiv (natOf a * n) (b * fa)

/-- A band at offset `o`; none where R196 or R203 refuse it. -/
def bandOf (bs : List Byte) (o n fa : Nat) : Option BandPar :=
  let lo := leAt bs o 4
  let hi := leAt bs (o + 4) 4
  let f := leAt bs (o + 8) 4
  if fIsFinite lo && fIsFinite hi && fPositive f && zeroAt bs (o + 12) 4 && fLe 0 lo && fLe 0 hi then
    let b : BandPar := { klo := binCeil lo n fa, khi := binCeil hi n fa, factor := f }
    if 1 ≤ b.klo && b.klo < b.khi && b.khi ≤ n / 2 && b.khi - b.klo ≤ 512 then some b else none
  else none

/-- Read and check the block (R188, R203). -/
def odaPar (bs : List Byte) : Option OdaPar :=
  let m := byteAt bs 0
  let dd := byteAt bs 2
  let lh := byteAt bs 3
  let log2n := byteAt bs 4
  let nb := byteAt bs 6
  let rate := byteAt bs 8
  if 0x260 + 4 * lh ≤ bs.length && 1 ≤ m && m ≤ 64 && byteAt bs 1 < m && decRateOk rate dd && 1 ≤ lh && 8 ≤ log2n && log2n ≤ 12
      && [2, 4, 8].contains (byteAt bs 5) && 1 ≤ nb && nb ≤ 4 && 1 ≤ byteAt bs 7 && byteAt bs 7 ≤ 8 && 1 ≤ byteAt bs 9
      && 1 ≤ byteAt bs 10 && 1 ≤ byteAt bs 12 && byteAt bs 12 ≤ m && classOk (byteAt bs 13) && byteAt bs 14 ≤ 63 && byteAt bs 15 ≤ 3
      && 1 ≤ byteAt bs 16 && byteAt bs 17 ≤ 1 && zeroAt bs 18 14 then
    match allSome ((List.range nb).map (fun b => bandOf bs (0x20 + 16 * b) (2 ^ log2n) (rate / dd))),
        allSome ((List.range m).map (fun s => sigdOf (slice bs (0x60 + 8 * s) 8))) with
    | some bands, some sigs =>
      if (bands.map (fun b => b.khi - b.klo)).sum ≤ 1024 then
        some {
          m := m, ref := byteAt bs 1, log2n := log2n, hopDiv := byteAt bs 5, welch := byteAt bs 7, persistOn := byteAt bs 9
          persistOff := byteAt bs 10, minSig := byteAt bs 12, cls := byteAt bs 13, queue := byteAt bs 14, recMode := byteAt bs 15
          freeze := byteAt bs 17 == 1, bands := bands, sigs := sigs
          dec := {
            dd := dd, lh := lh, rate := rate, maxHold := byteAt bs 11, gapMax := byteAt bs 16
            h := wordsAt bs 0x260 lh, keep := 2 ^ log2n } }
      else none
    | _, _ => none
  else none

/-- The structural bytes of the block, ascending (R189, R203). -/
def odaStruct (bs : List Byte) : List Byte :=
  slice bs 0 9 ++ ((List.range (byteAt bs 6)).map (fun b => slice bs (0x20 + 16 * b) 8)).flatten ++ slice bs 0x60 (8 * byteAt bs 0)
    ++ slice bs 0x260 (4 * byteAt bs 3)

/-- The state size of R190. -/
def OdaPar.stateSize (p : OdaPar) : Nat :=
  4096 + 4 * p.m * (p.dec.lh + p.n) + 8 * p.m * p.welch * (p.bands.map (fun b => b.khi - b.klo)).sum + 256 * p.bands.length

/-! ## Spectra (R195, R196) -/

/-- Every second element, from the first. -/
def evens {α : Type} : List α → List α
  | [] => []
  | [a] => [a]
  | a :: _ :: xs => a :: evens xs

/-- Every second element, from the second. -/
def odds {α : Type} : List α → List α
  | [] => []
  | [_] => []
  | _ :: b :: xs => b :: odds xs

/-- The radix-2 transform of R195 on 2^s values in natural order: the stages over bit-reversed order are this recursion. -/
def fft : Nat → List (Nat × Nat) → List (Nat × Nat)
  | 0, xs => xs
  | s + 1, xs =>
    let e := fft s (evens xs)
    let o := fft s (odds xs)
    let m := 2 ^ (s + 1)
    let tw (j : Nat) : Nat × Nat := let (c, v) := cosSinTurn j m; (c, if fIsZero v then 0 else fNeg v)
    let ts := o.zipIdx.map (fun x => cMul (tw x.2) x.1)
    e.zipWith cAdd ts ++ e.zipWith cSub ts

/-- The window weights w[i]. -/
def hann (n : Nat) : List Nat := (List.range n).map (fun i => fMul 0x3F000000 (fSub fOne (cosSinTurn i n).1))

/-- The transform of one signal's window. -/
def odaSpectrum (log2n : Nat) (w ys : List Nat) : List (Nat × Nat) :=
  let mu := fDiv (fSum ys) (rnInt ((2 ^ log2n : Nat) : Int))
  fft log2n (ys.zipWith (fun y w => (fMul (fSub y mu) w, 0)) w)

/-! ## Windows (R194, R197-R202) -/

/-- What a window with a result computes once: by signal the spectrum of a valid one; Psum by bin; gs and rn(2 / S). -/
structure OdaWin where
  xs : List (Option (List (Nat × Nat)))
  psum : List Nat
  gs : Nat
  scale : Nat
  deriving DecidableEq, Repr

/-- The power at every bin (R196). -/
def power (gs : Nat) (x : List (Nat × Nat)) : List Nat := x.map (fun z => fMul (fAdd (fMul z.1 z.1) (fMul z.2 z.2)) gs)

/-- The spectra of a window. -/
def odaWindow (p : OdaPar) (s : DecSt) : OdaWin :=
  let w := hann p.n
  let sw := fSum w
  let gs := fDiv 0x40800000 (fMul sw sw)
  let xs := (List.range p.m).map (fun i =>
    let c := s.column i p.n
    if c.all (fun y => y.valid) then some (odaSpectrum p.log2n w (c.map Samp.y)) else none)
  let psum := (xs.filterMap id).foldl (fun acc x => acc.zipWith fAdd (power gs x)) (List.replicate p.n 0)
  { xs := xs, psum := psum, gs := gs, scale := fDiv 0x40000000 sw }

/-- E_b: by valid signal the ascending sum over the band (R196). -/
def OdaWin.energy (w : OdaWin) (b : BandPar) : Nat :=
  fSum ((w.xs.filterMap id).map (fun x => fSum (((power w.gs x).drop b.klo).take (b.khi - b.klo))))

/-- The peak bin: the largest Psum of the band, the lowest on a tie (R199). -/
def OdaWin.peak (w : OdaWin) (b : BandPar) : Nat :=
  ((List.range (b.khi - b.klo)).map (fun i => b.klo + i)).foldl (fun k j => if fLt (w.psum.getD k 0) (w.psum.getD j 0) then j else k) b.klo

/-- f_peak (R199). -/
def OdaWin.fPeak (w : OdaWin) (p : OdaPar) (kp : Nat) : Nat :=
  let bb := w.psum.getD kp 0
  let at_ (k : Nat) : Nat := if 1 ≤ k && k ≤ p.n / 2 - 1 then w.psum.getD k 0 else bb
  let a := at_ (kp - 1)
  let c := at_ (kp + 1)
  let den := fAdd (fSub a (fMul 0x40000000 bb)) c
  let δ := if fLt den 0 then fMul 0x3F000000 (fDiv (fSub a c) den) else 0
  let δ := if fLt δ 0xBF000000 then 0xBF000000 else if fLt 0x3F000000 δ then 0x3F000000 else δ
  fMul (fAdd (rnInt kp) δ) (fDiv (rnInt p.fa) (rnInt p.n))

/-- Damping (R200): ζ and the width in bins; none reports NO_DAMPING. -/
def OdaWin.zeta (w : OdaWin) (p : OdaPar) (kp fPeak : Nat) : Option (Nat × Nat) :=
  let ps (k : Nat) : Nat := w.psum.getD k 0
  let hp := fMul (ps kp) 0x3F000000
  let lower := ((List.range (kp - 1)).map (fun i => kp - 1 - i)).find? (fun k => fLt (ps k) hp)
  let upper := ((List.range (p.n / 2 - 1 - kp)).map (fun i => kp + 1 + i)).find? (fun k => fLt (ps k) hp)
  match lower, upper with
  | some k1, some k2 =>
    let xl := fAdd (rnInt k1) (fDiv (fSub hp (ps k1)) (fSub (ps (k1 + 1)) (ps k1)))
    let xu := fSub (rnInt k2) (fDiv (fSub hp (ps k2)) (fSub (ps (k2 - 1)) (ps k2)))
    let wd := fSub xu xl
    some (fDiv (fMul wd (fDiv (rnInt p.fa) (rnInt p.n))) (fMul 0x40000000 fPeak), wd)
  | _, _ => none

/-- FORCED: the peak bins of this window and of the three before it differ by at most one bin (R201). -/
def forced (kps : List Nat) : Bool :=
  let k4 := kps.take 4
  k4.length == 4 && decide (k4.foldl max 0 ≤ k4.foldl min (k4.headD 0) + 1)

/-- The median of 32 energies: rank 15 of the ascending order (R197). -/
def median32 (xs : List Nat) : Nat := (xs.mergeSort (fun a b => decide (fKey a ≤ fKey b))).getD 15 0

/-- The complex values of signal `i` at a band's bin, oldest window first; none unless it is valid in every one (R202). -/
def shapeColumn (wins : List (List (Option (List (List (Nat × Nat)))))) (i b off : Nat) : Option (List (Nat × Nat)) :=
  allSome (wins.reverse.map (fun w => (w.getD i none).map (fun bands => (bands.getD b []).getD off (0, 0))))

/-- One iteration of the shape's power method; none leaves the loop. -/
def shapeIter (c : List (List (Nat × Nat))) (v : List (Nat × Nat)) : Option (List (Nat × Nat)) :=
  let w := c.map (fun row => (row.zipWith cMul v).foldl cAdd (0, 0))
  let nrm := fSqrt (fSum (w.map (fun z => fAdd (fMul z.1 z.1) (fMul z.2 z.2))))
  if fIsZero nrm then none else some (w.map (fun z => (fDiv z.1 nrm, fDiv z.2 nrm)))

/-- The mode shape of a band (R202): by signal, magnitude and angle. -/
def modeShape (p : OdaPar) (wins : List (List (Option (List (List (Nat × Nat)))))) (b off : Nat) : List (Nat × Nat) :=
  let cols := (List.range p.m).map (fun i => shapeColumn wins i b off)
  let inc := (List.range p.m).filter (fun i => (cols.getD i none).isSome)
  let xs := cols.filterMap id
  let q := fDiv fOne (rnInt wins.length)
  let c := xs.map (fun a => xs.map (fun z => cScale q ((a.zipWith (fun s t => cMul s (cConj t)) z).foldl cAdd (0, 0))))
  let diag (i : Nat) : Nat := ((c.getD i []).getD i (0, 0)).1
  let r := (List.range xs.length).foldl (fun r i => if fLt (diag r) (diag i) then i else r) 0
  let v0 := (List.range xs.length).map (fun i => if i = r then (fOne, 0) else (0, 0))
  let v := iterate 4 (shapeIter c) v0
  let refPos := (inc.findIdx? (fun i => i == p.ref)).getD r
  let pz := v.getD refPos (0, 0)
  let mag := cMag pz
  let out := v.map (fun z => let w := cMul z (cConj pz); let u := (fDiv w.1 mag, fDiv w.2 mag); (cMag u, cArg u))
  (List.range p.m).map (fun i => match inc.findIdx? (fun j => j == i) with
    | some k => out.getD k (0, fNaN)
    | none => (0, fNaN))

/-- The shape records of a band (R204). -/
def shapeRecords (p : OdaPar) (inst b time : Nat) (sh : List (Nat × Nat)) : List (List Byte) :=
  (List.range ((p.m + 1) / 2)).map (fun i =>
    let second := 2 * i + 1 < p.m
    let v (j : Nat) : List Byte := let z := sh.getD j (0, 0); toLe 4 z.1 ++ toLe 4 z.2
    toLe 2 0x0802 ++ toLe 2 inst ++ toLe 1 b ++ toLe 1 i ++ toLe 1 (2 * i) ++ toLe 1 (if second then 2 * i + 1 else 0xFF) ++ v (2 * i)
      ++ (if second then v (2 * i + 1) else List.replicate 8 0) ++ toLe 8 time)

/-- A window record (R204). -/
def winRecord (flags inst b valid time f z e t : Nat) : List Byte :=
  toLe 2 0x0801 ++ toLe 2 flags ++ toLe 2 inst ++ toLe 1 b ++ toLe 1 valid ++ toLe 8 time ++ toLe 4 f ++ toLe 4 z ++ toLe 4 e ++ toLe 4 t

/-- What one band of a window gives: its new state, its record, its shape records, its first value, and whether it exceeds and its
alarm changed. -/
structure BandOut where
  band : OdaBand
  record : List Byte
  shape : List (List Byte) := []
  value : Nat
  exceed : Bool := false
  changed : Bool := false

/-- The flags every band's record of a window carries: PROV and RESTRUCT. -/
def winFlags (prov restruct : Bool) : Nat := b2n prov * 64 + b2n restruct * 512

/-- One band of a window with a result (R197-R202). -/
def bandWindow (p : OdaPar) (w : OdaWin) (wins : List (List (Option (List (List (Nat × Nat)))))) (inst time flags valid i : Nat)
    (bp : BandPar) (b : OdaBand) : BandOut :=
  let e := w.energy bp
  let learning := b.hist.length < 32
  let t := if learning then fNaN else fMul (median32 b.hist) bp.factor
  let ex := !learning && fLt t e
  let hist := if ex && p.freeze then b.hist else (e :: b.hist).take 32
  let exRun := if learning then b.exRun else if ex then b.exRun + 1 else 0
  let quiet := if learning then b.quietRun else if ex then 0 else b.quietRun + 1
  let alarm := if learning then b.alarm else if p.persistOn ≤ exRun then true else if p.persistOff ≤ quiet then false else b.alarm
  let changed := alarm != b.alarm
  let kp := w.peak bp
  let f := w.fPeak p kp
  let kps := (kp :: b.kps).take 4
  let (z, lim, nod) := match w.zeta p kp f with
    | some (z, wd) => (z, fLt wd 0x40000000, false)
    | none => (fNaN, false, true)
  let fl := flags + b2n alarm + b2n ex * 2 + b2n (forced kps) * 4 + b2n learning * 8 + b2n lim * 16 + b2n nod * 32 + b2n changed * 128
  { band := { hist := hist, exRun := exRun, quietRun := quiet, alarm := alarm, kps := kps }
    record := winRecord fl inst i valid time f z e t
    shape := if alarm then shapeRecords p inst i time (modeShape p wins i (kp - bp.klo)) else []
    value := f, exceed := ex, changed := changed }

/-- One band of a window without a result (R194): its values are open, and so are those of its shape records (R204). -/
def bandNoResult (p : OdaPar) (inst time flags valid i : Nat) (bp : BandPar) (b : OdaBand) (d : Dev) : BandOut × Dev :=
  let (f, d) := d.drawWord
  let (z, d) := d.drawWord
  let (e, d) := d.drawWord
  let learning := b.hist.length < 32
  let t := if learning then fNaN else fMul (median32 b.hist) bp.factor
  let (sh, d) := if b.alarm then forN p.m (fun _ (a : List (Nat × Nat) × Dev) =>
      let (m, d) := a.2.drawWord
      let (v, d) := d.drawWord
      (a.1 ++ [(m, v)], d)) ([], d) else ([], d)
  ({ band := b, record := winRecord (flags + b2n b.alarm + b2n learning * 8 + 256) inst i valid time f z e t
     shape := if b.alarm then shapeRecords p inst i time sh else [], value := f }, d)

/-- The records of a window under rec_mode (R204). -/
def odaRecords (p : OdaPar) (outs : List BandOut) (d : Dev) : Dev :=
  let write := p.recMode == 3 || (1 ≤ p.recMode && outs.any (fun o => o.changed)) || (p.recMode == 2 && outs.any (fun o => o.exceed))
  if write then forL outs (fun o d => forL (o.record :: o.shape) (fun r d => kernRecord p.queue r d) d) d else d

/-- ODA_WINDOW (R194-R205): a window that ends at the task's instant. One without a result ends the run of consecutive windows that R202
counts. -/
def odaWindowRun (t : Task) (n : Nat) (x : Gathering) (p : OdaPar) (s : OdaSt) (d : Dev) : OdaSt × Option DetResult × Dev :=
  let w := odaWindow p s.dec
  let valid := (w.xs.filterMap id).length
  let prov := (s.dec.samples.take p.n).any (fun r => r.any (fun y => y.prov))
  let flags := winFlags prov s.restruct
  let time := x.g
  let (outs, wins, d) :=
    if p.minSig ≤ valid then
      let sc : List (Option (List (List (Nat × Nat)))) := w.xs.map (fun o => o.map (fun X =>
        p.bands.map (fun b => ((X.drop b.klo).take (b.khi - b.klo)).map (cScale w.scale))))
      let wins := (sc :: s.wins).take p.welch
      ((p.bands.zip s.bands).zipIdx.map (fun y => bandWindow p w wins t.inst time flags valid y.2 y.1.1 y.1.2), wins, d)
    else
      let (outs, d) := (p.bands.zip s.bands).zipIdx.foldl (fun (acc : List BandOut × Dev) y =>
        let (o, d) := bandNoResult p t.inst time flags valid y.2 y.1.1 y.1.2 acc.2
        (acc.1 ++ [o], d)) ([], d)
      (outs, [], d)
  let d := odaRecords p outs d
  let bitsOf := outs.zipIdx.foldl (fun a y => a + b2n y.1.band.alarm * 2 ^ y.2) 0
  let vals := outs.zipIdx.map (fun y => (y.2, y.1.value))
  let r := gathResult t n x p.cls bitsOf vals false s.restruct (outs.map BandOut.record) false
  ({ s with bands := outs.map BandOut.band, wins := wins, restruct := false }, some r, d)

/-- The state at state_reset. -/
def OdaSt.init (crc : Nat) (p : OdaPar) (restruct : Bool) : OdaSt :=
  { dec := DecSt.init crc p.m, bands := List.replicate p.bands.length {}, restruct := restruct }

/-- One instant of the decimation; a window follows at a hop when at least N samples have been formed (R194). -/
def odaInstant (t : Task) (n : Nat) (x : Gathering) (p : OdaPar) (k : Nat) (s : OdaSt) (d : Dev) : OdaSt × Option DetResult × Dev :=
  let vs := p.sigs.map (fun sg => d.sigValue t n x (p.sigs.getD p.ref sg) sg)
  let (formed, dec) := decInstant p.dec k (t.kind == 0) vs s.dec
  let s := { s with dec := dec }
  if formed && (k / p.dec.dd) % (p.n / p.hopDiv) == 0 && p.n ≤ dec.samples.length then odaWindowRun t n x p s d else (s, none, d)

/-- ODA_DECIM on engine `e` (R186-R193): it reads its state, and writes it where the instant is processed or the state reset (R169). -/
def odaTask (e : Nat) (t : Task) (d : Dev) : KEnd × Dev :=
  match d.taskView t with
  | none => ({ outcome := 4 }, d)
  | some (n, x) => match odaPar t.params with
    | none => ({ status := stParam }, d)
    | some p => match indexOf p.dec.rate x.g with
      | none => ({ status := stParam }, d)
      | some k =>
        if d.stateLen t < p.stateSize then ({ status := stStateSmall }, d)
        else
          let (ok, d) := stateAccess e t.inst .read d
          let crc := crc32c (odaStruct t.params)
          let fresh := OdaSt.init crc p
          let s := if t.stateReset then fresh false else (lookup t.inst d.kern.oda).getD (fresh false)
          let dup := t.kind == 2 || s.dec.lastG.any (fun j => decide (x.g ≤ j))
          if !ok then ({ outcome := 5 }, d)
          else if dup && !t.stateReset then ({ status := stDup }, d)
          else
            let (ok, d) := stateAccess e t.inst .write d
            let d := privateArea t.inst p.stateSize d
            let save (s : OdaSt) (d : Dev) : Dev := { d with kern := { d.kern with oda := insertKey t.inst s d.kern.oda } }
            if !ok then ({ outcome := 5 }, d)
            else if dup then ({ status := stDup }, save s d)
            else
              let anew := s.dec.crc != crc
              let s := if anew then fresh true else s
              let gap := gapInstants s.dec k
              let none_ := p.sigs.map (fun _ => (none : Option Nat))
              let s := { s with dec := forL gap (fun j c => (decInstant p.dec j false none_ c).2) s.dec }
              let (s, r, d) := odaInstant t n x p k s d
              let d := if anew && r.isNone then detGive { inst := t.inst, cls := p.cls, signal := true, instant := x.g } d else d
              ({ status := if anew then stRestruct else 0, result := r }, save { s with dec := { s.dec with lastG := some x.g } } d)

end Sys2Proof.Machine
end

