-- ==== Sys2Proof/Machine/KernelRda.lean ====
section
/-! DEFINITION. The RDA kernel: triggers, the linear predictor, its roots, modes and records (R206-R212). -/
namespace Sys2Proof.Machine

/-! ## Parameter block (R211) -/

/-- The RDA parameter block. -/
structure RdaPar where
  m : Nat
  dec : DecPar
  p : Nat
  ns : Nat
  skip : Nat
  maxModes : Nat
  cls : Nat
  queue : Nat
  holdoff : Nat
  stepOn : Bool
  extOn : Bool
  recEn : Bool
  extTrig : Nat
  fLo : Nat
  fHi : Nat
  zetaThr : Nat
  ampMin : Nat
  sigs : List Sigd
  steps : List Nat
  deriving DecidableEq, Repr

/-- fa. -/
def RdaPar.fa (p : RdaPar) : Nat := p.dec.rate / p.dec.dd

/-- Read and check the block. -/
def rdaPar (bs : List Byte) : Option RdaPar :=
  let m := byteAt bs 0
  let dd := byteAt bs 1
  let lh := byteAt bs 2
  let fit := byteAt bs 4
  let rate := byteAt bs 6
  let steps := (List.range m).map (fun s => leAt bs (0x30 + 12 * s + 8) 4)
  if 0x90 + 4 * lh ≤ bs.length && 1 ≤ m && m ≤ 8 && decRateOk rate dd && 1 ≤ lh && 4 ≤ byteAt bs 3 && byteAt bs 3 ≤ 16 && 10 ≤ fit && fit ≤ 30
      && 1 ≤ byteAt bs 7 && byteAt bs 7 ≤ 8 && classOk (byteAt bs 8) && byteAt bs 9 ≤ 63 && 1 ≤ byteAt bs 12 && byteAt bs 13 ≤ 7
      && zeroAt bs 14 2 && zeroAt bs 0x24 12 && steps.all (fun v => fLe 0 v) then
    match allSome ((List.range m).map (fun s => sigdOf (slice bs (0x30 + 12 * s) 8))) with
    | some sigs =>
      let ns := fit * (rate / dd)
      some {
        m := m, p := byteAt bs 3, ns := ns, skip := byteAt bs 5, maxModes := byteAt bs 7, cls := byteAt bs 8, queue := byteAt bs 9
        holdoff := byteAt bs 10, stepOn := bitAt (byteAt bs 13) 0, extOn := bitAt (byteAt bs 13) 1, recEn := bitAt (byteAt bs 13) 2
        extTrig := leAt bs 16 4, fLo := leAt bs 20 4, fHi := leAt bs 24 4, zetaThr := leAt bs 28 4, ampMin := leAt bs 32 4
        sigs := sigs, steps := steps
        dec := {
          dd := dd, lh := lh, rate := rate, maxHold := byteAt bs 11, gapMax := byteAt bs 12
          h := wordsAt bs 0x90 lh, keep := ns } }
    | none => none
  else none

/-- The structural bytes of the block. -/
def rdaStruct (bs : List Byte) : List Byte :=
  slice bs 0 7 ++ slice bs 0x14 8 ++ ((List.range (byteAt bs 0)).map (fun s => slice bs (0x30 + 12 * s) 8)).flatten
    ++ slice bs 0x90 (4 * byteAt bs 2)

/-- The state size of R190. -/
def RdaPar.stateSize (p : RdaPar) : Nat := 4096 + 4 * p.m * (p.dec.lh + p.ns)

/-! ## Matrices -/

/-- A matrix by rows. -/
abbrev Mat := List (List Nat)

/-- An element. -/
def Mat.at (h : Mat) (i j : Nat) : Nat := (h.getD i []).getD j 0

/-- A matrix with one element replaced. -/
def Mat.put (h : Mat) (i j v : Nat) : Mat := modAt h i (fun r => setAt r j v)

/-! ## The predictor (R208) -/

/-- Σ over signals and then over t of rn(y[t − a] × y[t − b]), in one accumulator. -/
def lagSum (ys : List (Array Nat)) (p ns a b : Nat) : Nat :=
  ys.foldl (fun acc y => (List.range (ns - p)).foldl (fun acc i => fAdd acc (fMul (y.getD (p + i - a) 0) (y.getD (p + i - b) 0))) acc) 0

/-- e minus the products of two lists, left to right. -/
def subProducts (e : Nat) (xs : List (Nat × Nat)) : Nat := xs.foldl (fun e x => fSub e (fMul x.1 x.2)) e

/-- One column of the factor L; none ends with ILL. -/
def cholColumn (r : Mat) (p j : Nat) (l : Mat) : Option Mat :=
  let dj := subProducts (r.at j j) ((List.range j).map (fun q => (l.at j q, l.at j q)))
  if !(fLt 0 dj) || !fIsFinite dj then none
  else
    let root := fSqrt dj
    let l := l.put j j root
    some ((List.range (p - 1 - j)).foldl (fun l i =>
      let i := j + 1 + i
      l.put i j (fDiv (subProducts (r.at i j) ((List.range j).map (fun q => (l.at i q, l.at j q)))) root)) l)

/-- The factor of R by columns. -/
def cholesky (r : Mat) (p : Nat) : Option Mat :=
  (List.range p).foldl (fun o j => o.bind (cholColumn r p j)) (some (List.replicate p (List.replicate p 0)))

/-- The coefficients a that solve R·a = −rr; none ends with ILL. -/
def predictor (ys : List (Array Nat)) (p ns : Nat) : Option (List Nat) :=
  let low : Mat := (List.range p).map (fun i => (List.range p).map (fun j => if j ≤ i then lagSum ys p ns (1 + i) (1 + j) else 0))
  let rr := (List.range p).map (fun i => lagSum ys p ns 0 (1 + i))
  (cholesky low p).map (fun l =>
    let u := (List.range p).foldl (fun u i =>
      u ++ [fDiv (subProducts (fNeg (rr.getD i 0)) ((List.range i).map (fun q => (l.at i q, u.getD q 0)))) (l.at i i)]) []
    (List.range p).foldl (fun (a : List Nat) c =>
      let i := p - 1 - c
      -- a holds a[i + 1] … a[p − 1]
      fDiv (subProducts (u.getD i 0) (a.zipIdx.map (fun x => (l.at (i + 1 + x.2) i, x.1)))) (l.at i i) :: a) [])

/-! ## Roots (R209) -/

/-- The companion matrix. -/
def companion (a : List Nat) : Mat :=
  let p := a.length
  (List.range p).map (fun i => (List.range p).map (fun j => if i = 0 then fNeg (a.getD j 0) else if j + 1 = i then fOne else 0))

/-- The roots of a 2 × 2 block. -/
def blockRoots (a b c e : Nat) : List (Nat × Nat) :=
  let pp := fMul 0x3F000000 (fSub a e)
  let bc := fMul b c
  let qq := fAdd (fMul pp pp) bc
  if fLe 0 qq then
    let s := fSqrt qq
    let zz := fAdd pp (if fLt pp 0 then fNeg s else s)
    if fIsZero zz then [(e, 0), (e, 0)] else [(fAdd e zz, 0), (fSub e (fDiv bc zz), 0)]
  else
    let s := fSqrt (fNeg qq)
    [(fAdd e pp, s), (fAdd e pp, fNeg s)]

/-- vec · column, left to right. -/
def dotList (xs : List (Nat × Nat)) : Nat :=
  match xs with
  | [] => 0
  | x :: ys => ys.foldl (fun a y => fAdd a (fMul y.1 y.2)) (fMul x.1 x.2)

/-- One reflection of a Francis step at row `k`: the matrix with the reflection of `vec` applied from both sides. -/
def reflect (l u k : Nat) (vec : List Nat) (h : Mat) : Mat :=
  let q := vec.length
  let nn := dotList (vec.zip vec)
  if !(fLt 0 nn) then h
  else
    let x := vec.headD 0
    let root := fSqrt nn
    let alpha := if fLt x 0 then root else fNeg root
    let vec := setAt vec 0 (fSub x alpha)
    let beta := fDiv 0x40000000 (dotList (vec.zip vec))
    let j0 := max l (k - 1)
    let h := (List.range (u + 1 - j0)).foldl (fun h j =>
      let j := j0 + j
      let w := fMul beta (dotList (vec.zipIdx.map (fun v => (v.1, h.at (k + v.2) j))))
      vec.zipIdx.foldl (fun h v => h.put (k + v.2) j (fSub (h.at (k + v.2) j) (fMul v.1 w))) h) h
    let h := (List.range (min (k + q) u + 1 - l)).foldl (fun h i =>
      let i := l + i
      let w := fMul beta (dotList (vec.zipIdx.map (fun v => (h.at i (k + v.2), v.1))))
      vec.zipIdx.foldl (fun h v => h.put i (k + v.2) (fSub (h.at i (k + v.2)) (fMul w v.1))) h) h
    if l < k then
      let h := h.put (k + 1) (k - 1) 0
      if q = 3 then h.put (k + 2) (k - 1) 0 else h
    else h

/-- One Francis step on rows l … u. -/
def francis (l u : Nat) (h : Mat) : Mat :=
  let a (i j : Nat) : Nat := h.at i j
  let s := fAdd (a (u - 1) (u - 1)) (a u u)
  let t := fSub (fMul (a (u - 1) (u - 1)) (a u u)) (fMul (a (u - 1) u) (a u (u - 1)))
  let x := fAdd (fSub (fAdd (fMul (a l l) (a l l)) (fMul (a l (l + 1)) (a (l + 1) l))) (fMul s (a l l))) t
  let y := fMul (a (l + 1) l) (fSub (fAdd (a l l) (a (l + 1) (l + 1))) s)
  let z := fMul (a (l + 1) l) (a (l + 2) (l + 1))
  ((List.range (u - l)).foldl (fun (acc : (Nat × Nat × Nat) × Mat) i =>
    let k := l + i
    let ((x, y, z), h) := acc
    let vec := if k < u - 1 then [x, y, z] else [x, y]
    let h := reflect l u k vec h
    if k < u - 1 then ((h.at (k + 1) k, h.at (k + 2) k, if k + 3 ≤ u then h.at (k + 3) k else 0), h) else ((x, y, z), h)) ((x, y, z), h)).2

/-- The lowest row of the active block that ends at row `u`. -/
def activeRow (h : Mat) : Nat → Nat
  | 0 => 0
  | l + 1 =>
    if fLt (fMul 0x34000000 (fAdd (fAbs (h.at l l)) (fAbs (h.at (l + 1) (l + 1))))) (fAbs (h.at (l + 1) l)) then activeRow h l else l + 1

/-- The search of R209: `rows` = u + 1 rows are left, `it` steps were made. Answers the roots, the steps and NONCONV. -/
def rootSearch : Nat → Nat → Nat → Mat → List (Nat × Nat) → List (Nat × Nat) × Nat × Bool
  | 0, _, it, _, rs => (rs, it, false)
  | fuel + 1, rows, it, h, rs =>
    if rows = 0 then (rs, it, false)
    else
      let u := rows - 1
      let l := activeRow h u
      let h := if 0 < l then h.put l (l - 1) 0 else h
      if l = u then rootSearch fuel (rows - 1) it h (rs ++ [(h.at u u, 0)])
      else if l + 1 = u then
        rootSearch fuel (rows - 2) it h (rs ++ blockRoots (h.at (u - 1) (u - 1)) (h.at (u - 1) u) (h.at u (u - 1)) (h.at u u))
      else if it = 64 then (rs, it, true)
      else rootSearch fuel rows (it + 1) (francis l u h) rs

/-- The roots of the predictor's polynomial. -/
def predictorRoots (a : List Nat) : List (Nat × Nat) × Nat × Bool := rootSearch 100 a.length 0 (companion a) []

/-! ## Modes (R210) -/

/-- A mode: f, ζ, σ, its amplitude and the signal of it. -/
structure RdaMode where
  f : Nat
  zeta : Nat
  sigma : Nat
  amp : Nat := 0
  sig : Nat := 0
  deriving DecidableEq, Repr

/-- rn(1 / 2π). -/
def rnInvTwoPi : Nat := rnQ fxOne (natOf (2 * fxPi))

/-- The amplitude A_c of a mode in one signal. -/
def modeAmp (z : Nat × Nat) (y : List Nat) : Nat :=
  let zc := cConj z
  let r := y.foldl (fun (s : (Nat × Nat) × (Nat × Nat) × Nat) v =>
    let (zk, acc, den) := s
    (cMul zk zc, (fAdd acc.1 (fMul v zk.1), fAdd acc.2 (fMul v zk.2)), fAdd den (fAdd (fMul zk.1 zk.1) (fMul zk.2 zk.2))))
    ((fOne, 0), (0, 0), 0)
  fDiv (fMul 0x40000000 (cMag r.2.1)) r.2.2

/-- The mode of a root above the real axis, with the root. -/
def modeOf (fa : Nat) (z : Nat × Nat) : RdaMode × (Nat × Nat) :=
  let sg := fMul (fLn (cMag z)) (rnInt fa)
  let w := fMul (cArg z) (rnInt fa)
  ({ f := fMul w rnInvTwoPi, zeta := fDiv (fNeg sg) (fSqrt (fAdd (fMul sg sg) (fMul w w))), sigma := sg }, z)

/-- ζ then f, ascending. -/
def modeLe (a b : RdaMode × (Nat × Nat)) : Bool :=
  fKey a.1.zeta < fKey b.1.zeta || (fKey a.1.zeta == fKey b.1.zeta && fKey a.1.f ≤ fKey b.1.f)

/-- The reported modes of a fit: `ys` are the included signals with their numbers, mean-free. -/
def rdaModes (p : RdaPar) (roots : List (Nat × Nat)) (ys : List (Nat × List Nat)) : List RdaMode :=
  let cand := (roots.filter (fun z => fLt 0 z.2)).map (modeOf p.fa)
  let inBand := cand.filter (fun c => fLe p.fLo c.1.f && fLt c.1.f p.fHi)
  ((inBand.mergeSort modeLe).take p.maxModes).map (fun c =>
    let amps := ys.map (fun y => (y.1, modeAmp c.2 y.2))
    let best := amps.tail.foldl (fun b a => if fLt b.2 a.2 then a else b) (amps.headD (0, 0))
    { c.1 with amp := best.2, sig := best.1 })

/-- A mode alarms. -/
def RdaPar.alarms (p : RdaPar) (m : RdaMode) : Bool := fLt m.zeta p.zetaThr && fLe p.ampMin m.amp

/-! ## Fits (R207, R212) -/

/-- A fit that ends at the newest sample: its records, its result and the state after it. `k` is the instant's index, of time `g`. -/
def rdaFit (t : Task) (n : Nat) (x : Gathering) (p : RdaPar) (g : Nat) (s : RdaSt) (d : Dev) : RdaSt × Option DetResult × Dev :=
  let inc := (List.range p.m).filter (fun i => (s.dec.column i p.ns).all (fun y => y.valid))
  let free (i : Nat) : List Nat :=
    let c := (s.dec.column i p.ns).map Samp.y
    let mu := fDiv (fSum c) (rnInt p.ns)
    c.map (fun y => fSub y mu)
  let ys := inc.map (fun i => (i, free i))
  let co := if inc.isEmpty then none else predictor (ys.map (fun y => y.2.toArray)) p.p p.ns
  let (roots, it, nonconv) := match co with
    | some a => predictorRoots a
    | none => ([], 0, false)
  let modes := rdaModes p roots ys
  let alarm := if co.isSome then modes.any p.alarms else s.alarm
  let prov := s.dec.samples.any (fun r => r.any (fun y => y.prov))
  let start := instantAt p.dec.rate ((s.trig + p.skip) * p.dec.dd)
  let trigT := instantAt p.dec.rate (s.trig * p.dec.dd)
  let zmin := match modes with | m :: _ => m.zeta | [] => fNaN
  let flags := b2n alarm + b2n inc.isEmpty * 2 + b2n (!inc.isEmpty && co.isNone) * 4 + b2n nonconv * 8 + b2n s.step * 16 + b2n s.ext * 32
    + b2n s.ignored * 64 + b2n prov * 128 + b2n s.restruct * 256
  let rec_ := toLe 2 0x0803 ++ toLe 2 flags ++ toLe 2 t.inst ++ toLe 1 modes.length ++ toLe 1 (inc.foldl (fun a i => a + 2 ^ i) 0)
    ++ toLe 8 trigT ++ toLe 8 start ++ toLe 1 it ++ toLe 1 p.p ++ toLe 2 p.ns ++ toLe 4 zmin
  let modeRec (y : RdaMode × Nat) : List Byte := toLe 2 0x0804 ++ toLe 2 (b2n (p.alarms y.1) + y.2 % 8 * 2) ++ toLe 2 t.inst ++ toLe 1 y.1.sig
    ++ toLe 1 0 ++ toLe 8 trigT ++ toLe 4 y.1.f ++ toLe 4 y.1.zeta ++ toLe 4 y.1.amp ++ toLe 4 y.1.sigma
  let d := if p.recEn then forL (rec_ :: modes.zipIdx.map modeRec) (fun r d => kernRecord p.queue r d) d else d
  let res := gathResult t n x p.cls (b2n alarm) [(0, zmin)] false s.restruct [rec_] false
  ({ s with
    mode := if p.holdoff = 0 then 0 else 2, holdEnd := g + p.holdoff * 1000000000, alarm := alarm, step := false, ext := false
    ignored := false, restruct := false }, some res, d)

/-- A STEP trigger at the newest sample (R206). -/
def rdaStepTrig (p : RdaPar) (s : DecSt) : Bool :=
  match s.samples with
  | a :: b :: _ => p.stepOn && ((a.zip b).zip p.steps).any (fun y =>
      fLt 0 y.2 && y.1.1.valid && y.1.2.valid && fLe y.2 (fAbs (fSub y.1.1.y y.1.2.y)))
  | _ => false

/-- One instant: decimation, then at a decimated index the end of HOLDOFF, the triggers and a fit that ends there (R206, R207). -/
def rdaInstant (t : Task) (n : Nat) (x : Gathering) (p : RdaPar) (k : Nat) (prov : Bool) (vs : List (Option Nat))
    (acc : RdaSt × Option DetResult × Dev) : RdaSt × Option DetResult × Dev :=
  let (s, r, d) := acc
  let (formed, dec) := decInstant p.dec k prov vs s.dec
  let s := { s with dec := dec }
  if !formed then (s, r, d)
  else
    let i := k / p.dec.dd
    let g := instantAt p.dec.rate k
    let s := if s.mode = 2 && s.holdEnd ≤ g then { s with mode := 0 } else s
    let st := rdaStepTrig p dec
    let ex := s.extPend
    let s := { s with extPend := false }
    let s := if s.mode = 0 then
        if st || ex then { s with mode := 1, trig := i, step := st, ext := ex } else s
      else if st || ex then { s with ignored := true } else s
    if s.mode = 1 && i + 1 == s.trig + p.skip + p.ns then
      let (s, r, d) := rdaFit t n x p g s d
      (s, r, d)
    else (s, r, d)

/-- The state at state_reset: it takes the current ext_trig without triggering. -/
def RdaSt.init (crc : Nat) (p : RdaPar) (restruct : Bool) : RdaSt :=
  { dec := DecSt.init crc p.m, extLast := p.extTrig, restruct := restruct }

/-- The values of the signals at the task's instant. The block names no reference signal, so the value of a present ANGLE_REL is open
(log entry 19). -/
def rdaInputs (t : Task) (n : Nat) (x : Gathering) : List Sigd → Dev → List (Option Nat) × Dev
  | [], d => ([], d)
  | s :: ss, d =>
    let (v, d) := if s.qty = 1 then
        match d.viewPhasor t n x s.src s.slot with
        | some _ => let (w, d) := d.drawWord; (some w, d)
        | none => (none, d)
      else (d.sigValue t n x s s, d)
    let (vs, d) := rdaInputs t n x ss d
    (v :: vs, d)

/-- RDA_FIT on engine `e`. -/
def rdaTask (e : Nat) (t : Task) (d : Dev) : KEnd × Dev :=
  match d.taskView t with
  | none => ({ outcome := 4 }, d)
  | some (n, x) => match rdaPar t.params with
    | none => ({ status := stParam }, d)
    | some p => match indexOf p.dec.rate x.g with
      | none => ({ status := stParam }, d)
      | some k =>
        if d.stateLen t < p.stateSize then ({ status := stStateSmall }, d)
        else
          let (ok, d) := stateAccess e t.inst .read d
          let crc := crc32c (rdaStruct t.params)
          let fresh := RdaSt.init crc p
          let s := if t.stateReset then fresh false else (lookup t.inst d.kern.rda).getD (fresh false)
          let dup := t.kind == 2 || s.dec.lastG.any (fun j => decide (x.g ≤ j))
          if !ok then ({ outcome := 5 }, d)
          else if dup && !t.stateReset then ({ status := stDup }, d)
          else
            let (ok, d) := stateAccess e t.inst .write d
            let d := privateArea t.inst p.stateSize d
            let save (s : RdaSt) (d : Dev) : Dev := { d with kern := { d.kern with rda := insertKey t.inst s d.kern.rda } }
            if !ok then ({ outcome := 5 }, d)
            else if dup then ({ status := stDup }, save s d)
            else
              let anew := s.dec.crc != crc
              let s := if anew then fresh true else s
              let s := { s with extPend := s.extPend || (p.extOn && p.extTrig != s.extLast), extLast := p.extTrig }
              let none_ := p.sigs.map (fun _ => (none : Option Nat))
              let acc := forL (gapInstants s.dec k) (fun j acc => rdaInstant t n x p j false none_ acc) (s, none, d)
              let (vs, d) := rdaInputs t n x p.sigs acc.2.2
              let acc := (acc.1, acc.2.1, d)
              let (s, r, d) := rdaInstant t n x p k (t.kind == 0) vs acc
              let d := if anew && r.isNone then detGive { inst := t.inst, cls := p.cls, signal := true, instant := x.g } d else d
              ({ status := if anew then stRestruct else 0, result := r }, save { s with dec := { s.dec with lastG := some x.g } } d)

end Sys2Proof.Machine
end

