-- ==== Sys2Proof/Machine/KernelIslLim.lean ====
section
/-! DEFINITION. ISL_AREA, ISL_LOCAL and LIM_EVAL: islanding between areas, local islanding and limit checks (R214-R226). -/
namespace Sys2Proof.Machine

/-! ## Entries (R217, R218) -/

/-- A set or clear test of a mode (R218): 0 HIGH, 1 LOW, 2 ABS. -/
def setTest (mode v set : Nat) : Bool :=
  match mode with
  | 0 => fLt set v
  | 1 => fLt v set
  | _ => fLt set (fAbs v)
def clrTest (mode v clr : Nat) : Bool :=
  match mode with
  | 0 => fLt v clr
  | 1 => fLt clr v
  | _ => fLt (fAbs v) clr

/-- The thresholds meet what a mode requires. -/
def thrOk (mode set clr : Nat) : Bool :=
  match mode with
  | 0 => fLe clr set
  | 1 => fLe set clr
  | _ => fLe 0 clr && fLe clr set

/-- One evaluation of an entry (R217, R218): a missing one changes nothing; the answer says whether the active bit changed. -/
def checkStep (miss set clr : Bool) (on off : Nat) (c : Check) : Check × Bool :=
  if miss then (c, false)
  else if c.active then
    let run := if clr then c.run + 1 else 0
    if clr && off ≤ run then ({ c with active := false, run := 0 }, true) else ({ c with run := run }, false)
  else
    let run := if set then c.run + 1 else 0
    if set && on ≤ run then ({ c with active := true, run := 0 }, true) else ({ c with run := run }, false)

/-- A finite value, or none: a value that is not finite is missing (R217). -/
def finiteVal (v : Nat) : Option Nat := if fIsFinite v then some v else none

/-- A missing value is written as the NaN (R226). -/
def orNaN (v : Option Nat) : Nat := v.getD fNaN

/-- What an evaluation of one entry measured: missing, set test, clear test, the 16 value bytes of its record, those of the record of a
reset, at which no threshold decides, and those of a record without a measurement, its first value, and for a pair the new rel_prev. -/
structure Meas where
  miss : Bool
  set : Bool
  clr : Bool
  body : List Byte
  resetBody : List Byte := body
  blank : List Byte := toLe 4 fNaN ++ toLe 4 fNaN ++ toLe 4 fNaN ++ toLe 4 fNaN
  first : Nat
  prev : Option ((Nat × Nat) × Nat) := none

/-- A changed entry: its record, its point and its first value. -/
structure Change where
  rec_ : List Byte
  point : Nat
  value : Nat

/-- An entry of a table as the common part of the kernels sees it. -/
structure EntryPar where
  enable : Bool
  point : Nat
  on : Nat
  off : Nat
  crc : Nat
  deriving DecidableEq, Repr

/-- An entry record (R226). -/
def entryRecord (code flags inst : Nat) (index : List Byte) (instant : Nat) (body : List Byte) : List Byte :=
  toLe 2 code ++ toLe 2 flags ++ toLe 2 inst ++ index ++ toLe 8 instant ++ body

/-- The flags of an entry record. -/
def entryFlags (active prov reset : Bool) (point : Nat) : Nat := b2n active + b2n prov * 2 + b2n reset * 4 + point * 16

/-- One entry of an evaluation: re-initialisation by the instance (`anew`) or by its own CRC (R189, R216), then, where it is enabled,
its test. The records of both changes are answered in order; the reset flag stays pending until one is written (`recEn`). -/
def entryEval (code inst instant : Nat) (prov anew recEn : Bool) (index : List Byte) (e : EntryPar) (m : Meas) (c : Check) : Check × List Change :=
  let record (flags : Nat) : Change := { rec_ := entryRecord code flags inst index instant m.body, point := e.point, value := m.first }
  let reset : Change := {
    rec_ := entryRecord code (entryFlags false prov true e.point) inst index instant m.resetBody, point := e.point, value := m.first }
  let again := anew || c.crc != e.crc
  let (c, out) :=
    if again then
      if c.active then (({ crc := e.crc, resetFlag := !recEn } : Check), [reset])
      else (({ crc := e.crc, resetFlag := true } : Check), [])
    else (c, [])
  let c := { c with point := e.point, blank := m.blank }
  if e.enable then
    let c := match m.prev with
      | some p => { c with prev := some p }
      | none => c
    let (c', ch) := checkStep m.miss m.set m.clr e.on e.off c
    if ch then ({ c' with resetFlag := c'.resetFlag && !recEn }, out ++ [record (entryFlags c'.active prov c'.resetFlag e.point)]) else (c', out)
  else (c, out)

/-- The point bits: the OR of the active bits of the enabled entries of each point (R225). -/
def pointBits (es : List (EntryPar × Bool)) : Nat :=
  (List.range 16).foldl (fun a b => a + b2n (es.any (fun x => x.1.enable && x.1.point == b && x.2)) * 2 ^ b) 0

/-- The first value field of the first record naming each point, among the records sent (R225, R231). -/
def changeVals (cs : List Change) : List (Nat × Nat) :=
  (List.range 16).filterMap (fun b => (cs.find? (fun c => c.point == b)).map (fun c => (b, c.value)))

/-- The ranges do not overlap, start at or above the private area and end within the state block (R216). -/
def tablesFit (priv len : Nat) (ts : List (Nat × Nat)) : Bool :=
  ts.all (fun t => priv ≤ t.1 && t.1 + t.2 ≤ len)
    && ts.zipIdx.all (fun a => ts.zipIdx.all (fun b => a.2 == b.2 || a.1.1 + a.1.2 ≤ b.1.1 || b.1.1 + b.1.2 ≤ a.1.1))

/-! ## ISL_AREA (R219, R220) -/

/-- The parameter block of ISL_AREA. -/
structure AreaPar where
  nPair : Nat
  nArea : Nat
  rate : Nat
  cls : Nat
  queue : Nat
  recEn : Bool
  gapMax : Nat
  areaOff : Nat
  pairOff : Nat
  deriving DecidableEq, Repr

/-- Read and check it. -/
def areaPar (bs : List Byte) : Option AreaPar :=
  let p : AreaPar := {
    nPair := leAt bs 0 2, nArea := byteAt bs 2, rate := byteAt bs 3, cls := byteAt bs 4, queue := byteAt bs 5
    recEn := bitAt (byteAt bs 6) 0, gapMax := byteAt bs 7, areaOff := leAt bs 8 4, pairOff := leAt bs 12 4 }
  if 32 ≤ bs.length && 1 ≤ p.nPair && p.nPair ≤ 256 && 1 ≤ p.nArea && p.nArea ≤ 64 && 1 ≤ p.rate && p.rate ≤ 240 && classOk p.cls
      && p.queue ≤ 63 && byteAt bs 6 ≤ 1 && 1 ≤ p.gapMax && p.areaOff % 64 == 0 && p.pairOff % 64 == 0 && zeroAt bs 16 16 then some p
  else none

/-- A member of an area. -/
structure Member where
  src : Nat
  slot : Nat
  weight : Nat
  deriving DecidableEq, Repr

/-- An area. -/
structure Area where
  minPct : Nat
  refSrc : Nat
  refSlot : Nat
  members : List Member
  deriving DecidableEq, Repr

/-- Read and check an area entry of 2,048 bytes. -/
def areaOf (bs : List Byte) : Option Area :=
  let n := byteAt bs 0
  if 1 ≤ n && n ≤ 128 && 1 ≤ byteAt bs 1 && byteAt bs 1 ≤ 100 && leAt bs 2 2 < 8192 && leAt bs 4 4 < 2 ^ 20 && zeroAt bs 8 8 then
    let ms := (List.range n).map (fun i =>
      let o := 16 + 12 * i
      let m : Member := { src := leAt bs o 2, slot := leAt bs (o + 4) 4, weight := leAt bs (o + 8) 4 }
      if m.src < 8192 && zeroAt bs (o + 2) 2 && m.slot < 2 ^ 20 && fPositive m.weight then some m else none)
    (allSome ms).map (fun ms => { minPct := byteAt bs 1, refSrc := leAt bs 2 2, refSlot := leAt bs 4 4, members := ms })
  else none

/-- A pair. -/
structure PairPar where
  a : Nat
  b : Nat
  useDf : Bool
  useDrift : Bool
  dfSet : Nat
  dfClr : Nat
  drSet : Nat
  drClr : Nat
  e : EntryPar
  deriving DecidableEq, Repr

/-- Read and check a pair entry of 32 bytes. -/
def pairOf (nArea : Nat) (bs : List Byte) : Option PairPar :=
  let p : PairPar := {
    a := byteAt bs 0, b := byteAt bs 1, useDf := bitAt (byteAt bs 3) 1, useDrift := bitAt (byteAt bs 3) 2
    dfSet := leAt bs 8 4, dfClr := leAt bs 12 4, drSet := leAt bs 16 4, drClr := leAt bs 20 4
    e := {
      enable := bitAt (byteAt bs 3) 0, point := byteAt bs 2, on := byteAt bs 4, off := byteAt bs 5, crc := crc32c (slice bs 0 4) } }
  if p.a < nArea && p.b < nArea && p.a != p.b && p.e.point ≤ 15 && byteAt bs 3 ≤ 7 && 1 ≤ p.e.on && 1 ≤ p.e.off && zeroAt bs 6 2
      && zeroAt bs 24 8 && thrOk 2 p.dfSet p.dfClr && thrOk 2 p.drSet p.drClr then some p else none

/-- The area frequency (R220): none when the area is not valid or the value is missing. -/
def areaFreq (d : Dev) (t : Task) (n : Nat) (x : Gathering) (a : Area) : Option Nat :=
  let (num, hs, htot) := a.members.foldl (fun (s : Nat × Nat × Nat) m =>
    let htot := fAdd s.2.2 m.weight
    match (d.viewWord t n x m.src m.slot 0).bind finiteVal with
    | some f => (fAdd s.1 (fMul m.weight f), fAdd s.2.1 m.weight, htot)
    | none => (s.1, s.2.1, htot)) (0, 0, 0)
  if fLt 0 hs && fLe (fMul htot (rnInt a.minPct)) (fMul hs (rnInt 100)) then finiteVal (fDiv num hs) else none

/-- The area phasor: none when it is missing. -/
def areaPhasor (d : Dev) (t : Task) (n : Nat) (x : Gathering) (a : Area) : Option (Nat × Nat) :=
  (d.viewPhasor t n x a.refSrc a.refSlot).bind (fun z => if fIsFinite z.1 && fIsFinite z.2 then some z else none)

/-- The measures of a pair at instant index k (R220). -/
def pairMeas (rate gapMax k : Nat) (fs : List (Option Nat)) (ps : List (Option (Nat × Nat))) (p : PairPar) (c : Check) : Meas :=
  let fa := fs.getD p.a none
  let fb := fs.getD p.b none
  let df := match fa, fb with
    | some a, some b => finiteVal (fSub a b)
    | _, _ => none
  let rel := match ps.getD p.a none, ps.getD p.b none with
    | some a, some b => let r := cMul a (cConj b); if fIsFinite r.1 && fIsFinite r.2 then some r else none
    | _, _ => none
  let drift := match rel, c.prev with
    | some r, some (r0, k0) =>
      if k0 < k && k - k0 ≤ gapMax then finiteVal (fMul (cArg (cMul r (cConj r0))) (rnQ rate (k - k0))) else none
    | _, _ => none
  let used := (if p.useDf then [(df, p.dfSet, p.dfClr)] else []) ++ (if p.useDrift then [(drift, p.drSet, p.drClr)] else [])
  let have_ := used.filterMap (fun u => u.1.map (fun v => (v, u.2.1, u.2.2)))
  { miss := have_.isEmpty, set := have_.any (fun u => setTest 2 u.1 u.2.1), clr := have_.all (fun u => clrTest 2 u.1 u.2.2)
    body := toLe 4 (orNaN df) ++ toLe 4 (orNaN drift) ++ toLe 4 (orNaN fa) ++ toLe 4 (orNaN fb), first := orNaN df
    prev := rel.map (fun r => (r, k)) }

/-! ## LIM_EVAL (R223, R224) -/

/-- The parameter block of LIM_EVAL. -/
structure LimPar where
  nCheck : Nat
  cls : Nat
  queue : Nat
  recEn : Bool
  tableOff : Nat
  deriving DecidableEq, Repr

/-- Read and check it. -/
def limPar (bs : List Byte) : Option LimPar :=
  let p : LimPar := {
    nCheck := leAt bs 0 2, cls := byteAt bs 2, queue := byteAt bs 3, recEn := bitAt (byteAt bs 4) 0, tableOff := leAt bs 8 4 }
  if 16 ≤ bs.length && 1 ≤ p.nCheck && p.nCheck ≤ 4096 && classOk p.cls && p.queue ≤ 63 && byteAt bs 4 ≤ 1 && zeroAt bs 5 3
      && p.tableOff % 64 == 0 && zeroAt bs 12 4 then some p else none

/-- A check. -/
structure CheckPar where
  kind : Nat
  mode : Nat
  srcA : Nat
  srcB : Nat
  slotA : Nat
  slotB : Nat
  set : Nat
  clr : Nat
  k : Nat
  e : EntryPar
  deriving DecidableEq, Repr

/-- Read and check a check entry of 32 bytes. -/
def checkOf (bs : List Byte) : Option CheckPar :=
  let c : CheckPar := {
    kind := byteAt bs 0, mode := byteAt bs 1, srcA := leAt bs 4 2, srcB := leAt bs 6 2, slotA := leAt bs 8 4, slotB := leAt bs 12 4
    set := leAt bs 16 4, clr := leAt bs 20 4, k := leAt bs 24 4
    e := {
      enable := byteAt bs 3 == 1, point := byteAt bs 2, on := byteAt bs 28, off := byteAt bs 29, crc := crc32c (slice bs 0 16) } }
  let two := c.kind == 1 || c.kind == 4 || c.kind == 5
  if c.kind ≤ 5 && c.mode ≤ 2 && c.e.point ≤ 15 && byteAt bs 3 ≤ 1 && c.srcA < 8192 && c.srcB < 8192 && c.slotA < 2 ^ 20 && c.slotB < 2 ^ 20
      && (two || (c.srcB == 0 && c.slotB == 0)) && (4 ≤ c.kind || c.k == 0) && thrOk c.mode c.set c.clr && 1 ≤ c.e.on && 1 ≤ c.e.off
      && zeroAt bs 30 2 then some c else none

/-- The value of a check; none when it is missing (R217, R224). -/
def checkValue (d : Dev) (t : Task) (n : Nat) (x : Gathering) (c : CheckPar) : Option Nat :=
  let pa := d.viewPhasor t n x c.srcA c.slotA
  let pb := d.viewPhasor t n x c.srcB c.slotB
  let v := match c.kind with
    | 0 => pa.map cMag
    | 1 => match pa, pb with | some a, some b => some (cArg (cMul a (cConj b))) | _, _ => none
    | 2 => d.viewWord t n x c.srcA c.slotA 0
    | 3 => d.viewWord t n x c.srcA c.slotA 1
    | 4 => match pa, pb with
      | some a, some b => some (fMul c.k (fAdd (fMul a.1 b.1) (fMul a.2 b.2)))
      | _, _ => none
    | _ => match pa, pb with
      | some a, some b => some (fMul c.k (fSub (fMul a.2 b.1) (fMul a.1 b.2)))
      | _, _ => none
  v.bind finiteVal

/-- The measure of a check; the record carries the threshold that decided, which is the one the entry's state tests. -/
def checkMeas (d : Dev) (t : Task) (n : Nat) (x : Gathering) (p : CheckPar) (c : Check) : Meas :=
  let v := checkValue d t n x p
  { miss := v.isNone, set := (v.map (fun v => setTest p.mode v p.set)).getD false, clr := (v.map (fun v => clrTest p.mode v p.clr)).getD false
    body := toLe 4 (orNaN v) ++ toLe 4 (if c.active then p.clr else p.set) ++ toLe 1 p.kind ++ toLe 1 p.mode ++ toLe 2 0 ++ toLe 4 0
    resetBody := toLe 4 (orNaN v) ++ toLe 4 fNaN ++ toLe 1 p.kind ++ toLe 1 p.mode ++ toLe 2 0 ++ toLe 4 0
    blank := toLe 4 fNaN ++ toLe 4 fNaN ++ toLe 1 p.kind ++ toLe 1 p.mode ++ toLe 2 0 ++ toLe 4 0
    first := orNaN v }

/-! ## The evaluation of a table (R214-R216, R225, R226) -/

/-- What the common part needs of a kernel: the code of its records, its class, queue and rec_en, the CRC of its structural fields, the
entries' parameters, and what an entry measures in a state. -/
structure TableKernel where
  code : Nat
  cls : Nat
  queue : Nat
  recEn : Bool
  crc : Nat
  entries : List EntryPar
  meas : Nat → Check → Meas

/-- A task of ISL_AREA or LIM_EVAL after its checks: an evaluation, or a re-run, which changes nothing and sends the raw set
conditions (R215). Where the table has become shorter, an entry past its end that was active becomes inactive with its record (R214). -/
def tableTask (eng : Nat) (t : Task) (n : Nat) (x : Gathering) (k : TableKernel) (priv : Nat) (d : Dev) : KEnd × Dev :=
  let fresh : EvalSt := { crc := k.crc, entries := k.entries.map (fun e => { crc := e.crc }) }
  let s := if t.stateReset then fresh else (lookup t.inst d.kern.eval).getD fresh
  let rerun := match s.lastG with | some g => decide (x.g ≤ g) | none => false
  if rerun then
    let raw := k.entries.zipIdx.map (fun e => (e.1, (k.meas e.2 (s.entries.getD e.2 {})).set && !(k.meas e.2 (s.entries.getD e.2 {})).miss))
    ({ status := stRerun, result := some (gathResult t n x k.cls (pointBits raw) [] true false [] false) }, d)
  else
    let (ok, d) := stateAccess eng t.inst .write d
    if !ok then ({ outcome := 5 }, d)
    else
    let anew := s.crc != k.crc
    let prov := t.kind == 0
    let old (i : Nat) : Check := match s.entries[i]? with
      | some c => c
      | none => { crc := (k.entries.map EntryPar.crc).getD i 0 }
    let outs := k.entries.zipIdx.map (fun e =>
      let c := old e.2
      let again := anew || c.crc != e.1.crc
      let seen : Check := if again then { crc := e.1.crc } else c
      (e.1, entryEval k.code t.inst x.g prov anew k.recEn (toLe 2 e.2) e.1 (k.meas e.2 seen) c))
    let gone := ((s.entries.zipIdx.drop k.entries.length).filter (fun c => c.1.active)).map (fun c =>
      ({ rec_ := entryRecord k.code (entryFlags false prov true c.1.point) t.inst (toLe 2 c.2) x.g c.1.blank, point := c.1.point, value := fNaN } : Change))
    let moved := (outs.map (fun o => o.2.2)).filter (fun c => !c.isEmpty) ++ gone.map (fun c => [c])
    let changes := moved.flatten
    let sent := (moved.take 7).flatten
    let d := privateArea t.inst priv d
    let d := if k.recEn then
        forL changes (fun c d => kernRecord k.queue c.rec_ d) d
      else d
    let st : EvalSt := { crc := k.crc, lastG := some x.g, entries := outs.map (fun o => o.2.1) }
    let bits := pointBits (outs.map (fun o => (o.1, o.2.1.active)))
    let d := { d with kern := { d.kern with eval := insertKey t.inst st d.kern.eval } }
    ({ status := if anew then stRestruct else 0
       result := some (gathResult t n x k.cls bits (changeVals sent) false anew (sent.map Change.rec_) (decide (7 < moved.length))) }, d)

/-- ISL_AREA on engine `e` (R214-R220). -/
def areaTask (e : Nat) (t : Task) (d : Dev) : KEnd × Dev :=
  match d.taskView t with
  | none => ({ outcome := 4 }, d)
  | some (n, x) => match areaPar t.params with
    | none => ({ status := stParam }, d)
    | some p => match indexOf p.rate x.g with
      | none => ({ status := stParam }, d)
      | some k =>
        let priv := 4096 + 32 * p.nPair
        let len := d.stateLen t
        if !tablesFit priv len [(p.areaOff, 2048 * p.nArea), (p.pairOff, 32 * p.nPair)] || len < priv then ({ status := stStateSmall }, d)
        else
          let (ok, d) := stateAccess e t.inst .read d
          if !ok then ({ outcome := 5 }, d)
          else
            let areas := (List.range p.nArea).map (fun a => areaOf (d.stateBytes t.inst (p.areaOff + 2048 * a) 2048))
            let pairs := (List.range p.nPair).map (fun q => pairOf p.nArea (d.stateBytes t.inst (p.pairOff + 32 * q) 32))
            match allSome areas, allSome pairs with
            | some as_, some ps =>
              let fs := as_.map (areaFreq d t n x)
              let zs := as_.map (areaPhasor d t n x)
              let kn : TableKernel := {
                code := 0x0921, cls := p.cls, queue := p.queue, recEn := p.recEn, crc := crc32c (slice t.params 0 2 ++ slice t.params 3 1)
                entries := ps.map PairPar.e
                meas := fun i c => match ps[i]? with
                  | some q => pairMeas p.rate p.gapMax k fs zs q c
                  | none => { miss := true, set := false, clr := false, body := [], first := fNaN } }
              tableTask e t n x kn priv d
            | _, _ => ({ status := stParam }, d)

/-- LIM_EVAL on engine `e` (R214-R218, R223-R226). -/
def limTask (e : Nat) (t : Task) (d : Dev) : KEnd × Dev :=
  match d.taskView t with
  | none => ({ outcome := 4 }, d)
  | some (n, x) => match limPar t.params with
    | none => ({ status := stParam }, d)
    | some p =>
      let priv := 4096 + 8 * p.nCheck
      let len := d.stateLen t
      if !tablesFit priv len [(p.tableOff, 32 * p.nCheck)] || len < priv then ({ status := stStateSmall }, d)
      else
        let (ok, d) := stateAccess e t.inst .read d
        if !ok then ({ outcome := 5 }, d)
        else
          match allSome ((List.range p.nCheck).map (fun i => checkOf (d.stateBytes t.inst (p.tableOff + 32 * i) 32))) with
          | some cs =>
            let kn : TableKernel := {
              code := 0x0911, cls := p.cls, queue := p.queue, recEn := p.recEn, crc := crc32c (slice t.params 0 2)
              entries := cs.map CheckPar.e
              meas := fun i c => match cs[i]? with
                | some q => checkMeas d t n x q c
                | none => { miss := true, set := false, clr := false, body := [], first := fNaN } }
            tableTask e t n x kn priv d
          | none => ({ status := stParam }, d)

/-! ## ISL_LOCAL (R221) -/

/-- The block of ISL_LOCAL is in its ranges. -/
def localOk (bs : List Byte) : Bool :=
  let w (o : Nat) : Nat := leAt bs o 4
  36 ≤ bs.length && classOk (byteAt bs 0) && byteAt bs 1 ≤ 63 && byteAt bs 2 ≤ 15 && 1 ≤ byteAt bs 3 && 1 ≤ byteAt bs 4 && zeroAt bs 5 3
    && thrOk 2 (w 8) (w 12) && thrOk 2 (w 16) (w 20) && thrOk 2 (w 24) (w 28) && (w 32 == 0x42480000 || w 32 == 0x42700000)

/-- ISL_LOCAL: three measures of a fast emission. A task without one finds zeros in its frame (R167). -/
def localTask (t : Task) (d : Dev) : KEnd × Dev :=
  let bs := t.params
  if !localOk bs then ({ status := stParam }, d)
  else
    let w (o : Nat) : Nat := leAt bs o 4
    let (g, vs, ff, rf, stat) := match t.fast with
      | some o => (o.group, o.vs, o.ff, o.rf, o.stat)
      | none => (0, 0, 0, 0, 0)
    let df := fSub ff (w 32)
    let vals := [if bitAt stat 1 then none else finiteVal vs, if bitAt stat 2 then none else finiteVal rf,
      if bitAt stat 1 then none else finiteVal df]
    let fresh : EvalSt := { entries := List.replicate 3 {} }
    let s := if t.stateReset || t.host then fresh else (lookup t.inst d.kern.eval).getD fresh
    let body := toLe 4 (orNaN (vals.getD 0 none)) ++ toLe 4 (orNaN (if bitAt stat 1 then none else finiteVal ff)) ++ toLe 4 (orNaN (vals.getD 1 none))
      ++ toLe 4 stat
    let outs := (List.range 3).map (fun i =>
      let v := vals.getD i none
      let e : EntryPar := { enable := bitAt (byteAt bs 2) (1 + i), point := i, on := byteAt bs 3, off := byteAt bs 4, crc := 0 }
      let m : Meas := {
        miss := v.isNone, set := (v.map (fun v => setTest 2 v (w (8 + 8 * i)))).getD false
        clr := (v.map (fun v => clrTest 2 v (w (12 + 8 * i)))).getD false, body := body, first := orNaN (vals.getD 0 none) }
      (e, entryEval 0x0922 t.inst t.ready false false (bitAt (byteAt bs 2) 0) (toLe 1 g ++ toLe 1 i) e m (s.entries.getD i {})))
    let changes := (outs.map (fun o => o.2.2)).flatten
    let d := if bitAt (byteAt bs 2) 0 then forL changes (fun c d => kernRecord (byteAt bs 1) c.rec_ d) d else d
    let st : EvalSt := { entries := outs.map (fun o => o.2.1) }
    let r : DetResult := {
      inst := t.inst, cls := byteAt bs 0, bits := pointBits (outs.map (fun o => (o.1, o.2.1.active))), instant := t.ready, isLocal := true
      vals := changeVals changes, recs := (changes.take 7).map Change.rec_, more := decide (7 < changes.length) }
    let d := if t.host then d else { d with kern := { d.kern with eval := insertKey t.inst st d.kern.eval } }
    ({ result := some r }, d)

end Sys2Proof.Machine
end

