-- ==== Sys2Proof/Machine/Scheduler.lean ====
section
/-! DEFINITION. The scheduler: triggers, ready lists, placement, staging, running, engine faults and states, task records and window
statistics (R170-R184). -/
namespace Sys2Proof.Machine

/-! ## Engines and ready lists -/

/-- An engine's slots and statistics. -/
def Dev.eng (d : Dev) (e : Nat) : EngSt := (lookup e d.sch.engines).getD {}

/-- Store an engine. -/
def Dev.putEng (e : Nat) (x : EngSt) (d : Dev) : Dev := { d with sch := { d.sch with engines := insertKey e x d.sch.engines } }

/-- The ready list of a level. -/
def Dev.ready (d : Dev) (p : Nat) : List Task := (lookup p d.sch.ready).getD []

/-- Store a ready list; its depth and high-water mark are live. -/
def Dev.putReady (p : Nat) (ts : List Task) (d : Dev) : Dev :=
  let d := { d with sch := { d.sch with ready := insertKey p ts d.sch.ready } }
  let d := d.set (SCH_LVL_DEPTH_depth p) ts.length
  if d.get (SCH_LVL_DEPTH_hwm p) < ts.length then d.set (SCH_LVL_DEPTH_hwm p) ts.length else d

/-- An engine is ONLINE. -/
def Dev.online (d : Dev) (e : Nat) : Bool := d.get (SCH_ENG_CTRL_state e) == 1

/-- The effective affinity of a task allows engine `e` (R178). -/
def Dev.allows (d : Dev) (t : Task) (e : Nat) : Bool :=
  let some_ := (List.range 16).any (fun f => d.online f && bitAt t.affinity f)
  d.online e && (bitAt t.affinity e || (!some_ && d.flag SCH_CFG_spill))

/-- List order within a level (R177): ready time, then order of creation. -/
def taskBefore (a b : Task) : Bool := a.ready < b.ready || (a.ready == b.ready && a.no < b.no)

/-- Insert a task at its place. -/
def insertTask (t : Task) : List Task → List Task
  | [] => [t]
  | x :: xs => if taskBefore t x then t :: x :: xs else x :: insertTask t xs

/-- Put a task into its ready list: a full list discards it (R177). -/
def readyPut (t : Task) (d : Dev) : Dev :=
  if 1024 ≤ (d.ready t.prio).length then raiseMs 85 (d.inc (SCH_LVL_CNT_full t.prio))
  else d.putReady t.prio (insertTask t (d.ready t.prio))

/-- Return a task to its ready list in its original order (R181, R182); its staging is abandoned. -/
def readyReturn (t : Task) (d : Dev) : Dev :=
  d.putReady t.prio (insertTask { t with staged := false, stateReset := false, params := [] } (d.ready t.prio))

/-- Some task of an instance is staged or running (R174). -/
def Dev.instBusy (d : Dev) (i : Nat) : Bool :=
  let is (o : Option Task) : Bool := match o with | some t => !t.host && t.inst == i | none => false
  (List.range 16).any (fun e => is (d.eng e).prefetch || is (d.eng e).running)

/-! ## Placement (R178) -/

/-- The first ready task for an engine, level by level. -/
def Dev.pick (d : Dev) (e : Nat) : Option Task :=
  ((List.range 8).flatMap d.ready).find? (fun t => d.allows t e && (t.host || !d.instBusy t.inst))

/-- Remove a task from its ready list. -/
def readyTake (t : Task) (d : Dev) : Dev := d.putReady t.prio ((d.ready t.prio).filter (fun x => x.no != t.no))

/-- The engine and task an idle engine withdraws, first by level, then by ready time: a prefetched task that waits behind a running one,
or whose place a ready task can take at once, for else the two engines would pass it to and fro without end (DEDUCED, log entry 20). -/
def Dev.withdrawable (d : Dev) (e : Nat) : Option (Nat × Task) :=
  let cs := (List.range 16).filterMap (fun f =>
    if f = e then none else match (d.eng f).prefetch with
      | some t => if d.allows t e && ((d.eng f).running.isSome || (d.pick f).isSome) then some (f, t) else none
      | none => none)
  cs.foldl (fun b c => match b with
    | none => some c
    | some x => if c.2.prio < x.2.prio || (c.2.prio == x.2.prio && taskBefore c.2 x.2) then some c else b) none

/-- One pass over the engines; a stopped scheduler places nothing (R16). -/
def schPass (d : Dev) : Dev := schRun (fun d =>
  forN 16 (fun e d =>
    if d.online e && (d.eng e).prefetch.isNone then
      match d.pick e with
      | some t => let d := readyTake t d; d.putEng e { d.eng e with prefetch := some t }
      | none =>
        if (d.eng e).running.isNone then
          match d.withdrawable e with
          | some (f, t) =>
            let d := d.putEng f { d.eng f with prefetch := none }
            d.putEng e { d.eng e with prefetch := some { t with staged := false, stateReset := false, params := [] } }
          | none => d
        else d
    else d) d) d

/-- Placement after a change: passes until nothing moves. Each pass that moves
something leaves fewer tasks ready or fewer waiting behind a running one, so 32 passes are enough. -/
def schPlace (d : Dev) : Dev := iterate 32 (fun d => let x := schPass d; if x.sch = d.sch then none else some x) d

/-! ## Task records (R183) -/

/-- A task's record: code 0x0700 + outcome. -/
def taskRecord (outcome faultCode e status : Nat) (t : Task) (started : Bool) (d : Dev) : List Byte :=
  let wait := if started then min ((t.startTick - t.readyTick) / 4) (2 ^ 32 - 1) else 0
  let run := if started then min ((d.time.elapsed - t.startTick) / 4000) 65535 else 0
  toLe 2 (0x0700 + outcome) ++ toLe 2 (faultCode + t.prio * 16 + b2n t.host * 128 + b2n t.stateReset * 256) ++ toLe 2 t.kernel ++ toLe 2 t.inst
    ++ toLe 8 t.ref ++ toLe 8 t.ready ++ toLe 4 wait ++ toLe 2 run ++ toLe 1 (if started then e else 0xFF) ++ toLe 1 status

/-- Write a task's record where R183 asks for one; of a task that has started, under SCH_CFG as it stood at the start. -/
def taskRec (outcome faultCode e status : Nat) (t : Task) (started : Bool) (d : Dev) : Dev :=
  let (en, q) := if started then (t.recEn, t.recQueue) else (d.flag SCH_CFG_rec_en, d.get SCH_CFG_queue)
  if en && (outcome != 1 || t.host || t.recDone) then
    queueRecord q (taskRecord outcome faultCode e status t started d) d
  else d

/-- A task ends as an overrun (R180). -/
def overrun (t : Task) (d : Dev) : Dev :=
  let d := (d.inc (SCH_LVL_CNT_overruns t.prio)).inc SCH_OVERRUN
  let d := if t.host then d else d.inc (SCH_INST_CTRL_overruns t.inst)
  raiseMs 84 (taskRec 2 0 0 0 t false d)

/-- Every task not started by its deadline ends: those in the ready lists by level, then the prefetched ones. -/
def overdue (d : Dev) : Dev :=
  let late (t : Task) : Bool := decide (t.deadline ≤ d.now)
  let d := forN 8 (fun p d =>
    let (now, rest) := (d.ready p).partition late
    if now.isEmpty then d else forL now overrun (d.putReady p rest)) d
  let d := forN 16 (fun e d => match (d.eng e).prefetch with
    | some t => if late t then overrun t (d.putEng e { d.eng e with prefetch := none }) else d
    | none => d) d
  schPlace d

/-- TASK_OVERRUN: the earliest deadline of a task that has not started is reached. -/
def taskOverrun (d : Dev) : Dev :=
  let ts := (List.range 8).flatMap d.ready ++ (List.range 16).filterMap (fun e => (d.eng e).prefetch)
  match ts.map Task.deadline with
  | [] => d
  | x :: xs => atTime (xs.foldl min x) overdue d

/-! ## Creation (R170, R172, R175, R176) -/

/-- A kernel ID names a ROM kernel or a kernel of the running Binding (R170). -/
def Dev.kernelKnown (d : Dev) (k : Nat) : Bool :=
  [0x0001, 0x0100, 0x0101, 0x0200, 0x0300, 0x0301, 0x0400].contains k || (0x8000 ≤ k && k ≤ 0x80FF && d.bnd.kernels.contains k)

/-- An instance in state ON matches a trigger. -/
def Dev.instMatches (d : Dev) (i : Nat) : Trigger → Bool
  | .notice g nt _ _ => d.get (SCH_INST_CTRL_state i) == 1 && !d.flag (SCH_INST0_trig_kind i) && d.get (SCH_INST0_trig i) == g
      && bitAt (d.get (SCH_INST0_notice_mask i)) nt.kind
  | .fast o _ _ => d.get (SCH_INST_CTRL_state i) == 1 && d.flag (SCH_INST0_trig_kind i) && d.get (SCH_INST0_trig i) == o.group

/-- The 64-bit gathering reference of a notice (R118). -/
def Notice.ref (nt : Notice) : Nat :=
  nt.grid % 8 + b2n nt.memLost * 8 + nt.arrived % 16384 * 16 + nt.kind % 4 * 2 ^ 18 + nt.cause % 8 * 2 ^ 20 + nt.k % 2 ^ 32 * 2 ^ 32

/-- The task of an instance for a trigger. -/
def Dev.instTask (d : Dev) (i : Nat) (g : Trigger) : Task :=
  let (time, tk, ref, fast) := match g with
    | .notice _ nt time tk => (time, tk, nt.ref, none)
    | .fast o time tk => (time, tk, 0, some o)
  { kernel := d.get (SCH_INST0_kernel_id i), prio := d.get (SCH_INST0_prio i), recDone := d.flag (SCH_INST0_rec_done i)
    noGath := fast.isSome, inst := i, affinity := d.get (SCH_INST1_affinity i), ref := ref
    deadline := time + 10000 * d.get (SCH_INST1_deadline i), ready := time, readyTick := tk, no := d.sch.next, fast := fast }

/-- Take the next task number. -/
def Dev.bumpTask (d : Dev) : Dev := { d with sch := { d.sch with next := d.sch.next + 1 } }

/-- TASK_CREATE: the oldest trigger creates one task for each matching instance, in ascending order. -/
def taskCreate (d : Dev) : Dev :=
  match d.sch.inbox with
  | [] => d
  | g :: gs =>
    let d := { d with sch := { d.sch with inbox := gs } }
    forN 1024 (fun i d => if d.instMatches i g then schPlace (readyPut (d.instTask i g) d).bumpTask else d) d

/-- The notice of a detector group becomes a trigger. -/
def noticeTrigger (r : Nat) (d : Dev) : Dev :=
  let (nt?, d) := noticeNext r d
  let d := match nt? with
    | some nt => { d with sch := { d.sch with inbox := d.sch.inbox ++ [.notice (r - 32) nt nt.made nt.tick] } }
    | none => d
  readerTryOff r d

/-- The result of checking a host descriptor (R175, R176): 0 OK, 1 FIELD, 2 FULL, 3 AFFINITY. -/
def submitCode (bs : List Byte) (d : Dev) : Nat :=
  let fl := byteAt bs 3
  let off := leAt bs 24 4
  let len := leAt bs 28 2
  let ok := d.kernelKnown (leAt bs 0 2) && byteAt bs 2 ≤ 7 && fl < 8 && (!bitAt fl 2 || leAt bs 8 8 == 0) && off % 4 == 0 && off < 1048576
    && len % 4 == 0 && len ≤ 3968 && off + len ≤ 1048576 && leAt bs 30 2 == 0
  if !ok then 1 else if leAt bs 6 2 = 0 then 3 else if 1024 ≤ (d.ready (byteAt bs 2)).length then 2 else 0

/-- TASK_SUBMIT by a master: its eight words are the descriptor; a stopped scheduler does not look at it (R16). -/
def taskSubmit (m : Nat) : Dev → Dev := schRun fun d =>
  let bs := ((List.range 8).map (fun i => toLe 4 (d.get (SCH_SUBMIT m i)))).flatten
  let code := submitCode bs d
  let d := d.set (SCH_SUBMIT_STAT_result m) code
  if code = 0 then
    let fl := byteAt bs 3
    let t : Task := {
      kernel := leAt bs 0 2, prio := byteAt bs 2, host := true, recDone := bitAt fl 1, noGath := bitAt fl 2, inst := leAt bs 4 2
      affinity := leAt bs 6 2, ref := leAt bs 8 8, deadline := leAt bs 16 8, paramOff := leAt bs 24 4, paramLen := leAt bs 28 2
      ready := d.now, readyTick := d.time.elapsed, no := d.sch.next }
    schPlace ((readyPut t d).bumpTask.incWrap (SCH_SUBMIT_STAT_accepted m))
  else d

/-! ## Staging, start and end (R174, R178, R179, R183) -/

/-- The 32 bytes of a task's descriptor (R175). -/
def Task.descriptor (t : Task) : List Byte :=
  toLe 2 t.kernel ++ toLe 1 t.prio ++ toLe 1 (b2n t.host + b2n t.recDone * 2 + b2n t.noGath * 4) ++ toLe 2 t.inst ++ toLe 2 t.affinity
    ++ toLe 8 t.ref ++ toLe 8 t.deadline ++ toLe 4 t.paramOff ++ toLe 2 t.paramLen ++ toLe 2 0

/-- The first 4 KiB of a kernel's addresses (R167): the task frame of engine `e`, and the parameter block followed by zeros. -/
def Task.localFrame (t : Task) (e : Nat) : List Byte :=
  let fast := match t.fast with
    | some o => toLe 4 o.xr ++ toLe 4 o.xi ++ toLe 4 o.vs ++ toLe 4 o.ff ++ toLe 4 o.rf ++ toLe 4 o.stat
    | none => toLe 24 0
  t.descriptor ++ toLe 8 t.start ++ toLe 8 t.ready ++ toLe 1 e ++ toLe 1 (b2n t.stateReset + b2n t.host * 2 + b2n t.fast.isSome * 4)
    ++ toLe 14 0 ++ fast ++ toLe 40 0 ++ fitTo 3968 0 t.params

/-- Staging on engine `e` completes: the parameter block and state_reset are a snapshot. -/
def stagingComplete (e : Nat) (d : Dev) : Dev :=
  match (d.eng e).prefetch with
  | some t =>
    if t.staged then d
    else
      let (off, len) := if t.host then (t.paramOff, t.paramLen)
        else (4 * d.get (SCH_INST2_param_off t.inst), 4 * d.get (SCH_INST2_param_len t.inst))
      let t := { t with
        staged := true, stateReset := !t.host && d.sch.resets.contains t.inst, params := memReadN d.win (0x1100000 + off) len
        paramOff := off, paramLen := len }
      d.putEng e { d.eng e with prefetch := some t, stage := t.localFrame e }
  | none => d

/-- The histogram bin of a waiting time in ns (R184). -/
def waitBin (ns : Nat) : Nat := let us := ns / 1000; if us = 0 then 0 else min 15 (Nat.log2 us + 1)

/-- Show what an engine runs. -/
def engShow (e : Nat) (d : Dev) : Dev :=
  match (d.eng e).running with
  | some t => (d.set (SCH_ENG_CTRL_running e) (if t.host then 0 else t.inst)).set (SCH_ENG_CTRL_run_kind e) (if t.host then 2 else 1)
  | none => (d.set (SCH_ENG_CTRL_running e) 0).set (SCH_ENG_CTRL_run_kind e) 0

/-- TASK_START on engine `e`: the staged task moves to running; at its deadline or later it does not start (R180). -/
def taskStart (e : Nat) (d : Dev) : Dev :=
  match (d.eng e).prefetch, (d.eng e).running with
  | some t, none =>
    if !t.staged || !d.online e then d
    else if t.deadline ≤ d.now then schPlace (overrun t (d.putEng e { d.eng e with prefetch := none }))
    else
      let w := (d.time.elapsed - t.readyTick) / 4
      let x := d.eng e
      let t := { t with start := d.now, startTick := d.time.elapsed, runLimit := d.get SCH_CFG_run_limit_ms, recEn := d.flag SCH_CFG_rec_en, recQueue := d.get SCH_CFG_queue }
      schPlace (engShow e (d.putEng e { x with
        prefetch := none, running := some t, frame := t.localFrame e, stage := [], started := x.started + 1, waitSum := x.waitSum + w, waitMax := max x.waitMax w
        mark := d.time.elapsed, hist := modAt x.hist (waitBin w) (fun n => n + 1) }))
  | _, _ => d

/-- The running task leaves its engine; busy time is counted up to now. -/
def engFree (e : Nat) (d : Dev) : Dev :=
  let x := d.eng e
  let busy := if x.running.isSome then x.busy + (d.time.elapsed - x.mark) else x.busy
  engShow e (d.putEng e { x with running := none, busy := busy, mark := d.time.elapsed })

/-- A Binding kernel's 32-byte records (R167): how many there are, their queues and their bytes are open. -/
def bindingRecords (d : Dev) : Dev :=
  let (n, d) := d.drawNat
  forN n (fun _ d =>
    let (q, d) := d.drawNat
    let (bs, d) := d.drawBytes 32
    queueRecord (q % 64) bs d) d

/-- The working memory of engine `e` holds what a kernel or a scrub has left there, which is open (R167). -/
def workOpen (e : Nat) (d : Dev) : Dev :=
  let (n, d) := d.drawNat
  d.putEng e { d.eng e with work := n }

/-- A byte of an engine's local memory, by its address (R167). -/
def Dev.localByte (d : Dev) (e a : Nat) : Byte :=
  let x := d.eng e
  if a < 0x1000 then x.frame.getD a 0 else if a < 0x2000 then x.stage.getD (a - 0x1000) 0 else Config.workByte x.work (a - 0x2000)

/-- What a Binding kernel does with its ports before it returns is open: whether it reads its view, and whether it reads and writes its
state (R167-R169). A view that has been retired ends the task GONE, a denied transfer DENIED. -/
def bindingPorts (e : Nat) (t : Task) (d : Dev) : Nat × Dev :=
  let (g, d) := d.drawNat
  let (r, d) := d.drawNat
  let (w, d) := d.drawNat
  let (ok, d) := if g % 2 = 1 && !t.noGath then gathAccess e t d else (true, d)
  if !ok then (5, d)
  else if g % 2 = 1 && !t.noGath && (d.taskView t).isNone then (4, d)
  else if d.stateLen t = 0 then (1, d)
  else
    let (ok, d) := if r % 2 = 1 then stateAccess e t.inst .read d else (true, d)
    if !ok then (5, d)
    else
      let (ok, d) := if w % 2 = 1 then stateAccess e t.inst .write d else (true, d)
      if !ok then (5, d) else (1, if w % 2 = 1 then privateArea t.inst (d.stateLen t) d else d)

/-- What a task's kernel does on engine `e` (R170, R171). A Binding kernel's code is not the manual's: what it does with its ports, its
status and its result are open; its result's class being open it reaches no alarm (log entry 21). -/
def kernelRun (e : Nat) (t : Task) (d : Dev) : KEnd × Dev :=
  if t.kernel = 0x0100 then onGathering e t (odaTask e t) d
  else if t.kernel = 0x0200 then onGathering e t (rdaTask e t) d
  else if t.kernel = 0x0300 then onGathering e t (areaTask e t) d
  else if t.kernel = 0x0301 then localTask t d
  else if t.kernel = 0x0400 then onGathering e t (limTask e t) d
  else if t.kernel = 0x0101 then ({ status := 0xF0 }, d)
  else if t.kernel = 0x0001 then ({ status := 0 }, d)
  else
    let (o, d) := bindingPorts e t d
    let d := bindingRecords d
    if o != 1 then ({ outcome := o }, d)
    else
    let (s, d) := d.drawNat
    let (c, d) := d.drawNat
    let (b, d) := d.drawNat
    let (g, d) := d.drawNat
    ({ status := s % 256
       result := some { inst := t.inst, cls := c % 256, bits := b % 65536, rerun := g % 256 == 1, instant := t.ready, grid := bits t.ref 0 3
                        arrived := t.arrived, prov := !t.noGath && t.kind == 0, final := t.kind == 2, memLost := t.memLost } }, d)

/-- The end of an instance: it reaches OFF, and DET, once it has taken the results sent before, clears its points (R173, R229). -/
def instOff (i : Nat) (d : Dev) : Dev := detInstOff i (detDrain (d.set (SCH_INST_CTRL_state i) 0))

/-- The code of an instance's enable check (register SCH_INST_RESULT). -/
def instCode (i : Nat) (d : Dev) : Nat :=
  let off := 4 * d.get (SCH_INST2_param_off i)
  let len := 4 * d.get (SCH_INST2_param_len i)
  let so := d.get (SCH_INST3_state_off i) * 4096
  let sl := d.get (SCH_INST3_state_len i) * 65536
  let p := d.get SCH_CFG_state_part
  if !d.kernelKnown (d.get (SCH_INST0_kernel_id i)) || d.get (SCH_INST1_deadline i) == 0 || 3968 < len || 1048576 < off + len
      || bits (d.get (SCH_INST0 i)) 29 3 != 0 || bits (d.get (SCH_INST2 i)) 28 4 != 0 then 1
  else if d.get (SCH_INST1_affinity i) = 0 then 2
  else if 0 < sl && (p == 0 || (d.part p).2 < so + sl) then 3
  else if d.flag (SCH_INST0_trig_kind i) && !d.fltBound (d.get (SCH_INST0_trig i)) then 4
  else 0

/-- An enable of an instance acts (R173, R467). -/
def instEnableNow (i : Nat) (d : Dev) : Dev :=
  let code := instCode i d
  let d := (d.set SCH_INST_RESULT_index i).set SCH_INST_RESULT_code code
  if code = 0 then
    let d := (d.setFlag (SCH_INST_CTRL_enable i) true).set (SCH_INST_CTRL_state i) 1
    { d with sch := { d.sch with resets := if d.sch.resets.contains i then d.sch.resets else d.sch.resets ++ [i] } }
  else d.setFlag (SCH_INST_CTRL_enable i) false

/-- A DISABLING instance whose last task has ended reaches OFF, and acts on an enable that waits. -/
def instTryOff (i : Nat) (d : Dev) : Dev :=
  if d.get (SCH_INST_CTRL_state i) = 2 && !d.instBusy i then
    let d := instOff i d
    if d.flag (SCH_INST_CTRL_enable_pending i) then
      let d := d.setFlag (SCH_INST_CTRL_enable_pending i) false
      if d.flag (SCH_INST_CTRL_enable i) then instEnableNow i d else d
    else d
  else d

/-- INSTANCE_ENABLE. -/
def instEnable (i : Nat) (d : Dev) : Dev :=
  match d.get (SCH_INST_CTRL_state i) with
  | 0 => instEnableNow i d
  | 2 => (d.setFlag (SCH_INST_CTRL_enable i) true).setFlag (SCH_INST_CTRL_enable_pending i) true
  | _ => d

/-- INSTANCE_DISABLE: ready and staged tasks end CANCELLED; an enable that waits is taken back (R467). -/
def instDisable (i : Nat) (d : Dev) : Dev :=
  let d := (d.setFlag (SCH_INST_CTRL_enable i) false).setFlag (SCH_INST_CTRL_enable_pending i) false
  if d.get (SCH_INST_CTRL_state i) != 1 then d
  else
    let mine (t : Task) : Bool := !t.host && t.inst == i
    let d := forN 8 (fun p d =>
      let (now, rest) := (d.ready p).partition mine
      if now.isEmpty then d else forL now (fun t d => taskRec 6 0 0 0 t false d) (d.putReady p rest)) d
    let d := forN 16 (fun e d => match (d.eng e).prefetch with
      | some t => if mine t then taskRec 6 0 0 0 t false (d.putEng e { d.eng e with prefetch := none }) else d
      | none => d) d
    schPlace (instTryOff i (d.set (SCH_INST_CTRL_state i) 2))

/-- A write of an instance's control word; a stopped scheduler does not act on it (R16). -/
def instCtrlWrite (i v : Nat) : Dev → Dev := schRun fun d =>
  let d := if bitAt v 4 then d.setFlag (SCH_INST_CTRL_wr_drop i) false else d
  if bitAt v 0 then instEnable i d else instDisable i d

/-- A write of SCH_CFG: state_part only while every instance is OFF; reserved encodings are discarded (R8). -/
def schCfgWrite (v : Nat) (d : Dev) : Dev :=
  let d := ((d.set SCH_CFG_queue v).set SCH_CFG_rec_en (bits v 8 1)).set SCH_CFG_spill (bits v 9 1)
  let d := if bits v 16 8 = 0 then d else d.set SCH_CFG_run_limit_ms (bits v 16 8)
  let p := bits v 24 4
  let allOff := (List.range 1024).all (fun i => d.get (SCH_INST_CTRL_state i) == 0)
  if allOff && p != 1 && p != 2 then d.set SCH_CFG_state_part p else d

/-! ## Engine states and faults (R181, R182) -/

/-- An engine's enable field acts at OFF (`true`) or ONLINE. -/
def engPending (e : Nat) (d : Dev) : Dev :=
  if d.flag (SCH_ENG_CTRL_enable_pending e) then
    let d := d.setFlag (SCH_ENG_CTRL_enable_pending e) false
    match d.get (SCH_ENG_CTRL_state e), d.flag (SCH_ENG_CTRL_enable e) with
    | 0, true => d.set (SCH_ENG_CTRL_state e) 3
    | 1, false =>
      let x := d.eng e
      let d := match x.prefetch with
        | some t => readyReturn t (d.putEng e { x with prefetch := none })
        | none => d
      d.set (SCH_ENG_CTRL_state e) (if (d.eng e).running.isSome then 2 else 0)
    | _, _ => d
  else d

/-- A DISABLING engine whose running task has ended reaches OFF. -/
def engTryOff (e : Nat) (d : Dev) : Dev :=
  if d.get (SCH_ENG_CTRL_state e) = 2 && (d.eng e).running.isNone then engPending e (d.set (SCH_ENG_CTRL_state e) 0) else d

/-- The running task of engine `e` is over: its instance may be passed on (R174). -/
def afterTask (e : Nat) (t : Task) (d : Dev) : Dev :=
  let d := if t.host then d else instTryOff t.inst d
  schPlace (engTryOff e d)

/-- Single-bit errors of local memory that ECC has corrected are counted (R166, register SCH_ENGn_CECC); how many there were is open
(log entry 184). -/
def engCorrected (e : Nat) (d : Dev) : Dev :=
  let (n, d) := d.drawNat
  d.add (SCH_ENG_CECC e) n

/-- TASK_END on engine `e`: the kernel has run. -/
def taskEnd (e : Nat) (d : Dev) : Dev :=
  match (d.eng e).running with
  | none => d
  | some t =>
    let (k, d) := kernelRun e t d
    let d := workOpen e (engCorrected e d)
    let d := taskRec k.outcome 0 e (if k.outcome = 1 then k.status else 0) t true d
    let d := match k.outcome with
      | 4 => raiseMs 86 (d.inc SCH_GONE)
      | 5 => raiseMs 86 (d.inc SCH_DENIED)
      | _ =>
        let x := d.eng e
        let d := d.putEng e { x with done := x.done + 1 }
        let d := if t.stateReset then { d with sch := { d.sch with resets := d.sch.resets.filter (fun i => i != t.inst) } } else d
        if t.host then raise 87 d
        else match k.result with
          | some r => detGive r d
          | none => d
    afterTask e t (engFree e d)

/-- A fault of an engine (R181): 1 ECC, 2 ILLEGAL, 3 ADDRESS, 4 RUN_LIMIT, 5 FABRIC. -/
def engFault (e code : Nat) (d : Dev) : Dev :=
  let st := d.get (SCH_ENG_CTRL_state e)
  let fabric := code == 5
  let mark (d : Dev) : Dev := d.putEng e { d.eng e with fabric := true }
  if st = 0 || st = 4 then
    if fabric then mark (d.set (SCH_ENG_CTRL_state e) 4) else d
  else if st = 3 then
    if fabric || code == 1 then
      let d := raise (68 + e) ((d.inc (SCH_ENG_FAULTS e)).set (SCH_ENG_CTRL_last_fault e) code)
      let d := d.set (SCH_ENG_CTRL_state e) 4
      schPlace (if fabric then mark d else d)
    else d
  else
    let run := (d.eng e).running
    let d := (d.inc (SCH_ENG_FAULTS e)).set (SCH_ENG_CTRL_last_fault e) code
    let d := match run with
      | some t =>
        let d := taskRec 3 code e 0 t true d
        if t.host || d.sch.resets.contains t.inst then d else { d with sch := { d.sch with resets := d.sch.resets ++ [t.inst] } }
      | none => d
    let d := engFree e d
    let d := match (d.eng e).prefetch with
      | some t => readyReturn t (d.putEng e { d.eng e with prefetch := none })
      | none => d
    let d := raise (68 + e) (d.set (SCH_ENG_CTRL_state e) (if fabric then 4 else 3))
    let d := if fabric then mark d else d
    match run with
    | some t => schPlace (if t.host then d else instTryOff t.inst d)
    | none => schPlace d

/-- TASK_RUN_LIMIT on engine `e`: the running task's time exceeds run_limit_ms as it stood at the task's start (R181). -/
def taskRunLimit (e : Nat) (d : Dev) : Dev :=
  match (d.eng e).running with
  | none => d
  | some t =>
    let due := t.startTick + 4000000 * t.runLimit
    let d := passElapsed (due + 1) d
    if due < d.time.elapsed then engFault e 4 d else d

/-- SELFTEST_DONE on engine `e`: local memory has been scrubbed (R181, R182). -/
def selftestDone (e : Nat) (pass : Bool) (d : Dev) : Dev :=
  if d.get (SCH_ENG_CTRL_state e) != 3 then d
  else
  let d := workOpen e d
  if pass then schPlace (engPending e (d.set (SCH_ENG_CTRL_state e) 1))
  else d.set (SCH_ENG_CTRL_state e) 4

/-- The Binding has locked, and no teardown has unlocked it. -/
def Dev.bndLocked (d : Dev) : Bool := d.flag BND_STAT_locked

/-- A write of an engine's control word (R182). -/
def engCtrlWrite (e v : Nat) (d : Dev) : Dev :=
  let want := bitAt v 0
  let d := d.setFlag (SCH_ENG_CTRL_enable e) want
  if !d.bndLocked then d
  else
    let d := match d.get (SCH_ENG_CTRL_state e), want with
      | 0, true => d.set (SCH_ENG_CTRL_state e) 3
      | 1, false =>
        let x := d.eng e
        let d := match x.prefetch with
          | some t => readyReturn t (d.putEng e { x with prefetch := none })
          | none => d
        schPlace (engTryOff e (d.set (SCH_ENG_CTRL_state e) 2))
      | 2, _ => d.setFlag (SCH_ENG_CTRL_enable_pending e) true
      | 3, _ => d.setFlag (SCH_ENG_CTRL_enable_pending e) true
      | _, _ => d
    if bitAt v 5 && d.get (SCH_ENG_CTRL_state e) == 4 && !(d.eng e).fabric then d.set (SCH_ENG_CTRL_state e) 3 else d

/-- A Binding load frees the engines that a fabric timeout has stopped (R16, R181): they are OFF until the lock. -/
def enginesFree (d : Dev) : Dev :=
  forN 16 (fun e d => if (d.eng e).fabric then (d.putEng e { d.eng e with fabric := false }).set (SCH_ENG_CTRL_state e) 0 else d) d

/-- At Binding lock each enabled engine runs self-test (R182). -/
def enginesLock (d : Dev) : Dev :=
  forN 16 (fun e d => if d.flag (SCH_ENG_CTRL_enable e) && d.get (SCH_ENG_CTRL_state e) = 0 then d.set (SCH_ENG_CTRL_state e) 3 else d) d

/-! ## Statistics (R184) -/

/-- Close the open window and publish it. -/
def statsClose (short : Bool) (d : Dev) : Dev :=
  let len := d.time.elapsed - d.sch.winTick
  let d := forN 16 (fun e d =>
    let x := d.eng e
    let busy := if x.running.isSome then x.busy + (d.time.elapsed - x.mark) else x.busy
    let d := ((d.set (SCH_ENG_TASKS e) x.started).set (SCH_ENG_WAIT_MEAN e) (if x.started = 0 then 0 else x.waitSum / x.started)).set
      (SCH_ENG_WAIT_MAX e) (min x.waitMax (2 ^ 32 - 1))
    let d := ((d.set (SCH_ENG_BUSY e) (busy / 4)).set (SCH_ENG_LOAD_load e) (if len = 0 then 0 else min 1000 (busy * 1000 / len))).setFlag
      (SCH_ENG_LOAD_short e) short
    let d := d.set (SCH_ENG_DONE e) x.done
    let d := forN 16 (fun b d => d.set (SCH_ENG_HIST e b) (x.hist.getD b 0)) d
    d.putEng e { x with started := 0, waitSum := 0, waitMax := 0, busy := 0, mark := d.time.elapsed, done := 0, hist := List.replicate 16 0 }) d
  { d with sch := { d.sch with winTick := d.time.elapsed, winSec := d.now / 1000000000 } }

/-- SCH_STATS_WINDOW: the next whole second of device time. -/
def statsWindow (d : Dev) : Dev := atTime ((d.sch.winSec + 1) * 1000000000) (statsClose false) d

/-- A step of the counter ends the window early, and a forward step can end waiting tasks as overruns (R180, R184). -/
def schAfterStep : Dev → Dev := schRun fun d => overdue (statsClose true d)

end Sys2Proof.Machine
end

