-- ==== Sys2Proof/Machine/LogicEngine.lean ====
section
/-! DEFINITION. The cyclic logic engine: states and restart, the input and output images, forces, exchange, and the phases of a cycle
(R243-R262, R276-R284). -/
namespace Sys2Proof.Machine

/-! ## States (R244, R256) -/

/-- The number of the logic engine as a fabric block (register GCTL_FAB_STAT). -/
def leBlock : Nat := 56

/-- A fabric timeout holds the engine stopped (R16). -/
def Dev.leHeld (d : Dev) : Bool := d.stopped.contains leBlock

/-- An outcome of SWAP: recorded, and event source 107 (R278). -/
def swapResult (code : Nat) (d : Dev) : Dev := raise 107 (d.set LGE_PROG_STAT_swap_result code)

/-- An armed exchange is disarmed with CANCELLED. -/
def swapDisarm (d : Dev) : Dev :=
  if d.flag LGE_PROG_STAT_armed then swapResult 3 (d.setFlag LGE_PROG_STAT_armed false) else d

/-- Outputs released: DOUT static low and GOOSE stops (R244, R256). -/
def leRelease (d : Dev) : Dev := gooseStop false { d with le := { d.le with outOk := false, dout := 0 } }

/-- HALTED with a cause (R244): 1 LOCKSTEP, 2 WATCHDOG, 3 ECC, 4 FABRIC, 5 SELFTEST. -/
def leHalt (cause pc : Nat) (d : Dev) : Dev :=
  let st := d.get LGE_STAT_state
  if st = 1 || st = 2 || st = 3 then
    let d := ((d.set LGE_STAT_state 4).set LGE_STAT_halt_cause cause).set LGE_HALT_PC_value pc
    swapDisarm (leRelease (d.setFlag LGE_STAT_start_pending false))
  else d

/-- A start: from STOPPED on the bank that LGE_CFG names, or from HALTED on the active bank; in STOPPING it waits; elsewhere it is
discarded (R256; DEDUCED, log entry 172). -/
def leStart (warm : Bool) (d : Dev) : Dev :=
  match d.get LGE_STAT_state with
  | 3 => { (d.setFlag LGE_STAT_start_pending true) with le := { d.le with pendWarm := warm } }
  | 1 => d
  | 2 => d
  | st =>
    if d.leHeld then d
    else
      let d := (d.set LGE_STAT_state 1).set LGE_STAT_halt_cause 0
      let d := if st = 4 then d else d.set LGE_STAT_bank (d.get LGE_CFG_bank)
      { d with le := { d.le with warmStart := warm, fromHalt := st == 4 } }

/-- STOPPED: outputs released, event source 102, and a start that waits acts. -/
def leStopped (d : Dev) : Dev :=
  let d := raise 102 (leRelease (d.set LGE_STAT_state 0))
  if d.flag LGE_STAT_start_pending then leStart d.le.pendWarm (d.setFlag LGE_STAT_start_pending false) else d

/-- STOP. `inWait` says that the write falls in WAIT, where no OUTPUT is current and STOPPED is taken at once (log entry 23). -/
def leStop (inWait : Bool) (d : Dev) : Dev :=
  if d.leRunning then
    let d := swapDisarm (d.set LGE_STAT_state 3)
    if inWait then leStopped d else d
  else d

/-! ## Forces (R281-R283) -/

/-- The active bank. -/
def Dev.activeProg (d : Dev) : ProgHdr := d.progHdr (d.get LGE_STAT_bank)

/-- Resolve a force's ID and type against a program's symbols. -/
def resolveForce (syms : List Sym) (id ty : Nat) : Option Sym := if ty ≤ 3 then syms.find? (fun s => s.id == id && s.ty == ty) else none

/-- The state of force entry `i`: 0 OFF, 1 APPLIED, 2 REFUSED, 3 DROPPED. -/
def forceShow (i st : Nat) (s : Option Sym) (d : Dev) : Dev :=
  let (a, b) := match s with | some s => (s.addr % 2 ^ 18, if s.kind = 0 then 0 else s.bit) | none => (0, 0)
  d.set (LGE_FRC_STAT i) (st + a * 16 + b * 2 ^ 22)

/-- How many entries are APPLIED. -/
def forceCount (d : Dev) : Dev :=
  d.set LGE_FORCE_STAT_applied ((d.le.forces.filter (fun f => d.get (LGE_FRC_STAT_state f.1) == 1)).length)

/-- A lower-numbered entry forces the same symbol. -/
def Dev.forcedBelow (d : Dev) (i id : Nat) : Bool := d.le.forces.any (fun f => f.1 < i && f.2.id == id && d.get (LGE_FRC_STAT_state f.1) == 1)

/-- Apply a written entry with its staged value (R281). -/
def forceApply (syms : List Sym) (i value : Nat) (d : Dev) : Dev :=
  let id := d.get (LGE_FRC0_id i)
  let ty := d.get (LGE_FRC0_type i)
  let drop (d : Dev) : Dev := { d with le := { d.le with forces := eraseKey i d.le.forces } }
  if !d.flag (LGE_FRC0_en i) then forceShow i 0 none (drop d)
  else match resolveForce syms id ty with
    | some s =>
      let f : Force := { id := id, ty := ty, kind := s.kind, addr := s.addr, bit := s.bit, value := value }
      let st := if d.forcedBelow i id then 2 else 1
      forceShow i st (if st = 1 then some s else none) { d with le := { d.le with forces := insertKey i f d.le.forces } }
    | none =>
      let f : Force := { id := id, ty := ty, kind := 0, addr := 0, bit := 0, value := value }
      forceShow i 2 none { d with le := { d.le with forces := insertKey i f d.le.forces } }

/-- Entries written since the last INPUT apply, in ascending order. -/
def forcesInput (d : Dev) : Dev :=
  if d.le.forcePend.isEmpty then d
  else
    let syms := d.progSyms d.activeProg
    let ps := d.le.forcePend
    let d := { d with le := { d.le with forcePend := [] } }
    forceCount (forL ps (fun p d => forceApply syms p.1 (p.2.1 + 2 ^ 32 * p.2.2) d) d)

/-- FORCE_WRITE: word 0 of entry `i`, with the value staged at the write. -/
def forceWrite (i v : Nat) (d : Dev) : Dev :=
  let d := d.set (LGE_FRC0 i) v
  { d with le := { d.le with forcePend := insertKey i (d.get (LGE_FRC_LO i), d.get (LGE_FRC_HI i)) d.le.forcePend } }

/-- At a start and at an exchange every enabled entry is resolved again; one that no longer resolves is DROPPED, with what waits to be
applied to it (R283). An entry that has been written since to name another symbol, or disabled, applies at the next INPUT as written, and
what it was before is not resolved again. -/
def forcesResolve (bank : Nat) (d : Dev) : Dev :=
  let h := d.progHdr bank
  let syms := d.progSyms h
  let stands (f : Nat × Force) : Bool := (lookup f.1 d.le.forcePend).isNone
    || (d.flag (LGE_FRC0_en f.1) && d.get (LGE_FRC0_id f.1) == f.2.id && d.get (LGE_FRC0_type f.1) == f.2.ty)
  forceCount (forL (d.le.forces.filter stands) (fun f d =>
    let i := f.1
    let x := f.2
    let was := d.get (LGE_FRC_STAT_state i)
    match resolveForce syms x.id x.ty with
    | some s =>
      let st := if d.forcedBelow i x.id then 2 else 1
      forceShow i st (if st = 1 then some s else none)
        { d with le := { d.le with forces := insertKey i { x with kind := s.kind, addr := s.addr, bit := s.bit } d.le.forces } }
    | none =>
      if was = 1 then
        let d := (d.setFlag (LGE_FRC0_en i) false).inc LGE_FORCE_STAT_dropped
        gridLog 0x1005 i x.id x.ty h.progId (forceShow i 3 none { d with le := { d.le with forces := eraseKey i d.le.forces, forcePend := eraseKey i d.le.forcePend } })
      else forceShow i 2 none d) d)

/-- The applied forces. -/
def Dev.applied (d : Dev) : List Force := (d.le.forces.filter (fun f => d.get (LGE_FRC_STAT_state f.1) == 1)).map Prod.snd

/-- The bits a force acts on: LE address, mask and value of each byte (R282). -/
def forceBytes (f : Force) : List (Nat × Nat × Nat) :=
  let word (n : Nat) : List (Nat × Nat × Nat) := (List.range n).map (fun i => (f.addr + i, 255, f.value / 256 ^ i % 256))
  match f.ty with
  | 0 =>
    let b := b2n (f.value % 2 ^ 32 != 0)
    if f.kind = 0 then [(f.addr, 255, b)] else [(f.addr + f.bit / 8, 2 ^ (f.bit % 8), b * 2 ^ (f.bit % 8))]
  | 3 => word 8
  | _ => word 4

/-- A byte with the masked bits replaced. -/
def maskByte (old : Byte) (m v : Nat) : Byte := (old &&& ~~~(BitVec.ofNat 8 m)) ||| (BitVec.ofNat 8 v &&& BitVec.ofNat 8 m)

/-! ## The input image (R247-R249) -/

/-- Write a little-endian value into an image. -/
def imgPut (o n v : Nat) (m : List Host.Cell) : List Host.Cell := memWriteN m o (toLe n v)

/-- Write bytes into an image. -/
def imgBytes (o : Nat) (bs : List Byte) (m : List Host.Cell) : List Host.Cell := memWriteN m o bs

/-- The role bit: 1 PRIMARY. -/
def Dev.primary (d : Dev) : Bool := d.flag SPN_CFG_role

/-- Any of the three paths of the peer is alive. -/
def Dev.peerAlive (d : Dev) : Bool := d.flag SPN_STAT_spa_alive || d.flag SPN_STAT_spb_alive || d.flag SPN_STAT_hb_alive

/-- The flags at offset 0x0004. -/
def Dev.inputFlags (d : Dev) : Nat :=
  b2n d.le.first + b2n d.le.wasWarm * 2 + b2n d.acting * 4 + b2n d.primary * 8 + b2n d.peerAlive * 16 + d.get LGE_STAT_bank * 32
    + d.timeState * 64

/-- The notice that the selections read. -/
def Dev.gselNotice (d : Dev) : Option Notice :=
  if d.flag LGE_GSEL_CFG_en then (d.reader (d.get LGE_GSEL_CFG_reader)).last else none

/-- The selections' read of the gathering is made under LE's master ID; a denied one is recorded and reads as zero (R26, R430; DEDUCED, log
entry 171). -/
def gselAccess (d : Dev) : Dev :=
  match d.gselNotice with
  | none => d
  | some nt => if d.granted .read 96 3 then d else violation .read 3 96 (d.gathAddr nt.grid nt.k - (d.part 0).1) d

/-- The selections of a notice: by number, present, missing and value; all are missing once the gathering is no longer held (R249). -/
def selections (d : Dev) : List Host.Cell → List Host.Cell := fun m =>
  match d.gselNotice with
    | none => m
    | some nt =>
      let t : Task := { kernel := 0, prio := 0, inst := 0, affinity := 0, ref := nt.ref, deadline := 0, ready := 0 }
      let m := imgPut 0x1400 8 nt.ref (imgPut 0x1408 8 nt.g m)
      forN 256 (fun n m =>
        let src := d.get (LGE_GSEL0_source n)
        let slot := d.get (LGE_GSEL1_slot n)
        match (if d.granted .read 96 3 then d.taskView t else none).filter (fun v => (d.grid v.1).held.any (fun y => y.k == v.2.k)) with
        | some (g, x) =>
          let present := (t.present x src).isSome
          let ok := t.usable x src && (d.slotAddr g x.k slot).isSome
          let m := imgPut (0x1500 + n) 1 (b2n present + b2n (!ok) * 2) m
          if ok then imgPut (0x1800 + 8 * n) 8 (d.slotRead g x.k slot) m else m
        | none => imgPut (0x1500 + n) 1 2 m) m

/-- The register blocks that the snapshot reads, TBS, SPN, DIO, DET and FLT, each with the first offset read (R248). -/
def imageTargets : List (Nat × Nat) := [(4, 0x40074), (13, 0xD0014), (19, 0x130104), (11, 0xB0104), (8, 0x80800)]

/-- The snapshot's reads are made under LE's master ID; a denied one is recorded and reads as zero (R26, R430; DEDUCED, log entry 171). -/
def imageAccess (d : Dev) : Dev :=
  imageTargets.foldl (fun d x => if d.granted .read x.1 3 then d else violation .read 3 x.1 x.2 d) d

/-- The alarm state table in the image: the words of DET_AST that are listed (R239). -/
def astImage (d : Dev) (m : List Host.Cell) : List Host.Cell :=
  if !d.granted .read 11 3 then m else
  (d.regs.filter (fun c => 0xB8000 ≤ c.1 && c.1 < 0xC0000)).foldl (fun m c => imgPut (0x8000 + (c.1 - 0xB8000)) 4 c.2.toNat m) m

/-- The snapshot of the whole input image. -/
def inputImage (d : Dev) : List Host.Cell :=
  let seen := fun t v => if d.granted .read t 3 then v else 0
  let m := imgPut 0 4 d.le.cycle []
  let m := imgPut 4 4 d.inputFlags m
  let m := imgPut 8 8 d.now m
  let m := imgPut 0x10 4 (d.get LGE_CYC_LAST) m
  let m := imgPut 0x14 4 (seen 4 (d.get TBS_TQ)) m
  let m := imgPut 0x18 4 (seen 13 (d.get SPN_STAT_state)) m
  let m := imgPut 0x20 16 ((List.range 128).foldl (fun a s => a + b2n (bitAt d.host.leLatch s && d.flag (EVC_ROUTE_le_en s)) * 2 ^ s) 0) m
  let m := imgPut 0x40 2 (seen 19 (d.get DIO_DIN_LEVEL_level)) m
  let m := imgPut 0x42 2 (seen 19 (d.get DIO_DIN_LEVEL_unc)) m
  let m := imgPut 0x44 2 d.le.rise m
  let m := imgPut 0x46 2 d.le.fall m
  let m := imgBytes 0x48 (d.le.edges.map (BitVec.ofNat 8)) m
  let m := forN 16 (fun n m => imgPut (0x60 + 8 * n) 8 (seen 19 (d.get2 (DIO_DIN_TIME_LO n) (DIO_DIN_TIME_HI n))) m) m
  let m := forN 12 (fun c m => imgPut (0x140 + 4 * c) 4 (seen 11 (d.get (DET_CLASS_STAT c))) m) m
  let m := forN 32 (fun g m => forN 4 (fun w m => imgPut (0x200 + 16 * g + 4 * w) 4 (seen 8 (d.get ⟨(FLT_FAST_VS g).key + 4 * w, 0, 32⟩)) m) m) m
  let m := forN 256 (fun c m => forN 4 (fun w m => imgPut (0x400 + 16 * c + 4 * w) 4 (seen 8 (d.get ⟨(FLT_CH_PEAK c).key + 4 * w, 0, 32⟩)) m) m) m
  let m := selections d m
  let m := d.le.subs.foldl (fun m x => imgBytes (0x2000 + 0x120 * x.1) (subImage x.2) m) m
  astImage d m

/-- Overlay the forces of input symbols (R282). -/
def overlayInput (fs : List Force) (m : List Host.Cell) : List Host.Cell :=
  (fs.filter (fun f => f.kind == 1)).foldl (fun m f =>
    (forceBytes f).foldl (fun m b => memWrite b.1 (maskByte (memRead m b.1) b.2.1 b.2.2) m) m) m

/-- DOUTn is to toggle (R251). -/
def Dev.doutOn (d : Dev) (n : Nat) : Bool := bitAt (d.get DIO_DOUT_CMD_dout) n && d.leRunning && d.acting && d.le.outOk && !d.clocksLost

/-- The levels of the balls after `k` edges: an output that is on toggles at each, another is low. -/
def Dev.doutAfter (d : Dev) (k : Nat) : Nat :=
  (List.range 16).foldl (fun a n => a + b2n (d.doutOn n && (bitAt d.le.dout n != (k % 2 == 1))) * 2 ^ n) 0

/-- The elapsed time at device time `t`, which has passed. -/
def Dev.elapsedAt (d : Dev) (t : Nat) : Nat := d.time.elapsed - 4 * (d.now - t)

/-- DIO_DOUT_MON: a rising edge has reached the ball within the last 150 µs (R482). -/
def Dev.doutMonBit (d : Dev) (n : Nat) : Bool := match lookup n d.le.doutRise with
  | some t => decide (d.time.elapsed ≤ t + 600000)
  | none => false

def Dev.doutMon (d : Dev) : Nat := (List.range 16).foldl (fun a n => a + b2n (d.doutMonBit n) * 2 ^ n) 0

/-- The edges at multiples of 50 µs that lie in the time which has passed since `from_`, before now (R251). -/
def doutEdges (from_ : Nat) (d : Dev) : Dev :=
  let lo := match d.le.doutAt with
    | some t => if t ≤ d.now then max from_ (t + 1) else from_
    | none => from_
  let k := cdiv d.now 50000 - cdiv lo 50000
  let last := (cdiv d.now 50000 - 1) * 50000
  let at_ (n : Nat) : Option Nat :=
    if bitAt (d.doutAfter k) n then some (d.elapsedAt last)
    else if d.doutOn n && 2 ≤ k then some (d.elapsedAt (last - 50000)) else none
  if k = 0 then d
  else { d with le := { d.le with
    dout := d.doutAfter k, doutAt := some last, doutRise := (List.range 16).filterMap (fun n =>
      ((at_ n).or (lookup n d.le.doutRise)).map (fun t => (n, t))) } }

/-- INPUT: the start of the cycle is the later of now and the previous start + min_cycle_us (R245); written forces apply; the
snapshot takes the event latch and the DIN edges with it. -/
def leInput (d : Dev) : Dev :=
  let d := match d.le.startTick with
    | some t => doutEdges d.now (passElapsed (t + d.get LGE_CFG_min_cycle_us * 4000) d)
    | none => d
  let d := imageAccess (gselAccess (forcesInput d))
  let img := overlayInput d.applied (inputImage d)
  { d with
    le := { d.le with
      input := img, first := false, startTick := some d.time.elapsed, now := d.now, rise := 0, fall := 0, edges := List.replicate 16 0 }
    host := { d.host with leLatch := 0 } }

/-! ## EXECUTE -/

/-- What EXECUTE starts from: forced bits of data and output symbols are written first and kept (R282). -/
def Dev.leEnv (d : Dev) : LEnv :=
  let fb := ((d.applied.filter (fun f => f.kind != 1)).map forceBytes).flatten
  let e0 : LEnv := {
    input := d.le.input, output := d.le.output, win := d.win, forced := [], canRead := d.granted .read 24 3, canWrite := d.granted .write 24 3 }
  let e1 := fb.foldl (fun (e : LEnv) b => e.store b.1 (maskByte (e.byte b.1) b.2.1 b.2.2)) e0
  let masks := fb.foldl (fun ms b => insertKey b.1 (((lookup b.1 ms).getD 0) ||| b.2.1) ms) []
  { e1 with forced := masks }

/-- The stores of a pass, and its accesses that the table of the data window denied, which are recorded under LE's master ID (R26, R430). -/
def leCommit (e : LEnv) (d : Dev) : Dev :=
  forL e.denied.reverse (fun a d => violation (if a.1 then .write else .read) 3 24 (leDataWin + (a.2 - 0x20000)) d)
    { d with win := e.win, le := { d.le with output := e.output } }

/-- The first `n` instructions of a pass. -/
def leRun (n : Nat) (d : Dev) : Dev := leCommit (LEnv.run (d.progInstr d.activeProg) d.activeProg.codeCount n 0 d.leEnv) d

/-- EXECUTE: one pass (R263); it ends below 32,768 instructions. -/
def leExecute (d : Dev) : Dev := leRun 32768 d

/-- A pass up to one of its arrivals at the instruction at `pc`, which does not execute; which arrival is open. -/
def leRunTo (pc : Nat) (d : Dev) : Dev :=
  let code := d.progInstr d.activeProg
  let count := d.activeProg.codeCount
  let (k, d) := d.drawNat
  leCommit (LEnv.runTo code count pc 32768 (k % max 1 (LEnv.visits code count pc 32768 0 d.leEnv)) 0 d.leEnv) d

/-! ## OUTPUT (R245, R250-R252, R260) -/

/-- alarm_conflict: a class is set and the instance is not OFF in the scheduler (R252). -/
def leConflict (d : Dev) : Dev :=
  let c := d.get LGE_CFG_alarm_class
  d.setFlag LGE_STAT_alarm_conflict (c ≤ 11 && d.get (SCH_INST_CTRL_state (d.get LGE_ALARM_INST_inst)) != 0)

/-- The logic alarm points as delivered, once logic-driven outputs have started (R299): a change of them is a result of
LGE_ALARM_INST (R252). -/
def logicAlarms (d : Dev) : Dev :=
  let d := leConflict d
  let c := d.get LGE_CFG_alarm_class
  let v := d.get (LGE_OUT 1) % 65536
  if !d.le.outOk || v = d.le.alm then d
  else
  let d := { d with le := { d.le with alm := v } }
  if c ≤ 11 && !d.flag LGE_STAT_alarm_conflict then
    detHandle { inst := d.get LGE_ALARM_INST_inst, cls := c, bits := v, instant := d.le.now } (detDrain d)
  else d

/-- The words of the output image that differ are delivered. -/
def leDeliver (d : Dev) : Dev := forN (leOutBytes / 4) (fun i d =>
  let v := memLe d.le.output (4 * i) 4
  if d.get (LGE_OUT i) = v then d else d.set (LGE_OUT i) v) d

/-- The end of an OUTPUT at `ns` nanoseconds of cycle time: the image is delivered to DIO, DET, acquisition and the GOOSE publisher, and
the retained area is copied. -/
def leOutput (ns : Nat) (d : Dev) : Dev :=
  let c := min ns (2 ^ 32 - 1)
  let d := ((d.set LGE_CYC_LAST c).set LGE_CYC_MAX (max (d.get LGE_CYC_MAX) c)).incWrap LGE_CYC_COUNT
  let d := leDeliver d
  let d := d.set DIO_DOUT_CMD_dout (d.get (LGE_OUT 0))
  let h := d.activeProg
  let d := { d with le := { d.le with
    cycle := (d.le.cycle + 1) % 2 ^ 32, trig := d.get (LGE_OUT 2), outOk := d.le.outOk || d.acting
    retained := memReadN d.win leDataWin h.retainLen, retainId := h.retainId, retainLen := h.retainLen, progId := h.progId } }
  gooseOutput (gooseSync (logicAlarms d))

/-! ## Starts (R257-R259, R272) -/

/-- A save's CRC is right (R362). -/
def saveValid (bs : List Byte) : Bool := bs.length == 20480 && crc32c (bs.take 0x4FFC) == leAt bs 0x4FFC 4

/-- The newest valid save that a test accepts: the one with the highest sequence. -/
def Dev.newestSave (d : Dev) (ok : List Byte → Bool) : Option (List Byte) :=
  (d.nvm.saves.filter (fun s => saveValid s.2 && ok s.2)).foldl (fun b s => match b with
    | none => some s.2
    | some x => if leAt x 0 4 < leAt s.2 0 4 then some s.2 else b) none

/-- Data at a cold start: zero, then the initial values in table order (R258, R275). -/
def dataInit (h : ProgHdr) (d : Dev) : Dev :=
  let d := { d with win := memClear leDataWin 0x20000 d.win }
  forL (d.progInit h) (fun e d => { d with win := memWriteN d.win (leDataWin + (e.1 - 0x20000)) (toLe 4 e.2) }) d

/-- Timer instances idle and edge instances unseen (R272). -/
def instancesReset (syms : List Sym) (d : Dev) : Dev :=
  forL (syms.filter (fun s => 4 ≤ s.ty)) (fun s d => { d with win := memClear (leDataWin + (s.addr - 0x20000)) (symSize s.ty) d.win }) d

/-- The engine enters RUNNING on a verified bank. -/
def leBegin (b : Nat) (d : Dev) : Dev :=
  let h := d.progHdr b
  let d := dataInit h d
  let save := if d.le.warmStart then d.newestSave (fun s => leAt s 0x640 4 == h.retainId && leAt s 0x644 4 == h.retainLen) else none
  let d := match save with
    | some s => { d with win := memWriteN d.win leDataWin (slice s 0x650 h.retainLen) }
    | none => if d.le.warmStart then raise 104 (d.setFlag LGE_STAT_warm_refused true) else d
  let d := instancesReset (d.progSyms h) d
  let d := (d.set LGE_STAT_last_start (if save.isSome then 1 else 2)).set LGE_STAT_state 2
  let d := (d.set LGE_CYC_MAX 0).set LGE_CYC_COUNT 0
  let d := { d with le := { d.le with
    output := [], first := true, wasWarm := save.isSome, cycle := 0, startTick := none, outOk := false } }
  raise 103 (forcesResolve b (gooseStop true d))

/-- LE_START_COMPLETE: the self-test of a start from HALTED, the verification of the bank, and the initialisation of data. -/
def leStartComplete (selftest : Bool) (d : Dev) : Dev :=
  if d.get LGE_STAT_state != 1 then d
  else if d.le.fromHalt && !selftest then leHalt 5 0 d
  else
    let b := d.get LGE_STAT_bank
    let (code, d) := bankVerified b d
    if code = 0 then leBegin b d else leStopped d

/-- STARTUP_RESTART (R257): auto_restart on the configured bank. -/
def startupRestart (d : Dev) : Dev :=
  match d.get LGE_CFG_auto_restart with
  | 1 => leStart true d
  | 2 => leStart false d
  | _ => d

/-! ## Exchange (R278-R280) -/

/-- What the carry-over does with one symbol of the new program: the bytes carried, by the old program's symbols. -/
def carried (old : List Sym) (s : Sym) : Option Sym :=
  if s.kind = 0 then old.find? (fun o => o.kind == 0 && o.id == s.id && o.ty == s.ty) else none

/-- Take an armed exchange: `ns` is its duration. -/
def exchangeTake (ns : Nat) (d : Dev) : Dev :=
  let oldB := d.get LGE_STAT_bank
  let newB := 1 - oldB
  let oldH := d.progHdr oldB
  let newH := d.progHdr newB
  let d := d.setFlag LGE_PROG_STAT_armed false
  let taken := d.now
  let d := forcesResolve newB d
  let oldS := d.progSyms oldH
  let newS := (d.progSyms newH).filter (fun s => s.kind == 0)
  let oldWin := d.win
  let d := dataInit newH d
  let d := instancesReset newS d
  let d := forL newS (fun s d => match carried oldS s with
    | some o =>
      let bs := memReadN oldWin (leDataWin + (o.addr - 0x20000)) (symSize s.ty)
      { d with win := memWriteN d.win (leDataWin + (s.addr - 0x20000)) bs }
    | none => d) d
  let n := (newS.filter (fun s => (carried oldS s).isSome)).length
  let d := (d.set LGE_XCHG_CNT_carried n).set LGE_XCHG_CNT_initialised (newS.length - n)
  let d := (d.set2 LGE_XCHG_TIME_LO LGE_XCHG_TIME_HI taken).set LGE_XCHG_DUR ns
  let d := (d.set LGE_STAT_bank newB).set LGE_CFG_bank newB
  let d := gridLog 0x1004 oldH.progId newH.progId newB (d.get LGE_XCHG_CNT) d
  swapResult 0 (doutEdges taken (passElapsed (d.time.elapsed + 4 * ns) d))

/-- SWAP (R278): `inWait` says that the write falls in WAIT, where the exchange is taken at once; `ns` is its duration then. -/
def leSwap (inWait : Bool) (ns : Nat) (d : Dev) : Dev :=
  if !d.leRunning then swapResult 2 d
  else if d.flag LGE_PROG_STAT_armed then swapResult 4 d
  else if d.get (bankState (1 - d.get LGE_STAT_bank)) != 2 then swapResult 1 d
  else
    let d := d.setFlag LGE_PROG_STAT_armed true
    if inWait then exchangeTake ns d else d

/-- LGE_CTRL: one command per write; the bit swap arms an exchange. -/
def leCtrlWrite (v : Nat) (inWait : Bool) (ns : Nat) (d : Dev) : Dev :=
  let d := match bits v 0 3 with
    | 1 => leStart true d
    | 2 => leStart false d
    | 3 => leStop inWait d
    | _ => d
  if bitAt v 3 then leSwap inWait ns d else d

/-- PROG_CANCEL. -/
def progCancel (d : Dev) : Dev := swapDisarm d

/-- PROG_VERIFY (R277). -/
def progVerify (b : Nat) (d : Dev) : Dev :=
  let st := d.get LGE_STAT_state
  if d.le.verifying.isSome then d.set LGE_PROG_STAT_result 0x0D
  else if b = d.get LGE_STAT_bank && st != 0 && st != 4 then d.set LGE_PROG_STAT_result 0x0E
  else { (bankInfo b 0 false (d.set (bankState b) 1)) with le := { d.le with verifying := some b } }

/-- PROG_VERIFY_DONE. -/
def progVerifyDone (d : Dev) : Dev :=
  match d.le.verifying with
  | none => d
  | some b => (bankVerified b { d with le := { d.le with verifying := none } }).2

/-- LGE_PROG_CMD. -/
def progCmdWrite (v : Nat) (d : Dev) : Dev :=
  match bits v 0 2 with
  | 1 => progVerify (bits v 2 1) d
  | 2 => progCancel d
  | _ => d

/-- A write to bank `b`'s window is discarded, and sets wr_drop (R276). -/
def Dev.bankLockedWr (d : Dev) (b : Nat) : Bool :=
  let st := d.get LGE_STAT_state
  (b == d.get LGE_STAT_bank && (st == 1 || st == 2 || st == 3))
    || d.get (bankState b) == 1 || (b != d.get LGE_STAT_bank && d.flag LGE_PROG_STAT_armed)

/-- The logic registers and the data window are writable (R261). -/
def Dev.leIdle (d : Dev) : Bool := d.get LGE_STAT_state == 0 || d.get LGE_STAT_state == 4

/-! ## Cycles -/

/-- The cycle boundary after an OUTPUT: an armed exchange is taken, and STOPPING reaches STOPPED. -/
def leBoundary (ns : Nat) (d : Dev) : Dev :=
  let d := if d.flag LGE_PROG_STAT_armed then exchangeTake ns d else d
  if d.get LGE_STAT_state = 3 then leStopped d else d

/-- The multiple of 50 µs at which the next edges fall: now, where it is one whose edges have not come. -/
def Dev.doutDue (d : Dev) : Nat :=
  if d.now % 50000 = 0 && d.le.doutAt != some d.now then d.now else (d.now / 50000 + 1) * 50000

/-- DOUT_TOGGLE (R251): at the next multiple of 50 µs every output toggles or is static low. `balls` are those
which a rising edge reaches then (R482; DESIGN CHOICE, log entry 180). -/
def doutToggle (balls : Nat) (d : Dev) : Dev :=
  let due := d.doutDue
  atTime due (fun d => { d with le := { d.le with
    dout := d.doutAfter 1, doutAt := some due, doutRise := (List.range 16).filterMap (fun n =>
      if bitAt balls n then some (n, d.time.elapsed) else (lookup n d.le.doutRise).map (fun t => (n, t))) } }) d

end Sys2Proof.Machine
end

