-- ==== Sys2Proof/Machine/Pair.lean ====
section
/-! DEFINITION. Paired operation and fail-over: acting, the Spine paths and their messages, the lease, self-diagnosis, mirroring and
the return of the primary (R285-R306). -/
namespace Sys2Proof.Machine

/-! ## Acting (R286, R299) -/

/-- Microseconds as elapsed TBC time, in quarter nanoseconds. -/
def usTicks (us : Nat) : Nat := us * 4000

/-- The pair state: 0 START, 1 SINGLE, 2 JOINING, 3 SYNCING, 4 STANDBY, 5 HOLDER, 6 ISOLATED, 7 RELEASED. -/
def Dev.pairState (d : Dev) : Nat := d.get SPN_STAT_state

/-- SPN_LEASE.lease_us. -/
def Dev.leaseUs (d : Dev) : Nat := d.get SPN_LEASE_lease_us

/-- The peer heartbeat is alive (R290). -/
def Dev.hbAlive (d : Dev) : Bool := d.flag SPN_STAT_hb_alive

/-- The conditions under which a unit acts (R286). -/
def Dev.shouldAct (d : Dev) : Bool := d.pairState == 1 || (d.pairState == 5 && (d.flag SPN_STAT_lease_valid || !d.hbAlive))

/-- A frame that starts at the ball only while the unit acts. -/
def TxKind.tokenBound : TxKind → Bool
  | .stream _ => true
  | .alarm => true
  | .goose => true
  | _ => false

/-- Frames of output streams, notices and GOOSE that have not started are dropped from the ports. -/
def tokenPurge (d : Dev) : Dev :=
  let keep (i : TxItem) : Bool := !i.kind.tokenBound
  { d with eth := { d.eth with ports := d.eth.ports.map (fun p =>
      (p.1, { p.2 with express := p.2.express.filter keep, preemptable := p.2.preemptable.filter keep })) } }

/-- The unit stops acting (R299): notices that it would repeat are its decisions of before, which it sends no more (R235); source 109 is raised
unless it enters RELEASED. -/
def actingEnd (d : Dev) : Dev :=
  let d := tokenPurge (d.setFlag SPN_STAT_acting false)
  let d := { d with
    le := { d.le with dout := 0, outOk := false }, spn := { d.spn with gapRef := none }, det := { d.det with repeats := [] } }
  if d.pairState = 7 then d else raise 109 d

/-- The unit begins to act (R299): a logic engine in WAIT begins its INPUT at once. -/
def actingBegin (d : Dev) : Dev :=
  let d := d.setFlag SPN_STAT_acting true
  { d with le := { d.le with startTick := none } }

/-- Acting follows its conditions. -/
def spnEval (d : Dev) : Dev :=
  let a := d.shouldAct
  if a = d.acting then d else if a then actingBegin d else actingEnd d

/-! ## Messages (R287-R289) -/

/-- JOIN 1, GRANT 2, ACK 3, RELEASE 4, REQUEST 5, HANDOVER 6, MIRROR 7, SNAP_REQ 8, ACKCMD 9, PUBSYNC 10. -/
def spnTypeOk (t : Nat) : Bool := 1 ≤ t && t ≤ 10

/-- The bytes of a message with its CRC. -/
def Dev.spnBytes (d : Dev) (ty : Nat) (last : Bool) (ref : Nat) (body : List Byte) : List Byte :=
  let flags := b2n d.primary + b2n d.acting * 2 + b2n (d.flag SPN_STAT_mirror_ok) * 4 + b2n last * 8 + d.timeState * 16
  let m := toLe 1 ty ++ toLe 1 flags ++ toLe 2 body.length ++ toLe 2 (d.get SPN_ID_pair_id) ++ toLe 2 (d.get SPN_CFG_unit_id)
    ++ toLe 4 d.spn.seq ++ toLe 4 ref ++ body
  m ++ toLe 4 (crc32c m)

/-- A message leaves on Spine-B as an express frame. -/
def spineB (bs : List Byte) (d : Dev) : Dev :=
  if !d.flag SPN_CFG_spine_b_en then d
  else
    let p := d.get SPN_CFG_spine_b_port
    let tag := [0x81, 0x00] ++ toBe 2 (d.get SPN_ID_pcp * 8192 + d.get SPN_ID_vid)
    let dst := macBytes (d.get SPN_DMAC_LO) (d.get SPN_DMAC_HI_value)
    ethSend p { kind := .spineB, bytes := d.frame p dst tag 0x88B5 bs, express := true } d

/-- The next sequence number is taken. -/
def spnCount (d : Dev) : Dev := { d with spn := { d.spn with seq := (d.spn.seq + 1) % 2 ^ 32 } }

/-- A message starts on Spine-A, and its copy on Spine-B; it takes its sequence number now, and a GRANT its send instant (R292). At a dead
SPINE crossing it is accepted and discarded (R25), and a lane whose PHY is held sends nothing (R440, R444). -/
def spnStart (m : SpnMsg) (d : Dev) : Dev :=
  let bs := d.spnBytes m.ty m.last m.ref m.body
  let d := if m.ty = 2 then
      { d with spn := { d.spn with grants := d.spn.grants ++ [(d.spn.seq, (d.time.elapsed, leAt m.body 0 2))] } }
    else d
  let d := spnCount d
  let d := if d.xingDead 8 then xdrop d else if d.phyHeld 8 then d else { d with spn := { d.spn with line := some { m with bytes := bs } } }
  if m.viaB then spineB bs d else d

/-- MIRROR, SNAP_REQ, ACKCMD and PUBSYNC wait until none of the others is pending (R287). -/
def SpnMsg.low (m : SpnMsg) : Bool := 7 ≤ m.ty

/-- Which of the waiting messages is next: the first that is not low, where a HANDOVER lets the MIRROR set before it go (R302); else the
MIRROR messages that a HANDOVER waits for; else the first. -/
def spnPick (q : List SpnMsg) : Option Nat :=
  let mirrors := q.any (fun m => m.ty == 7)
  match q.findIdx? (fun m => !m.low && !(m.ty == 6 && mirrors)) with
  | some k => some k
  | none =>
    if q.any (fun m => m.ty == 6) then q.findIdx? (fun m => m.ty == 7)
    else if q.isEmpty then none else some 0

/-- The next message starts, and, while none is in transmission, the next after it. -/
def spnNext (d : Dev) : Dev :=
  iterate d.spn.queue.length (fun d =>
    if d.spn.line.isSome then none
    else match (spnPick d.spn.queue).bind (fun k => d.spn.queue[k]?.map (fun m => (k, m))) with
      | some (k, m) => some (spnStart m { d with spn := { d.spn with queue := d.spn.queue.eraseIdx k } })
      | none => none) d

/-- SPINE_TX_DONE: the message in transmission has left. -/
def spnTxDone (d : Dev) : Dev := spnNext { d with spn := { d.spn with line := none } }

/-- Compose and send a message. RELEASE is sent at once and aborts what is in transmission. -/
def spnSend (ty : Nat) (last : Bool) (ref : Nat) (body : List Byte) (d : Dev) : Dev :=
  let b := !(ty == 7 || ty == 8) || !d.flag SPN_STAT_spa_alive
  let m : SpnMsg := { ty := ty, last := last, ref := ref, body := body, viaB := b }
  if ty = 4 then spnStart m { d with spn := { d.spn with queue := [], line := none } }
  else spnNext { d with spn := { d.spn with queue := d.spn.queue ++ [m] } }

/-- An answer on one path only: an ACK. -/
def spnAnswer (onB : Bool) (ref : Nat) (body : List Byte) (d : Dev) : Dev :=
  if onB then spineB (d.spnBytes 3 false ref body) (spnCount d)
  else spnNext { d with spn := { d.spn with queue := d.spn.queue ++ [{ ty := 3, last := false, ref := ref, body := body, viaB := false }] } }

/-- The program's retain_id and prog_id. -/
def Dev.retainIdNow (d : Dev) : Nat := d.activeProg.retainId

/-! ## State changes (R293-R296) -/

/-- The pair enters a state that is not HOLDER. -/
def pairEnter (st : Nat) (d : Dev) : Dev := spnEval (d.set SPN_STAT_state st)

/-- JOINING. -/
def pairJoining (d : Dev) : Dev :=
  let d := (d.setFlag SPN_STAT_lease_valid false)
  pairEnter 2 { d with spn := { d.spn with
    joinFrom := d.time.elapsed, noted := false, sendLast := none, leaseEnd := none, ackedAt := none, grants := [], handover := false } }

/-- HOLDER: source 108 and the count of takes. -/
def pairHolder (d : Dev) : Dev := spnEval (raise 108 ((d.set SPN_STAT_state 5).inc SPN_TAKES))

/-- A standby takes the token (R294); the reference instant is that of R304. It holds one lease from the take (DEDUCED). -/
def pairTake (ref : Nat) (d : Dev) : Dev :=
  let d := d.setFlag SPN_STAT_lease_valid true
  pairHolder { d with spn := { d.spn with
    gapRef := some ref, leaseEnd := some (d.time.elapsed + usTicks d.leaseUs), ackedAt := none, grants := [], sendLast := none
    handover := false } }

/-- ISOLATED (R293): the lease has lapsed while the peer heartbeat is alive. -/
def pairIsolated (d : Dev) : Dev := raise 111 (pairEnter 6 (d.inc SPN_LAPSES))

/-- A HANDOVER has been composed and has not left. -/
def Dev.handingOver (d : Dev) : Bool := (d.spn.line.toList ++ d.spn.queue).any (fun m => m.ty == 6)

/-- A unit that gives the token up by a cause sends RELEASE: a HOLDER or ISOLATED one, and one whose handover has not left, but on COAST
(R298, R302). -/
def Dev.sendsRelease (d : Dev) : Bool := (d.pairState == 5 || d.pairState == 6 || d.handingOver) && !d.coast

/-- RELEASED with a cause (R298): on COAST no RELEASE is sent, and a unit in RELEASED sends nothing else. A release takes precedence over a
handover in progress (R302). -/
def pairRelease (cause : Nat) (d : Dev) : Dev :=
  let sends := d.sendsRelease
  let d := (d.set SPN_STAT_diag_cause cause).setFlag SPN_STAT_lease_valid false
  let d := { d with spn := { d.spn with leaseEnd := none, ackedAt := none, grants := [], handover := false, queue := [] } }
  let d := pairEnter 7 d
  let d := if sends then spnSend 4 false 0 (toLe 1 cause ++ toLe 3 0) d else d
  raise 112 d

/-! ## Self-diagnosis (R297, R298) -/

/-- TIME stands: the time state is below min_time. -/
def Dev.timeStands (d : Dev) : Bool := d.timeState < d.get SPN_CFG_min_time

/-- TIME releases: a HOLDER whose peer is STANDBY with a good time. -/
def Dev.timeReleases (d : Dev) : Bool :=
  d.timeStands && d.pairState == 5 && d.get SPN_PEER_state == 4 && d.get SPN_CFG_min_time ≤ d.spn.peerTime

/-- The standing causes: bit c − 1 for cause c. -/
def Dev.diagStanding (d : Dev) : Nat :=
  b2n (d.get LGE_STAT_state == 4) + b2n d.spn.ecc * 2 + b2n d.coast * 4 + b2n d.timeStands * 8
    + b2n (d.flag GCTL_FAB_STAT_timeout) * 16 + b2n (d.flag CKP_THERM_trip) * 32

/-- The causes that release: TIME a HOLDER only under its condition, and a STANDBY never (R297). -/
def Dev.diagBlocking (d : Dev) : Nat :=
  setBit (d.get SPN_DIAG_standing) 3 (d.timeStands && d.pairState != 4 && (d.pairState != 5 || d.timeReleases))

/-- The lowest cause of a set. -/
def causeOf (v : Nat) : Nat := lowestBit 6 v + 1

/-- The pair is between JOINING and ISOLATED. -/
def Dev.paired (d : Dev) : Bool := 2 ≤ d.pairState && d.pairState ≤ 6

/-- Causes are evaluated, and one that stands releases the token; SPN_STAT.diag_cause names the lowest of those that newly stand, but
not in START, where none can release (DEDUCED, log entry 60). -/
def diagEval (d : Dev) : Dev :=
  let old := d.get SPN_DIAG_standing
  let new := d.diagStanding
  let d := d.set SPN_DIAG_standing new
  let fresh := (List.range 6).foldl (fun a i => a + b2n (bitAt new i && !bitAt old i) * 2 ^ i) 0
  let d := if fresh = 0 || d.pairState = 0 then d else d.set SPN_STAT_diag_cause (causeOf fresh)
  if d.paired && d.diagBlocking != 0 then pairRelease (causeOf d.diagBlocking) d else d

/-- PAIR_START: start-up step 10 or re-binding step 9. -/
def pairStart (d : Dev) : Dev :=
  if d.pairState != 0 then d
  else if !d.flag SPN_CFG_enable then pairEnter 1 d
  else if d.get SPN_DIAG_standing != 0 then raise 112 ((pairEnter 7 d).set SPN_STAT_diag_cause (causeOf (d.get SPN_DIAG_standing)))
  else pairJoining d

/-- Re-binding step 3 (R49, R295, R298): RELEASE goes out with cause REBIND, and the pair returns to START. -/
def pairRebind (d : Dev) : Dev :=
  let sends := d.sendsRelease
  let d := (d.set SPN_STAT_diag_cause 8).setFlag SPN_STAT_lease_valid false
  let d := pairEnter 0 { d with spn := { d.spn with
    leaseEnd := none, ackedAt := none, grants := [], handover := false, queue := [], opened := none, sets := [] } }
  if sends then spnSend 4 false 0 (toLe 1 8 ++ toLe 3 0) d else d

/-! ## Liveness (R290, R291) -/

/-- The last valid message of a path, and the instant of the last message on either. -/
def Dev.lastOn (d : Dev) (onB : Bool) : Option Nat := if onB then d.spn.lastB else d.spn.lastA
def Dev.lastMsg (d : Dev) : Nat := max (d.spn.lastA.getD 0) (d.spn.lastB.getD 0)

/-- The alive bit of a path. -/
def pathFld (onB : Bool) : Fld := if onB then SPN_STAT_spb_alive else SPN_STAT_spa_alive

/-- A valid message has arrived on a path: liveness, and what its header says of the peer. -/
def spnNote (onB : Bool) (bs : List Byte) (d : Dev) : Dev :=
  let t := some d.time.elapsed
  let d := if onB then { d with spn := { d.spn with lastB := t, noted := false } } else { d with spn := { d.spn with lastA := t, noted := false } }
  let fl := byteAt bs 1
  let d := (d.setFlag SPN_STAT_peer_primary (bitAt fl 0)).set SPN_PEER_unit_id (leAt bs 6 2)
  let d := d.set SPN_PEER_time (bits fl 4 2)
  if d.flag (pathFld onB) then d else raiseMs 110 (d.setFlag (pathFld onB) true)

/-- SPINE_PATH_SILENT (R291): no valid message on the path for lease_us + 20 µs. Where both paths are then silent while the peer
heartbeat is alive, a standby raises source 111 (R305). -/
def spnPathSilent (onB : Bool) (d : Dev) : Dev :=
  match d.lastOn onB with
  | none => d
  | some t => atElapsed (t + usTicks (d.leaseUs + 20)) (fun d =>
    if !d.flag (pathFld onB) then d
    else
      let d := raiseMs 110 (d.setFlag (pathFld onB) false)
      if d.pairState = 4 && d.hbAlive && !d.flag SPN_STAT_spa_alive && !d.flag SPN_STAT_spb_alive then raise 111 d else d) d

/-- HB_IN_EDGE: HB_IN takes an edge of the peer heartbeat, after which it has stayed high for at least 100 ns (R491; DEDUCED, log entry
202); a HOLDER whose lease has lapsed, or that acted without one, then stops acting and
is ISOLATED (R293). -/
def hbInEdge (d : Dev) : Dev :=
  let d := { d with spn := { d.spn with hbIn := some d.time.elapsed } }
  if d.hbAlive then d
  else
    let d := raiseMs 110 (d.setFlag SPN_STAT_hb_alive true)
    if d.pairState = 5 && !d.flag SPN_STAT_lease_valid && (d.spn.leaseEnd.isSome || d.acting) then pairIsolated d else spnEval d

/-- HEARTBEAT_SILENT: no rising edge for 30 µs; an ISOLATED unit returns to HOLDER (R293). -/
def hbSilent (d : Dev) : Dev :=
  match d.spn.hbIn with
  | none => d
  | some t => atElapsed (t + usTicks 30) (fun d =>
    if !d.hbAlive then d
    else
      let d := raiseMs 110 (d.setFlag SPN_STAT_hb_alive false)
      if d.pairState = 6 then pairHolder d else spnEval d) d

/-- HB_OUT runs: the state is one of JOINING to ISOLATED and no cause stands (R290). -/
def Dev.hbRuns (d : Dev) : Bool := d.paired && d.get SPN_DIAG_standing == 0

/-- HEARTBEAT_PULSE: 10 µs after the last pulse HB_OUT rises, if the self-timed core has acknowledged the request of the previous
pulse. -/
def hbPulse (acked : Bool) (d : Dev) : Dev :=
  atElapsed ((d.spn.hbOut.map (fun t => t + usTicks 10)).getD 0) (fun d =>
    if d.hbRuns && acked then { d with spn := { d.spn with hbOut := some d.time.elapsed } } else d) d

/-- The level of HB_OUT: high for 2 µs from a pulse's start. -/
def Dev.hbLevel (d : Dev) : Bool := match d.spn.hbOut with
  | some t => d.hbRuns && decide (d.time.elapsed < t + usTicks 2)
  | none => false

/-! ## The lease (R292-R294) -/

/-- ⌊lease_us / 6⌋ µs after the last GRANT or JOIN. -/
def atSend (f : Dev → Dev) (d : Dev) : Dev := atElapsed ((d.spn.sendLast.map (fun t => t + usTicks (d.leaseUs / 6))).getD 0) f d

/-- GRANT_SEND: a HOLDER or ISOLATED unit sends a GRANT and records when. -/
def grantSend (d : Dev) : Dev :=
  if d.pairState = 5 || d.pairState = 6 then atSend (fun d =>
    let now := d.time.elapsed
    let live := d.spn.grants.filter (fun g => now < g.2.1 + usTicks g.2.2)
    let d := { d with spn := { d.spn with sendLast := some now, grants := live } }
    spnSend 2 false 0 (toLe 2 d.leaseUs ++ toLe 2 0 ++ toLe 4 d.retainIdNow) d) d
  else d

/-- JOIN_SEND. -/
def joinSend (d : Dev) : Dev :=
  if d.pairState = 2 then atSend (fun d =>
    spnSend 1 false 0 (toLe 4 d.retainIdNow ++ toLe 4 d.activeProg.progId) { d with spn := { d.spn with sendLast := some d.time.elapsed } }) d
  else d

/-- LEASE_LAPSE: the lease ends; while the peer heartbeat is alive the unit becomes ISOLATED. -/
def leaseLapse (d : Dev) : Dev :=
  match d.spn.leaseEnd with
  | none => d
  | some t => atElapsed t (fun d =>
    let d := d.setFlag SPN_STAT_lease_valid false
    if d.pairState = 5 && d.hbAlive then pairIsolated d else spnEval d) d

/-- TAKE_ON_SILENCE (R294): the reference instant is the later of the last message and the last heartbeat edge (R304). -/
def takeOnSilence (d : Dev) : Dev :=
  if d.pairState != 4 then d
  else atElapsed (d.lastMsg + usTicks (d.spn.grantLease.getD d.leaseUs + 20)) (fun d =>
    if d.hbAlive then d else pairTake (max d.lastMsg (d.spn.hbIn.getD 0)) d) d

/-- SYNC_TIMEOUT: a SYNCING unit without a valid message for lease + 20 µs. -/
def syncTimeout (d : Dev) : Dev :=
  if d.pairState != 3 then d
  else atElapsed (d.lastMsg + usTicks (d.spn.grantLease.getD d.leaseUs + 20)) pairJoining d

/-- JOIN_TIMEOUT (R296): after join_ms without a message and without a heartbeat edge the unit becomes HOLDER; with the heartbeat
alive it stays JOINING and raises source 111. -/
def joinTimeout (d : Dev) : Dev :=
  if d.pairState != 2 then d
  else
    let j := usTicks (1000 * d.get SPN_LEASE_join_ms)
    let from_ := max d.spn.joinFrom d.lastMsg
    if d.hbAlive then
      atElapsed (from_ + j) (fun d => if d.spn.noted then d else raise 111 { d with spn := { d.spn with noted := true } }) d
    else atElapsed (max from_ (d.spn.hbIn.getD 0) + j) pairHolder d

/-! ## Mirroring (R301) -/

/-- The number of 64-byte blocks of a retained area. -/
def blockCount (len : Nat) : Nat := cdiv len 64

/-- Ascending block numbers cut into runs of consecutive ones, at most 15 each: first block and count. -/
def blockRuns : List Nat → List (Nat × Nat)
  | [] => []
  | b :: bs => match blockRuns bs with
    | (f, n) :: rs => if f = b + 1 ∧ n < 15 then (b, n + 1) :: rs else (b, 1) :: (f, n) :: rs
    | [] => [(b, 1)]

/-- The messages of a set: flag bit 3 marks the last one. An empty area is one message without blocks (DEDUCED). -/
def mirrorMessages (cycle retain : Nat) (area : List Byte) (rs : List (Nat × Nat)) (d : Dev) : Dev :=
  let rs := if rs.isEmpty then [(0, 0)] else rs
  forL rs.zipIdx (fun x d =>
    let (f, n) := x.1
    spnSend 7 (x.2 + 1 == rs.length) 0
      (toLe 4 cycle ++ toLe 4 retain ++ toLe 2 f ++ toLe 2 n ++ slice area (64 * f) (64 * n)) d) d

/-- The number of the cycle whose OUTPUT has ended. -/
def Dev.lastCycle (d : Dev) : Nat := (d.le.cycle + 2 ^ 32 - 1) % 2 ^ 32

/-- MIRROR_SET_SEND, at the end of an OUTPUT: the blocks of a set of which a message waits or is in transmission are merged into the next
with their newer content, so a cycle that changes many blocks is mirrored over more than one cycle. -/
def mirrorSend (d : Dev) : Dev :=
  let area := d.le.retained
  let n := blockCount d.le.retainLen
  let old := d.spn.copy
  let isM (m : SpnMsg) : Bool := m.ty == 7
  let d := { d with spn := { d.spn with copy := area } }
  if d.pairState != 5 then d
  else
    let open_ := (d.spn.line.toList ++ d.spn.queue).any isM
    let waits := if open_ then d.spn.setBlocks else []
    let blocks := (List.range n).filter (fun b => d.spn.snapReq || slice area (64 * b) 64 != slice old (64 * b) 64 || waits.contains b)
    if blocks.isEmpty && !d.spn.snapReq then d
    else
      let d := if open_ then d.inc SPN_MIRROR_LAG else d
      let d := { d with spn := { d.spn with queue := d.spn.queue.filter (fun m => !isM m), setBlocks := blocks, snapReq := false } }
      mirrorMessages d.lastCycle d.le.retainId area (blockRuns blocks) d

/-- mirror_ok clears: source 113. -/
def mirrorBad (d : Dev) : Dev := if d.flag SPN_STAT_mirror_ok then raise 113 (d.setFlag SPN_STAT_mirror_ok false) else d

/-- Apply one complete set: under master 20, checked against the table of the logic data window (R26). -/
def mirrorApplyOne (x : MirrorSet) (d : Dev) : Dev :=
  let h := d.activeProg
  if x.retain != h.retainId then mirrorBad d
  else if !d.granted .write 24 20 then mirrorBad (violation .write 20 24 (leDataWin + 64 * (x.blocks.headD (0, [])).1) d)
  else
    let d := forL x.blocks (fun b d =>
      { d with win := memWriteN d.win (leDataWin + 64 * b.1) (b.2.take (h.retainLen - 64 * b.1)) }) d
    let d := d.setFlag SPN_STAT_mirror_ok true
    if d.pairState = 3 && (List.range (blockCount h.retainLen)).all (fun b => x.blocks.any (fun y => y.1 == b)) then pairEnter 4 d else d

/-- MIRROR_APPLY, at an INPUT and before EXECUTE. -/
def mirrorApply (d : Dev) : Dev :=
  let xs := d.spn.sets
  forL xs mirrorApplyOne { d with spn := { d.spn with sets := [] } }

/-- An accepted DET_CMD goes to the peer. -/
def ackcmdSend (m v : Nat) (d : Dev) : Dev :=
  if d.pairState = 5 then spnSend 9 false 0 (toLe 4 v ++ toLe 1 m ++ toLe 3 0) d else d

/-- PUBSYNC_SEND: once per second of device time. -/
def pubsyncSend (d : Dev) : Dev :=
  if d.pairState != 5 then d
  else atTime ((d.sec + 1) * 1000000000) (fun d =>
    spnSend 10 false 0 ((List.range 32).map (fun b => toLe 4 (d.get (LGE_GPUB_STNUM b)) ++ toLe 4 (d.get (LGE_GPUB_SQNUM b)))).flatten d) d

/-! ## The cycle of the logic engine (R302, R304) -/

/-- HANDOVER_SEND: a SECONDARY HOLDER that was asked sends that cycle's set and then HANDOVER, stops acting and enters STANDBY. -/
def handoverSend (d : Dev) : Dev :=
  if d.spn.handover && d.pairState = 5 then
    let d := { d with spn := { d.spn with handover := false } }
    let d := spnSend 6 false 0 (toLe 4 d.lastCycle) d
    let d := d.setFlag SPN_STAT_lease_valid false
    pairEnter 4 { d with spn := { d.spn with leaseEnd := none, ackedAt := none, grants := [] } }
  else d

/-- The gap is measured at the end of the first OUTPUT after a take. -/
def gapMeasure (d : Dev) : Dev :=
  match d.spn.gapRef with
  | none => d
  | some r =>
    let g := min ((d.time.elapsed - r) / 4) (2 ^ 32 - 1)
    let d := (d.set SPN_GAP_LAST g).set SPN_GAP_MAX (max (d.get SPN_GAP_MAX) g)
    { d with spn := { d.spn with gapRef := none } }

/-- What the pair does at the end of an OUTPUT. -/
def pairOutput (d : Dev) : Dev := handoverSend (mirrorSend (gapMeasure d))

/-! ## Receiving (R288) -/

/-- The message of a Spine-B frame, cut at its length. -/
def spnOfFrame (f : RxFrame) : List Byte := (f.bytes.drop 14).take (20 + leAt (f.bytes.drop 14) 2 2)

/-- A message's CRC is right. -/
def spnCrcOk (bs : List Byte) : Bool :=
  let n := 16 + leAt bs 2 2
  bs.length == n + 4 && crc32c (bs.take n) == leAt bs n 4

/-- A message discarded for pair_id, unit_id or type. -/
def Dev.spnForeign (d : Dev) (bs : List Byte) : Bool :=
  leAt bs 4 2 != d.get SPN_ID_pair_id || leAt bs 6 2 == d.get SPN_CFG_unit_id || !spnTypeOk (byteAt bs 0)

/-- A message of the same sequence number has arrived: this is a later copy. -/
def Dev.spnCopy (d : Dev) (bs : List Byte) : Bool := (lookup (leAt bs 8 4) d.spn.seen).isSome

/-- A message that is to be discarded. -/
def Dev.spnDiscarded (d : Dev) (_ : Bool) (bs : List Byte) : Bool := !spnCrcOk bs || d.spnForeign bs || d.spnCopy bs

/-- Take an arriving message that a test accepts: its path and bytes. -/
def spnTake (want : Bool → List Byte → Bool) (rx : SpineRx) (d : Dev) : Option (Bool × List Byte × Dev) :=
  match rx with
  | .lineA m => if want false m then some (false, m, d) else none
  | .lineAbort => none
  | .portB =>
    let i := d.eth.spineIn.findIdx (fun f => want true (spnOfFrame f))
    match d.eth.spineIn[i]? with
    | some f => some (true, spnOfFrame f, { d with eth := { d.eth with spineIn := d.eth.spineIn.eraseIdx i } })
    | none => none

/-- A JOIN that carries this unit's own unit_id and role: neither wins (R296). -/
def joinConflict (bs : List Byte) (d : Dev) : Dev :=
  if byteAt bs 0 = 1 && leAt bs 4 2 = d.get SPN_ID_pair_id && d.pairState = 2 && bitAt (byteAt bs 1) 0 = d.primary then
    raise 113 (d.setFlag SPN_STAT_role_conflict true)
  else d

/-- A message that a receiver discards is counted. -/
def spnDiscard (bs : List Byte) (d : Dev) : Dev :=
  if !spnCrcOk bs then d.inc SPN_CRC_ERR
  else
    let d := d.inc SPN_FOREIGN
    if leAt bs 4 2 != d.get SPN_ID_pair_id then raise 113 d else joinConflict bs d

/-- How many sequence numbers of first copies are kept. -/
def seenKept : Nat := 1024

/-- An arriving message: discarded, or noted and, if it is the first copy, acted on. -/
def spnAccept (onB : Bool) (bs : List Byte) (act : Dev → Dev) (d : Dev) : Dev :=
  if !spnCrcOk bs || d.spnForeign bs then spnDiscard bs d
  else
    let copy := d.spnCopy bs
    let d := spnNote onB bs d
    if copy then d else act { d with spn := { d.spn with seen := ((leAt bs 8 4, onB) :: d.spn.seen).take seenKept } }

/-- A message of a type arrives. -/
def spnReceive (ty : Nat) (act : Bool → List Byte → Dev → Dev) (rx : SpineRx) (d : Dev) : Dev :=
  match spnTake (fun _ bs => byteAt bs 0 == ty) rx d with
  | some (b, bs, d) => spnAccept b bs (act b bs) d
  | none => d

/-- SPINE_MESSAGE_DISCARD: a message that is to be discarded arrives. -/
def spnMessageDiscard (rx : SpineRx) (d : Dev) : Dev :=
  match spnTake d.spnDiscarded rx d with
  | some (b, bs, d) => spnAccept b bs id d
  | none => d

/-- The body of a message. -/
def spnBody (bs : List Byte) : List Byte := (bs.drop 16).take (leAt bs 2 2)

/-- JOIN (R296). -/
def onJoin (_ : Bool) (bs : List Byte) (d : Dev) : Dev :=
  let peer := bitAt (byteAt bs 1) 0
  let wins := (d.primary && !peer) || (d.primary == peer && decide (d.get SPN_CFG_unit_id < leAt bs 6 2))
  if d.pairState = 2 && wins then pairHolder d else d

/-- GRANT (R292, R295): a unit that answers sends its ACK on the path of the first copy. -/
def onGrant (onB : Bool) (bs : List Byte) (d : Dev) : Dev :=
  let b := spnBody bs
  let ack (d : Dev) : Dev := spnAnswer onB (leAt bs 8 4) (toLe 1 d.pairState ++ toLe 3 0) d
  let d := if 2 ≤ d.pairState && d.pairState ≤ 4 then { d with spn := { d.spn with grantLease := some (leAt b 0 2) } } else d
  match d.pairState with
  | 2 => spnSend 8 false 0 [] (ack (pairEnter 3 { d with spn := { d.spn with opened := none, sets := [] } }))
  | 3 => ack (if leAt b 4 4 != d.retainIdNow then pairEnter 4 d else d)
  | 4 => ack d
  | 5 => if bitAt (byteAt bs 1) 0 && bitAt (byteAt bs 1) 1 && !d.primary then pairJoining d else d
  | _ => d

/-- ACK: the lease runs to the send instant of the newest acknowledged GRANT plus its lease_us (R292). A unit whose engine is not
RUNNING does not renew it (R244). -/
def onAck (_ : Bool) (bs : List Byte) (d : Dev) : Dev :=
  let d := { (d.set SPN_PEER_state (byteAt bs 16)) with spn := { d.spn with peerTime := bits (byteAt bs 1) 4 2 } }
  if d.pairState != 5 && d.pairState != 6 then d
  else
    let d := match lookup (leAt bs 12 4) d.spn.grants with
      | some (t, l) =>
        if d.leRunning && (d.spn.ackedAt.all (fun a => decide (a < t))) then
          { d with spn := { d.spn with ackedAt := some t, leaseEnd := some (t + usTicks l) } }
        else d
      | none => d
    let ok := d.spn.leaseEnd.any (fun e => decide (d.time.elapsed < e))
    let d := d.setFlag SPN_STAT_lease_valid ok
    if d.pairState = 6 && ok then pairHolder d else spnEval d

/-- RELEASE. -/
def onRelease (_ : Bool) (_ : List Byte) (d : Dev) : Dev := if d.pairState = 4 then pairTake d.time.elapsed d else d

/-- REQUEST. -/
def onRequest (_ : Bool) (_ : List Byte) (d : Dev) : Dev :=
  if d.pairState = 5 && !d.primary then { d with spn := { d.spn with handover := true } } else d

/-- HANDOVER. -/
def onHandover (_ : Bool) (_ : List Byte) (d : Dev) : Dev := if d.pairState = 4 then pairTake d.time.elapsed d else d

/-- Every sequence number after `a` and before `b` has arrived. -/
def Dev.spnGapless (d : Dev) (a b : Nat) : Bool :=
  let n := (b + 2 ^ 32 - a) % 2 ^ 32
  decide (n ≤ seenKept) && (List.range (n - 1)).all (fun i => (lookup ((a + 1 + i) % 2 ^ 32) d.spn.seen).isSome)

/-- MIRROR: its blocks join the set that arrives, which is complete with the message that carries flag bit 3, unless a message of it may
have been lost: a sequence number is missing within it or just before it (R301; DEDUCED, log entry 177). -/
def onMirror (_ : Bool) (bs : List Byte) (d : Dev) : Dev :=
  if d.pairState != 3 && d.pairState != 4 then d
  else
    let b := spnBody bs
    let n := leAt b 10 2
    let q := leAt bs 8 4
    let blocks := (List.range n).map (fun i => (leAt b 8 2 + i, slice b (12 + 64 * i) 64))
    let fresh : MirrorSet := {
      cycle := leAt b 0 4, retain := leAt b 4 4, blocks := blocks, seq := q, whole := (lookup ((q + 2 ^ 32 - 1) % 2 ^ 32) d.spn.seen).isSome }
    let s : MirrorSet := match d.spn.opened with
      | some s => if s.cycle = leAt b 0 4 && s.retain = leAt b 4 4 then
          { s with blocks := s.blocks ++ blocks, seq := q, whole := s.whole && d.spnGapless s.seq q } else fresh
      | none => fresh
    if bitAt (byteAt bs 1) 3 then { d with spn := { d.spn with opened := none, sets := if s.whole then d.spn.sets ++ [s] else d.spn.sets } }
    else { d with spn := { d.spn with opened := some s } }

/-- SNAP_REQ: the next set of the holder holds every block. -/
def onSnapReq (_ : Bool) (_ : List Byte) (d : Dev) : Dev :=
  if d.pairState = 5 || d.pairState = 6 then { d with spn := { d.spn with snapReq := true } } else d

/-- ACKCMD: applied as a local DET_CMD. -/
def onAckcmd (_ : Bool) (bs : List Byte) (d : Dev) : Dev :=
  if d.pairState = 3 || d.pairState = 4 then detCmd (byteAt bs 20) (leAt bs 16 4) d else d

/-- PUBSYNC: applied to the unit's own counters. -/
def onPubsync (_ : Bool) (bs : List Byte) (d : Dev) : Dev :=
  if d.pairState = 3 || d.pairState = 4 then
    forN 32 (fun p d => (d.set (LGE_GPUB_STNUM p) (leAt bs (16 + 8 * p) 4)).set (LGE_GPUB_SQNUM p) (leAt bs (20 + 8 * p) 4)) d
  else d

/-! ## Commands and the return of the primary (R300, R302) -/

/-- The conditions of R302. -/
def Dev.returnReady (d : Dev) : Bool :=
  d.pairState == 4 && d.primary && d.flag SPN_CFG_auto_return && d.flag SPN_STAT_mirror_ok && d.get SPN_DIAG_standing == 0
    && d.flag SPN_STAT_spa_alive && d.flag SPN_STAT_spb_alive && d.hbAlive

/-- Any break restarts the count. -/
def returnEval (d : Dev) : Dev :=
  if d.returnReady then
    if d.spn.returnFrom.isSome then d else { d with spn := { d.spn with returnFrom := some d.time.elapsed } }
  else if d.spn.returnFrom.isNone then d
  else { d with spn := { d.spn with returnFrom := none } }

/-- A write of SPN_RETURN restarts the count. -/
def returnRestart (d : Dev) : Dev := returnEval { d with spn := { d.spn with returnFrom := none } }

/-- RETURN_HOLDOFF: the conditions have held for holdoff_s, and REQUEST is sent. -/
def returnHoldoff (d : Dev) : Dev :=
  match d.spn.returnFrom with
  | none => d
  | some t => atElapsed (t + usTicks (1000000 * d.get SPN_RETURN_holdoff_s)) (fun d =>
    if d.returnReady then returnRestart (spnSend 5 false 0 [] d) else d) d

/-- A command that gives STATE. -/
def pairRefuse (d : Dev) : Dev := d.setFlag SPN_STAT_cmd_refused true

/-- SPN_CMD RELEASE (R300). -/
def pairCmdRelease (confirm : Nat) (d : Dev) : Dev :=
  if confirm = 0xA5 && d.pairState = 5 && d.get SPN_PEER_state = 4 then pairRelease 7 d else pairRefuse d

/-- SPN_CMD REJOIN (R295). -/
def pairRejoin (d : Dev) : Dev := if d.pairState = 7 && d.get SPN_DIAG_standing = 0 then pairJoining d else pairRefuse d

/-- SPN_CMD CLEAR_CNT. -/
def pairClearCnt (d : Dev) : Dev :=
  ((((((d.set SPN_TAKES 0).set SPN_LAPSES 0).set SPN_CRC_ERR 0).set SPN_FOREIGN 0).set SPN_MIRROR_LAG 0).set SPN_GAP_MAX 0)

/-- A write of SPN_CMD. -/
def pairCmdWrite (v : Nat) (d : Dev) : Dev :=
  match bits v 0 4 with
  | 1 => pairCmdRelease (bits v 8 8) d
  | 2 => pairRejoin d
  | 3 => pairClearCnt d
  | _ => d

end Sys2Proof.Machine
end

