-- ==== Sys2Proof/Machine/Acq.lean ====
section
/-! DEFINITION. Disturbance acquisition: channels and tracks, segments, the recorder, triggers, completion, mask tests, measurements and
the layout of records (R307-R330). -/
namespace Sys2Proof.Machine

/-! ## Configuration -/

/-- Recorder states: 0 OFF, 1 READY, 2 ARMED, 3 RECORDING, 4 DISABLING. -/
def Dev.acqState (d : Dev) : Nat := d.get ACQ_STATUS_state

/-- The step rate q (register ACQ_TIME). -/
def Dev.acqQ (d : Dev) : Nat := match d.get ACQ_TIME_step_rate with | 0 => 4000 | 1 => 4800 | 2 => 12800 | _ => 14400

/-- settle, pre, post and tail in ns. -/
def Dev.acqSettle (d : Dev) : Nat := d.get ACQ_TIME_settle * 100000
def Dev.acqPre (d : Dev) : Nat := d.get ACQ_TIME_pre_ms * 1000000
def Dev.acqPost (d : Dev) : Nat := d.get ACQ_POST_post_ms * 1000000
def Dev.acqTail (d : Dev) : Nat := d.get ACQ_POST_tail * 10000000

/-- The time of index k at rate r (R309). -/
def entryTime (r k : Nat) : Nat := k / r * 1000000000 + divRne (k % r * 1000000000) r

/-- The lowest multiple of `n` whose time is at or after `t`. -/
def firstEntry (r n t : Nat) : Nat :=
  let k0 := t / 1000000000 * r + t % 1000000000 * r / 1000000000 - 1
  let k := k0 + ((List.range 4).find? (fun i => decide (t ≤ entryTime r (k0 + i)))).getD 0
  cdiv k n * n

/-- The group of a channel's source: local channels and phasors are 8 to a group. -/
def srcGroup (ty idx : Nat) : Nat := if ty ≤ 4 then idx / 8 else idx

/-- The rate of a source and its group's fnom and sv_rate (R307). -/
def Dev.srcRate (d : Dev) (ty idx : Nat) : Option (Nat × Nat) :=
  (d.groupSrc (srcGroup ty idx)).map (fun e =>
    (if ty = 1 then e.2.svRate else if ty ≤ 3 then e.2.fnom else natOf e.2.rate, e.2.fnom))

/-- The reductions allowed for a source type (R307): RAW 1, MINMAX 2, MEAN 4, RMS 8. -/
def reductionsAllowed (ty red : Nat) : Bool := if ty = 1 then red < 16 else red < 8

/-- Channels that are on. -/
def Dev.acqChannels (d : Dev) : List Nat := (List.range 320).filter (fun c => d.get (ACQ_CH0_type c) != 0)

/-- The mask tests are built in (R323). -/
def Dev.acqMasks (d : Dev) : Bool := d.flag BND_CAP1_masks

/-- Channels with a mask test. -/
def Dev.maskChannels (d : Dev) : List Nat := if d.acqMasks then (List.range 64).filter (fun c => d.get (ACQ_CH2_mask_mode c) != 0) else []

/-- Enabled measurement slots. -/
def Dev.measSlots (d : Dev) : List Nat := if d.acqMasks then [] else (List.range 64).filter (fun m => d.flag (ACQ_MEAS0_en m))

/-- n_meas (R315). -/
def Dev.acqMeas (d : Dev) : Nat := d.maskChannels.length + d.measSlots.length

/-- Values per entry of a reduction. -/
def Dev.redSpan (d : Dev) (c red : Nat) : Nat := if red = 1 then d.get (ACQ_CH1_n_mm c) else if red = 2 then d.get (ACQ_CH1_n_mean c) else 1

/-- The tracks of the configuration, in the order of R326, laid out behind the descriptors and the mask or measurement area. The
rates are those in force. -/
def Dev.acqTracks (d : Dev) (tArm : Nat) : List AcqTrack :=
  let l := d.get ACQ_TIME_pre_ms + d.get ACQ_POST_post_ms
  let raw := (d.acqChannels.map (fun c =>
    let ty := d.get (ACQ_CH0_type c)
    let idx := d.get (ACQ_CH0_index c)
    let (r, fnom) := (d.srcRate ty idx).getD (1, 50)
    ((List.range 4).filter (fun red => bitAt (d.get (ACQ_CH0_reductions c)) red)).map (fun red =>
      let n := d.redSpan c red
      let er := if red = 3 then fnom else r
      ({ chan := c, red := red, ty := ty, idx := idx, rate := r, fnom := fnom, n := n, eb := if red = 1 then 8 else 4
         cap := cdiv (l * er) (1000 * n) + 1, off := 0, first := firstEntry er n tArm } : AcqTrack)))).flatten
  let base := cdiv (256 + 64 * raw.length + 32 * d.acqMeas) 64 * 64
  (raw.foldl (fun (a : List AcqTrack × Nat) t => (a.1 ++ [{ t with off := a.2 }], a.2 + cdiv (t.cap * t.eb) 64 * 64)) ([], base)).1

/-- The record bytes (R315). -/
def Dev.recordBytes (d : Dev) (ts : List AcqTrack) : Nat :=
  256 + 64 * ts.length + 32 * d.acqMeas + (ts.map (fun t => cdiv (t.cap * t.eb) 64 * 64)).sum

/-- The rate at which a track's index counts. -/
def AcqTrack.er (t : AcqTrack) : Nat := if t.red = 3 then t.fnom else t.rate

/-! ## Segments (R311) -/

/-- Byte address of segment `s`. -/
def Dev.segBase (d : Dev) (s : Nat) : Nat := (d.part 1).1 + s * d.get ACQ_SEGSZ_seg_mib * mib

/-- The lowest-numbered FREE segment. -/
def Dev.segFree (d : Dev) : Option Nat := (List.range (d.get ACQ_SEGSZ_n_seg)).find? (fun s => d.get (ACQ_SEG_state s) == 0)

/-- The number of COMPLETE segments. -/
def segCount (d : Dev) : Dev :=
  d.set ACQ_STATUS_complete (((List.range 64).filter (fun s => d.get (ACQ_SEG_state s) == 3)).length)

/-- A write of the ACQ writer, master 22, into partition 1 (R26, R312). -/
def acqWrite (a : Nat) (bs : List Byte) (d : Dev) : Dev :=
  if d.granted .write 97 22 then d.dramWrite a bs else violation .write 22 97 (a - (d.part 1).1) d

/-! ## Tracks (R309, R316) -/

/-- A binary32 number in units of 2^-149. -/
def fDyadic (a : Nat) : Int := let (n, q) := fQ a; n * ((2 ^ 149 / q : Nat) : Int)

/-- The NaN of a missing entry. -/
def AcqTrack.nanWords (t : AcqTrack) : List Nat := if t.red = 1 then [fNaN, fNaN] else [fNaN]

/-- One entry goes to its ring position. -/
def trackWrite (seg : Nat) (t : AcqTrack) (ord : Nat) (ws : List Nat) (d : Dev) : Dev :=
  acqWrite (d.segBase seg + t.off + t.eb * (ord % t.cap)) ((ws.map (toLe 4)).flatten) d

/-- Append one entry. -/
def trackEntry (seg : Nat) (ws : List Nat) (x : AcqTrack × Dev) : AcqTrack × Dev :=
  let (t, d) := x
  let nans := if fIsNaN (ws.getD 0 0) then t.count :: t.nans.filter (fun o => t.count < o + t.cap) else t.nans
  ({ t with count := t.count + 1, nans := nans }, trackWrite seg t t.count ws d)

/-- Entries up to an ordinal that were not formed are NaN; of a long gap only the last `cap` have a position. -/
def trackFill (seg ord : Nat) (x : AcqTrack × Dev) : AcqTrack × Dev :=
  let (t, d) := x
  let from_ := max t.count (ord - t.cap)
  forN (ord - from_) (fun _ x => trackEntry seg x.1.nanWords x) ({ t with count := from_ }, d)

/-- The entry of the open window (R309). -/
def AcqTrack.result (t : AcqTrack) (d : Dev) : List Nat × Dev :=
  if t.cnt = 0 then (t.nanWords, d)
  else if t.red = 0 then ([t.mn], d)
  else if t.red = 1 then ([t.mn, t.mx], d)
  else if t.inf then let (w, d) := d.drawWord; ([w], d)
  else if t.red = 2 then ([rnQ t.sum (t.cnt * 2 ^ 149)], d)
  else ([rnSqrtQ t.sq (t.cnt * 2 ^ 298)], d)

/-- The open window ends: its entry is formed, in its place, unless it lies beyond the record's end. -/
def trackClose (seg : Nat) (lim : Option Nat) (x : AcqTrack × Dev) : AcqTrack × Dev :=
  let (t, d) := x
  match t.cur with
  | none => x
  | some w =>
    let t' := { t with cur := none, cnt := 0, sum := 0, sq := 0, inf := false }
    if lim.any (fun e => decide (e ≤ entryTime t.er w)) then (t', d)
    else
      let (ws, d) := t.result d
      trackEntry seg ws (trackFill seg ((w - t.first) / t.n) (t', d))

/-- A value enters the open window. -/
def AcqTrack.accept (t : AcqTrack) (v : Nat) : AcqTrack :=
  if fIsNaN v then t
  else
    let x := fDyadic v
    { t with
      mn := if t.cnt = 0 then v else fMin t.mn v, mx := if t.cnt = 0 then v else fMax t.mx v, cnt := t.cnt + 1
      inf := t.inf || fIsInf v, sum := t.sum + (if fIsInf v then 0 else x), sq := t.sq + (if fIsInf v then 0 else (x * x).toNat) }

/-- A track takes a value of its channel; a change of the source's rate ends it, and a value beyond the record's end leaves the last entries
that none has formed as NaN (R320). -/
def trackTake (seg : Nat) (lim : Option Nat) (v : AcqIn) (x : AcqTrack × Dev) : AcqTrack × Dev :=
  let t := { x.1 with susp := x.1.susp || v.susp }
  if t.ended then x
  else if v.rate != t.rate || v.fnom != t.fnom then ({ t with ended := true }, x.2)
  else
    let w := if t.red = 3 then windowOf t.fnom v.time else v.k / t.n * t.n
    let y : AcqTrack × Dev := if t.cur.isSome && t.cur != some w then trackClose seg lim (t, x.2) else (t, x.2)
    let y := if lim.any (fun e => decide (e ≤ entryTime t.er w)) then trackFill seg ((firstEntry t.er t.n (lim.getD 0) - t.first) / t.n) y else y
    if w < t.first || (w - t.first) / t.n < y.1.count then y
    else
      let y := (({ y.1 with cur := some w }).accept v.val, y.2)
      if t.red != 3 && v.k + 1 = w + t.n then trackClose seg lim y else y

/-- The next entry of a track lies at or after the record's end. -/
def AcqTrack.done (t : AcqTrack) (end_ : Nat) : Bool := t.ended || end_ ≤ entryTime t.er (t.first + t.count * t.n)

/-! ## Steps and events (R317, R318) -/

/-- The step that holds a time, and a step's start. -/
def Dev.stepOf (d : Dev) (t : Int) : Nat := windowOf d.acqQ t
def Dev.stepStart (d : Dev) (i : Nat) : Nat := entryTime d.acqQ i

/-- The device time at which step `i` is evaluated. -/
def Dev.stepDue (d : Dev) (i : Nat) : Nat := d.stepStart (i + 1) + d.acqSettle

/-- Triggers are evaluated: the recorder is ARMED or a record is being recorded. -/
def Dev.acqActive (d : Dev) : Bool := d.acqState == 2 || d.acq.recd.isSome

/-- The first step whose instant has not passed. -/
def Dev.stepFirst (d : Dev) : Nat :=
  let i := d.stepOf ((d.now - d.acqSettle : Nat) : Int)
  if d.stepDue (i - 1) < d.now then i else i - 1

/-- The first step that an event reaching the recorder now can take part in: not yet evaluated, and its instant not passed. -/
def Dev.stepOpen (d : Dev) : Nat := max d.acq.nextStep d.stepFirst

/-- An event reaches the recorder; after the instant of its step it is late: it takes no part there, and its state applies from the next
step evaluated. -/
def acqEvent (e : AcqEv) (d : Dev) : Dev :=
  let i := d.stepOpen
  let late := d.stepOf e.time < i
  let d := if late then raiseMs 66 (d.inc ACQ_TRIG_LATE) else d
  let e := if late then { e with time := (d.stepStart i : Int), fires := false } else e
  { d with acq := { d.acq with events := d.acq.events ++ [e], known := setBit d.acq.known e.cond e.state } }

/-- The state of a condition of kinds 3 to 6, from what it names. -/
def Dev.condLevel (d : Dev) (k : Nat) : Bool :=
  let i := d.get (ACQ_COND0_index k)
  match d.get (ACQ_COND0_kind k) with
  | 3 => bitAt (d.ast (i % 16384)) 0
  | 4 => d.get (DET_CLASS_STAT_active i) != 0
  | 5 => bitAt d.le.trig i
  | 6 => bitAt (d.get DIO_DIN_LEVEL_level) i != bitAt (d.get (ACQ_COND0_mode k)) 0
  | _ => false

/-- What became of the time quality in a command, and of conditions 3 to 6. -/
def acqNotice (d : Dev) : Dev :=
  let d := timeNotice d
  if !d.acqActive then (if d.acq.sets.isEmpty then d else { d with acq := { d.acq with sets := [] } })
  else
    let sets := d.acq.sets
    let d := { d with acq := { d.acq with sets := [] } }
    forN 32 (fun k d =>
      let kind := d.get (ACQ_COND0_kind k)
      if kind < 3 || 6 < kind then d
      else
        let i := d.get (ACQ_COND0_index k)
        let new := d.condLevel k
        let old := bitAt d.acq.known k
        let fires := match kind with
          | 3 => sets.any (fun s => s.1 == i)
          | 4 => sets.any (fun s => s.2 == i)
          | _ => new && !old
        let t := if kind = 6 then d.get2 (DIO_DIN_TIME_LO i) (DIO_DIN_TIME_HI i) else d.now
        if fires || new != old then acqEvent { cond := k, time := (t : Int), state := new, fires := fires } d else d) d

/-- A LEVEL or SLOPE condition takes a value of its channel (R318). -/
def condTake (c : Nat) (v : AcqIn) (k : Nat) (d : Dev) : Dev :=
  let kind := d.get (ACQ_COND0_kind k)
  if !(kind == 1 || kind == 2) || d.get (ACQ_COND0_index k) != c then d
  else
    let x := if kind = 1 then v.val
      else match lookup k d.acq.slopes with
        | some (i, p) => if i + 1 = v.k && !fIsNaN p && !fIsNaN v.val then fMul (fSub v.val p) (rnInt v.rate) else fNaN
        | none => fNaN
    let d := if kind = 2 then { d with acq := { d.acq with slopes := insertKey k (v.k, v.val) d.acq.slopes } } else d
    if fIsNaN x then d
    else
      let old := bitAt d.acq.known k
      let m := d.get (ACQ_COND0_mode k)
      let new := if old then !clrTest m x (d.get (ACQ_COND2 k)) else setTest m x (d.get (ACQ_COND1 k))
      if new = old then d else acqEvent { cond := k, time := v.time, state := new, fires := new } d

/-- A TIME condition's instant in [a, b) (R318). -/
def Dev.timeInstant (d : Dev) (k a b : Nat) : Bool :=
  let s := d.get (ACQ_COND1 k) + 2 ^ 32 * d.get (ACQ_COND2 k)
  let p := d.get (ACQ_COND3 k) * 1000
  if b ≤ s then false
  else if p = 0 then a ≤ s
  else let x := s + cdiv (a - s) p * p; a ≤ x && x < b

/-! ## Mask tests (R323) -/

/-- A value of channel `c` passes its mask. -/
def maskTake (c : Nat) (v : AcqIn) (d : Dev) : Dev :=
  let mode := if d.acqMasks && c < 64 then d.get (ACQ_CH2_mask_mode c) else 0
  if mode = 0 || fIsNaN v.val then d
  else
    let ws := entryTime v.fnom (windowOf v.fnom v.time)
    let p := if mode = 1 then 0 else min 63 (natOf (v.time - ws) * 64 * v.fnom / 1000000000)
    let up := d.get (ACQ_MASK c p)
    let lo := d.get (ACQ_MASK c (64 + p))
    if fLt up v.val || fLt v.val lo then
      let upper := fLt up v.val
      let h : MaskHit := { chan := c, time := v.time, val := v.val, limit := if upper then up else lo, upper := upper, point := p }
      let d := raiseMs 64 { d with acq := { d.acq with hits := h :: d.acq.hits } }
      match d.acq.recd with
      | some r =>
        let inside := (r.tt : Int) - d.acqPre ≤ v.time && v.time < (r.tt : Int) + d.acqPost
        if d.flag ACQ_CFG_stop_on_violation && inside && !r.stop then
          raise 65 ({ d with acq := { d.acq with recd := some { r with stop := true } } }.setFlag ACQ_STATUS_mask_stop true)
        else d
      | none => d
    else d

/-- A measured channel keeps a value. -/
def measTake (c : Nat) (v : AcqIn) (d : Dev) : Dev :=
  if d.measSlots.any (fun m => d.get (ACQ_MEAS0_channel m) == c) then
    let h := (lookup c d.acq.hist).getD []
    { d with acq := { d.acq with hist := insertKey c ((v.time, v.val) :: h) d.acq.hist } }
  else d

/-- Values and violations older than any trigger point to come are dropped. -/
def acqPrune (d : Dev) : Dev :=
  if d.acq.recd.isSome then d
  else
    let t0 : Int := (d.stepStart d.acq.nextStep : Int) - d.acqPre
    { d with acq := { d.acq with
      hits := d.acq.hits.filter (fun h => decide (t0 ≤ h.time))
      hist := d.acq.hist.map (fun h => (h.1, h.2.filter (fun v => decide (t0 ≤ v.1)))) } }

/-! ## Taking values (R308-R310) -/

/-- The segment in use. -/
def Dev.acqSeg (d : Dev) : Nat := d.get ACQ_STATUS_segment

/-- Every track of channel `c` takes a value. -/
def tracksTake (c : Nat) (v : AcqIn) (d : Dev) : Dev :=
  let lim := d.acq.recd.map (fun r => r.tt + d.acqPost)
  let (ts, d) := d.acq.tracks.foldl (fun (a : List AcqTrack × Dev) t =>
    if t.chan = c then let (t, d) := trackTake d.acqSeg lim v (t, a.2); (a.1 ++ [t], d) else (a.1 ++ [t], a.2)) ([], d)
  { d with acq := { d.acq with tracks := ts } }

/-- ACQ_VALUE_TAKE: a lane takes its oldest value, after `skip` values it could not keep up with (R22, R310); the tracks, conditions and
tests of every channel that names the source take it. -/
def acqValueTake (skip : Nat) (d : Dev) : Dev :=
  let lost := min skip d.acq.inbox.length
  let d := d.add ACQ_SKIP lost
  match d.acq.inbox.drop lost with
  | [] => { d with acq := { d.acq with inbox := [] } }
  | v :: rest =>
    let d := { d with acq := { d.acq with inbox := rest } }
    if !d.acqActive then d
    else
      let cs := d.acqChannels.filter (fun c => d.get (ACQ_CH0_type c) == v.ty && d.get (ACQ_CH0_index c) == v.idx && d.laneRuns 4 (c / 32))
      acqPrune (forL cs (fun c d =>
        forN 32 (condTake c v) (measTake c v (maskTake c v (tracksTake c v d)))) d)

/-! ## Arming (R313, R314) -/

/-- Recorder ARMED on a segment: the tracks begin at t_arm. An ARM starts the conditions and the steps (`fresh`); a rearm keeps them. -/
def acqArmOn (fresh : Bool) (seg : Nat) (d : Dev) : Dev :=
  let d := ((d.set (ACQ_SEG_state seg) 1).set ACQ_STATUS_segment seg).set ACQ_STATUS_state 2
  let d := d.setFlag ACQ_STATUS_pre_full false
  let cs := d.acqChannels
  let d := { d with acq := { d.acq with
    want := cs.map (fun c => (d.get (ACQ_CH0_type c), d.get (ACQ_CH0_index c))), tracks := d.acqTracks d.now, tArm := d.now
    disarm := false, recd := none, hist := [], hits := [] } }
  if fresh then
    let known := (List.range 32).foldl (fun a k =>
      a + b2n (if d.get (ACQ_COND0_kind k) ≤ 2 then false else d.condLevel k) * 2 ^ k) 0
    { d with acq := { d.acq with known := known, states := known, slopes := [], events := [], sets := [], forces := [], nextStep := d.stepFirst, timeFrom := d.now } }
  else d

/-- Nothing is armed. -/
def acqIdle (st : Nat) (d : Dev) : Dev :=
  { ((d.set ACQ_STATUS_state st).setFlag ACQ_STATUS_pre_full false) with acq := { d.acq with
    inbox := [], want := [], tracks := [], events := [], forces := [], recd := none, disarm := false, hist := [], hits := [] } }

/-- A refused enable or ARM (R314). -/
def acqRefuse (code : Nat) (d : Dev) : Dev := raise 63 (d.set ACQ_STATUS_arm_result code)

/-- The fields of a condition lie in their ranges, and the thresholds of LEVEL and SLOPE meet what R218 requires of their mode. -/
def Dev.condOk (d : Dev) (k : Nat) : Bool :=
  let i := d.get (ACQ_COND0_index k)
  let m := d.get (ACQ_COND0_mode k)
  match d.get (ACQ_COND0_kind k) with
  | 1 => i < 320 && m ≤ 2 && d.get (ACQ_CH0_type i) != 0 && thrOk m (d.get (ACQ_COND1 k)) (d.get (ACQ_COND2 k))
  | 2 => i < 320 && m ≤ 2 && d.get (ACQ_CH0_type i) != 0 && thrOk m (d.get (ACQ_COND1 k)) (d.get (ACQ_COND2 k))
  | 3 => i < 16384
  | 4 => i ≤ 11
  | 5 => i < 32
  | 6 => i < 16
  | 7 => d.get (ACQ_COND3 k) == 0 || 100 ≤ d.get (ACQ_COND3 k)
  | _ => true

/-- The fields of a channel lie in their ranges. -/
def Dev.chanOk (d : Dev) (c : Nat) : Bool :=
  let ty := d.get (ACQ_CH0_type c)
  let red := d.get (ACQ_CH0_reductions c)
  let mm := if c < 64 && d.acqMasks then d.get (ACQ_CH2_mask_mode c) else 0
  ty ≤ 6 && reductionsAllowed ty red && (ty < 5 || d.get (ACQ_CH0_index c) < 32)
    && (!bitAt red 1 || 2 ≤ d.get (ACQ_CH1_n_mm c)) && (!bitAt red 2 || 2 ≤ d.get (ACQ_CH1_n_mean c)) && mm ≤ 2 && (mm != 2 || ty == 1)

/-- The checks of ARM in the order of R314. -/
def armCode (d : Dev) : Nat :=
  let cs := d.acqChannels
  let ts := d.acqTracks d.now
  let used := (List.range 32).filter (fun k => (List.range 8).any (fun t => d.get (ACQ_TERM_T t) != 0 && (bitAt (d.get (ACQ_TERM_T t)) k || bitAt (d.get (ACQ_TERM_Q t)) k)))
  let group (c : Nat) : Nat := srcGroup (d.get (ACQ_CH0_type c)) (d.get (ACQ_CH0_index c))
  let field := d.get ACQ_TIME_pre_ms ≤ 60000 && 1 ≤ d.get ACQ_TIME_settle && d.get ACQ_TIME_settle ≤ 2000
    && 1 ≤ d.get ACQ_POST_post_ms && d.get ACQ_POST_post_ms ≤ 3600000 && cs.all d.chanOk && !ts.isEmpty
    && (List.range 32).all d.condOk && used.all (fun k => d.get (ACQ_COND0_kind k) != 0)
    && d.measSlots.all (fun m => decide (d.get (ACQ_MEAS0_channel m) < 320))
  let slow (k : Nat) : Bool :=
    let c := d.get (ACQ_COND0_index k)
    let ty := d.get (ACQ_CH0_type c)
    let lat := if 4 ≤ ty then d.get (FLT_GRP_LATNS (group c))
      else if ty = 1 then 0 else divRne 1000000000 ((d.srcRate ty (d.get (ACQ_CH0_index c))).getD (1, 50)).2
    d.acqSettle < lat
  if d.acqState != 1 then 7
  else if !field then 1
  else if cs.any (fun c => d.get BND_CAP1_acq_channels ≤ c || !d.fltBound (group c)) then 2
  else if cs.any (fun c => d.get (FLT_GRP_CTRL_state (group c)) != 1 || (d.groupSrc (group c)).isNone) then 3
  else if d.get ACQ_SEGSZ_seg_mib * mib < d.recordBytes ts then 4
  else if (List.range 32).any (fun k => (d.get (ACQ_COND0_kind k) == 1 || d.get (ACQ_COND0_kind k) == 2) && slow k) then 5
  else if d.segFree.isNone then 6
  else 0

/-- ACQ_CMD ARM. -/
def acqArmCmd (d : Dev) : Dev :=
  let c := armCode d
  match c, d.segFree with
  | 0, some s => acqArmOn true s (d.set ACQ_STATUS_arm_result 0)
  | _, _ => acqRefuse c d

/-- ACQ_CMD DISARM: an armed segment becomes FREE; a running record completes and does not rearm. -/
def acqDisarmCmd (d : Dev) : Dev :=
  if d.acqState = 2 then acqIdle 1 (d.set (ACQ_SEG_state d.acqSeg) 0)
  else if d.acqState = 3 then { d with acq := { d.acq with disarm := true } }
  else d

/-- ACQ_CMD FORCE (R319): acts in the step that holds the command time. -/
def acqForceCmd (d : Dev) : Dev := if d.acqActive then { d with acq := { d.acq with forces := d.acq.forces ++ [d.now] } } else d

/-- ACQ_CMD FREE (R311). -/
def acqFreeCmd (s : Nat) (d : Dev) : Dev :=
  match d.get (ACQ_SEG_state s) with
  | 3 => segCount (((d.set (ACQ_SEG_state s) 0).set (ACQ_SEG_flags s) 0).set (ACQ_SEG_seq s) 0)
  | 0 => d
  | _ => d.set ACQ_STATUS_arm_result 7

/-- ACQ_CMD CLEAR_CNT. -/
def acqClearCnt (d : Dev) : Dev :=
  (((((d.set ACQ_RECORDS 0).set ACQ_TRIG_EARLY 0).set ACQ_TRIG_LATE 0).set ACQ_TRIG_BUSY 0).set ACQ_FULL 0).set ACQ_SKIP 0

/-- The layout of the segments at an enable (R311): COMPLETE records stay while n_seg is that of the layout in force. -/
def acqLayout (d : Dev) : Dev :=
  let n := d.get ACQ_CFG_n_seg
  let keep := d.get ACQ_SEGSZ_n_seg == n
  let d := (d.set ACQ_SEGSZ_n_seg n).set ACQ_SEGSZ_seg_mib (d.get (BND_PART_size_mib 1) / n)
  segCount (forN 64 (fun s d => if keep && d.get (ACQ_SEG_state s) = 3 then d else d.set (ACQ_SEG s) 0) d)

/-- enable = 1 at OFF (R313). -/
def acqOpen (d : Dev) : Dev :=
  let n := d.get ACQ_CFG_n_seg
  if n = 0 || d.get (BND_PART_size_mib 1) / n = 0 then acqRefuse 8 (d.setFlag ACQ_CFG_enable false)
  else acqIdle 1 (acqLayout (d.setFlag ACQ_CFG_enable true))

/-- enable written as 1. -/
def acqEnable (d : Dev) : Dev :=
  match d.acqState with
  | 0 => acqOpen d
  | 4 => (d.setFlag ACQ_CFG_enable true).setFlag ACQ_STATUS_enable_pending true
  | _ => d.setFlag ACQ_CFG_enable true

/-- DISABLING reaches OFF: source 67, and a pending enable is acted on. -/
def acqOff (d : Dev) : Dev :=
  let d := raise 67 (acqIdle 0 d)
  if d.flag ACQ_STATUS_enable_pending then acqOpen (d.setFlag ACQ_STATUS_enable_pending false) else d

/-- enable written as 0. -/
def acqDisable (d : Dev) : Dev :=
  let d := d.setFlag ACQ_CFG_enable false
  match d.acqState with
  | 1 => acqOff d
  | 2 => acqOff (d.set (ACQ_SEG_state d.acqSeg) 0)
  | 3 => d.set ACQ_STATUS_state 4
  | 4 => d.setFlag ACQ_STATUS_enable_pending false
  | _ => d

/-- ACQ_PRE_FULL (R316). -/
def acqPreFull (d : Dev) : Dev :=
  if d.acqState = 2 then atTime (d.acq.tArm + d.acqPre) (fun d => d.setFlag ACQ_STATUS_pre_full true) d else d

/-! ## Completion (R320, R325-R329) -/

/-- Header flags. -/
def recFlags (complete inc step : Bool) (r : AcqRec) (d : Dev) : Nat :=
  b2n complete + b2n inc * 2 + b2n (r.tstate != 3) * 4 + b2n r.stop * 8 + b2n step * 16 + b2n r.forced * 32
    + b2n (!d.measSlots.isEmpty) * 64 + b2n (!d.maskChannels.isEmpty) * 128

/-- The queue record of a trigger or completion (R329). -/
def acqQueueRec (code flags done : Nat) (r : AcqRec) (d : Dev) : Dev :=
  if d.flag ACQ_CFG_rec_en then
    queueRecord (d.get ACQ_CFG_queue) (toLe 2 code ++ toLe 2 flags ++ toLe 1 d.acqSeg ++ toLe 1 r.cause ++ toLe 2 d.acq.tracks.length
      ++ toLe 8 r.tt ++ toLe 8 done ++ toLe 4 r.seq ++ toLe 4 r.mask) d
  else d

/-- A track's part of the record: entries not formed hold NaN (R320); its descriptor (R326). -/
def trackFinish (r : AcqRec) (x : AcqTrack × Dev) : (List Byte × Bool) × Dev :=
  let (t, d) := x
  let t0 := t
  let f0 := max t.first (firstEntry t.er t.n (r.tt - d.acqPre))
  let e0 := max f0 (firstEntry t.er t.n (r.tt + d.acqPost))
  let inc := t.ended || t.first + t.count * t.n < e0
  let (t, d) := if t.ended then (t, d) else trackFill d.acqSeg ((e0 - t.first) / t.n) (t, d)
  let o0 := (f0 - t.first) / t.n
  let held := min ((e0 - t.first) / t.n) t.count
  let cnt := held - o0
  let nan := t.nans.any (fun o => o0 ≤ o && o < o0 + cnt)
  let trig := (max f0 (firstEntry t.er t.n r.tt) - f0) / t.n
  let bs := toLe 2 t.chan ++ toLe 1 t.red ++ toLe 1 t.ty ++ toLe 2 t.idx
    ++ toLe 2 (b2n inc + b2n (t0.susp || r.tstate != 3) * 2 + b2n nan * 4) ++ toLe 4 t.er ++ toLe 2 t.n ++ toLe 1 t.eb ++ toLe 1 t.fnom
    ++ toLe 8 f0 ++ toLe 4 cnt ++ toLe 4 trig ++ toLe 8 t.off ++ toLe 4 t.cap ++ toLe 4 (o0 % t.cap) ++ toLe 16 0
  ((bs, inc), d)

/-- A mask result entry (R327). -/
def maskEntry (r : AcqRec) (c : Nat) (d : Dev) : List Byte :=
  let a : Int := (r.tt : Int) - d.acqPre
  let b : Int := (r.tt : Int) + d.acqPost
  let hs := (d.acq.hits.filter (fun h => h.chan == c && decide (a ≤ h.time) && decide (h.time < b))).reverse
  match hs with
  | [] => toLe 2 c ++ toLe 30 0
  | h :: _ => toLe 2 c ++ toLe 2 (1 + b2n h.upper * 2) ++ toLe 4 (min hs.length (2 ^ 32 - 1)) ++ toLe 8 (natOf h.time) ++ toLe 4 h.val
      ++ toLe 4 h.limit ++ toLe 1 h.point ++ toLe 7 0

/-- Crossings of a level, given tenfold in 2^-149, upwards between consecutive values: v[a] < level ≤ v[b] (R324); times in ns. Beside an
infinite value the manual gives no time, and it is open between the two values (log entry 179). -/
def crossings (level10 : Int) : List (Int × Nat) → Dev → List Int × Dev
  | (ta, va) :: (tb, vb) :: rest, d =>
    let a := 10 * fDyadic va
    let b := 10 * fDyadic vb
    if a < level10 && level10 ≤ b then
      let (w, d) := if fIsFinite va && fIsFinite vb then (divHalfEven ((tb - ta) * (level10 - a)) (natOf (b - a)), d)
        else let (n, d) := d.drawNat; ((n : Int) % (tb - ta + 1), d)
      let (tail, d) := crossings level10 ((tb, vb) :: rest) d
      ((ta + w) :: tail, d)
    else crossings level10 ((tb, vb) :: rest) d
  | _, d => ([], d)

/-- The crossings of base + w/10 × (top − base), `w` 1 or 9: a level that is no number is not crossed. -/
def levelCrossings (base top w : Nat) (vs : List (Int × Nat)) (d : Dev) : List Int × Dev :=
  if fIsFinite base && fIsFinite top then crossings ((10 - w : Nat) * fDyadic base + w * fDyadic top) vs d
  else if fIsFinite base && top == fInf then crossings (10 * fDyadic fInf) vs d
  else ([], d)

/-- A measurement entry (R324, R328). The root mean square of values among which one is infinite is not stated (log entry 179). -/
def measEntry (r : AcqRec) (m : Nat) (d : Dev) : List Byte × Dev :=
  let c := d.get (ACQ_MEAS0_channel m)
  let a : Int := (r.tt : Int) - d.acqPre
  let b : Int := (r.tt : Int) + d.acqPost
  let vs := (((lookup c d.acq.hist).getD []).filter (fun v => decide (a ≤ v.1) && decide (v.1 < b) && !fIsNaN v.2)).reverse
  match vs with
  | [] => (toLe 2 c ++ toLe 2 7 ++ ((List.replicate 7 (toLe 4 fNaN)).flatten), d)
  | v :: _ =>
    let mn := vs.foldl (fun x y => fMin x y.2) v.2
    let mx := vs.foldl (fun x y => fMax x y.2) v.2
    let sq := vs.foldl (fun x y => x + (fDyadic y.2 * fDyadic y.2).toNat) 0
    let (rms, d) := if vs.any (fun v => fIsInf v.2) then d.drawWord else (rnSqrtQ sq (vs.length * 2 ^ 298), d)
    let (zc, d) := crossings 0 vs d
    let nc := zc.length
    let span := natOf (zc.getLastD 0 - zc.headD 0)
    let per := 2 ≤ nc && 0 < span
    let (his, d) := levelCrossings (d.get (ACQ_MEAS_BASE m)) (d.get (ACQ_MEAS_TOP m)) 9 vs d
    let (los, d) := levelCrossings (d.get (ACQ_MEAS_BASE m)) (d.get (ACQ_MEAS_TOP m)) 1 vs d
    let rise := match his with
      | [] => none
      | h :: _ => (los.filter (fun l => decide (l ≤ h))).getLast?.map (fun l => rnQ (h - l) 1000000000)
    (toLe 2 c ++ toLe 2 (b2n (!per) * 2 + b2n rise.isNone * 4) ++ toLe 4 mn ++ toLe 4 mx ++ toLe 4 (fSub mx mn)
      ++ toLe 4 rms ++ toLe 4 (if per then rnQ span ((nc - 1) * 1000000000) else fNaN)
      ++ toLe 4 (if per then rnQ (((nc - 1) * 1000000000 : Nat) : Int) span else fNaN) ++ toLe 4 (rise.getD fNaN), d)

/-- The record header (R325) with its CRC field as given. -/
def recHeader (r : AcqRec) (flags crc : Nat) (d : Dev) : List Byte :=
  let n := d.acq.tracks.length
  ascii "AQDR" ++ toLe 2 1 ++ toLe 2 flags ++ toLe 4 r.seq ++ toLe 1 d.acqSeg ++ toLe 1 0 ++ toLe 2 n ++ toLe 8 d.acq.tArm ++ toLe 8 r.tt
    ++ toLe 8 d.now ++ toLe 4 (d.get ACQ_TIME_pre_ms) ++ toLe 4 (d.get ACQ_POST_post_ms) ++ toLe 4 r.mask ++ toLe 4 r.states ++ toLe 1 r.cause
    ++ toLe 1 r.term ++ toLe 1 r.tq ++ toLe 1 r.tstate ++ toLe 2 r.utc ++ toLe 2 (d.get SPN_CFG_unit_id) ++ toLe 4 d.acqQ
    ++ toLe 4 (d.get BND_ACT_ID) ++ toLe 8 (d.recordBytes d.acq.tracks) ++ toLe 4 (if d.acqMeas = 0 then 0 else 256 + 64 * n)
    ++ toLe 4 (32 * d.acqMeas) ++ toLe 164 0 ++ toLe 4 crc

/-- A record completes (R320): areas, header and descriptors are written; then the recorder rearms, or not (R313). -/
def acqComplete (step : Bool) (d : Dev) : Dev :=
  match d.acq.recd with
  | none => d
  | some r =>
    let seg := d.acqSeg
    let (ds, d) := d.acq.tracks.foldl (fun (a : List (List Byte × Bool) × Dev) t =>
      let (x, d) := trackFinish r (t, a.2); (a.1 ++ [x], d)) ([], d)
    let fl := recFlags true (ds.any Prod.snd) step r d
    let (meas, d) := d.measSlots.foldl (fun (a : List Byte × Dev) m => let (x, d) := measEntry r m a.2; (a.1 ++ x, d)) ([], d)
    let area := (d.maskChannels.map (fun c => maskEntry r c d)).flatten ++ meas
    let rest := (ds.map Prod.fst).flatten ++ area
    let crc := crc32c (recHeader r fl 0 d ++ rest)
    let d := acqWrite (d.segBase seg) (recHeader r fl crc d ++ rest) d
    let d := ((d.set (ACQ_SEG_state seg) 3).set (ACQ_SEG_flags seg) fl).set (ACQ_SEG_seq seg) r.seq
    let d := raise 61 ((segCount d).inc ACQ_RECORDS)
    let d := acqQueueRec 0x0D02 fl d.now r d
    if d.acqState = 4 then acqOff d
    else if d.flag ACQ_CFG_rearm && !d.acq.disarm && !r.stop then
      match d.segFree with
      | some s => acqArmOn false s d
      | none => raise 62 (acqIdle 1 ((d.set ACQ_STATUS_arm_result 6).inc ACQ_FULL))
    else acqIdle 1 d

/-- RECORD_COMPLETE: every track has formed its last entry. -/
def acqRecordComplete (d : Dev) : Dev :=
  match d.acq.recd with
  | some r => if d.acq.tracks.all (fun t => t.done (r.tt + d.acqPost)) then acqComplete false d else d
  | none => d

/-- RECORD_TAIL_EXPIRE: tt + post + tail. -/
def acqTailExpire (d : Dev) : Dev :=
  match d.acq.recd with
  | some r => atTime (r.tt + d.acqPost + d.acqTail) (acqComplete false) d
  | none => d

/-- A step of the counter (R321): an ARMED recorder restarts its pre-trigger fill, and the steps go on from the first whose instant is still to come, and
TIME instants from the time after it (R318); events that wait for a step have their state at once. -/
def acqAfterStep (d : Dev) : Dev :=
  let d := { d with acq := { d.acq with
    inbox := [], events := [], forces := [], states := d.acq.events.foldl (fun s e => setBit s e.cond e.state) d.acq.states } }
  let d := acqComplete true d
  let d := if d.acqState = 2 then acqArmOn false d.acqSeg d else d
  { d with acq := { d.acq with nextStep := d.stepFirst, timeFrom := d.now } }

/-- The rates of the sources after a COMMIT: a track whose source's rate changed ends (R320). -/
def acqRates (d : Dev) : Dev :=
  if d.acq.recd.isNone then d
  else
    let ts := d.acq.tracks.map (fun t => if d.srcRate t.ty t.idx = some (t.rate, t.fnom) then t else { t with ended := true })
    { d with acq := { d.acq with tracks := ts } }

/-! ## Evaluating a step (R317, R319) -/

/-- A trigger: the record starts at step `i`. -/
def acqTrigger (tt mask states cause term : Nat) (forced : Bool) (d : Dev) : Dev :=
  let q := d.timeAt tt
  let r : AcqRec := { tt := tt, mask := mask, states := states, cause := cause, term := term, forced := forced, tq := q.1, tstate := q.2.1
                      utc := bits q.2.2 0 16, seq := d.get ACQ_SEQ }
  let d := ((d.set (ACQ_SEG_state d.acqSeg) 2).set ACQ_STATUS_state 3).incWrap ACQ_SEQ
  let d := raise 60 { d with acq := { d.acq with recd := some r } }
  acqQueueRec 0x0D01 (recFlags false false false r d) 0 r d

/-- Evaluate step `i`. -/
def stepEval (i : Nat) (d : Dev) : Dev :=
  let a := d.stepStart i
  let b := d.stepStart (i + 1)
  let evs := d.acq.events.filter (fun e => decide (e.time < (b : Int)))
  let times := (List.range 32).filter (fun k => d.get (ACQ_COND0_kind k) == 7 && d.timeInstant k (max a d.acq.timeFrom) b)
  let force := d.acq.forces.any (fun t => decide (t < b))
  let states0 := evs.foldl (fun s e => setBit s e.cond e.state) d.acq.states
  let states := times.foldl (fun s k => setBit s k true) states0
  let fired := times.foldl (fun m k => setBit m k true) ((evs.filter AcqEv.fires).foldl (fun m e => setBit m e.cond true) 0)
  let terms := (List.range 8).filter (fun t =>
    d.get (ACQ_TERM_T t) &&& fired != 0 && d.get (ACQ_TERM_Q t) &&& states == d.get (ACQ_TERM_Q t))
  let mask := terms.foldl (fun m t => m ||| (d.get (ACQ_TERM_T t) &&& fired)) 0
  let d := { d with acq := { d.acq with
    events := d.acq.events.filter (fun e => !decide (e.time < (b : Int))), forces := d.acq.forces.filter (fun t => decide (b ≤ t))
    states := states0, nextStep := i + 1 } }
  if terms.isEmpty && !force then d
  else if d.acqState = 2 then
    if a < d.acq.tArm + d.acqPre then d.inc ACQ_TRIG_EARLY
    else acqTrigger a mask states (if force then 0xFF else lowestBit 32 mask) (if force then 0xFF else terms.headD 0) force d
  else d.inc ACQ_TRIG_BUSY

/-- TRIGGER_STEP_EVAL: the next step is evaluated at its instant. Steps already due that hold no event, no FORCE and no TIME instant change
nothing, and are passed over to the first that holds one, or to the last that is due. -/
def triggerStepEval (d : Dev) : Dev :=
  if !d.acqActive then d
  else
    let i0 := d.acq.nextStep
    let last := d.stepOf ((d.now - d.acqSettle : Nat) : Int)
    let due := last - i0
    let timed := (List.range 32).any (fun k => d.get (ACQ_COND0_kind k) == 7)
    let held := d.acq.events.map (fun e => d.stepOf e.time) ++ d.acq.forces.map (fun (t : Nat) => d.stepOf (t : Int))
    let i := if due ≤ 1 || timed then i0 else max i0 (held.foldl min (last - 1))
    atTime (d.stepDue i) (stepEval i) d

/-- Records are lost at a re-binding and with the partition (R50). -/
def acqLost (d : Dev) : Dev := segCount (forN 64 (fun s d => d.set (ACQ_SEG s) 0) (acqIdle 0 d))

/-! ## Configuration writes (R322) -/

/-- Writable in OFF and READY; otherwise discarded with wr_drop. -/
def Dev.acqOpenCfg (d : Dev) : Bool := d.acqState ≤ 1

/-- A discarded write. -/
def acqDrop (d : Dev) : Dev := d.setFlag ACQ_STATUS_wr_drop true

/-- A write of ACQ_CFG: enable acts, n_seg is taken in OFF, the rest in OFF and READY. -/
def acqCfgWrite (v : Nat) (d : Dev) : Dev :=
  let rest := bits v 1 9
  let n := bits v 16 7
  let d := if rest = bits (d.get ACQ_CFG) 1 9 then d
    else if d.acqOpenCfg then d.set ⟨0x90000, 1, 9⟩ rest else acqDrop d
  let d := if n = d.get ACQ_CFG_n_seg then d
    else if d.acqState = 0 then (if 1 ≤ n && n ≤ 64 then d.set ACQ_CFG_n_seg n else d) else acqDrop d
  if bitAt v 0 = d.flag ACQ_CFG_enable && !(bitAt v 0 && d.acqState == 4) then d
  else if bitAt v 0 then acqEnable d else acqDisable d

/-- A write of ACQ_CMD. -/
def acqCmdWrite (v : Nat) (d : Dev) : Dev :=
  match bits v 0 4 with
  | 1 => acqArmCmd d
  | 2 => acqDisarmCmd d
  | 3 => acqForceCmd d
  | 4 => acqFreeCmd (bits v 4 6) d
  | 5 => acqClearCnt d
  | _ => d

/-! ## What follows a COMMIT (R82, R105, R136, R156, R159, R320) -/

/-- The filter lane of the group takes the oldest sample. -/
def sampleTake (d : Dev) : Dev :=
  match d.flt.queue with
  | [] => d
  | x :: _ => if d.laneRuns 3 (x.group / 2) then filterSample d else d

/-- What has been parsed of the frames of source `s` is finished: the samples of its group, then its frames (R82, R100). -/
def finishAll (s : Nat) (d : Dev) : Dev :=
  let e := d.ent s
  finishSource s (if e.kind != 2 then d else
    iterate d.flt.queue.length (fun d => if d.flt.queue.any (fun x => x.group == e.svSlot) then some (sampleTake d) else none) d)

/-- A checked copy `e` of entry `n` is loaded by `load`; the expected sets, the output streams, the filter group of the source and the
record's tracks follow. The group is reset where the source moves to REQUALIFYING, also from there. -/
def commitFollow (n : Nat) (e : Ent) (load : Dev → Dev) (d : Dev) : Dev :=
  let st := (d.srcSt n).state
  let moved := e.on && ((d.ent n).structural != e.structural || st == 0 || st == 5)
  let d := outRecount n (colReeval (load (colUpTo d.now d)))
  acqRates (if e.kind = 2 then groupCommit e.svSlot moved d else d)

/-- An entry accepted at lock takes effect as a COMMIT does, between two frames of its source (R83, R100). -/
def commitEntry (n : Nat) (e : Ent) (d : Dev) : Dev := commitFollow n e (commitLoad n e) (finishAll n d)

end Sys2Proof.Machine
end

