-- ==== Sys2Proof/Machine/Deflate.lean ====
section
/-! DEFINITION. DEFLATE and zlib (RFC 1951, RFC 1950) as the compression engine reads and writes them, and its pre-transform
(R387, R388, R390, R392). -/
namespace Sys2Proof.Machine

/-- The bits of bytes, least significant first. -/
def bitsOf (bs : List Byte) : List Bool := bs.flatMap (fun b => (List.range 8).map (fun i => bitAt b.toNat i))

/-- A number from bits, least significant first. -/
def ofBits : List Bool → Nat
  | [] => 0
  | b :: bs => b2n b + 2 * ofBits bs

/-- The bytes of bits, the last one zero-padded. -/
def packBits : Nat → List Bool → List Byte
  | 0, _ => []
  | n + 1, bs => BitVec.ofNat 8 (ofBits (bs.take 8)) :: packBits n (bs.drop 8)

/-- How a piece of a stream ends: it goes on with the bits left, it is invalid, or its input has ended. -/
inductive Infl (α : Type) where
  | ok (a : α) (rest : List Bool)
  | bad
  | short

/-- Read an `n`-bit field. -/
def readBits (n : Nat) (bs : List Bool) : Infl Nat :=
  if bs.length < n then .short else .ok (ofBits (bs.take n)) (bs.drop n)

/-- A canonical Huffman code: how many codes of each length 1 to 15, and the symbols in code order. -/
structure Huff where
  counts : List Nat
  syms : List Nat

/-- The code of a list of code lengths. -/
def huffOf (lens : List Nat) : Huff :=
  let of (l : Nat) : List Nat := (List.range lens.length).filter (fun s => lens.getD s 0 == l)
  { counts := (List.range 15).map (fun l => (of (l + 1)).length), syms := (List.range 15).flatMap (fun l => of (l + 1)) }

/-- How many codes of length 15 are unused; none where the code is over-subscribed. -/
def Huff.left (h : Huff) : Option Nat :=
  h.counts.foldl (fun left n => left.bind (fun l => if 2 * l < n then none else some (2 * l - n))) (some 1)

/-- Complete, or a single code of one bit. -/
def Huff.complete (h : Huff) : Bool :=
  match h.left with
  | none => false
  | some l => l == 0 || (h.syms.length == 1 && h.counts.headD 0 == 1)

/-- Decode one symbol. -/
def huffGo (syms : List Nat) : List Nat → Nat → Nat → Nat → List Bool → Infl Nat
  | [], _, _, _, _ => .bad
  | _ :: _, _, _, _, [] => .short
  | n :: ns, code, first, index, b :: bs =>
    let code := code + b2n b
    if code < first + n then .ok (syms.getD (index + (code - first)) 0) bs
    else huffGo syms ns (2 * code) (2 * (first + n)) (index + n) bs

def Huff.decode (h : Huff) (bs : List Bool) : Infl Nat := huffGo h.syms h.counts 0 0 0 bs

/-- Base and extra bits of the length codes 257-285 and of the distance codes 0-29. -/
def lenBase (c : Nat) : Nat × Nat :=
  if c < 8 then (c + 3, 0) else if c = 28 then (258, 0) else let e := (c - 4) / 4; ((4 + c % 4) * 2 ^ e + 3, e)
def distBase (c : Nat) : Nat × Nat := if c < 4 then (c + 1, 0) else let e := (c - 2) / 2; ((2 + c % 2) * 2 ^ e + 1, e)

/-- Copy `n` bytes from distance `d`; the output is newest first. -/
def copyBack (d : Nat) : Nat → List Byte → List Byte
  | 0, out => out
  | n + 1, out => copyBack d n (out.getD (d - 1) 0 :: out)

/-- The symbols of a block up to its end; `out` is the output so far, newest first. The output stands also where it fails. -/
def inflCodes (ll dd : Huff) : Nat → List Byte → List Bool → List Byte × Infl Unit
  | 0, out, _ => (out, .short)
  | n + 1, out, bs =>
    match ll.decode bs with
    | .bad => (out, .bad)
    | .short => (out, .short)
    | .ok s bs =>
      if s < 256 then inflCodes ll dd n (BitVec.ofNat 8 s :: out) bs
      else if s = 256 then (out, .ok () bs)
      else if 285 < s then (out, .bad)
      else
        match readBits (lenBase (s - 257)).2 bs with
        | .bad => (out, .bad)
        | .short => (out, .short)
        | .ok le bs =>
          match dd.decode bs with
          | .bad => (out, .bad)
          | .short => (out, .short)
          | .ok dc bs =>
            if 29 < dc then (out, .bad)
            else
              match readBits (distBase dc).2 bs with
              | .bad => (out, .bad)
              | .short => (out, .short)
              | .ok de bs =>
                let dist := (distBase dc).1 + de
                if out.length < dist then (out, .bad)
                else inflCodes ll dd n (copyBack dist ((lenBase (s - 257)).1 + le) out) bs

/-- The fixed codes. -/
def fixedLens : List Nat := List.replicate 144 8 ++ List.replicate 112 9 ++ List.replicate 24 7 ++ List.replicate 8 8
def fixedLit : Huff := huffOf fixedLens
def fixedDist : Huff := huffOf (List.replicate 30 5)

/-- The order in which the lengths of the code length code stand. -/
def clOrder : List Nat := [16, 17, 18, 0, 8, 7, 9, 6, 10, 5, 11, 4, 12, 3, 13, 2, 14, 1, 15]

/-- The code lengths of a dynamic block, newest first, until `total` are read. -/
def inflLens (cl : Huff) (total : Nat) : Nat → List Nat → List Bool → Infl (List Nat)
  | 0, _, _ => .short
  | n + 1, acc, bs =>
    if acc.length = total then .ok acc.reverse bs
    else if total < acc.length then .bad
    else
      match cl.decode bs with
      | .bad => .bad
      | .short => .short
      | .ok s bs =>
        if s < 16 then inflLens cl total n (s :: acc) bs
        else
          let w := if s = 16 then 2 else if s = 17 then 3 else 7
          match readBits w bs with
          | .bad => .bad
          | .short => .short
          | .ok r bs =>
            if s = 16 then
              match acc with
              | [] => .bad
              | l :: _ => inflLens cl total n (List.replicate (3 + r) l ++ acc) bs
            else inflLens cl total n (List.replicate ((if s = 17 then 3 else 11) + r) 0 ++ acc) bs

/-- The lengths of the code length code: three bits each. -/
def clLens : List Nat → Nat → List Bool → List (Nat × Nat) → Infl (List (Nat × Nat))
  | _, 0, bs, acc => .ok acc bs
  | [], _, bs, acc => .ok acc bs
  | o :: os, n + 1, bs, acc =>
    match readBits 3 bs with
    | .ok v bs => clLens os n bs ((o, v) :: acc)
    | .bad => .bad
    | .short => .short

/-- The header of a dynamic block: its two codes. -/
def inflDynamic (bs : List Bool) : Infl (Huff × Huff) :=
  match readBits 14 bs with
  | .bad => .bad
  | .short => .short
  | .ok v bs =>
    let hlit := v % 32 + 257
    let hdist := v / 32 % 32 + 1
    if 286 < hlit || 30 < hdist then .bad
    else
      match clLens clOrder (v / 1024 + 4) bs [] with
      | .bad => .bad
      | .short => .short
      | .ok cls bs =>
        let cl := huffOf ((List.range 19).map (fun s => (lookup s cls).getD 0))
        if !cl.complete then .bad
        else
          match inflLens cl (hlit + hdist) (hlit + hdist + 1) [] bs with
          | .bad => .bad
          | .short => .short
          | .ok lens bs =>
            let ll := huffOf (lens.take hlit)
            let dd := huffOf (lens.drop hlit)
            if lens.getD 256 0 = 0 || !ll.complete || !(dd.complete || dd.syms.isEmpty) then .bad else .ok (ll, dd) bs

/-- The bits up to the next byte of a stream, given the bits it had in all. -/
def alignBits (bs : List Bool) : List Bool := bs.drop (bs.length % 8)

/-- A stored block; the stream is a whole number of bytes, so the bits left tell the alignment. -/
def inflStored (out : List Byte) (bs : List Bool) : List Byte × Infl Unit :=
  match readBits 32 (alignBits bs) with
  | .bad => (out, .bad)
  | .short => (out, .short)
  | .ok v bs =>
    let n := v % 65536
    if v / 65536 != 65535 - n then (out, .bad)
    else
      let have_ := min n (bs.length / 8)
      let out := (packBits have_ bs).reverse ++ out
      if have_ < n then (out, .short) else (out, .ok () (bs.drop (8 * n)))

/-- One block: whether it is the last, the output with it, and how it ends. -/
def inflBlock (out : List Byte) (bs : List Bool) : Bool × List Byte × Infl Unit :=
  match bs with
  | f :: t0 :: t1 :: bs =>
    match t0, t1 with
    | false, false => let r := inflStored out bs; (f, r.1, r.2)
    | true, false => let r := inflCodes fixedLit fixedDist (bs.length + 1) out bs; (f, r.1, r.2)
    | false, true =>
      match inflDynamic bs with
      | .bad => (f, out, .bad)
      | .short => (f, out, .short)
      | .ok (ll, dd) bs => let r := inflCodes ll dd (bs.length + 1) out bs; (f, r.1, r.2)
    | true, true => (f, out, .bad)
  | _ => (false, out, .short)

/-- The blocks of a stream up to the last. -/
def inflBlocks : Nat → List Byte → List Bool → List Byte × Infl Unit
  | 0, out, _ => (out, .short)
  | n + 1, out, bs =>
    match inflBlock out bs with
    | (true, out, r) => (out, r)
    | (false, out, .ok () bs) => inflBlocks n out bs
    | (false, out, r) => (out, r)

/-- The Adler-32 of bytes. -/
def adler32 (bs : List Byte) : Nat :=
  let r := bs.foldl (fun (p : Nat × Nat) b => let a := (p.1 + b.toNat) % 65521; (a, (p.2 + a) % 65521)) (1, 0)
  r.1 + 65536 * r.2

/-- What the decoder makes of a stream: its output, how it ends (done, invalid, input ended) and the bytes it read (R390). -/
structure Expanded where
  out : List Byte
  end_ : Infl Unit
  read : Nat

/-- Expand a stream, zlib or bare. -/
def expand (zlib : Bool) (bs : List Byte) : Expanded :=
  let cmf := byteAt bs 0
  let flg := byteAt bs 1
  if zlib && bs.length < 2 then ⟨[], .short, bs.length⟩
  else if zlib && (cmf % 16 != 8 || 7 < cmf / 16 || (cmf * 256 + flg) % 31 != 0 || bitAt flg 5) then ⟨[], .bad, 2⟩
  else
    let b := bitsOf (if zlib then bs.drop 2 else bs)
    match inflBlocks (b.length + 1) [] b with
    | (out, .bad) => ⟨out.reverse, .bad, bs.length⟩
    | (out, .short) => ⟨out.reverse, .short, bs.length⟩
    | (out, .ok () rest) =>
      let left := rest.length / 8
      let out := out.reverse
      if zlib then
        let t := (bs.drop (bs.length - left)).take 4
        if left < 4 then ⟨out, .short, bs.length⟩
        else if ofBe t = adler32 out then ⟨out, .ok () [], bs.length - left + 4⟩ else ⟨out, .bad, bs.length - left + 4⟩
      else ⟨out, .ok () [], bs.length - left⟩

/-- The least number of bytes of a stream after which what the decoder makes of it has a property; all of them where none has. -/
def readUntil (zlib : Bool) (bs : List Byte) (p : Expanded → Bool) : Nat :=
  ((List.range bs.length).find? (fun n => p (expand zlib (bs.take n)))).getD bs.length

/-- The decoder has found the stream invalid. -/
def Expanded.bad (e : Expanded) : Bool := match e.end_ with | .bad => true | _ => false

/-- A section of the Binding expands under R33: without error to exactly `n` bytes. -/
def expandExact (bs : List Byte) (n : Nat) : Option (List Byte) :=
  let e := expand true bs
  match e.end_ with
  | .ok _ _ => if e.out.length = n then some e.out else none
  | _ => none

/-! ## The encoder (R387, R388) -/

/-- The bits of a number, `n` of them, least significant first. -/
def bitList (n v : Nat) : List Bool := (List.range n).map (bitAt v)

/-- The fixed code of a literal, from its first bit on. -/
def fixedCode (v : Nat) : List Bool :=
  if v < 144 then (bitList 8 (0x30 + v)).reverse else (bitList 9 (0x190 + (v - 144))).reverse

/-- A block of literals alone in the fixed codes. -/
def literalBlock (final : Bool) (block : List Byte) : List Bool :=
  [final, true, false] ++ block.flatMap (fun b => fixedCode b.toNat) ++ List.replicate 7 false

/-- The coded form of a block. Where the free bits are no block of the kind R387 names with these bytes, the literals alone in the fixed
codes stand for it, and with dynamic codes none, as for codes longer than the bytes. `hist` is the input before the block, newest first. -/
def codedBlock (level : Nat) (fixed final : Bool) (hist block : List Byte) : Option (List Bool) :=
  let bs := final :: Config.codedBlock level fixed (hist.take 32768) block
  let plain := if fixed then some (literalBlock final block) else none
  if (bs.drop 1).take 2 = (if fixed then [true, false] else [false, true]) then
    match inflBlock (hist.take 32768) bs with
    | (_, out, .ok () []) => if out = block.reverse ++ hist.take 32768 then some bs else plain
    | _ => plain
  else plain

/-- A stored block at a bit position. -/
def storedBlock (pos : Nat) (final : Bool) (block : List Byte) : List Bool :=
  [final, false, false] ++ List.replicate ((8 - (pos + 3) % 8) % 8) false ++ bitList 16 block.length
    ++ bitList 16 (65535 - block.length) ++ bitsOf block

/-- The blocks of an input, as bits newest block first: the coded form unless a stored block is shorter. -/
def deflBlocks (level : Nat) (fixed : Bool) : Nat → Nat → List Byte → List Byte → List (List Bool)
  | 0, _, _, _ => []
  | n + 1, pos, hist, input =>
    let block := input.take 65535
    let rest := input.drop 65535
    let s := storedBlock pos rest.isEmpty block
    let b := match codedBlock level fixed rest.isEmpty hist block with
      | some c => if c.length ≤ s.length then c else s
      | none => s
    b :: deflBlocks level fixed n (pos + b.length) (block.reverse ++ hist) rest

/-- The bytes of the stream at which its blocks start. -/
def deflStarts (level : Nat) (fixed : Bool) (input : List Byte) : List Nat :=
  ((deflBlocks level fixed (cdiv input.length 65535) 0 [] input).foldl (fun (a : List Nat × Nat) b =>
    (a.1 ++ [a.2 / 8], a.2 + b.length)) ([], 0)).1

/-- The DEFLATE stream of an input; empty input is one fixed block that holds only the end of block. -/
def deflate (level : Nat) (fixed : Bool) (input : List Byte) : List Byte :=
  let bs := if input.isEmpty then [true, true, false] ++ List.replicate 7 false
    else (deflBlocks level fixed (cdiv input.length 65535) 0 [] input).flatten
  packBits (cdiv bs.length 8) bs

/-- The zlib wrapper (R388). -/
def zlibWrap (level : Nat) (input body : List Byte) : List Byte :=
  let flg := (level - 1) * 64
  let r := (0x78 * 256 + flg) % 31
  [0x78, BitVec.ofNat 8 (flg + (31 - r) % 31)] ++ body ++ toBe 4 (adler32 input)

/-! ## The pre-transform (R392) -/

/-- The elements of a tile. -/
def elems (w : Nat) : Nat → List Byte → List (List Byte)
  | 0, _ => []
  | n + 1, bs => bs.take w :: elems w n (bs.drop w)

/-- Differences of elements, from the last element of the tile before; answers the last element of this one. -/
def deltas (w : Nat) : Nat → List (List Byte) → List (List Byte) × Nat
  | prev, [] => ([], prev)
  | prev, e :: es =>
    let v := ofLe e
    let r := deltas w v es
    (toLe w ((v + 2 ^ (8 * w) - prev) % 2 ^ (8 * w)) :: r.1, r.2)

/-- The tiles of an input. -/
def shuffleTiles (w : Nat) (delta : Bool) : Nat → Nat → List Byte → List Byte
  | 0, _, _ => []
  | n + 1, prev, bs =>
    let tile := bs.take 65536
    let k := tile.length / w
    let es := elems w k tile
    let (es, last) := if delta then deltas w prev es else (es, prev)
    (List.range w).flatMap (fun b => es.map (fun e => e.getD b 0)) ++ tile.drop (k * w)
      ++ shuffleTiles w delta n last (bs.drop 65536)

/-- The input after the pre-transform that the flags ask for. -/
def preTransform (shuffle delta : Bool) (w : Nat) (bs : List Byte) : List Byte :=
  if shuffle && 0 < w then shuffleTiles w delta (cdiv bs.length 65536) 0 bs else bs

end Sys2Proof.Machine
end

