-- ==== Sys2Proof/Machine/Compression.lean ====
section
/-! DEFINITION. The compression engine: jobs, buffers, suspension, cancellation and the archive (R381-R399). -/
namespace Sys2Proof.Machine

/-! ## Registers that show the engine's state -/

/-- CMP_STAT and CMP_CTXk follow the jobs. -/
def cmpShow (d : Dev) : Dev :=
  let d := (d.set CMP_STAT_pending d.cmp.pending.length).setFlag CMP_STAT_running d.cmp.running.isSome
  forN 4 (fun k d =>
    match lookup k d.cmp.ctx with
    | none => d.set (CMP_CTX k) 0
    | some j => ((d.setFlag (CMP_CTX_suspended k) true).set (CMP_CTX_master k) j.master).set (CMP_CTX_tag k) j.tag) d

/-- Change the jobs. -/
def Dev.withCmp (f : CmpSt → CmpSt) (d : Dev) : Dev := cmpShow { d with cmp := f d.cmp }

def CmpJob.zlib (j : CmpJob) : Bool := bitAt j.flags 0
def CmpJob.fixed (j : CmpJob) : Bool := bitAt j.flags 1
def CmpJob.shuffle (j : CmpJob) : Bool := bitAt j.flags 2
def CmpJob.delta (j : CmpJob) : Bool := bitAt j.flags 3
def CmpJob.irq (j : CmpJob) : Bool := bitAt j.flags 4

/-! ## Submission (R381, R382, R384) -/

/-- An address of a job: in the form of R381 and not in partition 0. -/
def jobPlace (a : Nat) : Option Place :=
  match placeOf a with
  | some (.dram 0 _) => none
  | x => x

/-- The descriptor of 32 bytes has no field out of range (R382). -/
def cmpFieldsOk (b : List Byte) : Bool :=
  let op := byteAt b 0
  let level := byteAt b 1
  let flags := leAt b 2 2
  let elem := byteAt b 4
  let shuffle := bitAt flags 2
  let delta := bitAt flags 3
  (op == 1 || op == 2) && (if op = 1 then 1 ≤ level && level ≤ 4 else level == 0) && flags < 32
    && (if shuffle then elem == 2 || elem == 4 || elem == 8 || elem == 16 else elem == 0) && byteAt b 5 == 0
    && !(delta && (!shuffle || elem == 16)) && !(shuffle && op == 2) && (op == 2 || leAt b 0x14 4 == 0)
    && (jobPlace (leAt b 8 8)).isSome && (jobPlace (leAt b 0x18 8)).isSome && leAt b 0x18 8 % 32 == 0

/-- The job of a descriptor. -/
def cmpJobOf (m : Nat) (b : List Byte) : CmpJob :=
  { op := byteAt b 0, level := byteAt b 1, flags := leAt b 2 2, elem := byteAt b 4, tag := leAt b 6 2, master := m,
    src := leAt b 8 8, srcLen := leAt b 0x10 4, limit := leAt b 0x14 4, buf := leAt b 0x18 8 }

/-- The write of CMP_JOB7 by master `m` (R382). -/
def cmpSubmit (m v : Nat) (d : Dev) : Dev :=
  let d := d.set (CMP_JOB m 7) v
  let b := (List.range 8).flatMap (fun i => toLe 4 (d.get (CMP_JOB m i)))
  if !cmpFieldsOk b then d.set (CMP_SUBMIT_STAT_result m) 1
  else if 32 ≤ d.cmp.pending.length then d.set (CMP_SUBMIT_STAT_result m) 2
  else ((d.set (CMP_SUBMIT_STAT_result m) 0).incWrap (CMP_SUBMIT_STAT_accepted m)).withCmp
    (fun c => { c with pending := c.pending ++ [cmpJobOf m b] })

/-! ## Access under master 21 (R27, R381) -/

/-- An access to an address that the job may not reach, beyond its partition or in no form of R381, is a violation of the fixed rule R27;
of an address in no partition, no target stands in the record that the manual gives, and it is open (log entry 173). -/
def cmpBeyond (a : Nat) (d : Dev) : Dev :=
  match placeOf a with
  | some (.dram p o) => violation .fixed 21 (96 + p) (o % 2 ^ 32) d
  | _ => let (t, d) := d.drawNat; violation .fixed 21 t (a % 2 ^ 32) d

/-- Read up to `n` bytes of a place: the bytes that lie in reach, or the status that ends the job. -/
def cmpRead (a n : Nat) (d : Dev) : Except Nat (List Byte) × Dev :=
  match jobPlace a with
  | none => (.error 7, cmpBeyond a d)
  | some (.host e x) => let (bs, d) := hostRead e x n d; (.ok bs, d)
  | some (.dram p o) =>
    if d.granted .read (96 + p) 21 then (.ok (d.dramRead ((d.part p).1 + o) (d.partRoom p o n)), d)
    else (.error 4, violation .read 21 (96 + p) (o % 2 ^ 32) d)

/-- Write bytes at a place: the status that ends the job, or none. -/
def cmpWrite (a : Nat) (bs : List Byte) (d : Dev) : Option Nat × Dev :=
  match jobPlace a with
  | none => (some 7, cmpBeyond a d)
  | some (.host e x) => (none, d.hostWrite e x bs)
  | some (.dram p o) =>
    if d.partRoom p o bs.length < bs.length then (some 3, cmpBeyond a d)
    else if d.granted .write (96 + p) 21 then (none, d.dramWrite ((d.part p).1 + o) bs)
    else (some 4, violation .write 21 (96 + p) (o % 2 ^ 32) d)

/-! ## Running a job (R384-R391) -/

/-- The stream of a compression (R387, R388, R392). -/
def cmpStream (j : CmpJob) (input : List Byte) : List Byte × Nat :=
  let t := preTransform j.shuffle j.delta j.elem input
  let body := deflate j.level j.fixed t
  (if j.zlib then zlibWrap j.level t body else body, adler32 t)

/-- The input is read and the stream formed, with the status at its end (R381, R390, R391); how much of its input a job has read when its
limit ends it is open (log entry 118). -/
def cmpPrepare (j : CmpJob) (d : Dev) : CmpJob × Dev :=
  if j.ran then (j, d)
  else
    match cmpRead j.src j.srcLen d with
    | (.error st, d) => ({ j with ran := true, status := st }, d)
    | (.ok bs, d) =>
      if j.op = 1 then
        if bs.length < j.srcLen then ({ j with ran := true, status := 3 }, cmpBeyond j.src d)
        else
          let r := cmpStream j bs
          ({ j with ran := true, input := bs, out := r.1, adlerEnd := r.2, total := j.srcLen }, d)
      else
        let e := expand j.zlib bs
        let st := match e.end_ with
          | .ok _ _ => 0
          | .bad => 2
          | .short => if bs.length < j.srcLen then 3 else 2
        let j := { j with ran := true, input := bs }
        if j.limit != 0 && j.limit < e.out.length then
          let (n, d) := d.drawNat
          let low := min e.read (readUntil j.zlib bs (fun x => decide (j.limit < x.out.length)))
          ({ j with out := e.out.take j.limit, status := 1, total := low + n % (e.read - low + 1) }, d)
        else
          let read := if e.bad then readUntil j.zlib bs Expanded.bad else e.read
          ({ j with out := e.out, status := st, total := read }, if st = 3 then cmpBeyond j.src d else d)

/-- The Adler-32 of more bytes after a given one. -/
def adlerMore (a : Nat) (bs : List Byte) : Nat :=
  let r := bs.foldl (fun (p : Nat × Nat) b => let x := (p.1 + b.toNat) % 65521; (x, (p.2 + x) % 65521)) (a % 65536, a / 65536)
  r.1 + 65536 * r.2

/-- used and done go into a descriptor (R385). -/
def cmpMark (a used : Nat) (b : List Byte) (d : Dev) : Option Nat × Dev :=
  match cmpWrite (a + 0x0C) (toLe 4 used) d with
  | (some st, d) => (some st, d)
  | (none, d) => cmpWrite (a + 0x18) (toLe 2 (setBit (leAt b 0x18 2) 15 true)) d

/-- Deliver the stream into the buffers of the chain (R385, R386, R389): answers the status at the end, or none where the job needs
another buffer and next is 0. -/
def cmpDeliver : Nat → CmpJob → Dev → CmpJob × Option Nat × Dev
  | 0, j, d => (j, some 7, d)
  | n + 1, j, d =>
    if j.buf % 32 != 0 then (j, some 7, d)
    else match cmpRead j.buf 32 d with
    | (.error st, d) => (j, some st, d)
    | (.ok b, d) =>
      if b.length < 32 then (j, some 3, cmpBeyond j.buf d)
      else if leAt b 8 4 = 0 then (j, some 7, d)
      else
        let k := min (leAt b 8 4 - j.used) j.out.length
        match (if k = 0 then (none, d) else cmpWrite (leAt b 0 8 + j.used) (j.out.take k) d) with
        | (some st, d) => let (_, d) := cmpMark j.buf j.used b d; (j, some st, d)
        | (none, d) =>
          let j := { j with
            buffers := if j.used = 0 then j.buffers + 1 else j.buffers, used := j.used + k, produced := j.produced + k,
            adler := if j.op = 2 then adlerMore j.adler (j.out.take k) else j.adler, out := j.out.drop k }
          match cmpMark j.buf j.used b d with
          | (some st, d) => (j, some st, d)
          | (none, d) =>
            if j.out.isEmpty then (j, some j.status, d)
            else if leAt b 0x10 8 = 0 then (j, none, d)
            else cmpDeliver n { j with buf := leAt b 0x10 8, used := 0 } d

/-- The transformed bytes that a compression has coded at least, and the input that a job has read at least, to have delivered what it
has: a block is coded when all its bytes are there, and a tile transformed (R387, R392). -/
def CmpJob.coded (j : CmpJob) : Nat :=
  let starts := deflStarts j.level j.fixed (preTransform j.shuffle j.delta j.elem j.input)
  min j.srcLen (65535 * (starts.filter (fun s => s + 2 * b2n j.zlib < j.produced)).length)
def CmpJob.needed (j : CmpJob) : Nat :=
  if j.op = 2 then min j.total (readUntil j.zlib j.input (fun x => decide (j.produced ≤ x.out.length)))
  else if j.shuffle then min j.srcLen (cdiv j.coded 65536 * 65536) else j.coded

/-- What a job has read while a part of its output is not delivered, and the Adler-32 of a compression: how far the engine has come is
open, but not less than what it has delivered takes (log entry 118). -/
def cmpOpen (j : CmpJob) (d : Dev) : CmpJob × Dev :=
  let (n, d) := d.drawNat
  let (m, d) := d.drawNat
  let read := j.needed + n % ((if j.op = 2 then j.total else j.srcLen) - j.needed + 1)
  let done := (preTransform j.shuffle j.delta j.elem j.input).take (j.coded + m % (read - j.coded + 1))
  ({ j with consumed := read, adler := if j.op = 2 then j.adler else adler32 done }, d)

/-- What a job has read, and the Adler-32 so far (R393). -/
def cmpSoFar (j : CmpJob) (d : Dev) : CmpJob × Dev :=
  if j.out.isEmpty then ({ j with consumed := j.total, adler := if j.op = 2 then j.adler else j.adlerEnd }, d) else cmpOpen j d

/-! ## Ends and suspensions (R389, R393) -/

/-- The job record (R393). -/
def cmpRecord (code status : Nat) (j : CmpJob) (d : Dev) : Dev :=
  if d.flag CMP_CFG_rec_en then
    queueRecord (d.get CMP_CFG_queue)
      (toLe 2 code ++ toLe 2 status ++ toLe 2 j.tag ++ toLe 1 (if j.arch.isSome then 0xFF else j.master) ++ toLe 1 0
        ++ toLe 8 j.consumed ++ toLe 8 j.produced ++ toLe 4 j.adler ++ toLe 4 j.buffers) d
  else d

/-- The engine reaches OFF once no job runs, and acts on enable_pending (R395), but not while a fabric timeout holds it (R16). -/
def cmpReachOff (d : Dev) : Dev :=
  if d.blockRuns 59 && d.get CMP_CFG_state = 2 && d.cmp.running.isNone then
    let on := d.flag CMP_CFG_enable_pending && d.flag CMP_CFG_enable
    (d.set CMP_CFG_state (b2n on)).setFlag CMP_CFG_enable_pending false
  else d

/-- A job ends with a status. -/
def cmpFinish (j : CmpJob) (st : Nat) (d : Dev) : Dev :=
  let d := if st = 0 then d.inc CMP_JOBS_OK else d.inc CMP_JOBS_FAIL
  let d := cmpRecord 0x1201 st j d
  if j.irq || st != 0 then raiseMs 120 d else d

/-- The running job is gone. -/
def cmpIdle (arch : Bool) (d : Dev) : Dev :=
  cmpReachOff (d.withCmp (fun c => { c with running := none, lastArch := arch }))

/-- The lowest free context slot. -/
def Dev.cmpSlot (d : Dev) : Option Nat := (List.range 4).find? (fun k => (lookup k d.cmp.ctx).isNone)

/-! ## The archive (R396-R398) -/

/-- The units of partition 2. -/
def Dev.archUnits (d : Dev) : Nat := (d.part 2).2 / 64

/-- Two ranges of units overlap. -/
def overlaps (a n b m : Nat) : Bool := a < b + m && b < a + n

/-- The oldest entries are discarded, whole, until none overlaps a range (R398). -/
def archFree (start len : Nat) (d : Dev) : Dev :=
  iterate d.cmp.entries.length (fun d =>
    if d.cmp.entries.any (fun e => overlaps start len e.1 e.2) then
      let rest := d.cmp.entries.tail
      let rd := match rest with
        | e :: _ => e.1
        | [] => d.get CMP_ARCH_WR
      some (raiseMs 121 (({ d with cmp := { d.cmp with entries := rest } }.set CMP_ARCH_RD rd).inc CMP_ARCH_LOST))
    else none) d

/-- Write an entry of `units` units at the write offset, which then advances past it. -/
def archPut (pad : Bool) (grid flags g rawLen bodyLen units : Nat) (body : List Byte) (d : Dev) : Dev :=
  let wr := d.get CMP_ARCH_WR
  let d := archFree wr units d
  let hdr := [0x41, 0x51, 0x41, if pad then 0x50 else 0x52] ++ toLe 2 1 ++ toLe 1 grid ++ toLe 1 flags ++ toLe 8 g
    ++ toLe 4 rawLen ++ toLe 4 bodyLen ++ toLe 4 (d.get CMP_ARCH_SEQ) ++ toLe 4 0
  let d := d.dramWrite ((d.part 2).1 + 64 * wr) (hdr ++ body)
  let d := { d with cmp := { d.cmp with entries := d.cmp.entries ++ [(wr, units)] } }
  (d.set CMP_ARCH_WR ((wr + units) % d.archUnits)).incWrap CMP_ARCH_SEQ

/-- The stream of a gathering enters the archive: a pad entry fills the space to the end where it would cross it (R397). -/
def archStore (grid flags g rawLen : Nat) (body : List Byte) (d : Dev) : Dev :=
  let units := cdiv (32 + body.length) 64
  let left := d.archUnits - d.get CMP_ARCH_WR
  let d := if left < units then archPut true grid flags g rawLen (64 * left - 32) left [] d else d
  archPut false grid flags g rawLen body.length units (body ++ List.replicate (64 * units - 32 - body.length) 0) d

/-- The gathering of an archive job whose header still stands at its ring position with its instant (R396). -/
def Dev.archGath (d : Dev) (n g : Nat) : Option Gathering :=
  ((d.grid n).held ++ (d.grid n).retired).find? (fun x =>
    x.g == g && !x.memLost && d.memAlive && memLe d.dram (d.gathAddr n x.k) 8 == g)

/-- The running job is of the archive, and its gathering is gone. -/
def Dev.archGone (d : Dev) (j : CmpJob) : Bool := j.arch.any (fun a => (d.archGath a.1 a.2).isNone)

/-- An archive job runs: its status. -/
def archRun (j : CmpJob) (n g : Nat) (d : Dev) : CmpJob × Nat × Dev :=
  match d.archGath n g with
  | none => (j, 0, d)
  | some x =>
    if !d.granted .read 96 21 then (j, 4, violation .read 21 96 (d.gathAddr n x.k - (d.part 0).1) d)
    else if !d.granted .write 98 21 then (j, 4, violation .write 21 98 (64 * d.get CMP_ARCH_WR) d)
    else
      let r := cmpStream j (d.dramRead (d.gathAddr n x.k) (d.gsize n))
      let j := { j with consumed := d.gsize n, adler := r.2 }
      if d.archUnits < cdiv (32 + r.1.length) 64 then (j, 3, d)
      else ({ j with produced := r.1.length }, 0, archStore n (b2n j.zlib + 2 * b2n j.shuffle) g (d.gsize n) r.1 d)

/-- The archive job of a gathering under CMP_ARCH_CFG. -/
def Dev.archJob (d : Dev) (nt : Notice) : CmpJob :=
  let shuffle := d.get CMP_ARCH_CFG_shuffle
  { op := 1, level := d.get CMP_ARCH_CFG_level, flags := d.get CMP_ARCH_CFG_zlib + 2 * d.get CMP_ARCH_CFG_fixed + 4 * shuffle,
    elem := 8 * shuffle, tag := 0, master := 0xFF, src := 0, srcLen := d.gsize nt.grid, limit := 0, buf := 0, arch := some (nt.grid, nt.g) }

/-- Archive jobs are skipped: COL_ARCH_SKIP and event source 42 (R124). -/
def archSkipped (k : Nat) (d : Dev) : Dev := raiseMs 42 (d.add COL_ARCH_SKIP k)

/-- Gatherings already retired are skipped and counted (R124, R396). -/
def archSkip (d : Dev) : Dev :=
  let gone (nt : Notice) : Bool := !(d.grid nt.grid).held.any (fun x => x.g == nt.g)
  let k := (d.col.archive.takeWhile gone).length
  if k = 0 then d else archSkipped k { d with col := { d.col with archive := d.col.archive.drop k } }

/-! ## The commands -/

/-- CMP_JOB_START: the next job by R383. -/
def cmpStart (d : Dev) : Dev :=
  if d.get CMP_CFG_state != 1 || d.cmp.running.isSome then d
  else
    let d := archSkip d
    let takeArch (d : Dev) : Dev := match d.col.archive with
      | [] => d
      | nt :: nts => ({ d with col := { d.col with archive := nts } }).withCmp (fun c => { c with running := some (d.archJob nt) })
    let takeHost (d : Dev) : Dev := match d.cmp.resumed, d.cmp.pending with
      | j :: js, _ => d.withCmp (fun c => { c with running := some j, resumed := js })
      | [], j :: js => d.withCmp (fun c => { c with running := some j, pending := js })
      | [], [] => d
    let host := !(d.cmp.resumed.isEmpty && d.cmp.pending.isEmpty)
    if host && (d.cmp.lastArch || d.col.archive.isEmpty) then takeHost d else takeArch d

/-- The running job has delivered what its chain takes: how it goes on. -/
def cmpRun (j : CmpJob) (d : Dev) : CmpJob × Option Nat × Dev :=
  match j.arch with
  | some (n, g) => let (j, st, d) := archRun j n g d; (j, some st, d)
  | none =>
    let (j, d) := cmpPrepare j d
    let (j, st, d) := cmpDeliver (j.out.length + 1) j d
    let (j, d) := cmpSoFar j d
    (j, if st.isNone && d.cmpSlot.isNone then some 5 else st, d)

/-- CMP_JOB_END: the running job ends; a job that would suspend does not end. An archive job whose gathering is gone is skipped. -/
def cmpJobEnd (d : Dev) : Dev :=
  match d.cmp.running with
  | none => d
  | some j =>
    if d.archGone j then cmpIdle true (archSkipped 1 d) else
    match cmpRun j d with
    | (j, some st, d') => cmpIdle j.arch.isSome (cmpFinish j st d')
    | (_, none, _) => d

/-- CMP_JOB_SUSPEND: a job that needs another buffer goes into a context slot (R389). -/
def cmpJobSuspend (d : Dev) : Dev :=
  match d.cmp.running with
  | none => d
  | some j =>
    match cmpRun j d with
    | (j, none, d') =>
      let k := (d'.cmpSlot).getD 0
      let d' := cmpRecord 0x1202 k j d'
      cmpIdle false (raiseMs 121 (d'.withCmp (fun c => { c with ctx := insertKey k j c.ctx })))
    | (_, some _, _) => d

/-- CMP_CMD RESUME (R389). -/
def cmpResume (k : Nat) (d : Dev) : Dev :=
  match lookup k d.cmp.ctx with
  | none => d.setFlag CMP_STAT_cmd_refused true
  | some j =>
    match cmpRead (j.buf + 0x10) 8 d with
    | (.error st, d) => cmpFinish j st (d.withCmp (fun c => { c with ctx := eraseKey k c.ctx }))
    | (.ok b, d) =>
      if leAt b 0 8 = 0 then d
      else d.withCmp (fun c => { c with ctx := eraseKey k c.ctx, resumed := c.resumed ++ [{ j with buf := leAt b 0 8, used := 0 }] })

/-- The running job is cancelled: how much of its output it has delivered by then is open (R394). -/
def cmpCancelRunning (j : CmpJob) (d : Dev) : Dev :=
  let (j, d) := cmpPrepare j d
  let (n, d) := d.drawNat
  let (j, _, d) := cmpDeliver (j.out.length + 1) { j with out := j.out.take (n % (j.out.length + 1)) } d
  let (j, d) := cmpOpen j d
  cmpIdle false (cmpFinish j 6 d)

/-- CMP_CMD CANCEL by master `m` (R394). -/
def cmpCancel (m tag : Nat) (d : Dev) : Dev :=
  let hit (j : CmpJob) : Bool := j.master == m && j.tag == tag && j.arch.isNone
  let gone := d.cmp.pending.filter hit ++ d.cmp.resumed.filter hit ++ (d.cmp.ctx.filter (fun p => hit p.2)).map (fun p => p.2)
  let run := d.cmp.running.filter hit
  if gone.isEmpty && run.isNone then d.setFlag CMP_STAT_cmd_refused true
  else
    let d := d.withCmp (fun c => { c with
      pending := c.pending.filter (fun j => !hit j), resumed := c.resumed.filter (fun j => !hit j), ctx := c.ctx.filter (fun p => !hit p.2) })
    let d := forL gone (fun j d => cmpFinish j 6 d) d
    match run with
    | none => d
    | some j => cmpCancelRunning j d

/-- A write of CMP_CMD; an engine held by a fabric timeout does nothing (R16; DEDUCED, log entry 170). -/
def cmpCmdWrite (m v : Nat) (d : Dev) : Dev :=
  cmpWork (fun d => if v % 4 = 1 then cmpCancel m (bits v 16 16) d else if v % 4 = 2 then cmpResume (bits v 2 2) d else d) d

/-- Writing enable (R395, R467). -/
def cmpEnableWrite (on : Bool) (d : Dev) : Dev :=
  let d' := d.setFlag CMP_CFG_enable on
  if d.get CMP_CFG_state = 2 then d'.setFlag CMP_CFG_enable_pending on
  else if d.flag CMP_CFG_enable = on then d
  else if on then (if d.get CMP_CFG_state = 0 then d'.set CMP_CFG_state 1 else d')
  else if d.get CMP_CFG_state = 1 then cmpReachOff (d'.set CMP_CFG_state 2) else d'

/-- A write of CMP_CFG. -/
def cmpCfgWrite (v : Nat) (d : Dev) : Dev :=
  cmpEnableWrite (bitAt v 0) ((d.set CMP_CFG_queue (bits v 4 6)).set CMP_CFG_rec_en (bits v 10 1))

/-- Service begins: the engine turns ON where its enable field is 1. -/
def cmpPower (d : Dev) : Dev := if d.flag CMP_CFG_enable && d.get CMP_CFG_state = 0 then d.set CMP_CFG_state 1 else d

/-- A write of CMP_ARCH_RD (R398): outside [RD, WR] in ring order it is discarded; it is rounded up to the next entry start. -/
def archRelease (v : Nat) (d : Dev) : Dev :=
  let u := d.archUnits
  let rd := d.get CMP_ARCH_RD
  let wr := d.get CMP_ARCH_WR
  let dist (x : Nat) : Nat := (x + u - rd) % u
  let dwr := if d.cmp.entries.isEmpty then 0 else if wr = rd then u else dist wr
  if u ≤ v || dwr < dist v then d
  else
    let kept := d.cmp.entries.filter (fun e => dist v ≤ dist e.1)
    let target := match kept with
      | e :: _ => e.1
      | [] => wr
    { d with cmp := { d.cmp with entries := kept } }.set CMP_ARCH_RD target

end Sys2Proof.Machine
end

