-- ==== Sys2Proof/Machine/Binding.lean ====
section
/-! DEFINITION. The Binding image: its layout, its verification, the commands of BND_CMD and the lock (R32-R48). -/
namespace Sys2Proof.Machine

/-! ## Layout (R32) -/

/-- A section as the directory gives it. -/
structure Sect where
  type : Nat
  flags : Nat
  off : Nat
  stored : Nat
  size : Nat
  deriving DecidableEq, Repr

def Sect.critical (s : Sect) : Bool := bitAt s.flags 0
def Sect.packed (s : Sect) : Bool := bitAt s.flags 1

/-- Header fields. -/
def imgSize (b : List Byte) : Nat := leAt b 8 4
def imgCount (b : List Byte) : Nat := leAt b 0x0C 2
def imgFlags (b : List Byte) : Nat := leAt b 0x0E 2
def imgVersion (b : List Byte) : Nat := leAt b 0x10 4
def imgId (b : List Byte) : Nat := leAt b 0x14 4
def imgTimeout (b : List Byte) : Nat := leAt b 0x20 2

/-- The directory. -/
def imgSects (b : List Byte) : List Sect :=
  (List.range (imgCount b)).map (fun i =>
    let o := 0x100 + 16 * i
    ⟨leAt b o 2, leAt b (o + 2) 2, leAt b (o + 4) 4, leAt b (o + 8) 4, leAt b (o + 12) 4⟩)

/-- The content of a section: expanded where it is compressed; none where R33 is broken. -/
def Sect.content (b : List Byte) (s : Sect) : Option (List Byte) :=
  let raw := (b.drop s.off).take s.stored
  if s.packed then expandExact raw s.size else some raw

/-- The sections of a type, in directory order. -/
def sectsOf (b : List Byte) (t : Nat) : List Sect := (imgSects b).filter (fun s => s.type == t)

/-- The contents of the sections of a type. -/
def contentsOf (b : List Byte) (t : Nat) : List (List Byte) := (sectsOf b t).filterMap (Sect.content b)

/-- The content of the first section of a type; empty where there is none. -/
def contentOf (b : List Byte) (t : Nat) : List Byte := (contentsOf b t).headD []

/-! ## Verification (R40) -/

/-- HEADER; content shorter than image_size is out of rule (log entry 178). -/
def imgHeaderOk (b : List Byte) : Bool :=
  let n := imgSize b
  b.take 4 == [0x41, 0x51, 0x42, 0x44] && leAt b 4 2 == 1 && leAt b 6 2 == 0x100 && n % 64 == 0 && 1024 ≤ n && n ≤ 4194304
    && n ≤ b.length && 1 ≤ imgCount b && imgCount b ≤ 64 && imgFlags b < 2
    && (if imgFlags b = 1 then 10 ≤ imgTimeout b && imgTimeout b ≤ 60000 else imgTimeout b == 0)

/-- How often a section type may occur (R34); none for an unknown type. -/
def sectCount (t : Nat) : Option (Nat × Nat) :=
  match t with
  | 1 | 3 | 4 => some (1, 1)
  | 2 | 5 => some (0, 1)
  | 6 => some (0, 256)
  | 7 => some (0, 64)
  | _ => none

/-- The size a section of a type must have, where R34 and R426 give one. -/
def sectSizeOk (s : Sect) : Bool :=
  match s.type with
  | 1 | 3 => s.size == 64
  | 2 => s.size == 2048
  | 4 => s.size == 4096
  | 5 => s.size % 8 == 0
  | 6 => 8 ≤ s.size
  | 7 => 4 ≤ s.size
  | _ => true

/-- No two of the sections overlap. -/
def disjointSects : List Sect → Bool
  | [] => true
  | s :: ss => ss.all (fun t => s.off + s.stored ≤ t.off || t.off + t.stored ≤ s.off) && disjointSects ss

/-- SECTION: the directory and the type rule of R34; a reserved flag bit is out of rule (log entry 178). -/
def sectsOk (b : List Byte) : Bool :=
  let ss := imgSects b
  ss.all (fun s => s.off % 64 == 0 && 0x100 + 16 * imgCount b ≤ s.off && s.off + s.stored ≤ imgSize b - 64 && s.flags < 4
      && (s.packed || s.size == s.stored) && !(s.critical && (sectCount s.type).isNone) && sectSizeOk s)
    && disjointSects ss
    && [1, 2, 3, 4, 5, 6, 7].all (fun t =>
      match sectCount t with
      | some (lo, hi) => let n := (sectsOf b t).length; lo ≤ n && n ≤ hi
      | none => true)

/-- EXPAND. -/
def expandOk (b : List Byte) : Bool := (imgSects b).all (fun s => (sectCount s.type).isNone || (s.content b).isSome)

/-- The type codes of the 40 folios. -/
def imgFolios (b : List Byte) : List Nat := (List.range 40).map (byteAt (contentOf b 1))

/-- How many folios have a type. -/
def folioCount (b : List Byte) (t : Nat) : Nat := ((imgFolios b).filter (fun c => c == t)).length

/-- FOLIO (R37, R18). -/
def folioOk (b : List Byte) : Bool :=
  (imgFolios b).all (fun c => c ≤ 5) && folioCount b 1 ≤ 8 && folioCount b 2 ≤ 8 && folioCount b 3 ≤ 16 && folioCount b 4 ≤ 10
    && folioCount b 5 ≤ 8

/-- The kernel IDs. -/
def imgKernels (b : List Byte) : List Nat := (contentsOf b 6).map (fun c => leAt c 0 2)

/-- KERNEL (R36); a flags field other than zero is out of rule (log entry 178). -/
def kernelOk (b : List Byte) : Bool :=
  let ids := imgKernels b
  ids.all (fun k => 0x8000 ≤ k && k ≤ 0x80FF) && decide ids.Nodup
    && ((contentsOf b 6).map (fun c => leAt c 4 4)).sum ≤ 0x100000
    && (contentsOf b 6).all (fun c => leAt c 2 2 == 0 && leAt c 4 4 + 8 ≤ c.length)

/-- The REG_INIT entries. -/
def imgRegInit (b : List Byte) : List (Nat × Nat) :=
  let c := contentOf b 5
  (List.range (c.length / 8)).map (fun i => (leAt c (8 * i) 4, leAt c (8 * i + 4) 4))

/-- The TABLE_INIT ranges: the offset and the data. -/
def imgTableInit (b : List Byte) : List (Nat × List Byte) := (contentsOf b 7).map (fun c => (leAt c 0 4, c.drop 4))

/-- The BAR0 memory windows (R417). -/
def memWindows : List (Nat × Nat) :=
  [(0x1000000, 0x100000), (0x1100000, 0x100000), (0x1200000, 0x40000), (0x1240000, 0x40000), (0x1280000, 0x20000), (0x1400000, 0x80000)]

/-- A register with an RW or RWB field at an offset outside BND, ENR and EVR (R35). -/
def regInitOk (off : Nat) : Bool :=
  off % 4 == 0 && !([2, 14, 15].contains (off / 0x10000)) &&
    (match findRow off with
    | some (r, _) => r.fields.any (fun f => f.acc == .rw || f.acc == .rwb)
    | none => false)

/-- REG_INIT (R35). -/
def imgInitOk (b : List Byte) : Bool :=
  (imgRegInit b).all (fun e => regInitOk e.1)
    && (imgTableInit b).all (fun t => memWindows.any (fun w => w.1 ≤ t.1 && t.1 + t.2.length ≤ w.1 + w.2))

/-- The sizes of the partitions in MiB. -/
def imgParts (b : List Byte) : List Nat := (List.range 16).map (fun n => leAt (contentOf b 3) (4 * n) 4)

/-- DRAM (R39): `cap` is the installed capacity in MiB. -/
def dramOk (b : List Byte) (cap : Nat) : Bool :=
  (imgParts b).all (fun n => n ≤ 65535) && (imgParts b).getD 1 0 ≤ 8192 && (imgParts b).sum ≤ cap

/-- The digest that the signature covers. -/
def imgDigest (b : List Byte) : List Byte := sha256 (b.take (imgSize b - 64))

/-- The code of a verification (R40): the first failure in order; 0 for none. -/
def verifyCode (b : List Byte) (cap : Nat) (d : Dev) : Nat :=
  if !imgHeaderOk b then 1
  else if d.nvm.ownerKey.isEmpty then 2
  else if imgVersion b < d.get BND_MINVER then 3
  else if !ecdsaVerify d.nvm.ownerKey (imgDigest b) ((b.drop (imgSize b - 64)).take 64) then 4
  else if !sectsOk b then 5
  else if !expandOk b then 6
  else if !folioOk b then 7
  else if !kernelOk b then 8
  else if !imgInitOk b then 9
  else if !dramOk b cap then 10
  else 0

/-- The bytes of a slot: 1 A, 2 B. -/
def Dev.slotImage (d : Dev) (s : Nat) : List Byte := if s = 1 then d.nvm.slotA else d.nvm.slotB

/-- The field of BND_RESULT of a slot, or of the recovery load. -/
def resultFld (s : Nat) : Fld := if s = 1 then BND_RESULT_slot_a else if s = 2 then BND_RESULT_slot_b else BND_RESULT_recovery

def Dev.bndPut (s : BndState) (d : Dev) : Dev := d.set BND_STAT_state s.code

/-- Change what the Binding machinery holds. -/
def Dev.withBnd (f : BndSt → BndSt) (d : Dev) : Dev := { d with bnd := f d.bnd }

/-! ## Commands (R44, R46, R47) -/

/-- The result of the last BND_CMD. -/
def cmdResult (c : Nat) (d : Dev) : Dev := d.set BND_RESULT_command c

/-- The lock (R45): event source 5, the commits of R83, and the start-up goes on with the queue switch to ECC and the engines'
self-test (R463). -/
def bndLockNow (d : Dev) : Dev :=
  let d := raise 5 ((d.bndPut .locked).setFlag BND_STAT_locked true)
  cmpPower (enginesLock (poolUpdate (colReeval (commitAll commitEntry d))))

/-- LOCK (R46). -/
def bndLock (d : Dev) : Dev := if d.bndIs .unlocked then bndLockNow (cmdResult 0 d) else cmdResult 0x0C d

/-- LOCK_TIMEOUT (R45): lock_timeout_ms has passed in UNLOCKED. -/
def bndLockTimeout (d : Dev) : Dev :=
  if !d.bndIs .unlocked then d
  else
    let due := d.bnd.unlockedAt + d.bnd.timeoutMs * 4000000
    let d := passElapsed due d
    if d.time.elapsed < due then d else bndLockNow (d.setFlag BND_STAT_lock_timeout true)

/-- An NVM_CMD writes the slot. -/
def Dev.storing (d : Dev) (s : Nat) : Bool :=
  match d.pwr.store with
  | some t => (t.cmd == 1 || t.cmd == 2) && t.slot == s
  | none => false

/-- VERIFY and REBIND may start (R47): STATE, then BUSY, the order being the model's (log entry 178); a re-binding runs until the
logic engine has started again or the device has entered RECOVERY. -/
def verifyStart (slot : Nat) (ok rebind : Bool) (d : Dev) : Dev :=
  if !ok || !(slot == 1 || slot == 2) then cmdResult 0x0C d
  else if d.bnd.verifying.isSome || (d.bnd.rebinding && !d.bnd.broken) || d.storing slot then cmdResult 0x0B d
  else
    let d := d.withBnd (fun b => { b with verifying := some (slot, rebind) })
    if rebind then d.bndPut .rebinding else d

/-- VERIFY. -/
def bndVerify (slot : Nat) (d : Dev) : Dev :=
  verifyStart slot (d.bndIs .unlocked || d.bndIs .locked || d.bndIs .recovery) false d

/-- REBIND. -/
def bndRebind (slot confirm : Nat) (d : Dev) : Dev := verifyStart slot (confirm == 0xC3 && d.bndIs .locked) true d

/-- RCV_BEGIN and RCV_END are accepted in RECOVERY and RCV_LOADING. -/
def rcvBegin (d : Dev) : Dev :=
  if d.inRecovery then
    (cmdResult 0 ((d.bndPut .rcvLoading).set BND_RCV_COUNT 0)).withBnd (fun b => { b with staging := [], staged := true })
  else cmdResult 0x0C d

/-- BND_RCV_DATA: the next four bytes; beyond 4,194,304 they are discarded and still counted. -/
def rcvData (v : Nat) (d : Dev) : Dev :=
  if !d.bndIs .rcvLoading then d
  else
    let d := if d.get BND_RCV_COUNT < 4194304 then d.withBnd (fun b => { b with staging := b.staging ++ toLe 4 v }) else d
    d.add BND_RCV_COUNT 4

/-- RCV_END: verification of the staged image starts. -/
def rcvEnd (d : Dev) : Dev :=
  if d.inRecovery then (cmdResult 0 (d.bndPut .verifying)).withBnd (fun b => { b with loading := some 3 })
  else cmdResult 0x0C d

/-- A write of BND_CMD, past the fixed rule of R44. -/
def bndCmdWrite (v : Nat) (d : Dev) : Dev :=
  match v % 16 with
  | 1 => bndLock d
  | 2 => bndVerify (bits v 4 2) d
  | 3 => bndRebind (bits v 4 2) (bits v 8 8) d
  | 4 => rcvBegin d
  | 5 => rcvEnd d
  | _ => d

/-! ## Ends of verifications (R42, R44, R47, R48) -/

/-- Building from an image starts. -/
def buildStart (src : Nat) (img : List Byte) (d : Dev) : Dev :=
  (d.bndPut .building).withBnd (fun b => { b with loading := none, image := img, target := src, staging := [], staged := false })

/-- An image has sections that the compression engine expands (R33). -/
def imgPacked (b : List Byte) : Bool := (imgSects b).any Sect.packed

/-- A verification runs whose image has sections to expand: their expansion goes before every job (R383). -/
def Dev.expanding (d : Dev) : Bool :=
  (d.bnd.verifying.any (fun v => imgPacked (d.slotImage v.1)))
    || (d.bnd.loading.any (fun s => imgPacked (if s = 3 then d.bnd.staging else d.slotImage s)))

/-- The code of a verification that can end: the DRAM check is made once DDR5 training has completed (R463), and an expansion waits for a
running job to end (R383). -/
def imgVerdict (img : List Byte) (d : Dev) : Option Nat :=
  let c := verifyCode img (if d.pwr.trained then d.pwr.ddrMib else 16 * 65535) d
  if (c = 0 && !d.pwr.trained) || (d.cmp.running.isSome && d.blockRuns 59 && imgPacked img) then none else some c

/-- BINDING_VERIFY_DONE: the verification of VERIFY ends; nothing else changes. -/
def bndVerifyDone (d : Dev) : Dev :=
  match d.bnd.verifying with
  | some (s, false) =>
    match imgVerdict (d.slotImage s) d with
    | none => d
    | some c => cmdResult c ((d.set (resultFld s) c).withBnd (fun b => { b with verifying := none }))
  | _ => d

/-- The device enters RECOVERY with all folios unbound (R42, R43). BND_ACT_ID, BND_ACT_VER and BND_ACT_HASHn keep what they show of the last
Binding (DESIGN CHOICE, log entry 187). -/
def enterRecovery (d : Dev) : Dev :=
  let d := (d.bndPut .recovery).withBnd (fun b => { b with loading := none, image := [], rebuild := false, broken := b.rebinding })
  let d := ((((d.set BND_FOLIO_CNT (40 * 2 ^ 24)).set BND_CAP0 0).set BND_CAP1 0).set BND_STAT_active 0).setFlag BND_STAT_locked false
  let d := forN 10 (fun n d => d.set (BND_FOLIO_MAP n) 0) (forN 16 (fun n d => d.set (BND_PART n) 0) d)
  raise 6 { d with quires := [] }

/-- A slot is rejected: slot A falls back to slot B, slot B leads to RECOVERY (R42). -/
def slotReject (s : Nat) (d : Dev) : Dev :=
  if s = 1 then
    (raise 4 ((d.setFlag BND_STAT_fallback true).bndPut .verifying)).withBnd (fun b => { b with loading := some 2 })
  else enterRecovery d

/-- SLOT_VERIFY_DONE at start-up. The DRAM check waits for the end of training (R463). -/
def slotVerifyDone (d : Dev) : Dev :=
  match d.bnd.loading with
  | none => d
  | some s =>
    if s = 3 then d
    else
      let img := d.slotImage s
      match imgVerdict img d with
      | none => d
      | some c =>
        let d := d.set (resultFld s) c
        if c = 0 then stepDone 5 (buildStart s img d) else slotReject s d

/-- RECOVERY_VERIFY_DONE: the staged image builds, or the device returns to RECOVERY (R44). -/
def recoveryVerifyDone (d : Dev) : Dev :=
  match d.bnd.loading with
  | some 3 =>
    match imgVerdict d.bnd.staging d with
    | none => d
    | some c =>
      let d := d.set BND_RESULT_recovery c
      if c = 0 then stepDone 5 (buildStart 3 d.bnd.staging d)
      else (d.bndPut .recovery).withBnd (fun b => { b with loading := none })
  | _ => d

end Sys2Proof.Machine
end

