-- ==== Sys2Proof/Machine/Energy.lean ====
section
/-! DEFINITION. Energy: pulses and directions, intervals and their records, saves, the seal and the legal parameters
(R353-R368, R469). -/
namespace Sys2Proof.Machine

/-! ## Parameters in force (R365) -/

/-- A field of a legal parameter as it is in force. -/
def Dev.force (d : Dev) (f : Fld) : Nat :=
  match lookup f.key d.enr.held with
  | some w => bits w.toNat f.lo f.width
  | none => d.get f

/-- The registers of channel `c` that are legal parameters. -/
def channelKeys (c : Nat) : List Nat :=
  (ENR_CH_CFG c).key :: ((List.range 4).flatMap (fun q => [(ENR_CH_GAIN_LO c q).key, (ENR_CH_GAIN_HI c q).key, (ENR_CH_OFF c q).key]))

/-- The length in minutes of an interval code. -/
def intervalMinutes (v : Nat) : Nat := ([1, 5, 10, 15, 30, 60]).getD v 15

/-- The length of an interval in ns. -/
def minuteNs (m : Nat) : Int := (m : Int) * 60000000000

/-- The channel counts (R355). -/
def Dev.chOn (d : Dev) (c : Nat) : Bool := d.force (ENR_CH_CFG_en c) == 1

/-- The import quantity of channel `c`; the export quantity follows it. -/
def Dev.chPair (d : Dev) (c : Nat) : Nat := 2 * d.force (ENR_CH_CFG_kind c)

/-- The quantities channel `c` uses (R355). -/
def Dev.chUsed (d : Dev) (c : Nat) : List Nat :=
  let q := d.chPair c
  if d.force (ENR_CH_CFG_mode c) = 0 then [q + d.force (ENR_CH_CFG_single_dir c)] else [q, q + 1]

/-- The gain of quantity `q`. -/
def Dev.gain (d : Dev) (c q : Nat) : Nat := d.force (ENR_CH_GAIN_LO c q) + 2 ^ 32 * d.force (ENR_CH_GAIN_HI c q)

/-- The offset of quantity `q`. -/
def Dev.offset (d : Dev) (c q : Nat) : Int := toInt 32 (d.force (ENR_CH_OFF c q))

def Dev.acc (d : Dev) (c q : Nat) : Nat := d.get2 (ENR_ACC_LO c q) (ENR_ACC_HI c q)
def Dev.ivl (d : Dev) (c q : Nat) : Nat := d.get2 (ENR_IVL_LO c q) (ENR_IVL_HI c q)
def Dev.putAcc (c q v : Nat) (d : Dev) : Dev := d.set2 (ENR_ACC_LO c q) (ENR_ACC_HI c q) (min v (2 ^ 64 - 1))
def Dev.putIvl (c q v : Nat) (d : Dev) : Dev := d.set2 (ENR_IVL_LO c q) (ENR_IVL_HI c q) (min v (2 ^ 64 - 1))

/-! ## Flags of the open interval (R360) -/

/-- Set a flag of channel `c`. -/
def ivFlag (c i : Nat) (d : Dev) : Dev := { d with enr := { d.enr with flags := modAt d.enr.flags c (fun f => setBit f i true) } }

/-- Set a flag of every channel. -/
def ivFlagAll (i : Nat) (d : Dev) : Dev := { d with enr := { d.enr with flags := d.enr.flags.map (fun f => setBit f i true) } }

/-! ## Pulses (R353-R357) -/

/-- A sample period in quarter ns of elapsed TBC time: 1 ms. -/
def sampleQ : Nat := 4000000

/-- The confirmed level of input `i`. -/
def Dev.plsLevel (d : Dev) (i : Nat) : Bool := bitAt d.enr.levels i

/-- The confirmed active state of the two inputs of channel `c`. -/
def Dev.levelA (d : Dev) (c : Nat) : Bool := d.plsLevel (2 * c) != (d.force (ENR_CH_CFG_pol_a c) == 1)
def Dev.levelB (d : Dev) (c : Nat) : Bool :=
  d.plsLevel (2 * c + 1) !=
    (if d.force (ENR_CH_CFG_mode c) = 1 then d.force (ENR_CH_CFG_dir_pol c) == 1 else d.force (ENR_CH_CFG_pol_b c) == 1)

/-- Show the confirmed states and the pulse count of channel `c`. -/
def showChannel (c : Nat) (d : Dev) : Dev :=
  let d := (d.setFlag (ENR_CH_STAT_level_a c) (d.levelA c)).setFlag (ENR_CH_STAT_level_b c) (d.levelB c)
  d.set (ENR_CH_PULSES c) (d.enr.counts.getD (2 * c) 0 + d.enr.counts.getD (2 * c + 1) 0)

/-- Book a pulse of channel `c` to the import (0) or export (1) quantity of its kind. -/
def book (c dir : Nat) (d : Dev) : Dev :=
  let q := d.chPair c + dir
  let g := d.gain c q
  let d := (d.putAcc c q (d.acc c q + g)).putIvl c q (d.ivl c q + g)
  let b := setBit (d.enr.booked.getD c 0) dir true
  let d := { d with enr := { d.enr with booked := setAt d.enr.booked c b, early := d.enr.early || d.enr.ivStart.isNone } }
  if b = 3 then ivFlag c 1 d else d

/-- REVERSAL_NEAR_PULSE (R356): the direction was confirmed at this sample or at either of the two before it. -/
def reversalNear (c t e : Nat) (d : Dev) : Dev :=
  match lookup c d.enr.lastDir with
  | none => d
  | some (de, dt) =>
    if e / sampleQ ≤ de / sampleQ + 2 then
      raiseMs 115 (legalLog 0x1105 c (b2n (d.levelB c)) (d.get (ENR_CH_PULSES c)) ((t - dt) / 1000) d)
    else d

/-- A pulse is confirmed at input `i` (R353-R357). -/
def pulse (i : Nat) (d : Dev) : Dev :=
  let c := i / 2
  let mode := d.force (ENR_CH_CFG_mode c)
  let e := d.time.elapsed
  if !d.chOn c || (i % 2 = 1 && mode != 2) then d
  else
    let near := match lookup i d.enr.lastPulse with
      | none => false
      | some le => e < le + 20 * sampleQ
    let d := { d with enr := { d.enr with
      counts := modAt d.enr.counts i (fun n => (n + 1) % 2 ^ 64), lastPulse := insertKey i e d.enr.lastPulse } }
    let d := showChannel c d
    let d := if near then raiseMs 115 (ivFlag c 4 (d.inc (ENR_CH_STAT_rate_viol c))) else d
    if mode = 0 then book c (d.force (ENR_CH_CFG_single_dir c)) d
    else if mode = 1 then reversalNear c d.now e (book c (b2n (d.levelB c)) d)
    else book c (i % 2) d

/-! ## Intervals (R358-R361, R364) -/

/-- Boundaries are evaluated while UTC is valid and the time state is not INVALID (R358). -/
def Dev.ivActive (d : Dev) : Bool := d.flag TBS_UTC_valid && d.timeState != 0

/-- The end of the open interval in calendar time. -/
def Dev.ivEnd (d : Dev) (start : Nat) : Int := (start : Int) - d.enr.ivOff * 1000000000 + minuteNs d.enr.ivLen

/-- The start of the interval of `len` minutes that holds the calendar time `cal`. -/
def ivFloor (len : Nat) (cal : Int) : Int := cal / minuteNs len * minuteNs len

/-- Write the record of a channel to the host queue of the energy block (R359). -/
def ivRecord (code c flags len off start imp exp : Nat) (d : Dev) : Dev :=
  if d.force ENR_CFG_rec_en = 1 then
    queueRecord (d.force ENR_CFG_queue)
      (toLe 2 code ++ toLe 2 (flags + 256 * d.force (ENR_CH_CFG_kind c)) ++ toLe 1 c ++ toLe 1 len ++ toLe 2 off ++ toLe 8 start
        ++ toLe 8 imp ++ toLe 8 exp) d
  else d

/-- Add an offset and hold the result at 0 (R359). -/
def withOffset (v : Nat) (o : Int) : Nat × Bool := (natOf ((v : Int) + o), decide ((v : Int) + o < 0))

/-- The offsets of channel `c` enter its totals and accumulators. -/
def applyOffsets (c : Nat) (d : Dev) : Dev :=
  forL (d.chUsed c) (fun q d =>
    let (t, x) := withOffset (d.ivl c q) (d.offset c q)
    let (a, y) := withOffset (d.acc c q) (d.offset c q)
    let d := (d.putIvl c q t).putAcc c q a
    if x || y then ivFlag c 5 d else d) d

/-- Close the open interval of channel `c`: the offsets, unless it is INCOMPLETE, and its record. -/
def ivCloseCh (start c : Nat) (d : Dev) : Dev :=
  if !d.chOn c then d
  else
    let d := if bitAt (d.enr.flags.getD c 0) 2 then d else applyOffsets c d
    let q := d.chPair c
    ivRecord 0x0F01 c (d.enr.flags.getD c 0) d.enr.ivLen (ofInt 16 d.enr.ivOff) start (d.ivl c q) (d.ivl c (q + 1)) d

/-- Close the open interval of every enabled channel; event source 114. -/
def ivClose (start : Nat) (d : Dev) : Dev :=
  let d := forN 16 (ivCloseCh start) d
  let d := forN 16 (fun c d => forN 4 (fun q d => d.putIvl c q 0) d) d
  raise 114 { d with enr := { d.enr with
    booked := List.replicate 16 0, flags := List.replicate 16 0, ivStart := none, restored := false } }

/-- Staged parameters take effect at a boundary; a changed interval at a whole hour of calendar time (R365). -/
def ivApply (hour : Bool) (d : Dev) : Dev :=
  let cfg := d.force ENR_CFG_rec_en != d.get ENR_CFG_rec_en || d.force ENR_CFG_queue != d.get ENR_CFG_queue
  let all := cfg || (hour && d.enr.interval != d.get ENR_CFG_interval)
  let chs := (List.range 16).foldl (fun m c =>
    if (channelKeys c).any (fun k => (lookup k d.enr.held).any (fun w => w != d.word k)) then setBit m c true else m) 0
  let d := { d with enr := { d.enr with
    held := [], interval := if hour then d.get ENR_CFG_interval else d.enr.interval, changed := if all then 2 ^ 16 - 1 else chs } }
  forN 16 showChannel d

/-- Open the interval of `start` (calendar), with INCOMPLETE where it does not begin now. What pulses booked before it was open have set
stays (R364). -/
def ivOpen (start : Int) (incomplete : Bool) (d : Dev) : Dev :=
  let off := d.getI TBS_UTC_utc_offset
  let unc := d.timeState != 3 || d.enr.early
  let sealed := d.flag ENR_SEAL_STAT_open
  let fl (c : Nat) : Nat := b2n unc + 4 * b2n incomplete + 64 * b2n (bitAt d.enr.changed c) + 128 * b2n sealed
  { d with enr := { d.enr with
    ivStart := some (natOf (start + off * 1000000000)), ivOff := off, ivLen := intervalMinutes d.enr.interval,
    flags := (List.range 16).map (fun c => d.enr.flags.getD c 0 ||| fl c), changed := 0, early := false, restored := false } }

/-- A boundary is reached: the open interval closes and the next one opens (R359, R365). -/
def ivBoundary (start : Nat) (d : Dev) : Dev :=
  let e := d.ivEnd start
  let d := ivApply (e % minuteNs 60 == 0) (ivClose start d)
  ivOpen e false d

/-- INTERVAL_BOUNDARY: the end of the open interval is reached while boundaries are evaluated. -/
def intervalBoundary (d : Dev) : Dev :=
  match d.enr.ivStart with
  | none => d
  | some start =>
    if d.ivActive && d.enr.evalOn then
      let off := d.getI TBS_UTC_utc_offset
      atTime (natOf (d.ivEnd start + off * 1000000000)) (ivBoundary start) d
    else d

/-- Boundaries that time has passed are taken before a pulse is booked (R358). -/
def ivCatchUp (d : Dev) : Dev :=
  match d.enr.ivStart with
  | none => d
  | some start =>
    if d.ivActive && d.enr.evalOn && d.ivEnd start ≤ d.calendar then
      iterate (natOf ((d.calendar - d.ivEnd start) / minuteNs 1) + 1)
        (fun d => match d.enr.ivStart with
          | none => none
          | some s => if d.ivEnd s ≤ d.calendar then some (ivBoundary s d) else none) d
    else d

/-- The calendar time has moved out of the open interval: it closes with INCOMPLETE, whole intervals skipped are covered by a
gap record of each channel, and the interval of the current time opens with INCOMPLETE (R361). A changed length counts from the first whole
hour on (R365); the record has the length of the first interval skipped (DESIGN CHOICE, log entry 200). -/
def ivJump (start : Nat) (step : Bool) (d : Dev) : Dev :=
  let e := d.ivEnd start
  let cal := d.calendar
  let d := ivFlagAll 2 d
  let d := ivClose start (if step then ivFlagAll 3 d else d)
  let fwd := e ≤ cal
  let old := intervalMinutes d.enr.interval
  let d := if fwd then ivApply (decide (cal / minuteNs 60 * minuteNs 60 ≥ e)) d else d
  let len := intervalMinutes d.enr.interval
  let cur := ivFloor len cal
  let hour := min cur (-(-e / minuteNs 60) * minuteNs 60)
  let gap := natOf ((hour - e) / minuteNs old) + natOf ((cur - max e hour) / minuteNs len)
  let off := d.getI TBS_UTC_utc_offset
  let d := if fwd && 0 < gap then
      forN 16 (fun c d => if d.chOn c then ivRecord 0x0F02 c 4 (if e < hour then old else len) (ofInt 16 off) (natOf (e + off * 1000000000)) 0 gap d else d) d
    else d
  ivOpen cur true d

/-- Boundary evaluation runs after a step, a change of UTC or a resumption (R361, R364). -/
def enrEval (step : Bool) (d : Dev) : Dev :=
  let step := step || d.enr.stepped
  if !d.ivActive then { d with enr := { d.enr with evalOn := false, stepped := step } }
  else
    let d := { d with enr := { d.enr with evalOn := true, stepped := false } }
    match d.enr.ivStart with
    | none =>
      let cur := ivFloor (intervalMinutes d.enr.interval) d.calendar
      ivOpen cur (cur != d.calendar) d
    | some start =>
      let d := if d.enr.restored then { d with enr := { d.enr with ivOff := d.getI TBS_UTC_utc_offset } } else d
      let e := d.ivEnd start
      if e - minuteNs d.enr.ivLen ≤ d.calendar && d.calendar < e then
        let d := if step then ivFlagAll 3 d else d
        let d := if d.enr.restored then ivFlagAll 2 d else d
        { d with enr := { d.enr with restored := false } }
      else ivJump start step d

/-- The operating seconds as they are shown (ENR_OPSEC). -/
def opSecSync (d : Dev) : Dev :=
  d.set2 ENR_OPSEC_LO ENR_OPSEC_HI d.opSec

/-- After every command: operating seconds, resumption of boundary evaluation, and the flags of the open interval that hold at
any of its instants (R360). -/
def enrSettle (d : Dev) : Dev :=
  let d := opSecSync d
  let d := if d.ivActive != d.enr.evalOn then enrEval false d else d
  let open_ := d.enr.ivStart.isSome
  let d := if open_ && d.timeState != 3 then ivFlagAll 0 d else d
  if open_ && d.flag ENR_SEAL_STAT_open then ivFlagAll 7 d else d

/-! ## Confirmations (R353, R356) -/

/-- The point of the sampling grid at the present instant, or the next one: a sample is taken at the first tick at or after its point, so
an instant less than a tick past one is that sample (R353). -/
def Dev.samplePoint (d : Dev) : Nat :=
  let e := d.time.elapsed
  if e % sampleQ < d.tickElapsed then e / sampleQ * sampleQ else (e / sampleQ + 1) * sampleQ

/-- The `k`-th next sample is taken; the current instant is a sample where it lies on one. -/
def atSample (k : Nat) (f : Dev → Dev) (d : Dev) : Dev :=
  let due := d.samplePoint + k * sampleQ
  let d := passElapsed due d
  if d.time.elapsed < due || d.enr.halted then d else f d

/-- Input `i` confirms a level after `run` consecutive samples at it, at least deb_ms; a direction input of mode 1 confirms its
direction, an active level elsewhere is a pulse. -/
def plsConfirm (i : Nat) (high : Bool) (run : Nat) (d : Dev) : Dev :=
  let c := i / 2
  if run < d.force (ENR_CH_CFG_deb_ms c) || d.plsLevel i = high then d
  else
    let d := ivCatchUp d
    let d := showChannel c { d with enr := { d.enr with levels := setBit d.enr.levels i high } }
    if i % 2 = 1 && d.force (ENR_CH_CFG_mode c) = 1 then
      { d with enr := { d.enr with lastDir := insertKey c (d.time.elapsed, d.now) d.enr.lastDir } }
    else if (if i % 2 = 0 then d.levelA c else d.levelB c) then pulse i d else d

/-- Within one sample directions are confirmed before pulses (R356): once a pulse of the channel has been confirmed at the sample
of the present instant, a direction input of it has its turn at the next one. -/
def turnOf (i k : Nat) (d : Dev) : Nat :=
  if i % 2 = 1 && d.force (ENR_CH_CFG_mode (i / 2)) = 1 && lookup (i - 1) d.enr.lastPulse == some d.time.elapsed then k + 1 else k

/-- PULSE_CONFIRM: input `i`, at the `k`-th next sample. -/
def pulseConfirm (i : Nat) (high : Bool) (run k : Nat) (d : Dev) : Dev := atSample (turnOf i k d) (plsConfirm i high run) d

/-- DIRECTION_CONFIRM: the direction input of channel `c`. -/
def directionConfirm (c : Nat) (high : Bool) (run k : Nat) (d : Dev) : Dev := 
  atSample (turnOf (2 * c + 1) k d) (plsConfirm (2 * c + 1) high run) d

/-! ## Saves (R362, R363, R469) -/

/-- The part of a save that holds channel `c`. -/
def saveChannel (d : Dev) (c : Nat) : List Byte :=
  (List.range 4).flatMap (fun q => toLe 8 (d.acc c q)) ++ (List.range 4).flatMap (fun q => toLe 8 (d.ivl c q))
    ++ toLe 8 (d.enr.counts.getD (2 * c) 0) ++ toLe 8 (d.enr.counts.getD (2 * c + 1) 0)
    ++ toLe 2 (d.enr.flags.getD c 0) ++ List.replicate 14 0

/-- The 20,480 bytes of a save (R362). -/
def saveBytes (d : Dev) : List Byte :=
  let time := if d.timeState = 0 then 0 else d.now
  let body := toLe 4 d.enr.saveSeq ++ toLe 4 d.nvm.cycles ++ toLe 8 (d.enr.opBase + d.elapsedSince d.enr.opMark) ++ toLe 8 time
    ++ toLe 8 (d.enr.ivStart.getD 0) ++ List.replicate 32 0 ++ (List.range 16).flatMap (saveChannel d)
    ++ toLe 4 d.le.retainId ++ toLe 4 d.le.retainLen ++ toLe 4 d.le.progId ++ toLe 4 0
    ++ padTo 16384 (d.le.retained.take 16384) ++ List.replicate 2476 0
  body ++ toLe 4 (crc32c body)

/-- A save starts in the next slot, and the period starts anew (R362, R365); while one is in progress it waits. -/
def saveStart (d : Dev) : Dev :=
  let ops := d.enr.opBase + d.elapsedSince d.enr.opMark
  let d := { d with enr := { d.enr with saveDue := ops + d.get ENR_SAVE_period_s } }
  match d.nvm.ring with
  | [] => d
  | r =>
    if d.enr.saving.isSome then { d with enr := { d.enr with again := true } }
    else
      let pos := d.enr.next % r.length
      { d with enr := { d.enr with again := false, saving := some { bytes := saveBytes d, pos := pos, first := r.getD pos 0 } } }

/-- A save has ended: the NVM is free, and one that waits for it starts. -/
def saveEnd (d : Dev) : Dev :=
  let d := { nvmFree d with enr := { d.enr with saving := none } }
  if d.enr.again then saveStart d else d

/-- PERIODIC_SAVE: the operating seconds reach the next save. A save that falls due during an orderly shutdown is replaced by
that of its step 3 (R466). -/
def periodicSave (d : Dev) : Dev :=
  let due := d.enr.opMark + (d.enr.saveDue - d.enr.opBase) * 4000000000
  let d := passElapsed due d
  if d.time.elapsed < due || d.enr.saving.isSome || d.pwr.shut != 0 then d else saveStart d

/-- The slot at a place of the ring is bad: a spare takes its place, or the ring becomes shorter (R469). -/
def slotBad (pos : Nat) (d : Dev) : Dev :=
  let d := d.inc ENR_SAVE_STAT_bad_slots
  if d.nvm.spares < 32 then
    let d := { d with nvm := { d.nvm with ring := setAt d.nvm.ring pos (64 + d.nvm.spares), spares := d.nvm.spares + 1 } }
    raise 11 (d.set NVM_WEAR_spares_used d.nvm.spares)
  else
    let d := { d with nvm := { d.nvm with ring := d.nvm.ring.take pos ++ d.nvm.ring.drop (pos + 1) } }
    d.set NVM_WEAR_ring_len d.nvm.ring.length

/-- A save whose read-back did not match (R362): the slot is bad and the next one is written at once; the third failure ends it. -/
def saveMismatch (s : SaveSt) (d : Dev) : Dev :=
  let spare := d.nvm.spares < 32
  let d := slotBad s.pos d
  let n := d.nvm.ring.length
  let pos := if n = 0 then 0 else (if spare then s.pos + 1 else s.pos) % n
  if 3 ≤ s.fails + 1 || n = 0 then
    let d := { d with enr := { d.enr with next := pos } }
    saveEnd (raise 117 (legalLog 0x1104 (leAt s.bytes 0 4) s.first 0 0 (d.setFlag ENR_SAVE_STAT_fail true)))
  else { d with enr := { d.enr with saving := some { s with pos := pos, fails := s.fails + 1 } } }

/-- SAVE_COMPLETE: the slot has been written and read back; the write has waited for those before it (R468). -/
def saveComplete (ok : Bool) (d : Dev) : Dev :=
  match d.enr.saving with
  | none => d
  | some s =>
    let slot := d.nvm.ring.getD s.pos 0
    if d.nvmOwner != some .save then d
    else if ok then
      let d := { d with nvm := { d.nvm with saves := insertKey slot s.bytes d.nvm.saves } }
      let d := (d.set ENR_SAVE_STAT_slot s.pos).set2 ENR_SAVED_OPSEC_LO ENR_SAVED_OPSEC_HI (leAt s.bytes 8 8)
      saveEnd { d with enr := { d.enr with next := (s.pos + 1) % d.nvm.ring.length, saveSeq := (d.enr.saveSeq + 1) % 2 ^ 32 } }
    else saveMismatch s { d with nvm := { d.nvm with saves := eraseKey slot d.nvm.saves } }

/-- The newest save and its slot: the valid slot with the highest sequence. -/
def Dev.saveNewest (d : Dev) : Option (Nat × List Byte) :=
  d.nvm.saves.foldl (fun m p =>
    if saveValid p.2 then
      match m with
      | none => some p
      | some b => if leAt b.2 0 4 < leAt p.2 0 4 then some p else m
    else m) none

/-- Channel `c` as a save holds it. -/
def restoreChannel (b : List Byte) (c : Nat) (d : Dev) : Dev :=
  let o := 0x40 + 96 * c
  let d := forN 4 (fun q d => (d.putAcc c q (leAt b (o + 8 * q) 8)).putIvl c q (leAt b (o + 32 + 8 * q) 8)) d
  let d := { d with enr := { d.enr with
    counts := setAt (setAt d.enr.counts (2 * c) (leAt b (o + 64) 8)) (2 * c + 1) (leAt b (o + 72) 8),
    flags := setAt d.enr.flags c (leAt b (o + 80) 2),
    booked := setAt d.enr.booked c (if bitAt (leAt b (o + 80) 2) 1 then 3 else 0) } }
  showChannel c d

/-- The mask of enabled channels. -/
def Dev.chMask (d : Dev) : Nat := (List.range 16).foldl (fun m c => if d.chOn c then setBit m c true else m) 0

/-- Start-up step 4 (R357, R363): a valid save is restored, or the absence of one is logged. -/
def saveRestore (d : Dev) : Dev :=
  match d.saveNewest with
  | none => raise 117 (legalLog 0x1103 d.nvm.cycles 0 0 0 { d with enr := { d.enr with opMark := d.time.elapsed, opBase := 0 } })
  | some (slot, b) =>
    let ops := leAt b 8 8
    let pos := d.nvm.ring.findIdx (fun x => x == slot)
    let start := leAt b 0x18 8
    let d := forN 16 (restoreChannel b) d
    let d := { d with enr := { d.enr with
      opBase := ops, opMark := d.time.elapsed, saveDue := ops + d.get ENR_SAVE_period_s, saveSeq := (leAt b 0 4 + 1) % 2 ^ 32,
      next := if d.nvm.ring.length = 0 then 0 else (pos + 1) % d.nvm.ring.length,
      ivStart := if start = 0 then none else some start, ivLen := intervalMinutes d.enr.interval,
      restored := start != 0, evalOn := false
      early := start == 0 && (List.range 16).any (fun c => (List.range 4).any (fun q => leAt b (0x60 + 96 * c + 8 * q) 8 != 0)) } }
    let d := ((d.setFlag ENR_SAVE_STAT_restored true).set ENR_SAVE_STAT_slot pos).set2 ENR_SAVED_OPSEC_LO ENR_SAVED_OPSEC_HI ops
    let d := opSecSync d
    let d := legalLog 0x1101 (leAt b 0 4) ops d.nvm.cycles d.chMask d
    let d := forN 16 (fun c d => if d.chOn c then forL (d.chUsed c) (fun q d =>
      legalLog 0x1102 (c * 4 + q) (d.acc c q) (d.acc c q / 2 ^ 32) 0 d) d else d) d
    raise 117 d

/-! ## The seal (R366, R367) -/

/-- The seal after a change of its conditions: an opening or a closing is logged and raises source 116. -/
def sealMove (cause : Nat) (d : Dev) : Dev :=
  let now := d.flag ENR_SEAL_STAT_latch || d.flag ENR_SEAL_STAT_procedure
  let was := d.flag ENR_SEAL_STAT_open
  let d := d.setFlag ENR_SEAL_STAT_open now
  if now && !was then
    let d := { d.inc ENR_SEAL_STAT_openings with enr := { d.enr with accepted := 0 } }
    raise 116 (legalLog 0x1107 cause (d.get ENR_SEAL_STAT_openings) 0 0 d)
  else if was && !now then raise 116 (legalLog 0x1108 d.enr.accepted cause 0 0 d)
  else d

/-- Show the latch and the contact of the island. -/
def sealShow (d : Dev) : Dev :=
  (d.setFlag ENR_SEAL_STAT_latch d.island.sealLatch).setFlag ENR_SEAL_STAT_contact d.island.contact

/-- SEAL_IN changes at its ball: asserted for 10 µs it sets the latch of the island (R366, R492); the running device sees the
opening. -/
def sealContact (asserted long : Bool) (d : Dev) : Dev :=
  let d := { d with island := { d.island with contact := asserted, sealLatch := d.island.sealLatch || (asserted && long && d.island.vstby) } }
  if d.pwr.held then d else if d.get CKP_PWR_STAT_step < 4 then sealShow d else sealMove 1 (sealShow d)

/-- OPEN (R366): refused while locked; the key is compared and cleared. -/
def sealOpen (d : Dev) : Dev :=
  if d.flag ENR_SEAL_STAT_locked then { d with enr := { d.enr with key := 0 } }
  else if d.enr.key = d.nvm.sealKey then
    let d := { d with enr := { d.enr with key := 0, procEnd := some (d.time.elapsed + 3600 * 4000000000) } }
    sealMove 2 ((d.set ENR_SEAL_STAT_fails 0).setFlag ENR_SEAL_STAT_procedure true)
  else
    let n := d.get ENR_SEAL_STAT_fails + 1
    let d := { d with enr := { d.enr with key := 0 } }
    let d := (d.set ENR_SEAL_STAT_fails n).setFlag ENR_SEAL_STAT_locked (4 ≤ n)
    raise 116 (legalLog 0x1109 n (b2n (decide (4 ≤ n))) 0 0 d)

/-- CLOSE (R366): the opening by procedure ends, and the latch clears while SEAL_IN is released. -/
def sealClose (d : Dev) : Dev :=
  let d := if d.island.contact then d else { d with island := { d.island with sealLatch := false } }
  let d := { d with enr := { d.enr with procEnd := none } }
  sealMove 1 ((sealShow d).setFlag ENR_SEAL_STAT_procedure false)

/-- 3,600 s after OPEN the opening by procedure ends. -/
def sealExpire (d : Dev) : Dev :=
  match d.enr.procEnd with
  | none => d
  | some e =>
    let d := passElapsed e d
    if d.time.elapsed < e then d
    else sealMove 2 ({ d with enr := { d.enr with procEnd := none } }.setFlag ENR_SEAL_STAT_procedure false)

/-- Is the register at `off` a legal parameter, or one of those of the seal, which only MG writes (R365, R366)? -/
def sealOff (off : Nat) : Bool := off == 0xE0020 || off == 0xE0024 || off == 0xE0028

/-- A write of ENR_SEAL_CMD by MG. -/
def sealCmdWrite (v : Nat) (d : Dev) : Dev :=
  if v % 4 = 1 then sealOpen d else if v % 4 = 2 then sealClose d else d

/-- A write of the seal key by MG. -/
def sealKeyWrite (hi : Bool) (v : Nat) (d : Dev) : Dev :=
  { d with enr := { d.enr with key := if hi then d.enr.key % 2 ^ 32 + v * 2 ^ 32 else d.enr.key / 2 ^ 32 * 2 ^ 32 + v } }

/-- A legal parameter is written by MG (R365, R377); `new` is the word after reserved encodings and reserved bits are left out. -/
def legalParam (off new : Nat) (d : Dev) : Dev :=
  if !d.flag ENR_SEAL_STAT_open then d.inc ENR_DENIED
  else if !d.legalAccepts then d.inc EVR_LEG_REFUSED
  else
    let old := d.word off
    let keep := off == ENR_SAVE.key || (lookup off d.enr.held).isSome
    let d := legalLog 0x1106 off old.toNat new 2 d
    let d := if keep then d else { d with enr := { d.enr with held := insertKey off old d.enr.held } }
    { d.putWord off (BitVec.ofNat 32 new) with enr := { d.enr with accepted := d.enr.accepted + 1 } }

end Sys2Proof.Machine
end

