-- ==== Sys2Proof/Machine/Power.lean ====
section
/-! DEFINITION. Resets, the standby island, temperature, the orderly shutdown, NVM commands, DEV_OK, the DOUT monitor and the TAP
(R455-R482, R365-R367). -/
namespace Sys2Proof.Machine

/-! ## What a store writes (R468, R472) -/

/-- The first `n` bytes of a store are in its slot. -/
def slotWrite (s : StoreSt) (n : Nat) (d : Dev) : Dev :=
  let put (old : List Byte) : List Byte := if s.cmd = 2 then [] else s.bytes.take n ++ old.drop n
  let d := if s.slot = 1 then { d with nvm := { d.nvm with slotA := put d.nvm.slotA } }
    else { d with nvm := { d.nvm with slotB := put d.nvm.slotB } }
  if d.get BND_STAT_active = s.slot then d.setFlag BND_STAT_slot_changed true else d

/-- The persistent settings of their bytes: offset and value (R470). -/
def settingsOf (bs : List Byte) : List (Nat × Nat) :=
  (List.range (bs.length / 8)).map (fun i => (leAt bs (8 * i) 4, leAt bs (8 * i + 4) 4))

/-- The effect of a command whose read-back matches. -/
def nvmEffect (s : StoreSt) (d : Dev) : Dev :=
  match s.cmd with
  | 1 | 2 => slotWrite s s.bytes.length d
  | 3 => { d with nvm := { d.nvm with settings := settingsOf s.bytes } }
  | 4 => { d with nvm := { d.nvm with ownerKey := s.bytes } }.setFlag BND_STAT_key_enrolled true
  | 5 => { d with nvm := { d.nvm with minver := leAt s.bytes 0 4 } }.set BND_MINVER (leAt s.bytes 0 4)
  | _ => { d with nvm := { d.nvm with sealKey := leAt s.bytes 0 8 } }

/-- Written bytes that do not read back as they were meant: one of the first `n`, which and how is open, differs (R472; DESIGN CHOICE,
log entry 136). -/
def flawed (n : Nat) (bs : List Byte) (d : Dev) : List Byte × Dev :=
  let (p, d) := d.drawNat
  let (x, d) := d.drawNat
  let i := p % max n 1
  (bs.set i (bs.getD i 0 ^^^ BitVec.ofNat 8 (1 + x % 255)), d)

/-- A read-back that does not match leaves the area as written (R472). Of an image the flaw lies within its signed size, so that the slot
fails its verification; an erased slot keeps a byte. The registers that show identity change at the next start-up. -/
def nvmSpoil (s : StoreSt) (d : Dev) : Dev :=
  match s.cmd with
  | 1 =>
    let (bs, d) := flawed (min s.bytes.length (imgSize s.bytes)) s.bytes d
    slotWrite { s with bytes := bs } bs.length d
  | 2 =>
    let (bs, d) := flawed 1 [0xFF] d
    slotWrite { s with cmd := 1, bytes := bs } bs.length (slotWrite s 0 d)
  | c =>
    let (bs, d) := flawed s.bytes.length s.bytes d
    let n := (nvmEffect { s with bytes := bs } d).nvm
    if c = 3 then { d with nvm := { d.nvm with settings := n.settings } }
    else { d with nvm := { d.nvm with ownerKey := n.ownerKey, minver := n.minver, sealKey := n.sealKey } }

/-- A store is cut short: of the chunk in progress an open part is written, and settings and identity fields hold the old or the new
content (log entry 182). -/
def storeCut (d : Dev) : Dev :=
  match d.pwr.store with
  | none => d
  | some s =>
    let (n, d) := d.drawNat
    if s.cmd = 1 then slotWrite s (min (s.done + n % 65537) s.bytes.length) d else if n % 2 = 0 then d else nvmEffect s d

/-! ## Resets (R456, R460, R462) -/

/-- The device is reset; `cause` is the bit of CKP_RST_CAUSE. The NVM, the island, the hosts' memories and the TAP stay; a save, a
legal record or a chunk of a store in the course of being written is cut short. -/
def deviceReset (cause : Option Nat) (d : Dev) : Dev :=
  let d := if d.nvmOwner = some .store then storeCut d else d
  let nvm := match d.nvmOwner, d.enr.saving with
    | some .append, _ => { d.nvm with torn := d.nvm.torn + 1 }
    | some .save, some s => { d.nvm with saves := eraseKey (d.nvm.ring.getD s.pos 0) d.nvm.saves }
    | _, _ => d.nvm
  let island := match cause with
    | none => d.island
    | some c => { d.island with causes := setBit d.island.causes c true }
  { nvm := nvm, island := island, hostA := d.hostA, hostB := d.hostB, free := d.free, tap := d.tap,
    pwr := { held := true, thermHold := d.pwr.thermHold } }

/-- PORN_ASSERT: PORn has been low for the 1 µs that is taken as a reset (R492; DEDUCED, log entry 202). -/
def pornAssert (d : Dev) : Dev := deviceReset (some 0) d

/-- SUPPLY_MONITOR_TRIP: rails that fall after PWR_EN went low were removed by the orderly shutdown (R461). -/
def supplyTrip (d : Dev) : Dev :=
  let d := deviceReset (some 1) d
  if d.island.pwrEn then { d with island := { d.island with orderly := false } } else d

/-- RESET_RELEASE (R456): with VSTBY up, the rails enabled and no thermal hold, the start-up begins (step 1). -/
def resetRelease (d : Dev) : Dev :=
  if (d.pwr.held || d.get CKP_PWR_STAT_step = 0) && d.island.vstby && d.island.pwrEn && !d.pwr.thermHold then
    let d := { d with pwr := { d.pwr with held := false } }
    let d := (d.set CKP_RST_CAUSE_cause d.island.causes).setFlag CKP_PWR_STAT_last_off d.island.orderly
    stepDone 1 (d.setFlag ENR_SEAL_STAT_contact d.island.contact)
  else d

/-- Clear reset causes (W1C): the record is the island's. -/
def resetCauseClear (v : Nat) (d : Dev) : Dev :=
  let c := (List.range 4).foldl (fun c i => if bitAt v i then setBit c i false else c) d.island.causes
  { d with island := { d.island with causes := c } }.set CKP_RST_CAUSE_cause c

/-- CKP_RESET by master `m` (R462, R428). -/
def softReset (m v : Nat) (d : Dev) : Dev :=
  if v % 256 != 0x5E then d
  else if d.granted .admin 1 m then deviceReset (some 3) d else violation .admin m 1 0x10808 d

/-- TJ_MEASURE: Tj in 0.25 °C (R460). -/
def tjMeasure (tj : Int) (d : Dev) : Dev :=
  if d.pwr.held then
    if tj < 115 * 4 then { d with pwr := { d.pwr with thermHold := false } } else d
  else
    let run := if 125 * 4 ≤ tj then d.pwr.thermRun + 1 else 0
    if 3 ≤ run then deviceReset (some 2) { d with pwr := { d.pwr with thermHold := true } }
    else
      let d := { d with pwr := { d.pwr with thermRun := run } }.setI CKP_THERM_tj tj
      let trip : Int := d.get CKP_THERM_CFG_trip_c
      let was := d.flag CKP_THERM_trip
      let now := if was then decide ((trip - 5) * 4 ≤ tj) else decide (trip * 4 ≤ tj)
      if was = now then d else raise 7 (d.setFlag CKP_THERM_trip now)

/-! ## The standby island (R461, R478, R492) -/

/-- VSTBY_RISE: PWR_EN goes high and the SEAL_IN latch sets. -/
def vstbyRise (d : Dev) : Dev :=
  if d.island.vstby then d
  else { d with island := { d.island with vstby := true, pwrEn := true, sealLatch := true } }

/-- VSTBY_LOSS: the island's state is lost, and the device is held in reset. -/
def vstbyLoss (d : Dev) : Dev :=
  { deviceReset none d with
    island := { vstby := false, pwrEn := false, causes := 0, contact := d.island.contact } }

/-- WAKE_EDGE: WAKE takes a rising edge, after 10 µs low and then 10 µs high (R492; DEDUCED, log entry 202). An edge before 100 ms after
PWR_EN went low is remembered. -/
def wakeEdge (d : Dev) : Dev :=
  if !d.island.vstby then d
  else if d.island.holdOff || (d.island.pwrEn && d.pwr.shut != 0) then { d with island := { d.island with wake := true } }
  else { d with island := { d.island with pwrEn := true } }

/-- WAKE_HOLDOFF_EXPIRE. -/
def wakeExpire (d : Dev) : Dev :=
  if !d.island.holdOff then d
  else { d with island := { d.island with holdOff := false, pwrEn := d.island.wake, wake := false } }

/-! ## DEV_OK and the DOUT monitor (R465, R482) -/

/-- DEV_OK is high. -/
def Dev.devOk (d : Dev) : Bool :=
  !d.pwr.held && 9 ≤ d.get CKP_PWR_STAT_step && !d.bnd.rebinding && d.flag BND_STAT_locked && d.get SPN_DIAG_standing == 0
    && d.pwr.shut == 0

/-- DOUT_FAULT: monitor and expected state of DOUTn have differed without a break for 200 µs. -/
def doutFault (n : Nat) (d : Dev) : Dev :=
  match lookup n d.le.doutDiff with
  | none => d
  | some t => atElapsed (t + 800000) (fun d => d.set DIO_DOUT_FAULT_fault (setBit (d.get DIO_DOUT_FAULT_fault) n true)) d

/-! ## Balls (R477) -/

/-- What a ball shows; an open-drain ball and one of high impedance are released. -/
inductive Ball where
  | low | high | released
  deriving DecidableEq, Repr

/-- A push-pull ball. -/
def Ball.drive (b : Bool) : Ball := if b then .high else .low

/-- An open-drain ball. -/
def Ball.pull (b : Bool) : Ball := if b then .low else .released

/-- The main rails are off: the device is held in reset, and PWR_EN does not enable them (R461; DEDUCED, log entry 201). -/
def Dev.unpowered (d : Dev) : Bool := d.pwr.held && !(d.island.vstby && d.island.pwrEn)

/-- The device is in reset, or its clocks are lost (R17, R477). -/
def Dev.dark (d : Dev) : Bool := d.pwr.held || d.clocksLost

/-- A push-pull ball of the table of R477: high impedance while unpowered, low in reset and while clocks are lost. -/
def Dev.output (d : Dev) (b : Bool) : Ball := if d.unpowered then .released else .drive (!d.dark && b)

def Dev.doutBall (d : Dev) (n : Nat) : Ball := d.output (bitAt d.le.dout n)
def Dev.almBall (d : Dev) (k : Nat) : Ball := .pull (!d.dark && d.almLow k)
def Dev.devOkBall (d : Dev) : Ball := d.output d.devOk
def Dev.ttoBall (d : Dev) (n : Nat) : Ball := d.output (d.ttoLevel n)
def Dev.cko0Ball (d : Dev) : Ball := d.output d.cko0Level
def Dev.hbBall (d : Dev) : Ball := d.output d.hbLevel

/-- CKO1 while it gives no clock; `none` while it toggles at `Dev.cko1Khz`. -/
def Dev.cko1Ball (d : Dev) : Option Ball := if !d.dark && d.cko1Runs then none else some (d.output false)

/-- MG_MISO is driven only while MG_CS_N is low, which is within one command of the SPI. -/
def Dev.misoBall (_d : Dev) : Ball := .released

/-- TDO is driven only in Shift-DR and Shift-IR; the bit is that of the bypass register, or open (`none`). -/
def Dev.tdoBall (d : Dev) : Option Ball :=
  if d.pwr.held then some .released
  else match d.tap.ctrl with
    | .shiftDr => if d.tap.instr = .bypass then some (.drive d.tap.bypass) else none
    | .shiftIr => none
    | _ => some .released

/-- What the DDR5 balls show. -/
inductive DdrBalls where
  | highImpedance | resetLow | selfRefresh | driven
  deriving DecidableEq, Repr

def Dev.ddrBalls (d : Dev) : DdrBalls :=
  if d.unpowered then .highImpedance
  else if d.pwr.held then .resetLow
  else if d.clocksLost || d.phyHeld 7 then .selfRefresh
  else .driven

/-- The transmitter behind domain `g`, of Ethernet, PCIe or Spine-A, is quiescent: in reset, with clocks lost, or with its PHY held. -/
def Dev.txQuiescent (d : Dev) (g : Nat) : Bool := d.dark || d.phyHeld g

def Dev.fcBall (d : Dev) (k : Nat) : Ball := if d.pwr.held then .released else .drive (d.fcLevel k)
def Dev.mgIrqBall (d : Dev) : Ball := .pull (!d.pwr.held && d.mgIrq)
def Dev.pwrEnBall (d : Dev) : Ball := .drive (d.island.vstby && d.island.pwrEn)

/-- The instruction that acts when `t` is loaded: with TEST_MODE = 0 EXTEST, INTEST and CLAMP select BYPASS (R480). -/
def TapSt.selects (s : TapSt) (t : TapOp) : TapOp :=
  if s.testMode then t
  else match t with
    | .extest | .intest | .clamp => .bypass
    | t => t

/-- TAP_INSTRUCTION: the instruction goes through Capture-IR, Shift-IR and Update-IR into force, and the controller rests in
Run-Test/Idle (R480, IEEE 1149.1). -/
def tapInstruction (t : TapOp) (d : Dev) : Dev :=
  { d with tap := { d.tap with instr := d.tap.selects t, ctrl := .runTestIdle } }

/-! ## Orderly shutdown (R466) -/

/-- Step 3: pulse sampling stops and the save is written. -/
def shutSave (d : Dev) : Dev :=
  saveStart { d with enr := { d.enr with halted := true }, pwr := { d.pwr with shut := 3 } }

/-- Step 2, at the end of a logic cycle: the token is released with cause 7 and the logic engine is STOPPED, also where it is STARTING, and
a start that waits is forgotten. -/
def shutRelease (d : Dev) : Dev :=
  let d := if d.paired then pairRelease 7 d else if d.pairState = 1 then pairEnter 0 d else d
  let st := d.get LGE_STAT_state
  shutSave (if st = 1 || st = 2 || st = 3 then leStopped (swapDisarm ((d.set LGE_STAT_state 3).setFlag LGE_STAT_start_pending false)) else d)

/-- An orderly shutdown is accepted (step 1); with no cycle running step 2 follows at once. -/
def shutAccept (d : Dev) : Dev :=
  let d := ({ d with pwr := { d.pwr with shut := 1 } }.setFlag CKP_PWR_STAT_shutting_down true).set CKP_SHUT_RESULT_result 0
  if d.leRunning || d.get LGE_STAT_state = 3 then d else shutRelease d

/-- CKP_SHUTDOWN by master `m`. -/
def orderlyShutdown (m v : Nat) (d : Dev) : Dev :=
  if v % 256 != 0xD5 then d
  else if m != 2 && !d.granted .admin 1 m then violation .admin m 1 0x1080C d
  else if d.pwr.store.isSome then d.set CKP_SHUT_RESULT_result 1
  else if d.get CKP_PWR_STAT_step < 9 || d.pwr.shut != 0 then d.set CKP_SHUT_RESULT_result 2
  else shutAccept d

/-- SHUTDOWN_POWER_OFF: the save has ended and no legal record is pending; the island records ORDERLY and PWR_EN goes low. -/
def shutPowerOff (d : Dev) : Dev :=
  if d.pwr.shut = 3 && d.enr.saving.isNone && d.logs.legalQueue.isEmpty then
    { d with pwr := { d.pwr with shut := 5 }, island := { d.island with orderly := true, pwrEn := false, holdOff := true } }
  else d

/-! ## The store command (R471, R472) -/

/-- The results of NVM_STAT. -/
inductive NvmResult where
  | ok | key | right | field | busy | state | seal | denied | verifyFail
  deriving DecidableEq, Repr

def NvmResult.code : NvmResult → Nat
  | .ok => 0 | .key => 1 | .right => 2 | .field => 3 | .busy => 4 | .state => 5 | .seal => 6 | .denied => 7 | .verifyFail => 8

/-- The command that runs finishes: its result and event source 9. -/
def nvmFinish (r : NvmResult) (d : Dev) : Dev := raise 9 ((d.set NVM_STAT_result r.code).setFlag NVM_STAT_busy false)

/-- Disarm the key of a master. -/
def keyDisarm (m : Nat) (d : Dev) : Dev := { d with pwr := { d.pwr with keys := eraseKey m d.pwr.keys } }

/-- A write of NVM_KEY. -/
def nvmKeyWrite (m v : Nat) (d : Dev) : Dev :=
  let put (st : Nat) (d : Dev) : Dev := { d with pwr := { d.pwr with keys := insertKey m (st, d.time.elapsed) d.pwr.keys } }
  if v = 0x13579BDF then put 1 d
  else match lookup m d.pwr.keys with
    | some (1, _) => if v = 0xECA86420 then put 2 d else keyDisarm m d
    | _ => keyDisarm m d

/-- The key is armed and 1 ms has not passed. -/
def Dev.keyArmed (d : Dev) (m : Nat) : Bool :=
  match lookup m d.pwr.keys with
  | some (2, t) => d.time.elapsed < t + 4000000
  | _ => false

/-- NVM_KEY_EXPIRE. -/
def nvmKeyExpire (m : Nat) (d : Dev) : Dev :=
  match lookup m d.pwr.keys with
  | some (2, t) => let d := passElapsed (t + 4000000) d; if d.keyArmed m then d else keyDisarm m d
  | _ => d

/-- A command has a source. -/
def nvmSourced (c : Nat) : Bool := c == 1 || c == 3 || c == 4

/-- The bytes a command takes from its source. -/
def Dev.nvmLen (d : Dev) (c : Nat) : Nat := if c = 4 then 64 else d.get NVM_LEN

/-- The operands of a command are in range (FIELD). -/
def nvmFieldsOk (c slot : Nat) (staging : Bool) (d : Dev) : Bool :=
  let len := d.get NVM_LEN
  (if c = 1 then len ≤ 4194304 && len % 64 == 0 else if c = 3 then len ≤ 65536 && len % 8 == 0 else true)
    && (if c = 1 || c = 2 then slot == 1 || slot == 2 else true)
    && (if nvmSourced c && !staging then
      match placeOf (d.get2 NVM_SRC_LO NVM_SRC_HI) with
      | some (.dram p o) => 3 ≤ p && d.partRoom p o (d.nvmLen c) == d.nvmLen c
      | _ => false
    else true)

/-- The source is staged (R471). -/
def Dev.stagingOk (d : Dev) (c : Nat) : Bool := d.inRecovery && d.bnd.staged && d.nvmLen c ≤ d.get BND_RCV_COUNT

/-- The result of a refused command, or none (R471). -/
def nvmRefuse (m c slot : Nat) (staging : Bool) (d : Dev) : Option NvmResult :=
  let recovery := d.inRecovery
  let src := d.get2 NVM_SRC_LO NVM_SRC_HI
  if !d.keyArmed m then some .key
  else if c ≤ 5 && !recovery && !d.granted .admin 2 m then some .right
  else if !recovery && !nvmFieldsOk c slot staging d then some .field
  else if recovery && !nvmFieldsOk c slot true d then some .field
  else if d.pwr.store.isSome || ((c = 1 || c = 2) && (d.bnd.verifying.any (fun v => v.1 == slot) || d.bnd.loading == some slot)) then some .busy
  else if nvmSourced c && (if recovery then !staging || !d.stagingOk c else staging) then some .state
  else if c = 4 && !d.nvm.ownerKey.isEmpty then some .state
  else if c = 5 && d.get NVM_ARG_LO < d.get BND_MINVER then some .state
  else if c = 6 && !d.flag ENR_SEAL_STAT_open then some .seal
  else if nvmSourced c && !staging && !d.granted .read (96 + bits src 56 4) m then some .denied
  else none

/-- The bytes of a command's source. -/
def Dev.nvmSource (d : Dev) (c : Nat) (staging : Bool) : List Byte :=
  let n := d.nvmLen c
  if staging then slice d.bnd.staging 0 n
  else match placeOf (d.get2 NVM_SRC_LO NVM_SRC_HI) with
    | some (.dram p o) => d.dramRead ((d.part p).1 + o) n
    | _ => []

/-- A write of NVM_CMD by master `m`, past the fixed rules of R471. -/
def nvmCommand (m v : Nat) (d : Dev) : Dev :=
  let c := v % 16
  let slot := bits v 4 2
  let staging := bitAt v 6
  if c = 0 || 6 < c then keyDisarm m d
  else
    match nvmRefuse m c slot staging d with
    | some r => raise 9 ((keyDisarm m d).set NVM_STAT_result r.code)
    | none =>
      let bs := if nvmSourced c then d.nvmSource c staging else toLe 4 (d.get NVM_ARG_LO) ++ toLe 4 (d.get NVM_ARG_HI)
      let d := keyDisarm m d
      { d with pwr := { d.pwr with store := some { cmd := c, slot := slot, bytes := bs } } }.setFlag NVM_STAT_busy true

/-- NVM_CHUNK_DONE: 64 KiB of a slot store are written, and what waits for the NVM goes before the next (R468). -/
def nvmChunk (d : Dev) : Dev :=
  match d.pwr.store with
  | none => d
  | some s =>
    if s.cmd != 1 || d.nvmOwner != some .store then d
    else
      let n := min (s.done + 65536) s.bytes.length
      slotWrite s n { d with pwr := { d.pwr with store := some { s with done := n }, writer := none } }

/-- More than one chunk of a slot store is still to be written (R468). -/
def StoreSt.chunked (s : StoreSt) : Bool := s.cmd == 1 && decide (s.done + 65536 < s.bytes.length)

/-- NVM_CMD_DONE: the command has been read back, its last chunk written. -/
def nvmDone (ok : Bool) (d : Dev) : Dev :=
  match d.pwr.store with
  | none => d
  | some s =>
    if d.nvmOwner != some .store || s.chunked then d
    else
    let d := { d with pwr := { d.pwr with store := none, writer := none } }
    if ok then nvmFinish .ok (nvmEffect s d) else nvmFinish .verifyFail (nvmSpoil s d)

/-- DDR_TRAINING_DONE (R464): the installed capacity in MiB, 0 where training fails. -/
def ddrTrained (ok : Bool) (capMib : Nat) (d : Dev) : Dev :=
  if d.get CKP_PWR_STAT_step < 4 || d.pwr.trained then d
  else { d with pwr := { d.pwr with trained := true, ddrMib := if ok then capMib else 0 } }

end Sys2Proof.Machine
end

