-- ==== Sys2Proof/Machine/Bus.lean ====
section
/-! DEFINITION. Accesses of masters to registers, memory windows and queue windows: the checks of R429, the access types of R9, the
locked fields of R46, and the way each register's write reaches its block. -/
namespace Sys2Proof.Machine

/-- What a command's surroundings fix for a write: whether the logic engine is between OUTPUT and INPUT, how long an exchange takes,
and whether an edge of an old domain clock arrives within 1 µs. -/
structure Ctx where
  inWait : Bool := false
  ns : Nat := 0
  edge : Option Bool := none
  deriving DecidableEq, Repr

/-! ## Access types (R9) -/

/-- The value is not a reserved encoding of the field (R7). -/
def FieldRow.accepts (f : FieldRow) (x : Nat) : Bool := f.ok.isEmpty || f.ok.any (fun p => p.1 ≤ x && x ≤ p.2)

/-- The word after a write of `v` over `old`, field by field. -/
def fieldWord (locked : Bool) (v : Nat) (old : Nat) (f : FieldRow) : Nat :=
  let x := bits v f.lo f.width
  let cur := bits old f.lo f.width
  match f.acc with
  | .rw => if f.accepts x then putBits old f.lo f.width x else old
  | .rz => putBits old f.lo f.width x
  | .rwb => if !locked && f.accepts x then putBits old f.lo f.width x else old
  | .w1c => putBits old f.lo f.width (cur - (cur &&& x))
  | .w1s => putBits old f.lo f.width (cur ||| x)
  | .ro | .wo | .rs => old

/-- The word a register takes when `v` is written to it. -/
def newWord (locked : Bool) (r : RegRow) (old v : Nat) : Nat := r.fields.foldl (fieldWord locked v) old

/-- A write carries, in some RWB field, a value other than the one held (R46). -/
def rwbDiffers (r : RegRow) (old v : Nat) : Bool :=
  r.fields.any (fun f => f.acc == .rwb && bits v f.lo f.width != bits old f.lo f.width)

/-- The key of a register for a master. -/
def RegRow.keyFor (r : RegRow) (m off : Nat) : Nat := if r.perMaster then (m + 1) * masterSpan + off else off

/-- A write acts field by field under the access types; RWB fields keep their values after lock, and a write that would change one
is counted (R9, R46). -/
def rowWrite (r : RegRow) (m off v : Nat) (d : Dev) : Dev :=
  let locked := d.flag BND_STAT_locked
  let k := r.keyFor m off
  let old := (d.word k).toNat
  let d := d.putWord k (BitVec.ofNat 32 (newWord locked r old v))
  if locked && rwbDiffers r old v then
    ((d.inc BND_RWB_DROP).set BND_RWB_LAST_offset off).set BND_RWB_LAST_master m
  else d

/-! ## Enables and composites -/

/-- A reader acts on its next notice (R116, R128): an output stream in its lane, where an OUT folio provides one (R18), and a detector
instance in the scheduler. A stopped block does nothing (R16, log entry 151). -/
def readerNotice (r : Nat) (d : Dev) : Dev :=
  if r < 32 then (if r < 4 * d.get BND_FOLIO_CNT_out && d.laneRuns 5 (r / 4) then streamNotice r d else d) else schRun (noticeTrigger r) d

/-- Every pending notice of a reader, in order. -/
def readerDrain (r : Nat) (d : Dev) : Dev := iterate (d.reader r).notices.length (fun d => some (readerNotice r d)) d

/-- enable = 0 to a grid: its readers act on the notices of the closing views before they are disabled (R128). -/
def gridDisableAll (n : Nat) (d : Dev) : Dev :=
  if d.get (COL_GRID_CTRL_state n) = 1 then
    let d := gridDisable n d
    gridDisableEnd n (forN 64 (fun r d => if d.get (COL_RD_CTRL_grid r) = n && d.get (COL_RD_CTRL_state r) = 1 then readerDrain r d else d) d)
  else gridDisable n d

/-- A write of COL_GRIDn_CTRL (R127). -/
def gridCtrlWrite (n v : Nat) (d : Dev) : Dev :=
  let d := if bitAt v 8 then d.setFlag (COL_GRID_CTRL_wr_drop n) false else d
  let d :=
    if d.get (COL_GRID_CTRL_state n) = 0 then
      gridPublish n ((d.set (COL_GRID_CTRL_archive n) (bits v 9 1)).set (COL_GRID_CTRL_rate n) (bits v 16 8))
    else if bits v 9 1 != d.get (COL_GRID_CTRL_archive n) || bits v 16 8 != d.get (COL_GRID_CTRL_rate n) then
      d.setFlag (COL_GRID_CTRL_wr_drop n) true
    else d
  if bitAt v 0 then gridEnable n d else gridDisableAll n d

/-- A write of COL_RDn_CTRL (R127). -/
def readerCtrlWrite (r v : Nat) (d : Dev) : Dev :=
  let d := if bitAt v 8 then d.setFlag (COL_RD_CTRL_wr_drop r) false else d
  let d :=
    if d.get (COL_RD_CTRL_state r) = 0 then
      ((d.set (COL_RD_CTRL_grid r) (bits v 9 3)).set (COL_RD_CTRL_policy r) (bits v 12 1)).set (COL_RD_CTRL_rerun r) (bits v 13 1)
    else if bits v 9 3 != d.get (COL_RD_CTRL_grid r) || bits v 12 1 != d.get (COL_RD_CTRL_policy r)
        || bits v 13 1 != d.get (COL_RD_CTRL_rerun r) then
      d.setFlag (COL_RD_CTRL_wr_drop r) true
    else d
  if bitAt v 0 then readerEnable r d else readerDisable r d

/-- A write of QUE_Qn_CTRL: flush, then enable (R400, R401, R407). -/
def queueCtrlWrite (n v : Nat) (d : Dev) : Dev :=
  let d := if bitAt v 6 then d.setFlag (QUE_Q_CTRL_wr_drop n) false else d
  let d := d.set (QUE_Q_CTRL_irq_en n) (bits v 5 1)
  let d := if bitAt v 4 then queueReachOff n (queueEmpty n d) else d
  if bitAt v 0 then queueEnable n d else queueDisable n d

/-- A write of TBS_UTC, after which the interval boundaries are looked at (R66, R358). -/
def utcCommand (v : Nat) (d : Dev) : Dev := enrEval false (utcWrite v d)

/-- No master is known any more, and none is selected. -/
def forgetMasters (d : Dev) : Dev := selectMaster { d with time := { d.time with foreign := [] } }

/-- A write of TBS_PTP_CFG: the ports enabled for the engine follow (R58), and the selection among the masters on them (R59); a new
domain has no known master yet. -/
def ptpCfgWrite (write : Dev → Dev) (d : Dev) : Dev :=
  let e := ptpPorts (d.get TBS_PTP_CFG_port_en) (write d)
  if e.get TBS_PTP_CFG_domain = d.get TBS_PTP_CFG_domain then selectMaster e else forgetMasters e

/-- A write of TBS_CTRL; with HOST the engine is idle and has no master (R58). -/
def timeCommand (v : Nat) (d : Dev) : Dev :=
  let e := timeCtrlWrite v d
  if e.get TBS_CTRL_ptp_mode = 0 && d.get TBS_CTRL_ptp_mode != 0 then forgetMasters e else e

/-- clear_hwm of a ready list: the mark becomes the depth (register SCH_LVLp_DEPTH). -/
def lvlClearHwm (p : Nat) (d : Dev) : Dev := d.set (SCH_LVL_DEPTH_hwm p) (d.get (SCH_LVL_DEPTH_depth p))

/-- A DET_CMD: the command acts, and a unit that acts for its pair mirrors it (R230, R303). -/
def detCommand (m v : Nat) (d : Dev) : Dev :=
  if v % 16 = 1 || v % 16 = 2 then ackcmdSend m v (detCmd m v d) else d

/-- The stalled pop of a queue whose stall limit, counted in TBC ticks, ends first runs out of it (R405). -/
def popStallTimeout (n : Nat) (d : Dev) : Dev :=
  match earliestStall (d.queue n).stalled with
  | none => d
  | some w => atElapsed w.due (popTimeout n) d

/-- QUE_POOL.test: each change switches the mode (R409). -/
def poolTest (on : Bool) (d : Dev) : Dev := if on = d.flag QUE_POOL_test then d else poolUpdate (d.setFlag QUE_POOL_test on)

/-! ## Special writes, block by block -/

/-- CKP_AVS_LIM: each limit in 650 to 900 mV, vmax not below vmin (register CKP_AVS_LIM). -/
def avsLimWrite (v : Nat) (d : Dev) : Dev :=
  let ok (x : Nat) : Bool := 650 ≤ x && x ≤ 900
  let lo := v % 65536
  let d := if ok lo then d.set CKP_AVS_LIM_vmin_mv lo else d
  let hi := v / 65536
  if ok hi && d.get CKP_AVS_LIM_vmin_mv ≤ hi then d.set CKP_AVS_LIM_vmax_mv hi else d

/-- GCTL, CKP, BND and ACT. -/
def writeA (c : Ctx) (m base i v : Nat) : Option (Dev → Dev) :=
  match base with
  | 0x100 => some (fun d => if bitAt v 29 then hdrmLowClear d else d)
  | 0x200 => some (qmonWrite m v)
  | 0x208 => some (fun d => if bitAt v 0 then fabricClear d else d)
  | 0x10000 => some (fun d => if bitAt v 0 then multRetry d else d)
  | 0x10100 => some (domCtrlWrite i v c.edge)
  | 0x10804 => some (resetCauseClear v)
  | 0x10808 => some (softReset m v)
  | 0x1080C => some (orderlyShutdown m v)
  | 0x10820 => some (avsLimWrite v)
  | 0x20008 => some (bndCmdWrite v)
  | 0x2000C => some (rcvData v)
  | 0x20100 => some (nvmKeyWrite m v)
  | 0x20104 => some (nvmCommand m v)
  | 0x30100 => some (dmaCtrlWrite i v)
  | _ => none

/-- TBS and ETH. -/
def writeB (base i j v : Nat) (write : Dev → Dev) : Option (Dev → Dev) :=
  match base with
  | 0x40000 => some (timeCommand v)
  | 0x40030 => some (incrWrite false v)
  | 0x40034 => some (incrWrite true v)
  | 0x40054 => some (fun d => updateTq (write d))
  | 0x40060 => some (ptpCfgWrite write)
  | 0x40070 => some (utcCommand v)
  | 0x40200 => some (fun d => ttoCtrlWrite i v (if bitAt v 1 = d.flag (TBS_TTO_CTRL_polarity i) || d.get (TBS_TTO_STAT_state i) = 0 then d
      else d.setFlag (TBS_TTO_STAT_wr_drop i) true))
  | 0x40208 => some (ttoCfgWrite i (TBS_TTO_START_LO i) v)
  | 0x4020C => some (ttoCfgWrite i (TBS_TTO_START_HI i) v)
  | 0x40210 => some (ttoCfgWrite i (TBS_TTO_PERIOD i) v)
  | 0x40214 => some (ttoCfgWrite i (TBS_TTO_WIDTH i) v)
  | 0x50000 => some (ethCfgWrite i v)
  | 0x50018 => some (mmWrite i v)
  | 0x51000 => some (rxRingCtrl i j v)
  | 0x51018 => some (rxRingDone i j)
  | 0x51100 => some (txRingCtrl i j v)
  | 0x5110C => some (txRingTail i j (v % 65536))
  | _ => none

/-- A write of STR_CMD (R495): any write while a command runs issues nothing and reads BUSY. -/
def strCmdWrite (v : Nat) (d : Dev) : Dev :=
  if d.flag STR_CMD_STAT_busy then d.set STR_CMD_STAT_result 6
  else match v % 16 with
  | 1 => strCommit (bits v 4 13) d
  | 2 => strClear (bits v 4 13) d
  | 3 => colFollow d.now (strNote (bits v 4 13)) (finishAll (bits v 4 13) d)
  | _ => d

/-- A write of FLT_GRPg_SWAP (R153). -/
def swapWrite (g v : Nat) (d : Dev) : Dev :=
  match v % 4 with
  | 1 => swapRequest g ⟨bits v 2 1, bits v 16 13⟩ d
  | 2 => swapCancel g d
  | _ => d

/-- STR, COL, FLT and ACQ. -/
def writeC (m base i v : Nat) (write : Dev → Dev) : Option (Dev → Dev) :=
  match base with
  | 0x60020 => some (strCmdWrite v)
  | 0x60100 => some (srcSnapshot m (v % 8192))
  | 0x70100 => some (colRun (gridCtrlWrite i v))
  | 0x71000 => some (colRun (readerCtrlWrite i v))
  | 0x72000 => some (fun d =>
      let d := d.set (COL_OS_CFG_cfg_change i) (bits v 3 1)
      if d.get (COL_RD_CTRL_state i) = 0 then write d
      else if newWord false ⟨0, [], false, .none, [⟨0, 3, .rw, 0, []⟩, ⟨4, 6, .rw, 0, []⟩, ⟨16, 16, .rw, 0, []⟩]⟩ (d.get (COL_OS_CFG i)) v = d.get (COL_OS_CFG i) then d
      else d.setFlag (COL_RD_CTRL_wr_drop i) true)
  | 0x80000 => some (groupCtrlWrite i v)
  | 0x80004 => some (swapWrite i v)
  | 0x90000 => some (acqCfgWrite v)
  | 0x90010 => some (acqCmdWrite v)
  | _ => none

/-- A write of LGE_GSUBs.ctrl (R253): a second enabled subscription of one key is refused. -/
def gsubCtrlWrite (s v : Nat) (write : Dev → Dev) (d : Dev) : Dev :=
  let was := d.flag (LGE_GSUB_CTRL_en s)
  let d := write d
  let key (t : Nat) : Nat × Nat × Nat := (d.get (LGE_GSUB_DMAC_LO t), d.get (LGE_GSUB_DMAC_HI t), d.get (LGE_GSUB_CTRL_appid t))
  if bitAt v 0 && !was && (List.range 64).any (fun t => t != s && d.flag (LGE_GSUB_CTRL_en t) && key t == key s) then
    d.setFlag (LGE_GSUB_CTRL_en s) false
  else d

/-- The types of a subscription or a publication: code 7 is reserved and leaves its member unchanged; codes 8 to 15, which the manual does
not name, are stored (log entry 183). -/
def gsubTypes (old v : Nat) : Nat :=
  (List.range 8).foldl (fun w i => if bits v (4 * i) 4 = 7 then w else putBits w (4 * i) 4 (bits v (4 * i) 4)) old

/-- SCH, DET, LGE, SPN and EVR. -/
def writeD (c : Ctx) (m base i v : Nat) (write : Dev → Dev) (word : Dev → Nat) : Option (Dev → Dev) :=
  match base with
  | 0xA0000 => some (schCfgWrite v)
  | 0xA0010 => if i = 7 then some (fun d => taskSubmit m (write d)) else none
  | 0xA0100 => some (fun d => if bitAt v 31 then lvlClearHwm i d else d)
  | 0xA1000 => some (engCtrlWrite i v)
  | 0xA6000 => some (instCtrlWrite i v)
  | 0xB0004 => some (detCommand m v)
  | 0xC0000 => some (leCtrlWrite v c.inWait c.ns)
  | 0xC0040 => some (progCmdWrite v)
  | 0xCC000 => some (fun d => forceWrite i (word d) d)
  | 0xD000C => some (fun d => returnRestart (write d))
  | 0xD0010 => some (pairCmdWrite v)
  | 0xE0020 => some (sealCmdWrite v)
  | 0xE0024 => some (sealKeyWrite false v)
  | 0xE0028 => some (sealKeyWrite true v)
  | 0xF0010 => some (fun d => if v % 4 = 1 then logClear (if i = 0 then .grid else .legal) m (bits v 2 14) d else d)
  | 0xF0020 => some (fun d => logSelect (if i = 0 then .grid else .legal) m (v % 16384) d)
  | _ => none

/-- CMP, QUE, EVC and DIO. A cleared DOUT fault sets again after a further 200 µs of mismatch (R482). A target clears only its own pending
bits (R432). -/
def writeE (m base i j v : Nat) (write : Dev → Dev) : Option (Dev → Dev) :=
  match base with
  | 0x100000 => some (cmpCfgWrite v)
  | 0x100010 => if i = 7 then some (fun d => cmpSubmit m v (write d)) else none
  | 0x100034 => some (cmpCmdWrite m v)
  | 0x100088 => some (archRelease v)
  | 0x110000 => some (poolTest (bitAt v 2))
  | 0x110004 => some (errorInject (v % 64) (bits v 8 2))
  | 0x110100 => some (queueCtrlWrite i v)
  | 0x110104 => some (queueCfgWrite i v)
  | 0x110108 => some (queueWmWrite i v)
  | 0x11010C => some (fun d => if bitAt v 31 then queueClearHwm i d else d)
  | 0x120200 => some (fun d => if m = i then write d else d)
  | 0x120240 => some (evMaskWrite i j v)
  | 0x130208 => some (fun d =>
      let d := write d
      { d with le := { d.le with doutDiff := d.le.doutDiff.map (fun p => if bitAt v p.1 then (p.1, d.time.elapsed) else p) } })
  | 0x120300 => some (doorbell m v)
  | 0x128000 => some (fun d => if 2 ≤ m then d else if j = 3 then msixUnmask m i (write d) else write d)
  | _ => none

/-! ## Gates -/

/-- The types of publication `b` in its word `j` after a write of `v`: a block has at most one ALARM member (R255), so a code 7 beside
another leaves its member unchanged (DESIGN CHOICE, log entry 199). -/
def pubTypesNew (b j v : Nat) (d : Dev) : Nat :=
  let old := d.get (LGE_GPUB_TYPES b j)
  let alarm (w i : Nat) : Bool := bits w (4 * i) 4 == 7
  let elsewhere := (List.range 4).any (fun k => k != j && (List.range 8).any (alarm (d.get (LGE_GPUB_TYPES b k))))
  let one := if elsewhere then none else ((List.range 8).find? (fun i => alarm old i && alarm v i)).or ((List.range 8).find? (alarm v))
  (List.range 8).foldl (fun w i => if alarm v i && one != some i then w else putBits w (4 * i) 4 (bits v (4 * i) 4)) old

/-- A write of a gated register: carried out where the gate is open, else discarded as its block says. -/
def gateWrite (g : Gate) (off i v : Nat) (write : Dev → Dev) (word : Dev → Nat) (d : Dev) : Dev :=
  match g with
  | .colCfg => if (List.range 8).all (fun n => d.get (COL_GRID_CTRL_state n) == 0) then forN 8 gridPublish (write d) else d
  | .colGrid => if d.get (COL_GRID_CTRL_state i) = 0 then gridPublish i (write d) else d.setFlag (COL_GRID_CTRL_wr_drop i) true
  | .colReader | .colStream => if d.get (COL_RD_CTRL_state i) = 0 then write d else d.setFlag (COL_RD_CTRL_wr_drop i) true
  | .colBlk => if (List.range 32).any (fun r => d.get (COL_RD_CTRL_state r) != 0 && (d.blocks r).contains i) then d else write d
  | .fltGrp => write d
  | .fltThr => if fIsNaN v || (bitAt v 31 && v != 0x80000000) then d else write (ssbNote i d)
  | .fltPer => write (ssbNote i d)
  | .acqMeas => if d.acqMasks then d else if d.acqOpenCfg then write d else acqDrop d
  | .acq | .acqCfg => if d.acqOpenCfg then write d else acqDrop d
  | .acqCond3 => if !d.acqOpenCfg then acqDrop d else if d.get (ACQ_COND0_kind i) = 7 then write d else d
  | .acqCh2 => if 64 ≤ i then d else if d.acqOpenCfg then write d else acqDrop d
  | .acqMask => if !d.acqMasks then d else if d.acqOpenCfg then write d else acqDrop d
  | .schInst => if d.get (SCH_INST_CTRL_state i) = 0 then write d else d.setFlag (SCH_INST_CTRL_wr_drop i) true
  | .lge => if d.leIdle then write d else d.setFlag LGE_STAT_wr_drop true
  | .lgeGsub => if d.leIdle then gsubCtrlWrite i v write d else d.setFlag LGE_STAT_wr_drop true
  | .lgeTypes => if d.leIdle then d.putWord off (BitVec.ofNat 32 (gsubTypes (d.word off).toNat v)) else d.setFlag LGE_STAT_wr_drop true
  | .lgePub =>
    if d.leIdle then d.putWord off (BitVec.ofNat 32 (pubTypesNew i ((off - 0xC2020) % 0x40 / 4) v d)) else d.setFlag LGE_STAT_wr_drop true
  | .dmaChain => if d.flag (ACT_DMA_CTRL_busy i) then d else write d
  | .ethMac => if d.get (ETH_CFG_state i) = 0 then write d else d.setFlag (ETH_CFG_wr_drop i) true
  | .rxRing => if d.flag (ETH_RXR_CTRL_on i (bits (off % 0x4000) 6 1)) then d.setFlag (ETH_CFG_wr_drop i) true else write d
  | .txRing => if d.flag (ETH_TXR_CTRL_on i (bits (off % 0x4000) 6 1)) then d else write d
  | .legal => legalParam off (word d) d
  | .none | .avsLim | .ethCfg | .incr | .queCfg | .queWm | .schCfg | .tto => write d

/-- A write reaches the register at a BAR0 offset, past every check. -/
def regWrite (c : Ctx) (m off v : Nat) (d : Dev) : Dev :=
  match findRow off with
  | none => d
  | some (r, ix) =>
    let i := ix.headD 0
    let j := ix.getD 1 0
    let write := rowWrite r m off v
    let word (d : Dev) : Nat := newWord false r (d.word off).toNat v
    if off / 0x10000 = 8 && off < 0x80800 && !d.fltBound i then d
    else
      let special :=
        if off < 0x40000 then writeA c m r.base i v
        else if off < 0x60000 then writeB r.base i j v write
        else if off < 0xA0000 then writeC m r.base i v write
        else if off < 0x100000 then writeD c m r.base i v write word
        else writeE m r.base i j v write
      match special with
      | some f => f d
      | none => gateWrite r.gate off i v write word d

/-! ## Memory windows -/

/-- A write of a word of a memory window (R152, R261, R276). -/
def windowWrite (t off v : Nat) (d : Dev) : Dev :=
  let put (d : Dev) : Dev := { d with win := memWriteN d.win off (toLe 4 v) }
  if t = 22 || t = 23 then
    if d.bankLockedWr (t - 22) then d.setFlag LGE_PROG_STAT_wr_drop true else bankTouched (t - 22) (put d)
  else if t = 24 then (if d.leIdle then put d else d.setFlag LGE_STAT_wr_drop true)
  else if t = 25 then
    let o := off - 0x1400000
    if bankLocked d o then d.setFlag (FLT_GRP_CTRL_wr_drop (o / 0x4000)) true else put d
  else put d

/-! ## Checks (R429) -/

/-- The fixed rules for a write, which hold whatever the tables contain (R27, R44, R365, R366, R379, R471). -/
def Dev.fixedWrite (d : Dev) (m off v : Nat) : Bool :=
  (21 ≤ m && m ≤ 23)
    || (m != 2 && (off == 0x2000C || (off == 0x20008 && (v % 16 == 4 || v % 16 == 5)) || sealOff off
      || (off == 0xF0110 && v % 4 == 1) || (off == 0x20104 && v % 16 == 6)
      || (d.inRecovery && (off == 0x20100 || off == 0x20104))
      || (off / 0x10000 == 14 && (match findRow off with | some (r, _) => r.gate == .legal | none => false))))

/-- How a write of a register is granted: by the table's write right, by administer right, or without a right (R428, R471). -/
inductive Need where
  | table | admin | free
  deriving DecidableEq, Repr

/-- The right that a write of `v` at an offset needs. -/
def writeNeed (m off v : Nat) : Need :=
  if off = 0x10808 then .admin
  else if off = 0x1080C then (if m = 2 then .free else .admin)
  else if off = 0x110004 || (0x31000 ≤ off && off < 0x32000) || (off = 0xF0010 && v % 4 = 1) then .admin
  else if off = 0x20104 && 1 ≤ v % 16 && v % 16 ≤ 5 then .free
  else .table

/-- The verdict on a write to BAR0. -/
def Dev.writeVerdict (d : Dev) (m off v : Nat) (whole : Bool) : Verdict :=
  match targetOf off with
  | none => .void
  | some t =>
    if !d.arrives m then .void
    else if d.fixedWrite m off v then .deny .fixed
    else match writeNeed m off v with
      | .table => d.check .write whole t m
      | .admin => d.check .admin whole t m
      | .free => if d.inRecovery && !(t ≤ 2) then .void else if whole then .pass else .deny .partialWrite

/-- The verdict on a read of BAR0. -/
def Dev.readVerdict (d : Dev) (m off : Nat) : Verdict :=
  match targetOf off with
  | none => .void
  | some t => if !d.arrives m then .void else if 21 ≤ m && m ≤ 23 then .deny .fixed else d.check .read true t m

/-- Registers with a field enable at bit 0, as offset and arrays; GCTL_AVS_CFG has it at bit 24. -/
def enableRows : List (Nat × List (Nat × Nat)) :=
  [(0x10100, [(10, 0x10)]), (0x30100, [(16, 0x20)]), (0x40200, [(8, 0x20)]), (0x50000, [(4, 0x4000)]),
    (0x51000, [(4, 0x4000), (2, 0x40)]), (0x51100, [(4, 0x4000), (2, 0x40)]), (0x70100, [(8, 0x20)]), (0x71000, [(64, 0x20)]),
    (0x80000, [(32, 0x40)]), (0x90000, []), (0xA1000, [(16, 0x40)]), (0xA6000, [(1024, 4)]), (0xD0000, []), (0x100000, []),
    (0x110100, [(64, 0x20)])]

/-- After an orderly shutdown is accepted, what a host writes to an enable field is discarded (R466). -/
def Dev.keepEnable (d : Dev) (m off v : Nat) : Nat :=
  if d.pwr.shut = 0 || 3 ≤ m then v
  else if off = 0x104 then putBits v 24 1 (d.get GCTL_AVS_CFG_enable)
  else if enableRows.any (fun r => r.1 ≤ off && (dimIndex r.2 (off - r.1)).isSome) then putBits v 0 1 (bits (d.word off).toNat 0 1)
  else v

/-! ## Accesses -/

/-- A write by master `m` to BAR0. Any write to BND but those of the key sequence disarms the master's key, and so does one of these that
is denied (R471). -/
def bar0Write (c : Ctx) (m off v : Nat) (whole : Bool) (d : Dev) : Dev :=
  let t := (targetOf off).getD 0
  let d := if off / 0x10000 = 2 && ((off != 0x20100 && off != 0x20104) || d.writeVerdict m off v whole != .pass) then keyDisarm m d else d
  match d.writeVerdict m off v whole with
  | .void => d
  | .deny k => violation k m t off d
  | .pass => if t < 20 then regWrite c m off (d.keepEnable m off v) d else windowWrite t off v d

/-- The verdict on an access to a queue window: pops and pushes need their right (R403, R404, R428), and a write with partial byte enables
is a violation wherever it falls (R5). -/
def Dev.queueVerdict (d : Dev) (m off : Nat) (write whole : Bool) : Verdict :=
  let rel := off % 0x1000
  if 0x40000 ≤ off || !d.arrives m then .void
  else if 21 ≤ m && m ≤ 23 then .deny .fixed
  else if write && !whole then d.check .push false (32 + off / 0x1000) m
  else if rel = 0x10 || rel = 0x14 || rel = 0x18 then (if write then d.check .push true (32 + off / 0x1000) m else .void)
  else if rel = 0x1C then (if write then .void else d.check .push true (32 + off / 0x1000) m)
  else if rel = 0 || rel = 4 || rel = 8 then (if write then .void else d.check .pop true (32 + off / 0x1000) m)
  else .void

/-- A write by master `m` to BAR4. -/
def bar4Write (m off v : Nat) (whole : Bool) (d : Dev) : Dev :=
  let n := off / 0x1000
  match d.queueVerdict m off true whole with
  | .void => d
  | .deny k => violation k m (32 + n) off d
  | .pass =>
    match off % 0x1000 with
    | 0x10 => pushLow m v d
    | 0x14 => pushHigh m n v d
    | 0x18 => if v % 4 = 1 then pushCommit m n d else if v % 4 = 2 then pushBad m d else d
    | _ => d

/-- A write by master `m`, where it arrives. -/
def busWrite (c : Ctx) (m : Nat) (sp : BusSpace) (off v : Nat) (whole : Bool) (d : Dev) : Dev :=
  if !d.arrives m then lostAccess m d
  else match sp with
  | .bar0 => bar0Write c m (off / 4 * 4) v whole d
  | .bar4 => bar4Write m (off / 4 * 4) v whole d

/-- A word as it is read: reserved bits are zero (R6). -/
def RegRow.shown (r : RegRow) (w : Nat) : Nat := r.fields.foldl (fun w f => if f.acc == .rz then putBits w f.lo f.width 0 else w) w

/-- The low registers of the 64-bit pairs that R10 rules, as offset and arrays. -/
def pairRows : List (Nat × List (Nat × Nat)) :=
  [(0x20108, []), (0x20114, []), (0x30104, [(16, 0x20)]), (0x40068, []), (0x40208, [(8, 0x20)]), (0x50204, [(4, 0x4000)]),
    (0x5023C, [(4, 0x4000)]), (0x51004, [(4, 0x4000), (2, 0x40)]), (0x5100C, [(4, 0x4000), (2, 0x40)]),
    (0x51104, [(4, 0x4000), (2, 0x40)]), (0x60140, []), (0x60148, []), (0x71010, [(64, 0x20)]), (0xC0068, []), (0xE0010, []),
    (0xE0018, []), (0x110010, []), (0x110018, []), (0xE0108, [(16, 0x80), (4, 8)]), (0xE1000, [(16, 0x20), (4, 8)]), (0xE1200, [(16, 0x20), (4, 8)]),
    (0x130140, [(16, 8)])]

/-- The offset is the low register of a 64-bit pair. -/
def pairLow (off : Nat) : Bool := pairRows.any (fun r => r.1 ≤ off && (dimIndex r.2 (off - r.1)).isSome)

/-- The offset is the low register of a 64-bit pair; a forced value and the words 1 and 2 of a condition are one for kind TIME. -/
def Dev.pairLow (d : Dev) (off : Nat) : Bool :=
  Machine.pairLow off
    || (0xCC004 ≤ off && (dimIndex [(256, 16)] (off - 0xCC004)).isSome && d.get (LGE_FRC0_type ((off - 0xCC004) / 16)) == 3)
    || (0x90404 ≤ off && (dimIndex [(32, 16)] (off - 0x90404)).isSome && d.get (ACQ_COND0_kind ((off - 0x90404) / 16)) == 7)

/-- A read of the register at a BAR0 offset, past every check: its value, and what the read does. The low word of a pair captures the
high word for the master (R10). -/
def regRead (m off : Nat) (d : Dev) : Nat × Dev :=
  match findRow off with
  | none => (0, d)
  | some (r, ix) =>
    let i := ix.headD 0
    let j := ix.getD 1 0
    let v := r.shown (d.word (r.keyFor m off)).toNat
    if 0x40008 ≤ off && off ≤ 0x4001C then timeRead m off d
    else if r.base = 0x130204 then (d.doutMon, d)
    else if r.base = 0x40110 then txqPop i m d
    else if r.base = 0x51014 then rxRingTake i j d
    else if r.base = 0xF0040 && j = 7 then (v, logAdvance (if i = 0 then .grid else .legal) m d)
    else if 0x128000 ≤ off && off < 0x130000 && 2 ≤ m then (0, d)
    else if off / 0x10000 = 8 && off < 0x80800 && !d.fltBound i then (0, d)
    else if r.base = 0x98000 && !d.acqMasks then (0, d)
    else if r.gate == .acqMeas && d.acqMasks then (0, d)
    else if r.gate == .acqCond3 && d.get (ACQ_COND0_kind i) != 7 then (0, d)
    else if d.pairLow off then
      let hi := (d.word ((findRow (off + 4)).elim (off + 4) (fun x => x.1.keyFor m (off + 4)))).toNat
      (v, d.capture ((m + 1) * masterSpan + off + 4) hi)
    else if 4 ≤ off && d.pairLow (off - 4) then
      (match d.shadowWord ((m + 1) * masterSpan + off) with
        | some w => (w.toNat, d)
        | none => (v, d))
    else (v, d)

/-- A read by master `m` from BAR0; the answer reaches the master. -/
def bar0Read (m off : Nat) (d : Dev) : Dev :=
  match d.readVerdict m off with
  | .void => d.answer m {}
  | .deny k => (aerAbort m (violation k m ((targetOf off).getD 0) off d)).answer m { violation := true }
  | .pass =>
    if off < 0x140000 then
      let (v, d) := regRead m off d
      d.answer m { data := v }
    else d.answer m { data := memLe d.win off 4 }

/-- A read by master `m` from BAR4. -/
def bar4Read (m off : Nat) (wide : Bool) (d : Dev) : Dev :=
  let n := off / 0x1000
  match d.queueVerdict m off false true with
  | .void => d.answer m {}
  | .deny k => (aerAbort m (violation k m (32 + n) off d)).answer m { violation := true }
  | .pass =>
    match off % 0x1000 with
    | 0 => popRead m n wide d
    | 4 => d.answer m { data := ((d.shadowWord (popHiKey m n)).getD 0).toNat }
    | 8 => d.answer m { data := ((d.shadowWord (popStatKey m n)).getD 0).toNat }
    | _ => d.answer m { data := d.pushStat m }

/-- A read by master `m`, where it arrives; of one that does not nothing comes back. -/
def busRead (m : Nat) (sp : BusSpace) (off : Nat) (wide : Bool) (d : Dev) : Dev :=
  if !d.arrives m then lostAccess m d
  else match sp with
  | .bar0 => bar0Read m (off / 4 * 4) d
  | .bar4 => bar4Read m (off / 4 * 4) wide d

end Sys2Proof.Machine
end

