-- ==== Sys2Proof/Machine/System.lean ====
section
/-! DEFINITION. What spans the blocks: the conditions looked at after a command, the step of the counter, the cycle of the logic engine,
start-up, the folio build, re-binding, and the SPI transactions. -/
namespace Sys2Proof.Machine

/-! ## Teardown and release of a re-binding (R49, R50) -/

/-- The UDP ports that classify frames (STR_UDP_PORTn). -/
def udpKey (k : Nat) : Bool := 0x60010 ≤ k % masterSpan && k % masterSpan < 0x60020

/-- A register keeps its value through teardown: those of GCTL, CKP, BND, TBS, ETH, SPN, ENR and EVR, and until the build the access
tables and the UDP ports that classify frames. -/
def keptKey (k : Nat) : Bool :=
  let o := k % masterSpan
  o < 0x140000 && ([0, 1, 2, 4, 5, 13, 14, 15].contains (o / 0x10000) || (0x31000 ≤ o && o < 0x32000) || udpKey k)

/-- Teardown (R49 step 5, R50). The pool goes from ECC to PARITY, which empties every queue, with the empty token to every stalled pop,
and initialises the check bits (R409). -/
def teardown (d : Dev) : Dev :=
  let mode := d.get QUE_POOL_mode
  let d := forN 64 queueEmpty d
  let d := { d with
    regs := d.regs.filter (fun p => keptKey p.1), shadow := d.shadow.filter (fun p => keptKey p.1), win := [], dram := []
    queues := [], staging := [], str := {}, col := {}, flt := {}, det := {}, kern := {}, le := {}, acq := {}, cmp := {}
    sch := { winTick := d.time.elapsed, winSec := d.sec }
    host := { linkUp := d.host.linkUp, reads := d.host.reads, miso := d.host.miso }
    eth := { d.eth with streamIn := [], svIn := [], gooseIn := [] } }
  let d := if mode = 0 then d else d.set QUE_POOL_mode 1
  (d.setFlag BND_STAT_locked false).withBnd (fun b => { b with saving := false, rebuild := true, kernels := [] })

/-- The save of step 4 has ended: teardown. -/
def rebindSaved (d : Dev) : Dev := if d.bnd.saving && d.enr.saving.isNone then teardown d else d

/-- Step 3, at the end of a logic cycle, and the save of step 4. -/
def rebindRelease (d : Dev) : Dev :=
  if !d.bnd.releasing then d
  else
    let d := (pairRebind d).withBnd (fun b => { b with releasing := false, rebinding := true, restarted := false, saving := true })
    rebindSaved (saveStart d)

/-! ## Conditions looked at after a command -/

/-- Step 7 of start-up and of a re-binding is complete: the Binding is locked, the queue pool has switched and no engine is in self-test
(R49, R463). -/
def Dev.lockDone (d : Dev) : Bool :=
  d.flag BND_STAT_locked && d.get QUE_POOL_mode != 1 && (List.range 16).all (fun e => d.get (SCH_ENG_CTRL_state e) != 3)

/-- Step 3 of a re-binding and step 2 of a shutdown wait for the end of a logic cycle; where no cycle runs any more they follow at once
(R49, R466; DEDUCED, log entry 127). -/
def cycleSettle (d : Dev) : Dev :=
  if d.leCycles then d
  else
    let d := rebindRelease d
    if d.pwr.shut = 1 then shutRelease d else d

/-- Start-up steps that end when their condition holds: step 3 with every enabled domain ON, step 7 with what the lock starts, step 9 with the logic engine out of
STARTING (R463); and the end of a re-binding's restart (R49 step 8). -/
def startupSettle (d : Dev) : Dev :=
  let d := if d.get CKP_PWR_STAT_step = 2 && domainsReady d then stepDone 3 d else d
  let d := if d.get CKP_PWR_STAT_step = 6 && d.lockDone then stepDone 7 d else d
  let d := if d.get CKP_PWR_STAT_step = 8 && d.get LGE_STAT_state != 1 then stepDone 9 d else d
  if d.bnd.rebinding && d.bnd.restarted && d.flag BND_STAT_locked && d.get LGE_STAT_state != 1 then
    d.withBnd (fun b => { b with rebinding := false, restarted := false, broken := false })
  else d

/-- Conditions that other blocks watch are looked at: arrived FINAL counts, ALM pins, the alarm conflict, GOOSE, self-diagnosis, the
return of the token, acquisition, energy, and start-up. -/
def settle (d : Dev) : Dev :=
  let d := startupSettle (cycleSettle <| gooseSync (leConflict (detPublish (detFinals d))))
  enrSettle (acqNotice (returnEval (diagEval d)))

/-! ## Status fields that copy other state -/

/-- The monitors of the DOUTs are compared with the expected states (R482): a mismatch that goes on keeps its start, one by which the monitor
bit has aged out begins then, and a change of the expected state starts it anew. -/
def doutWatch (d : Dev) : Dev :=
  let e := (List.range 16).foldl (fun a n => a + b2n (d.doutOn n) * 2 ^ n) 0
  let since (n : Nat) : Nat := match lookup n d.le.doutDiff with
    | some t => t
    | none => ((lookup n d.le.doutRise).map (fun t => t + 600000)).elim d.time.elapsed (min d.time.elapsed)
  let diff := (List.range 16).filterMap (fun n =>
    if bitAt e n = d.doutMonBit n then none
    else some (n, if bitAt e n = bitAt d.le.doutWas n then since n else d.time.elapsed))
  { d with le := { d.le with doutWas := e, doutDiff := diff } }

/-- The status fields that follow other state at every moment: TBS_STATE.coast copies COAST, ACQ_STATUS.complete counts the COMPLETE
segments, QUE_FC shows the asserted pins (R408), DET_PEND.pending the points that wait and DET_ALM_STAT.token the token. -/
def showStatus (d : Dev) : Dev :=
  let d := queueFc (segCount (d.setFlag TBS_STATE_coast d.coast))
  (detPendShow d).setFlag DET_ALM_STAT_token d.acting

/-- Every DOUT is static low while clocks are lost (R17, R251, R477). -/
def doutHold (d : Dev) : Dev := if d.clocksLost then { d with le := { d.le with dout := 0 } } else d

/-- What follows other state at every moment: the status fields, the DOUTs and their monitors, and the write whose turn it is in the
NVM (R468). -/
def publish (d : Dev) : Dev :=
  let d := doutHold (showStatus d)
  doutWatch { d with pwr := { d.pwr with writer := d.nvmOwner } }

/-! ## Commands -/

/-- A command that completes with an effect on the device, and leaves the queue of waiting commands as it is. While internal
reset holds the device (R455, R456) it has none. -/
def State.does (s : State) (f : Dev → Dev) : Host.Outcome State Fault Refusal :=
  .next { s with dev := if s.dev.pwr.held then s.dev else publish (f s.dev) }

/-- The watched conditions are looked at, but not while a reset that the command started holds the device. -/
def watch (d : Dev) : Dev := if d.pwr.held then d else settle d

/-- A command after which the watched conditions are looked at. -/
def State.acts (s : State) (f : Dev → Dev) : Host.Outcome State Fault Refusal := s.does (fun d => watch (f d))

/-- A command of the supplies, the reset pin or the standby island, which acts in reset too. -/
def State.always (s : State) (f : Dev → Dev) : Host.Outcome State Fault Refusal :=
  let d := f s.dev
  .next { s with dev := if d.pwr.held then d else publish d }

/-! ## Lanes that take what waits -/

/-- The RXP lane of the frame's source takes the oldest sampled-value frame (R79, R336), once the frames before it are finished; a frame
without a source goes past every lane. -/
def sampledFrameRx (d : Dev) : Dev :=
  let lane := match d.eth.svIn with
    | [] => none
    | f :: _ => (firstSvid f.apdu).bind (d.matchSv (f.bytes.take 6) (beAt f.bytes 14 2))
  if lane.all (fun n => d.laneRuns 1 (n / 1024)) then 
    colFollow (d.eth.svIn.head?.elim d.now (fun f => stampNs f.stamp)) svRx (lane.elim d (fun n => finishAll n d))
  else d

/-- Every frame stamped before an instant is taken, of both classes, with its samples (R100). -/
def framesBefore (t : Nat) (d : Dev) : Dev :=
  let d := iterate d.eth.svIn.length (fun d => if d.eth.svIn.any (fun f => decide (stampNs f.stamp < t)) then some (sampledFrameRx d) else none) d
  placeBefore t (iterate d.flt.queue.length (fun d => if d.flt.queue.any (fun x => decide (x.arr < t)) then some (sampleTake d) else none) d)

/-- What has been received of every source is taken and finished. -/
def finishEvery (d : Dev) : Dev :=
  let d := iterate d.eth.streamIn.length (fun d => some (phasorFrameRx d)) (iterate d.eth.svIn.length (fun d => some (sampledFrameRx d)) d)
  placeUpTo (fun _ => true) (iterate d.flt.queue.length (fun d => some (sampleTake d)) d)

/-- The silence check of a 1 ms instant (R98), after every frame stamped before it. -/
def silencePass (d : Dev) : Dev := colFollow d.now silenceCheck (framesBefore d.now d)

/-! ## The step of the counter (R55, R56) -/

/-- COUNTER_STEP: the pending command takes effect at a tick, and every block follows; what was stamped before the step has come before
it. -/
def counterStepAll (d : Dev) : Dev :=
  if d.time.pending.isNone || !d.tbcRuns then d
  else
    let d := finishEvery d
    let old := d
    let d := ckoAfterStep old (streamsAfterStep (counterStep d))
    let d := acqAfterStep (schAfterStep (filterAfterStep (colRun (colAfterStep old.now) d)))
    enrEval true d

/-- One tick of TBC: a step that waits takes effect, else the counter advances (R52, R55). -/
def tickAll (d : Dev) : Dev :=
  if d.time.pending.isSome then settle (counterStepAll d) else settle (cko1Edge (tick d))

/-! ## COMMIT (R82, R105, R156, R320) -/

/-- COMMIT_APPLY: the entry is loaded between two frames of its source, and the blocks follow. -/
def commitApplyAll (d : Dev) : Dev :=
  match d.str.cmd with
  | none => d
  | some c =>
    if c.op = 1 && c.code = 0 && !c.applied then commitFollow c.index c.ent commitApply (finishAll c.index d) else d

/-! ## Halts of the logic engine (R243, R244) -/

/-- INPUT of a cycle, and the mirror sets that a standby applies before EXECUTE (R301). -/
def cycleInput (d : Dev) : Dev := mirrorApply (leInput d)

/-- LOCKSTEP_MISMATCH at instruction `pc`: the cycle has run up to it, and it does not commit its writes (R243). -/
def leLockstep (pc : Nat) (d : Dev) : Dev :=
  if d.leCycles then raise 100 (leHalt 1 pc (leRunTo pc (cycleInput d)))
  else if d.get LGE_STAT_state = 1 then raise 100 (leHalt 1 pc d) else d

/-- An ECC error or a fabric timeout halts the engine (R244). Whether it comes within a cycle, how far that cycle has run then, and the
instruction index where none is given are open (log entry 58). -/
def leBreak (cause : Nat) (pc : Option Nat) (d : Dev) : Dev :=
  if !d.leCycles && d.get LGE_STAT_state != 1 then d
  else
  let (i, d) := d.drawNat
  let (n, d) := d.drawNat
  let (b, d) := d.drawNat
  leHalt cause (pc.getD (i % 65536)) (if d.leCycles && b % 2 = 1 then leRun (n % 32769) (cycleInput d) else d)

/-- LE_ECC_ERROR: HALTED with cause ECC (R244). -/
def leEcc (pc : Nat) (d : Dev) : Dev := leBreak 3 (some pc) d

/-! ## The fabric (R16) -/

/-- FABRIC_TIMEOUT: the block is recorded and stopped; an engine faults, and the logic engine halts (R181, R244). -/
def fabricTimeout (b : Nat) (d : Dev) : Dev :=
  let d := fabricRecord b d
  if 40 ≤ b && b ≤ 55 then engFault (b - 40) 5 d else if b = 56 then leBreak 4 none d else d

/-- Domain crossing `b` has a running clock again: MGMT always, REF while its monitor is clear, a generated domain while it has edges,
and MEM while its PHY runs too. -/
def Dev.xingRuns (d : Dev) (b : Nat) : Bool :=
  if b = 9 then true
  else if b = 11 then d.refOk
  else
    let g := if b = 10 then 9 else b
    !d.domIs g .off && d.domEdges g && (g != 7 || !d.phyHeld 7)

/-- DEAD_CROSSING: the clock of a domain has been absent while an item waited (R25). MGMT has its clock from the management host, who may
stop it. -/
def crossingLost (b : Nat) (d : Dev) : Dev := if d.xingRuns b && b != 9 then d else crossingDie b d

/-- CROSSING_REVIVE: the first edge of a source that has been established again (R25). -/
def crossingReturn (b : Nat) (d : Dev) : Dev := if d.xingRuns b then crossingRevive b d else d

/-! ## Work of a stopped block waits (R16) -/

/-- EVENT_MERGED_RAISE: the start of the millisecond that the merged raise waits for (R496). -/
def mergedRaise (n : Nat) (d : Dev) : Dev :=
  match lookup n d.host.evMerged with
  | none => d
  | some due => atTime due (raiseMerged n) d

/-! ## Commands that are a write or a read of one register -/

/-- The RW and RWB fields of a register as they stand: what a master writes to leave them. -/
def Dev.rwHeld (d : Dev) (off : Nat) : Nat :=
  match findRow off with
  | none => 0
  | some (r, _) => r.fields.foldl (fun w f =>
      if f.acc == .rw || f.acc == .rwb then putBits w f.lo f.width (bits (d.word off).toNat f.lo f.width) else w) 0

/-- A master writes a whole word to a register. -/
def regCmd (m off v : Nat) (d : Dev) : Dev := busWrite {} m .bar0 off v true d

/-- A master writes one field of a register and keeps the others. -/
def regKeep (m off lo w v : Nat) (d : Dev) : Dev := busWrite {} m .bar0 off (putBits (d.rwHeld off) lo w v) true d

/-! ## Start-up step 4 (R470, R463) -/

/-- An NVM area that fails its check is treated as empty. -/
def nvmCheck (bad : Nat) (n : NvmSt) : NvmSt :=
  let n := if bitAt bad 0 then { n with settings := [] } else n
  let n := if bitAt bad 1 then { n with vendor := 0, subVendor := 0, subsystem := 0, ownerKey := [], minver := 0, sealKey := 0 } else n
  let n := if bitAt bad 2 then { n with floor := [] } else n
  if bitAt bad 3 then { n with cycles := 0, legalDiscard := 0 } else n

/-- A persistent setting may name an RW or RWB register of GCTL, CKP, TBS or SPN. -/
def settingOk (off : Nat) : Bool :=
  off % 4 == 0 && [0, 1, 4, 13].contains (off / 0x10000) &&
    (match findRow off with
    | some (r, _) => r.fields.any (fun f => f.acc == .rw || f.acc == .rwb)
    | none => false)

/-- The persistent settings are applied in order, as the device; others are skipped and counted. -/
def applySettings (d : Dev) : Dev :=
  forL d.nvm.settings (fun e d => if settingOk e.1 then regWrite {} 31 e.1 e.2 d else d.inc NVM_STAT_set_skip) d

/-- STARTUP_NVM_READ: `bad` names the areas that fail their CRC-32C (bit 0 settings, 1 identity, 2 calibration, 3 counters). -/
def startupNvmRead (bad : Nat) (d : Dev) : Dev :=
  if d.get CKP_PWR_STAT_step != 3 then d
  else
    let d := { d with nvm := nvmCheck bad d.nvm }
    let d := { d with nvm := { d.nvm with cycles := d.nvm.cycles + 1 } }
    let d := d.set CKP_PWR_STAT_cycles d.nvm.cycles
    let d := (d.set BND_MINVER d.nvm.minver).setFlag BND_STAT_key_enrolled (!d.nvm.ownerKey.isEmpty)
    let ids (c : PcieCfg) : PcieCfg := { c with vendor := d.nvm.vendor, subVendor := d.nvm.subVendor, subsystem := d.nvm.subsystem }
    let d := { d with host := { d.host with cfgA := ids d.host.cfgA, cfgB := ids d.host.cfgB } }
    let d := (d.set NVM_WEAR_spares_used d.nvm.spares).set NVM_WEAR_ring_len d.nvm.ring.length
    let d := d.set NVM_STAT_area_err (bits bad 0 4 + b2n d.saveNewest.isNone * 16)
    let d := saveRestore (legalScan (applySettings d))
    let d := sealMove 3 (sealShow d)
    stepDone 4 ((d.bndPut .verifying).withBnd (fun b => { b with loading := some 1 }))

/-! ## The folio build (R37-R39, R45, R51) -/

/-- The capacity of quire `i` under an image: zero for an unbound folio's or a reserved one; 0 or no section selects the default. -/
def quireCap (img : List Byte) (i : Nat) : Nat :=
  let bound := if i < 320 then (imgFolios img).getD (i / 8) 0 != 0 else i < 389 || (392 ≤ i && i ≤ 406)
  let c := leAt (contentOf img 2) (2 * i) 2 % 4096
  if !bound then 0 else if c = 0 then (Config.quireDefault i).val else c

/-- What the build publishes: counts, capacities, the map, the partitions, the digest, and the access tables. -/
def buildPublish (img : List Byte) (src : Nat) (d : Dev) : Dev :=
  let n (t : Nat) : Nat := folioCount img t
  let d := (((d.set BND_FOLIO_CNT_rxp (n 1)).set BND_FOLIO_CNT_col (n 2)).set BND_FOLIO_CNT_flt (n 3)).set BND_FOLIO_CNT_acq (n 4)
  let d := (d.set BND_FOLIO_CNT_out (n 5)).set BND_FOLIO_CNT_unbound (n 0)
  let d := (d.set BND_CAP0_remote_sources (1024 * n 1)).set BND_CAP0_all_sources (1024 * n 2)
  let d := ((d.set BND_CAP1_frame_kfps (250 * n 1)).set BND_CAP1_sv_channels (16 * n 3)).set BND_CAP1_acq_channels (32 * n 4)
  let d := d.setFlag BND_CAP1_masks (1 ≤ n 4 && n 4 ≤ 2)
  let map := contentOf img 1
  let d := forN 10 (fun k d => d.set (BND_FOLIO_MAP k) (leAt map (4 * k) 4)) d
  let sizes := imgParts img
  let d := forN 16 (fun p d => (d.set (BND_PART_base_mib p) (sizes.take p).sum).set (BND_PART_size_mib p) (sizes.getD p 0)) d
  let dg := imgDigest img
  let d := forN 8 (fun k d => d.set (BND_ACT_HASH k) (leAt dg (4 * k) 4)) d
  let d := ((d.set BND_ACT_ID (imgId img)).set BND_ACT_VER (imgVersion img)).set BND_STAT_active src
  let acc := contentOf img 4
  let d := forN 1024 (fun k d => d.set (ACT_TBL k) (leAt acc (4 * k) 4)) d
  let qs := (List.range 1024).foldl (fun qs i => let c := quireCap img i; if c = 0 then qs else qs ++ [(i, { credits := c, capacity := c })]) []
  enginesFree { d with quires := qs, stopped := [], spn := { d.spn with ecc := false } }

/-- The UDP ports that a teardown kept for classification return to reset (R50); then REG_INIT in order, then TABLE_INIT (R34), as the
device. -/
def buildInit (img : List Byte) (d : Dev) : Dev :=
  let d := { d with regs := d.regs.filter (fun p => !udpKey p.1) }
  let d := forL (imgRegInit img) (fun e d => regWrite {} 31 e.1 e.2 d) d
  forL (imgTableInit img) (fun t d => { d with win := memWriteN d.win t.1 t.2 }) d

/-- The build has ended: the Binding locks at once, or waits in UNLOCKED (R45). -/
def buildDone (d : Dev) : Dev :=
  let img := d.bnd.image
  let d := colPart (buildPublish img d.bnd.target d)
  let d := d.withBnd (fun b => { b with kernels := imgKernels img, rebuild := false })
  let d := stepDone 6 (buildInit img d)
  if imgFlags img % 2 = 0 then bndLockNow (d.withBnd (fun b => { b with deferred := false, timeoutMs := 0 }))
  else
    (d.bndPut .unlocked).withBnd (fun b => { b with deferred := true, timeoutMs := imgTimeout img, unlockedAt := d.time.elapsed })

/-- A build fails: of a re-binding, the device goes on as at start-up with slot A (R51); of a slot, with the next (R42); of a recovery
load, back to RECOVERY. -/
def buildFail (d : Dev) : Dev :=
  if d.bndIs .rebinding then
    (raise 4 ((d.setFlag BND_STAT_fallback true).bndPut .verifying)).withBnd (fun b => { b with loading := some 1 })
  else if d.bnd.target = 3 then enterRecovery d
  else slotReject d.bnd.target d

/-- FOLIO_BUILD_DONE. -/
def folioBuildDone (ok : Bool) (d : Dev) : Dev :=
  if d.bndIs .building || (d.bndIs .rebinding && d.bnd.rebuild) then (if ok then buildDone d else buildFail d) else d

/-! ## Re-binding (R49, R50) -/

/-- REBIND_VERIFY_DONE (R48, R49 step 2). With no logic cycle running step 3 follows at once. -/
def rebindVerifyDone (d : Dev) : Dev :=
  match d.bnd.verifying with
  | some (s, true) =>
    let img := d.slotImage s
    match imgVerdict img d with
    | none => d
    | some c =>
    let d := cmdResult c (d.set (resultFld s) c)
    if c != 0 then (d.bndPut .locked).withBnd (fun b => { b with verifying := none })
    else
      let d := d.withBnd (fun b => { b with verifying := none, image := img, target := s, releasing := true })
      if d.leRunning || d.get LGE_STAT_state = 3 then d else rebindRelease d
  | _ => d

/-- STARTUP_RESTART: start-up step 8, or step 8 of a re-binding, each once the Binding has locked. -/
def restartAll (d : Dev) : Dev :=
  if !d.flag BND_STAT_locked then d
  else if d.get CKP_PWR_STAT_step = 7 then stepDone 8 (startupRestart d)
  else if d.bnd.rebinding && !d.bnd.restarted && d.bndIs .locked && d.lockDone then
    (startupRestart d).withBnd (fun b => { b with restarted := true })
  else d

/-- PAIR_START: after start-up step 9, or after step 8 of a re-binding; an orderly shutdown has ended the unit's acting for good (R285,
R466). -/
def pairStartAll (d : Dev) : Dev :=
  if d.get CKP_PWR_STAT_step < 9 || d.bnd.rebinding || !d.flag BND_STAT_locked || d.pwr.shut != 0 then d else stepDone 10 (pairStart d)

/-- SAVE_COMPLETE: a re-binding goes on with teardown once its save has ended. -/
def saveCompleteAll (ok : Bool) (d : Dev) : Dev := rebindSaved (saveComplete ok d)

/-! ## The cycle of the logic engine (R245, R246) -/

/-- A cycle time in ns, measured in TBC ticks (R245); a stopped TBC counts none. -/
def Dev.ticked (d : Dev) (ns : Nat) : Nat := if d.tbcRuns then cdiv (4 * ns) d.tickElapsed * d.tickElapsed / 4 else 0

/-- LE_WATCHDOG: the time of a cycle reaches watchdog_us and its OUTPUT is abandoned (R246). How many instructions have run by then, and
LGE_HALT_PC, which the manual gives for a lockstep mismatch only, are open (log entry 58). A pending step of the counter takes effect at
the first of its ticks (R55), so the ticks up to watchdog_us do pass. -/
def leWatchdog (d : Dev) : Dev :=
  if !d.leCycles || !d.tbcRuns then d
  else
    let d := cycleInput (counterStepAll d)
    let start := d.time.elapsed
    let (n, d) := d.drawNat
    let (pc, d) := d.drawNat
    let s := d.now
    raise 101 (leHalt 2 (pc % 65536) (doutEdges s (passElapsed (start + d.get LGE_CFG_watchdog_us * 4000) (leRun (n % 32769) d))))

/-- LE_CYCLE: `ns` is the time from the start of INPUT to the end of OUTPUT, `xns` the duration of an exchange that is taken at its
end. A cycle that reaches watchdog_us trips the watchdog instead. A pending step of the counter takes effect first (R55, log entry 1). -/
def leCycle (ns xns : Nat) (d : Dev) : Dev :=
  if !d.leCycles then d
  else if d.get LGE_CFG_watchdog_us * 1000 ≤ d.ticked ns then leWatchdog d
  else
      let d := leExecute (cycleInput (counterStepAll d))
      let s := d.now
      let d := doutEdges s (passElapsed (d.time.elapsed + 4 * ns) d)
      let d := acqNotice (pairOutput (leOutput (d.ticked ns) d))
      let d := if d.pwr.shut = 1 then shutRelease d else d
      leBoundary xns (rebindRelease d)

/-- ECC_CRIT: cause 2 of R297 stands from now on. -/
def eccCrit (d : Dev) : Dev := { d with spn := { d.spn with ecc := true } }

/-! ## SPI transactions (R422-R424) -/

/-- One byte of the CRC-8 with polynomial 0x07. -/
def crc8Byte (c : Nat) (b : Byte) : Nat :=
  iterate 8 (fun c => some (if 128 ≤ c then (2 * c % 256) ^^^ 0x07 else 2 * c)) (c ^^^ b.toNat)

/-- The CRC-8 of bytes. -/
def crc8 (bs : List Byte) : Nat := bs.foldl crc8Byte 0

/-- The response: 0xA5, the status byte, the data word and the CRC-8 over status and data (R423). -/
def spiAnswer (status data : Nat) (d : Dev) : Dev :=
  let body := toBe 1 status ++ toBe 4 data
  { d with host := { d.host with miso := 0xA5 :: body ++ toBe 1 (crc8 body) } }

/-- The request bytes that a header asks for: 4 of header, 4 more for WRITE. -/
def spiLen (mosi : List Byte) : Nat := if byteAt mosi 0 / 16 = 2 then 8 else 4

/-- A whole request: the CRC is checked, then the operation acts, and the response is formed (R422, R423). -/
def spiRequest (mosi : List Byte) (d : Dev) : Dev :=
  let n := spiLen mosi
  let req := slice mosi 0 n
  let hdr := beAt req 0 4
  let irq (d : Dev) : Nat := b2n d.mgIrq * 8
  if crc8 req != byteAt mosi n then
    let d := d.inc ACT_MG_STAT_crc_err
    spiAnswer (1 + irq d) 0 d
  else
    let op := bits hdr 28 4
    let sp : BusSpace := if bitAt hdr 27 then .bar4 else .bar0
    let a := bits hdr 0 25
    if !(op == 1 || op == 2) || bits hdr 25 2 != 0 || a % 4 != 0 then spiAnswer (4 + irq d) 0 d
    else if op = 1 then
      let d := busRead 2 sp a false d
      let r := (lookup 2 d.host.reads).getD {}
      spiAnswer (b2n r.violation * 2 + irq d + b2n r.poison * 16) r.data d
    else
      let v := beAt req 4 4
      let bad := match (if sp = .bar0 then d.writeVerdict 2 a v true else d.queueVerdict 2 a true true) with
        | .deny _ => true
        | _ => false
      let d := busWrite {} 2 sp a v true d
      spiAnswer (b2n bad * 2 + irq d) 0 d

/-- A transaction with its MG_CS_N held: a request cut before its last bit is discarded. -/
def spiTransaction (mosi : List Byte) (d : Dev) : Dev := if mosi.length ≤ spiLen mosi then d else spiRequest mosi d

/-- A READ transaction, or one of an operation that the device does not know (R423). -/
def spiReadTransaction (mosi : List Byte) (d : Dev) : Dev := if byteAt mosi 0 / 16 = 2 then d else spiTransaction mosi d

/-- A WRITE transaction, header and data word. -/
def spiWriteTransaction (mosi : List Byte) (d : Dev) : Dev := if byteAt mosi 0 / 16 = 2 then spiTransaction mosi d else d

/-- SPI_CS_EARLY_RISE: before the last request bit the transaction is discarded; after it the action stands, and a READ whose
response is cut loses its value and is counted (R424). -/
def spiEarlyRise (mosi : List Byte) (after : Bool) (d : Dev) : Dev :=
  if !after || mosi.length ≤ spiLen mosi then { d with host := { d.host with miso := [] } }
  else
    let d := spiRequest mosi d
    let d := if byteAt mosi 0 / 16 = 1 then d.inc ACT_MG_STAT_cut else d
    { d with host := { d.host with miso := [] } }

end Sys2Proof.Machine
end

