-- ==== Sys2Proof/Machine/CmdAcq.lean ====
section
/-! DEFINITION. Meanings of commands: transient acquisition (chapter 9). -/
namespace Sys2Proof.Machine

/-- ACQ_ENABLE (R313): Writing enable = 1 lays out the segments and moves the recorder to READY, or stays OFF with NO_PARTITION. -/
def execAcqEnable (m : Master) (s : State) : Host.Outcome State Fault Refusal := s.acts (regKeep m.val 0x90000 0 1 1)

/-- ACQ_DISABLE (R313): Writing enable = 0 enters DISABLING, and the recorder reaches OFF at once or at completion. -/
def execAcqDisable (m : Master) (s : State) : Host.Outcome State Fault Refusal := s.acts (regKeep m.val 0x90000 0 1 0)

/-- ARM (R314): ACQ_CMD ARM checks the configuration and arms the lowest FREE segment. -/
def execAcqArm (m : Master) (s : State) : Host.Outcome State Fault Refusal := s.acts (regCmd m.val 0x90010 1)

/-- DISARM (R313): ACQ_CMD DISARM frees the armed segment, or prevents the rearm of a running record. -/
def execAcqDisarm (m : Master) (s : State) : Host.Outcome State Fault Refusal := s.acts (regCmd m.val 0x90010 2)

/-- FORCE (R319): ACQ_CMD FORCE acts as a firing term in the step that holds the command time. -/
def execAcqForce (m : Master) (s : State) : Host.Outcome State Fault Refusal := s.acts (regCmd m.val 0x90010 3)

/-- FREE (R311): ACQ_CMD FREE makes a COMPLETE segment FREE, or gives STATE. -/
def execAcqFree (m : Master) (seg : Fin 64) (s : State) : Host.Outcome State Fault Refusal :=
  s.acts (regCmd m.val 0x90010 (4 + 16 * seg.val))

/-- ACQ_CLEAR_CNT (R313): ACQ_CMD CLEAR_CNT clears the acquisition counters. -/
def execAcqClearCnt (m : Master) (s : State) : Host.Outcome State Fault Refusal := s.acts (regCmd m.val 0x90010 5)

/-- ACQ_PRE_FULL (R316): At t_arm + pre_ms the pre-trigger part becomes full. -/
def execAcqPreFull (s : State) : Host.Outcome State Fault Refusal := s.acts acqPreFull

/-- ACQ_VALUE_TAKE (R309): A lane takes a channel value and forms track entries and condition states. -/
def execAcqValueTake (skip : Nat) (s : State) : Host.Outcome State Fault Refusal := s.acts (acqValueTake skip)

/-- TRIGGER_STEP_EVAL (R317): At step_i+1 + settle a trigger step is evaluated, and a firing term starts a record. -/
def execTriggerStepEval (s : State) : Host.Outcome State Fault Refusal := s.acts triggerStepEval

/-- RECORD_COMPLETE (R320): Every track has formed its last entry, so the record is finished and its segment becomes COMPLETE. -/
def execRecordComplete (s : State) : Host.Outcome State Fault Refusal := s.acts acqRecordComplete

/-- RECORD_TAIL_EXPIRE (R320): At tt + post + tail the record completes, with unformed entries set to NaN and marked INCOMPLETE. -/
def execRecordTailExpire (s : State) : Host.Outcome State Fault Refusal := s.acts acqTailExpire

end Sys2Proof.Machine
end

