-- ==== Sys2Proof/Machine/CmdBinding.lean ====
section
/-! DEFINITION. Meanings of commands: binding: lock, verification, re-binding and the recovery load (chapter 3). -/
namespace Sys2Proof.Machine

/-- LOCK (R46): BND_CMD LOCK locks an UNLOCKED Binding, or gives STATE in any other state. -/
def execBndLock (m : Master) (s : State) : Host.Outcome State Fault Refusal := s.acts (regCmd m.val 0x20008 1)

/-- BND_VERIFY (R47): BND_CMD VERIFY starts verification of a slot without loading it. -/
def execBndVerify (m : Master) (slot : Fin 4) (s : State) : Host.Outcome State Fault Refusal :=
  s.does (regCmd m.val 0x20008 (2 + 16 * slot.val))

/-- BINDING_VERIFY_DONE (R47): Verification started by VERIFY ends, and its code is recorded in BND_RESULT. -/
def execBindingVerifyDone (s : State) : Host.Outcome State Fault Refusal := s.does bndVerifyDone

/-- REBIND (R47): BND_CMD REBIND with confirm 0xC3 in state LOCKED starts verification of the named slot while service continues. -/
def execBndRebind (m : Master) (slot : Fin 4) (confirm : Fin 256) (s : State) : Host.Outcome State Fault Refusal :=
  s.does (regCmd m.val 0x20008 (3 + 16 * slot.val + 256 * confirm.val))

/-- REBIND_VERIFY_DONE (R48): Re-binding verification ends; on failure nothing changes, and on success the changeover begins. -/
def execRebindVerifyDone (s : State) : Host.Outcome State Fault Refusal := s.acts rebindVerifyDone

/-- RCV_BEGIN (R44): MG starts or restarts a recovery load, which zeroes BND_RCV_COUNT and enters RCV_LOADING. -/
def execRcvBegin (m : Master) (s : State) : Host.Outcome State Fault Refusal := s.does (regCmd m.val 0x20008 4)

/-- RCV_DATA (R44): MG writes the next four image bytes to BND_RCV_DATA, and they are staged in folio SRAM. -/
def execRcvData (m : Master) (v : BitVec 32) (s : State) : Host.Outcome State Fault Refusal := s.does (regCmd m.val 0x2000C v.toNat)

/-- RCV_END (R44): MG ends a recovery load, and verification of the staged image starts. -/
def execRcvEnd (m : Master) (s : State) : Host.Outcome State Fault Refusal := s.does (regCmd m.val 0x20008 5)

/-- RECOVERY_VERIFY_DONE (R44): Verification of the staged image ends and either starts the recovery build or returns the device to RECOVERY. -/
def execRecoveryVerifyDone (s : State) : Host.Outcome State Fault Refusal := s.does recoveryVerifyDone

/-- SLOT_VERIFY_DONE (R42): At start-up, verification of slot A or slot B ends, and the device loads the slot, falls back, or enters RECOVERY. -/
def execSlotVerifyDone (s : State) : Host.Outcome State Fault Refusal := s.acts slotVerifyDone

/-- FOLIO_BUILD_DONE (R463): The folio build and partition placement complete, which publishes the counts, capacities and partitions. -/
def execFolioBuildDone (ok : Bool) (s : State) : Host.Outcome State Fault Refusal := s.acts (folioBuildDone ok)

/-- LOCK_TIMEOUT (R45): lock_timeout_ms elapses in UNLOCKED, so the device locks and sets BND_STAT.lock_timeout. -/
def execLockTimeout (s : State) : Host.Outcome State Fault Refusal := s.acts bndLockTimeout

end Sys2Proof.Machine
end

