-- ==== Sys2Proof/Machine/CmdClock.lean ====
section
/-! DEFINITION. Meanings of commands: clocks (chapter 21). -/
namespace Sys2Proof.Machine

/-- REFCLK_MONITOR_TRIP (R438): The clock monitor trips on an absent or out-of-range REFCLK, which sends the multiplier to COAST and starts fallbacks. -/
def execRefclkMonitorTrip (cause : Fin 3) (s : State) : Host.Outcome State Fault Refusal := s.acts (monitorTrip (cause.val + 1))

/-- MONITOR_CLEAR (R438): Sixteen consecutive REFCLK cycles within the limits clear the monitor. -/
def execMonitorClear (s : State) : Host.Outcome State Fault Refusal := s.acts monitorClear

/-- REFCLK_FIRST_EDGE (R439): The first REFCLK edge with the monitor clear moves the multiplier to COUNTING. -/
def execRefclkFirstEdge (s : State) : Host.Outcome State Fault Refusal := s.acts refEdge

/-- COUNT_COMPLETE (R439): 131,072 REFCLK cycles without a trip move the multiplier to LOCKING. -/
def execCountComplete (s : State) : Host.Outcome State Fault Refusal := s.acts countComplete

/-- LOCK_ACHIEVED (R442): The VCO reaches lock, COAST clears and the PHYs resume. -/
def execLockAchieved (s : State) : Host.Outcome State Fault Refusal := s.acts lockAchieved

/-- RETRY (R439): CKP_CTRL.retry in HELD returns the multiplier to WAIT_REF with attempts at 0. -/
def execClkRetry (m : Master) (s : State) : Host.Outcome State Fault Refusal := s.acts (regCmd m.val 0x10000 1)

/-- DOMAIN_ENABLE (R445): Writing enable = 1 to an OFF domain starts it at divider 1,024 and ramps it. -/
def execDomainEnable (m : Master) (g : Fin 10) (s : State) : Host.Outcome State Fault Refusal :=
  s.acts (regKeep m.val (0x10100 + 16 * g.val) 0 1 1)

/-- DOMAIN_DISABLE (R445): Writing enable = 0 to an ON domain ramps it down and stops it. -/
def execDomainDisable (m : Master) (g : Fin 10) (s : State) : Host.Outcome State Fault Refusal :=
  s.acts (regKeep m.val (0x10100 + 16 * g.val) 0 1 0)

/-- DOMAIN_SOURCE_SWITCH (R447): A write of source to an ON domain requests a glitch-free switch, or is refused. -/
def execDomainSourceSwitch (m : Master) (g : Fin 10) (ref : Bool) (edge : Bool) (s : State) : Host.Outcome State Fault Refusal :=
  s.acts (fun d => busWrite { edge := some edge } m.val .bar0 (0x10100 + 16 * g.val) (putBits (d.rwHeld (0x10100 + 16 * g.val)) 4 1 (b2n ref)) true d)

/-- DOMAIN_RAMP_STEP (R446): After 256 cycles at a divider the domain steps its divider, and reaches ON or OFF at its target. -/
def execDomainRampStep (g : Fin 10) (s : State) : Host.Outcome State Fault Refusal := s.acts (domRamp g.val)

/-- SWITCH_EDGE_TIMEOUT (R448): No edge of the old clock within 1 µs forces the switch from divider 1,024. -/
def execSwitchEdgeTimeout (g : Fin 10) (s : State) : Host.Outcome State Fault Refusal := s.acts (switchForce g.val)

/-- FREQ_MEASURE (R453): Each 1 ms window publishes the frequency of every domain. -/
def execFreqMeasure (khz : List Nat) (s : State) : Host.Outcome State Fault Refusal := s.acts (freqMeasure khz)

/-- SSC_APPLY (R450): A spread-spectrum change takes effect at the next top of the triangle. -/
def execSscApply (n : Fin 4) (s : State) : Host.Outcome State Fault Refusal := s.acts (sscApply n.val)

end Sys2Proof.Machine
end

