-- ==== Sys2Proof/Machine/CmdComp.lean ====
section
/-! DEFINITION. Meanings of commands: compression, the archive and the egress queues (chapters 18 and 19). -/
namespace Sys2Proof.Machine

/-- CMP_JOB_SUBMIT (R382): A write of CMP_JOB7 submits a compression job, which is refused with FIELD or FULL, or queued. -/
def execCmpJobSubmit (m : Master) (v : BitVec 32) (s : State) : Host.Outcome State Fault Refusal := s.does (regCmd m.val 0x10002C v.toNat)

/-- CMP_JOB_START (R383): The engine picks the next job by priority and starts it. -/
def execCmpJobStart (s : State) : Host.Outcome State Fault Refusal := s.does (cmpWork (fun d => if d.expanding then d else cmpStart d))

/-- CMP_JOB_END (R393): A compression job ends with a status and writes its job record. -/
def execCmpJobEnd (s : State) : Host.Outcome State Fault Refusal := s.does (cmpWork cmpJobEnd)

/-- CMP_JOB_SUSPEND (R389): A job that needs another buffer when next is 0 suspends into a context slot. -/
def execCmpJobSuspend (s : State) : Host.Outcome State Fault Refusal := s.does (cmpWork cmpJobSuspend)

/-- CMP_CANCEL (R394): CMP_CMD CANCEL ends every job of the writing master that carries the given tag. -/
def execCmpCancel (m : Master) (tag : BitVec 16) (s : State) : Host.Outcome State Fault Refusal :=
  s.does (regCmd m.val 0x100034 (1 + 65536 * tag.toNat))

/-- RESUME (R389): CMP_CMD RESUME re-reads next and queues a suspended job that can continue. -/
def execCmpResume (m : Master) (k : Fin 4) (s : State) : Host.Outcome State Fault Refusal :=
  s.does (regCmd m.val 0x100034 (2 + 4 * k.val))

/-- CMP_ENABLE (R395): Writing enable = 1 turns the compression engine ON. -/
def execCmpEnable (m : Master) (s : State) : Host.Outcome State Fault Refusal := s.does (regKeep m.val 0x100000 0 1 1)

/-- CMP_DISABLE (R395): Writing enable = 0 lets the running job end or suspend, and the engine reaches OFF. -/
def execCmpDisable (m : Master) (s : State) : Host.Outcome State Fault Refusal := s.does (regKeep m.val 0x100000 0 1 0)

/-- ARCHIVE_RELEASE (R398): A write of CMP_ARCH_RD releases archive entries up to an entry start. -/
def execArchiveRelease (m : Master) (v : BitVec 32) (s : State) : Host.Outcome State Fault Refusal :=
  s.does (regCmd m.val 0x100088 v.toNat)

/-- QUEUE_ENABLE (R400): Writing enable = 1 checks the queue range and turns the queue ON, or refuses it. -/
def execQueueEnable (m : Master) (n : Fin 64) (s : State) : Host.Outcome State Fault Refusal :=
  s.does (regKeep m.val (0x110100 + 0x20 * n.val) 0 1 1)

/-- QUEUE_DISABLE (R401): Writing enable = 0 discards the queue's content and staged packets, and the queue reaches OFF. -/
def execQueueDisable (m : Master) (n : Fin 64) (s : State) : Host.Outcome State Fault Refusal :=
  s.does (regKeep m.val (0x110100 + 0x20 * n.val) 0 1 0)

/-- QUEUE_FLUSH (R407): Writing flush = 1 empties the queue at once without counting losses. -/
def execQueueFlush (m : Master) (n : Fin 64) (s : State) : Host.Outcome State Fault Refusal :=
  s.does (regKeep m.val (0x110100 + 0x20 * n.val) 4 1 1)

/-- QUEUE_POP (R404): A read of POP_LO removes the oldest committed word, or stalls while the queue is empty. -/
def execQueuePop (m : Master) (n : Fin 64) (wide : Bool) (s : State) : Host.Outcome State Fault Refusal :=
  s.does (busRead m.val .bar4 (0x1000 * n.val) wide)

/-- POP_STALL_TIMEOUT (R405): A stalled pop with no word after stall_us returns the empty token. -/
def execPopStallTimeout (n : Fin 64) (s : State) : Host.Outcome State Fault Refusal := s.does (popStallTimeout n.val)

/-- PUSH_WORD (R403): A write of PUSH_HI appends a word to the master's staging buffer. -/
def execPushWord (m : Master) (n : Fin 64) (hi : BitVec 32) (s : State) : Host.Outcome State Fault Refusal :=
  s.does (busWrite {} m.val .bar4 (0x1000 * n.val + 0x14) hi.toNat true)

/-- PUSH_COMMIT (R403): PUSH_END COMMIT offers the staged words to the queue as one packet. -/
def execPushCommit (m : Master) (n : Fin 64) (s : State) : Host.Outcome State Fault Refusal :=
  s.does (busWrite {} m.val .bar4 (0x1000 * n.val + 0x18) 1 true)

/-- PUSH_BAD (R403): PUSH_END BAD discards the staged words. -/
def execPushBad (m : Master) (n : Fin 64) (s : State) : Host.Outcome State Fault Refusal :=
  s.does (busWrite {} m.val .bar4 (0x1000 * n.val + 0x18) 2 true)

/-- PACKET_RESERVE (R406): A producer reserves space for a packet, and the oldest packets are overwritten if needed. -/
def execPacketReserve (n : Fin 64) (words : List (BitVec 64)) (s : State) : Host.Outcome State Fault Refusal :=
  s.does (packetReserve n.val words)

/-- PACKET_COMMIT (R402): A packet's last word is committed, and the whole packet becomes visible. -/
def execPacketCommit (n : Fin 64) (i : Nat) (good : Bool) (s : State) : Host.Outcome State Fault Refusal :=
  s.does (packetCommitStep n.val i good)

/-- QUE_OCC_CLEAR_HWM (R408): A write of clear_hwm in QUE_Qn_OCC sets the high-water mark to the occupancy. -/
def execQueOccClearHwm (m : Master) (n : Fin 64) (s : State) : Host.Outcome State Fault Refusal :=
  s.does (regCmd m.val (0x11010C + 0x20 * n.val) (2 ^ 31))

/-- POOL_TEST_WRITE (R409): A change of QUE_POOL.test flushes every queue and switches the pool mode. -/
def execPoolTestWrite (m : Master) (on : Bool) (s : State) : Host.Outcome State Fault Refusal :=
  s.does (regCmd m.val 0x110000 (b2n on * 4))

/-- POOL_INIT_DONE (R409): Initialisation of the pool check bits ends, and the queues serve again in the new mode. -/
def execPoolInitDone (s : State) : Host.Outcome State Fault Refusal := s.does poolInitDone

/-- ERROR_INJECT (R412): A write of QUE_TEST injects one or two bit errors into the next word committed to a queue. -/
def execErrorInject (m : Master) (n : Fin 64) (kind : Fin 4) (s : State) : Host.Outcome State Fault Refusal :=
  s.does (regCmd m.val 0x110004 (n.val + 256 * kind.val))

end Sys2Proof.Machine
end

