-- ==== Sys2Proof/Machine/CmdEnergy.lean ====
section
/-! DEFINITION. Meanings of commands: the energy registers, the legal seal and the event recorders (chapters 16 and 17). -/
namespace Sys2Proof.Machine

/-- PULSE_CONFIRM (R353): deb_ms consecutive samples confirm a pulse, which is booked to its quantity. -/
def execPulseConfirm (i : Fin 32) (high : Bool) (run : Nat) (ms : Nat) (s : State) : Host.Outcome State Fault Refusal :=
  s.acts (pulseConfirm i.val high run ms)

/-- DIRECTION_CONFIRM (R356): A direction input's new level is confirmed before the pulse confirmations of the same sample. -/
def execDirectionConfirm (c : Fin 16) (high : Bool) (run : Nat) (ms : Nat) (s : State) : Host.Outcome State Fault Refusal :=
  s.acts (directionConfirm c.val high run ms)

/-- INTERVAL_BOUNDARY (R359): At a calendar boundary the open intervals close with offsets, INTERVAL records are written and staged parameters take effect. -/
def execIntervalBoundary (s : State) : Host.Outcome State Fault Refusal := s.acts intervalBoundary

/-- PERIODIC_SAVE (R362): Every period_s operating seconds the device starts writing a save into the next ring slot. -/
def execPeriodicSave (s : State) : Host.Outcome State Fault Refusal := s.acts periodicSave

/-- SAVE_COMPLETE (R362): A save's write and read-back end, either succeeding or retrying after a mismatch. -/
def execSaveComplete (ok : Bool) (s : State) : Host.Outcome State Fault Refusal := s.acts (saveCompleteAll ok)

/-- SEAL_IN_ASSERT (R366): SEAL_IN asserted for 10 µs sets the seal latch, which opens the seal. -/
def execSealInAssert (asserted : Bool) (long : Bool) (s : State) : Host.Outcome State Fault Refusal :=
  s.always (fun d => watch (sealContact asserted long d))

/-- OPEN (R366): ENR_SEAL_CMD OPEN from MG compares the seal key and opens the seal by procedure, or counts a mismatch. -/
def execSealOpen (m : Master) (s : State) : Host.Outcome State Fault Refusal := s.acts (regCmd m.val 0xE0020 1)

/-- CLOSE (R366): ENR_SEAL_CMD CLOSE from MG ends the opening by procedure, and clears the latch while SEAL_IN is released. -/
def execSealClose (m : Master) (s : State) : Host.Outcome State Fault Refusal := s.acts (regCmd m.val 0xE0020 2)

/-- SEAL_OPENING_EXPIRE (R366): 3,600 s after OPEN the opening by procedure ends. -/
def execSealOpeningExpire (s : State) : Host.Outcome State Fault Refusal := s.acts sealExpire

/-- LEGAL_PARAM_WRITE (R365): MG writes a legal parameter while the seal is open, which stages it and appends PARAM_CHANGE. -/
def execLegalParamWrite (m : Master) (off : Nat) (v : BitVec 32) (s : State) : Host.Outcome State Fault Refusal :=
  s.acts (regCmd m.val off v.toNat)

/-- LEGAL_RECORD_WRITE_DONE (R374): A pending legal record's NVM write and read-back complete, and the record becomes visible. -/
def execLegalRecordWriteDone (s : State) : Host.Outcome State Fault Refusal := s.acts legalWriteDone

/-- LOG_INDEX_SELECT (R378): A write of EVR_x_IDX snapshots the record at that index for the writing master. -/
def execLogIndexSelect (m : Master) (l : Fin 2) (i : Fin 16384) (s : State) : Host.Outcome State Fault Refusal :=
  s.does (regCmd m.val (0xF0020 + 0x100 * l.val) i.val)

/-- LOG_REC7_READ (R378): A read of EVR_x_REC7 advances the master's index and snapshots the next record. -/
def execLogRec7Read (m : Master) (l : Fin 2) (s : State) : Host.Outcome State Fault Refusal :=
  s.does (busRead m.val .bar0 (0xF005C + 0x100 * l.val) false)

/-- LOG_CLEAR (R379): EVR_x_CMD CLEAR checks count, head and seal, then removes n records. -/
def execLogClear (m : Master) (l : Fin 2) (n : Fin 16384) (s : State) : Host.Outcome State Fault Refusal :=
  s.does (regCmd m.val (0xF0010 + 0x100 * l.val) (1 + 4 * n.val))

end Sys2Proof.Machine
end

