-- ==== Sys2Proof/Machine/CmdEth.lean ====
section
/-! DEFINITION. Meanings of commands: ethernet (chapter 15). -/
namespace Sys2Proof.Machine

/-- ETH_PORT_ENABLE (R332): Writing enable = 1 checks the port configuration and turns the port ON, or refuses it. -/
def execEthPortEnable (m : Master) (p : Port) (s : State) : Host.Outcome State Fault Refusal :=
  s.acts (regKeep m.val (0x50000 + 0x4000 * p.val) 0 1 1)

/-- ETH_PORT_DISABLE (R332): Writing enable = 0 stops reception at a frame boundary and enters DISABLING. -/
def execEthPortDisable (m : Master) (p : Port) (s : State) : Host.Outcome State Fault Refusal :=
  s.acts (regKeep m.val (0x50000 + 0x4000 * p.val) 0 1 0)

/-- LINK_CHANGE (R352): A port's link goes up or down, which raises the LINK event source. -/
def execLinkChange (p : Port) (up : Bool) (s : State) : Host.Outcome State Fault Refusal :=
  s.acts (fun d => if up && !d.phyRuns (1 + p.val) then d else linkChange p.val up d)

/-- ETH_FRAME_RX (R336): A received frame is checked, stamped and classified to a fabric block or the host rings. -/
def execEthFrameRx (p : Port) (bytes : List Byte) (err : RxError) (capture : Nat) (s : State) : Host.Outcome State Fault Refusal :=
  s.acts (frameRx p.val bytes err capture)

/-- PAUSE_HOLD_END (R342): A PAUSE hold expires and transmission resumes. -/
def execPauseHoldEnd (p : Port) (s : State) : Host.Outcome State Fault Refusal := s.acts (pauseHoldEnd p.val)

/-- RX_RING_TAKE (R344): A read of ETHn_RXRh_TAKE releases the held slots and takes every complete frame. -/
def execRxRingTake (m : Master) (p : Port) (h : Fin 2) (s : State) : Host.Outcome State Fault Refusal :=
  s.acts (busRead m.val .bar0 (0x51014 + 0x4000 * p.val + 0x40 * h.val) false)

/-- RX_RING_DONE (R344): A write of ETHn_RXRh_DONE releases the held slots without taking. -/
def execRxRingDone (m : Master) (p : Port) (h : Fin 2) (s : State) : Host.Outcome State Fault Refusal :=
  s.acts (regCmd m.val (0x51018 + 0x4000 * p.val + 0x40 * h.val) 0)

/-- RX_RING_ENABLE (R347): Enabling a receive ring from OFF sets all four indices to 0. -/
def execRxRingEnable (m : Master) (p : Port) (h : Fin 2) (s : State) : Host.Outcome State Fault Refusal :=
  s.acts (regKeep m.val (0x51000 + 0x4000 * p.val + 0x40 * h.val) 0 1 1)

/-- RX_RING_DISABLE (R347): Writing enable = 0 turns the ring OFF at once, and a frame in progress is dropped and rewound. -/
def execRxRingDisable (m : Master) (p : Port) (h : Fin 2) (s : State) : Host.Outcome State Fault Refusal :=
  s.acts (regKeep m.val (0x51000 + 0x4000 * p.val + 0x40 * h.val) 0 1 0)

/-- TX_RING_TAIL (R348): A write of ETHn_TXRh_TAIL makes the descriptors up to TAIL available for transmission. -/
def execTxRingTail (m : Master) (p : Port) (h : Fin 2) (tail : BitVec 16) (s : State) : Host.Outcome State Fault Refusal :=
  s.acts (regCmd m.val (0x5110C + 0x4000 * p.val + 0x40 * h.val) tail.toNat)

/-- TX_RING_ENABLE (R348): Enabling a transmit ring from OFF sets HEAD and TAIL to 0. -/
def execTxRingEnable (m : Master) (p : Port) (h : Fin 2) (s : State) : Host.Outcome State Fault Refusal :=
  s.acts (regKeep m.val (0x51100 + 0x4000 * p.val + 0x40 * h.val) 0 1 1)

/-- TX_RING_DISABLE (R349): Disabling a transmit ring ends the frame in transmission with ABORTED. -/
def execTxRingDisable (m : Master) (p : Port) (h : Fin 2) (s : State) : Host.Outcome State Fault Refusal :=
  s.acts (regKeep m.val (0x51100 + 0x4000 * p.val + 0x40 * h.val) 0 1 0)

/-- TX_FRAME_END (R339): A frame finishes transmission, its descriptors are written back, and the next frame is chosen by queue priority. -/
def execTxFrameEnd (p : Port) (capture : Nat) (s : State) : Host.Outcome State Fault Refusal := s.acts (txFrameEnd p.val capture)

/-- TX_UNDERRUN (R350): The MAC needs a byte that has not arrived, so it ends the frame with an inverted FCS and raises cut_thr. -/
def execTxUnderrun (p : Port) (s : State) : Host.Outcome State Fault Refusal := s.acts (txUnderrun p.val)

/-- MM_VERIFY_ATTEMPT (R340): Every verify_ms the port retries IEEE 802.3br verification, and reports FAILED after three attempts. -/
def execMmVerifyAttempt (p : Port) (s : State) : Host.Outcome State Fault Refusal := s.acts (mmAttempt p.val)

/-- MM_CONFIG_WRITE (R340): A change of pre_en or verify_dis restarts preemption verification. -/
def execMmConfigWrite (m : Master) (p : Port) (v : BitVec 32) (s : State) : Host.Outcome State Fault Refusal :=
  s.acts (regCmd m.val (0x50018 + 0x4000 * p.val) v.toNat)

/-- MM_VERIFY_RESPONSE_RX (R340): An IEEE 802.3br verify or respond mPacket is received, and port verification can reach SUCCEEDED so that preemption becomes active. -/
def execMmVerifyResponseRx (p : Port) (s : State) : Host.Outcome State Fault Refusal := s.acts (mmResponse p.val)

end Sys2Proof.Machine
end

