-- ==== Sys2Proof/Machine/CmdFabric.lean ====
section
/-! DEFINITION. Meanings of commands: the fabric, register accesses, quires, headroom and the core voltage (chapters 2 and 20). -/
namespace Sys2Proof.Machine

/-- REGISTER_WRITE (R9): A master writes a register that has no row of its own, and each field acts under its access type. -/
def execRegisterWrite (m : Master) (sp : BusSpace) (off : Nat) (v : BitVec 32) (be : BitVec 4) (s : State) : Host.Outcome State Fault Refusal :=
  s.acts (busWrite {} m.val sp off v.toNat (be == 15))

/-- LOW_WORD_READ (R10): A read of the low word of a 64-bit pair captures the high word into a shadow for the reading master. -/
def execLowWordRead (m : Master) (sp : BusSpace) (off : Nat) (wide : Bool) (s : State) : Host.Outcome State Fault Refusal :=
  s.does (busRead m.val sp off wide)

/-- QUIRE_SEND (R20): A producer sends an item while it holds a credit and uses up one credit; an item offered at a dead crossing is discarded instead. -/
def execQuireSend (i : Fin 1024) (s : State) : Host.Outcome State Fault Refusal := s.does (quireSend i.val)

/-- QUIRE_CREDIT_RETURN (R20): A consumer takes an item out and returns a credit, which lets a waiting producer continue. -/
def execQuireCreditReturn (i : Fin 1024) (s : State) : Host.Outcome State Fault Refusal := s.does (quireReturn i.val)

/-- READER_NOTICE_TAKE (R116): A reader takes the next close notice at its cursor and acts on it. -/
def execReaderNoticeTake (r : Fin 64) (s : State) : Host.Outcome State Fault Refusal := s.acts (readerNotice r.val)

/-- FABRIC_TIMEOUT (R16): A fabric handshake does not complete within its timeout; the block is recorded and stopped, and event source 0 is raised. -/
def execFabricTimeout (block : Fin 60) (s : State) : Host.Outcome State Fault Refusal := s.acts (fabricTimeout block.val)

/-- DEAD_CROSSING (R25): A domain clock stays absent longer than the timeout while an item waits at its crossing, so the crossing is declared dead. -/
def execDeadCrossing (dom : Fin 12) (s : State) : Host.Outcome State Fault Refusal := s.acts (crossingLost dom.val)

/-- CROSSING_REVIVE (R25): The first clock edge after the domain's source has been re-established returns a dead crossing to service. -/
def execCrossingRevive (dom : Fin 12) (s : State) : Host.Outcome State Fault Refusal := s.acts (crossingReturn dom.val)

/-- QMON_SELECT (R9): A write of GCTL_QMON_SEL.index snapshots the selected quire into GCTL_QMON_DATA for the writing master. -/
def execQmonSelect (m : Master) (v : BitVec 32) (s : State) : Host.Outcome State Fault Refusal := s.does (regCmd m.val 0x200 v.toNat)

/-- QMON_CLEAR_HWM (R9): A write of GCTL_QMON_SEL.clear_hwm resets the high-water mark of the selected quire to its current occupancy. -/
def execQmonClearHwm (m : Master) (i : Fin 1024) (s : State) : Host.Outcome State Fault Refusal :=
  s.does (regCmd m.val 0x200 (i.val + 2 ^ 31))

/-- HEADROOM_MEASURE (R28): Every 100 µs the canary rings finish their lap count and the device publishes the minimum headroom. -/
def execHeadroomMeasure (counts : List Nat) (s : State) : Host.Outcome State Fault Refusal := s.does (headroomMeasure counts)

/-- HDRM_LOW_CLEAR (R31): A write of 1 to GCTL_HDRM.low clears the flag only while the headroom is zero or above. -/
def execHdrmLowClear (m : Master) (s : State) : Host.Outcome State Fault Refusal := s.does (regCmd m.val 0x100 (2 ^ 29))

/-- AVS_EVALUATE (R29): Once per millisecond the AVS loop evaluates the headroom and may request a VCORE step over AVSBus. -/
def execAvsEvaluate (s : State) : Host.Outcome State Fault Refusal := s.does avsEvaluate

/-- AVS_VOUT_POLL (R458): Every 50 µs during a step the device reads Vout, and the step completes when the value lies within ±5 mV of the request. -/
def execAvsVoutPoll (mv : Nat) (s : State) : Host.Outcome State Fault Refusal := s.does (avsPoll mv)

/-- AVS_STEP_TIMEOUT (R458): An AVS step fails when 500 µs pass, or when a frame carries a bad CRC or an error status. -/
def execAvsStepTimeout (s : State) : Host.Outcome State Fault Refusal := s.does avsFail

/-- SUPPLY_WARN (R457): A rail lies below its request or nominal value, which raises event source 10. -/
def execSupplyWarn (rail : Rail) (s : State) : Host.Outcome State Fault Refusal := s.does (supplyWarn rail)

end Sys2Proof.Machine
end

