-- ==== Sys2Proof/Machine/CmdFilter.lean ====
section
/-! DEFINITION. Meanings of commands: filters (chapter 8). -/
namespace Sys2Proof.Machine

/-- FILTER_SAMPLE (R142): The filter lane processes one input sample through rank, calibration, demodulation and decimation, and delivers any output that falls due. -/
def execFilterSample (s : State) : Host.Outcome State Fault Refusal := s.acts sampleTake

/-- SWAP_REQUEST (R153): FLT_GRPg_SWAP REQUEST names a target bank and fade length; it is taken, or held during a fade. -/
def execSwapRequest (m : Master) (g : Fin 32) (bank : Fin 2) (fade : Fin 8192) (s : State) : Host.Outcome State Fault Refusal :=
  s.acts (regCmd m.val (0x80004 + 0x40 * g.val) (1 + 4 * bank.val + 65536 * fade.val))

/-- SWAP_CANCEL (R155): FLT_GRPg_SWAP CANCEL discards a held request, which ends with CANCELLED. -/
def execSwapCancel (m : Master) (g : Fin 32) (s : State) : Host.Outcome State Fault Refusal :=
  s.acts (regCmd m.val (0x80004 + 0x40 * g.val) 2)

/-- FLT_GROUP_ENABLE (R159): Writing enable = 1 checks the selected bank and turns the group ON with a synchronising reset, or refuses it. -/
def execFltGroupEnable (m : Master) (g : Fin 32) (s : State) : Host.Outcome State Fault Refusal :=
  s.acts (regKeep m.val (0x80000 + 0x40 * g.val) 0 1 1)

/-- FLT_GROUP_DISABLE (R159): Writing enable = 0 enters DISABLING, ends any fade and discards a held request. -/
def execFltGroupDisable (m : Master) (g : Fin 32) (s : State) : Host.Outcome State Fault Refusal :=
  s.acts (regKeep m.val (0x80000 + 0x40 * g.val) 0 1 0)

/-- FLT_GROUP_OFF (R159): The output being computed is delivered, the group reaches OFF, and event source 59 is raised. -/
def execFltGroupOff (g : Fin 32) (s : State) : Host.Outcome State Fault Refusal :=
  s.acts (fun d => if d.laneRuns 3 (g.val / 2) then groupOff g.val d else d)

end Sys2Proof.Machine
end

