-- ==== Sys2Proof/Machine/CmdHost.lean ====
section
/-! DEFINITION. Meanings of commands: the hosts: PCIe, DMA, SPI, BAR2 and events (chapter 20). -/
namespace Sys2Proof.Machine

/-- PCIE_LINK_DOWN (R419): A hot reset or link-down of one endpoint resets its configuration space and aborts its DMA. -/
def execPcieLinkDown (e : Endpoint) (s : State) : Host.Outcome State Fault Refusal := s.does (pcieDown e.val)

/-- PCIE_LINK_UP (R419): A PCIe endpoint's link comes up, and device writes to that host's memory are delivered again. -/
def execPcieLinkUp (e : Endpoint) (s : State) : Host.Outcome State Fault Refusal := s.does (pcieUp e.val)

/-- DMA_START (R420): Writing enable = 1 to an idle DMA channel starts its descriptor chain. -/
def execDmaStart (m : Master) (i : Fin 16) (s : State) : Host.Outcome State Fault Refusal :=
  s.does (regKeep m.val (0x30100 + 0x20 * i.val) 0 1 1)

/-- DMA_DESCRIPTOR_DONE (R421): A DMA descriptor ends with a status, and the chain continues or stops. -/
def execDmaDescriptorDone (e : Endpoint) (s : State) : Host.Outcome State Fault Refusal := s.does (dmaDone e.val)

/-- DMA_ABORT (R421): Writing enable = 0 ends the running descriptor with ABORTED and stops the chain. -/
def execDmaAbort (m : Master) (i : Fin 16) (s : State) : Host.Outcome State Fault Refusal :=
  s.does (regKeep m.val (0x30100 + 0x20 * i.val) 0 1 0)

/-- SPI_READ (R422): An SPI READ transaction with a good CRC reads a register or pops a queue and returns the response. -/
def execSpiRead (mosi : List Byte) (s : State) : Host.Outcome State Fault Refusal := s.acts (spiReadTransaction mosi)

/-- SPI_WRITE (R422): An SPI WRITE transaction with a good CRC takes effect and returns a status response. -/
def execSpiWrite (mosi : List Byte) (s : State) : Host.Outcome State Fault Refusal := s.acts (spiWriteTransaction mosi)

/-- SPI_CS_EARLY_RISE (R424): MG_CS_N rises before the last request bit and the transaction is discarded, or the response is cut and counted. -/
def execSpiCsEarlyRise (mosi : List Byte) (after : Bool) (s : State) : Host.Outcome State Fault Refusal :=
  s.acts (spiEarlyRise mosi after)

/-- BAR2_ACCESS (R418): A BAR2 access reaches DRAM through the aperture and is checked against its partition's table. -/
def execBar2Access (e : Endpoint) (off : Nat) (acc : BarAcc) (s : State) : Host.Outcome State Fault Refusal :=
  s.does (bar2Access e.val off acc)

/-- EVENT_MERGED_RAISE (R496): A merged raise of a rate-limited event source takes effect at the start of the next aligned millisecond. -/
def execEventMergedRaise (src : Fin 128) (s : State) : Host.Outcome State Fault Refusal := s.does (mergedRaise src.val)

/-- EVC_MASK_WRITE (R433): Clearing a mask bit while its pending bit is set sends the MSI-X message. -/
def execEvcMaskWrite (m : Master) (t : Fin 3) (w : Fin 4) (v : BitVec 32) (s : State) : Host.Outcome State Fault Refusal :=
  s.does (regCmd m.val (0x120240 + 16 * t.val + 4 * w.val) v.toNat)

/-- DOORBELL (R436): A write to EVC_DOORBELL raises source 127 and records the value and the writing master. -/
def execDoorbell (m : Master) (v : BitVec 32) (s : State) : Host.Outcome State Fault Refusal := s.does (regCmd m.val 0x120300 v.toNat)

end Sys2Proof.Machine
end

