-- ==== Sys2Proof/Machine/CmdLogic.lean ====
section
/-! DEFINITION. Meanings of commands: the logic engine, GOOSE and the force table (chapter 13). -/
namespace Sys2Proof.Machine

/-- LE_CYCLE (R245): The logic engine takes its INPUT snapshot, executes the program and delivers its OUTPUT. -/
def execLeCycle (ns : Nat) (xns : Nat) (s : State) : Host.Outcome State Fault Refusal := s.acts (leCycle ns xns)

/-- LE_WATCHDOG (R246): The cycle time reaches watchdog_us, so the engine halts with cause WATCHDOG. -/
def execLeWatchdog (s : State) : Host.Outcome State Fault Refusal := s.acts leWatchdog

/-- LOCKSTEP_MISMATCH (R243): The checker finds the two cores differ, so the engine halts with cause LOCKSTEP. -/
def execLockstepMismatch (pc : BitVec 32) (s : State) : Host.Outcome State Fault Refusal := s.acts (leLockstep pc.toNat)

/-- LE_ECC_ERROR (R244): An uncorrectable ECC error in logic data or program memory halts the engine. -/
def execLeEccError (pc : BitVec 32) (s : State) : Host.Outcome State Fault Refusal := s.acts (leEcc pc.toNat)

/-- START_WARM (R256): LGE_CTRL START_WARM starts the engine, which restores the retained area from a matching save. -/
def execLeStartWarm (m : Master) (s : State) : Host.Outcome State Fault Refusal := s.acts (regCmd m.val 0xC0000 1)

/-- START_COLD (R256): LGE_CTRL START_COLD starts the engine with every variable at its initial value. -/
def execLeStartCold (m : Master) (s : State) : Host.Outcome State Fault Refusal := s.acts (regCmd m.val 0xC0000 2)

/-- STOP (R256): LGE_CTRL STOP moves a RUNNING engine to STOPPING, and it reaches STOPPED at the end of its OUTPUT. -/
def execLeStop (m : Master) (inWait : Bool) (s : State) : Host.Outcome State Fault Refusal :=
  s.acts (busWrite { inWait := inWait } m.val .bar0 0xC0000 3 true)

/-- LE_START_COMPLETE (R256): STARTING finishes self-test, bank verification and data initialisation, and the engine becomes RUNNING, STOPPED or HALTED. -/
def execLeStartComplete (ok : Bool) (s : State) : Host.Outcome State Fault Refusal := s.acts (leStartComplete ok)

/-- STARTUP_RESTART (R257): At start-up or re-binding step 8, the engine applies auto_restart to the configured bank. -/
def execStartupRestart (s : State) : Host.Outcome State Fault Refusal := s.acts restartAll

/-- SWAP (R278): LGE_CTRL.swap arms an exchange, or is refused with NOT_VERIFIED, STATE or ARMED. -/
def execProgSwap (m : Master) (inWait : Bool) (xns : Nat) (s : State) : Host.Outcome State Fault Refusal :=
  s.acts (busWrite { inWait := inWait, ns := xns } m.val .bar0 0xC0000 8 true)

/-- DOUT_TOGGLE (R251): At each 50 µs multiple, DOUTn toggles while its command, RUNNING and acting hold, and is static low otherwise. -/
def execDoutToggle (balls : BitVec 16) (s : State) : Host.Outcome State Fault Refusal := s.acts (doutToggle balls.toNat)

/-- GOOSE_RX (R253): A GOOSE frame matching a subscription is accepted, dropped or flagged as a mismatch. -/
def execGooseRx (s : State) : Host.Outcome State Fault Refusal := s.acts gooseRx

/-- GOOSE_STALE (R254): timeAllowedtoLive elapses after the last accepted frame, so the subscription becomes stale. -/
def execGooseStale (b : Fin 64) (s : State) : Host.Outcome State Fault Refusal := s.acts (gooseStale b.val)

/-- GOOSE_RETRANSMIT (R255): A planned retransmission interval elapses and the publication is resent with sqNum incremented. -/
def execGooseRetransmit (b : Fin 32) (s : State) : Host.Outcome State Fault Refusal := s.acts (gooseRetransmit b.val)

/-- PROG_VERIFY (R277): LGE_PROG_CMD VERIFY starts verification of a program bank, or gives STATE or BUSY. -/
def execProgVerify (m : Master) (bank : Fin 2) (s : State) : Host.Outcome State Fault Refusal :=
  s.acts (regCmd m.val 0xC0040 (1 + 4 * bank.val))

/-- PROG_VERIFY_DONE (R277): Program verification ends, and the bank becomes VERIFIED or FAILED. -/
def execProgVerifyDone (s : State) : Host.Outcome State Fault Refusal := s.acts progVerifyDone

/-- PROG_CANCEL (R278): LGE_PROG_CMD CANCEL disarms an armed exchange with CANCELLED. -/
def execProgCancel (m : Master) (s : State) : Host.Outcome State Fault Refusal := s.acts (regCmd m.val 0xC0040 2)

/-- FORCE_WRITE (R281): A write of LGE_FRCi word 0 applies a force entry and its staged value at the next INPUT. -/
def execForceWrite (m : Master) (i : Fin 256) (v : BitVec 32) (s : State) : Host.Outcome State Fault Refusal :=
  s.acts (regCmd m.val (0xCC000 + 16 * i.val) v.toNat)

end Sys2Proof.Machine
end

