-- ==== Sys2Proof/Machine/CmdPair.lean ====
section
/-! DEFINITION. Meanings of commands: the redundant pair (chapter 14). -/
namespace Sys2Proof.Machine

/-- PAIR_START (R285): At start-up step 10 or re-binding step 9, the unit enters SINGLE, JOINING or RELEASED. -/
def execPairStart (s : State) : Host.Outcome State Fault Refusal := s.acts pairStartAll

/-- JOIN (R296): A JOINING unit receives JOIN and the winner enters HOLDER, or a role conflict is flagged. -/
def execSpnJoin (rx : SpineRx) (s : State) : Host.Outcome State Fault Refusal := s.acts (spnReceive 1 onJoin rx)

/-- GRANT (R292): A GRANT is received: the unit answers with ACK, a JOINING unit moves to SYNCING, and a SECONDARY holder may yield. -/
def execSpnGrant (rx : SpineRx) (s : State) : Host.Outcome State Fault Refusal := s.acts (spnReceive 2 onGrant rx)

/-- ACK (R292): An ACK extends the holder's lease from the send instant of the acknowledged GRANT. -/
def execSpnAck (rx : SpineRx) (s : State) : Host.Outcome State Fault Refusal := s.acts (spnReceive 3 onAck rx)

/-- RELEASE (R294): A STANDBY that receives RELEASE takes the token within 10 µs. -/
def execSpnRelease (rx : SpineRx) (s : State) : Host.Outcome State Fault Refusal := s.acts (spnReceive 4 onRelease rx)

/-- REQUEST (R302): A SECONDARY holder that receives REQUEST prepares a handover at the end of its next OUTPUT. -/
def execSpnRequest (rx : SpineRx) (s : State) : Host.Outcome State Fault Refusal := s.acts (spnReceive 5 onRequest rx)

/-- HANDOVER (R294): A STANDBY that receives HANDOVER takes the token within 10 µs. -/
def execSpnHandover (rx : SpineRx) (s : State) : Host.Outcome State Fault Refusal := s.acts (spnReceive 6 onHandover rx)

/-- MIRROR (R301): A MIRROR message delivers retained-area blocks to the standby. -/
def execSpnMirror (rx : SpineRx) (s : State) : Host.Outcome State Fault Refusal := s.acts (spnReceive 7 onMirror rx)

/-- SNAP_REQ (R301): A received SNAP_REQ makes the next mirror set hold every retained block. -/
def execSpnSnapReq (rx : SpineRx) (s : State) : Host.Outcome State Fault Refusal := s.acts (spnReceive 8 onSnapReq rx)

/-- ACKCMD (R301): The standby applies a mirrored DET_CMD as a local command. -/
def execSpnAckcmd (rx : SpineRx) (s : State) : Host.Outcome State Fault Refusal := s.acts (spnReceive 9 onAckcmd rx)

/-- PUBSYNC (R301): The standby copies the holder's GOOSE stNum and sqNum into its own counters. -/
def execSpnPubsync (rx : SpineRx) (s : State) : Host.Outcome State Fault Refusal := s.acts (spnReceive 10 onPubsync rx)

/-- SPINE_MESSAGE_DISCARD (R288): A Spine message with a wrong CRC, a foreign pair_id, the receiver's own unit_id, an unknown type or an already-seen sequence number is discarded and counted in SPN_CRC_ERR or SPN_FOREIGN. -/
def execSpineMessageDiscard (rx : SpineRx) (s : State) : Host.Outcome State Fault Refusal := s.acts (spnMessageDiscard rx)

/-- GRANT_SEND (R292): Every ⌊lease_us / 6⌋ µs a holder or ISOLATED unit sends a GRANT and records its send instant. -/
def execSpnGrantSend (s : State) : Host.Outcome State Fault Refusal := s.acts grantSend

/-- JOIN_SEND (R296): Every ⌊lease_us / 6⌋ µs a JOINING unit sends JOIN. -/
def execSpnJoinSend (s : State) : Host.Outcome State Fault Refusal := s.acts joinSend

/-- PUBSYNC_SEND (R301): Once per second the holder sends PUBSYNC with its GOOSE counters. -/
def execSpnPubsyncSend (s : State) : Host.Outcome State Fault Refusal := s.acts pubsyncSend

/-- SPINE_TX_DONE (R287): A Spine-A message finishes on the line, and the next pending message is chosen by priority. -/
def execSpineTxDone (s : State) : Host.Outcome State Fault Refusal := s.acts spnTxDone

/-- HEARTBEAT_PULSE (R290): Every 10 µs HB_OUT pulses high for 2 µs if the SPN core has acknowledged the previous request. -/
def execHeartbeatPulse (acked : Bool) (s : State) : Host.Outcome State Fault Refusal := s.acts (hbPulse acked)

/-- HB_IN_EDGE (R290): A rising edge at HB_IN marks the peer heartbeat alive. -/
def execHbInEdge (s : State) : Host.Outcome State Fault Refusal := s.acts hbInEdge

/-- HEARTBEAT_SILENT (R290): 30 µs without an HB_IN edge makes the peer heartbeat silent. -/
def execHeartbeatSilent (s : State) : Host.Outcome State Fault Refusal := s.acts hbSilent

/-- SPINE_PATH_SILENT (R291): No valid message for lease_us + 20 µs makes a Spine path silent, and event source 110 is raised. -/
def execSpinePathSilent (path : SpinePath) (s : State) : Host.Outcome State Fault Refusal := s.acts (spnPathSilent (path == .b))

/-- LEASE_LAPSE (R293): A holder's lease lapses while the peer heartbeat is alive, so it enters ISOLATED and stops acting. -/
def execLeaseLapse (s : State) : Host.Outcome State Fault Refusal := s.acts leaseLapse

/-- TAKE_ON_SILENCE (R294): A STANDBY takes the token when both paths and the heartbeat have been silent for lease + 20 µs. -/
def execTakeOnSilence (s : State) : Host.Outcome State Fault Refusal := s.acts takeOnSilence

/-- SYNC_TIMEOUT (R295): A SYNCING unit with no valid Spine message for lease + 20 µs returns to JOINING. -/
def execSyncTimeout (s : State) : Host.Outcome State Fault Refusal := s.acts syncTimeout

/-- JOIN_TIMEOUT (R296): join_ms without any message or heartbeat makes a JOINING unit HOLDER, and with a heartbeat alone raises event source 111. -/
def execJoinTimeout (s : State) : Host.Outcome State Fault Refusal := s.acts joinTimeout

/-- SPN_CMD_RELEASE (R300): SPN_CMD RELEASE with confirm 0xA5 releases the token of a holder whose peer is STANDBY. -/
def execSpnCmdRelease (m : Master) (confirm : Fin 256) (s : State) : Host.Outcome State Fault Refusal :=
  s.acts (regCmd m.val 0xD0010 (1 + 256 * confirm.val))

/-- REJOIN (R295): SPN_CMD REJOIN moves a RELEASED unit to JOINING while no cause stands. -/
def execSpnRejoin (m : Master) (s : State) : Host.Outcome State Fault Refusal := s.acts (regCmd m.val 0xD0010 2)

/-- SPN_CLEAR_CNT (R295): SPN_CMD CLEAR_CNT clears the pair counters. -/
def execSpnClearCnt (m : Master) (s : State) : Host.Outcome State Fault Refusal := s.acts (regCmd m.val 0xD0010 3)

/-- RETURN_HOLDOFF (R302): A PRIMARY STANDBY whose return conditions have held for holdoff_s sends REQUEST. -/
def execReturnHoldoff (s : State) : Host.Outcome State Fault Refusal := s.acts returnHoldoff

/-- SPN_RETURN_WRITE (R302): A write to SPN_RETURN restarts the hold-off count. -/
def execSpnReturnWrite (m : Master) (v : BitVec 32) (s : State) : Host.Outcome State Fault Refusal :=
  s.acts (regCmd m.val 0xD000C v.toNat)

/-- ECC_CRIT (R297): An uncorrectable ECC error in the alarm state table, the input or output image, the SPN state or the Collator tables raises self-diagnosis cause ECC_CRIT and releases the token. -/
def execEccCrit (s : State) : Host.Outcome State Fault Refusal := s.acts eccCrit

end Sys2Proof.Machine
end

