-- ==== Sys2Proof/Machine/CmdPower.lean ====
section
/-! DEFINITION. Meanings of commands: supplies, resets, the standby island, start-up, shutdown, NVM and test access (chapters 22 to 24). -/
namespace Sys2Proof.Machine

/-- PORN_ASSERT (R462): PORn held low for 1 µs resets the device. -/
def execPornAssert (s : State) : Host.Outcome State Fault Refusal := s.always pornAssert

/-- RESET_RELEASE (R456): 1 ms after PORn is high with every monitor clear, internal reset is released and start-up begins. -/
def execResetRelease (s : State) : Host.Outcome State Fault Refusal := s.always resetRelease

/-- SUPPLY_MONITOR_TRIP (R456): A main rail falls below its threshold and resets the device with cause SUPPLY. -/
def execSupplyMonitorTrip (s : State) : Host.Outcome State Fault Refusal := s.always supplyTrip

/-- TJ_MEASURE (R460): Every 1 ms Tj is measured and the thermal cause is set or cleared. -/
def execTjMeasure (tj : Int) (s : State) : Host.Outcome State Fault Refusal := s.always (fun d => watch (tjMeasure tj d))

/-- SOFT_RESET (R462): CKP_RESET with confirm 0x5E from an administering master resets the device. -/
def execSoftReset (m : Master) (confirm : BitVec 32) (s : State) : Host.Outcome State Fault Refusal :=
  s.does (regCmd m.val 0x10808 confirm.toNat)

/-- ORDERLY_SHUTDOWN (R466): CKP_SHUTDOWN with confirm 0xD5 starts an orderly shutdown, or is refused with BUSY or STATE. -/
def execOrderlyShutdown (m : Master) (confirm : BitVec 32) (s : State) : Host.Outcome State Fault Refusal :=
  s.acts (regCmd m.val 0x1080C confirm.toNat)

/-- SHUTDOWN_POWER_OFF (R466): Once the pending legal records are written, the island records ORDERLY and drives PWR_EN low. -/
def execShutdownPowerOff (s : State) : Host.Outcome State Fault Refusal := s.acts shutPowerOff

/-- VSTBY_RISE (R478): VSTBY rising through its threshold sets the SEAL_IN latch and drives PWR_EN high. -/
def execVstbyRise (s : State) : Host.Outcome State Fault Refusal := s.always vstbyRise

/-- VSTBY_LOSS (R478): VSTBY falls below the island monitor threshold; the device is held in reset and the island state is lost. -/
def execVstbyLoss (s : State) : Host.Outcome State Fault Refusal := s.always vstbyLoss

/-- WAKE_EDGE (R461): A WAKE rising edge returns PWR_EN high, or is remembered during the 100 ms hold-off. -/
def execWakeEdge (s : State) : Host.Outcome State Fault Refusal := s.always wakeEdge

/-- WAKE_HOLDOFF_EXPIRE (R461): 100 ms after PWR_EN fell, a remembered WAKE edge takes effect. -/
def execWakeHoldoffExpire (s : State) : Host.Outcome State Fault Refusal := s.always wakeExpire

/-- STARTUP_NVM_READ (R463): At start-up step 4 the NVM areas are checked, settings applied, the save restored and training begun. -/
def execStartupNvmRead (bad : Fin 16) (s : State) : Host.Outcome State Fault Refusal := s.acts (startupNvmRead bad.val)

/-- DDR_TRAINING_DONE (R464): DDR5 training completes or fails, which fixes the installed capacity. -/
def execDdrTrainingDone (ok : Bool) (mib : Nat) (s : State) : Host.Outcome State Fault Refusal := s.acts (ddrTrained ok mib)

/-- NVM_KEY_WRITE (R471): A write of NVM_KEY advances the two-word key sequence that arms a store. -/
def execNvmKeyWrite (m : Master) (v : BitVec 32) (s : State) : Host.Outcome State Fault Refusal := s.does (regCmd m.val 0x20100 v.toNat)

/-- NVM_KEY_EXPIRE (R471): 1 ms after arming without an NVM_CMD, the key disarms. -/
def execNvmKeyExpire (m : Master) (s : State) : Host.Outcome State Fault Refusal := s.does (nvmKeyExpire m.val)

/-- STORE_SLOT (R471): NVM_CMD STORE_SLOT writes an image into a Binding slot. -/
def execStoreSlot (m : Master) (slot : Fin 4) (staging : Bool) (s : State) : Host.Outcome State Fault Refusal :=
  s.does (regCmd m.val 0x20104 (1 + 16 * slot.val + 64 * b2n staging))

/-- ERASE_SLOT (R471): NVM_CMD ERASE_SLOT erases a Binding slot. -/
def execEraseSlot (m : Master) (slot : Fin 4) (s : State) : Host.Outcome State Fault Refusal :=
  s.does (regCmd m.val 0x20104 (2 + 16 * slot.val))

/-- STORE_SETTINGS (R471): NVM_CMD STORE_SETTINGS writes the persistent settings area. -/
def execStoreSettings (m : Master) (staging : Bool) (s : State) : Host.Outcome State Fault Refusal :=
  s.does (regCmd m.val 0x20104 (3 + 64 * b2n staging))

/-- ENROLL_KEY (R471): NVM_CMD ENROLL_KEY enrols the owner key once. -/
def execEnrollKey (m : Master) (staging : Bool) (s : State) : Host.Outcome State Fault Refusal :=
  s.does (regCmd m.val 0x20104 (4 + 64 * b2n staging))

/-- SET_MINVER (R471): NVM_CMD SET_MINVER raises BND_MINVER, and refuses any lowering. -/
def execSetMinver (m : Master) (s : State) : Host.Outcome State Fault Refusal := s.does (regCmd m.val 0x20104 5)

/-- SET_SEAL_KEY (R471): NVM_CMD SET_SEAL_KEY from MG with the seal open writes the seal key. -/
def execSetSealKey (m : Master) (s : State) : Host.Outcome State Fault Refusal := s.does (regCmd m.val 0x20104 6)

/-- NVM_CHUNK_DONE (R468): A 64 KiB store chunk completes, and pending appends and saves are taken before the next chunk. -/
def execNvmChunkDone (s : State) : Host.Outcome State Fault Refusal := s.acts nvmChunk

/-- NVM_CMD_DONE (R472): An NVM command finishes after read-back, with its result, and raises event source 9. -/
def execNvmCmdDone (ok : Bool) (s : State) : Host.Outcome State Fault Refusal := s.acts (nvmDone ok)

/-- DOUT_FAULT (R482): The DOUT monitor and the expected state differ for 200 µs, so the fault bit sets. -/
def execDoutFault (n : Fin 16) (s : State) : Host.Outcome State Fault Refusal := s.acts (doutFault n.val)

/-- TAP_INSTRUCTION (R480): A TAP instruction loads under IEEE 1149.1, with EXTEST, INTEST and CLAMP selecting BYPASS in service. -/
def execTapInstruction (t : TapOp) (s : State) : Host.Outcome State Fault Refusal := s.does (tapInstruction t)

end Sys2Proof.Machine
end

