-- ==== Sys2Proof/Machine/CmdSched.lean ====
section
/-! DEFINITION. Meanings of commands: engines, the scheduler and event detection (chapters 10 to 12). -/
namespace Sys2Proof.Machine

/-- TASK_CREATE (R172): A notice or fast emission creates one task for each matching ON instance in its ready list. -/
def execTaskCreate (s : State) : Host.Outcome State Fault Refusal := s.acts (schRun taskCreate)

/-- TASK_SUBMIT (R176): A write of SCH_SUBMIT7 submits a host task descriptor, and the result is set in SCH_SUBMIT_STAT. -/
def execTaskSubmit (m : Master) (v : BitVec 32) (s : State) : Host.Outcome State Fault Refusal := s.acts (regCmd m.val 0xA002C v.toNat)

/-- STAGING_COMPLETE (R179): Staging of a prefetched task completes, and the task may start if its engine is idle. -/
def execStagingComplete (e : Fin 16) (s : State) : Host.Outcome State Fault Refusal := s.acts (schRun (stagingComplete e.val))

/-- TASK_START (R178): A staged task moves to running on its engine, and its start time is recorded. -/
def execTaskStart (e : Fin 16) (s : State) : Host.Outcome State Fault Refusal := s.acts (schRun (taskStart e.val))

/-- TASK_END (R183): A running task ends DONE, GONE or DENIED; its result goes to DET, and a task record is written if configured. -/
def execTaskEnd (e : Fin 16) (s : State) : Host.Outcome State Fault Refusal := s.acts (schRun (taskEnd e.val))

/-- TASK_OVERRUN (R180): A task not started by its deadline ends as an overrun, is counted, and writes an OVERRUN record. -/
def execTaskOverrun (s : State) : Host.Outcome State Fault Refusal := s.acts (schRun taskOverrun)

/-- TASK_RUN_LIMIT (R181): A task runs longer than run_limit_ms, which is an engine fault with code RUN_LIMIT. -/
def execTaskRunLimit (e : Fin 16) (s : State) : Host.Outcome State Fault Refusal := s.acts (taskRunLimit e.val)

/-- ENGINE_FAULT (R181): An uncorrectable ECC error, illegal operation or address fault aborts the task, writes a FAULT record and starts self-test. -/
def execEngineFault (e : Fin 16) (code : Fin 3) (s : State) : Host.Outcome State Fault Refusal := s.acts (engFault e.val (code.val + 1))

/-- SELFTEST_DONE (R181): Engine self-test ends, and the engine becomes ONLINE or FAILED. -/
def execSelftestDone (e : Fin 16) (pass : Bool) (s : State) : Host.Outcome State Fault Refusal := s.acts (selftestDone e.val pass)

/-- ENGINE_ENABLE (R182): Writing enable = 1 to an OFF engine after lock runs self-test, or sets enable_pending. -/
def execEngineEnable (m : Master) (e : Fin 16) (s : State) : Host.Outcome State Fault Refusal :=
  s.acts (regKeep m.val (0xA1000 + 0x40 * e.val) 0 1 1)

/-- ENGINE_DISABLE (R182): Writing enable = 0 to an ONLINE engine returns its prefetched task and enters DISABLING. -/
def execEngineDisable (m : Master) (e : Fin 16) (s : State) : Host.Outcome State Fault Refusal :=
  s.acts (regKeep m.val (0xA1000 + 0x40 * e.val) 0 1 0)

/-- ENGINE_RETEST (R182): Writing retest to a FAILED engine runs self-test, except after a FABRIC fault. -/
def execEngineRetest (m : Master) (e : Fin 16) (s : State) : Host.Outcome State Fault Refusal :=
  s.acts (regKeep m.val (0xA1000 + 0x40 * e.val) 5 1 1)

/-- INSTANCE_ENABLE (R173): Writing enable = 1 checks an instance entry and turns it ON with state_reset pending, or refuses it. -/
def execInstanceEnable (m : Master) (i : Fin 1024) (s : State) : Host.Outcome State Fault Refusal :=
  s.acts (regKeep m.val (0xA6000 + 4 * i.val) 0 1 1)

/-- INSTANCE_DISABLE (R173): Writing enable = 0 cancels the instance's ready and staged tasks and takes it to OFF or DISABLING. -/
def execInstanceDisable (m : Master) (i : Fin 1024) (s : State) : Host.Outcome State Fault Refusal :=
  s.acts (regKeep m.val (0xA6000 + 4 * i.val) 0 1 0)

/-- SCH_STATS_WINDOW (R184): At each whole second the engine statistics window closes and is published. -/
def execSchStatsWindow (s : State) : Host.Outcome State Fault Refusal := s.acts statsWindow

/-- LVL_CLEAR_HWM (R184): A write of clear_hwm in SCH_LVLp_DEPTH sets the high-water mark of the ready list to its depth. -/
def execLvlClearHwm (m : Master) (p : Fin 8) (s : State) : Host.Outcome State Fault Refusal :=
  s.acts (regCmd m.val (0xA0100 + 8 * p.val) (2 ^ 31))

/-- DET_RESULT (R228): DET takes a result, compares its point bits with the state table, and decides alarms. -/
def execDetResult (s : State) : Host.Outcome State Fault Refusal := s.acts detResult

/-- ACK_POINT (R230): DET_CMD ACK_POINT clears unacked at one point and writes ALARM_ACK. -/
def execAckPoint (m : Master) (p : Fin 16384) (s : State) : Host.Outcome State Fault Refusal :=
  s.acts (regCmd m.val 0xB0004 (1 + 16 * p.val))

/-- ACK_CLASS (R230): DET_CMD ACK_CLASS clears unacked at every point of one class and writes ALARM_ACK. -/
def execAckClass (m : Master) (c : Fin 16) (s : State) : Host.Outcome State Fault Refusal :=
  s.acts (regCmd m.val 0xB0004 (2 + 16 * c.val))

/-- CONFIRM_TIMEOUT (R232): confirm_ms passes without a re-run result, so a pending point resolves as UNVERIFIED. -/
def execConfirmTimeout (s : State) : Host.Outcome State Fault Refusal := s.acts confirmTimeout

/-- NOTICE_REPEAT (R236): At 1 ms intervals an alarm notice frame is repeated with identical content. -/
def execNoticeRepeat (s : State) : Host.Outcome State Fault Refusal := s.acts noticeRepeat

end Sys2Proof.Machine
end

