-- ==== Sys2Proof/Machine/CmdStreams.lean ====
section
/-! DEFINITION. Meanings of commands: streams and the Collator (chapters 6 and 7). -/
namespace Sys2Proof.Machine

/-- COMMIT (R81): STR_CMD COMMIT checks the host copy of an entry and, if the checks pass, schedules loading it into the working copy. -/
def execStrCommit (m : Master) (n : Fin 8192) (s : State) : Host.Outcome State Fault Refusal :=
  s.acts (regCmd m.val 0x60020 (1 + 16 * n.val))

/-- COMMIT_APPLY (R82): An accepted COMMIT takes effect between two frames of the source and moves its state. -/
def execStrCommitApply (s : State) : Host.Outcome State Fault Refusal := s.acts commitApplyAll

/-- CLEAR_CNT (R101): STR_CMD CLEAR_CNT clears the per-source counters of one entry. -/
def execClearCnt (m : Master) (n : Fin 8192) (s : State) : Host.Outcome State Fault Refusal :=
  s.acts (regCmd m.val 0x60020 (2 + 16 * n.val))

/-- NOTE_CFGCNT (R91): STR_CMD NOTE_CFGCNT compares an observed CFGCNT or confRev with cfg_ref, and on a difference sends the source to CFG_STALE. -/
def execNoteCfgcnt (m : Master) (n : Fin 8192) (s : State) : Host.Outcome State Fault Refusal :=
  s.acts (regCmd m.val 0x60020 (3 + 16 * n.val))

/-- STR_CMD_DONE (R495): A stream command completes, which writes result and index and raises event source 41. -/
def execStrCmdDone (s : State) : Host.Outcome State Fault Refusal := s.acts strDone

/-- SRC_SNAPSHOT (R101): A write of STR_SRC_SEL snapshots the state, counters and time-stamps of one entry for the writing master. -/
def execSrcSnapshot (m : Master) (n : Fin 8192) (s : State) : Host.Outcome State Fault Refusal := s.does (regCmd m.val 0x60100 n.val)

/-- SYNCHROPHASOR_FRAME_RX (R86): The RXP lane checks, matches, applies policy to and converts a received C37.118.2 data frame. -/
def execSynchrophasorFrameRx (s : State) : Host.Outcome State Fault Refusal := s.acts phasorFrameRx

/-- SV_FRAME_RX (R92): A sampled-value frame is matched, checked and timed, and its samples are accepted in count order. -/
def execSvFrameRx (s : State) : Host.Outcome State Fault Refusal := s.acts sampledFrameRx

/-- SILENCE_CHECK (R98): At every 1 ms instant the device checks each source for silence and raises the stream events. -/
def execSilenceCheck (s : State) : Host.Outcome State Fault Refusal := s.acts (fun d => atTime (nextMs d.now) silencePass d)

/-- GOOD_FRAME_PLACE (R107): The Collator places a good frame into the gathering of each member grid, or counts it as future, off-grid, late, duplicate or unused. -/
def execGoodFramePlace (s : State) : Host.Outcome State Fault Refusal := s.acts framePlaceNext

/-- GATHERING_OPEN (R117): At g − lead − tol a gathering opens at its ring position with a cleared header and due bits. -/
def execGatheringOpen (n : Fin 8) (s : State) : Host.Outcome State Fault Refusal := s.acts (colRun (gatheringOpen n.val))

/-- VIEW_INSTANT (R114): At instant g each open view is evaluated, and closes with cause ALL when every expected source has arrived. -/
def execViewInstant (n : Fin 8) (k : Nat) (s : State) : Host.Outcome State Fault Refusal :=
  s.acts (colRun (viewInstant n.val k Gathering.g))

/-- QUORUM_MIN_EXPIRE (R115): At g + min_us a QUORUM view with enough arrivals becomes PROVISIONAL. -/
def execQuorumMinExpire (n : Fin 8) (k : Nat) (r : Fin 64) (s : State) : Host.Outcome State Fault Refusal :=
  s.acts (colRun (viewQuorum n.val k r.val))

/-- VIEW_WAIT_EXPIRE (R114): At g + wait every view still open closes with cause WAIT. -/
def execViewWaitExpire (n : Fin 8) (k : Nat) (r : Fin 64) (s : State) : Host.Outcome State Fault Refusal :=
  s.acts (colRun (viewWait n.val k r.val))

/-- GATHERING_FINAL (R120): At final_time the gathering becomes FINAL and the device sends FINAL notices and tells DET the arrived_final count. -/
def execGatheringFinal (n : Fin 8) (k : Nat) (s : State) : Host.Outcome State Fault Refusal := s.acts (colRun (gatheringFinal n.val k))

/-- GATHERING_RETIRE (R117): At retire_time the gathering is RETIRED and its ring position becomes free. -/
def execGatheringRetire (n : Fin 8) (k : Nat) (s : State) : Host.Outcome State Fault Refusal := s.acts (colRun (gatheringRetire n.val k))

/-- GRID_ENABLE (R127): Writing enable = 1 to a grid checks its configuration and turns it ON, or refuses it. -/
def execGridEnable (m : Master) (n : Fin 8) (s : State) : Host.Outcome State Fault Refusal :=
  s.acts (regKeep m.val (0x70100 + 0x20 * n.val) 0 1 1)

/-- GRID_DISABLE (R128): Writing enable = 0 to a grid closes its views with cause DISABLE, disables its readers, and makes its gatherings FINAL and retired. -/
def execGridDisable (m : Master) (n : Fin 8) (s : State) : Host.Outcome State Fault Refusal :=
  s.acts (regKeep m.val (0x70100 + 0x20 * n.val) 0 1 0)

/-- READER_ENABLE (R127): Writing enable = 1 to a reader checks its configuration and turns it ON, or refuses it. -/
def execReaderEnable (m : Master) (r : Fin 64) (s : State) : Host.Outcome State Fault Refusal :=
  s.acts (regKeep m.val (0x71000 + 0x20 * r.val) 0 1 1)

/-- READER_DISABLE (R128): Writing enable = 0 to a reader withdraws its open views and enters DISABLING. -/
def execReaderDisable (m : Master) (r : Fin 64) (s : State) : Host.Outcome State Fault Refusal :=
  s.acts (regKeep m.val (0x71000 + 0x20 * r.val) 0 1 0)

/-- READER_OFF (R128): An output stream reaches OFF when its frame has left, and its grid reaches OFF when all its readers are OFF. -/
def execReaderOff (r : Fin 64) (s : State) : Host.Outcome State Fault Refusal := s.acts (readerTryOff r.val)

end Sys2Proof.Machine
end

