-- ==== Sys2Proof/Machine/CmdTime.lean ====
section
/-! DEFINITION. Meanings of commands: the time base: reads, steps, the PTP engine, UTC, trigger outputs and digital inputs (chapter 5). -/
namespace Sys2Proof.Machine

/-- TIME_CAPTURE_READ (R54): A read of TBS_TIME_FRAC or TBS_NOW_LO captures the whole time counter into a shadow for the reading master. -/
def execTimeCaptureRead (m : Master) (nowLo : Bool) (s : State) : Host.Outcome State Fault Refusal :=
  s.does (busRead m.val .bar0 (if nowLo then 0x40018 else 0x40008) false)

/-- SET (R55): TBS_CTRL.cmd SET requests loading of the counter from TBS_SET_SEC and TBS_SET_NS, unless it is refused. -/
def execTimeSet (m : Master) (s : State) : Host.Outcome State Fault Refusal := s.acts (regKeep m.val 0x40000 0 2 1)

/-- ADJ (R55): TBS_CTRL.cmd ADJ requests adding the signed TBS_ADJ nanoseconds to the counter, unless it is refused. -/
def execTimeAdj (m : Master) (s : State) : Host.Outcome State Fault Refusal := s.acts (regKeep m.val 0x40000 0 2 2)

/-- SET_STATE (R63): TBS_CTRL.set_state sets the time state to FREERUN, HOLDOVER or LOCKED in HOST and ENGINE_NOSERVO modes. -/
def execTimeSetState (m : Master) (st : Fin 4) (s : State) : Host.Outcome State Fault Refusal := s.acts (regKeep m.val 0x40000 2 2 st.val)

/-- PTP_MODE_CHANGE (R62): A write that changes TBS_CTRL.ptp_mode takes effect at once, and the integral is loaded when the new mode is ENGINE. -/
def execPtpModeChange (m : Master) (mode : Fin 4) (s : State) : Host.Outcome State Fault Refusal :=
  s.acts (regKeep m.val 0x40000 8 2 mode.val)

/-- INCR_WRITE (R62): A write to TBS_INCR_HI applies the increment pair at the next tick, and is discarded in ENGINE mode. -/
def execIncrWrite (m : Master) (v : BitVec 32) (s : State) : Host.Outcome State Fault Refusal := s.acts (regCmd m.val 0x40034 v.toNat)

/-- COUNTER_STEP (R56): The time counter is stepped at a TBC tick, which writes a TIME_STEP record and raises event source 13. -/
def execCounterStep (s : State) : Host.Outcome State Fault Refusal := s.acts counterStepAll

/-- ANNOUNCE_RX (R59): The engine receives an Announce message and updates master qualification, selection and the UTC fields. -/
def execAnnounceRx (s : State) : Host.Outcome State Fault Refusal := s.acts (fun d => enrEval false (announceRx d))

/-- MASTER_LOST (R59): announce_timeout intervals pass without an Announce or accepted Sync, so the selected master is lost. -/
def execMasterLost (s : State) : Host.Outcome State Fault Refusal := s.acts masterLost

/-- PDELAY_REQ_RX (R58): The engine answers a received Pdelay_Req with a two-step Pdelay_Resp and Pdelay_Resp_Follow_Up. -/
def execPdelayReqRx (s : State) : Host.Outcome State Fault Refusal := s.acts pdelayReqRx

/-- PDELAY_REQ_SEND (R58): At the log_pdelay interval the engine sends its own Pdelay_Req on an enabled port. -/
def execPdelayReqSend (p : Port) (s : State) : Host.Outcome State Fault Refusal := s.acts (pdelayReqSend p.val)

/-- PDELAY_RESP_RX (R60): A Pdelay_Resp is received, which supplies t2 and t4 of the exchange. -/
def execPdelayRespRx (s : State) : Host.Outcome State Fault Refusal := s.acts pdelayRespRx

/-- PDELAY_RESP_FOLLOW_UP_RX (R60): A Pdelay_Resp_Follow_Up completes the exchange, and the link delay sample updates the mean. -/
def execPdelayRespFollowUpRx (s : State) : Host.Outcome State Fault Refusal := s.acts pdelayFollowUpRx

/-- SYNC_RX (R61): A Sync from the selected master is received; a one-step Sync runs the servo at once. -/
def execSyncRx (s : State) : Host.Outcome State Fault Refusal := s.acts syncRx

/-- FOLLOW_UP_RX (R61): A Follow_Up supplies the origin time of a two-step Sync, and the servo runs. -/
def execFollowUpRx (s : State) : Host.Outcome State Fault Refusal := s.acts followUpRx

/-- HOLDOVER_TIMEOUT (R63): holdover_s elapses in HOLDOVER, so the state becomes FREERUN. -/
def execHoldoverTimeout (s : State) : Host.Outcome State Fault Refusal := s.acts holdoverTimeout

/-- HOLDOVER_SECOND (R64): Each elapsed second raises the holdover estimate and advances the seconds-since-LOCKED count. -/
def execHoldoverSecond (fromHold : Bool) (s : State) : Host.Outcome State Fault Refusal := s.acts (holdoverSecond fromHold)

/-- UTC_WRITE (R66): A write to TBS_UTC is governed by the src value it carries, and may set utc_offset and leap. -/
def execUtcWrite (m : Master) (v : BitVec 32) (s : State) : Host.Outcome State Fault Refusal := s.acts (regCmd m.val 0x40070 v.toNat)

/-- LEAP_APPLY (R67): A pending leap is applied at UTC midnight: the offset changes, leap clears and leap_occurred is set. -/
def execLeapApply (s : State) : Host.Outcome State Fault Refusal := s.acts (fun d => enrEval false (ivCatchUp (leapApply d)))

/-- LEAP_OCCURRED_EXPIRE (R67): 86,400 s after a leap has been applied, leap_occurred clears. -/
def execLeapOccurredExpire (s : State) : Host.Outcome State Fault Refusal := s.acts leapExpire

/-- TXQ_POP (R70): A read of TBS_Pn_TXQ_ID removes the oldest transmit stamp into a shadow for the reading master. -/
def execTxqPop (m : Master) (p : Port) (s : State) : Host.Outcome State Fault Refusal :=
  s.does (busRead m.val .bar0 (0x40110 + 0x20 * p.val) false)

/-- TTO_ENABLE (R72): Writing enable = 1 checks the period and width, then turns the time-trigger output ON or refuses with cfg_err. -/
def execTtoEnable (m : Master) (n : Fin 8) (s : State) : Host.Outcome State Fault Refusal :=
  s.acts (regKeep m.val (0x40200 + 0x20 * n.val) 0 1 1)

/-- TTO_DISABLE (R74): Writing enable = 0 turns the output OFF at once, or DISABLING while a pulse is active. -/
def execTtoDisable (m : Master) (n : Fin 8) (s : State) : Host.Outcome State Fault Refusal :=
  s.acts (regKeep m.val (0x40200 + 0x20 * n.val) 0 1 0)

/-- TTO_INSTANT (R72): A programmed instant is reached and the leading edge is emitted at the ball, or the instant is counted as missed. -/
def execTtoInstant (n : Fin 8) (s : State) : Host.Outcome State Fault Refusal := s.acts (ttoInstant n.val)

/-- TTO_TRAILING_EDGE (R74): The width count ends and the trailing edge is emitted; a DISABLING output becomes OFF. -/
def execTtoTrailingEdge (n : Fin 8) (s : State) : Host.Outcome State Fault Refusal := s.acts (ttoTrailing n.val)

/-- DIN_EDGE_CONFIRM (R75): filt_us + 1 consecutive samples at a new level confirm a DIN edge and stamp its time. -/
def execDinEdgeConfirm (n : Fin 16) (level : Bool) (run : Nat) (t : Nat) (s : State) : Host.Outcome State Fault Refusal :=
  s.acts (dinConfirm n.val level run t)

end Sys2Proof.Machine
end

