-- ==== Sys2Proof/Machine/Dispatch.lean ====
section
/-! DEFINITION. The dispatch of the commands: one arm per row of the table of operations, each one call of its meaning. -/
namespace Sys2Proof.Machine

def exec (i : Instr) (s : State) : Host.Outcome State Fault Refusal :=
  match i with
  | .registerWrite m sp off v be => Sys2Proof.Machine.execRegisterWrite m sp off v be s
  | .lowWordRead m sp off wide => Sys2Proof.Machine.execLowWordRead m sp off wide s
  | .quireSend idx => Sys2Proof.Machine.execQuireSend idx s
  | .quireCreditReturn idx => Sys2Proof.Machine.execQuireCreditReturn idx s
  | .readerNoticeTake r => Sys2Proof.Machine.execReaderNoticeTake r s
  | .fabricTimeout block => Sys2Proof.Machine.execFabricTimeout block s
  | .deadCrossing dom => Sys2Proof.Machine.execDeadCrossing dom s
  | .crossingRevive dom => Sys2Proof.Machine.execCrossingRevive dom s
  | .qmonSelect m v => Sys2Proof.Machine.execQmonSelect m v s
  | .qmonClearHwm m idx => Sys2Proof.Machine.execQmonClearHwm m idx s
  | .headroomMeasure counts => Sys2Proof.Machine.execHeadroomMeasure counts s
  | .hdrmLowClear m => Sys2Proof.Machine.execHdrmLowClear m s
  | .avsEvaluate => Sys2Proof.Machine.execAvsEvaluate s
  | .avsVoutPoll mv => Sys2Proof.Machine.execAvsVoutPoll mv s
  | .avsStepTimeout => Sys2Proof.Machine.execAvsStepTimeout s
  | .bndLock m => Sys2Proof.Machine.execBndLock m s
  | .bndVerify m slot => Sys2Proof.Machine.execBndVerify m slot s
  | .bindingVerifyDone => Sys2Proof.Machine.execBindingVerifyDone s
  | .bndRebind m slot confirm => Sys2Proof.Machine.execBndRebind m slot confirm s
  | .rebindVerifyDone => Sys2Proof.Machine.execRebindVerifyDone s
  | .rcvBegin m => Sys2Proof.Machine.execRcvBegin m s
  | .rcvData m v => Sys2Proof.Machine.execRcvData m v s
  | .rcvEnd m => Sys2Proof.Machine.execRcvEnd m s
  | .recoveryVerifyDone => Sys2Proof.Machine.execRecoveryVerifyDone s
  | .slotVerifyDone => Sys2Proof.Machine.execSlotVerifyDone s
  | .folioBuildDone ok => Sys2Proof.Machine.execFolioBuildDone ok s
  | .lockTimeout => Sys2Proof.Machine.execLockTimeout s
  | .timeCaptureRead m nowLo => Sys2Proof.Machine.execTimeCaptureRead m nowLo s
  | .timeSet m => Sys2Proof.Machine.execTimeSet m s
  | .timeAdj m => Sys2Proof.Machine.execTimeAdj m s
  | .timeSetState m st => Sys2Proof.Machine.execTimeSetState m st s
  | .ptpModeChange m mode => Sys2Proof.Machine.execPtpModeChange m mode s
  | .incrWrite m v => Sys2Proof.Machine.execIncrWrite m v s
  | .counterStep => Sys2Proof.Machine.execCounterStep s
  | .announceRx => Sys2Proof.Machine.execAnnounceRx s
  | .masterLost => Sys2Proof.Machine.execMasterLost s
  | .pdelayReqRx => Sys2Proof.Machine.execPdelayReqRx s
  | .pdelayReqSend p => Sys2Proof.Machine.execPdelayReqSend p s
  | .pdelayRespRx => Sys2Proof.Machine.execPdelayRespRx s
  | .pdelayRespFollowUpRx => Sys2Proof.Machine.execPdelayRespFollowUpRx s
  | .syncRx => Sys2Proof.Machine.execSyncRx s
  | .followUpRx => Sys2Proof.Machine.execFollowUpRx s
  | .holdoverTimeout => Sys2Proof.Machine.execHoldoverTimeout s
  | .holdoverSecond fromHold => Sys2Proof.Machine.execHoldoverSecond fromHold s
  | .utcWrite m v => Sys2Proof.Machine.execUtcWrite m v s
  | .leapApply => Sys2Proof.Machine.execLeapApply s
  | .leapOccurredExpire => Sys2Proof.Machine.execLeapOccurredExpire s
  | .txqPop m p => Sys2Proof.Machine.execTxqPop m p s
  | .ttoEnable m n => Sys2Proof.Machine.execTtoEnable m n s
  | .ttoDisable m n => Sys2Proof.Machine.execTtoDisable m n s
  | .ttoInstant n => Sys2Proof.Machine.execTtoInstant n s
  | .ttoTrailingEdge n => Sys2Proof.Machine.execTtoTrailingEdge n s
  | .dinEdgeConfirm n level run t => Sys2Proof.Machine.execDinEdgeConfirm n level run t s
  | .strCommit m n => Sys2Proof.Machine.execStrCommit m n s
  | .strCommitApply => Sys2Proof.Machine.execStrCommitApply s
  | .clearCnt m n => Sys2Proof.Machine.execClearCnt m n s
  | .noteCfgcnt m n => Sys2Proof.Machine.execNoteCfgcnt m n s
  | .strCmdDone => Sys2Proof.Machine.execStrCmdDone s
  | .srcSnapshot m n => Sys2Proof.Machine.execSrcSnapshot m n s
  | .synchrophasorFrameRx => Sys2Proof.Machine.execSynchrophasorFrameRx s
  | .svFrameRx => Sys2Proof.Machine.execSvFrameRx s
  | .silenceCheck => Sys2Proof.Machine.execSilenceCheck s
  | .goodFramePlace => Sys2Proof.Machine.execGoodFramePlace s
  | .gatheringOpen n => Sys2Proof.Machine.execGatheringOpen n s
  | .viewInstant n k => Sys2Proof.Machine.execViewInstant n k s
  | .quorumMinExpire n k r => Sys2Proof.Machine.execQuorumMinExpire n k r s
  | .viewWaitExpire n k r => Sys2Proof.Machine.execViewWaitExpire n k r s
  | .gatheringFinal n k => Sys2Proof.Machine.execGatheringFinal n k s
  | .gatheringRetire n k => Sys2Proof.Machine.execGatheringRetire n k s
  | .gridEnable m n => Sys2Proof.Machine.execGridEnable m n s
  | .gridDisable m n => Sys2Proof.Machine.execGridDisable m n s
  | .readerEnable m r => Sys2Proof.Machine.execReaderEnable m r s
  | .readerDisable m r => Sys2Proof.Machine.execReaderDisable m r s
  | .readerOff r => Sys2Proof.Machine.execReaderOff r s
  | .filterSample => Sys2Proof.Machine.execFilterSample s
  | .swapRequest m g bank fade => Sys2Proof.Machine.execSwapRequest m g bank fade s
  | .swapCancel m g => Sys2Proof.Machine.execSwapCancel m g s
  | .fltGroupEnable m g => Sys2Proof.Machine.execFltGroupEnable m g s
  | .fltGroupDisable m g => Sys2Proof.Machine.execFltGroupDisable m g s
  | .fltGroupOff g => Sys2Proof.Machine.execFltGroupOff g s
  | .taskCreate => Sys2Proof.Machine.execTaskCreate s
  | .taskSubmit m v => Sys2Proof.Machine.execTaskSubmit m v s
  | .stagingComplete e => Sys2Proof.Machine.execStagingComplete e s
  | .taskStart e => Sys2Proof.Machine.execTaskStart e s
  | .taskEnd e => Sys2Proof.Machine.execTaskEnd e s
  | .taskOverrun => Sys2Proof.Machine.execTaskOverrun s
  | .taskRunLimit e => Sys2Proof.Machine.execTaskRunLimit e s
  | .engineFault e code => Sys2Proof.Machine.execEngineFault e code s
  | .selftestDone e pass => Sys2Proof.Machine.execSelftestDone e pass s
  | .engineEnable m e => Sys2Proof.Machine.execEngineEnable m e s
  | .engineDisable m e => Sys2Proof.Machine.execEngineDisable m e s
  | .engineRetest m e => Sys2Proof.Machine.execEngineRetest m e s
  | .instanceEnable m idx => Sys2Proof.Machine.execInstanceEnable m idx s
  | .instanceDisable m idx => Sys2Proof.Machine.execInstanceDisable m idx s
  | .schStatsWindow => Sys2Proof.Machine.execSchStatsWindow s
  | .lvlClearHwm m p => Sys2Proof.Machine.execLvlClearHwm m p s
  | .detResult => Sys2Proof.Machine.execDetResult s
  | .ackPoint m p => Sys2Proof.Machine.execAckPoint m p s
  | .ackClass m c => Sys2Proof.Machine.execAckClass m c s
  | .confirmTimeout => Sys2Proof.Machine.execConfirmTimeout s
  | .noticeRepeat => Sys2Proof.Machine.execNoticeRepeat s
  | .leCycle ns xns => Sys2Proof.Machine.execLeCycle ns xns s
  | .leWatchdog => Sys2Proof.Machine.execLeWatchdog s
  | .lockstepMismatch pc => Sys2Proof.Machine.execLockstepMismatch pc s
  | .leEccError pc => Sys2Proof.Machine.execLeEccError pc s
  | .leStartWarm m => Sys2Proof.Machine.execLeStartWarm m s
  | .leStartCold m => Sys2Proof.Machine.execLeStartCold m s
  | .leStop m inWait => Sys2Proof.Machine.execLeStop m inWait s
  | .leStartComplete ok => Sys2Proof.Machine.execLeStartComplete ok s
  | .startupRestart => Sys2Proof.Machine.execStartupRestart s
  | .progSwap m inWait xns => Sys2Proof.Machine.execProgSwap m inWait xns s
  | .doutToggle balls => Sys2Proof.Machine.execDoutToggle balls s
  | .gooseRx => Sys2Proof.Machine.execGooseRx s
  | .gooseStale b => Sys2Proof.Machine.execGooseStale b s
  | .gooseRetransmit b => Sys2Proof.Machine.execGooseRetransmit b s
  | .progVerify m bank => Sys2Proof.Machine.execProgVerify m bank s
  | .progVerifyDone => Sys2Proof.Machine.execProgVerifyDone s
  | .progCancel m => Sys2Proof.Machine.execProgCancel m s
  | .forceWrite m idx v => Sys2Proof.Machine.execForceWrite m idx v s
  | .pairStart => Sys2Proof.Machine.execPairStart s
  | .spnJoin rx => Sys2Proof.Machine.execSpnJoin rx s
  | .spnGrant rx => Sys2Proof.Machine.execSpnGrant rx s
  | .spnAck rx => Sys2Proof.Machine.execSpnAck rx s
  | .spnRelease rx => Sys2Proof.Machine.execSpnRelease rx s
  | .spnRequest rx => Sys2Proof.Machine.execSpnRequest rx s
  | .spnHandover rx => Sys2Proof.Machine.execSpnHandover rx s
  | .spnMirror rx => Sys2Proof.Machine.execSpnMirror rx s
  | .spnSnapReq rx => Sys2Proof.Machine.execSpnSnapReq rx s
  | .spnAckcmd rx => Sys2Proof.Machine.execSpnAckcmd rx s
  | .spnPubsync rx => Sys2Proof.Machine.execSpnPubsync rx s
  | .spnGrantSend => Sys2Proof.Machine.execSpnGrantSend s
  | .spnJoinSend => Sys2Proof.Machine.execSpnJoinSend s
  | .spnPubsyncSend => Sys2Proof.Machine.execSpnPubsyncSend s
  | .spineTxDone => Sys2Proof.Machine.execSpineTxDone s
  | .heartbeatPulse acked => Sys2Proof.Machine.execHeartbeatPulse acked s
  | .hbInEdge => Sys2Proof.Machine.execHbInEdge s
  | .heartbeatSilent => Sys2Proof.Machine.execHeartbeatSilent s
  | .spinePathSilent path => Sys2Proof.Machine.execSpinePathSilent path s
  | .leaseLapse => Sys2Proof.Machine.execLeaseLapse s
  | .takeOnSilence => Sys2Proof.Machine.execTakeOnSilence s
  | .syncTimeout => Sys2Proof.Machine.execSyncTimeout s
  | .joinTimeout => Sys2Proof.Machine.execJoinTimeout s
  | .spnCmdRelease m confirm => Sys2Proof.Machine.execSpnCmdRelease m confirm s
  | .spnRejoin m => Sys2Proof.Machine.execSpnRejoin m s
  | .spnClearCnt m => Sys2Proof.Machine.execSpnClearCnt m s
  | .returnHoldoff => Sys2Proof.Machine.execReturnHoldoff s
  | .spnReturnWrite m v => Sys2Proof.Machine.execSpnReturnWrite m v s
  | .acqEnable m => Sys2Proof.Machine.execAcqEnable m s
  | .acqDisable m => Sys2Proof.Machine.execAcqDisable m s
  | .acqArm m => Sys2Proof.Machine.execAcqArm m s
  | .acqDisarm m => Sys2Proof.Machine.execAcqDisarm m s
  | .acqForce m => Sys2Proof.Machine.execAcqForce m s
  | .acqFree m seg => Sys2Proof.Machine.execAcqFree m seg s
  | .acqClearCnt m => Sys2Proof.Machine.execAcqClearCnt m s
  | .acqPreFull => Sys2Proof.Machine.execAcqPreFull s
  | .acqValueTake skip => Sys2Proof.Machine.execAcqValueTake skip s
  | .triggerStepEval => Sys2Proof.Machine.execTriggerStepEval s
  | .recordComplete => Sys2Proof.Machine.execRecordComplete s
  | .recordTailExpire => Sys2Proof.Machine.execRecordTailExpire s
  | .ethPortEnable m p => Sys2Proof.Machine.execEthPortEnable m p s
  | .ethPortDisable m p => Sys2Proof.Machine.execEthPortDisable m p s
  | .linkChange p up => Sys2Proof.Machine.execLinkChange p up s
  | .ethFrameRx p bytes err capture => Sys2Proof.Machine.execEthFrameRx p bytes err capture s
  | .pauseHoldEnd p => Sys2Proof.Machine.execPauseHoldEnd p s
  | .rxRingTake m p h => Sys2Proof.Machine.execRxRingTake m p h s
  | .rxRingDone m p h => Sys2Proof.Machine.execRxRingDone m p h s
  | .rxRingEnable m p h => Sys2Proof.Machine.execRxRingEnable m p h s
  | .rxRingDisable m p h => Sys2Proof.Machine.execRxRingDisable m p h s
  | .txRingTail m p h tail => Sys2Proof.Machine.execTxRingTail m p h tail s
  | .txRingEnable m p h => Sys2Proof.Machine.execTxRingEnable m p h s
  | .txRingDisable m p h => Sys2Proof.Machine.execTxRingDisable m p h s
  | .txFrameEnd p capture => Sys2Proof.Machine.execTxFrameEnd p capture s
  | .txUnderrun p => Sys2Proof.Machine.execTxUnderrun p s
  | .mmVerifyAttempt p => Sys2Proof.Machine.execMmVerifyAttempt p s
  | .mmConfigWrite m p v => Sys2Proof.Machine.execMmConfigWrite m p v s
  | .pulseConfirm idx high run ms => Sys2Proof.Machine.execPulseConfirm idx high run ms s
  | .directionConfirm c high run ms => Sys2Proof.Machine.execDirectionConfirm c high run ms s
  | .intervalBoundary => Sys2Proof.Machine.execIntervalBoundary s
  | .periodicSave => Sys2Proof.Machine.execPeriodicSave s
  | .saveComplete ok => Sys2Proof.Machine.execSaveComplete ok s
  | .sealInAssert asserted long => Sys2Proof.Machine.execSealInAssert asserted long s
  | .sealOpen m => Sys2Proof.Machine.execSealOpen m s
  | .sealClose m => Sys2Proof.Machine.execSealClose m s
  | .sealOpeningExpire => Sys2Proof.Machine.execSealOpeningExpire s
  | .legalParamWrite m off v => Sys2Proof.Machine.execLegalParamWrite m off v s
  | .legalRecordWriteDone => Sys2Proof.Machine.execLegalRecordWriteDone s
  | .logIndexSelect m l idx => Sys2Proof.Machine.execLogIndexSelect m l idx s
  | .logRec7Read m l => Sys2Proof.Machine.execLogRec7Read m l s
  | .logClear m l n => Sys2Proof.Machine.execLogClear m l n s
  | .cmpJobSubmit m v => Sys2Proof.Machine.execCmpJobSubmit m v s
  | .cmpJobStart => Sys2Proof.Machine.execCmpJobStart s
  | .cmpJobEnd => Sys2Proof.Machine.execCmpJobEnd s
  | .cmpJobSuspend => Sys2Proof.Machine.execCmpJobSuspend s
  | .cmpCancel m tag => Sys2Proof.Machine.execCmpCancel m tag s
  | .cmpResume m k => Sys2Proof.Machine.execCmpResume m k s
  | .cmpEnable m => Sys2Proof.Machine.execCmpEnable m s
  | .cmpDisable m => Sys2Proof.Machine.execCmpDisable m s
  | .archiveRelease m v => Sys2Proof.Machine.execArchiveRelease m v s
  | .queueEnable m n => Sys2Proof.Machine.execQueueEnable m n s
  | .queueDisable m n => Sys2Proof.Machine.execQueueDisable m n s
  | .queueFlush m n => Sys2Proof.Machine.execQueueFlush m n s
  | .queuePop m n wide => Sys2Proof.Machine.execQueuePop m n wide s
  | .popStallTimeout n => Sys2Proof.Machine.execPopStallTimeout n s
  | .pushWord m n hi => Sys2Proof.Machine.execPushWord m n hi s
  | .pushCommit m n => Sys2Proof.Machine.execPushCommit m n s
  | .pushBad m n => Sys2Proof.Machine.execPushBad m n s
  | .packetReserve n words => Sys2Proof.Machine.execPacketReserve n words s
  | .packetCommit n idx good => Sys2Proof.Machine.execPacketCommit n idx good s
  | .queOccClearHwm m n => Sys2Proof.Machine.execQueOccClearHwm m n s
  | .poolTestWrite m on => Sys2Proof.Machine.execPoolTestWrite m on s
  | .poolInitDone => Sys2Proof.Machine.execPoolInitDone s
  | .errorInject m n kind => Sys2Proof.Machine.execErrorInject m n kind s
  | .pcieLinkDown e => Sys2Proof.Machine.execPcieLinkDown e s
  | .dmaStart m idx => Sys2Proof.Machine.execDmaStart m idx s
  | .dmaDescriptorDone e => Sys2Proof.Machine.execDmaDescriptorDone e s
  | .dmaAbort m idx => Sys2Proof.Machine.execDmaAbort m idx s
  | .spiRead mosi => Sys2Proof.Machine.execSpiRead mosi s
  | .spiWrite mosi => Sys2Proof.Machine.execSpiWrite mosi s
  | .spiCsEarlyRise mosi after => Sys2Proof.Machine.execSpiCsEarlyRise mosi after s
  | .bar2Access e off acc => Sys2Proof.Machine.execBar2Access e off acc s
  | .eventMergedRaise src => Sys2Proof.Machine.execEventMergedRaise src s
  | .evcMaskWrite m t w v => Sys2Proof.Machine.execEvcMaskWrite m t w v s
  | .doorbell m v => Sys2Proof.Machine.execDoorbell m v s
  | .refclkMonitorTrip cause => Sys2Proof.Machine.execRefclkMonitorTrip cause s
  | .monitorClear => Sys2Proof.Machine.execMonitorClear s
  | .refclkFirstEdge => Sys2Proof.Machine.execRefclkFirstEdge s
  | .countComplete => Sys2Proof.Machine.execCountComplete s
  | .lockAchieved => Sys2Proof.Machine.execLockAchieved s
  | .clkRetry m => Sys2Proof.Machine.execClkRetry m s
  | .domainEnable m g => Sys2Proof.Machine.execDomainEnable m g s
  | .domainDisable m g => Sys2Proof.Machine.execDomainDisable m g s
  | .domainSourceSwitch m g ref edge => Sys2Proof.Machine.execDomainSourceSwitch m g ref edge s
  | .domainRampStep g => Sys2Proof.Machine.execDomainRampStep g s
  | .switchEdgeTimeout g => Sys2Proof.Machine.execSwitchEdgeTimeout g s
  | .freqMeasure khz => Sys2Proof.Machine.execFreqMeasure khz s
  | .sscApply n => Sys2Proof.Machine.execSscApply n s
  | .pornAssert => Sys2Proof.Machine.execPornAssert s
  | .resetRelease => Sys2Proof.Machine.execResetRelease s
  | .supplyMonitorTrip => Sys2Proof.Machine.execSupplyMonitorTrip s
  | .supplyWarn rail => Sys2Proof.Machine.execSupplyWarn rail s
  | .tjMeasure tj => Sys2Proof.Machine.execTjMeasure tj s
  | .softReset m confirm => Sys2Proof.Machine.execSoftReset m confirm s
  | .orderlyShutdown m confirm => Sys2Proof.Machine.execOrderlyShutdown m confirm s
  | .shutdownPowerOff => Sys2Proof.Machine.execShutdownPowerOff s
  | .vstbyRise => Sys2Proof.Machine.execVstbyRise s
  | .wakeEdge => Sys2Proof.Machine.execWakeEdge s
  | .wakeHoldoffExpire => Sys2Proof.Machine.execWakeHoldoffExpire s
  | .startupNvmRead bad => Sys2Proof.Machine.execStartupNvmRead bad s
  | .ddrTrainingDone ok mib => Sys2Proof.Machine.execDdrTrainingDone ok mib s
  | .nvmKeyWrite m v => Sys2Proof.Machine.execNvmKeyWrite m v s
  | .nvmKeyExpire m => Sys2Proof.Machine.execNvmKeyExpire m s
  | .storeSlot m slot staging => Sys2Proof.Machine.execStoreSlot m slot staging s
  | .eraseSlot m slot => Sys2Proof.Machine.execEraseSlot m slot s
  | .storeSettings m staging => Sys2Proof.Machine.execStoreSettings m staging s
  | .enrollKey m staging => Sys2Proof.Machine.execEnrollKey m staging s
  | .setMinver m => Sys2Proof.Machine.execSetMinver m s
  | .setSealKey m => Sys2Proof.Machine.execSetSealKey m s
  | .nvmChunkDone => Sys2Proof.Machine.execNvmChunkDone s
  | .nvmCmdDone ok => Sys2Proof.Machine.execNvmCmdDone ok s
  | .doutFault n => Sys2Proof.Machine.execDoutFault n s
  | .tapInstruction t => Sys2Proof.Machine.execTapInstruction t s
  | .eccCrit => Sys2Proof.Machine.execEccCrit s
  | .pcieLinkUp e => Sys2Proof.Machine.execPcieLinkUp e s
  | .vstbyLoss => Sys2Proof.Machine.execVstbyLoss s
  | .spineMessageDiscard rx => Sys2Proof.Machine.execSpineMessageDiscard rx s
  | .mmVerifyResponseRx p => Sys2Proof.Machine.execMmVerifyResponseRx p s

end Sys2Proof.Machine
end

