-- ==== Sys2Proof/Safety.lean ====
section
/-! DEFINITION. What counts as a safe state and a safe run, in the terms that the statements use. -/
namespace Sys2Proof.Machine

/-- The device runs: internal reset does not hold it (R455, R456). -/
abbrev State.Running (s : State) : Prop := s.dev.pwr.held = false

/-- The status fields of other state tell the truth: ACQ_STATUS.complete counts the COMPLETE segments, QUE_FC shows exactly the asserted
pins (R408), DET_PEND.pending counts the points that wait (in its eleven bits), and DET_ALM_STAT.token copies the token (R238). -/
structure Dev.Mirrors (d : Dev) : Prop where
  complete : d.get ACQ_STATUS_complete = ((List.range 64).filter (fun s => d.get (ACQ_SEG_state s) == 3)).length
  pins : ∀ k < 4, bitAt (d.get QUE_FC_fc) k = d.fcAsserted k
  points : d.get DET_PEND_pending = d.det.pend.length % 2048
  token : d.flag DET_ALM_STAT_token = d.acting

/-- The invariant of every step: a device that runs shows true status fields. -/
def State.Inv (s : State) : Prop := s.Running → s.dev.Mirrors

/-- Every memory and the register file are in their one canonical form: keys strictly rise, and nothing is listed that equals what is
read where nothing is listed. -/
def Dev.Canonical (d : Dev) : Prop :=
  cellWf resetOf d.regs = true ∧ Memory.wf d.win = true ∧ Memory.wf d.dram = true ∧ Memory.wf d.hostA = true ∧ Memory.wf d.hostB = true

/-- The commands that act while internal reset holds the device: those of PORn, the supplies, the thermal monitor and the standby island
(R455, R456, R460, R461, R478). -/
def ActsInReset : Instr → Bool
  | .pornAssert | .resetRelease | .supplyMonitorTrip | .tjMeasure _ | .vstbyRise | .vstbyLoss | .wakeEdge | .wakeHoldoffExpire
  | .sealInAssert _ _ => true
  | _ => false

/-- The state whose device is the one that a command's own effect leaves, with the status fields that follow other state. The queue is as
it was. -/
def State.leaving (s : State) (d : Dev) : State := { s with dev := publish d }

/-- The same, and what other blocks watch is looked at before the status fields follow. -/
def State.settling (s : State) (d : Dev) : State := { s with dev := publish (watch d) }

/-- The state after a command that acts in reset too: the status fields follow where the device runs. -/
def State.ending (s : State) (d : Dev) : State := { s with dev := if d.pwr.held then d else publish d }

/-- The device `e` is `d` after a reset (R8, R462): internal reset holds it, every register reads its reset value, and the memories, the
queues and the blocks are empty; the hosts' memories and the standby island stay, and the island has recorded the causes; the slots, the identity and
the settings of the NVM stay unless a store is being written (R468). -/
structure Dev.ResetFrom (d e : Dev) (causes : Nat) : Prop where
  held : e.pwr.held = true
  idle : e.pwr.shut = 0 ∧ e.pwr.keys = [] ∧ e.pwr.store = none ∧ e.pwr.writer = none ∧ e.pwr.trained = false
  word : ∀ k, e.word k = resetOf k
  empty : e.win = [] ∧ e.dram = [] ∧ e.queues = [] ∧ e.logs = {} ∧ e.str = {} ∧ e.col = {} ∧ e.sch = {} ∧ e.det = {} ∧ e.le = {} ∧
    e.acq = {} ∧ e.bnd = {} ∧ e.spn = {} ∧ e.time = {} ∧ e.ckp = {}
  hosts : e.hostA = d.hostA ∧ e.hostB = d.hostB
  nvm : d.nvmOwner ≠ some .store → e.nvm.slotA = d.nvm.slotA ∧ e.nvm.slotB = d.nvm.slotB ∧ e.nvm.ownerKey = d.nvm.ownerKey ∧ e.nvm.settings = d.nvm.settings ∧
    e.nvm.minver = d.nvm.minver ∧ e.nvm.sealKey = d.nvm.sealKey
  island : e.island = { d.island with causes := causes, orderly := e.island.orderly }

/-- The counter reaches device time `t` once time passes, or has passed it: an effect that falls due at `t` can take place. -/
abbrev Dev.Reaches (d : Dev) (t : Nat) : Prop := t ≤ (passTo t d).now

/-- The elapsed time of TBC reaches `e` quarter ns. -/
abbrev Dev.ReachesElapsed (d : Dev) (e : Nat) : Prop := e ≤ (passElapsed e d).time.elapsed

/-- Master `m` may write `v` to the register at an offset: no check of R429 turns the write away, and no shutdown changes an enable
field of it (R466). -/
abbrev Dev.Writes (d : Dev) (m off v : Nat) : Prop := d.writeVerdict m off v true = .pass ∧ d.keepEnable m off v = v

/-- Master `m` may write the field at `lo` of a register and keep the others. -/
abbrev Dev.WritesField (d : Dev) (m off lo w v : Nat) : Prop := d.Writes m off (putBits (d.rwHeld off) lo w v)

/-- A write of the register at an offset acts by the access types of its fields alone: no block gives it an effect or a condition of its
own. -/
def plainRegister (off : Nat) : Bool :=
  match findRow off with
  | none => false
  | some (r, ix) =>
    let i := ix.headD 0
    r.gate == .none && !(off / 0x10000 == 8 && decide (off < 0x80800)) &&
      (if off < 0x40000 then (writeA {} 0 r.base i 0).isNone
      else if off < 0x60000 then (writeB r.base i 0 0 id).isNone
      else if off < 0xA0000 then (writeC 0 r.base i 0 id).isNone
      else if off < 0x100000 then (writeD {} 0 r.base i 0 id (fun _ => 0)).isNone
      else (writeE 0 r.base i 0 0 id).isNone)

/-- The block of a key of the register file (R417). -/
def keyBlock (k : Nat) : Nat := k % masterSpan / 0x10000

/-- Nothing but the register words that `K` names differs. -/
def Dev.SameBut (K : Nat → Prop) (d e : Dev) : Prop := (∀ k, ¬K k → e.word k = d.word k) ∧ e = { d with regs := e.regs }

/-- The first copy of a valid message of a type arrives on Spine-A or, `onB`, on Spine-B (R287, R288). -/
def MessageArrives (ty : Nat) (rx : SpineRx) (d : Dev) (onB : Bool) (bs : List Byte) : Prop :=
  (∃ e, spnTake (fun _ b => byteAt b 0 == ty) rx d = some (onB, bs, e)) ∧ spnCrcOk bs = true ∧ d.spnForeign bs = false ∧ d.spnCopy bs = false

/-- The machine takes `n` steps from `s` and is in `t`: no step stops. -/
def Runs : Nat → State → State → Prop
  | 0, s, t => s = t
  | n + 1, s, t => ∃ u, step s = .next u ∧ Runs n u t

end Sys2Proof.Machine
end

