-- ==== Sys2Proof/Certificates/Slice0/Obligations.lean ====
section
/-! DEFINITION. The statements for the provers. A statement of several parts names each of them: `Rules.<Name>`, defined above it. -/
open Sys2Proof Sys2Proof.Machine

/-! ## The machine as a whole -/

/-- A step takes the command at the front of the queue and runs it with the queue's rest. -/
def Obligations.FrontCommandRuns : Prop :=
  ∀ (d : Dev) (c : Instr) (rest : List Instr), step { dev := d, pending := c :: rest } = exec c { dev := d, pending := rest }

/-- With no command waiting, a step is one tick of the time base: on a running device whose TBC domain gives ticks and whose counter has
no step pending, the counter advances by the increment in force, and elapsed time by 4 ns, or by 6.25 ns in COAST (R53, R64); the conditions
that other blocks watch are then looked at. A device in internal reset stays as it is. That the empty queue stands for a tick is the
model's choice (log entry 1), and so is the rounding of the increment in COAST, 25/16 of the nominal one rounded down (log entry 166). -/
def Obligations.EmptyQueueIsATick : Prop :=
  ∀ d : Dev,
    (d.pwr.held = true → step { dev := d, pending := [] } = .next { dev := d, pending := [] }) ∧
    (d.pwr.held = false → d.tbcRuns = true → d.time.pending = none → ∃ e : Dev,
      step { dev := d, pending := [] } = .next { dev := publish (settle e), pending := [] } ∧
      e.time.clock = (d.time.clock + (if d.coast then d.incrNom * 25 / 16 else d.time.incr)) % clockSpan ∧
      e.time.elapsed = d.time.elapsed + (if d.coast then 25 else 16) ∧ e.regs = d.regs)

/-- Every command completes: it never faults, is never refused, and leaves the queue of waiting commands alone. -/
def Obligations.EveryCommandCompletes : Prop :=
  ∀ (c : Instr) (s : State), ∃ d : Dev, exec c s = .next { s with dev := d }

/-- Any queue of commands runs to its end: in as many steps as there are commands, each taken in its turn, the queue is empty, and no
step faults or refuses. -/
def Obligations.QueueRunsToItsEnd : Prop :=
  ∀ s : State, ∃ t : State, Runs s.pending.length s t ∧ t.pending = []

/-- The status fields tell the truth after reset. -/
def Obligations.InvariantAtReset : Prop := State.reset.Inv

/-- Every step keeps the status fields true: whatever command runs, or a tick, a device that runs after it shows the number of COMPLETE
segments, the asserted QUE_FC pins, the number of points that wait and the token as they are (R313, R408, R238). -/
def Obligations.InvariantOfEveryStep : Prop := ∀ s t : State, step s = .next t → t.Inv

/-- After every step of a running device TBS_STATE.coast is a copy of COAST, which the multiplier shows in CKP_STAT (R439, R63). At reset
itself the field reads 0 as its table says, while COAST is 1 (log entry 61). -/
def Obligations.CoastIsCopied : Prop :=
  ∀ s t : State, step s = .next t → t.Running → t.dev.flag TBS_STATE_coast = t.dev.flag CKP_STAT_coast

/-- While internal reset holds the device, no command acts but those of the supplies, the reset pin, the thermal monitor and the standby
island: the device stays as it is, bit for bit (R455, R456). -/
def Rules.HeldDeviceStays : Prop :=
  ∀ (c : Instr) (s : State), s.dev.pwr.held = true → ActsInReset c = false → exec c s = .next s

/-- A step from a held device with an ordinary command in front only takes the command out of the queue; nothing of the device changes. -/
def Rules.HeldDeviceDrainsItsQueue : Prop :=
  ∀ (d : Dev) (cs : List Instr), d.pwr.held = true → (∀ c ∈ cs, ActsInReset c = false) →
    Runs cs.length { dev := d, pending := cs } { dev := d, pending := [] }

/-- What the manual gives for reset: the Binding in START (R42), time INVALID (R63), the multiplier in WAIT_REF with COAST set and no
attempt (R439), every domain OFF (R445), the pair in START and not acting (R285), the grids and the ports OFF, no violation recorded (R430), no event pending (R432), and no command waiting. -/
def Obligations.ResetState : Prop :=
  let d := State.reset.dev
  State.reset.pending = [] ∧ d.get BND_STAT_state = 0 ∧ d.get BND_STAT_active = 0 ∧ d.get TBS_STATE_state = 0 ∧ d.get CKP_STAT_state = 0 ∧
  d.flag CKP_STAT_coast = true ∧ d.get CKP_STAT_attempts = 0 ∧ (∀ g < 10, d.get (CKP_DOM_CTRL_state g) = 0) ∧ d.get SPN_STAT_state = 0 ∧
  d.flag SPN_STAT_acting = false ∧ (∀ n < 8, d.get (COL_GRID_CTRL_state n) = 0) ∧ (∀ n < 4, d.get (ETH_CFG_state n) = 0) ∧
  d.get ACT_VIOL_CNT = 0 ∧ d.flag ACT_VIOL_FIRST0_valid = false ∧ (∀ t < 3, ∀ w < 4, d.get (EVC_PEND t w) = 0) ∧ d.win = [] ∧ d.dram = []

/-- While internal reset holds the device, no ordinary command changes it, and a queue of them drains without a change. -/
def Obligations.HeldDeviceIsStill : Prop := Rules.HeldDeviceStays ∧ Rules.HeldDeviceDrainsItsQueue

/-! ## Registers, access checks and events -/

/-- A write acts field by field under the access types, in every register of the map: an RW field takes the value, unless it is a reserved
encoding of the field (R7); an RWB field does so before lock; a W1C field keeps the bits that are written as 0; a W1S field gains the bits
written as 1; an RO, WO or RS field keeps its value (R9). No field disturbs another. -/
def Obligations.FieldsFollowTheirTypes : Prop :=
  ∀ (off : Nat) (r : RegRow) (ix : List Nat), findRow off = some (r, ix) → ∀ f ∈ r.fields, ∀ (d : Dev) (m v : Nat),
    let old := bits (d.word (r.keyFor m off)).toNat f.lo f.width
    let x := bits v f.lo f.width
    let open_ := match f.acc with
      | .rw => true
      | .rwb => !d.flag BND_STAT_locked
      | _ => false
    let e := d.putWord (r.keyFor m off) (BitVec.ofNat 32 (newWord (d.flag BND_STAT_locked) r (d.word (r.keyFor m off)).toNat v))
    bits (e.word (r.keyFor m off)).toNat f.lo f.width =
      (if f.acc = .w1c then old - (old &&& x) else if f.acc = .w1s then old ||| x
      else if open_ && (f.ok.isEmpty || f.ok.any (fun p => p.1 ≤ x && x ≤ p.2)) then x else old)

/-- A field that is given a reserved encoding keeps its value, and every other field of the same write takes effect as if it had been
written alone: in every register of the map (R7). -/
def Obligations.ReservedEncodingLeavesItsField : Prop :=
  ∀ (off : Nat) (r : RegRow) (ix : List Nat), findRow off = some (r, ix) → ∀ f ∈ r.fields, ∀ (locked : Bool) (old v : Nat),
    old < 2 ^ 32 → (f.ok.isEmpty || f.ok.any (fun p => p.1 ≤ bits v f.lo f.width && bits v f.lo f.width ≤ p.2)) = false →
    f.acc = .rw ∨ f.acc = .rwb →
    bits (newWord locked r old v) f.lo f.width = bits old f.lo f.width ∧
    ∀ g ∈ r.fields, g ≠ f → bits (newWord locked r old v) g.lo g.width = bits (fieldWord locked v old g) g.lo g.width

/-- After lock every RWB field of every register keeps its value under a write. The write is counted once, saturating, and its register and
master are recorded, exactly where it carries in some RWB field a value other than the one held (R46). -/
def Obligations.RwbFieldsKeepAfterLock : Prop :=
  ∀ (off : Nat) (r : RegRow) (ix : List Nat), findRow off = some (r, ix) → (∃ f ∈ r.fields, f.acc = .rwb) →
    ∀ (d : Dev) (m v : Nat), m < 32 → d.flag BND_STAT_locked = true →
    let k := r.keyFor m off
    let e := rowWrite r m off v d
    (∀ f ∈ r.fields, f.acc = .rwb → bits (e.word k).toNat f.lo f.width = bits (d.word k).toNat f.lo f.width) ∧
    (if r.fields.any (fun f => f.acc == .rwb && bits v f.lo f.width != bits (d.word k).toNat f.lo f.width) then
      e.get BND_RWB_DROP = min (d.get BND_RWB_DROP + 1) (2 ^ BND_RWB_DROP.width - 1) ∧
        e.get BND_RWB_LAST_offset = off % 2 ^ BND_RWB_LAST_offset.width ∧ e.get BND_RWB_LAST_master = m
    else e.get BND_RWB_DROP = d.get BND_RWB_DROP ∧ e.word BND_RWB_LAST_offset.key = d.word BND_RWB_LAST_offset.key)

/-- A write of a whole word to a register without an effect of its own, which passes the checks, acts by the access types, and no other
word of the device changes but the two that count the writes of RWB fields. -/
def Rules.PlainWriteActsByItsTypes : Prop :=
  ∀ (s : State) (m : Master) (off : Nat) (v : BitVec 32) (r : RegRow) (ix : List Nat), s.Running → off % 4 = 0 → off < 0x140000 →
    off / 0x10000 ≠ 2 → findRow off = some (r, ix) → plainRegister off = true → s.dev.Writes m off v.toNat →
    exec (.registerWrite m .bar0 off v 15) s = .next (s.settling (rowWrite r m off v.toNat s.dev)) ∧
    ∀ k, k ≠ r.keyFor m off → k ≠ BND_RWB_DROP.key → k ≠ BND_RWB_LAST_offset.key → (rowWrite r m off v.toNat s.dev).word k = s.dev.word k

/-- A write that a check turns away is discarded, and leaves its record: ACT_VIOL_CNT advances, saturating; ACT_VIOL_LAST, and
ACT_VIOL_FIRST if it is empty, name the master, the kind, the target and the offset; and the registers of every block but ACT and EVC are as they
were (R430). A write whose byte enables do not cover the word is of kind PARTIAL_WRITE where no fixed rule and no RECOVERY decides first
(R5, R429). -/
def Rules.DeniedWriteIsDiscarded : Prop :=
  ∀ (s : State) (m : Master) (off t : Nat) (v : BitVec 32) (be : BitVec 4) (k : VKind), s.Running → off % 4 = 0 → off < 0x140000 →
    off / 0x10000 = t → s.dev.writeVerdict m off v.toNat (be == 15) = .deny k →
    (be ≠ 15 → s.dev.fixedWrite m off v.toNat = false → k = .partialWrite) ∧
    ∃ d, exec (.registerWrite m .bar0 off v be) s = .next (s.settling d) ∧
      d.get ACT_VIOL_CNT = min (s.dev.get ACT_VIOL_CNT + 1) (2 ^ ACT_VIOL_CNT.width - 1) ∧
      d.word ACT_VIOL_LAST0.key = BitVec.ofNat 32 (m + k.code * 2 ^ 5 + t * 2 ^ 8 + 2 ^ 31) ∧ d.get ACT_VIOL_LAST1 = off ∧
      (s.dev.flag ACT_VIOL_FIRST0_valid = false →
        d.word ACT_VIOL_FIRST0.key = BitVec.ofNat 32 (m + k.code * 2 ^ 5 + t * 2 ^ 8 + 2 ^ 31) ∧ d.get ACT_VIOL_FIRST1 = off) ∧
      (s.dev.flag ACT_VIOL_FIRST0_valid = true →
        d.word ACT_VIOL_FIRST0.key = s.dev.word ACT_VIOL_FIRST0.key ∧ d.word ACT_VIOL_FIRST1.key = s.dev.word ACT_VIOL_FIRST1.key) ∧
      ∀ key, keyBlock key ≠ 3 → keyBlock key ≠ 0x12 → key ≠ GCTL_XDROP.key → d.word key = s.dev.word key

/-- In RECOVERY only GCTL, CKP and BND respond: a write elsewhere that no fixed rule names changes nothing and is no violation, and a read
elsewhere answers zero and changes nothing else (R43). What HA or HB send over a link that is down does not arrive: a write changes nothing, and
of a read nothing comes back (R419, R441); at a dead crossing it is counted (R25). -/
def Rules.RecoveryAnswersNothingElse : Prop :=
  ∀ (s : State) (m : Master) (off : Nat) (v : BitVec 32) (be : BitVec 4) (w : Bool), s.Running → s.dev.bndIs .recovery = true →
    off % 4 = 0 → 0x30000 ≤ off → off < 0x140000 → m.val < 20 → s.dev.arrives m = true →
    (s.dev.fixedWrite m off v.toNat = false → writeNeed m off v.toNat = .table →
      exec (.registerWrite m .bar0 off v be) s = .next (s.settling s.dev)) ∧
    exec (.lowWordRead m .bar0 off w) s = .next (s.leaving (s.dev.answer m {})) ∧
    ∀ (u : State) (sp : BusSpace) (o : Nat), u.Running → u.dev.arrives m = false →
      exec (.registerWrite m sp o v be) u = .next (u.settling (if u.dev.xingDead (5 + m) then xdrop u.dev else u.dev)) ∧
      exec (.lowWordRead m sp o w) u = .next (u.leaving (if u.dev.xingDead (5 + m) then xdrop u.dev else u.dev))

/-- A read of a register answers its word with the reserved bits zero, and changes nothing else: of every register that is no low or high word of a
pair, and that no block reads in a way of its own, as it does the time registers, TBS_TXQ, ETH_RXR_TAKE, DIO_DOUT_MON, the log readers, the MSI-X
tables, FLT, and the measurement and TIME words of ACQ. An offset of a block at which no register lies answers zero (R6). -/
def Rules.PlainReadAnswersItsWord : Prop :=
  ∀ (s : State) (m : Master) (off : Nat) (w : Bool), s.Running → off % 4 = 0 → off < 0x140000 → s.dev.readVerdict m off = .pass →
    (∀ (r : RegRow) (ix : List Nat), findRow off = some (r, ix) → off < 0x40008 ∨ 0x4001C < off →
      r.base ∉ [0x40110, 0x51014, 0x130204, 0x98000] → r.base ≠ 0xF0040 ∨ ix.getD 1 0 ≠ 7 → off < 0x128000 ∨ 0x130000 ≤ off →
      off / 0x10000 ≠ 8 → r.gate ≠ .acqMeas → r.gate ≠ .acqCond3 → s.dev.pairLow off = false → s.dev.pairLow (off - 4) = false →
      exec (.lowWordRead m .bar0 off w) s = .next (s.leaving (s.dev.answer m { data := r.shown (s.dev.word (r.keyFor m off)).toNat })) ∧
      ∀ f ∈ r.fields, f.acc = .rz → bits (r.shown (s.dev.word (r.keyFor m off)).toNat) f.lo f.width = 0) ∧
    (findRow off = none → off < 0x40008 ∨ 0x4001C < off → exec (.lowWordRead m .bar0 off w) s = .next (s.leaving (s.dev.answer m {})))

/-- The memory windows of BAR0 (R417). A write to the stream table changes its host copy alone, which nothing but a COMMIT takes (R77), and one to the
detector tables the table alone. A write to a logic bank makes it UNVERIFIED, and where the bank is locked it only sets wr_drop (R276); one to the data window
is stored while the engine is STOPPED or HALTED and sets wr_drop else (R261); one to a coefficient bank in use sets the group's wr_drop (R152). A read
answers the word of the window, and after a write that is stored the word written. -/
def Rules.WindowsAreReadAndWritten : Prop :=
  ∀ (s : State) (m : Master) (off t : Nat) (v : BitVec 32), s.Running → off % 4 = 0 → 20 ≤ t → targetOf off = some t →
    let put : Dev := { s.dev with win := memWriteN s.dev.win off (toLe 4 v.toNat) }
    let o := off - 0x1400000
    (s.dev.Writes m off v.toNat →
      (t = 20 ∨ t = 21 → exec (.registerWrite m .bar0 off v 15) s = .next (s.settling put)) ∧
      (t = 22 ∨ t = 23 → s.dev.bankLockedWr (t - 22) = true →
        exec (.registerWrite m .bar0 off v 15) s = .next (s.settling (s.dev.setFlag LGE_PROG_STAT_wr_drop true))) ∧
      (t = 22 ∨ t = 23 → s.dev.bankLockedWr (t - 22) = false → ∃ d, exec (.registerWrite m .bar0 off v 15) s = .next (s.settling d) ∧
        d.win = put.win ∧ d.get (bankState (t - 22)) = 0 ∧ d.get (bankState (23 - t)) = s.dev.get (bankState (23 - t))) ∧
      (t = 24 → exec (.registerWrite m .bar0 off v 15) s = .next (s.settling
        (if s.dev.get LGE_STAT_state = 0 ∨ s.dev.get LGE_STAT_state = 4 then put else s.dev.setFlag LGE_STAT_wr_drop true))) ∧
      (t = 25 → exec (.registerWrite m .bar0 off v 15) s = .next (s.settling
        (if bankLocked s.dev o then s.dev.setFlag (FLT_GRP_CTRL_wr_drop (o / 0x4000)) true else put)))) ∧
    (∀ w, s.dev.readVerdict m off = .pass → exec (.lowWordRead m .bar0 off w) s = .next (s.leaving (s.dev.answer m { data := memLe s.dev.win off 4 }))) ∧
    memLe put.win off 4 = v.toNat ∧ ∀ a, a < off ∨ off + 4 ≤ a → memRead put.win a = memRead s.dev.win a

/-- A read of the low word of a 64-bit pair captures the high word for the master: whatever the device holds when that master then reads
the high word, it is answered the word captured, and another read of the high word is answered the same again. A master without a capture reads
the live high word. This is so for every pair of R10 that the bus serves from registers. -/
def Obligations.LowWordReadCapturesTheHighWord : Prop :=
  ∀ (off : Nat) (m : Master) (w : Bool) (s : State), s.Running → off % 4 = 0 → s.dev.pairLow off = true →
    s.dev.readVerdict m off = .pass →
    let hi := s.dev.word (((findRow (off + 4)).elim (off + 4) (fun x => x.1.keyFor m (off + 4))))
    let e := (s.dev.capture ((m + 1) * masterSpan + off + 4) hi.toNat).answer m
      { data := (s.dev.word ((findRow off).elim off (fun x => x.1.keyFor m off))).toNat }
    exec (.lowWordRead m .bar0 off w) s = .next (s.leaving e) ∧
    ∀ u : State, u.Running → u.dev.pairLow off = true → u.dev.readVerdict m (off + 4) = .pass →
      (u.dev.shadowWord ((m + 1) * masterSpan + off + 4) = some hi →
        exec (.lowWordRead m .bar0 (off + 4) w) u = .next (u.leaving (u.dev.answer m { data := hi.toNat }))) ∧
      (u.dev.shadowWord ((m + 1) * masterSpan + off + 4) = none →
        exec (.lowWordRead m .bar0 (off + 4) w) u = .next (u.leaving (u.dev.answer m
          { data := (u.dev.word (((findRow (off + 4)).elim (off + 4) (fun x => x.1.keyFor m (off + 4))))).toNat })))

/-- Raising a source sets the pending bit of each target that the route enables, masked or not, and of no other; every other source's bit
stays, and the logic engine's latch gains the source where it is routed there (R432). -/
def Rules.RaiseSetsThePendingBits : Prop :=
  ∀ (d : Dev) (src : Fin 128) (t : Fin 3) (o : Fin 128),
    let en := if t.val = 0 then d.flag (EVC_ROUTE_ha_en src) else if t.val = 1 then d.flag (EVC_ROUTE_hb_en src)
      else d.flag (EVC_ROUTE_mg_en src)
    (raise src d).evPending t o = ((decide (o = src) && en) || d.evPending t o) ∧
    (raise src d).host.leLatch = (if d.flag (EVC_ROUTE_le_en src) then setBit d.host.leLatch src true else d.host.leLatch)

/-- The commands of the event controller. DOORBELL records the value and the master and raises source 127 (R436). A merged raise takes effect
at its instant and is then no longer due (R496). A mask word is stored; where it clears the mask bit of a source that is pending at a host, the
host's message is sent, and else nothing is (R433). -/
def Rules.EventCommands : Prop :=
  ∀ s : State, s.Running →
    (∀ (m : Master) (v : BitVec 32), s.dev.Writes m 0x120300 v.toNat →
      exec (.doorbell m v) s = .next (s.leaving (raise 127 ((s.dev.set EVC_DOORBELL_LAST v.toNat).set EVC_DOORBELL_SRC_master m)))) ∧
    (∀ (src : Fin 128) (due : Nat), lookup src s.dev.host.evMerged = some due → s.dev.Reaches due →
      exec (.eventMergedRaise src) s = .next (s.leaving (raise src { passTo due s.dev with host := { s.dev.host with
        evMerged := eraseKey src s.dev.host.evMerged, evLast := insertKey src (due / 1000000) s.dev.host.evLast } }))) ∧
    (∀ src : Fin 128, lookup src s.dev.host.evMerged = none → exec (.eventMergedRaise src) s = .next (s.leaving s.dev)) ∧
    (∀ (m : Master) (t : Fin 3) (w : Fin 4) (v : BitVec 32), s.dev.Writes m (0x120240 + 16 * t.val + 4 * w.val) v.toNat →
      let opens (i : Nat) : Prop := bitAt (s.dev.get (EVC_MASK t w)) i = true ∧ bitAt v.toNat i = false ∧ bitAt (s.dev.get (EVC_PEND t w)) i = true
      (∃ d, exec (.evcMaskWrite m t w v) s = .next (s.leaving d) ∧ d.get (EVC_MASK t w) = v.toNat ∧
        ∀ u < 3, ∀ x < 4, d.get (EVC_PEND u x) = s.dev.get (EVC_PEND u x)) ∧
      (t.val = 2 ∨ (∀ i < 32, ¬opens i) → exec (.evcMaskWrite m t w v) s = .next (s.leaving (s.dev.set (EVC_MASK t w) v.toNat))) ∧
      (∀ i < 32, t.val < 2 → (∀ j < 32, opens j ↔ j = i) → exec (.evcMaskWrite m t w v) s = .next (s.leaving
        (msixSend t (s.dev.evVector t (32 * w.val + i)) (s.dev.set (EVC_MASK t w) v.toNat)))))

/-- A granted write of a plain register acts by its types; a denied one is discarded and recorded; in RECOVERY only three blocks respond; a read answers the word, and the memory windows are read and written. -/
def Obligations.RegisterAccesses : Prop := Rules.PlainWriteActsByItsTypes ∧ Rules.DeniedWriteIsDiscarded ∧ Rules.RecoveryAnswersNothingElse ∧ Rules.PlainReadAnswersItsWord ∧ Rules.WindowsAreReadAndWritten

/-- What a raise of an event source sets, and the commands of the event controller. -/
def Obligations.EventsReachTheirTargets : Prop := Rules.RaiseSetsThePendingBits ∧ Rules.EventCommands

/-! ## The fabric, headroom and the core voltage -/

/-- A quire is sound: its credits never exceed its capacity. -/
def Rules.QuiresNeverOverflow : Prop :=
  ∀ (s : State) (i : Fin 1024), s.Running → (∀ j, (s.dev.quire j).credits ≤ (s.dev.quire j).capacity) →
    ∀ c ∈ [Instr.quireSend i, Instr.quireCreditReturn i], ∃ d, exec c s = .next (s.leaving d) ∧
      (∀ j, (d.quire j).credits ≤ (d.quire j).capacity) ∧ (∀ j, (d.quire j).capacity = (s.dev.quire j).capacity) ∧
      (∀ j, j ≠ i.val → d.quire j = s.dev.quire j)

/-- An item uses one credit of its quire, and the high-water mark follows; without a credit the producer waits; at a dead crossing the item is
discarded, counted, and uses no credit (R20, R25). A credit that is returned is there again, up to the capacity. -/
def Rules.QuireCreditsFollowTheItems : Prop :=
  ∀ (s : State) (i : Fin 1024), s.Running →
    let q := s.dev.quire i
    (s.dev.quireDead i = false → 0 < q.credits → exec (.quireSend i) s = .next (s.leaving
      (s.dev.putQuire i { q with credits := q.credits - 1, high := max q.high (q.capacity - (q.credits - 1)) }))) ∧
    (s.dev.quireDead i = false → q.credits = 0 → exec (.quireSend i) s = .next (s.leaving s.dev)) ∧
    (s.dev.quireDead i = true → ∃ d, exec (.quireSend i) s = .next (s.leaving d) ∧
      d.get GCTL_XDROP = min (s.dev.get GCTL_XDROP + 1) (2 ^ 32 - 1) ∧ s.dev.SameBut (fun k => k = GCTL_XDROP.key) d) ∧
    (q.credits < q.capacity → exec (.quireCreditReturn i) s = .next (s.leaving (s.dev.putQuire i { q with credits := q.credits + 1 }))) ∧
    (q.capacity ≤ q.credits → exec (.quireCreditReturn i) s = .next (s.leaving s.dev)) ∧
    (∀ (j : Nat) (r : Quire), (s.dev.putQuire i r).quire j = if j = i.val then r else s.dev.quire j)

/-- QMON_SELECT shows the chosen quire to the master that writes: index, credits, capacity and the high-water mark in percent, rounded up;
QMON_CLEAR_HWM sets the high-water mark to the present occupancy (R9). Other masters' copies stay. -/
def Rules.QuireMonitorShowsTheQuire : Prop :=
  ∀ (s : State) (m : Master), s.Running →
    (∀ v : BitVec 32, s.dev.Writes m 0x200 v.toNat → bitAt v.toNat 31 = false → ∃ d, exec (.qmonSelect m v) s = .next (s.leaving d) ∧
      d.get (GCTL_QMON_SEL_index m) = v.toNat % 1024 ∧
      d.get (GCTL_QMON_DATA_credits m) = (s.dev.quire (v.toNat % 1024)).credits % 4096 ∧
      d.get (GCTL_QMON_DATA_capacity m) = (s.dev.quire (v.toNat % 1024)).capacity % 4096 ∧
      (let q := s.dev.quire (v.toNat % 1024)
      q.capacity ≠ 0 → d.get (GCTL_QMON_DATA_hwm_pct m) = (100 * q.high + q.capacity - 1) / q.capacity % 256) ∧
      s.dev.SameBut (fun k => k = (GCTL_QMON_SEL m).key ∨ k = (GCTL_QMON_DATA m).key) d) ∧
    (∀ i : Fin 1024, s.dev.Writes m 0x200 (i.val + 2 ^ 31) → (s.dev.quire i).capacity ≠ 0 → ∃ d, exec (.qmonClearHwm m i) s = .next (s.leaving d) ∧
      d.quire i = { s.dev.quire i with high := (s.dev.quire i).capacity - (s.dev.quire i).credits } ∧
      ∀ j, j ≠ i.val → d.quire j = s.dev.quire j)

/-- A handshake that does not complete is recorded: GCTL_FAB_STAT.timeout sets, the block is named if none was, event source 0 is raised with the grid
record of that block (R373), and the block is held stopped (R16); an engine then faults and the logic engine halts (R181, R244). A clock that stays away declares
its crossing dead, and the bits of the other crossings stay; with a clock that runs, or a crossing that is dead already, nothing changes (R25). One declared dead raises
event source 0 with the record of the dead crossings (R373). The clock of MGMT is the management host's. With its clock back the
crossing returns to service. -/
def Obligations.FabricFaultsAreRecorded : Prop :=
  ∀ s : State, s.Running →
    (∀ b : Fin 60, ∃ x y : Dev, s.dev.SameBut (fun k => k = GCTL_FAB_STAT_timeout.key) y ∧ y.flag GCTL_FAB_STAT_timeout = true ∧
      y.get GCTL_FAB_STAT_block = (if s.dev.flag GCTL_FAB_STAT_timeout then s.dev.get GCTL_FAB_STAT_block else b.val) ∧
      x = { gridLog 0x1006 (y.get GCTL_FAB_STAT_block) 0 0 0 (raise 0 y) with stopped := x.stopped } ∧
      (∀ c, x.stopped.contains c = (c == b.val || s.dev.stopped.contains c)) ∧ x.flag GCTL_FAB_STAT_timeout = true ∧
      (∀ key, keyBlock key ≠ 0 → keyBlock key ≠ 0xF → keyBlock key ≠ 0x12 → x.word key = s.dev.word key) ∧
      exec (.fabricTimeout b) s = .next (s.settling (if 40 ≤ b.val && b.val ≤ 55 then engFault (b.val - 40) 5 x else if b.val = 56 then leBreak 4 none x else x))) ∧
    (∀ b : Fin 12, (s.dev.xingDead b = true ∨ (s.dev.xingRuns b = true ∧ b.val ≠ 9) → exec (.deadCrossing b) s = .next (s.settling s.dev)) ∧
      (s.dev.xingDead b = false → s.dev.xingRuns b = false ∨ b.val = 9 → ∃ x y : Dev, s.dev.SameBut (fun k => k = GCTL_FAB_STAT_dead_xing.key) y ∧
        y.xingDead b = true ∧ x = gridLog 0x1007 (y.get GCTL_FAB_STAT_dead_xing) 0 0 0 (raise 0 y) ∧ exec (.deadCrossing b) s = .next (s.settling (if b.val = 7 then memLost x else x)) ∧ x.xingDead b = true ∧
        (∀ o < 12, o ≠ b.val → x.xingDead o = s.dev.xingDead o) ∧
        ∀ key, keyBlock key ≠ 0 → keyBlock key ≠ 0xF → keyBlock key ≠ 0x12 → x.word key = s.dev.word key)) ∧
    (∀ b : Fin 12, ∃ d, exec (.crossingRevive b) s = .next (s.settling d) ∧ d.xingDead b = (!s.dev.xingRuns b && s.dev.xingDead b) ∧
      (∀ o < 12, o ≠ b.val → d.xingDead o = s.dev.xingDead o) ∧ ∀ key, key ≠ GCTL_FAB_STAT_dead_xing.key → d.word key = s.dev.word key)

/-- HEADROOM_MEASURE (rounding down and the clamp to 16 bits are the model's choices, log entries 113 and 165): while REFCLK is absent or the multiplier coasts, the measurement stops: valid is cleared and nothing else changes.
Else, on a device with floor counts, the published headroom is the least of the eight rings', each count ÷ floor − 1 in 0.1 % (R28); the ring
that is named has it. -/
def Rules.HeadroomIsTheLeastOfTheRings : Prop :=
  ∀ (s : State) (counts : List Nat), s.Running →
    ((s.dev.refOk = false ∨ s.dev.coast = true) → exec (.headroomMeasure counts) s = .next (s.leaving (s.dev.setFlag GCTL_HDRM_valid false))) ∧
    (s.dev.refOk = true → s.dev.coast = false → s.dev.nvm.floor.length = 8 → (∀ f ∈ s.dev.nvm.floor, f ≠ 0) →
      ∃ d, exec (.headroomMeasure counts) s = .next (s.leaving d) ∧ d.flag GCTL_HDRM_valid = true ∧
        (∀ i < 8, d.getI (GCTL_HDRM_RING_headroom i) =
          clampI (-32768) 32767 (((1000 * counts.getD i 0 / s.dev.nvm.floor.getD i 1 : Nat) : Int) - 1000)) ∧
        (∀ i < 8, d.getI GCTL_HDRM_headroom ≤ d.getI (GCTL_HDRM_RING_headroom i)) ∧ d.get GCTL_HDRM_ring < 8 ∧
        d.getI GCTL_HDRM_headroom = d.getI (GCTL_HDRM_RING_headroom (d.get GCTL_HDRM_ring)))

/-- The flag low clears only while the headroom is zero or above (R31). An evaluation of AVS below the margin requests one up step, limited
to the window and never downwards, and counts no good run; the sixteenth in a row at or above margin + hysteresis requests one down step, one between
the two ends the run (R29, R30, R458). A request equal to the last completed one is not sent (log entry 114), and a failed step is retried at the next evaluation,
where no up step is asked for (R459; log entry 203). An AVS step is complete within 5 mV of its request; a failed step is counted, and the third
in a row switches the loop off with CKP_AVS_STAT.fault and event source 8 (R459). A supply warning is recorded for its rail and raises
event source 10 (R457). -/
def Rules.CoreVoltageCommands : Prop :=
  ∀ s : State, s.Running →
    (∀ m : Master, s.dev.Writes m 0x100 (2 ^ 29) → exec (.hdrmLowClear m) s = .next (s.leaving (if 0 ≤ s.dev.getI GCTL_HDRM_headroom then s.dev.setFlag GCTL_HDRM_low false else s.dev))) ∧
    (s.dev.flag GCTL_AVS_CFG_enable = true → s.dev.refOk = true → s.dev.coast = false → s.dev.avs.stepping = none →
      s.dev.avs.request ≠ 0 →
      (s.dev.flag GCTL_HDRM_valid = false ∨ s.dev.getI GCTL_HDRM_headroom < 5 * (s.dev.get GCTL_AVS_CFG_margin : Int)) →
      let v := natOf (clampI (s.dev.get CKP_AVS_LIM_vmin_mv) (s.dev.get CKP_AVS_LIM_vmax_mv)
        ((s.dev.avs.request : Int) + 5 * (s.dev.get GCTL_AVS_CFG_up_step : Int)))
      exec .avsEvaluate s = .next (s.leaving { s.dev with avs := { s.dev.avs with
        goodRun := 0, stepping := if v ≤ s.dev.avs.request then none else some v,
        retry := if v ≤ s.dev.avs.request then s.dev.avs.retry else none } })) ∧
    (s.dev.flag GCTL_AVS_CFG_enable = true → s.dev.refOk = true → s.dev.coast = false → s.dev.avs.stepping = none →
      s.dev.flag GCTL_HDRM_valid = true →
      let margin : Int := 5 * (s.dev.get GCTL_AVS_CFG_margin : Int)
      let high : Int := margin + 5 * (s.dev.get GCTL_AVS_CFG_hysteresis : Int)
      let h := s.dev.getI GCTL_HDRM_headroom
      (∀ v, margin ≤ h → s.dev.avs.retry = some v → exec .avsEvaluate s = .next (s.leaving { s.dev with avs := { s.dev.avs with stepping := some v, retry := none } })) ∧
      (s.dev.avs.retry = none → margin ≤ h → h < high → exec .avsEvaluate s = .next (s.leaving { s.dev with avs := { s.dev.avs with goodRun := 0 } })) ∧
      (s.dev.avs.retry = none → high ≤ h → s.dev.avs.goodRun < 15 →
        exec .avsEvaluate s = .next (s.leaving { s.dev with avs := { s.dev.avs with goodRun := s.dev.avs.goodRun + 1 } })) ∧
      (s.dev.avs.retry = none → high ≤ h → 15 ≤ s.dev.avs.goodRun → s.dev.avs.request ≠ 0 → s.dev.get GCTL_AVS_CFG_down_step ≠ 0 →
        let v := natOf (clampI (s.dev.get CKP_AVS_LIM_vmin_mv) (s.dev.get CKP_AVS_LIM_vmax_mv)
          ((s.dev.avs.request : Int) - 5 * (s.dev.get GCTL_AVS_CFG_down_step : Int)))
        exec .avsEvaluate s = .next (s.leaving { s.dev with avs := { s.dev.avs with
          goodRun := 0, stepping := if v = s.dev.avs.request then none else some v } }))) ∧
    (∀ mv v : Nat, s.dev.avs.stepping = some v → s.dev.refOk = true → s.dev.coast = false → ∃ d, exec (.avsVoutPoll mv) s = .next (s.leaving d) ∧
      d.get CKP_AVS_STAT_vout_mv = mv % 65536 ∧
      d.avs = (if v ≤ mv + 5 && mv ≤ v + 5 then { s.dev.avs with stepping := none, request := v, failures := 0 } else s.dev.avs)) ∧
    (s.dev.avs.stepping.isSome = true → s.dev.refOk = true → s.dev.coast = false → ∃ d, exec .avsStepTimeout s = .next (s.leaving d) ∧
      d.avs.stepping = none ∧
      (s.dev.avs.failures < 2 → d = { s.dev with avs := { s.dev.avs with
        stepping := none, failures := s.dev.avs.failures + 1, retry := s.dev.avs.stepping } }) ∧
      (2 ≤ s.dev.avs.failures → ∃ y : Dev, d = raise 8 y ∧ y.flag GCTL_AVS_CFG_enable = false ∧ y.flag CKP_AVS_STAT_fault = true ∧ d.avs.failures = 0 ∧
        s.dev.SameBut (fun k => k = GCTL_AVS_CFG_enable.key ∨ k = CKP_AVS_STAT_fault.key) { y with avs := s.dev.avs })) ∧
    (∀ rail : Rail, exec (.supplyWarn rail) s = .next (s.leaving (raiseMs 10 (s.dev.set CKP_PWR_STAT_warn (setBit (s.dev.get CKP_PWR_STAT_warn) (railBit rail) true)))))

/-- The credits of the quires and their monitor. -/
def Obligations.QuiresHoldTheirItems : Prop := Rules.QuiresNeverOverflow ∧ Rules.QuireCreditsFollowTheItems ∧ Rules.QuireMonitorShowsTheQuire

/-- The headroom of the rings and the commands of the core voltage. -/
def Obligations.HeadroomMovesTheCoreVoltage : Prop := Rules.HeadroomIsTheLeastOfTheRings ∧ Rules.CoreVoltageCommands

/-! ## Clocks -/

/-- REFCLK_MONITOR_TRIP: only a clear monitor trips; the cause ABSENT leaves no count of a clock valid (R453). A trip is recorded with its cause and counted, saturating; the published headroom is no
longer valid (R28). Outside COUNTING and LOCKING the multiplier's state stays, but from LOCKED it goes to COAST with what R440 attaches to it; in
COUNTING and LOCKING the attempt fails: attempts advances, and the multiplier goes to HELD at 16, to COAST in service, and to WAIT_REF at
start-up (R438, R439). Then every domain on REF with fallback = 1 falls back (R449). -/
def Rules.MonitorTripMovesTheMultiplier : Prop :=
  ∀ (s : State) (cause : Fin 3), s.Running →
    let seen (k : Nat) : Prop := cause.val = 0 ∧ ∃ g < 12, k = (CKP_DOM_FREQ g).key
    (s.dev.refOk = false → ∃ d, exec (.refclkMonitorTrip cause) s = .next (s.settling d) ∧ s.dev.SameBut seen { d with ckp := s.dev.ckp } ∧
      d.ckp = { s.dev.ckp with refGone := decide (cause.val = 0) } ∧ (cause.val = 0 → ∀ g < 12, d.flag (CKP_DOM_FREQ_valid g) = false)) ∧
    (s.dev.refOk = true → ∃ x, x.ckp = { s.dev.ckp with refGone := decide (cause.val = 0) } ∧ (cause.val = 0 → ∀ g < 12, x.flag (CKP_DOM_FREQ_valid g) = false) ∧
      x.refOk = false ∧ x.flag CKP_STAT_mon_trip = true ∧ x.get CKP_STAT_trip_cause = cause.val + 1 ∧
      x.get CKP_STAT_trips = min (s.dev.get CKP_STAT_trips + 1) 65535 ∧ x.flag GCTL_HDRM_valid = false ∧
      x.get CKP_STAT_state = s.dev.get CKP_STAT_state ∧ x.get CKP_STAT_attempts = s.dev.get CKP_STAT_attempts ∧
      s.dev.SameBut (fun k => k = CKP_STAT_state.key ∨ k = GCTL_HDRM.key ∨ seen k) { x with ckp := s.dev.ckp } ∧
      (s.dev.multIs .locked = true → exec (.refclkMonitorTrip cause) s = .next (s.settling (forN 10 domFallback (coastEnter x)))) ∧
      (s.dev.multIs .counting = true ∨ s.dev.multIs .locking = true → ∃ y, exec (.refclkMonitorTrip cause) s = .next (s.settling (forN 10 domFallback y)) ∧
        y.get CKP_STAT_attempts = min (s.dev.get CKP_STAT_attempts + 1) 31 ∧ y.flag CKP_STAT_coast = true ∧
        y.get CKP_STAT_state = (if 16 ≤ min (s.dev.get CKP_STAT_attempts + 1) 31 then MultState.held.code
          else if s.dev.ckp.started then MultState.coast.code else MultState.waitRef.code)) ∧
      (s.dev.multIs .locked = false → s.dev.multIs .counting = false → s.dev.multIs .locking = false →
        exec (.refclkMonitorTrip cause) s = .next (s.settling (forN 10 domFallback x))))

/-- The other commands of the multiplier, each with its rows of the table of R439 and no others: MONITOR_CLEAR; REFCLK_FIRST_EDGE takes WAIT_REF
and COAST to COUNTING while the monitor is clear; COUNT_COMPLETE takes COUNTING to LOCKING; LOCK_ACHIEVED takes LOCKING to LOCKED, where COAST
clears and attempts is 0; RETRY takes HELD to WAIT_REF with attempts at 0. -/
def Rules.MultiplierTransitions : Prop :=
  ∀ s : State, s.Running →
    (∃ d, exec .monitorClear s = .next (s.settling d) ∧ d.refOk = true ∧ d.get CKP_STAT_state = s.dev.get CKP_STAT_state ∧
      d.ckp = { s.dev.ckp with refGone := false } ∧ s.dev.SameBut (fun k => k = CKP_STAT_state.key) { d with ckp := s.dev.ckp }) ∧
    (∃ d, exec .refclkFirstEdge s = .next (s.settling d) ∧ s.dev.SameBut (fun k => k = CKP_STAT_state.key ∨ k = TBS_STATE_state.key) d ∧
      d.get CKP_STAT_state = (if s.dev.refOk && (s.dev.multIs .waitRef || s.dev.multIs .coast) then MultState.counting.code
        else s.dev.get CKP_STAT_state)) ∧
    (∃ d, exec .countComplete s = .next (s.settling d) ∧
      s.dev.SameBut (fun k => k = CKP_STAT_state.key ∨ k = TBS_STATE_state.key ∨ k = CKP_PWR_STAT_step.key) d ∧
      d.get CKP_STAT_state = (if s.dev.multIs .counting then MultState.locking.code else s.dev.get CKP_STAT_state)) ∧
    (s.dev.multIs .locking = false → exec .lockAchieved s = .next (s.settling s.dev)) ∧
    (s.dev.multIs .locking = true → ∃ x, x.multIs .locked = true ∧ x.flag CKP_STAT_coast = false ∧ x.get CKP_STAT_attempts = 0 ∧
      exec .lockAchieved s = .next (s.settling (if s.dev.ckp.started then domRevive 7 x
        else forN 10 (fun g d => if domFixed g || d.flag (CKP_DOM_CTRL_enable g) then domStart g d else d)
          { x with ckp := { x.ckp with started := true } }))) ∧
    (∀ m : Master, s.dev.Writes m 0x10000 1 → ∃ d, exec (.clkRetry m) s = .next (s.settling d) ∧
      s.dev.SameBut (fun k => k = CKP_STAT_state.key ∨ k = TBS_STATE_state.key) d ∧
      d.get CKP_STAT_state = (if s.dev.multIs .held then MultState.waitRef.code else s.dev.get CKP_STAT_state) ∧
      d.get CKP_STAT_attempts = (if s.dev.multIs .held then 0 else s.dev.get CKP_STAT_attempts))

/-- A domain ramps by R446: speeding up, D := max(Dt, ⌈3D / 4⌉), ON where the target is reached; slowing down, D := min(1,024, ⌊4D / 3⌋),
and OFF with a dead crossing after 1,024. Without edges of its source it stands. An OFF domain that is enabled in service starts from divider 1,024 and is RAMPING; an ON one
that is disabled is DISABLING; TBC and MEM stay as they are. A RAMPING one with enable_pending acts on its enable where it reaches ON (R445). -/
def Rules.DomainsRampByTheirDividers : Prop :=
  ∀ (s : State) (g : Fin 10), s.Running →
    (s.dev.domEdges g = false → exec (.domainRampStep g) s = .next (s.settling s.dev)) ∧
    (s.dev.domEdges g = true → s.dev.domIs g .ramping = true → s.dev.flag (CKP_DOM_CTRL_enable_pending g) = false →
      s.dev.get (CKP_DOM_CTRL_divider g) ≤ 1024 → ∃ d, exec (.domainRampStep g) s = .next (s.settling d) ∧
      let n := max (s.dev.domTarget g) ((3 * s.dev.get (CKP_DOM_CTRL_divider g) + 3) / 4)
      d.get (CKP_DOM_CTRL_divider g) = n ∧ d.domIs g (if n = s.dev.domTarget g then .on else .ramping) = true ∧
      ∀ h < 10, h ≠ g.val → d.word (CKP_DOM_CTRL h).key = s.dev.word (CKP_DOM_CTRL h).key) ∧
    (s.dev.domEdges g = true → s.dev.domIs g .ramping = true → s.dev.flag (CKP_DOM_CTRL_enable_pending g) = true →
      s.dev.get (CKP_DOM_CTRL_divider g) ≤ 1024 → ∃ d, exec (.domainRampStep g) s = .next (s.settling d) ∧
      let n := max (s.dev.domTarget g) ((3 * s.dev.get (CKP_DOM_CTRL_divider g) + 3) / 4)
      d.get (CKP_DOM_CTRL_divider g) = n ∧ (d.flag (CKP_DOM_CTRL_enable_pending g) = true ↔ n ≠ s.dev.domTarget g) ∧
      d.domIs g (if n ≠ s.dev.domTarget g then .ramping else if s.dev.flag (CKP_DOM_CTRL_enable g) then .on else .disabling) = true) ∧
    (s.dev.domEdges g = true → s.dev.domIs g .disabling = true → s.dev.get (CKP_DOM_CTRL_divider g) ≠ 1024 →
      exec (.domainRampStep g) s = .next (s.settling (s.dev.set (CKP_DOM_CTRL_divider g) (min 1024 (4 * s.dev.get (CKP_DOM_CTRL_divider g) / 3))))) ∧
    (s.dev.domEdges g = true → s.dev.domIs g .disabling = true → s.dev.get (CKP_DOM_CTRL_divider g) = 1024 →
      s.dev.flag (CKP_DOM_CTRL_enable_pending g) = false → ∃ d, exec (.domainRampStep g) s = .next (s.settling d) ∧ d.domIs g .off = true ∧
      d.get (CKP_DOM_CTRL_divider g) = 0 ∧ d.xingDead (xingOf g) = true) ∧
    (∀ m : Master, domFixed g = false → s.dev.domIs g .off = true → s.dev.ckp.started = true →
      s.dev.flag (CKP_DOM_CTRL_enable g) = false → s.dev.WritesField m (0x10100 + 16 * g.val) 0 1 1 → ∃ d, exec (.domainEnable m g) s = .next (s.settling d) ∧
      d.flag (CKP_DOM_CTRL_enable g) = true ∧ d.domIs g .ramping = true ∧ d.get (CKP_DOM_CTRL_divider g) = 1024 ∧
      (s.dev.domEdges g = true → d.xingDead (xingOf g) = false)) ∧
    (∀ m : Master, domFixed g = false → s.dev.domIs g .on = true → s.dev.flag (CKP_DOM_CTRL_enable g) = true →
      s.dev.WritesField m (0x10100 + 16 * g.val) 0 1 0 → ∃ x, exec (.domainDisable m g) s = .next (s.settling (phyStop g x)) ∧
      x.flag (CKP_DOM_CTRL_enable g) = false ∧ x.domIs g .disabling = true ∧
      x.get (CKP_DOM_CTRL_divider g) = s.dev.get (CKP_DOM_CTRL_divider g)) ∧
    (∀ m : Master, domFixed g = true → s.dev.WritesField m (0x10100 + 16 * g.val) 0 1 0 → ∃ d, exec (.domainDisable m g) s = .next (s.settling d) ∧
      ∀ k, d.word k = s.dev.word k)

/-- A switch of TBC is refused with FIXED, one to REF while the monitor is tripped with NO_SOURCE, and one of a domain that is RAMPING or
DISABLING with BUSY; a refused domain keeps its source, and one that is OFF takes the new source for its next start (R447). Without an edge of the old
clock for 1 µs a switch is forced: the new source starts at divider 1,024, RAMPING, with switch_forced set; a domain in DISABLING is then at divider
1,024 (R448; for one in DISABLING the model's choice, log entry 109). An ON domain takes the new source, with the ref_div of a switch to REF, and its start divider where an edge of the old clock
arrives (R447). A domain that is counted shows its frequency; one that is OFF, or any while REFCLK is
absent, keeps its value with valid cleared (R453). A spread takes effect with its depth and rate at the top of the triangle (R450). -/
def Rules.ClockSwitchesAndMeasurements : Prop :=
  ∀ s : State, s.Running →
    (∀ (m : Master) (g : Fin 10) (ref edge : Bool), s.dev.onRef g ≠ ref → s.dev.domIs g .off = false ∨ g.val = 0 →
      (s.dev.WritesField m (0x10100 + 16 * g.val) 4 1 (b2n ref)) →
      (g.val = 0 ∨ (ref = true ∧ s.dev.refOk = false) ∨ s.dev.domIs g .ramping = true ∨ s.dev.domIs g .disabling = true) →
      ∃ d, exec (.domainSourceSwitch m g ref edge) s = .next (s.settling d) ∧ d.onRef g = s.dev.onRef g ∧
        d.get (CKP_DOM_CTRL_result g) = (if g.val = 0 then 3 else if ref && !s.dev.refOk then 1 else 2)) ∧
    (∀ (m : Master) (g : Fin 10) (ref edge : Bool), g.val ≠ 0 → s.dev.onRef g ≠ ref → s.dev.domIs g .off = true →
      s.dev.WritesField m (0x10100 + 16 * g.val) 4 1 (b2n ref) → ∃ d, exec (.domainSourceSwitch m g ref edge) s = .next (s.settling d) ∧
        d.onRef g = ref ∧ s.dev.SameBut (fun k => k = (CKP_DOM_CTRL g).key) d) ∧
    (∀ (m : Master) (g : Fin 10) (ref edge : Bool), g.val ≠ 0 → s.dev.onRef g ≠ ref → s.dev.domIs g .on = true →
      s.dev.ckp.switching.contains g.val = false → (ref = true → s.dev.refOk = true) →
      s.dev.WritesField m (0x10100 + 16 * g.val) 4 1 (b2n ref) →
      s.dev.flag (CKP_DOM_CTRL_enable g) = true →
      ∃ x, x.onRef g = ref ∧ x.get (CKP_DOM_CTRL_result g) = 0 ∧ x.get (CKP_DOM_CTRL_divider g) = s.dev.get (CKP_DOM_CTRL_divider g) ∧
      x.ckp = s.dev.ckp ∧ exec (.domainSourceSwitch m g ref edge) s = .next (s.settling (let y := if ref then phyStop g (refDivApply g x) else x
        if edge then domRevive g (domSpeed g (s.dev.switchDivider g ref) y) else { y with ckp := { y.ckp with switching := g.val :: y.ckp.switching } }))) ∧
    (∀ g : Fin 10, s.dev.ckp.switching.contains g.val = true → ∃ d, exec (.switchEdgeTimeout g) s = .next (s.settling d) ∧
      d.flag (CKP_DOM_CTRL_switch_forced g) = true ∧ d.get (CKP_DOM_CTRL_divider g) = 1024 ∧
      d.domIs g (if s.dev.domIs g .disabling then .disabling else .ramping) = true ∧
      d.ckp.switching.contains g.val = false) ∧
    (∀ (khz : List Nat), s.dev.Reaches (nextMs s.dev.now) → ∃ d, exec (.freqMeasure khz) s = .next (s.settling d) ∧ ∀ g < 12,
      (if s.dev.refAbsent || (decide (g < 10) && s.dev.domIs g .off) then
        d.flag (CKP_DOM_FREQ_valid g) = false ∧ d.get (CKP_DOM_FREQ_khz g) = s.dev.get (CKP_DOM_FREQ_khz g)
      else d.flag (CKP_DOM_FREQ_valid g) = true ∧ d.get (CKP_DOM_FREQ_khz g) = khz.getD g 0 % 2 ^ 24)) ∧
    (∀ n : Fin 4, ∃ d, exec (.sscApply n) s = .next (s.settling d) ∧ d.get (CKP_SS_STAT_applied n) = s.dev.get (CKP_SS_CFG_depth n) ∧
      d.get (CKP_SS_STAT_achieved n) = 5 * s.dev.get (CKP_SS_STAT_applied n) ∧ lookup n.val d.ckp.ssRate = some (s.dev.get (CKP_SS_CFG_rate n)) ∧
      s.dev.SameBut (fun k => k = (CKP_SS_STAT n).key) { d with ckp := s.dev.ckp })

/-- The transitions of the clock multiplier and what the reference monitor does to it. -/
def Obligations.MultiplierFollowsItsReference : Prop := Rules.MonitorTripMovesTheMultiplier ∧ Rules.MultiplierTransitions

/-- The clock domains: enabling by the divider ramp, switching, gating and measuring. -/
def Obligations.ClockDomainsAreRampedAndSwitched : Prop := Rules.DomainsRampByTheirDividers ∧ Rules.ClockSwitchesAndMeasurements

/-! ## Supplies, resets and start-up -/

/-- PORn, a supply monitor and CKP_RESET with confirm 0x5E reset the device, and the island records each as its own cause (R456, R462); a confirm
with another value does nothing, and a write without administer right on target 1 is a violation of kind ADMIN (R428, R462; for a value other
than 0x5E DEDUCED, log entry 142). After a supply loss the record says
that no orderly shutdown removed the rails (R461). -/
def Rules.ResetsStartAllOver : Prop :=
  ∀ s : State,
    (∃ d, exec .pornAssert s = .next { s with dev := d } ∧ s.dev.ResetFrom d (setBit s.dev.island.causes 0 true) ∧ d.island.orderly = s.dev.island.orderly) ∧
    (∃ d, exec .supplyMonitorTrip s = .next { s with dev := d } ∧ s.dev.ResetFrom d (setBit s.dev.island.causes 1 true) ∧
      d.island.orderly = (s.dev.island.orderly && !s.dev.island.pwrEn)) ∧
    (∀ (m : Master) (c : BitVec 32), s.Running → s.dev.arrives m = true → s.dev.fixedWrite m 0x10808 c.toNat = false → s.dev.granted .admin 1 m = false →
      exec (.softReset m c) s = .next (s.leaving (violation .admin m 1 0x10808 s.dev))) ∧
    (∀ (m : Master) (c : BitVec 32), s.Running → s.dev.Writes m 0x10808 c.toNat →
      (c.toNat % 256 ≠ 0x5E → exec (.softReset m c) s = .next (s.leaving s.dev)) ∧
      (c.toNat % 256 = 0x5E → ∃ d, exec (.softReset m c) s = .next (s.leaving d) ∧
        s.dev.ResetFrom d (setBit s.dev.island.causes 3 true)))

/-- Three consecutive measurements at or above 125 °C reset the device with cause THERMAL; in reset a measurement below 115 °C ends the hold. A
measurement that does not reset shows Tj, and cause 6 of R297 stands from trip_c on until a measurement below trip_c - 5 °C (R460). -/
def Rules.TemperatureTripsAndResets : Prop :=
  ∀ (s : State) (tj : Int),
    (s.dev.pwr.held = true → ∃ d, exec (.tjMeasure tj) s = .next { s with dev := d } ∧ d = { s.dev with pwr := { s.dev.pwr with
      thermHold := s.dev.pwr.thermHold && decide (460 ≤ tj) } }) ∧
    (s.Running → 500 ≤ tj → 2 ≤ s.dev.pwr.thermRun → ∃ d, exec (.tjMeasure tj) s = .next { s with dev := d } ∧
      s.dev.ResetFrom d (setBit s.dev.island.causes 2 true) ∧ d.pwr.thermHold = true) ∧
    (s.Running → tj < 500 ∨ s.dev.pwr.thermRun < 2 → ∃ d, exec (.tjMeasure tj) s = .next (s.ending (watch d)) ∧ d.pwr.held = false ∧
      d.pwr.thermRun = (if 500 ≤ tj then s.dev.pwr.thermRun + 1 else 0) ∧ d.get CKP_THERM_tj = ofInt 16 tj ∧
      let trip : Int := s.dev.get CKP_THERM_CFG_trip_c
      (d.flag CKP_THERM_trip = if s.dev.flag CKP_THERM_trip then decide ((trip - 5) * 4 ≤ tj) else decide (trip * 4 ≤ tj)) ∧
      ∀ k, keyBlock k ≠ 0x12 → k ≠ GCTL_XDROP.key → k ≠ CKP_THERM.key → d.word k = s.dev.word k)

/-- Internal reset is released with VSTBY up, the rails enabled and no thermal hold; CKP_RST_CAUSE and last_off show the island's record
(R456, R461, R462); that a release acts from step 0 too is the model's choice (log entry 134). VSTBY rising sets PWR_EN and the latch of the seal; its loss resets the device and loses the island's state (R478), the record of the causes too by the model's choice (log entry 139). A WAKE edge
returns PWR_EN high, or is remembered until the 100 ms have passed (R461). -/
def Rules.IslandControlsTheRails : Prop :=
  ∀ s : State,
    (s.dev.pwr.held = true ∨ s.dev.get CKP_PWR_STAT_step = 0 → s.dev.island.vstby = true → s.dev.island.pwrEn = true → s.dev.pwr.thermHold = false →
      ∃ d, exec .resetRelease s = .next { s with dev := d } ∧ d.pwr.held = false ∧ d.get CKP_RST_CAUSE_cause = s.dev.island.causes % 16 ∧
      d.flag CKP_PWR_STAT_last_off = s.dev.island.orderly ∧ d.flag ENR_SEAL_STAT_contact = s.dev.island.contact ∧
      (s.dev.get CKP_PWR_STAT_step = 0 → d.get CKP_PWR_STAT_step = 1)) ∧
    ((s.dev.pwr.held = false ∧ s.dev.get CKP_PWR_STAT_step ≠ 0) ∨ s.dev.island.vstby = false ∨ s.dev.island.pwrEn = false ∨
      s.dev.pwr.thermHold = true → exec .resetRelease s = .next (s.ending s.dev)) ∧
    (s.dev.island.vstby = false → exec .vstbyRise s =
      .next (s.ending { s.dev with island := { s.dev.island with vstby := true, pwrEn := true, sealLatch := true } })) ∧
    (s.dev.island.vstby = true → exec .vstbyRise s = .next (s.ending s.dev)) ∧
    (∃ d, exec .vstbyLoss s = .next { s with dev := d } ∧ d.pwr.held = true ∧ (∀ k, d.word k = resetOf k) ∧ d.island.vstby = false ∧ d.island.pwrEn = false ∧
      d.island.causes = 0) ∧
    (s.dev.island.vstby = true → exec .wakeEdge s = .next (s.ending { s.dev with island :=
      if s.dev.island.holdOff || (s.dev.island.pwrEn && s.dev.pwr.shut != 0) then { s.dev.island with wake := true }
      else { s.dev.island with pwrEn := true } })) ∧
    (s.dev.island.vstby = false → exec .wakeEdge s = .next (s.ending s.dev)) ∧
    (s.dev.island.holdOff = true → exec .wakeHoldoffExpire s = .next (s.ending { s.dev with island :=
      { s.dev.island with holdOff := false, pwrEn := s.dev.island.wake, wake := false } })) ∧
    (s.dev.island.holdOff = false → exec .wakeHoldoffExpire s = .next (s.ending s.dev))

/-- CKP_SHUTDOWN with confirm 0xD5 gives BUSY while a store runs and STATE before step 9 has passed or once one is accepted (STATE for a second one, and BUSY before STATE, are
the model's choice, log entry 204). Otherwise
it is accepted: shutting_down and a result of 0, and with no logic cycle running the token is released, the pulse sampling stops and the save is
begun at once. Once the save has ended and no legal record waits, the island records ORDERLY and PWR_EN goes low (R461, R466). -/
def Rules.ShutdownInItsOrder : Prop :=
  ∀ s : State, s.Running →
    (∀ (m : Master) (c : BitVec 32), s.dev.Writes m 0x1080C c.toNat → c.toNat % 256 ≠ 0xD5 →
      exec (.orderlyShutdown m c) s = .next (s.settling s.dev)) ∧
    (∀ (m : Master) (c : BitVec 32), s.dev.arrives m = true → s.dev.fixedWrite m 0x1080C c.toNat = false → m.val ≠ 2 → s.dev.granted .admin 1 m = false →
      exec (.orderlyShutdown m c) s = .next (s.settling (violation .admin m 1 0x1080C s.dev))) ∧
    (∀ (m : Master) (c : BitVec 32), s.dev.Writes m 0x1080C c.toNat → c.toNat % 256 = 0xD5 →
      (s.dev.pwr.store.isSome = true → ∃ d, exec (.orderlyShutdown m c) s = .next (s.settling d) ∧ d.get CKP_SHUT_RESULT_result = 1 ∧
        d.pwr = s.dev.pwr ∧ s.dev.SameBut (fun k => k = CKP_SHUT_RESULT.key) d) ∧
      (s.dev.pwr.store = none → s.dev.get CKP_PWR_STAT_step < 9 ∨ s.dev.pwr.shut ≠ 0 → ∃ d, exec (.orderlyShutdown m c) s = .next (s.settling d) ∧
        d.get CKP_SHUT_RESULT_result = 2 ∧ d.pwr = s.dev.pwr ∧ s.dev.SameBut (fun k => k = CKP_SHUT_RESULT.key) d) ∧
      (s.dev.pwr.store = none → 9 ≤ s.dev.get CKP_PWR_STAT_step → s.dev.pwr.shut = 0 → ∃ x, x.pwr.shut = 1 ∧
        x.flag CKP_PWR_STAT_shutting_down = true ∧ x.get CKP_SHUT_RESULT_result = 0 ∧
        s.dev.SameBut (fun k => k = CKP_SHUT_RESULT.key ∨ k = CKP_PWR_STAT.key) { x with pwr := s.dev.pwr } ∧
        exec (.orderlyShutdown m c) s = .next (s.settling (if s.dev.leRunning || s.dev.get LGE_STAT_state = 3 then x else shutRelease x)))) ∧
    (s.dev.pwr.shut = 3 → s.dev.enr.saving = none → s.dev.logs.legalQueue = [] → exec .shutdownPowerOff s = .next (s.settling { s.dev with pwr := { s.dev.pwr with shut := 5 }, island := { s.dev.island with orderly := true, pwrEn := false, holdOff := true } })) ∧
    (s.dev.pwr.shut ≠ 3 ∨ s.dev.enr.saving.isSome = true ∨ s.dev.logs.legalQueue ≠ [] → exec .shutdownPowerOff s = .next (s.settling s.dev))

/-- At start-up step 4 an area that fails its check counts as empty, the power cycles are counted, and the enrolled key
shows, and the identity goes into the configuration spaces of HA and HB (R415); then the settings are applied, the legal log is scanned, the save is restored, the seal moves, and slot A is verified next (R463, R470). A trained DDR5 fixes the installed capacity, 0 where training fails (R464). A DOUT is
watched exactly while its monitor bit of DIO_DOUT_MON differs from the expected state, and 200 µs of that set its fault bit and no other; a monitor bit reads 1 for 150 µs after a rising edge at the ball (R482). With TEST_MODE = 0 the TAP takes BYPASS for EXTEST, INTEST and
CLAMP, and else the instruction (R480). -/
def Rules.StartupReadsTheNvm : Prop :=
  ∀ s : State, s.Running →
    (∀ bad : Fin 16, s.dev.get CKP_PWR_STAT_step = 3 → ∃ x, x.get CKP_PWR_STAT_step = 3 ∧
      x.nvm.cycles = (if bitAt bad.val 3 then 0 else s.dev.nvm.cycles) + 1 ∧ x.get CKP_PWR_STAT_cycles = x.nvm.cycles % 2 ^ 16 ∧
      x.nvm.settings = (if bitAt bad.val 0 then [] else s.dev.nvm.settings) ∧
      x.nvm.ownerKey = (if bitAt bad.val 1 then [] else s.dev.nvm.ownerKey) ∧ x.flag BND_STAT_key_enrolled = !x.nvm.ownerKey.isEmpty ∧
      (∀ k < 4, bitAt (x.get NVM_STAT_area_err) k = bitAt bad.val k) ∧
      x.nvm.vendor = (if bitAt bad.val 1 then 0 else s.dev.nvm.vendor) ∧ (∀ e < 2, x.pcie e = { s.dev.pcie e with
        vendor := x.nvm.vendor, subVendor := x.nvm.subVendor, subsystem := x.nvm.subsystem }) ∧
      let y := sealMove 3 (sealShow (saveRestore (legalScan (applySettings x))))
      exec (.startupNvmRead bad) s = .next (s.settling (stepDone 4 ((y.bndPut .verifying).withBnd (fun b => { b with loading := some 1 }))))) ∧
    (∀ bad : Fin 16, s.dev.get CKP_PWR_STAT_step ≠ 3 → exec (.startupNvmRead bad) s = .next (s.settling s.dev)) ∧
    (∀ (ok : Bool) (mib : Nat), exec (.ddrTrainingDone ok mib) s = .next (s.settling (if s.dev.get CKP_PWR_STAT_step < 4 ∨ s.dev.pwr.trained then s.dev
        else { s.dev with pwr := { s.dev.pwr with trained := true, ddrMib := if ok then mib else 0 } }))) ∧
    (∀ (n : Fin 16) (t : Nat), lookup n s.dev.le.doutDiff = some t → s.dev.ReachesElapsed (t + 800000) → ∃ d, exec (.doutFault n) s = .next (s.settling d) ∧
      s.dev.SameBut (fun k => k = DIO_DOUT_FAULT.key) { d with time := s.dev.time } ∧
      ∀ k < 16, bitAt (d.get DIO_DOUT_FAULT_fault) k = (bitAt (s.dev.get DIO_DOUT_FAULT_fault) k || decide (k = n.val))) ∧
    (∀ n : Fin 16, lookup n s.dev.le.doutDiff = none → exec (.doutFault n) s = .next (s.settling s.dev)) ∧
    (∀ n < 16, (lookup n (publish s.dev).le.doutDiff).isSome = ((publish s.dev).doutMonBit n != (publish s.dev).doutOn n)) ∧
    (∀ (m : Master) (w : Bool), s.dev.readVerdict m 0x130204 = .pass →
      exec (.lowWordRead m .bar0 0x130204 w) s = .next (s.leaving (s.dev.answer m { data := s.dev.doutMon })) ∧
      ∀ n < 16, bitAt s.dev.doutMon n = (match lookup n s.dev.le.doutRise with
        | some t => decide (s.dev.time.elapsed ≤ t + 600000)
        | none => false)) ∧
    (∀ t : TapOp, exec (.tapInstruction t) s = .next (s.leaving { s.dev with tap := { s.dev.tap with
      ctrl := .runTestIdle, instr := if s.dev.tap.testMode = false ∧ (t = .extest ∨ t = .intest ∨ t = .clamp) then .bypass else t } }))

/-- The key sequence of NVM_KEY: 0x13579BDF and then 0xECA86420 arm the master's key at the present instant, any other second word disarms it, and
so do 1 ms (R471). -/
def Rules.KeySequenceArms : Prop :=
  ∀ (s : State) (m : Master), s.Running →
    (∀ v : BitVec 32, s.dev.Writes m 0x20100 v.toNat → ∃ d, exec (.nvmKeyWrite m v) s = .next (s.leaving d) ∧
      d = { s.dev with pwr := { s.dev.pwr with keys := d.pwr.keys } } ∧
      lookup m.val d.pwr.keys = (if v = 0x13579BDF then some (1, s.dev.time.elapsed)
        else if v = 0xECA86420 ∧ (lookup m.val s.dev.pwr.keys).map (·.1) = some 1 then some (2, s.dev.time.elapsed) else none)) ∧
    (∀ t, lookup m.val s.dev.pwr.keys = some (2, t) → s.dev.ReachesElapsed (t + 4000000) → ∃ d, exec (.nvmKeyExpire m) s = .next (s.leaving d) ∧
      lookup m.val d.pwr.keys = none ∧ t + 4000000 ≤ d.time.elapsed) ∧
    ((∀ t, lookup m.val s.dev.pwr.keys ≠ some (2, t)) → exec (.nvmKeyExpire m) s = .next (s.leaving s.dev))

/-- Every NVM command disarms the key. One that R471 refuses finishes at once with its result and leaves a running store alone; one that is
accepted becomes the running store with its slot and its bytes, those of NVM_SRC or of recovery staging or of the argument words, and busy sets. A store of a slot writes
64 KiB a chunk, and does not end before its last chunk (R468). A command that is read back ends with OK and its effect: the slot written or erased, the settings, the key,
BND_MINVER or the seal key; one whose read-back does not match ends with VERIFY_FAIL and another content in the area written (which one, is open, log entry 136). Every finish
raises source 9 (R471, R472). A store waits while another kind of NVM write has its turn (R468). -/
def Obligations.NvmCommandsRun : Prop :=
  ∀ s : State, s.Running →
    let starts (i : Instr) (m : Master) (cmd slot : Nat) (staging : Bool) : Prop :=
      s.dev.Writes m 0x20104 (cmd + 16 * slot + 64 * b2n staging) →
      (nvmRefuse m cmd slot staging s.dev = none → ∃ d st, exec i s = .next (s.leaving d) ∧
        d.pwr.store = some st ∧ st.cmd = cmd ∧ st.slot = slot ∧ st.done = 0 ∧ d.flag NVM_STAT_busy = true ∧
        (cmd = 2 ∨ cmd = 5 ∨ cmd = 6 → st.bytes = toLe 4 (s.dev.get NVM_ARG_LO) ++ toLe 4 (s.dev.get NVM_ARG_HI)) ∧
        (let n := if cmd = 4 then 64 else s.dev.get NVM_LEN
        cmd = 1 ∨ cmd = 3 ∨ cmd = 4 → (staging = true → st.bytes = slice s.dev.bnd.staging 0 n) ∧
          ∀ p o, staging = false → placeOf (s.dev.get2 NVM_SRC_LO NVM_SRC_HI) = some (.dram p o) → st.bytes = s.dev.dramRead ((s.dev.part p).1 + o) n) ∧
        d.keyArmed m = false ∧ s.dev.SameBut (fun k => k = NVM_STAT.key) { d with pwr := s.dev.pwr }) ∧
      (∀ r, nvmRefuse m cmd slot staging s.dev = some r → ∃ d, exec i s = .next (s.leaving (raise 9 d)) ∧
        d.get NVM_STAT_result = r.code ∧ d.flag NVM_STAT_busy = s.dev.flag NVM_STAT_busy ∧ d.pwr.store = s.dev.pwr.store ∧ d.keyArmed m = false ∧
        s.dev.SameBut (fun k => k = NVM_STAT.key) { d with pwr := s.dev.pwr })
    (∀ (m : Master) (slot : Fin 4) (staging : Bool), starts (.storeSlot m slot staging) m 1 slot staging) ∧
    (∀ (m : Master) (slot : Fin 4), starts (.eraseSlot m slot) m 2 slot false) ∧
    (∀ (m : Master) (staging : Bool), starts (.storeSettings m staging) m 3 0 staging) ∧
    (∀ (m : Master) (staging : Bool), starts (.enrollKey m staging) m 4 0 staging) ∧
    (∀ m : Master, starts (.setMinver m) m 5 0 false) ∧
    (∀ m : Master, starts (.setSealKey m) m 6 0 false) ∧
    (s.dev.nvmOwner ≠ some .store → exec .nvmChunkDone s = .next (s.settling s.dev) ∧ ∀ ok, exec (.nvmCmdDone ok) s = .next (s.settling s.dev)) ∧
    (∀ st, s.dev.pwr.store = some st → st.cmd ≠ 1 → exec .nvmChunkDone s = .next (s.settling s.dev)) ∧
    (∀ st, s.dev.pwr.store = some st → st.cmd = 1 → s.dev.nvmOwner = some .store → ∃ d, exec .nvmChunkDone s = .next (s.settling d) ∧
      d.pwr.store = some { st with done := min (st.done + 65536) st.bytes.length } ∧
      (if st.slot = 1 then d.nvm.slotA = st.bytes.take (min (st.done + 65536) st.bytes.length) ++
          s.dev.nvm.slotA.drop (min (st.done + 65536) st.bytes.length) ∧ d.nvm.slotB = s.dev.nvm.slotB
        else d.nvm.slotB = st.bytes.take (min (st.done + 65536) st.bytes.length) ++
          s.dev.nvm.slotB.drop (min (st.done + 65536) st.bytes.length) ∧ d.nvm.slotA = s.dev.nvm.slotA)) ∧
    (∀ st ok, s.dev.pwr.store = some st → st.cmd = 1 → st.done + 65536 < st.bytes.length → exec (.nvmCmdDone ok) s = .next (s.settling s.dev)) ∧
    (∀ st, s.dev.pwr.store = some st → s.dev.nvmOwner = some .store → (st.cmd = 1 → st.bytes.length ≤ st.done + 65536) →
      let slots (d : Dev) (bs : List Byte) : Prop :=
        (if st.slot = 1 then d.nvm = { s.dev.nvm with slotA := bs } else d.nvm = { s.dev.nvm with slotB := bs }) ∧
        (s.dev.get BND_STAT_active = st.slot → d.flag BND_STAT_slot_changed = true)
      (∃ d, exec (.nvmCmdDone true) s = .next (s.settling (raise 9 d)) ∧ d.pwr.store = none ∧ d.get NVM_STAT_result = 0 ∧
        d.flag NVM_STAT_busy = false ∧
        (st.cmd = 1 → slots d (st.bytes ++ (s.dev.slotImage st.slot).drop st.bytes.length)) ∧
        (st.cmd = 2 → slots d []) ∧
        (st.cmd = 3 → d.nvm = { s.dev.nvm with settings := (List.range (st.bytes.length / 8)).map (fun i => (leAt st.bytes (8 * i) 4, leAt st.bytes (8 * i + 4) 4)) }) ∧
        (st.cmd = 4 → d.nvm = { s.dev.nvm with ownerKey := st.bytes } ∧ d.flag BND_STAT_key_enrolled = true) ∧
        (st.cmd = 5 → d.nvm = { s.dev.nvm with minver := leAt st.bytes 0 4 } ∧ d.get BND_MINVER = leAt st.bytes 0 4) ∧
        (st.cmd = 6 → d.nvm = { s.dev.nvm with sealKey := leAt st.bytes 0 8 }) ∧
        s.dev.SameBut (fun k => k = NVM_STAT.key ∨ k = BND_STAT_slot_changed.key ∨ k = BND_MINVER.key) { d with pwr := s.dev.pwr, nvm := s.dev.nvm }) ∧
      ∃ d, exec (.nvmCmdDone false) s = .next (s.settling (raise 9 d)) ∧ d.pwr.store = none ∧ d.get NVM_STAT_result = 8 ∧ d.flag NVM_STAT_busy = false ∧
        (st.cmd = 1 → ∃ bs : List Byte, slots d (bs ++ (s.dev.slotImage st.slot).drop st.bytes.length) ∧ bs.length = st.bytes.length ∧ (st.bytes ≠ [] → bs ≠ st.bytes)) ∧
        (st.cmd = 2 → ∃ b : Byte, slots d [b]) ∧
        (st.cmd = 3 → ∃ set, d.nvm = { s.dev.nvm with settings := set }) ∧
        (4 ≤ st.cmd → ∃ key v w, d.nvm = { s.dev.nvm with ownerKey := key, minver := v, sealKey := w }) ∧
        s.dev.SameBut (fun k => k = NVM_STAT.key ∨ k = BND_STAT_slot_changed.key) { d with pwr := s.dev.pwr, nvm := s.dev.nvm, free := s.dev.free })

/-- Every kind of reset, and what a temperature does. -/
def Obligations.ResetsAndTemperatures : Prop := Rules.ResetsStartAllOver ∧ Rules.TemperatureTripsAndResets

/-- The standby island and the steps of an orderly shutdown. -/
def Obligations.PowerUpAndShutdown : Prop := Rules.IslandControlsTheRails ∧ Rules.ShutdownInItsOrder

/-- What start-up takes from NVM, and the key sequence that arms an NVM command. -/
def Obligations.StartupAndItsKeys : Prop := Rules.StartupReadsTheNvm ∧ Rules.KeySequenceArms

/-! ## The Binding -/

/-- BND_CMD LOCK locks an UNLOCKED Binding and gives STATE (0x0C) in any other state (R46); so does the end of lock_timeout_ms, with
BND_STAT.lock_timeout set (R45): where that end is not reached, only time passes. A lock raises source 5, and then the commits of R83, the capacities, the queue pool, the engines and the
compression engine follow, in this order; step 7 of the start-up is complete once the pool has switched and no engine is in self-test (R463). -/
def Rules.LockOfTheBinding : Prop :=
  ∀ s : State, s.Running →
    let locks (c : Instr) (x : Dev) : Prop := x.bndIs .locked = true ∧ x.flag BND_STAT_locked = true ∧
      exec c s = .next (s.settling (cmpPower (enginesLock (poolUpdate (colReeval (commitAll commitEntry x))))))
    (∀ m : Master, s.dev.Writes m 0x20008 1 →
      (s.dev.bndIs .unlocked = false → ∃ d, exec (.bndLock m) s = .next (s.settling d) ∧ d.get BND_RESULT_command = 0x0C ∧
        s.dev.SameBut (fun k => k = BND_RESULT.key) { d with pwr := s.dev.pwr }) ∧
      (s.dev.bndIs .unlocked = true → ∃ x, locks (.bndLock m) x ∧ x.get BND_RESULT_command = 0 ∧ x.queues = s.dev.queues)) ∧
    (s.dev.bndIs .unlocked = true → s.dev.ReachesElapsed (s.dev.bnd.unlockedAt + s.dev.bnd.timeoutMs * 4000000) → ∃ x, locks .lockTimeout x ∧ x.flag BND_STAT_lock_timeout = true ∧
      s.dev.bnd.unlockedAt + s.dev.bnd.timeoutMs * 4000000 ≤ x.time.elapsed) ∧
    (s.dev.bndIs .unlocked = true → ¬ s.dev.ReachesElapsed (s.dev.bnd.unlockedAt + s.dev.bnd.timeoutMs * 4000000) →
      exec .lockTimeout s = .next (s.settling (passElapsed (s.dev.bnd.unlockedAt + s.dev.bnd.timeoutMs * 4000000) s.dev))) ∧
    (s.dev.bndIs .unlocked = false → exec .lockTimeout s = .next (s.settling s.dev)) ∧
    (s.dev.get CKP_PWR_STAT_step = 6 → (startupSettle s.dev).get CKP_PWR_STAT_step =
      if s.dev.flag BND_STAT_locked && s.dev.get QUE_POOL_mode != 1 && (List.range 16).all (fun e => s.dev.get (SCH_ENG_CTRL_state e) != 3) then 7 else 6)

/-- VERIFY and REBIND name slot A or B. VERIFY acts in UNLOCKED, LOCKED and RECOVERY, REBIND with confirm 0xC3 in LOCKED: else STATE
(0x0C). While a verification or a re-binding that has not ended in RECOVERY runs or an NVM command writes the slot, BUSY (0x0B). Otherwise the verification starts, and for REBIND the
state is REBINDING (R47, R49). A verification that VERIFY started ends with its code in the slot's result and in the command's, and changes nothing else;
a good one ends once DDR5 training has (R463), and one of an image with compressed sections waits for a compression job that runs (R383). That STATE comes before BUSY is the model's choice (log entry 178). -/
def Rules.VerifyAndRebind : Prop :=
  ∀ (s : State) (m : Master) (slot : Fin 4), s.Running →
    let named := slot.val = 1 ∨ slot.val = 2
    let busy := s.dev.bnd.verifying.isSome = true ∨ (s.dev.bnd.rebinding = true ∧ s.dev.bnd.broken = false) ∨ s.dev.storing slot = true
    let serves := s.dev.bndIs .unlocked = true ∨ s.dev.bndIs .locked = true ∨ s.dev.bndIs .recovery = true
    (s.dev.Writes m 0x20008 (2 + 16 * slot.val) →
      (named → serves → ¬busy → ∃ d, exec (.bndVerify m slot) s = .next (s.leaving d) ∧ d.nvm = s.dev.nvm ∧
        d.bnd = { s.dev.bnd with verifying := some (slot.val, false) } ∧ d.get BND_STAT_state = s.dev.get BND_STAT_state) ∧
      (named → serves → busy → ∃ d, exec (.bndVerify m slot) s = .next (s.leaving d) ∧ d.bnd = s.dev.bnd ∧ d.get BND_RESULT_command = 0x0B) ∧
      (¬named ∨ ¬serves → ∃ d, exec (.bndVerify m slot) s = .next (s.leaving d) ∧ d.bnd = s.dev.bnd ∧ d.get BND_RESULT_command = 0x0C)) ∧
    (∀ c : Fin 256, s.dev.Writes m 0x20008 (3 + 16 * slot.val + 256 * c.val) →
      (named → s.dev.bndIs .locked = true → c.val = 0xC3 → ¬busy → ∃ d, exec (.bndRebind m slot c) s = .next (s.leaving d) ∧ d.nvm = s.dev.nvm ∧
        d.bnd = { s.dev.bnd with verifying := some (slot.val, true) } ∧ d.bndIs .rebinding = true) ∧
      (named → s.dev.bndIs .locked = true → c.val = 0xC3 → busy → ∃ d, exec (.bndRebind m slot c) s = .next (s.leaving d) ∧
        d.bnd = s.dev.bnd ∧ d.get BND_RESULT_command = 0x0B) ∧
      (¬named ∨ s.dev.bndIs .locked = false ∨ c.val ≠ 0xC3 → ∃ d, exec (.bndRebind m slot c) s = .next (s.leaving d) ∧
        d.bnd = s.dev.bnd ∧ d.get BND_RESULT_command = 0x0C)) ∧
    (∀ i, s.dev.bnd.verifying = some (i, false) →
      (∀ c, imgVerdict (s.dev.slotImage i) s.dev = some c → ∃ d, exec .bindingVerifyDone s = .next (s.leaving d) ∧
        d.get (resultFld i) = c ∧ d.get BND_RESULT_command = c ∧
        d.bnd = { s.dev.bnd with verifying := none } ∧ s.dev.SameBut (fun k => k = BND_RESULT.key) { d with bnd := s.dev.bnd }) ∧
      (imgVerdict (s.dev.slotImage i) s.dev = none → exec .bindingVerifyDone s = .next (s.leaving s.dev))) ∧
    (∀ img,
      let waits := s.dev.cmp.running.isSome = true ∧ s.dev.blockRuns 59 = true ∧ imgPacked img = true
      (waits → imgVerdict img s.dev = none) ∧
      (¬waits → s.dev.pwr.trained = true → imgVerdict img s.dev = some (verifyCode img s.dev.pwr.ddrMib s.dev)) ∧
      (¬waits → s.dev.pwr.trained = false → imgVerdict img s.dev =
        if verifyCode img (16 * 65535) s.dev = 0 then none else some (verifyCode img (16 * 65535) s.dev)))

/-- The recovery load (R44): RCV_BEGIN in RECOVERY or RCV_LOADING zeroes BND_RCV_COUNT and enters RCV_LOADING, and each write of BND_RCV_DATA there
stages the next four bytes and counts them, and discards them beyond 4,194,304; RCV_END starts the verification of the staged image, whose end starts the
build or returns to RECOVERY with its code; a good image waits for the end of DDR5 training (R463). In any other state RCV_BEGIN and RCV_END give STATE and BND_RCV_DATA nothing. That an accepted command shows OK, and the order of the
checks and codes the manual leaves open, are the model's choice (log entries 126 and 178). -/
def Obligations.RecoveryLoad : Prop :=
  ∀ s : State, s.Running →
    (∀ m : Master, s.dev.Writes m 0x20008 4 → ∃ d, exec (.rcvBegin m) s = .next (s.leaving d) ∧
      if s.dev.inRecovery then d.bndIs .rcvLoading = true ∧ d.get BND_RCV_COUNT = 0 ∧ d.bnd.staging = [] ∧ d.get BND_RESULT_command = 0
      else d.get BND_RESULT_command = 0x0C ∧ d.bnd = s.dev.bnd) ∧
    (∀ (m : Master) (v : BitVec 32), s.dev.Writes m 0x2000C v.toNat → ∃ d, exec (.rcvData m v) s = .next (s.leaving d) ∧
      if s.dev.bndIs .rcvLoading then d.get BND_RCV_COUNT = min (s.dev.get BND_RCV_COUNT + 4) 4294967295 ∧
        d.bnd.staging = (if s.dev.get BND_RCV_COUNT < 4194304 then s.dev.bnd.staging ++ toLe 4 v.toNat else s.dev.bnd.staging)
      else d = keyDisarm m s.dev) ∧
    (∀ m : Master, s.dev.Writes m 0x20008 5 → ∃ d, exec (.rcvEnd m) s = .next (s.leaving d) ∧
      if s.dev.inRecovery then
        d.bndIs .verifying = true ∧ d.bnd = { s.dev.bnd with loading := some 3 } ∧ d.get BND_RESULT_command = 0
      else d.get BND_RESULT_command = 0x0C ∧ d.bnd = s.dev.bnd) ∧
    (s.dev.bnd.loading = some 3 →
      (imgVerdict s.dev.bnd.staging s.dev = none → exec .recoveryVerifyDone s = .next (s.leaving s.dev)) ∧
      (imgVerdict s.dev.bnd.staging s.dev = some 0 → ∃ d, exec .recoveryVerifyDone s = .next (s.leaving d) ∧ d.get BND_RESULT_recovery = 0 ∧
        d.bnd.loading = none ∧ d.bndIs .building = true ∧ d.bnd.image = s.dev.bnd.staging ∧ d.bnd.target = 3) ∧
      (∀ c, imgVerdict s.dev.bnd.staging s.dev = some (c + 1) → ∃ d, exec .recoveryVerifyDone s = .next (s.leaving d) ∧
        d.get BND_RESULT_recovery = c + 1 ∧ d.bnd.loading = none ∧ d.bndIs .recovery = true ∧ d.bnd.staging = s.dev.bnd.staging))

/-- The verification of a slot at start-up (R42): a good image builds, once DDR5 training has ended; a bad slot A sets fallback, raises source 4 and
slot B is verified; a bad slot B leads to RECOVERY, with all folios unbound and source 6; the code of the verification is in the slot's result. A re-binding's verification that fails returns to LOCKED and
changes nothing; a good one releases the token at the end of the logic cycle (R48, R49). -/
def Rules.VerificationDecides : Prop :=
  ∀ s : State, s.Running →
    (∀ slot, s.dev.bnd.loading = some slot → slot ≠ 3 →
      let v := imgVerdict (s.dev.slotImage slot) s.dev
      (v = none → exec .slotVerifyDone s = .next (s.settling s.dev)) ∧
      (v = some 0 → ∃ d, exec .slotVerifyDone s = .next (s.settling d) ∧ d.bndIs .building = true ∧
        d.bnd.image = s.dev.slotImage slot ∧ d.bnd.target = slot ∧ d.bnd.loading = none ∧ d.get (resultFld slot) = 0) ∧
      (∀ c, v = some (c + 1) → c < 15 → slot = 1 → ∃ x : Dev, exec .slotVerifyDone s = .next (s.settling ((raise 4 x).withBnd (fun b => { b with loading := some 2 }))) ∧
        x.get (resultFld slot) = c + 1 ∧ x.flag BND_STAT_fallback = true ∧ x.bndIs .verifying = true ∧ x.bnd = s.dev.bnd) ∧
      (∀ c, v = some (c + 1) → slot ≠ 1 → ∃ x : Dev, exec .slotVerifyDone s = .next (s.settling (raise 6 x)) ∧ x.bndIs .recovery = true ∧ (c < 15 → x.get (resultFld slot) = c + 1) ∧
        x.get BND_FOLIO_CNT = 40 * 2 ^ 24 ∧ x.flag BND_STAT_locked = false ∧ x.quires = [] ∧ x.bnd.loading = none ∧ x.bnd.image = [])) ∧
    (∀ slot, s.dev.bnd.verifying = some (slot, true) →
      (imgVerdict (s.dev.slotImage slot) s.dev = none → exec .rebindVerifyDone s = .next (s.settling s.dev)) ∧
      ∀ c, imgVerdict (s.dev.slotImage slot) s.dev = some c →
      (c ≠ 0 → ∃ d, exec .rebindVerifyDone s = .next (s.settling d) ∧ d.bndIs .locked = true ∧ d.get BND_RESULT_command = c ∧
        d.bnd = { s.dev.bnd with verifying := none }) ∧
      (c = 0 → ∃ x, x.bnd = { s.dev.bnd with verifying := none, image := s.dev.slotImage slot, target := slot, releasing := true } ∧
        x.get BND_RESULT_command = 0 ∧ exec .rebindVerifyDone s = .next (s.settling (if s.dev.leRunning || s.dev.get LGE_STAT_state == 3 then x else rebindRelease x))))

/-- A folio build that ends well publishes the counts, the capacities, the map, the partitions and the digest, takes the register and table values of the
image in their order, and then locks at once or, with lock_deferred, waits in UNLOCKED from now on (R45, R50, R463). One that fails falls back: of a
re-binding to slot A, of a recovery load to RECOVERY, of a slot to the next (R42, R51; the fallback is log entry 131). Outside a build nothing happens. -/
def Rules.FolioBuildEnds : Prop :=
  ∀ s : State, s.Running → (b : Bool) → b = (s.dev.bndIs .building || (s.dev.bndIs .rebinding && s.dev.bnd.rebuild)) →
    let img := s.dev.bnd.image
    let y := stepDone 6 (buildInit img ((colPart (buildPublish img s.dev.bnd.target s.dev)).withBnd
      (fun b => { b with kernels := imgKernels img, rebuild := false })))
    (b = false → ∀ ok, exec (.folioBuildDone ok) s = .next (s.settling s.dev)) ∧
    (b = true → imgFlags img % 2 = 0 → exec (.folioBuildDone true) s = .next (s.settling (bndLockNow (y.withBnd (fun b => { b with deferred := false, timeoutMs := 0 }))))) ∧
    (b = true → imgFlags img % 2 = 1 → ∃ d, exec (.folioBuildDone true) s = .next (s.settling d) ∧ d.bndIs .unlocked = true ∧ d.bnd.deferred = true ∧
      d.bnd.timeoutMs = imgTimeout img ∧ d.bnd.unlockedAt = d.time.elapsed ∧ y.SameBut (fun k => k = BND_STAT.key) { d with bnd := y.bnd }) ∧
    (b = true → s.dev.bndIs .rebinding = true → ∃ d, exec (.folioBuildDone false) s = .next (s.settling d) ∧ d.flag BND_STAT_fallback = true ∧
      d.bndIs .verifying = true ∧ d.bnd.loading = some 1) ∧
    (b = true → s.dev.bndIs .rebinding = false → s.dev.bnd.target = 1 → ∃ d, exec (.folioBuildDone false) s = .next (s.settling d) ∧
      d.flag BND_STAT_fallback = true ∧ d.bndIs .verifying = true ∧ d.bnd.loading = some 2) ∧
    (b = true → s.dev.bndIs .rebinding = false → s.dev.bnd.target ≠ 1 → exec (.folioBuildDone false) s = .next (s.settling (enterRecovery s.dev)))

/-- The lock of a Binding and the end of the build of its folios. -/
def Obligations.BindingLocksAndBuilds : Prop := Rules.LockOfTheBinding ∧ Rules.FolioBuildEnds

/-- The verification of a Binding, and the commands that ask for it. -/
def Obligations.BindingIsVerified : Prop := Rules.VerifyAndRebind ∧ Rules.VerificationDecides

/-! ## Hosts -/

/-- A link-down of an endpoint ends its DMA, a running descriptor with ABORTED, and returns its configuration space and its MSI-X table to reset with every vector masked and nothing pending (R419); its
identification stays as step 4 has read it. Its link comes up after start-up step 4 while its PHY runs (R415, R440, R444), and otherwise nothing happens. The other endpoint's link stays. -/
def Rules.LinksOfTheHosts : Prop :=
  ∀ (s : State) (e : Endpoint), s.Running →
    (∃ d, exec (.pcieLinkDown e) s = .next (s.leaving d) ∧ d.linkUp e = false ∧
      (∀ v < 32, ∀ w < 4, d.get (EVC_MSIX e v w) = if w = 3 then 1 else 0) ∧ (∀ w < 2, d.get (EVC_PBA e w) = 0) ∧
      (∀ c ∈ dmaOf e, d.flag (ACT_DMA_CTRL_busy c) = false) ∧ d.dmaRuns e = none ∧
      (∀ i ∈ dmaOf e, s.dev.dmaRuns e = some i → d.get (ACT_DMA_STAT_status i) = 4) ∧
      (∀ o : Endpoint, d.pcie o = if o = e then { vendor := (s.dev.pcie e).vendor, subVendor := (s.dev.pcie e).subVendor, subsystem := (s.dev.pcie e).subsystem }
        else s.dev.pcie o)) ∧
    (4 ≤ s.dev.get CKP_PWR_STAT_step → s.dev.phyRuns (5 + e.val) = true → ∃ d, exec (.pcieLinkUp e) s = .next (s.leaving d) ∧ d.linkUp e = true ∧
      (∀ o : Endpoint, o ≠ e → d.linkUp o = s.dev.linkUp o) ∧ d = { s.dev with host := { s.dev.host with linkUp := d.host.linkUp } }) ∧
    (s.dev.get CKP_PWR_STAT_step < 4 ∨ s.dev.phyRuns (5 + e.val) = false → exec (.pcieLinkUp e) s = .next (s.leaving s.dev))

/-- Writing enable = 1 to an idle DMA channel starts its chain at ACT_DMA_CHAIN, which runs at once where no other channel of the
endpoint does; a busy one keeps its chain (R420). Writing enable = 0 ends the
chain, and a descriptor that runs ends with ABORTED, status 4 (R421). -/
def Rules.DmaStartsAndAborts : Prop :=
  ∀ (s : State) (m : Master) (i : Fin 16), s.Running →
    (s.dev.WritesField m (0x30100 + 0x20 * i.val) 0 1 1 → ∃ d, exec (.dmaStart m i) s = .next (s.leaving d) ∧ d.flag (ACT_DMA_CTRL_enable i) = true ∧
      d.flag (ACT_DMA_CTRL_busy i) = true ∧
      lookup i.val d.host.dma = (if s.dev.flag (ACT_DMA_CTRL_busy i) then lookup i.val s.dev.host.dma
        else some (s.dev.get2 (ACT_DMA_CHAIN_LO i) (ACT_DMA_CHAIN_HI i) % 2 ^ 57)) ∧
      d.dmaRuns (i.val / 8) = (if s.dev.flag (ACT_DMA_CTRL_busy i) then s.dev.dmaRuns (i.val / 8) else some ((s.dev.dmaRuns (i.val / 8)).getD i.val))) ∧
    (s.dev.WritesField m (0x30100 + 0x20 * i.val) 0 1 0 → ∃ d, exec (.dmaAbort m i) s = .next (s.leaving d) ∧ d.flag (ACT_DMA_CTRL_enable i) = false ∧
      d.flag (ACT_DMA_CTRL_busy i) = false ∧
      (s.dev.flag (ACT_DMA_CTRL_busy i) = true → lookup i.val d.host.dma = none ∧
        (s.dev.dmaRuns (i.val / 8) = some i.val → d.get (ACT_DMA_STAT_status i) = 4 ∧ d.dmaRuns (i.val / 8) = d.dmaAfter (i.val / 8) i) ∧
        (s.dev.dmaRuns (i.val / 8) ≠ some i.val → d.dmaRuns (i.val / 8) = s.dev.dmaRuns (i.val / 8))))

/-- The descriptor that runs on an endpoint ends (R420, R421): with FIELD (1) in a form that is none; with DENIED (3) where the partition's table
denies the host; and with OK (0) where it lies inside its partition and the table grants it, its bytes copied. It is counted, and the chain goes on at
the next descriptor after OK and else stops; the turn passes to the next busy channel in ascending order. With the link down it ends with ABORTED (R419); with no
channel that runs nothing happens. -/
def Rules.DmaDescriptorsEnd : Prop :=
  ∀ (s : State) (e : Endpoint), s.Running → (s.dev.dmaRuns e = none → exec (.dmaDescriptorDone e) s = .next (s.leaving s.dev)) ∧
    (∀ i ∈ dmaOf e, s.dev.linkUp e = false → s.dev.dmaRuns e = some i → ∃ d, exec (.dmaDescriptorDone e) s = .next (s.leaving d) ∧
      d.get (ACT_DMA_STAT_status i) = 4 ∧ d.flag (ACT_DMA_CTRL_busy i) = false ∧ lookup i d.host.dma = none ∧ d.dram = s.dev.dram) ∧
    ∀ i ∈ dmaOf e, s.dev.linkUp e = true → s.dev.dmaRuns e = some i → s.dev.flag (ACT_DMA_CTRL_busy i) = true →
    let at_ := (lookup i s.dev.host.dma).getD 0
    let b := memReadN (s.dev.hostMem e) at_ 32
    ∃ d, exec (.dmaDescriptorDone e) s = .next (s.leaving d) ∧ d.dmaRuns e = d.dmaAfter e i ∧ d.get (ACT_DMA_STAT_done i) = (s.dev.get (ACT_DMA_STAT_done i) + 1) % 2 ^ 16 ∧
      (d.get (ACT_DMA_STAT_status i) = 0 → leAt b 0x18 8 ≠ 0 → d.flag (ACT_DMA_CTRL_busy i) = true ∧
        lookup i d.host.dma = some (leAt b 0x18 8 % 2 ^ 57)) ∧
      (d.get (ACT_DMA_STAT_status i) ≠ 0 ∨ leAt b 0x18 8 = 0 → d.flag (ACT_DMA_CTRL_busy i) = false ∧ lookup i d.host.dma = none) ∧
      (dmaForm e b = none → d.get (ACT_DMA_STAT_status i) = 1 ∧ d.dram = s.dev.dram) ∧
      (∀ toDram a p o, dmaForm e b = some (toDram, a, p, o) → (p ≠ 0 ∨ (toDram = false ∧ mib ≤ o)) → o < (s.dev.part p).2 →
        (s.dev.granted (if toDram then .write else .read) (96 + p) e = false → d.get (ACT_DMA_STAT_status i) = 3 ∧ d.dram = s.dev.dram) ∧
        (s.dev.granted (if toDram then .write else .read) (96 + p) e = true → o + leAt b 0x10 4 ≤ (s.dev.part p).2 →
          d.get (ACT_DMA_STAT_status i) = 0 ∧
          (toDram = true → d.dram = (s.dev.dramWrite ((s.dev.part p).1 + o) (memReadN (s.dev.hostMem e) a (leAt b 0x10 4))).dram) ∧
          (toDram = false → d.dram = s.dev.dram)))

/-- An SPI request is a header, for WRITE a data word, and the CRC-8 over both. A request that is cut is discarded; one with a wrong CRC is counted in
crc_err and only answered; one with a wrong operation or address form is only answered; a READ and a WRITE act as master MG, and the response is 0xA5,
the status, the data word and the CRC-8 (R422, R423). A READ whose response is cut keeps its action and is counted in cut (R424). -/
def Obligations.SpiTransactions : Prop :=
  ∀ (s : State) (mosi : List Byte), s.Running →
    let n := spiLen mosi
    let req := slice mosi 0 n
    let hdr := beAt req 0 4
    let op := bits hdr 28 4
    let a := bits hdr 0 25
    let sp : BusSpace := if bitAt hdr 27 then .bar4 else .bar0
    let form := (op == 1 || op == 2) && bits hdr 25 2 == 0 && a % 4 == 0
    let answers (d e : Dev) (status data : Nat) : Prop :=
      let body := toBe 1 (status + b2n d.mgIrq * 8) ++ toBe 4 data
      e = { d with host := { d.host with miso := 0xA5 :: body ++ toBe 1 (crc8 body) } }
    let acts (e : Dev) : Prop :=
      (crc8 req ≠ byteAt mosi n → ∃ d, answers d e 1 0 ∧ d = s.dev.inc ACT_MG_STAT_crc_err) ∧
      (crc8 req = byteAt mosi n → form = false → answers s.dev e 4 0) ∧
      (crc8 req = byteAt mosi n → form = true → op = 1 → ∃ d r, d = busRead 2 sp a false s.dev ∧ r = (lookup 2 d.host.reads).getD {} ∧
        answers d e (b2n r.violation * 2 + b2n r.poison * 16) r.data) ∧
      (crc8 req = byteAt mosi n → form = true → op = 2 → ∃ v : Bool,
        (v = true ↔ ∃ k, (if sp = .bar0 then s.dev.writeVerdict 2 a (beAt req 4 4) true else s.dev.queueVerdict 2 a true true) = .deny k) ∧
        answers (busWrite {} 2 sp a (beAt req 4 4) true s.dev) e (2 * b2n v) 0)
    (byteAt mosi 0 / 16 ≠ 2 → n < mosi.length → ∃ e, exec (.spiRead mosi) s = .next (s.settling e) ∧ acts e) ∧
    (byteAt mosi 0 / 16 = 2 → n < mosi.length → ∃ e, exec (.spiWrite mosi) s = .next (s.settling e) ∧ acts e) ∧
    (mosi.length ≤ n → exec (.spiRead mosi) s = .next (s.settling s.dev) ∧ exec (.spiWrite mosi) s = .next (s.settling s.dev)) ∧
    (∀ after, after = false ∨ mosi.length ≤ n →
      exec (.spiCsEarlyRise mosi after) s = .next (s.settling { s.dev with host := { s.dev.host with miso := [] } })) ∧
    (n < mosi.length → ∃ e, acts e ∧ ∃ f, exec (.spiCsEarlyRise mosi true) s = .next (s.settling f) ∧ f.host.miso = [] ∧
      f.get ACT_MG_STAT_cut = (if byteAt mosi 0 / 16 = 1 then min (e.get ACT_MG_STAT_cut + 1) 65535 else e.get ACT_MG_STAT_cut))

/-- An access through BAR2 goes to the host's aperture (R418): outside every partition, in the first MiB of partition 0 and beyond the installed capacity a
read gives zero and a write is discarded; in a partition that its table grants it reads or writes the bytes inside the partition, and else it is a
violation whose read gives zero, with Completer Abort in the error status of AER (R430). What comes over a link that is down does not arrive (R419). -/
def Rules.ApertureAccesses : Prop :=
  ∀ (s : State) (e : Endpoint) (off : Nat), s.Running →
    let a := s.dev.apertureAddr e off
    (s.dev.arrives e = false → ∀ acc, exec (.bar2Access e off acc) s = .next (s.leaving (if s.dev.xingDead (5 + e) then xdrop s.dev else s.dev))) ∧
    (∀ d : Dev, bitAt ((aerAbort e d).pcie e).aerStatus 15 = true ∧ ∀ o : Endpoint, o ≠ e → (aerAbort e d).pcie o = d.pcie o) ∧
    (s.dev.arrives e = true → s.dev.apertureHit a = none → (∀ n, exec (.bar2Access e off (.read n)) s = .next (s.leaving (s.dev.answer e {}))) ∧
      ∀ bs, exec (.bar2Access e off (.write bs)) s = .next (s.leaving s.dev)) ∧
    (∀ p, s.dev.arrives e = true → s.dev.apertureHit a = some p →
      (∀ n, if s.dev.granted .read (96 + p) e
        then exec (.bar2Access e off (.read n)) s = .next (s.leaving (s.dev.answer e { data := ofLe (s.dev.dramRead a (s.dev.partRoom p (a - (s.dev.part p).1) n)) }))
        else exec (.bar2Access e off (.read n)) s = .next (s.leaving ((aerAbort e (violation .read e (96 + p) (a % 2 ^ 32) s.dev)).answer e { violation := true }))) ∧
      ∀ bs, if s.dev.granted .write (96 + p) e
        then exec (.bar2Access e off (.write bs)) s = .next (s.leaving (s.dev.dramWrite a (bs.take (s.dev.partRoom p (a - (s.dev.part p).1) bs.length))))
        else exec (.bar2Access e off (.write bs)) s = .next (s.leaving (violation .write e (96 + p) (a % 2 ^ 32) s.dev)))

/-- Links that rise and fall, and accesses through BAR2. -/
def Obligations.HostLinksAndApertures : Prop := Rules.LinksOfTheHosts ∧ Rules.ApertureAccesses

/-- The DMA channels of the hosts. -/
def Obligations.DmaRunsItsChains : Prop := Rules.DmaStartsAndAborts ∧ Rules.DmaDescriptorsEnd

/-! ## Time -/

/-- A read of TBS_TIME_FRAC or TBS_NOW_LO answers from the whole counter and captures it for the reading master (R54). SET and ADJ are refused
in ENGINE mode and while a step waits, SET also with 10⁹ ns or more; else the step waits for the next tick (R55). set_state acts outside ENGINE mode and
INVALID alone (R63). A change of ptp_mode to ENGINE loads the integral from the current increment (R62); a write of INCR_HI applies the pair, but not in
ENGINE mode (R62). -/
def Rules.CounterCommands : Prop :=
  ∀ (s : State) (m : Master), s.Running →
    (∀ b : Bool,
      let off := if b then 0x40018 else 0x40008
      s.dev.readVerdict m off = .pass → exec (.timeCaptureRead m b) s = .next (s.leaving (({ s.dev with time := { s.dev.time with shadows := insertKey m.val s.dev.time.clock s.dev.time.shadows } } : Dev).answer m
          { data := captureValue s.dev.time.clock off }))) ∧
    (s.dev.WritesField m 0x40000 0 2 1 → exec (.timeSet m) s = .next (s.settling (if s.dev.get TBS_CTRL_ptp_mode = 1 ∨ 1000000000 ≤ s.dev.get TBS_SET_NS ∨ s.dev.time.pending.isSome then
        s.dev.setFlag TBS_STATE_cmd_refused true
      else { s.dev with time := { s.dev.time with
        pending := some (.set (s.dev.get TBS_SET_SEC_LO + 2 ^ 32 * s.dev.get TBS_SET_SEC_HI_value) (s.dev.get TBS_SET_NS)) } }))) ∧
    (s.dev.WritesField m 0x40000 0 2 2 → exec (.timeAdj m) s = .next (s.settling (if s.dev.get TBS_CTRL_ptp_mode = 1 ∨ s.dev.time.pending.isSome then s.dev.setFlag TBS_STATE_cmd_refused true
      else { s.dev with time := { s.dev.time with pending := some (.adj (toInt 32 (s.dev.get TBS_ADJ) * 65536)) } }))) ∧
    (∀ st : Fin 4, s.dev.WritesField m 0x40000 2 2 st.val →
      (st.val = 0 ∨ s.dev.get TBS_CTRL_ptp_mode = 1 ∨ s.dev.timeState = 0 → exec (.timeSetState m st) s = .next (s.settling s.dev)) ∧
      (st.val ≠ 0 → s.dev.get TBS_CTRL_ptp_mode ≠ 1 → s.dev.timeState ≠ 0 → ∃ d, exec (.timeSetState m st) s = .next (s.settling d) ∧
        d.timeState = st.val ∧ d.time.clock = s.dev.time.clock ∧ d.time.incr = s.dev.time.incr)) ∧
    (∀ mode : Fin 4, s.dev.WritesField m 0x40000 8 2 mode.val →
      (mode.val = 3 ∨ mode.val = s.dev.get TBS_CTRL_ptp_mode → exec (.ptpModeChange m mode) s = .next (s.settling s.dev)) ∧
      (mode.val < 3 → mode.val ≠ s.dev.get TBS_CTRL_ptp_mode → ∃ d, exec (.ptpModeChange m mode) s = .next (s.settling d) ∧
        d.get TBS_CTRL_ptp_mode = mode.val ∧ d.timeState = s.dev.timeState ∧
        d.time.integ = (if mode.val = 1 then -s.dev.currentFreq else s.dev.time.integ))) ∧
    (∀ v : BitVec 32, s.dev.Writes m 0x40034 v.toNat → if s.dev.get TBS_CTRL_ptp_mode = 1 then exec (.incrWrite m v) s = .next (s.settling s.dev)
      else ∃ d, exec (.incrWrite m v) s = .next (s.settling d) ∧ d.time.incr = s.dev.get TBS_INCR_LO + 2 ^ 32 * (v.toNat % 256) ∧
        d.get TBS_INCR_HI_value = v.toNat % 256)

/-- A step that waits takes effect at a tick of TBC (R55, R56), once what was stamped before it is finished: SET loads the seconds and nanoseconds and clears the fraction, ADJ is added
to the counter after its tick; then the parts of the device that follow a step do, in this order. Without a step, or without ticks, nothing happens.
In COAST the tick's increment is rounded down (log entry 166). -/
def Rules.CounterStepTakesEffect : Prop :=
  ∀ s : State, s.Running →
    (s.dev.time.pending = none ∨ s.dev.tbcRuns = false → exec .counterStep s = .next (s.settling s.dev)) ∧
    (s.dev.time.pending.isSome = true → s.dev.tbcRuns = true →
      let w := finishEvery s.dev
      (s.dev.eth.streamIn = [] → s.dev.eth.svIn = [] → s.dev.flt.queue = [] → s.dev.col.inbox = [] → w = s.dev) ∧
      ∀ c, w.time.pending = some c → w.tbcRuns = true → ∃ x,
      x.time.pending = none ∧
      x.time.clock = (match c with
        | .set sec ns => (sec * 1000000000 + ns) * 2 ^ 32 % (2 ^ 48 * 1000000000 * 2 ^ 32)
        | .adj δ => ((((w.time.clock + w.tickStep) % (2 ^ 48 * 1000000000 * 2 ^ 32) : Nat) : Int) + δ * 65536).toNat % (2 ^ 48 * 1000000000 * 2 ^ 32)) ∧
      x.time.elapsed = w.time.elapsed + w.tickElapsed ∧
      exec .counterStep s = .next (s.settling (enrEval true (acqAfterStep (schAfterStep (filterAfterStep (colRun (colAfterStep w.now) (ckoAfterStep w (streamsAfterStep x)))))))))

/-- The peer delay (R58, R60): the engine sends its own Pdelay_Req, one interval after the last one, with the next sequence number, answers a request with a Pdelay_Resp that carries the
receive stamp, keeps what the matching response gives, and at its follow-up takes the sample ((t4 - t1) - (t3 - t2) - c) / 2: a negative one is
dropped and counted, the first loads the mean and later ones move it by 2^-delay_k of the difference. A malformed message is dropped and counted, and
one on a port where the engine does not run is discarded. -/
def Rules.PeerDelayExchange : Prop :=
  ∀ s : State, s.Running →
    (∀ p : Port,
      let due := s.dev.pdelayDue p
      let y := passElapsed due s.dev
      (s.dev.ptpRuns p = false → exec (.pdelayReqSend p) s = .next (s.settling s.dev)) ∧
      (s.dev.ptpRuns p = true → y.time.elapsed < due → exec (.pdelayReqSend p) s = .next (s.settling y)) ∧
      (s.dev.ptpRuns p = true → due ≤ y.time.elapsed → ∃ x : Dev, (x.pdelay p).seq = ((s.dev.pdelay p).seq + 1) % 65536 ∧ (x.pdelay p).t1 = none ∧
        (x.pdelay p).last = some y.time.elapsed ∧ x = { y with time := { y.time with pdelay := x.time.pdelay } } ∧ exec (.pdelayReqSend p) s = .next (s.settling (ptpSend p (x.ptpHeader p 2 54 0 0 (s.dev.pdelay p).seq (x.logPdelay) ++ List.replicate 20 0) x)))) ∧
    (∀ c ty n, (c, ty, n) ∈ [(Instr.pdelayReqRx, 2, 54), (Instr.pdelayRespRx, 3, 54), (Instr.pdelayRespFollowUpRx, 10, 54),
        (Instr.syncRx, 0, 44), (Instr.followUpRx, 8, 44)] →
      (ptpTake ty s.dev = none → exec c s = .next (s.settling s.dev)) ∧
      (∀ m x, ptpTake ty s.dev = some (m, x) → (x.ptpRuns m.port = false → exec c s = .next (s.settling x)) ∧
        (x.ptpRuns m.port = true → x.ptpGood n m.payload = false → exec c s = .next (s.settling (x.inc TBS_PTP_DROP))))) ∧
    (∀ m x, ptpTake 2 s.dev = some (m, x) → x.ptpRuns m.port = true → x.ptpGood 54 m.payload = true → exec .pdelayReqRx s = .next (s.settling (ptpSend m.port (x.ptpHeader m.port 3 54 0x0200 (-(m.stamp % 65536)) (ptpSeq m.payload) 0x7F ++ stampBytes (natOf (m.stamp / 65536)) ++
        slice m.payload 20 10) (x.noteAnswer m.port m.payload)))) ∧
    (∀ m x, ptpTake 3 s.dev = some (m, x) → x.ptpRuns m.port = true → x.ptpGood 54 m.payload = true →
      let own := (ptpSeq m.payload + 1) % 65536 = (x.pdelay m.port).seq ∧ slice m.payload 44 8 = x.clockIdentity ∧ beAt m.payload 52 2 = m.port + 1
      (own → ∃ d, exec .pdelayRespRx s = .next (s.settling d) ∧ (d.pdelay m.port).t4 = some m.stamp ∧ (d.pdelay m.port).t2 = ptpStamp m.payload 34 ∧
        (d.pdelay m.port).corr = ptpCorr m.payload ∧ (d.pdelay m.port).t1 = (x.pdelay m.port).t1) ∧ (¬own → exec .pdelayRespRx s = .next (s.settling x))) ∧
    (∀ m x t1 t4, ptpTake 10 s.dev = some (m, x) → x.ptpRuns m.port = true → x.ptpGood 54 m.payload = true →
      (x.pdelay m.port).t1 = some t1 → (x.pdelay m.port).t4 = some t4 → (ptpSeq m.payload + 1) % 65536 = (x.pdelay m.port).seq →
      let twice := (t4 - t1) - (ptpStamp m.payload 34 - (x.pdelay m.port).t2) - ((x.pdelay m.port).corr + ptpCorr m.payload)
      let v := divHalfEven twice 2
      ∃ d, exec .pdelayRespFollowUpRx s = .next (s.settling d) ∧ (d.pdelay m.port).t1 = none ∧ (d.pdelay m.port).t4 = none ∧
        (twice < 0 → d.get TBS_PTP_DROP = (x.inc TBS_PTP_DROP).get TBS_PTP_DROP ∧ d.meanDelay m.port = x.meanDelay m.port) ∧
        (0 ≤ twice → x.time.delayValid.contains m.port = false → d.meanDelay m.port = v) ∧
        (0 ≤ twice → x.time.delayValid.contains m.port = true →
          d.meanDelay m.port = x.meanDelay m.port + divHalfEven (v - x.meanDelay m.port) (2 ^ x.get TBS_PTP_CFG_delay_k)))

/-- An Announce message is kept for its sender and port; a sender that announced within four of its intervals is qualified, and the best qualified
one is selected (R59). announce_timeout intervals without an Announce, or without a Sync that the servo accepts, remove the selected master, and the best
of the others is selected; those whose Announces stopped as long ago are not kept (the model's choice, log entry 163). -/
def Rules.MastersAreSelected : Prop :=
  ∀ s : State, s.Running →
    (ptpTake 11 s.dev = none → ∃ d, exec .announceRx s = .next (s.settling d) ∧ d = enrEval false s.dev) ∧
    (∀ m x, ptpTake 11 s.dev = some (m, x) → x.ptpRuns m.port = true → x.ptpGood 64 m.payload = true → ∃ d f,
      exec .announceRx s = .next (s.settling (enrEval false d)) ∧ d.time.foreign.head? = some f ∧ f.port = m.port ∧ f.clockId = beAt m.payload 20 8 ∧
      f.portNumber = beAt m.payload 28 2 ∧ f.seen.head? = some (natOf (m.stamp / 65536)) ∧
      (∀ g ∈ x.time.foreign, (g.port = f.port ∧ g.clockId = f.clockId ∧ g.portNumber = f.portNumber) ∨ g ∈ d.time.foreign ∨
        { g with lastSync := x.now } ∈ d.time.foreign) ∧
      (f.qualified = true ↔ ∃ g ∈ x.time.foreign, x.time.foreign.find? (fun h => h.port = f.port && h.clockId = f.clockId && h.portNumber = f.portNumber) = some g ∧
        (g.qualified = true ∨ ∃ t ∈ g.seen, natOf (m.stamp / 65536) < t + 4 * ptpInterval m.payload)) ∧
      d.time.selected = d.bestMaster.map (fun g => { port := g.port, clockId := g.clockId, portNumber := g.portNumber })) ∧
    (s.dev.selectedForeign = none → exec .masterLost s = .next (s.settling s.dev)) ∧
    (∀ f, s.dev.selectedForeign = some f →
      let n := s.dev.get TBS_PTP_CFG_announce_timeout * f.interval
      let due := min (f.seen.headD 0 + n) (f.lastSync + n)
      let x := passTo due s.dev
      (x.now < due → exec .masterLost s = .next (s.settling x)) ∧
      (due ≤ x.now → ∃ d, exec .masterLost s = .next (s.settling d) ∧
        (∀ g ∈ d.time.foreign, ¬(g.port = f.port ∧ g.clockId = f.clockId ∧ g.portNumber = f.portNumber) ∧
          x.now < g.seen.headD 0 + s.dev.get TBS_PTP_CFG_announce_timeout * g.interval) ∧
        (∀ g ∈ s.dev.time.foreign, ¬(g.port = f.port ∧ g.clockId = f.clockId ∧ g.portNumber = f.portNumber) →
          x.now < g.seen.headD 0 + s.dev.get TBS_PTP_CFG_announce_timeout * g.interval →
          g ∈ d.time.foreign ∨ { g with lastSync := x.now } ∈ d.time.foreign) ∧
        d.time.selected = d.bestMaster.map (fun g => { port := g.port, clockId := g.clockId, portNumber := g.portNumber })))

/-- A two-step Sync of the selected master waits for its Follow_Up; the origin time then gives the offset t2 - t1 - c - delay (R61). Outside ENGINE
mode, and in COAST, nothing is steered. The first update and an offset of step_ns or more step the counter by -offset at the next tick; any other moves the
integral and the frequency, both clamped (R61). A message of another sender is dropped and counted; that a Follow_Up with another sequence number or of another port is
counted in TBS_PTP_DROP too is the model's choice (log entry 205). -/
def Rules.ServoRunsOnSync : Prop :=
  ∀ s : State, s.Running →
    let runs (c : Instr) (p : Nat) (t1 t2 corr : Int) (x : Dev) : Prop := ∃ d, exec c s = .next (s.settling d) ∧ d.time.waitSync = none ∧
      let o := t2 - t1 - corr - x.meanDelay p
      d.time.offset = o ∧
      (x.get TBS_CTRL_ptp_mode ≠ 1 ∨ x.coast = true → d.time.pending = x.time.pending ∧ d.time.integ = x.time.integ ∧ d.time.incr = x.time.incr) ∧
      (x.get TBS_CTRL_ptp_mode = 1 → x.coast = false → x.time.firstUpdate = true ∨ x.get TBS_SERVO_LIM_step_ns * 65536 ≤ o.natAbs →
        d.time.pending = some (.adj (-o)) ∧ d.time.incr = x.time.incr ∧ d.time.firstUpdate = false) ∧
      (x.get TBS_CTRL_ptp_mode = 1 → x.coast = false → x.time.firstUpdate = false → o.natAbs < x.get TBS_SERVO_LIM_step_ns * 65536 →
        let lim : Int := x.get TBS_SERVO_LIM_clamp_ppm * 16000
        let integ := clampI (-lim) lim (x.time.integ + divHalfEven ((x.get TBS_SERVO_CFG_ki : Int) * o) (2 ^ 24))
        d.time.pending = x.time.pending ∧ d.time.integ = integ ∧
        d.time.freq = clampI (-lim) lim (-(divHalfEven ((x.get TBS_SERVO_CFG_kp : Int) * o) (2 ^ 20)) - integ))
    (∀ m x, ptpTake 0 s.dev = some (m, x) → x.ptpRuns m.port = true → x.ptpGood 44 m.payload = true →
      (x.fromSelected m = false → exec .syncRx s = .next (s.settling (x.inc TBS_PTP_DROP))) ∧
      (x.fromSelected m = true → bitAt (byteAt m.payload 6) 1 = true → exec .syncRx s = .next (s.settling { x with time := { x.time with waitSync := some ⟨m.port, ptpSeq m.payload, m.stamp, ptpCorr m.payload⟩ } })) ∧
      (x.fromSelected m = true → bitAt (byteAt m.payload 6) 1 = false →
        runs .syncRx m.port (ptpStamp m.payload 34) m.stamp (ptpCorr m.payload) x)) ∧
    (∀ m x, ptpTake 8 s.dev = some (m, x) → x.ptpRuns m.port = true → x.ptpGood 44 m.payload = true →
      (x.fromSelected m = false → exec .followUpRx s = .next (s.settling (x.inc TBS_PTP_DROP))) ∧
      (x.fromSelected m = true → x.time.waitSync = none → exec .followUpRx s = .next (s.settling x)) ∧
      (∀ w, x.fromSelected m = true → x.time.waitSync = some w →
        (w.port ≠ m.port ∨ w.seq ≠ ptpSeq m.payload → exec .followUpRx s = .next (s.settling (x.inc TBS_PTP_DROP))) ∧
        (w.port = m.port → w.seq = ptpSeq m.payload →
          runs .followUpRx m.port (ptpStamp m.payload 34) w.stamp (w.corr + ptpCorr m.payload) x)))

/-- In ENGINE mode HOLDOVER becomes FREERUN after holdover_s of elapsed time (R63), and each elapsed second publishes the estimate and the seconds since
LOCKED (R64). A write of TBS_UTC with src = 1 sets the offset and the leap, 3 leaving the leap; with src = 0 it sets src alone (R66). A pending
leap is applied at its midnight: the offset changes by one, leap clears, and leap_occurred stands for 86,400 s (R67). -/
def Rules.HoldoverAndLeapSeconds : Prop :=
  ∀ s : State, s.Running →
    (let due := s.dev.time.holdFrom + s.dev.get TBS_LOCK_CFG_holdover_s * 4000000000
      let x := passElapsed due s.dev
      (s.dev.timeState ≠ 2 ∨ s.dev.get TBS_CTRL_ptp_mode ≠ 1 → exec .holdoverTimeout s = .next (s.settling s.dev)) ∧
      (s.dev.timeState = 2 → s.dev.get TBS_CTRL_ptp_mode = 1 → x.time.elapsed < due → exec .holdoverTimeout s = .next (s.settling x)) ∧
      (s.dev.timeState = 2 → s.dev.get TBS_CTRL_ptp_mode = 1 → due ≤ x.time.elapsed → ∃ d, exec .holdoverTimeout s = .next (s.settling d) ∧ d.timeState = 1)) ∧
    (∀ b : Bool,
      let mark := if b then some s.dev.time.holdFrom else s.dev.time.lockedLeft
      (mark = none ∨ s.dev.timeState = 3 ∨ (b = true ∧ s.dev.timeState ≠ 2) → exec (.holdoverSecond b) s = .next (s.settling s.dev)) ∧
      (∀ t, mark = some t → s.dev.timeState ≠ 3 → (b = true → s.dev.timeState = 2) →
        let x := passElapsed (t + (s.dev.elapsedSince t + 1) * 4000000000) s.dev
        ∃ d, exec (.holdoverSecond b) s = .next (s.settling d) ∧ d.get TBS_TQ_since_locked = x.sinceLocked % 65536 ∧ d.get TBS_HOLD_EST = x.holdEst % 2 ^ 32 ∧
          d.time = x.time)) ∧
    (∀ (m : Master) (v : BitVec 32), s.dev.Writes m 0x40070 v.toNat → ∃ d, exec (.utcWrite m v) s = .next (s.settling d) ∧
      d.flag TBS_UTC_src = bitAt v.toNat 20 ∧
      (bitAt v.toNat 20 = false → d.get TBS_UTC_utc_offset = s.dev.get TBS_UTC_utc_offset ∧ d.get TBS_UTC_leap = s.dev.get TBS_UTC_leap) ∧
      (bitAt v.toNat 20 = true → d.get TBS_UTC_utc_offset = v.toNat % 65536 ∧ d.flag TBS_UTC_valid = true ∧
        d.get TBS_UTC_leap = if v.toNat / 65536 % 4 = 3 then s.dev.get TBS_UTC_leap else v.toNat / 65536 % 4)) ∧
    (let x := passTo s.dev.leapDue s.dev
     (s.dev.get TBS_UTC_leap = 0 → exec .leapApply s = .next (s.settling (enrEval false (ivCatchUp s.dev)))) ∧
      (s.dev.get TBS_UTC_leap ≠ 0 → x.now < s.dev.leapDue → exec .leapApply s = .next (s.settling (enrEval false (ivCatchUp x)))) ∧
      (s.dev.get TBS_UTC_leap ≠ 0 → s.dev.leapDue ≤ x.now → ∃ d, exec .leapApply s = .next (s.settling (enrEval false (ivCatchUp d))) ∧ d.get TBS_UTC_leap = 0 ∧
        d.flag TBS_UTC_leap_occurred = true ∧ d.time.leapAt = some x.now ∧
        d.get TBS_UTC_utc_offset = ofInt 16 (toInt 16 (s.dev.get TBS_UTC_utc_offset) + if s.dev.get TBS_UTC_leap = 1 then 1 else -1))) ∧
    (s.dev.time.leapAt = none → exec .leapOccurredExpire s = .next (s.settling s.dev)) ∧
    (∀ t, s.dev.time.leapAt = some t →
      let x := passTo (t + 86400000000000) s.dev
      (x.now < t + 86400000000000 → exec .leapOccurredExpire s = .next (s.settling x)) ∧
      (t + 86400000000000 ≤ x.now → ∃ d, exec .leapOccurredExpire s = .next (s.settling d) ∧ d.flag TBS_UTC_leap_occurred = false ∧ d.time.leapAt = none))

/-- A read of TBS_Pn_TXQ_ID removes the oldest stamp of the port and captures its seconds and nanoseconds for the reading master; of an empty queue
it changes nothing (R70). A time-trigger output that is enabled while OFF with a period and width in range is ON from its first instant on, and with others
stays OFF with cfg_err (R72), and a one-shot whose start has passed is missed and stays OFF (R73); disabled, it is OFF at once with the pulse inactive and else DISABLING (R74). -/
def Rules.StampsAndTriggerEnables : Prop :=
  ∀ (s : State) (m : Master), s.Running →
    (∀ p : Port, s.dev.readVerdict m (0x40110 + 0x20 * p.val) = .pass →
      (s.dev.txq p = [] → exec (.txqPop m p) s = .next (s.leaving (s.dev.answer m { data := 0 }))) ∧
      (∀ t q, s.dev.txq p = t :: q → ∃ d : Dev, exec (.txqPop m p) s = .next (s.leaving (d.answer m { data := t.id })) ∧ d.txq p = q ∧
        d.get (TBS_P_TXQ_NS m p) = t.stamp % 1000000000 ∧ d.get (TBS_P_TXQ_SEC_LO m p) = t.stamp / 1000000000 % 2 ^ 32)) ∧
    (∀ n : Fin 8, s.dev.WritesField m (0x40200 + 0x20 * n.val) 0 1 1 →
      let p := s.dev.get (TBS_TTO_PERIOD n)
      let w := s.dev.get (TBS_TTO_WIDTH n)
      let good := if p = 0 then 4 ≤ w else 100 ≤ p ∧ 4 ≤ w ∧ w + 4 ≤ p
      (s.dev.get (TBS_TTO_STAT_state n) = 0 → ¬good → ∃ d, exec (.ttoEnable m n) s = .next (s.settling d) ∧ d.flag (TBS_TTO_STAT_cfg_err n) = true ∧
        d.flag (TBS_TTO_CTRL_enable n) = false ∧ d.get (TBS_TTO_STAT_state n) = 0) ∧
      (s.dev.get (TBS_TTO_STAT_state n) = 0 → good → (p = 0 → s.dev.now ≤ s.dev.ttoStart n) → ∃ d, exec (.ttoEnable m n) s = .next (s.settling d) ∧
        d.get (TBS_TTO_STAT_state n) = 1 ∧ d.flag (TBS_TTO_CTRL_enable n) = true ∧ lookup n.val d.time.ttoNext = s.dev.ttoFrom n s.dev.now) ∧
      (s.dev.get (TBS_TTO_STAT_state n) = 0 → good → p = 0 → s.dev.ttoStart n < s.dev.now → ∃ d, exec (.ttoEnable m n) s = .next (s.settling d) ∧
        d.get (TBS_TTO_STAT_state n) = 0 ∧ d.flag (TBS_TTO_CTRL_enable n) = false ∧
        d.get (TBS_TTO_STAT_miss_count n) = min (s.dev.get (TBS_TTO_STAT_miss_count n) + 1) 65535) ∧
      (s.dev.get (TBS_TTO_STAT_state n) = 1 → ∃ d, exec (.ttoEnable m n) s = .next (s.settling d) ∧ d.get (TBS_TTO_STAT_state n) = 1 ∧
        d.time.ttoNext = s.dev.time.ttoNext) ∧
      (s.dev.get (TBS_TTO_STAT_state n) = 2 → ∃ d, exec (.ttoEnable m n) s = .next (s.settling d) ∧ d.get (TBS_TTO_STAT_state n) = 2 ∧
        d.flag (TBS_TTO_STAT_enable_pending n) = true)) ∧
    (∀ n : Fin 8, s.dev.WritesField m (0x40200 + 0x20 * n.val) 0 1 0 → ∃ d, exec (.ttoDisable m n) s = .next (s.settling d) ∧
      d.flag (TBS_TTO_CTRL_enable n) = false ∧ d.flag (TBS_TTO_STAT_enable_pending n) = false ∧
      d.get (TBS_TTO_STAT_state n) = (if s.dev.get (TBS_TTO_STAT_state n) = 1 then if s.dev.ttoActive n then 2 else 0
        else s.dev.get (TBS_TTO_STAT_state n)) ∧
      (s.dev.get (TBS_TTO_STAT_state n) = 1 → lookup n.val d.time.ttoNext = none))

/-- A programmed instant is emitted at the instant rounded up to 4 ns, with the next one a period later; gated in INVALID or FREERUN, or once its tick
has passed, it is counted as missed and never emitted late (R72, R73; log entry 167). The width ends in the trailing edge: a DISABLING output is OFF and acts on a waiting enable, and a one-shot is OFF (R74). A DIN edge is
confirmed by filt_us + 1 samples at the new level: level, uncertainty and the time of the sample are shown, and the logic engine sees the edge (R75). -/
def Rules.TriggersAndInputs : Prop :=
  ∀ (s : State), s.Running →
    (∀ n : Fin 8, lookup n.val s.dev.time.ttoNext = none → exec (.ttoInstant n) s = .next (s.settling s.dev)) ∧
    (∀ (n : Fin 8) (t : Nat), lookup n.val s.dev.time.ttoNext = some t →
      let x := passTo ((t + 3) / 4 * 4) s.dev
      let gated := (s.dev.flag (TBS_TTO_CTRL_gate n) = true ∧ s.dev.timeState ≤ 1) ∨ (t + 3) / 4 * 4 * 2 ^ 32 + x.tickStep ≤ x.time.clock
      (x.now < (t + 3) / 4 * 4 → exec (.ttoInstant n) s = .next (s.settling x)) ∧
      ((t + 3) / 4 * 4 ≤ x.now → ∃ d, exec (.ttoInstant n) s = .next (s.settling d) ∧
        lookup n.val d.time.ttoNext = (if s.dev.get (TBS_TTO_PERIOD n) = 0 then none else some (t + s.dev.get (TBS_TTO_PERIOD n))) ∧
        (gated → d.time.ttoPulse = s.dev.time.ttoPulse ∧
          d.get (TBS_TTO_STAT_miss_count n) = min (s.dev.get (TBS_TTO_STAT_miss_count n) + 1) 65535) ∧
        (¬gated → lookup n.val d.time.ttoPulse = some (x.time.elapsed + 4 * s.dev.get (TBS_TTO_WIDTH n))))) ∧
    (∀ n : Fin 8, lookup n.val s.dev.time.ttoPulse = none → exec (.ttoTrailingEdge n) s = .next (s.settling s.dev)) ∧
    (∀ (n : Fin 8) (e : Nat), lookup n.val s.dev.time.ttoPulse = some e →
      let x := passElapsed e s.dev
      (x.time.elapsed < e → exec (.ttoTrailingEdge n) s = .next (s.settling x)) ∧
      (e ≤ x.time.elapsed → ∃ d, exec (.ttoTrailingEdge n) s = .next (s.settling d) ∧ lookup n.val d.time.ttoPulse = none ∧
        (s.dev.get (TBS_TTO_STAT_state n) = 2 → s.dev.flag (TBS_TTO_STAT_enable_pending n) = false → d.get (TBS_TTO_STAT_state n) = 0) ∧
        (s.dev.get (TBS_TTO_STAT_state n) = 1 → s.dev.get (TBS_TTO_PERIOD n) = 0 → d.get (TBS_TTO_STAT_state n) = 0) ∧
        (s.dev.get (TBS_TTO_STAT_state n) = 1 → s.dev.get (TBS_TTO_PERIOD n) ≠ 0 → d.get (TBS_TTO_STAT_state n) = 1))) ∧
    (∀ (n : Fin 16) (level : Bool) (run t : Nat),
      let x := passTo (t / 1000 * 1000) s.dev
      (t / 1000 * 1000 ≤ x.now → s.dev.get DIO_DIN_FILT_filt_us < run → bitAt (s.dev.get DIO_DIN_LEVEL_level) n ≠ level →
        ∃ d, exec (.dinEdgeConfirm n level run t) s = .next (s.settling d) ∧ bitAt (d.get DIO_DIN_LEVEL_level) n = level ∧
          bitAt (d.get DIO_DIN_LEVEL_unc) n = decide (s.dev.timeState ≠ 3) ∧
          d.get (DIO_DIN_TIME_LO n) = t / 1000 * 1000 % 2 ^ 32 ∧
          (∀ k < 16, k ≠ n.val → bitAt (d.get DIO_DIN_LEVEL_level) k = bitAt (s.dev.get DIO_DIN_LEVEL_level) k) ∧
          bitAt (if level then d.le.rise else d.le.fall) n = true) ∧
      (s.dev.get DIO_DIN_FILT_filt_us < run → bitAt (s.dev.get DIO_DIN_LEVEL_level) n = level →
        exec (.dinEdgeConfirm n level run t) s = .next (s.settling x)))

/-- The commands of the counter, and the step that takes effect at a tick. -/
def Obligations.TheCounterIsCommanded : Prop := Rules.CounterCommands ∧ Rules.CounterStepTakesEffect

/-- The peer delay exchange and the selection of a master. -/
def Obligations.PtpMastersAndDelays : Prop := Rules.PeerDelayExchange ∧ Rules.MastersAreSelected

/-- What steers the counter, and how time is kept without a master. -/
def Obligations.TimeIsSteeredAndKept : Prop := Rules.ServoRunsOnSync ∧ Rules.HoldoverAndLeapSeconds

/-- The transmit stamps, the time-trigger outputs and the digital inputs. -/
def Obligations.StampsTriggersAndInputs : Prop := Rules.StampsAndTriggerEnables ∧ Rules.TriggersAndInputs

/-! ## Ethernet -/

/-- A port that is enabled while OFF is ON with result 0, or stays OFF with the first of FIELD, FEC and CLOCK that applies; one that is DISABLING notes
the enable (R332). A disabled port is OFF once nothing is in transmission, and else DISABLING. A link that changes is shown and counted; one that goes
down discards what waits at the port; while the port's clock does not run no link comes up (R333, R352, R440). -/
def Rules.PortsOpenAndClose : Prop :=
  ∀ (s : State) (m : Master) (p : Port), s.Running →
    (s.dev.WritesField m (0x50000 + 0x4000 * p.val) 0 1 1 →
      (s.dev.get (ETH_CFG_state p) = 0 → ∃ d, exec (.ethPortEnable m p) s = .next (s.settling d) ∧
        let ml := s.dev.get (ETH_CFG_max_len p)
        let clk := (s.dev.get (CKP_DOM_CTRL_state (1 + p.val)) = 1 ∨ s.dev.get (CKP_DOM_CTRL_state (1 + p.val)) = 2) ∧
          s.dev.domEdges (1 + p.val) = true ∧ s.dev.ckp.switching.contains (1 + p.val) = false
        let code := if ml < 1518 ∨ 9216 < ml then 1 else if s.dev.flag (ETH_CFG_fec p) = true ∧ s.dev.get (ETH_CFG_speed p) ≠ 2 then 2
          else if ¬clk then 3 else 0
        d.get (ETH_CFG_result p) = code ∧ d.get (ETH_CFG_state p) = (if code = 0 then 1 else 0) ∧
        d.flag (ETH_CFG_enable p) = decide (code = 0)) ∧
      (s.dev.get (ETH_CFG_state p) = 1 → ∃ d, exec (.ethPortEnable m p) s = .next (s.settling d) ∧ d.eth = s.dev.eth ∧
        d.get (ETH_CFG_state p) = 1 ∧ d.flag (ETH_CFG_enable p) = s.dev.flag (ETH_CFG_enable p)) ∧
      (s.dev.get (ETH_CFG_state p) = 2 → ∃ d, exec (.ethPortEnable m p) s = .next (s.settling d) ∧ d.get (ETH_CFG_state p) = 2 ∧
        d.flag (ETH_CFG_enable p) = true ∧ d.flag (ETH_CFG_enable_pending p) = true)) ∧
    (s.dev.WritesField m (0x50000 + 0x4000 * p.val) 0 1 0 → ∃ d, exec (.ethPortDisable m p) s = .next (s.settling d) ∧
      d.flag (ETH_CFG_enable p) = false ∧ d.flag (ETH_CFG_enable_pending p) = false ∧
      (s.dev.get (ETH_CFG_state p) = 1 → d.get (ETH_CFG_state p) =
        if (s.dev.port p).current = none ∧ (s.dev.port p).suspended = none then 0 else 2)) ∧
    (∀ up, s.dev.flag (ETH_STAT_link p) = up ∨ (up = true ∧ s.dev.phyRuns (1 + p.val) = false) → exec (.linkChange p up) s = .next (s.settling s.dev)) ∧
    (∀ up, s.dev.flag (ETH_STAT_link p) ≠ up → (up = true → s.dev.phyRuns (1 + p.val) = true) → ∃ d, exec (.linkChange p up) s = .next (s.settling d) ∧
      d.flag (ETH_STAT_link p) = up ∧ d.get (ETH_STAT_link_changes p) = min (s.dev.get (ETH_STAT_link_changes p) + 1) 65535 ∧
      (up = false → (d.port p).current = none ∧ (d.port p).suspended = none ∧ (d.port p).express = [] ∧ (d.port p).preemptable = []))

/-- A frame that arrives at a port that is ON with its link up is counted in the first drop counter of R334 that applies, and goes nowhere; or it is
accepted, counted with its bytes, and goes where its class says, with its stamp corrected (R68, R336). At any other port it is lost. When a PAUSE hold
ends transmission resumes (R342). -/
def Rules.FramesAreReceived : Prop :=
  ∀ (s : State) (p : Port), s.Running →
    (∀ (bytes : List Byte) (err : RxError) (capture : Nat),
      let x := passTo capture s.dev
      (x.get (ETH_CFG_state p) ≠ 1 ∨ x.flag (ETH_STAT_link p) = false → exec (.ethFrameRx p bytes err capture) s = .next (s.settling x)) ∧
      (x.get (ETH_CFG_state p) = 1 → x.flag (ETH_STAT_link p) = true → ∀ k, rxDropCounter p bytes err x = some k →
        exec (.ethFrameRx p bytes err capture) s = .next (s.settling (x.inc (ETH_CNT p k)))) ∧
      (x.get (ETH_CFG_state p) = 1 → x.flag (ETH_STAT_link p) = true → rxDropCounter p bytes err x = none → ∃ y f,
        exec (.ethFrameRx p bytes err capture) s = .next (s.settling (classify p f y)) ∧
        y.get (ETH_CNT p 0) = min (x.get (ETH_CNT p 0) + 1) 4294967295 ∧
        y.get2 (ETH_CNT p 1) (ETH_CNT p 2) = min (x.get2 (ETH_CNT p 1) (ETH_CNT p 2) + bytes.length + 4) (2 ^ 64 - 1) ∧
        x.SameBut (fun k => k = (ETH_CNT p 0).key ∨ k = (ETH_CNT p 1).key ∨ k = (ETH_CNT p 2).key) y ∧
        f.port = p.val ∧ f.raw = bytes ∧ f.locked = decide (x.timeState = 3) ∧
        f.stamp = ((capture : Int) - (x.fixedCorr p).1) * 65536 - toInt 32 (x.get (TBS_P_RXADJ p)) * 4096)) ∧
    ((s.dev.port p).holdEnd = none → exec (.pauseHoldEnd p) s = .next (s.settling s.dev)) ∧
    (∀ t, (s.dev.port p).holdEnd = some t → ¬s.dev.ReachesElapsed t → exec (.pauseHoldEnd p) s = .next (s.settling (passElapsed t s.dev))) ∧
    (∀ t, (s.dev.port p).holdEnd = some t → s.dev.ReachesElapsed t → ∃ d, exec (.pauseHoldEnd p) s = .next (s.settling d) ∧
      (d.port p).holdEnd = none ∧ d.flag (ETH_STAT_paused p) = false ∧
      (d.port p).held = (s.dev.port p).held + ((passElapsed t s.dev).time.elapsed - (s.dev.port p).holdFrom))

/-- A read of TAKE answers the indices and releases the held slots, and then takes every complete frame; a write of DONE releases them (R344). A ring
that is enabled from OFF begins at index 0, and one that is disabled is OFF at once: the frame being written, where there is one, is dropped and counted,
and W goes back to TAIL (R345, R347). -/
def Rules.ReceiveRings : Prop :=
  ∀ (s : State) (m : Master) (p : Port) (h : Fin 2), s.Running →
    let r := (s.dev.port p).ring h
    let o := 0x4000 * p.val + 0x40 * h.val
    (s.dev.readVerdict m (0x51014 + o) = .pass → ∃ d : Dev, exec (.rxRingTake m p h) s = .next (s.settling (d.answer m { data := r.take % 65536 + r.tail % 65536 * 65536 })) ∧
      (d.port p).ring h = ({ r with rel := r.take, take := r.tail, frames := [] } : RxRing).wrap) ∧
    (s.dev.Writes m (0x51018 + o) 0 → ∃ d, exec (.rxRingDone m p h) s = .next (s.settling d) ∧ (d.port p).ring h = ({ r with rel := r.take } : RxRing).wrap) ∧
    (s.dev.WritesField m (0x51000 + o) 0 1 1 → ∃ d, exec (.rxRingEnable m p h) s = .next (s.settling d) ∧ d.flag (ETH_RXR_CTRL_on p h) = true ∧
      (d.port p).ring h = (if s.dev.flag (ETH_RXR_CTRL_on p h) then r else {})) ∧
    (s.dev.WritesField m (0x51000 + o) 0 1 0 → ∃ d, exec (.rxRingDisable m p h) s = .next (s.settling d) ∧ d.flag (ETH_RXR_CTRL_on p h) = false ∧
      d.flag (ETH_RXR_CTRL_enable p h) = false ∧ (s.dev.flag (ETH_RXR_CTRL_on p h) = false → d.eth = s.dev.eth) ∧
      (((d.port p).ring h = r ∧ d.get (ETH_RXR_NOBUF p h) = s.dev.get (ETH_RXR_NOBUF p h)) ∨
        ((d.port p).ring h = { r with w := r.tail } ∧ d.get (ETH_RXR_NOBUF p h) = (s.dev.inc (ETH_RXR_NOBUF p h)).get (ETH_RXR_NOBUF p h))))

/-- A write of TAIL makes the descriptors up to it available, and the device fetches from HEAD while the ring is ON (R348). A ring enabled from OFF begins
at index 0; one that is disabled is OFF and none of its frames stays at the port (R349). -/
def Rules.TransmitRings : Prop :=
  ∀ (s : State) (m : Master) (p : Port) (h : Fin 2), s.Running →
    let o := 0x4000 * p.val + 0x40 * h.val
    (∀ tail : BitVec 16, s.dev.Writes m (0x5110C + o) tail.toNat → ∃ y, y.get (ETH_TXR_TAIL_tail p h) = tail.toNat ∧
      s.dev.SameBut (fun k => k = (ETH_TXR_TAIL p h).key) y ∧
      exec (.txRingTail m p h tail) s = .next (s.settling (txFetch p h (2 ^ s.dev.get (ETH_TXR_CTRL_log2_ndesc p h)) y)) ∧
      (s.dev.flag (ETH_TXR_CTRL_on p h) = false ∨ tail.toNat = s.dev.get (ETH_TXR_HEAD_head p h) → exec (.txRingTail m p h tail) s = .next (s.settling y))) ∧
    (s.dev.WritesField m (0x51100 + o) 0 1 1 → ∃ d, exec (.txRingEnable m p h) s = .next (s.settling d) ∧ d.flag (ETH_TXR_CTRL_on p h) = true ∧
      (s.dev.flag (ETH_TXR_CTRL_on p h) = false → d.get (ETH_TXR_HEAD_head p h) = 0 ∧ d.get (ETH_TXR_TAIL_tail p h) = 0)) ∧
    (s.dev.WritesField m (0x51100 + o) 0 1 0 → ∃ d, exec (.txRingDisable m p h) s = .next (s.settling d) ∧ d.flag (ETH_TXR_CTRL_on p h) = false ∧
      d.flag (ETH_TXR_CTRL_enable p h) = false ∧ (d.port p).hasHost h = false)

/-- The frame in transmission ends: it is counted, and what its producer needs is done with the corrected stamp (R68, R339). A host frame longer than the
bytes fetched before it started may run dry: it is counted in UNDERRUN and cut_thr rises by one up to 36 (R350). -/
def Rules.TransmissionEnds : Prop :=
  ∀ (s : State) (p : Port), s.Running →
    (∀ capture : Nat,
      let x := passTo capture s.dev
      ((x.port p).current = none → exec (.txFrameEnd p capture) s = .next (s.settling x)) ∧
      (∀ it, (x.port p).current = some it → ∃ d, exec (.txFrameEnd p capture) s = .next (s.settling d) ∧
        d.get (ETH_CNT p 14) = min (x.get (ETH_CNT p 14) + 1) 4294967295 ∧
        d.get2 (ETH_CNT p 15) (ETH_CNT p 16) = min (x.get2 (ETH_CNT p 15) (ETH_CNT p 16) + it.bytes.length + 4) (2 ^ 64 - 1))) ∧
    ((s.dev.port p).current = none → exec (.txUnderrun p) s = .next (s.settling s.dev)) ∧
    (∀ it, (s.dev.port p).current = some it → (∀ h first count ts irq ev, it.kind ≠ .host h first count ts irq ev) →
      exec (.txUnderrun p) s = .next (s.settling s.dev)) ∧
    (∀ it h first count ts irq ev, (s.dev.port p).current = some it →
      it.kind = .host h first count ts irq ev → h < 2 →
      (it.hostLen ≤ 256 * it.thr → exec (.txUnderrun p) s = .next (s.settling s.dev)) ∧
      (256 * it.thr < it.hostLen → ∃ d, exec (.txUnderrun p) s = .next (s.settling d) ∧
        d.get (ETH_CNT p 17) = min (s.dev.get (ETH_CNT p 17) + 1) 4294967295 ∧
        d.get (ETH_TXCFG_cut_thr p) = min (s.dev.get (ETH_TXCFG_cut_thr p) + 1) 36))

/-- Preemption is verified (R340): every verify_ms an attempt is made, and after three without a response the verification has FAILED; a response while
VERIFYING makes it SUCCEEDED and preemption active. A change of pre_en or verify_dis restarts it: without pre_en it is DISABLED and inactive, with verify_dis
DISABLED and active, and else INITIAL. -/
def Rules.PreemptionIsVerified : Prop :=
  ∀ (s : State) (p : Port), s.Running →
    (∀ st : Nat, s.dev.get (ETH_MM_STAT_verify p) = st →
      (st ≠ 1 → st ≠ 2 → exec (.mmVerifyAttempt p) s = .next (s.settling s.dev)) ∧
      (st = 1 ∨ st = 2 → (∀ t, (s.dev.port p).verifyDue = some t → s.dev.tbcRuns = true → ¬s.dev.ReachesElapsed t →
        exec (.mmVerifyAttempt p) s = .next (s.settling (passElapsed t s.dev)))) ∧
      (st = 1 ∨ st = 2 → (∀ t, (s.dev.port p).verifyDue = some t → s.dev.tbcRuns = false ∨ s.dev.ReachesElapsed t) →
        ∃ d, exec (.mmVerifyAttempt p) s = .next (s.settling d) ∧
        if 3 ≤ (s.dev.port p).attempts then d.get (ETH_MM_STAT_verify p) = 4
        else d.get (ETH_MM_STAT_verify p) = 2 ∧ (d.port p).attempts = (s.dev.port p).attempts + 1) ∧
      (st ≠ 2 → exec (.mmVerifyResponseRx p) s = .next (s.settling s.dev)) ∧
      (st = 2 → ∃ y, y.get (ETH_MM_STAT_verify p) = 3 ∧ y.flag (ETH_MM_STAT_active p) = true ∧
        s.dev.SameBut (fun k => k = (ETH_MM_STAT p).key) y ∧ exec (.mmVerifyResponseRx p) s = .next (s.settling (txPreempt p y)))) ∧
    (∀ (m : Master) (v : BitVec 32), s.dev.Writes m (0x50018 + 0x4000 * p.val) v.toNat → ∃ d, exec (.mmConfigWrite m p v) s = .next (s.settling d) ∧
      let pre := v.toNat % 2
      let dis := v.toNat / 2 % 2
      d.get (ETH_MM_pre_en p) = pre ∧ d.get (ETH_MM_verify_dis p) = dis ∧ d.get (ETH_MM_add_frag p) = v.toNat / 4 % 4 ∧
      (pre = s.dev.get (ETH_MM_pre_en p) → dis = s.dev.get (ETH_MM_verify_dis p) →
        d.get (ETH_MM_STAT_verify p) = s.dev.get (ETH_MM_STAT_verify p) ∧ d.eth = s.dev.eth) ∧
      (pre ≠ s.dev.get (ETH_MM_pre_en p) ∨ dis ≠ s.dev.get (ETH_MM_verify_dis p) →
        d.get (ETH_MM_STAT_verify p) = (if pre = 1 ∧ dis = 0 then 1 else 0) ∧ d.flag (ETH_MM_STAT_active p) = decide (pre = 1 ∧ dis = 1)))

/-- The ports of the Ethernet block and the rings of the hosts. -/
def Obligations.PortsAndRings : Prop := Rules.PortsOpenAndClose ∧ Rules.ReceiveRings ∧ Rules.TransmitRings

/-- The way of a frame in and out of a port. -/
def Obligations.FramesComeAndGo : Prop := Rules.FramesAreReceived ∧ Rules.TransmissionEnds ∧ Rules.PreemptionIsVerified

/-! ## Measurement streams and the Collator -/

/-- A stream command that finds none running takes the entry: COMMIT the host copy with the code of its checks (R81), CLEAR_CNT with the counters of the
source cleared (R101), NOTE_CFGCNT with the source, its parsed frames finished, moved to CFG_STALE with cause NOTE where the value of STR_CMD_ARG differs from
cfg_ref (R91). While one runs, the command is refused with BUSY and has no other effect (R495). -/
def Rules.StreamCommandsStart : Prop :=
  ∀ (s : State) (m : Master) (n : Fin 8192), s.Running →
    (∀ (op : Nat) (i : Instr), (op = 1 ∧ i = .strCommit m n) ∨ (op = 2 ∧ i = .clearCnt m n) ∨ (op = 3 ∧ i = .noteCfgcnt m n) →
      s.dev.Writes m 0x60020 (op + 16 * n.val) →
      (s.dev.flag STR_CMD_STAT_busy = true → exec i s = .next (s.settling (s.dev.set STR_CMD_STAT_result 6))) ∧
      (s.dev.flag STR_CMD_STAT_busy = false → ∃ d, exec i s = .next (s.settling d) ∧ d.flag STR_CMD_STAT_busy = true ∧
        d.str.cmd = (if op = 1 then some { op := 1, index := n.val, code := commitCode n.val (s.dev.hostEnt n.val) s.dev, ent := s.dev.hostEnt n.val }
          else some { op := op, index := n.val, applied := true }) ∧
        (op = 1 → d.str.working = s.dev.str.working ∧ d.str.src = s.dev.str.src) ∧
        (op = 2 → d.srcSt n.val = { s.dev.srcSt n.val with cnt := List.replicate 12 0 }) ∧
        (op = 3 →
          let e := s.dev.ent n.val
          let x := (finishAll n.val s.dev).srcSt n.val
          let arg := s.dev.get STR_CMD_ARG
          let differs := if e.kind = 2 then arg ≠ e.cfgRef else arg % 65536 ≠ e.cfgRef % 65536
          (x.state ≠ 0 → x.state ≠ 5 → differs → (d.srcSt n.val).state = 5 ∧ (d.srcSt n.val).cause = 3) ∧
          (x.state = 0 ∨ x.state = 5 ∨ ¬differs → d.srcSt n.val = x))))

/-- An accepted COMMIT takes effect between two frames, once the parsed ones of its source are finished: the checked copy is the working copy, and the source is DISABLED where the entry is off, and
REQUALIFYING where its structure changed or it was DISABLED or CFG_STALE, and else stays as it is (R82). A command completes with its code and index and
source 41, an accepted COMMIT once it has taken effect (R495). -/
def Rules.StreamCommandsEnd : Prop :=
  ∀ s : State, s.Running →
    (s.dev.str.cmd = none → exec .strCommitApply s = .next (s.settling s.dev) ∧ exec .strCmdDone s = .next (s.settling s.dev)) ∧
    (∀ c, s.dev.str.cmd = some c → c.op = 1 → c.code = 0 → c.applied = false →
      exec .strCmdDone s = .next (s.settling s.dev) ∧ ∃ d, exec .strCommitApply s = .next (s.settling d) ∧ d.ent c.index = c.ent ∧ d.str.cmd = some { c with applied := true } ∧
        let st := ((finishAll c.index s.dev).srcSt c.index).state
        (d.srcSt c.index).state = (if c.ent.on = false then 0
          else if (s.dev.ent c.index).structural ≠ c.ent.structural ∨ st = 0 ∨ st = 5 then 4 else st)) ∧
    (∀ c, s.dev.str.cmd = some c → c.op ≠ 1 ∨ c.code ≠ 0 ∨ c.applied = true → ∃ y, exec .strCmdDone s = .next (s.settling (raise 41 y)) ∧
      y.get STR_CMD_STAT_result = c.code % 256 ∧ y.get STR_CMD_STAT_index = c.index % 8192 ∧ y.flag STR_CMD_STAT_busy = false ∧
      y.str = { s.dev.str with cmd := none } ∧ s.dev.SameBut (fun k => k = STR_CMD_STAT.key) { y with str := s.dev.str })

/-- A write of STR_SRC_SEL takes one moment's state, counters and time-stamps of an entry into the registers of the master that wrote it (R101). -/
def Rules.SourceSnapshot : Prop :=
  ∀ (s : State) (m : Master) (n : Fin 8192), s.Running → s.dev.Writes m 0x60100 n.val → ∃ d, exec (.srcSnapshot m n) s = .next (s.leaving d) ∧
    let x := s.dev.srcSt n.val
    d.get (STR_SRC_STAT_state m) = x.state % 8 ∧ d.get (STR_SRC_STAT_requal m) = x.requal % 256 ∧
    d.get (STR_SRC_STAT_stale_cause m) = x.cause % 16 ∧ d.get (STR_SRC_STAT_flags m) = x.flags % 256 ∧
    (∀ k < 12, d.get (STR_SRC_CNT m k) = x.cnt.getD k 0 % 2 ^ 32) ∧
    d.get2 (STR_SRC_TS_LO m) (STR_SRC_TS_HI m) = x.ts % 2 ^ 64 ∧ d.get2 (STR_SRC_ARR_LO m) (STR_SRC_ARR_HI m) = x.arr % 2 ^ 64

/-- A synchrophasor frame that fails a check before its match is counted in STR_ANON_ERR, one with a bad CRC by its source, and one that passes every check
of its source goes to the Collator with its time-stamp, arrival, flags and converted slots (R85-R90). -/
def Rules.SynchrophasorFrames : Prop :=
  ∀ s : State, s.Running →
    (s.dev.eth.streamIn = [] → exec .synchrophasorFrameRx s = .next (s.settling s.dev)) ∧
    (∀ f fs, s.dev.eth.streamIn = f :: fs → udpPayload f.bytes = none → ∃ d, exec .synchrophasorFrameRx s = .next (s.settling d) ∧
      d.eth = { s.dev.eth with streamIn := fs } ∧ d.get STR_ANON_ERR = min (s.dev.get STR_ANON_ERR + 1) 4294967295 ∧
      s.dev.SameBut (fun k => k = STR_ANON_ERR.key) { d with eth := s.dev.eth }) ∧
    (∀ f fs p n, s.dev.eth.streamIn = f :: fs → udpPayload f.bytes = some p → syncOk p = true → bits (byteAt p 1) 4 3 = 0 →
      s.dev.matchC37 (slice f.bytes 26 4 ++ toLe 2 (beAt f.bytes (14 + byteAt f.bytes 14 % 16 * 4 + 2) 2) ++ toLe 2 (beAt p 4 2)) = some n →
      s.dev.laneRuns 1 (n / 1024) = true →
      let b := placeUpTo (fun f => f.src == n) s.dev
      let e := b.ent n
      let stat := beAt p 14 2
      let tq := c37Tq p
      (crcCcitt (p.take (p.length - 2)) ≠ beAt p (p.length - 2) 2 → ∃ d, exec .synchrophasorFrameRx s = .next (s.settling d) ∧ d.eth.streamIn = fs ∧
        (d.srcSt n).cnt = modAt (b.srcSt n).cnt 2 (fun c => min (c + 1) (2 ^ 32 - 1)) ∧ d.col.inbox = b.col.inbox) ∧
      (crcCcitt (p.take (p.length - 2)) = beAt p (p.length - 2) 2 → (b.srcSt n).state ≠ 5 → p.length = e.frameSize →
      ((b.srcSt n).stat10 = true → bitAt stat 10 = true) → beAt p 11 3 < e.timeBase → withheld e stat tq = false →
      ∃ d, exec .synchrophasorFrameRx s = .next (s.settling d) ∧ d.eth.streamIn = fs ∧
        (d.srcSt n).ts = c37Time f.utc e p ∧ (d.srcSt n).arr = stampNs f.stamp ∧ (d.srcSt n).flags = c37Flags e stat tq ∧
        d.col.inbox = b.col.inbox ++ [{
          src := n, t := c37Time f.utc e p, arr := stampNs f.stamp, port := f.port, flags := c37Flags e stat tq, tq := bits stat 6 3,
          unlocked := bits stat 4 2, trigger := bits stat 0 4, leap := byteAt p 10 / 16, part := (c37Slots b e p).2, slots := (c37Slots b e p).1 }]))

/-- A sampled-value frame without a first svID is counted in STR_ANON_ERR, one that is not well formed after its match by its source; one that passes the checks of its source enters its one sample, later than the
last, into the filter group of the source, with its index, time, values and missing channels (R92-R94). -/
def Rules.SampledValueFrames : Prop :=
  ∀ s : State, s.Running →
    (s.dev.eth.svIn = [] → exec .svFrameRx s = .next (s.settling s.dev)) ∧
    (∀ f fs, s.dev.eth.svIn = f :: fs → firstSvid f.apdu = none → ∃ d, exec .svFrameRx s = .next (s.settling d) ∧
      d.eth = { s.dev.eth with svIn := fs } ∧ d.get STR_ANON_ERR = min (s.dev.get STR_ANON_ERR + 1) 4294967295 ∧
      s.dev.SameBut (fun k => k = STR_ANON_ERR.key) { d with eth := s.dev.eth }) ∧
    (∀ f fs svid n, s.dev.eth.svIn = f :: fs → firstSvid f.apdu = some svid → s.dev.matchSv (f.bytes.take 6) (beAt f.bytes 14 2) svid = some n →
      (s.dev.laneRuns 1 (n / 1024) = false → exec .svFrameRx s = .next (s.settling s.dev)) ∧
      (s.dev.laneRuns 1 (n / 1024) = true → ((finishAll n s.dev).srcSt n).state ≠ 5 → savPdu f.apdu = none → ∃ d,
        exec .svFrameRx s = .next (s.settling d) ∧ d.eth.svIn = fs ∧ d.flt.queue = (finishAll n s.dev).flt.queue ∧
        (d.srcSt n).cnt = modAt ((finishAll n s.dev).srcSt n).cnt 3 (fun c => min (c + 1) (2 ^ 32 - 1)))) ∧
    (∀ f fs a sync svid n, s.dev.eth.svIn = f :: fs → firstSvid f.apdu = some svid → s.dev.matchSv (f.bytes.take 6) (beAt f.bytes 14 2) svid = some n →
      s.dev.laneRuns 1 (n / 1024) = true → savPdu f.apdu = some (1, [a]) →
      let b := finishAll n s.dev
      let e := b.ent n
      let arr := stampNs f.stamp
      let t := svTime e arr 0 1 a.smpCnt (decide (1 ≤ min 2 sync))
      let i := svIndex e.svRate a.smpCnt t
      (b.srcSt n).state ≠ 5 → e.svAsdu = 1 → a.sync = some sync → a.data.length = 64 → a.confRev = e.cfgRef → a.smpCnt < e.svRate →
      bits e.policy 8 2 ≤ min 2 sync → (∀ r ∈ (b.srcSt n).svRuns, r.2 < i) →
      ∃ d smp, exec .svFrameRx s = .next (s.settling d) ∧ d.eth.svIn = fs ∧ (d.srcSt n).svLast = some i ∧ d.flt.queue = b.flt.queue ++ [smp] ∧
        smp.group = e.svSlot ∧ smp.index = i ∧ smp.time = t ∧ smp.arr = arr ∧ smp.sync = min 2 sync ∧
        smp.vals = (List.range 8).map (fun j => toInt 32 (beAt a.data (8 * j) 4)) ∧
        smp.missing = mask8 (fun j => qualMissing e.policy (svQual a.data j) (bitAt (beAt f.bytes 18 2) 15)))

/-- At a 1 ms instant, once every frame stamped before it has been taken, exactly the sources that are ACTIVE, LATE or REQUALIFYING and have been silent for their stall_ms become STALLED (R98). -/
def Rules.SilenceIsChecked : Prop :=
  ∀ s : State, s.Running →
    let x := passTo (nextMs s.dev.now) s.dev
    let b := framesBefore x.now x
    (x.now < nextMs s.dev.now → exec .silenceCheck s = .next (s.settling x)) ∧
    (nextMs s.dev.now ≤ x.now → ∃ d, exec .silenceCheck s = .next (s.settling d) ∧ d.str.evs = 0 ∧ d.str.working = b.str.working ∧
      ∀ n, (d.srcSt n).state =
        let y := b.srcSt n
        if (y.state = 1 ∨ y.state = 2 ∨ y.state = 4) ∧ y.stall * 1000000 ≤ x.now - y.lastValid then 3 else y.state)

/-- The Collator takes the good frame that arrived first of those whose lane runs, once what was stamped before it has been parsed (R109, R112). One from the future is counted for its source and raises source 51 (R107, R108); one of an ACTIVE or LATE
source that a grid holds an open gathering for, in which its source has no frame, is placed there with its time-stamp, arrival and flags (R107, R109). -/
def Rules.GoodFramesArePlaced : Prop :=
  ∀ s : State, s.Running →
    (s.dev.col.inbox = [] → exec .goodFramePlace s = .next (s.settling s.dev)) ∧
    (∀ h, s.dev.frames.head? = some h →
      let w := parseBefore h.arr s.dev
      (s.dev.eth.streamIn = [] → w = s.dev) ∧
      ∀ f fs, w.frames = f :: fs → w.blockRuns 58 = true → w.laneRuns 2 (f.src / 1024) = true →
      (∀ g ∈ w.col.inbox, w.laneRuns 2 (g.src / 1024) = true → f.arr ≤ g.arr) ∧
      (f.arr + w.lead ≤ f.t → ∃ y, exec .goodFramePlace s = .next (s.settling (raiseMs 51 y)) ∧ y.col = { w.col with inbox := fs } ∧
        (y.srcSt f.src).cnt = modAt (w.srcSt f.src).cnt 7 (fun c => min (c + 1) (2 ^ 32 - 1)) ∧
        (y.srcSt f.src).state = (w.srcSt f.src).state) ∧
      (∀ n k x, f.t < f.arr + w.lead → w.onOwnGrid (w.ent f.src) f.t = true →
        (w.srcSt f.src).state = 1 ∨ (w.srcSt f.src).state = 2 → w.gridsOf f.src = [n] → w.place? n f.t f.arr = some (k, false) →
        w.gath n k = some x → x.memLost = false → w.memAlive = true → (∀ p ∈ x.placed, p.src ≠ f.src) →
        ∃ d y p, exec .goodFramePlace s = .next (s.settling d) ∧ d.col.inbox = fs ∧ d.gath n k = some y ∧ y.placed = x.placed ++ [p] ∧ p.src = f.src ∧
          p.order = x.placed.length ∧ p.t = f.t ∧ p.arr = f.arr ∧ p.flags = f.flags ∧ p.port = f.port))

/-- At its hold start the next instant of a grid that is ON opens as a gathering with its due sources and without frames; at final_time, once every frame
stamped before it is placed, it is FINAL and DET is told how many had arrived; at retire_time it is no longer held (R117, R120). -/
def Rules.GatheringsOpenAndRetire : Prop :=
  ∀ (s : State) (n : Fin 8), s.Running → s.dev.blockRuns 58 = true →
    (s.dev.get (COL_GRID_CTRL_state n) ≠ 1 → exec (.gatheringOpen n) s = .next (s.settling s.dev)) ∧
    (s.dev.get (COL_GRID_CTRL_state n) = 1 →
      let k := (s.dev.grid n).next
      let g := instantAt (s.dev.rate n) k
      let due := g - s.dev.lead - s.dev.tol
      let x := passTo due s.dev
      (x.now < due → exec (.gatheringOpen n) s = .next (s.settling x)) ∧
      (due ≤ x.now → s.dev.gath n k = none → ∃ d y, exec (.gatheringOpen n) s = .next (s.settling d) ∧ (d.grid n).next = k + 1 ∧ d.gath n k = some y ∧
        y.g = g ∧ y.placed = [] ∧ y.finalAt = none ∧ y.due = (s.dev.members n).filter (fun i => s.dev.isDue (s.dev.ent i) g))) ∧
    (∀ k, s.dev.gath n k = none → exec (.gatheringFinal n k) s = .next (s.settling s.dev) ∧ exec (.gatheringRetire n k) s = .next (s.settling s.dev)) ∧
    (∀ k x, s.dev.gath n k = some x →
      (¬s.dev.Reaches (s.dev.finalTime n x.g) → exec (.gatheringFinal n k) s = .next (s.settling (passTo (s.dev.finalTime n x.g) s.dev))) ∧
      (let z := passTo (s.dev.finalTime n x.g) s.dev
      let b := gathUpTo n k z.now (placeBefore (s.dev.finalTime n x.g) z)
      s.dev.Reaches (s.dev.finalTime n x.g) → ∀ x', b.gath n k = some x' → x'.finalAt = none →
        ∃ d y nt, exec (.gatheringFinal n k) s = .next (s.settling d) ∧ d.gath n k = some y ∧ y.finalAt = some z.now ∧ y.placed = x'.placed ∧
          d.col.finals = b.col.finals ++ [nt] ∧ nt.grid = n.val ∧ nt.k = x'.k ∧ nt.g = x'.g ∧ nt.arrived = x'.arrivedNow) ∧
      (s.dev.Reaches (s.dev.retireTime n x.g) → ∃ d, exec (.gatheringRetire n k) s = .next (s.settling d) ∧ d.gath n k = none))

/-- The views of a held gathering (R112, R114-R116), each at its instant and once every frame stamped before it is placed: at g a view whose expected sources have all arrived closes with cause ALL; at g + min_us a QUORUM view with
enough arrivals is PROVISIONAL with cause QUORUM; at g + wait an OPEN view is CLOSED. The reader gets one notice of it, with the number that had arrived. -/
def Rules.ViewsClose : Prop :=
  ∀ (s : State) (n : Fin 8) (k : Nat) (r : Fin 64), s.Running → s.dev.blockRuns 58 = true →
    (s.dev.gath n k = none → exec (.viewInstant n k) s = .next (s.settling s.dev) ∧ exec (.quorumMinExpire n k r) s = .next (s.settling s.dev) ∧ exec (.viewWaitExpire n k r) s = .next (s.settling s.dev)) ∧
    (∀ x, s.dev.gath n k = some x → ∀ (i : Instr) (t : Nat),
      (i = .viewInstant n k ∧ t = x.g) ∨ (i = .quorumMinExpire n k r ∧ t = x.g + s.dev.get (COL_RD_QUORUM_min_us r) * 1000) ∨
        (i = .viewWaitExpire n k r ∧ t = x.g + s.dev.get (COL_RD_WAIT_wait_us r) * 1000) →
      (¬s.dev.Reaches t → exec i s = .next (s.settling (passTo t s.dev))) ∧
      (s.dev.Reaches t →
        let b := placeBefore t (passTo t s.dev)
        ∀ x' v, b.gath n k = some x' → x'.g = x.g → x'.views.find? (fun w => w.reader == r.val) = some v → v.state = 0 →
          let exp := b.expected x'
          let arr := (exp.filter (fun i => x'.placed.any (fun p => p.src == i))).length
          let wait := s.dev.get (COL_RD_WAIT_wait_us r) * 1000
          let qmin := s.dev.get (COL_RD_QUORUM_min_us r) * 1000
          let sent (d : Dev) (st kind cause : Nat) : Prop := ∃ y w nt, d.gath n k = some y ∧ y.views.find? (fun w => w.reader == r.val) = some w ∧
            w.state = st ∧ w.arrived = some x'.arrivedNow ∧ (d.reader r).notices = (b.reader r).notices ++ [nt] ∧ nt.grid = n.val ∧ nt.k = x'.k ∧
            nt.kind = kind ∧ nt.cause = cause ∧ nt.arrived = x'.arrivedNow
          (i = .viewInstant n k → x'.finalAt = none → arr = exp.length → ∃ d, exec (.viewInstant n k) s = .next (s.settling d) ∧ sent d 2 1 0) ∧
          (i = .quorumMinExpire n k r → b.flag (COL_RD_CTRL_policy r) = true → qmin < wait → arr ≠ exp.length →
            max 1 (cdiv (exp.length * s.dev.get (COL_RD_QUORUM_pct r)) 100) ≤ arr →
            ∃ d, exec (.quorumMinExpire n k r) s = .next (s.settling d) ∧ sent d 1 0 1) ∧
          (i = .viewWaitExpire n k r → b.flag (COL_RD_CTRL_policy r) = false → ∃ d, exec (.viewWaitExpire n k r) s = .next (s.settling d) ∧
            sent d 2 1 (if arr = exp.length then 0 else 2)) ∧
          (i = .viewWaitExpire n k r → ∃ d y w, exec (.viewWaitExpire n k r) s = .next (s.settling d) ∧ d.gath n k = some y ∧
            y.views.find? (fun w => w.reader == r.val) = some w ∧ w.state = 2)))

/-- A grid that is enabled while OFF is ON from its first instant not yet begun, or stays OFF with its code; while DISABLING the enable is noted (R127). One
that is disabled holds no gathering afterwards and none of its readers is ON (R128). -/
def Rules.GridsOpenAndClose : Prop :=
  ∀ (s : State) (m : Master) (n : Fin 8), s.Running →
    (s.dev.WritesField m (0x70100 + 0x20 * n.val) 0 1 1 →
      (s.dev.get (COL_GRID_CTRL_state n) = 0 → ∃ d, exec (.gridEnable m n) s = .next (s.settling d) ∧
        let c := gridCode n s.dev
        d.get (COL_GRID_CTRL_result n) = c ∧ d.get (COL_GRID_CTRL_state n) = (if c = 0 then 1 else 0) ∧
        d.flag (COL_GRID_CTRL_enable n) = decide (c = 0) ∧
        (c = 0 → d.grid n = { next := firstIndex (s.dev.rate n) (s.dev.now + s.dev.lead + s.dev.tol), held := [], retired := (s.dev.grid n).retired })) ∧
      (s.dev.get (COL_GRID_CTRL_state n) = 2 → ∃ d, exec (.gridEnable m n) s = .next (s.settling d) ∧ d.get (COL_GRID_CTRL_state n) = 2 ∧
        d.flag (COL_GRID_CTRL_enable n) = true ∧ d.flag (COL_GRID_CTRL_enable_pending n) = true)) ∧
    (s.dev.WritesField m (0x70100 + 0x20 * n.val) 0 1 0 → ∃ d, exec (.gridDisable m n) s = .next (s.settling d) ∧
      d.flag (COL_GRID_CTRL_enable n) = false ∧ d.flag (COL_GRID_CTRL_enable_pending n) = false ∧
      (s.dev.get (COL_GRID_CTRL_state n) = 1 → s.dev.blockRuns 58 = true → (d.grid n).held = [] ∧
        (d.get (COL_GRID_CTRL_state n) = 2 ∨ d.get (COL_GRID_CTRL_state n) = 0) ∧
        ∀ r < 64, d.get (COL_RD_CTRL_grid r) = n.val → d.get (COL_RD_CTRL_state r) ≠ 1))

/-- A reader that is enabled while OFF is ON with result 0 and keeps the notices made for it before, or stays OFF with its code (R127, R128). A reader that is disabled has no open view left; a detector group is
OFF at once, and an output stream when it has no notice left to act on (R128). -/
def Rules.ReadersOpenAndClose : Prop :=
  ∀ (s : State) (m : Master) (r : Fin 64), s.Running →
    (s.dev.WritesField m (0x71000 + 0x20 * r.val) 0 1 1 →
      (s.dev.get (COL_RD_CTRL_state r) = 0 → ∃ d, exec (.readerEnable m r) s = .next (s.settling d) ∧
        let c := readerCode r s.dev
        d.get (COL_RD_CTRL_result r) = c ∧ d.get (COL_RD_CTRL_state r) = (if c = 0 then 1 else 0) ∧
        d.flag (COL_RD_CTRL_enable r) = decide (c = 0) ∧ (c = 0 → (d.reader r).onAt = s.dev.now ∧ (d.reader r).notices = (s.dev.reader r).notices)) ∧
      (s.dev.get (COL_RD_CTRL_state r) = 2 → ∃ d, exec (.readerEnable m r) s = .next (s.settling d) ∧ d.get (COL_RD_CTRL_state r) = 2 ∧
        d.flag (COL_RD_CTRL_enable_pending r) = true)) ∧
    (s.dev.WritesField m (0x71000 + 0x20 * r.val) 0 1 0 → ∃ d, exec (.readerDisable m r) s = .next (s.settling d) ∧ d.flag (COL_RD_CTRL_enable r) = false ∧
      (s.dev.get (COL_RD_CTRL_state r) = 1 →
        d.get (COL_RD_CTRL_state r) = (if 32 ≤ r.val ∨ (s.dev.reader r).notices = [] then 0 else 2) ∧
        ∀ k x, d.gath (s.dev.get (COL_RD_CTRL_grid r)) k = some x → ∀ v ∈ x.views, v.reader = r.val → 2 ≤ v.state)) ∧
    (s.dev.get (COL_RD_CTRL_state r) ≠ 2 ∨ (r.val < 32 ∧ (s.dev.reader r).notices ≠ []) → exec (.readerOff r) s = .next (s.settling s.dev)) ∧
    (s.dev.get (COL_RD_CTRL_state r) = 2 → 32 ≤ r.val ∨ (s.dev.reader r).notices = [] → s.dev.flag (COL_RD_CTRL_enable_pending r) = false →
      ∃ d, exec (.readerOff r) s = .next (s.settling d) ∧ d.get (COL_RD_CTRL_state r) = 0)

/-- A reader that is ON takes its next notice of a gathering still held, skips and counts those of retired ones (R116, R124), in a stream that an OUT folio
provides (R18) and while its block runs (R16); an output stream composes one
frame for a gathering it has not composed, which an acting unit queues at the stream's port (R132), and a detector group hands the notice to the scheduler. -/
def Rules.ReadersTakeNotices : Prop :=
  ∀ (s : State) (r : Fin 64), s.Running →
    let old := (s.dev.reader r).notices
    let gone := old.takeWhile (fun nt => (s.dev.gath nt.grid nt.k).isNone)
    let rest := old.dropWhile (fun nt => (s.dev.gath nt.grid nt.k).isNone)
    let taken (d : Dev) : Prop := (d.reader r).notices = rest.tail ∧
      d.get (COL_RD_SKIP r) = min (s.dev.get (COL_RD_SKIP r) + (gone.map (fun nt => nt.k)).eraseDups.length) 4294967295
    (32 ≤ r.val → s.dev.blockRuns 57 = false → exec (.readerNoticeTake r) s = .next (s.settling s.dev)) ∧
    (r.val < 32 → 4 * s.dev.get BND_FOLIO_CNT_out ≤ r.val ∨ s.dev.laneRuns 5 (r.val / 4) = false →
      exec (.readerNoticeTake r) s = .next (s.settling s.dev)) ∧
    (s.dev.get (COL_RD_CTRL_state r) = 1 → 32 ≤ r.val → s.dev.blockRuns 57 = true →
      ∃ d, exec (.readerNoticeTake r) s = .next (s.settling d) ∧ taken d ∧
        d.sch.inbox = s.dev.sch.inbox ++ rest.head?.toList.map (fun nt => .notice (r.val - 32) nt nt.made nt.tick)) ∧
    (s.dev.get (COL_RD_CTRL_state r) = 1 → r.val < 4 * s.dev.get BND_FOLIO_CNT_out → r.val < 32 → s.dev.laneRuns 5 (r.val / 4) = true →
      (∃ d, exec (.readerNoticeTake r) s = .next (s.settling d) ∧ taken d ∧ ∀ nt ∈ rest.head?, nt.g ∈ (d.reader r).composed) ∧
      ∀ nt ∈ rest.head?, nt.g ∉ (s.dev.reader r).composed →
        let b := (noticeNext r s.dev).2
        let c := b.putReader r { b.reader r with composed := (b.reader r).composed.filter (fun g => (b.grid nt.grid).held.any (fun y => y.g == g)) ++ [nt.g] }
        let p := s.dev.get (COL_OS_CFG_port r)
        (c.acting = false → exec (.readerNoticeTake r) s = .next (s.settling (c.inc (COL_OS_NOT_SENT r)))) ∧
        (c.acting = true → c.portSends p = true → c.xingDead (1 + p) = false →
          ∃ d, ∃ it ∈ (d.port p).current.toList ++ (d.port p).suspended.toList ++ (d.port p).preemptable,
            exec (.readerNoticeTake r) s = .next (s.settling d) ∧ it.kind = .stream r ∧ it.bytes = c.outPacket r nt ∧
            d.get (COL_OS_SENT r) = min (s.dev.get (COL_OS_SENT r) + 1) 4294967295))

/-- The commands of the stream table. -/
def Obligations.StreamTableIsCommanded : Prop := Rules.StreamCommandsStart ∧ Rules.StreamCommandsEnd ∧ Rules.SourceSnapshot

/-- What becomes of a measurement frame, and of a source that is silent. -/
def Obligations.StreamFramesAreChecked : Prop := Rules.SynchrophasorFrames ∧ Rules.SampledValueFrames ∧ Rules.SilenceIsChecked

/-- The gatherings of a grid. -/
def Obligations.GatheringsAreFilled : Prop := Rules.GoodFramesArePlaced ∧ Rules.GatheringsOpenAndRetire ∧ Rules.ViewsClose

/-- The grids and their readers. -/
def Obligations.GridsAndReadersOpen : Prop := Rules.GridsOpenAndClose ∧ Rules.ReadersOpenAndClose ∧ Rules.ReadersTakeNotices

/-! ## The local filter -/

/-- The filter takes the oldest sample: one whose group has no source, is not bound or is not ON goes nowhere; else it becomes the newest sample that the
group has processed, and a sample with every channel missing says nothing of its synchronisation (R142, R157, R158). A stopped lane takes none (R16). -/
def Rules.SamplesAreFiltered : Prop :=
  ∀ s : State, s.Running →
    (s.dev.flt.queue = [] → exec .filterSample s = .next (s.settling s.dev)) ∧
    (∀ x q, s.dev.flt.queue = x :: q → s.dev.laneRuns 3 (x.group / 2) = false → exec .filterSample s = .next (s.settling s.dev)) ∧
    (∀ x q, s.dev.flt.queue = x :: q → s.dev.laneRuns 3 (x.group / 2) = true →
      let y := { s.dev with flt := { s.dev.flt with queue := q } }
      (s.dev.groupSrc x.group = none ∨ s.dev.get (FLT_GRP_CTRL_state x.group) ≠ 1 ∨ s.dev.fltBound x.group = false → exec .filterSample s = .next (s.settling y)) ∧
      (s.dev.groupSrc x.group ≠ none → s.dev.get (FLT_GRP_CTRL_state x.group) = 1 → s.dev.fltBound x.group = true →
        ∃ d m, exec .filterSample s = .next (s.settling d) ∧ d.flt.queue = q ∧ (d.fgroup x.group).marks.head? = some m ∧ m.index = x.index ∧ m.time = x.time ∧
          m.sync = (if x.missing = 255 then 2 else x.sync) ∧ m.test = x.test ∧ m.quest = x.quest))

/-- A swap (R153-R155). A request at a bound group that is ON is taken when neither a fade nor a held request stands: its code is shown, and with code 0 the
bank changes at once or a fade of its length starts; else it is held in place of the one before, which ends with 7. CANCEL ends a held request with 8. At any
other group both change nothing. -/
def Rules.SwapsAndFades : Prop :=
  ∀ (s : State) (m : Master) (g : Fin 32), s.Running →
    (∀ (bank : Fin 2) (fade : Fin 8192), s.dev.Writes m (0x80004 + 0x40 * g.val) (1 + 4 * bank.val + 65536 * fade.val) →
      let r : SwapReq := ⟨bank.val, fade.val⟩
      let x := s.dev.fgroup g
      let c := fltCode g bank (some r) s.dev
      (s.dev.fltBound g = false ∨ s.dev.get (FLT_GRP_CTRL_state g) ≠ 1 → exec (.swapRequest m g bank fade) s = .next (s.settling s.dev)) ∧
      (s.dev.fltBound g = true → s.dev.get (FLT_GRP_CTRL_state g) = 1 → x.fade = none → x.held = none → ∃ d, exec (.swapRequest m g bank fade) s = .next (s.settling d) ∧
        d.get (FLT_GRP_CTRL_result g) = c ∧
        (c ≠ 0 → d.fgroup g = x ∧ d.get (FLT_GRP_CTRL_bank g) = s.dev.get (FLT_GRP_CTRL_bank g)) ∧
        (c = 0 → fade.val = 0 → d.get (FLT_GRP_CTRL_bank g) = bank.val ∧ (d.fgroup g).fade = none) ∧
        (c = 0 → fade.val ≠ 0 → d.get (FLT_GRP_CTRL_bank g) = s.dev.get (FLT_GRP_CTRL_bank g) ∧ (d.fgroup g).fade = some { len := fade.val } ∧
          d.flag (FLT_GRP_SWAPST_fading g) = true)) ∧
      (s.dev.fltBound g = true → s.dev.get (FLT_GRP_CTRL_state g) = 1 → x.fade ≠ none ∨ x.held ≠ none → ∃ d, exec (.swapRequest m g bank fade) s = .next (s.settling d) ∧
        d.fgroup g = { x with held := some r } ∧ d.flag (FLT_GRP_SWAPST_held g) = true ∧ d.get (FLT_GRP_SWAPST_held_bank g) = bank.val ∧
        d.get (FLT_GRP_CTRL_result g) = (if x.held = none then s.dev.get (FLT_GRP_CTRL_result g) else 7))) ∧
    (s.dev.Writes m (0x80004 + 0x40 * g.val) 2 →
      let x := s.dev.fgroup g
      (s.dev.fltBound g = false ∨ s.dev.get (FLT_GRP_CTRL_state g) ≠ 1 ∨ x.held = none → exec (.swapCancel m g) s = .next (s.settling s.dev)) ∧
      (s.dev.fltBound g = true → s.dev.get (FLT_GRP_CTRL_state g) = 1 → x.held ≠ none → ∃ d, exec (.swapCancel m g) s = .next (s.settling d) ∧ d.fgroup g = { x with held := none } ∧
        d.get (FLT_GRP_CTRL_result g) = 8 ∧ d.flag (FLT_GRP_SWAPST_held g) = false))

/-- A bound filter group that is enabled while OFF is ON or stays OFF with the code of R151; while DISABLING the enable is noted. One that is disabled
while ON is DISABLING without fade or held request, and reaches OFF (R159). -/
def Rules.FilterGroupsOpenAndClose : Prop :=
  ∀ (s : State) (m : Master) (g : Fin 32), s.Running →
    (s.dev.fltBound g = true → s.dev.WritesField m (0x80000 + 0x40 * g.val) 0 1 1 →
      (s.dev.get (FLT_GRP_CTRL_state g) = 0 → ∃ d, exec (.fltGroupEnable m g) s = .next (s.settling d) ∧
        let c := fltCode g (s.dev.get (FLT_GRP_CTRL_bank g)) none s.dev
        d.get (FLT_GRP_CTRL_result g) = c ∧ d.get (FLT_GRP_CTRL_state g) = (if c = 0 then 1 else 0) ∧
        d.flag (FLT_GRP_CTRL_enable g) = decide (c = 0) ∧ (c = 0 → (d.fgroup g).marks = [] ∧ (d.fgroup g).fade = none)) ∧
      (s.dev.get (FLT_GRP_CTRL_state g) = 2 → ∃ d, exec (.fltGroupEnable m g) s = .next (s.settling d) ∧ d.get (FLT_GRP_CTRL_state g) = 2 ∧
        d.flag (FLT_GRP_CTRL_enable_pending g) = true)) ∧
    (s.dev.fltBound g = true → s.dev.WritesField m (0x80000 + 0x40 * g.val) 0 1 0 → ∃ d, exec (.fltGroupDisable m g) s = .next (s.settling d) ∧
      d.flag (FLT_GRP_CTRL_enable g) = false ∧
      (s.dev.get (FLT_GRP_CTRL_state g) = 1 → d.get (FLT_GRP_CTRL_state g) = 2 ∧ (d.fgroup g).fade = none ∧ (d.fgroup g).held = none)) ∧
    (s.dev.get (FLT_GRP_CTRL_state g) ≠ 2 → exec (.fltGroupOff g) s = .next (s.settling s.dev)) ∧
    (s.dev.laneRuns 3 (g.val / 2) = true → s.dev.get (FLT_GRP_CTRL_state g) = 2 → s.dev.flag (FLT_GRP_CTRL_enable_pending g) = false →
      ∃ d, exec (.fltGroupOff g) s = .next (s.settling d) ∧ d.get (FLT_GRP_CTRL_state g) = 0)

/-- The filter groups. -/
def Obligations.FiltersRunAndSwap : Prop := Rules.SamplesAreFiltered ∧ Rules.SwapsAndFades ∧ Rules.FilterGroupsOpenAndClose

/-! ## Disturbance acquisition -/

/-- The recorder's enable (R311, R313): from OFF it lays the segments out and is READY, or stays OFF with NO_PARTITION; disabled it reaches OFF from READY
and, with its segment FREE again, from ARMED, and is DISABLING while it records. -/
def Rules.RecorderOpensAndCloses : Prop :=
  ∀ (s : State) (m : Master), s.Running →
    (s.dev.WritesField m 0x90000 0 1 1 →
      (s.dev.acqState = 0 → s.dev.flag ACQ_CFG_enable = false →
        let n := s.dev.get ACQ_CFG_n_seg
        let size := s.dev.get (BND_PART_size_mib 1)
        ∃ d, exec (.acqEnable m) s = .next (s.settling d) ∧
          if n = 0 ∨ size / n = 0 then d.acqState = 0 ∧ d.get ACQ_STATUS_arm_result = 8 ∧ d.flag ACQ_CFG_enable = false
          else d.acqState = 1 ∧ d.flag ACQ_CFG_enable = true ∧ d.get ACQ_SEGSZ_n_seg = n ∧ d.get ACQ_SEGSZ_seg_mib = size / n ∧
            ∀ k < 64, d.get (ACQ_SEG_state k) = if s.dev.get ACQ_SEGSZ_n_seg = n ∧ s.dev.get (ACQ_SEG_state k) = 3 then 3 else 0) ∧
      (s.dev.acqState = 4 → ∃ d, exec (.acqEnable m) s = .next (s.settling d) ∧ d.acqState = 4 ∧ d.flag ACQ_STATUS_enable_pending = true)) ∧
    (s.dev.WritesField m 0x90000 0 1 0 → s.dev.flag ACQ_CFG_enable = true → s.dev.flag ACQ_STATUS_enable_pending = false →
      ∃ d, exec (.acqDisable m) s = .next (s.settling d) ∧ d.flag ACQ_CFG_enable = false ∧
        (s.dev.acqState = 1 → d.acqState = 0) ∧ (s.dev.acqState = 2 → d.acqState = 0 ∧ d.get (ACQ_SEG_state s.dev.acqSeg) = 0) ∧
        (s.dev.acqState = 3 → d.acqState = 4 ∧ d.acq = s.dev.acq))

/-- The commands of the recorder (R311, R313, R314, R319): ARM arms the lowest FREE segment with its tracks from now, or is refused with its code and
source 63; DISARM frees the armed segment, or keeps a running record from rearming; FORCE is kept with its time; FREE empties a COMPLETE segment;
CLEAR_CNT clears the counters. -/
def Rules.RecorderCommands : Prop :=
  ∀ (s : State) (m : Master), s.Running →
    (s.dev.Writes m 0x90010 1 → s.dev.get ACQ_SEGSZ_n_seg ≤ 64 →
      (armCode s.dev ≠ 0 → ∃ y, exec (.acqArm m) s = .next (s.settling (raise 63 y)) ∧ y.get ACQ_STATUS_arm_result = armCode s.dev ∧
        s.dev.SameBut (fun k => k = ACQ_STATUS.key) y) ∧
      (armCode s.dev = 0 → ∃ d k, s.dev.segFree = some k ∧ exec (.acqArm m) s = .next (s.settling d) ∧ d.acqState = 2 ∧ d.acqSeg = k ∧ d.get (ACQ_SEG_state k) = 1 ∧
        d.get ACQ_STATUS_arm_result = 0 ∧ d.acq.tArm = s.dev.now ∧ d.acq.tracks = s.dev.acqTracks s.dev.now ∧ d.acq.recd = none)) ∧
    (s.dev.Writes m 0x90010 2 →
      (s.dev.acqState = 2 → ∃ d, exec (.acqDisarm m) s = .next (s.settling d) ∧ d.acqState = 1 ∧ d.get (ACQ_SEG_state s.dev.acqSeg) = 0 ∧ d.acq.tracks = []) ∧
      (s.dev.acqState = 3 → exec (.acqDisarm m) s = .next (s.settling { s.dev with acq := { s.dev.acq with disarm := true } })) ∧
      (s.dev.acqState ≠ 2 → s.dev.acqState ≠ 3 → exec (.acqDisarm m) s = .next (s.settling s.dev))) ∧
    (s.dev.Writes m 0x90010 3 → exec (.acqForce m) s = .next (s.settling (if s.dev.acqActive then { s.dev with acq := { s.dev.acq with forces := s.dev.acq.forces ++ [s.dev.now] } } else s.dev))) ∧
    (∀ k : Fin 64, s.dev.Writes m 0x90010 (4 + 16 * k.val) →
      (s.dev.get (ACQ_SEG_state k) = 0 → exec (.acqFree m k) s = .next (s.settling s.dev)) ∧
      (s.dev.get (ACQ_SEG_state k) = 3 → ∃ d, exec (.acqFree m k) s = .next (s.settling d) ∧ d.get (ACQ_SEG_state k) = 0 ∧ d.acq = s.dev.acq ∧
        d.get ACQ_STATUS_arm_result = s.dev.get ACQ_STATUS_arm_result) ∧
      (s.dev.get (ACQ_SEG_state k) ≠ 0 → s.dev.get (ACQ_SEG_state k) ≠ 3 → ∃ d, exec (.acqFree m k) s = .next (s.settling d) ∧
        d.get ACQ_STATUS_arm_result = 7 ∧ s.dev.SameBut (fun j => j = ACQ_STATUS.key) d)) ∧
    (s.dev.Writes m 0x90010 5 → ∃ d, exec (.acqClearCnt m) s = .next (s.settling d) ∧
      (∀ f ∈ [ACQ_RECORDS, ACQ_TRIG_EARLY, ACQ_TRIG_LATE, ACQ_TRIG_BUSY, ACQ_FULL, ACQ_SKIP], d.get f = 0) ∧
      s.dev.SameBut (fun k => k ∈ [ACQ_RECORDS.key, ACQ_TRIG_EARLY.key, ACQ_TRIG_LATE.key, ACQ_TRIG_BUSY.key, ACQ_FULL.key, ACQ_SKIP.key]) d)

/-- While ARMED the pre-trigger part is full at t_arm + pre_ms (R316). A lane takes its oldest value after those it skipped, which are counted (R310), and
the RAW track of its channel forms its next entry (R309). -/
def Rules.RecorderTakesValues : Prop :=
  ∀ s : State, s.Running →
    (s.dev.acqState ≠ 2 → exec .acqPreFull s = .next (s.settling s.dev)) ∧
    (s.dev.acqState = 2 →
      let t := s.dev.acq.tArm + s.dev.acqPre
      let x := passTo t s.dev
      (x.now < t → exec .acqPreFull s = .next (s.settling x)) ∧
      (t ≤ x.now → ∃ d, exec .acqPreFull s = .next (s.settling d) ∧ d.flag ACQ_STATUS_pre_full = true ∧ x.SameBut (fun k => k = ACQ_STATUS.key) d)) ∧
    (∀ skip : Nat, ∃ d, exec (.acqValueTake skip) s = .next (s.settling d) ∧
      let lost := min skip s.dev.acq.inbox.length
      d.acq.inbox = (s.dev.acq.inbox.drop lost).tail ∧ d.get ACQ_SKIP = min (s.dev.get ACQ_SKIP + lost) 4294967295 ∧
      (∀ (v : AcqIn) (j : Nat) (t : AcqTrack), (s.dev.acq.inbox.drop lost).head? = some v → s.dev.acqState = 2 → s.dev.acq.recd = none →
        s.dev.acq.tracks[j]? = some t → t.chan ∈ s.dev.acqChannels → s.dev.laneRuns 4 (t.chan / 32) = true →
        s.dev.get (ACQ_CH0_type t.chan) = v.ty → s.dev.get (ACQ_CH0_index t.chan) = v.idx → t.red = 0 → t.n = 1 → t.ended = false → t.cur = none →
        t.rate = v.rate → t.fnom = v.fnom → t.cnt = 0 → v.k = t.first + t.count → ∃ u, d.acq.tracks[j]? = some u ∧ u.count = t.count + 1))

/-- A trigger step is evaluated once its instant has come (R317, R319). With no event, FORCE or TIME condition it changes nothing. With a FORCE, or an event that
fires for a term whose qualifiers hold, an ARMED recorder whose pre-trigger part is full records from the step's start; before that the trigger is
counted in ACQ_TRIG_EARLY, and while a record runs in ACQ_TRIG_BUSY. -/
def Rules.TriggerStepsAreEvaluated : Prop :=
  ∀ s : State, s.Running →
    (s.dev.acqActive = false → exec .triggerStepEval s = .next (s.settling s.dev)) ∧
    (s.dev.acqActive = true →
      let i := s.dev.acq.nextStep
      let a := s.dev.stepStart i
      let b := s.dev.stepStart (i + 1)
      let x := passTo (s.dev.stepDue i) s.dev
      s.dev.stepOf ((s.dev.now - s.dev.acqSettle : Nat) : Int) ≤ i + 1 → (∀ k < 32, s.dev.get (ACQ_COND0_kind k) ≠ 7) →
      (x.now < s.dev.stepDue i → exec .triggerStepEval s = .next (s.settling x)) ∧
      (s.dev.stepDue i ≤ x.now → s.dev.acq.events = [] → s.dev.acq.forces = [] →
        exec .triggerStepEval s = .next (s.settling { x with acq := { x.acq with nextStep := i + 1 } })) ∧
      (s.dev.stepDue i ≤ x.now →
        ((∃ t ∈ s.dev.acq.forces, t < b) ∨ ∃ e t, s.dev.acq.events = [e] ∧ e.time < (b : Int) ∧ e.fires = true ∧ e.cond < 32 ∧ t < 8 ∧
          bitAt (s.dev.get (ACQ_TERM_T t)) e.cond = true ∧ s.dev.get (ACQ_TERM_Q t) &&& setBit s.dev.acq.states e.cond e.state = s.dev.get (ACQ_TERM_Q t)) →
        ∃ d, exec .triggerStepEval s = .next (s.settling d) ∧ d.acq.nextStep = i + 1 ∧
          (s.dev.acqState ≠ 2 → d.get ACQ_TRIG_BUSY = min (s.dev.get ACQ_TRIG_BUSY + 1) 4294967295 ∧ d.acq.recd = s.dev.acq.recd) ∧
          (s.dev.acqState = 2 → a < s.dev.acq.tArm + s.dev.acqPre → d.acqState = 2 ∧
            d.get ACQ_TRIG_EARLY = min (s.dev.get ACQ_TRIG_EARLY + 1) 4294967295) ∧
          (s.dev.acqState = 2 → s.dev.acq.tArm + s.dev.acqPre ≤ a → d.acqState = 3 ∧ d.get (ACQ_SEG_state s.dev.acqSeg) = 2 ∧
            ∃ r, d.acq.recd = some r ∧ r.tt = a ∧ r.forced = decide (∃ t ∈ s.dev.acq.forces, t < b))))

/-- A record completes when every track has formed its last entry, or at tt + post + tail (R320): its segment is COMPLETE with its sequence number and the
record is counted; the recorder reaches OFF when DISABLING, arms the next FREE segment under rearm, or stays READY with FULL when there is none (R313). -/
def Rules.RecordsComplete : Prop :=
  ∀ s : State, s.Running → s.dev.get ACQ_SEGSZ_n_seg ≤ 64 → s.dev.flag ACQ_STATUS_enable_pending = false →
    (s.dev.acq.recd = none → exec .recordComplete s = .next (s.settling s.dev) ∧ exec .recordTailExpire s = .next (s.settling s.dev)) ∧
    (∀ (i : Instr) (r : AcqRec) (x : Dev), s.dev.acq.recd = some r →
      (i = .recordComplete ∧ x = s.dev ∧ s.dev.acq.tracks.all (fun t => t.done (r.tt + s.dev.acqPost)) = true) ∨
        (i = .recordTailExpire ∧ x = passTo (r.tt + s.dev.acqPost + s.dev.acqTail) s.dev ∧ r.tt + s.dev.acqPost + s.dev.acqTail ≤ x.now) →
      ∃ d, exec i s = .next (s.settling d) ∧ d.get (ACQ_SEG_state s.dev.acqSeg) = 3 ∧ d.get (ACQ_SEG_seq s.dev.acqSeg) = r.seq % 2 ^ (ACQ_SEG_seq s.dev.acqSeg).width ∧
        d.get ACQ_RECORDS = min (s.dev.get ACQ_RECORDS + 1) 4294967295 ∧ d.acq.recd = none ∧
        (s.dev.acqState = 4 → d.acqState = 0) ∧
        (s.dev.acqState ≠ 4 → s.dev.flag ACQ_CFG_rearm = true → s.dev.acq.disarm = false → r.stop = false →
          (d.acqState = 2 ∧ d.acqSeg ≠ s.dev.acqSeg ∧ d.get (ACQ_SEG_state d.acqSeg) = 1 ∧ d.acq.tArm = x.now) ∨
          (d.acqState = 1 ∧ d.get ACQ_STATUS_arm_result = 6 ∧ ∀ k < s.dev.get ACQ_SEGSZ_n_seg, d.get (ACQ_SEG_state k) ≠ 0)) ∧
        (s.dev.acqState ≠ 4 → s.dev.flag ACQ_CFG_rearm = false ∨ s.dev.acq.disarm = true ∨ r.stop = true → d.acqState = 1)) ∧
    (∀ r, s.dev.acq.recd = some r → ¬s.dev.Reaches (r.tt + s.dev.acqPost + s.dev.acqTail) →
      exec .recordTailExpire s = .next (s.settling (passTo (r.tt + s.dev.acqPost + s.dev.acqTail) s.dev))) ∧
    (∀ r, s.dev.acq.recd = some r → s.dev.acq.tracks.all (fun t => t.done (r.tt + s.dev.acqPost)) = false → exec .recordComplete s = .next (s.settling s.dev))

/-- The recorder's configuration and commands. -/
def Obligations.RecorderIsCommanded : Prop := Rules.RecorderOpensAndCloses ∧ Rules.RecorderCommands

/-- The taking of a record. -/
def Obligations.RecordsAreTaken : Prop := Rules.RecorderTakesValues ∧ Rules.TriggerStepsAreEvaluated ∧ Rules.RecordsComplete

/-! ## The scheduler and the engines -/

/-- The oldest trigger makes a task for every instance that matches it, placed in its ready list, and after each the tasks are placed on engines (R172, R177, R178).
A stopped scheduler looks at no descriptor (R16).
A descriptor that a host submits is checked; a good one is counted and becomes a task of its level, a bad one is refused with its code (R175, R176). -/
def Rules.TasksAreCreated : Prop :=
  ∀ s : State, s.Running →
    (s.dev.sch.inbox = [] → exec .taskCreate s = .next (s.settling s.dev)) ∧
    (∀ g gs, s.dev.sch.inbox = g :: gs → s.dev.blockRuns 57 = true →
      let is := (List.range 1024).filter (fun i => s.dev.instMatches i g)
      (∃ d, exec .taskCreate s = .next (s.settling d) ∧ d.sch.inbox = gs ∧ d.sch.next = s.dev.sch.next + is.length) ∧
      (is = [] → exec .taskCreate s = .next (s.settling { s.dev with sch := { s.dev.sch with inbox := gs } })) ∧
      (∀ i, is = [i] → ∃ y, exec .taskCreate s = .next (s.settling (schPlace y)) ∧ y.sch.engines = s.dev.sch.engines ∧
        ((s.dev.ready (s.dev.instTask i g).prio).length < 1024 →
          y.ready (s.dev.instTask i g).prio = insertTask (s.dev.instTask i g) (s.dev.ready (s.dev.instTask i g).prio)))) ∧
    (∀ (m : Master) (v : BitVec 32), s.dev.Writes m 0xA002C v.toNat →
      let bs := ((List.range 7).map (fun i => toLe 4 (s.dev.get (SCH_SUBMIT m i)))).flatten ++ toLe 4 v.toNat
      let p := byteAt bs 2
      (s.dev.blockRuns 57 = false → ∃ d, exec (.taskSubmit m v) s = .next (s.settling d) ∧ d.sch = s.dev.sch ∧
        d.get (SCH_SUBMIT_STAT_accepted m) = s.dev.get (SCH_SUBMIT_STAT_accepted m)) ∧
      (s.dev.blockRuns 57 = true → submitCode bs s.dev ≠ 0 → ∃ d, exec (.taskSubmit m v) s = .next (s.settling d) ∧ d.get (SCH_SUBMIT_STAT_result m) = submitCode bs s.dev ∧ d.sch = s.dev.sch) ∧
      (s.dev.blockRuns 57 = true → submitCode bs s.dev = 0 → ∃ y t, exec (.taskSubmit m v) s = .next (s.settling (schPlace y)) ∧ y.get (SCH_SUBMIT_STAT_result m) = 0 ∧
        y.get (SCH_SUBMIT_STAT_accepted m) = (s.dev.get (SCH_SUBMIT_STAT_accepted m) + 1) % 65536 ∧ y.sch.next = s.dev.sch.next + 1 ∧
        y.ready p = insertTask t (s.dev.ready p) ∧ t.kernel = leAt bs 0 2 ∧ t.prio = p ∧ t.host = true ∧ t.inst = leAt bs 4 2 ∧
        t.affinity = leAt bs 6 2 ∧ t.ref = leAt bs 8 8 ∧ t.deadline = leAt bs 16 8 ∧ t.paramOff = leAt bs 24 4 ∧ t.paramLen = leAt bs 28 2 ∧
        t.ready = s.dev.now ∧ t.no = s.dev.sch.next))

/-- A prefetched task is staged with its parameter block and its task frame (R167), starts on its idle engine that is ONLINE before its deadline, and ends there, its result
going to DET (R178, R179, R183). -/
def Rules.TasksRun : Prop :=
  ∀ (s : State) (e : Fin 16), s.Running → s.dev.blockRuns 57 = true →
    ((s.dev.eng e).prefetch = none → exec (.stagingComplete e) s = .next (s.settling s.dev) ∧ exec (.taskStart e) s = .next (s.settling s.dev)) ∧
    ((s.dev.eng e).running = none → exec (.taskEnd e) s = .next (s.settling s.dev)) ∧
    (∀ t, (s.dev.eng e).prefetch = some t →
      (t.staged = true → exec (.stagingComplete e) s = .next (s.settling s.dev)) ∧
      (t.staged = false → ∃ d u, exec (.stagingComplete e) s = .next (s.settling d) ∧ d.eng e = { s.dev.eng e with prefetch := some u, stage := u.localFrame e } ∧ u.staged = true ∧ u.no = t.no ∧
        u.stateReset = (!t.host && s.dev.sch.resets.contains t.inst) ∧
        u.params = memReadN s.dev.win (0x1100000 + (if t.host then t.paramOff else 4 * s.dev.get (SCH_INST2_param_off t.inst)))
          (if t.host then t.paramLen else 4 * s.dev.get (SCH_INST2_param_len t.inst))) ∧
      (t.staged = false ∨ s.dev.online e = false ∨ (s.dev.eng e).running ≠ none → exec (.taskStart e) s = .next (s.settling s.dev)) ∧
      (t.staged = true → s.dev.online e = true → (s.dev.eng e).running = none →
        (s.dev.now < t.deadline → ∃ y, exec (.taskStart e) s = .next (s.settling (schPlace y)) ∧ (y.eng e).prefetch = none ∧
          (let u := { t with start := s.dev.now, startTick := s.dev.time.elapsed, runLimit := s.dev.get SCH_CFG_run_limit_ms, recEn := s.dev.flag SCH_CFG_rec_en, recQueue := s.dev.get SCH_CFG_queue };
            (y.eng e).running = some u ∧ (y.eng e).frame = u.localFrame e) ∧ (y.eng e).stage = [] ∧ (y.eng e).started = (s.dev.eng e).started + 1 ∧
          y.get (SCH_ENG_CTRL_run_kind e) = if t.host then 2 else 1) ∧
        (t.deadline ≤ s.dev.now → ∃ y, exec (.taskStart e) s = .next (s.settling (schPlace y)) ∧ y.eng e = { s.dev.eng e with prefetch := none } ∧
          y.get SCH_OVERRUN = min (s.dev.get SCH_OVERRUN + 1) 4294967295))) ∧
    (∀ t, (s.dev.eng e).running = some t →
      let k := kernelRun e t s.dev
      ∃ d, exec (.taskEnd e) s = .next (s.settling d) ∧ (d.eng e).running = none ∧
        (k.1.outcome = 4 → d.get SCH_GONE = min (k.2.get SCH_GONE + 1) 4294967295) ∧
        (k.1.outcome = 5 → d.get SCH_DENIED = min (k.2.get SCH_DENIED + 1) 4294967295) ∧
        (∀ r, k.1.outcome ≠ 4 → k.1.outcome ≠ 5 → t.host = false → k.1.result = some r → k.2.get (SCH_INST_CTRL_state t.inst) ≠ 2 →
          d.det.inbox = k.2.det.inbox ++ [r]))

/-- At the earliest deadline of the tasks that have not started, every task whose deadline has come ends as an overrun and waits no longer (R180). A
running task that exceeds run_limit_ms as it stood at its start faults its engine with RUN_LIMIT (R181). -/
def Rules.TasksOverrun : Prop :=
  ∀ s : State, s.Running →
    (s.dev.blockRuns 57 = true →
      let ts := (List.range 8).flatMap s.dev.ready ++ (List.range 16).filterMap (fun e => (s.dev.eng e).prefetch)
      (ts = [] → exec .taskOverrun s = .next (s.settling s.dev)) ∧
      (∀ due, (∃ t ∈ ts, t.deadline = due) → (∀ t ∈ ts, due ≤ t.deadline) →
        let x := passTo due s.dev
        (x.now < due → exec .taskOverrun s = .next (s.settling x)) ∧
        (due ≤ x.now → ∃ d, exec .taskOverrun s = .next (s.settling d) ∧ (∀ p < 8, ∀ t ∈ d.ready p, x.now < t.deadline) ∧
          ∀ e < 16, ∀ t, (d.eng e).prefetch = some t → x.now < t.deadline))) ∧
    (∀ e : Fin 16, (s.dev.eng e).running = none → exec (.taskRunLimit e) s = .next (s.settling s.dev)) ∧
    (∀ (e : Fin 16) (t : Task), (s.dev.eng e).running = some t →
      let due := t.startTick + 4000000 * t.runLimit
      let x := passElapsed (due + 1) s.dev
      (x.time.elapsed ≤ due → exec (.taskRunLimit e) s = .next (s.settling x)) ∧
      (due < x.time.elapsed → x.get (SCH_ENG_CTRL_state e) = 1 ∨ x.get (SCH_ENG_CTRL_state e) = 2 → ∃ d, exec (.taskRunLimit e) s = .next (s.settling d) ∧
        (d.eng e).running = none ∧ (d.eng e).prefetch = none ∧ d.get (SCH_ENG_CTRL_state e) = 3 ∧ d.get (SCH_ENG_CTRL_last_fault e) = 4))

/-- Engines (R181, R182). A fault of an engine that is ONLINE or DISABLING aborts its task, returns the prefetched one, is counted with its code and
starts self-test; self-test leads to ONLINE or FAILED. After lock, an enable at OFF and a retest at FAILED start self-test, unless it failed on FABRIC; a disable at
ONLINE returns the prefetched task and reaches OFF once no task runs; in DISABLING and SELFTEST an enable is noted. -/
def Rules.EnginesChangeState : Prop :=
  ∀ (s : State) (e : Fin 16), s.Running → s.dev.flag (SCH_ENG_CTRL_enable_pending e) = false →
    let st := s.dev.get (SCH_ENG_CTRL_state e)
    (∀ code : Fin 3,
      (st = 0 ∨ st = 4 ∨ (st = 3 ∧ code ≠ 0) → exec (.engineFault e code) s = .next (s.settling s.dev)) ∧
      (st = 3 → code = 0 → ∃ d, exec (.engineFault e code) s = .next (s.settling d) ∧ d.get (SCH_ENG_CTRL_state e) = 4 ∧ d.get (SCH_ENG_CTRL_last_fault e) = 1) ∧
      (st = 1 ∨ st = 2 → ∃ d, exec (.engineFault e code) s = .next (s.settling d) ∧ d.get (SCH_ENG_CTRL_state e) = 3 ∧ (d.eng e).running = none ∧
        (d.eng e).prefetch = none ∧ d.get (SCH_ENG_CTRL_last_fault e) = code.val + 1 ∧
        d.get (SCH_ENG_FAULTS e) = min (s.dev.get (SCH_ENG_FAULTS e) + 1) 4294967295)) ∧
    (∀ pass : Bool, (st ≠ 3 → exec (.selftestDone e pass) s = .next (s.settling s.dev)) ∧
      (st = 3 → ∃ d, exec (.selftestDone e pass) s = .next (s.settling d) ∧ d.get (SCH_ENG_CTRL_state e) = if pass then 1 else 4)) ∧
    (∀ m : Master, s.dev.bndLocked = true →
      (s.dev.WritesField m (0xA1000 + 0x40 * e.val) 0 1 1 → ∃ d, exec (.engineEnable m e) s = .next (s.settling d) ∧ d.flag (SCH_ENG_CTRL_enable e) = true ∧
        d.get (SCH_ENG_CTRL_state e) = (if st = 0 then 3 else st) ∧ (st = 2 ∨ st = 3 → d.flag (SCH_ENG_CTRL_enable_pending e) = true)) ∧
      (s.dev.WritesField m (0xA1000 + 0x40 * e.val) 0 1 0 → ∃ d, exec (.engineDisable m e) s = .next (s.settling d) ∧ d.flag (SCH_ENG_CTRL_enable e) = false ∧
        (st = 1 → (d.eng e).prefetch = none ∧ d.get (SCH_ENG_CTRL_state e) = if (s.dev.eng e).running = none then 0 else 2)) ∧
      (s.dev.WritesField m (0xA1000 + 0x40 * e.val) 5 1 1 → st = 4 → ∃ d, exec (.engineRetest m e) s = .next (s.settling d) ∧
        d.get (SCH_ENG_CTRL_state e) = if (s.dev.eng e).fabric then 4 else 3))

/-- Instances (R173, R174): an enable at OFF is checked, shows its code, and turns a good one ON with state_reset pending; a disable at ON takes all of its
waiting tasks away and reaches OFF, or DISABLING while one runs, and in DISABLING takes an enable that waits back (R467). -/
def Rules.InstancesOpenAndClose : Prop :=
  ∀ (s : State) (m : Master) (i : Fin 1024), s.Running →
    (s.dev.WritesField m (0xA6000 + 4 * i.val) 0 1 1 →
      (s.dev.get (SCH_INST_CTRL_state i) = 0 → ∃ d, exec (.instanceEnable m i) s = .next (s.settling d) ∧
        let c := instCode i s.dev
        d.get SCH_INST_RESULT_index = i.val ∧ d.get SCH_INST_RESULT_code = c ∧ d.get (SCH_INST_CTRL_state i) = (if c = 0 then 1 else 0) ∧
        d.flag (SCH_INST_CTRL_enable i) = decide (c = 0) ∧ (c = 0 → d.sch.resets.contains i.val = true)) ∧
      (s.dev.get (SCH_INST_CTRL_state i) = 2 → ∃ d, exec (.instanceEnable m i) s = .next (s.settling d) ∧ d.get (SCH_INST_CTRL_state i) = 2 ∧
        d.flag (SCH_INST_CTRL_enable_pending i) = true)) ∧
    (s.dev.WritesField m (0xA6000 + 4 * i.val) 0 1 0 → ∃ d, exec (.instanceDisable m i) s = .next (s.settling d) ∧ d.flag (SCH_INST_CTRL_enable i) = false ∧
      (s.dev.get (SCH_INST_CTRL_state i) = 2 → d.get (SCH_INST_CTRL_state i) = 2 ∧ d.flag (SCH_INST_CTRL_enable_pending i) = false) ∧
      (s.dev.get (SCH_INST_CTRL_state i) = 1 →
        (∀ p < 8, ∀ t ∈ d.ready p, t.host = true ∨ t.inst ≠ i.val) ∧
        ((∃ e < 16, ∃ t, (s.dev.eng e).running = some t ∧ t.host = false ∧ t.inst = i.val) → d.get (SCH_INST_CTRL_state i) = 2) ∧
        ((∀ e < 16, ∀ t, (s.dev.eng e).running = some t → t.host = true ∨ t.inst ≠ i.val) → d.get (SCH_INST_CTRL_state i) = 0)))

/-- At each whole second the statistics window closes: its counts are published and begin again (R184). clear_hwm of a ready list sets the
high-water mark to the depth. -/
def Rules.StatisticsOfTheEngines : Prop :=
  ∀ s : State, s.Running →
    (let due := (s.dev.sch.winSec + 1) * 1000000000
    let x := passTo due s.dev
    (x.now < due → exec .schStatsWindow s = .next (s.settling x)) ∧
    (due ≤ x.now → ∃ d, exec .schStatsWindow s = .next (s.settling d) ∧ d.sch.winSec = x.now / 1000000000 ∧ d.sch.winTick = x.time.elapsed ∧
      ∀ e < 16, d.get (SCH_ENG_TASKS e) = (s.dev.eng e).started % 2 ^ 32 ∧ d.get (SCH_ENG_WAIT_MAX e) = min (s.dev.eng e).waitMax (2 ^ 32 - 1) ∧
        d.get (SCH_ENG_DONE e) = (s.dev.eng e).done % 2 ^ (SCH_ENG_DONE e).width ∧ (d.eng e).started = 0 ∧ (d.eng e).waitMax = 0 ∧ (d.eng e).done = 0 ∧
        (d.eng e).running = (s.dev.eng e).running)) ∧
    (∀ (m : Master) (p : Fin 8), s.dev.Writes m (0xA0100 + 8 * p.val) (2 ^ 31) → ∃ d, exec (.lvlClearHwm m p) s = .next (s.settling d) ∧
      d.get (SCH_LVL_DEPTH_hwm p) = s.dev.get (SCH_LVL_DEPTH_depth p) ∧ s.dev.SameBut (fun k => k = (SCH_LVL_DEPTH p).key) d)

/-- DET decides alarms (R228): after a result of a first run the sixteen points of its instance are active exactly where its bits say; a re-run leaves what is active.
An acknowledged point is no longer unacked, and latched only while it is active, and the same of every point of an acknowledged class (R230). -/
def Rules.AlarmsAreDecided : Prop :=
  ∀ s : State, s.Running →
    (s.dev.det.inbox = [] → exec .detResult s = .next (s.settling s.dev)) ∧
    (∀ r rs, s.dev.det.inbox = r :: rs → r.inst < 1024 → r.cls ≤ 11 → r.signal = false → ∃ d, exec .detResult s = .next (s.settling d) ∧ d.det.inbox = rs ∧
      ∀ b < 16, bitAt (d.ast (16 * r.inst + b)) 0 = if r.rerun then bitAt (s.dev.ast (16 * r.inst + b)) 0 else bitAt r.bits b) ∧
    (∀ (m : Master) (p : Fin 16384), s.dev.Writes m 0xB0004 (1 + 16 * p.val) → ∃ d, exec (.ackPoint m p) s = .next (s.settling d) ∧
      bitAt (d.ast p) 0 = bitAt (s.dev.ast p) 0 ∧ bitAt (d.ast p) 1 = (bitAt (s.dev.ast p) 1 && bitAt (s.dev.ast p) 0) ∧ bitAt (d.ast p) 2 = false ∧
      (∀ q < 16384, q ≠ p.val → d.ast q = s.dev.ast q) ∧ d.get DET_SEQ = (s.dev.get DET_SEQ + 1) % 2 ^ 32) ∧
    (∀ (m : Master) (c : Fin 16), s.dev.Writes m 0xB0004 (2 + 16 * c.val) → c.val ≤ 11 → ∃ d, exec (.ackClass m c) s = .next (s.settling d) ∧
      (∀ q < 16384, d.ast q = if bits (s.dev.ast q) 6 4 = c.val then ackEntry (s.dev.ast q) else s.dev.ast q) ∧
      d.get DET_SEQ = (s.dev.get DET_SEQ + 1) % 2 ^ 32)

/-- Pending points that have waited for confirm_ms resolve as UNVERIFIED and are pending no longer (R232). Notice frames that are due are repeated at their port by an acting unit, or
counted as not sent where the unit does not act, and wait for another millisecond or no longer (R235, R236). -/
def Rules.AlarmsWaitAndRepeat : Prop :=
  ∀ s : State, s.Running →
    ((∀ x ∈ s.dev.det.pend, x.until_ = none) → exec .confirmTimeout s = .next (s.settling s.dev)) ∧
    (∀ due, (∃ x ∈ s.dev.det.pend, x.until_ = some due) → (∀ x ∈ s.dev.det.pend, ∀ u, x.until_ = some u → due ≤ u) →
      let z := passTo due s.dev
      (z.now < due → exec .confirmTimeout s = .next (s.settling z)) ∧
      (due ≤ z.now → ∃ d, exec .confirmTimeout s = .next (s.settling d) ∧ d.det.pend = s.dev.det.pend.filter (fun x => decide (x.until_ ≠ some due)) ∧
        ∀ x ∈ s.dev.det.pend, x.until_ = some due → x.current = true → x.point < 16384 → bits (d.ast x.point) 4 2 = 3)) ∧
    (s.dev.det.repeats = [] → exec .noticeRepeat s = .next (s.settling s.dev)) ∧
    (∀ due, (∃ x ∈ s.dev.det.repeats, x.due = due) → (∀ x ∈ s.dev.det.repeats, due ≤ x.due) →
      let z := passTo due s.dev
      (z.now < due → exec .noticeRepeat s = .next (s.settling z)) ∧
      (due ≤ z.now → ∃ d, exec .noticeRepeat s = .next (s.settling d) ∧ (∀ x ∈ d.det.repeats, due < x.due) ∧
        (∀ x ∈ s.dev.det.repeats, x.due = due → 1 < x.left → { x with left := x.left - 1, due := due + 1000000 } ∈ d.det.repeats) ∧
        (s.dev.acting = true → ∀ x ∈ s.dev.det.repeats, x.due = due → s.dev.portSends x.port = true → s.dev.xingDead (1 + x.port) = false →
          ∃ it ∈ (d.port x.port).current.toList ++ (d.port x.port).suspended.toList ++ (d.port x.port).express, it.kind = .alarm ∧ it.bytes = x.bytes) ∧
        (s.dev.acting = false → d.get DET_NOTICE_NOT_SENT =
          min (s.dev.get DET_NOTICE_NOT_SENT + (s.dev.det.repeats.filter (fun x => decide (x.due = due))).length) 4294967295)))

/-- The tasks of the scheduler. -/
def Obligations.TasksRunOnTheEngines : Prop := Rules.TasksAreCreated ∧ Rules.TasksRun ∧ Rules.TasksOverrun

/-- The analysis engines and the instances. -/
def Obligations.EnginesAndInstances : Prop := Rules.EnginesChangeState ∧ Rules.InstancesOpenAndClose ∧ Rules.StatisticsOfTheEngines

/-- The alarms of the detectors. -/
def Obligations.AlarmsOfTheDetectors : Prop := Rules.AlarmsAreDecided ∧ Rules.AlarmsWaitAndRepeat

/-! ## The logic engine -/

/-- One cycle of a RUNNING or STOPPING engine (R245, R246): it takes its INPUT, executes its program once, and delivers the whole output image, and the cycle is
counted with its time in TBC ticks; a cycle that reaches watchdog_us halts the engine with cause WATCHDOG instead. No other engine runs a cycle. A step of the
counter that waits takes effect before the cycle (log entry 1). -/
def Rules.LogicCycle : Prop :=
  ∀ (s : State) (ns xns : Nat), s.Running →
    (s.dev.get LGE_STAT_state ≠ 2 → s.dev.get LGE_STAT_state ≠ 3 → exec (.leCycle ns xns) s = .next (s.settling s.dev)) ∧
    (s.dev.get LGE_STAT_state = 2 ∨ s.dev.get LGE_STAT_state = 3 →
      (s.dev.tbcRuns = true → s.dev.get LGE_CFG_watchdog_us * 1000 ≤ s.dev.ticked ns → ∃ d, exec (.leCycle ns xns) s = .next (s.settling d) ∧ d.get LGE_STAT_state = 4 ∧ d.get LGE_STAT_halt_cause = 2 ∧
        d.le.outOk = false ∧ d.le.dout = 0) ∧
      (∀ u, u = counterStepAll s.dev → (s.dev.time.pending = none → u = s.dev) ∧
        (s.dev.ticked ns < s.dev.get LGE_CFG_watchdog_us * 1000 → u.pwr.shut ≠ 1 → u.bnd.releasing = false →
        let z := leExecute (cycleInput u)
        ∃ d, exec (.leCycle ns xns) s = .next (s.settling d) ∧ d.le.output = z.le.output ∧ (∀ i < 2064, d.get (LGE_OUT i) = memLe z.le.output (4 * i) 4) ∧
          d.le.trig = memLe z.le.output 8 4 ∧ d.get LGE_CYC_LAST = min (s.dev.ticked ns) (2 ^ 32 - 1) ∧ d.get LGE_CYC_COUNT = (u.get LGE_CYC_COUNT + 1) % 2 ^ 32 ∧
          d.le.cycle = (u.le.cycle + 1) % 2 ^ 32)))

/-- What halts the logic engine (R243, R244, R246): in STARTING, RUNNING or STOPPING a lockstep mismatch and an ECC error, and in RUNNING or STOPPING the watchdog while TBC runs, lead to
HALTED with their cause, an error with its instruction index, and disarm an exchange with CANCELLED; in every other state they do nothing. -/
def Rules.LogicEngineHalts : Prop :=
  ∀ (s : State) (i : Instr) (cause pc : Nat), s.Running →
    (∃ w : BitVec 32, i = .lockstepMismatch w ∧ cause = 1 ∧ pc = w.toNat) ∨ (i = .leWatchdog ∧ cause = 2 ∧ pc = 0) ∨
      (∃ w : BitVec 32, i = .leEccError w ∧ cause = 3 ∧ pc = w.toNat) →
    let st := s.dev.get LGE_STAT_state
    let halts := ((st = 2 ∨ st = 3) ∧ (cause ≠ 2 ∨ s.dev.tbcRuns = true)) ∨ (st = 1 ∧ cause ≠ 2)
    (¬halts → exec i s = .next (s.settling s.dev)) ∧
    (halts → ∃ d, exec i s = .next (s.settling d) ∧ d.get LGE_STAT_state = 4 ∧ d.get LGE_STAT_halt_cause = cause ∧ (cause ≠ 2 → d.get LGE_HALT_PC_value = pc % 65536) ∧
      d.flag LGE_PROG_STAT_armed = false ∧ d.flag LGE_STAT_start_pending = false ∧ d.le.outOk = false ∧ d.le.dout = 0 ∧
      (s.dev.flag LGE_PROG_STAT_armed = true → d.get LGE_PROG_STAT_swap_result = 3))

/-- Starts and stops (R256-R258): a start acts in STOPPED, with the bank that LGE_CFG names (log entry 172), and in HALTED, with the active one (log entry 57), waits in STOPPING, and is discarded elsewhere; a STOP moves a RUNNING engine to
STOPPING, and in WAIT to STOPPED at once. STARTING ends RUNNING on a bank that verifies, STOPPED on one that does not, and HALTED when self-test fails. -/
def Rules.LogicEngineStartsAndStops : Prop :=
  ∀ s : State, s.Running →
    (∀ (m : Master) (i : Instr) (warm : Bool), (i = .leStartWarm m ∧ warm = true) ∨ (i = .leStartCold m ∧ warm = false) →
      s.dev.Writes m 0xC0000 (if warm then 1 else 2) →
      let st := s.dev.get LGE_STAT_state
      (st = 1 ∨ st = 2 → exec i s = .next (s.settling s.dev)) ∧
      (st = 3 → ∃ d, exec i s = .next (s.settling d) ∧ d.get LGE_STAT_state = 3 ∧ d.flag LGE_STAT_start_pending = true ∧ d.le = { s.dev.le with pendWarm := warm }) ∧
      (st = 0 ∨ st = 4 → s.dev.leHeld = true → exec i s = .next (s.settling s.dev)) ∧
      (st = 0 ∨ st = 4 → s.dev.leHeld = false → ∃ d, exec i s = .next (s.settling d) ∧ d.get LGE_STAT_state = 1 ∧ d.get LGE_STAT_halt_cause = 0 ∧
        d.get LGE_STAT_bank = (if st = 4 then s.dev.get LGE_STAT_bank else s.dev.get LGE_CFG_bank) ∧
        d.le = { s.dev.le with warmStart := warm, fromHalt := st == 4 })) ∧
    (∀ (m : Master) (inWait : Bool), s.dev.Writes m 0xC0000 3 →
      (s.dev.leRunning = false → exec (.leStop m inWait) s = .next (s.settling s.dev)) ∧
      (s.dev.leRunning = true → s.dev.flag LGE_STAT_start_pending = false → ∃ d, exec (.leStop m inWait) s = .next (s.settling d) ∧
        d.get LGE_STAT_state = (if inWait then 0 else 3) ∧ d.flag LGE_PROG_STAT_armed = false ∧
        (inWait = true → d.le.outOk = false ∧ d.le.dout = 0))) ∧
    (∀ ok : Bool,
      (s.dev.get LGE_STAT_state ≠ 1 → exec (.leStartComplete ok) s = .next (s.settling s.dev)) ∧
      (s.dev.get LGE_STAT_state = 1 → s.dev.le.fromHalt = true → ok = false → ∃ d, exec (.leStartComplete ok) s = .next (s.settling d) ∧ d.get LGE_STAT_state = 4 ∧
        d.get LGE_STAT_halt_cause = 5) ∧
      (s.dev.get LGE_STAT_state = 1 → s.dev.le.fromHalt = false ∨ ok = true → s.dev.flag LGE_STAT_start_pending = false →
        let b := s.dev.get LGE_STAT_bank
        let code := (bankVerified b s.dev).1
        ∃ d, exec (.leStartComplete ok) s = .next (s.settling d) ∧ d.get (bankState b) = (if code = 0 then 2 else 3) ∧ d.get LGE_STAT_state = (if code = 0 then 2 else 0) ∧
          (code = 0 → d.get LGE_STAT_bank = b ∧ d.get LGE_CYC_COUNT = 0 ∧ d.le.cycle = 0 ∧ d.le.first = true ∧ d.le.output = [] ∧
            d.get LGE_STAT_last_start = if d.le.wasWarm then 1 else 2))) ∧
    (s.dev.flag BND_STAT_locked = false → exec .startupRestart s = .next (s.settling s.dev)) ∧
    (s.dev.flag BND_STAT_locked = true → s.dev.get CKP_PWR_STAT_step = 7 → ∃ d, exec .startupRestart s = .next (s.settling d) ∧ d.get CKP_PWR_STAT_step = 8 ∧
      let st := s.dev.get LGE_STAT_state
      let a := s.dev.get LGE_CFG_auto_restart
      ((a = 1 ∨ a = 2) → (st = 0 ∨ st = 4) → s.dev.leHeld = false → d.get LGE_STAT_state = 1 ∧ d.le.warmStart = decide (a = 1)) ∧
      (a ≠ 1 → a ≠ 2 → d.get LGE_STAT_state = st))

/-- Programs (R276-R279): VERIFY takes a bank that may be verified, and its end makes the bank VERIFIED or FAILED with its code; SWAP arms an exchange to
a VERIFIED bank, which in WAIT is taken at once, or is refused with its result and source 107; CANCEL disarms one. -/
def Rules.ProgramsAreVerifiedAndExchanged : Prop :=
  ∀ (s : State) (m : Master), s.Running →
    (∀ bank : Fin 2, s.dev.Writes m 0xC0040 (1 + 4 * bank.val) → ∃ d, exec (.progVerify m bank) s = .next (s.settling d) ∧
      let st := s.dev.get LGE_STAT_state
      if s.dev.le.verifying ≠ none then d.get LGE_PROG_STAT_result = 0x0D ∧ d.le = s.dev.le
      else if bank.val = s.dev.get LGE_STAT_bank ∧ st ≠ 0 ∧ st ≠ 4 then d.get LGE_PROG_STAT_result = 0x0E ∧ d.le = s.dev.le
      else d.get (bankState bank) = 1 ∧ d.le = { s.dev.le with verifying := some bank.val }) ∧
    (s.dev.le.verifying = none → exec .progVerifyDone s = .next (s.settling s.dev)) ∧
    (∀ b, s.dev.le.verifying = some b → ∃ d, exec .progVerifyDone s = .next (s.settling d) ∧ d.le.verifying = none ∧
      let code := (progVerifyCode b { s.dev with le := { s.dev.le with verifying := none } }).1
      d.get (bankState b) = (if code = 0 then 2 else 3) ∧ d.get LGE_PROG_STAT_result = code % 256) ∧
    (∀ (inWait : Bool) (xns : Nat), s.dev.Writes m 0xC0000 8 → ∃ d, exec (.progSwap m inWait xns) s = .next (s.settling d) ∧
      if s.dev.leRunning = false then d.get LGE_PROG_STAT_swap_result = 2 ∧ d.le = s.dev.le
      else if s.dev.flag LGE_PROG_STAT_armed = true then d.get LGE_PROG_STAT_swap_result = 4 ∧ d.flag LGE_PROG_STAT_armed = true ∧ d.le = s.dev.le
      else if s.dev.get (bankState (1 - s.dev.get LGE_STAT_bank)) ≠ 2 then d.get LGE_PROG_STAT_swap_result = 1 ∧ d.le = s.dev.le
      else if inWait then d.get LGE_PROG_STAT_swap_result = 0 ∧ d.flag LGE_PROG_STAT_armed = false ∧
        d.get LGE_STAT_bank = 1 - s.dev.get LGE_STAT_bank ∧ d.get2 LGE_XCHG_TIME_LO LGE_XCHG_TIME_HI = s.dev.now
      else d.flag LGE_PROG_STAT_armed = true ∧ d.get LGE_STAT_bank = s.dev.get LGE_STAT_bank ∧ d.le = s.dev.le) ∧
    (s.dev.Writes m 0xC0040 2 →
      (s.dev.flag LGE_PROG_STAT_armed = false → exec (.progCancel m) s = .next (s.settling s.dev)) ∧
      (s.dev.flag LGE_PROG_STAT_armed = true → ∃ d, exec (.progCancel m) s = .next (s.settling d) ∧ d.flag LGE_PROG_STAT_armed = false ∧
        d.get LGE_PROG_STAT_swap_result = 3)) ∧
    (∀ (i : Fin 256) (v : BitVec 32), s.dev.Writes m (0xCC000 + 16 * i.val) v.toNat → ∃ d, exec (.forceWrite m i v) s = .next (s.settling d) ∧
      d.get (LGE_FRC0_id i) = v.toNat % 65536 ∧ d.flag (LGE_FRC0_en i) = decide (2 ^ 31 ≤ v.toNat) ∧
      d.le = { s.dev.le with forcePend := insertKey i.val (s.dev.get (LGE_FRC_LO i), s.dev.get (LGE_FRC_HI i)) s.dev.le.forcePend })

/-- The digital outputs and GOOSE (R251, R253-R255): at every multiple of 50 µs an output that is on toggles, and another is low, and the monitor of a ball that a rising
edge reaches then reads 1 for 150 µs (R482; which balls it reaches is the command's operand, log entry 180); a frame of a subscription is taken with its values
until timeAllowedtoLive elapses, or is a mismatch; a planned retransmission advances sqNum while the engine is
RUNNING or STOPPING. -/
def Rules.OutputsAndGoose : Prop :=
  ∀ s : State, s.Running →
    (∀ balls : BitVec 16,
      let due := s.dev.doutDue
      let x := passTo due s.dev
      (x.now < due → exec (.doutToggle balls) s = .next (s.settling x)) ∧
      (due ≤ x.now → ∃ d, exec (.doutToggle balls) s = .next (s.settling d) ∧
        ∀ n < 16, bitAt d.le.dout n = (x.doutOn n && !bitAt x.le.dout n) ∧
          lookup n d.le.doutRise = (if bitAt balls.toNat n then some x.time.elapsed else lookup n x.le.doutRise) ∧
          (bitAt d.doutMon n = true ↔ ∃ t, lookup n d.le.doutRise = some t ∧ d.time.elapsed ≤ t + 600000))) ∧
    (s.dev.eth.gooseIn = [] → exec .gooseRx s = .next (s.settling s.dev)) ∧
    (∀ f rest, s.dev.eth.gooseIn = f :: rest → s.dev.matchSub f.port (slice f.bytes 0 6) (beAt f.bytes 14 2) = none →
      exec .gooseRx s = .next (s.settling { s.dev with eth := { s.dev.eth with gooseIn := rest } })) ∧
    (∀ f rest b, s.dev.eth.gooseIn = f :: rest → s.dev.matchSub f.port (slice f.bytes 0 6) (beAt f.bytes 14 2) = some b →
      (goosePdu (f.bytes.drop 22) = none → ∃ d, exec .gooseRx s = .next (s.settling d) ∧ d.eth.gooseIn = rest ∧
        d.sub b = { s.dev.sub b with mismatch := true, valid := false }) ∧
      (∀ fs vs, goosePdu (f.bytes.drop 22) = some fs → ((berGet fs 0x87).map (fun v => beAt v 0 v.length)).getD 0 = 0 →
        gooseValues s.dev b fs = some vs → ∃ d, exec .gooseRx s = .next (s.settling d) ∧ d.eth.gooseIn = rest ∧
          (d.sub b).valid = true ∧ (d.sub b).stale = false ∧ (d.sub b).mismatch = false ∧ (d.sub b).vals = vs ∧
          (d.sub b).arrival = natOf (f.stamp / 65536) ∧
          (d.sub b).stNum = ((berGet fs 0x85).map (fun v => beAt v 0 v.length)).getD 0 % 2 ^ 32)) ∧
    (∀ b : Fin 64, (s.dev.sub b).expiry = none → exec (.gooseStale b) s = .next (s.settling s.dev)) ∧
    (∀ (b : Fin 64) (t : Nat), (s.dev.sub b).expiry = some t →
      let x := passTo t s.dev
      (x.now < t → exec (.gooseStale b) s = .next (s.settling x)) ∧
      (t ≤ x.now → ∃ d, exec (.gooseStale b) s = .next (s.settling d) ∧ d.sub b = { s.dev.sub b with valid := false, stale := true, expiry := none })) ∧
    (∀ b : Fin 32, (s.dev.pub b).due = none → exec (.gooseRetransmit b) s = .next (s.settling s.dev)) ∧
    (∀ (b : Fin 32) (t : Nat), (s.dev.pub b).due = some t →
      let x := passTo t s.dev
      (x.now < t ∨ s.dev.leCycles = false ∨ s.dev.pubOn b = false → exec (.gooseRetransmit b) s = .next (s.settling x)) ∧
      (t ≤ x.now → s.dev.leCycles = true → s.dev.pubOn b = true → ∃ d, exec (.gooseRetransmit b) s = .next (s.settling d) ∧
        d.get (LGE_GPUB_SQNUM b) = (if s.dev.get (LGE_GPUB_SQNUM b) + 1 = 2 ^ 32 then 1 else s.dev.get (LGE_GPUB_SQNUM b) + 1) ∧
        (d.pub b).n = (s.dev.pub b).n + 1 ∧ (d.pub b).due = some (t + s.dev.pubInterval b ((s.dev.pub b).n + 1) * 1000000) ∧ (d.pub b).members = (s.dev.pub b).members))

/-- A cycle of the logic engine and what it drives. -/
def Obligations.LogicEngineCycles : Prop := Rules.LogicCycle ∧ Rules.OutputsAndGoose

/-- The states of the logic engine and its programs. -/
def Obligations.LogicEngineIsControlled : Prop := Rules.LogicEngineHalts ∧ Rules.LogicEngineStartsAndStops ∧ Rules.ProgramsAreVerifiedAndExchanged

/-! ## Paired operation -/

/-- Messages that change the pair's state (R292-R296): JOIN makes the winner HOLDER; GRANT moves JOINING to SYNCING, SYNCING to STANDBY where the retained
areas differ (log entry 70), and a SECONDARY HOLDER that an acting PRIMARY grants to JOINING; RELEASE and HANDOVER make a STANDBY HOLDER with a lease (log entry 62); ACK extends the lease
from the send instant of the GRANT it answers and ends ISOLATED. A STANDBY answers a GRANT with an ACK, which waits while the line is busy. -/
def Rules.MessagesMoveThePair : Prop :=
  ∀ (s : State) (rx : SpineRx) (onB : Bool) (bs : List Byte), s.Running →
    let st := s.dev.pairState
    let takes (d : Dev) : Prop := d.pairState = 5 ∧ d.get SPN_TAKES = min (s.dev.get SPN_TAKES + 1) 4294967295
    (MessageArrives 1 rx s.dev onB bs → ∃ d, exec (.spnJoin rx) s = .next (s.settling d) ∧
      let peer := bitAt (byteAt bs 1) 0
      let wins := (s.dev.primary && !peer) || (s.dev.primary == peer && decide (s.dev.get SPN_CFG_unit_id < leAt bs 6 2))
      (st = 2 → wins = true → takes d) ∧ (st ≠ 2 ∨ wins = false → d.pairState = st)) ∧
    (MessageArrives 2 rx s.dev onB bs → ∃ d, exec (.spnGrant rx) s = .next (s.settling d) ∧
      (st = 2 → d.pairState = 3 ∧ d.spn.grantLease = some (leAt (spnBody bs) 0 2)) ∧
      (st = 3 → d.pairState = if leAt (spnBody bs) 4 4 ≠ s.dev.retainIdNow then 4 else 3) ∧
      (st = 4 → d.pairState = 4 ∧
        (onB = true ∨ (s.dev.spn.line = none ∧ s.dev.spn.queue = []) → d.spn.seq = (s.dev.spn.seq + 1) % 2 ^ 32) ∧
        (onB = false → s.dev.spn.line ≠ none → ∃ m, d.spn.queue = s.dev.spn.queue ++ [m] ∧ m.ty = 3 ∧ m.ref = leAt bs 8 4)) ∧
      (st = 5 → d.pairState = if bitAt (byteAt bs 1) 0 && bitAt (byteAt bs 1) 1 && !s.dev.primary then 2 else 5) ∧
      (st < 2 ∨ 5 < st → d.pairState = st)) ∧
    (∀ i, (MessageArrives 4 rx s.dev onB bs ∧ i = .spnRelease rx) ∨ (MessageArrives 6 rx s.dev onB bs ∧ i = .spnHandover rx) → ∃ d, exec i s = .next (s.settling d) ∧
      (st = 4 → takes d ∧ d.flag SPN_STAT_lease_valid = true ∧ d.spn.leaseEnd = some (s.dev.time.elapsed + 4000 * s.dev.leaseUs)) ∧
      (st ≠ 4 → d.pairState = st)) ∧
    (MessageArrives 3 rx s.dev onB bs → ∃ d, exec (.spnAck rx) s = .next (s.settling d) ∧ d.get SPN_PEER_state = byteAt bs 16 % 16 ∧
      (st ≠ 5 → st ≠ 6 → d.pairState = st) ∧
      (∀ t l, st = 5 ∨ st = 6 → lookup (leAt bs 12 4) s.dev.spn.grants = some (t, l) → s.dev.leRunning = true →
        (∀ a, s.dev.spn.ackedAt = some a → a < t) → d.spn.leaseEnd = some (t + 4000 * l) ∧
        d.flag SPN_STAT_lease_valid = decide (s.dev.time.elapsed < t + 4000 * l) ∧
        (s.dev.time.elapsed < t + 4000 * l → d.pairState = 5)))

/-- The other messages (R301, R302): REQUEST asks a SECONDARY HOLDER for a handover; SNAP_REQ makes the next set of a holder hold every block; MIRROR brings
blocks to a SYNCING or STANDBY unit, which has a complete set with the last message where no sequence number is missing within it or just before it (log entry 177); ACKCMD and PUBSYNC act there as a local command and as its own
counters. A path on which one arrives is alive; where none arrives nothing happens. -/
def Rules.MessagesAreTaken : Prop :=
  ∀ (s : State) (rx : SpineRx) (onB : Bool) (bs : List Byte), s.Running →
    let st := s.dev.pairState
    (∀ ty i, (ty, i) ∈ [(1, .spnJoin rx), (2, .spnGrant rx), (3, .spnAck rx), (4, .spnRelease rx), (5, .spnRequest rx), (6, .spnHandover rx),
        (7, .spnMirror rx), (8, .spnSnapReq rx), (9, .spnAckcmd rx), (10, .spnPubsync rx)] →
      (spnTake (fun _ b => byteAt b 0 == ty) rx s.dev = none → exec i s = .next (s.settling s.dev)) ∧
      (MessageArrives ty rx s.dev onB bs → ∃ d, exec i s = .next (s.settling d) ∧ d.flag (pathFld onB) = true ∧ d.get SPN_PEER_unit_id = leAt bs 6 2)) ∧
    (MessageArrives 5 rx s.dev onB bs → ∃ d, exec (.spnRequest rx) s = .next (s.settling d) ∧
      d.spn.handover = (s.dev.spn.handover || (st == 5 && !s.dev.primary))) ∧
    (MessageArrives 8 rx s.dev onB bs → ∃ d, exec (.spnSnapReq rx) s = .next (s.settling d) ∧ d.spn.snapReq = (s.dev.spn.snapReq || st == 5 || st == 6)) ∧
    (MessageArrives 7 rx s.dev onB bs → ∃ d, exec (.spnMirror rx) s = .next (s.settling d) ∧
      (st ≠ 3 → st ≠ 4 → d.spn.sets = s.dev.spn.sets ∧ d.spn.opened = s.dev.spn.opened) ∧
      (let q := leAt bs 8 4
      let cycle := leAt (spnBody bs) 0 4
      let retain := leAt (spnBody bs) 4 4
      let blocks := (List.range (leAt (spnBody bs) 10 2)).map (fun i => (leAt (spnBody bs) 8 2 + i, slice (spnBody bs) (12 + 64 * i) 64))
      let ends (m : MirrorSet) : Prop :=
        if bitAt (byteAt bs 1) 3 then d.spn.opened = none ∧ d.spn.sets = (if m.whole then s.dev.spn.sets ++ [m] else s.dev.spn.sets)
        else d.spn.opened = some m ∧ d.spn.sets = s.dev.spn.sets
      (st = 3 ∨ st = 4 → (∀ o, s.dev.spn.opened = some o → o.cycle ≠ cycle ∨ o.retain ≠ retain) →
        ends { cycle := cycle, retain := retain, blocks := blocks, seq := q,
               whole := (lookup ((q + 2 ^ 32 - 1) % 2 ^ 32) (((q, onB) :: s.dev.spn.seen).take seenKept)).isSome }) ∧
      (st = 3 ∨ st = 4 → ∀ o, s.dev.spn.opened = some o → o.cycle = cycle → o.retain = retain → (q + 2 ^ 32 - o.seq) % 2 ^ 32 = 1 →
        ends { o with blocks := o.blocks ++ blocks, seq := q }))) ∧
    (MessageArrives 9 rx s.dev onB bs → ∃ d, exec (.spnAckcmd rx) s = .next (s.settling d) ∧
      ∀ p < 16384, st = 3 ∨ st = 4 → leAt bs 16 4 = 1 + 16 * p → bitAt (d.ast p) 2 = false ∧ bitAt (d.ast p) 0 = bitAt (s.dev.ast p) 0) ∧
    (MessageArrives 10 rx s.dev onB bs → ∃ d, exec (.spnPubsync rx) s = .next (s.settling d) ∧
      ∀ p < 32, st = 3 ∨ st = 4 → d.get (LGE_GPUB_STNUM p) = leAt bs (16 + 8 * p) 4 ∧ d.get (LGE_GPUB_SQNUM p) = leAt bs (20 + 8 * p) 4)

/-- A message that a receiver discards is counted in SPN_CRC_ERR where its CRC is wrong, and in SPN_FOREIGN where its pair, unit or type is; a later copy is
discarded without a count (R288; how many numbers are kept is log entry 68). The line takes the next message by its rank when one has left, which takes its sequence number then, and a GRANT its send
instant (R287, R292); a lane whose PHY is held sends nothing (R444). GRANT, JOIN and PUBSYNC start at once on a free line, and wait in the queue while one is in transmission. -/
def Rules.MessagesAreDiscardedAndSent : Prop :=
  ∀ s : State, s.Running →
    (∀ rx, spnTake s.dev.spnDiscarded rx s.dev = none → exec (.spineMessageDiscard rx) s = .next (s.settling s.dev)) ∧
    (∀ rx onB bs y, spnTake s.dev.spnDiscarded rx s.dev = some (onB, bs, y) → ∃ d, exec (.spineMessageDiscard rx) s = .next (s.settling d) ∧
      if spnCrcOk bs = false then d.get SPN_CRC_ERR = min (s.dev.get SPN_CRC_ERR + 1) 4294967295 ∧ d.spn = s.dev.spn ∧ d.eth = y.eth
      else if s.dev.spnForeign bs = true then d.get SPN_FOREIGN = min (s.dev.get SPN_FOREIGN + 1) 4294967295 ∧ d.spn = s.dev.spn
      else d.get SPN_FOREIGN = s.dev.get SPN_FOREIGN ∧ d.get SPN_CRC_ERR = s.dev.get SPN_CRC_ERR ∧ d.pairState = s.dev.pairState ∧
        d.spn.seen = s.dev.spn.seen) ∧
    (s.dev.xingDead 8 = true ∨ s.dev.phyHeld 8 = true → ∃ d, exec .spineTxDone s = .next (s.settling d) ∧ d.spn.line = none ∧ d.pairState = s.dev.pairState) ∧
    (s.dev.xingDead 8 = false → s.dev.phyHeld 8 = false → ∃ d, exec .spineTxDone s = .next (s.settling d) ∧
      match spnPick s.dev.spn.queue with
      | some k => ∃ m, s.dev.spn.queue[k]? = some m ∧ d.spn.line = some { m with bytes := s.dev.spnBytes m.ty m.last m.ref m.body } ∧
          d.spn.queue = s.dev.spn.queue.eraseIdx k ∧ d.spn.seq = (s.dev.spn.seq + 1) % 2 ^ 32 ∧
          (m.ty = 2 → (s.dev.spn.seq, (s.dev.time.elapsed, leAt m.body 0 2)) ∈ d.spn.grants)
      | none => d.spn = { s.dev.spn with line := none }) ∧
    (let sent (ty : Nat) (d : Dev) : Prop :=
      (s.dev.spn.line = none → s.dev.spn.queue = [] → d.spn.seq = (s.dev.spn.seq + 1) % 2 ^ 32 ∧ d.spn.queue = []) ∧
      (s.dev.spn.line ≠ none → ∃ m, m.ty = ty ∧ d.spn.queue = s.dev.spn.queue ++ [m])
    (let due := (s.dev.spn.sendLast.map (fun t => t + usTicks (s.dev.leaseUs / 6))).getD 0
    let x := passElapsed due s.dev
    ∀ i, (i = .spnGrantSend ∧ (s.dev.pairState = 5 ∨ s.dev.pairState = 6)) ∨ (i = .spnJoinSend ∧ s.dev.pairState = 2) →
      (¬s.dev.ReachesElapsed due → exec i s = .next (s.settling x)) ∧
      (s.dev.ReachesElapsed due → ∃ d, exec i s = .next (s.settling d) ∧ d.spn.sendLast = some x.time.elapsed ∧ d.pairState = s.dev.pairState ∧
        sent (if i = .spnGrantSend then 2 else 1) d ∧
        (i = .spnGrantSend → s.dev.spn.line = none → s.dev.spn.queue = [] → (s.dev.spn.seq, (x.time.elapsed, s.dev.leaseUs)) ∈ d.spn.grants))) ∧
    (s.dev.pairState ≠ 5 → s.dev.pairState ≠ 6 → exec .spnGrantSend s = .next (s.settling s.dev)) ∧ (s.dev.pairState ≠ 2 → exec .spnJoinSend s = .next (s.settling s.dev)) ∧
    (s.dev.pairState ≠ 5 → exec .spnPubsyncSend s = .next (s.settling s.dev)) ∧
    (s.dev.pairState = 5 →
      let due := (s.dev.sec + 1) * 1000000000
      let x := passTo due s.dev
      (x.now < due → exec .spnPubsyncSend s = .next (s.settling x)) ∧
      (due ≤ x.now → ∃ d, exec .spnPubsyncSend s = .next (s.settling d) ∧ sent 10 d ∧ d.pairState = 5)))

/-- Heartbeat and liveness (R290, R291, R293): an edge at HB_IN marks the peer alive and turns a HOLDER without a lease into ISOLATED (log entry 63); 30 µs without one mark it silent
and end ISOLATED; a Spine path without a message for lease_us + 20 µs is silent (log entry 64). HB_OUT pulses while it runs and was acknowledged. -/
def Rules.HeartbeatsAndPaths : Prop :=
  ∀ s : State, s.Running →
    let st := s.dev.pairState
    (∀ acked : Bool,
      let due := (s.dev.spn.hbOut.map (fun t => t + usTicks 10)).getD 0
      let x := passElapsed due s.dev
      (s.dev.hbRuns = false ∨ acked = false ∨ ¬s.dev.ReachesElapsed due → exec (.heartbeatPulse acked) s = .next (s.settling x)) ∧
      (s.dev.hbRuns = true → acked = true → s.dev.ReachesElapsed due → exec (.heartbeatPulse acked) s = .next (s.settling { x with spn := { x.spn with hbOut := some x.time.elapsed } }))) ∧
    (∃ d, exec .hbInEdge s = .next (s.settling d) ∧ d.hbAlive = true ∧ d.spn.hbIn = some s.dev.time.elapsed ∧
      d.pairState = if s.dev.hbAlive = false ∧ st = 5 ∧ s.dev.flag SPN_STAT_lease_valid = false ∧
        (s.dev.spn.leaseEnd.isSome = true ∨ s.dev.acting = true) then 6 else st) ∧
    (s.dev.spn.hbIn = none → exec .heartbeatSilent s = .next (s.settling s.dev)) ∧
    (∀ t, s.dev.spn.hbIn = some t →
      let x := passElapsed (t + usTicks 30) s.dev
      (s.dev.hbAlive = false ∨ ¬s.dev.ReachesElapsed (t + usTicks 30) → exec .heartbeatSilent s = .next (s.settling x)) ∧
      (s.dev.hbAlive = true → s.dev.ReachesElapsed (t + usTicks 30) → ∃ d, exec .heartbeatSilent s = .next (s.settling d) ∧ d.hbAlive = false ∧ d.pairState = if st = 6 then 5 else st)) ∧
    (∀ path : SpinePath,
      let onB := path == .b
      (s.dev.lastOn onB = none → exec (.spinePathSilent path) s = .next (s.settling s.dev)) ∧
      (∀ t, s.dev.lastOn onB = some t →
        let due := t + usTicks (s.dev.leaseUs + 20)
        let x := passElapsed due s.dev
        (s.dev.flag (pathFld onB) = false ∨ ¬s.dev.ReachesElapsed due → exec (.spinePathSilent path) s = .next (s.settling x)) ∧
        (s.dev.flag (pathFld onB) = true → s.dev.ReachesElapsed due → ∃ d, exec (.spinePathSilent path) s = .next (s.settling d) ∧ d.flag (pathFld onB) = false ∧
          d.flag (pathFld (!onB)) = s.dev.flag (pathFld (!onB)) ∧ d.pairState = st)))

/-- The timers of the pair (R293-R296): a lease that lapses while the peer is alive makes a HOLDER ISOLATED, which does not act; silence of the whole lease and no heartbeat make a
STANDBY HOLDER (log entries 62 and 64); a SYNCING unit without messages returns to JOINING; a JOINING unit that hears nothing for join_ms is HOLDER, and with a heartbeat alone stays. -/
def Rules.TimersOfThePair : Prop :=
  ∀ s : State, s.Running →
    let st := s.dev.pairState
    (s.dev.spn.leaseEnd = none → exec .leaseLapse s = .next (s.settling s.dev)) ∧
    (∀ t, s.dev.spn.leaseEnd = some t → ¬s.dev.ReachesElapsed t → exec .leaseLapse s = .next (s.settling (passElapsed t s.dev))) ∧
    (∀ t, s.dev.spn.leaseEnd = some t → s.dev.ReachesElapsed t → ∃ d, exec .leaseLapse s = .next (s.settling d) ∧ d.flag SPN_STAT_lease_valid = false ∧
      (st = 5 → s.dev.hbAlive = true → d.pairState = 6 ∧ d.acting = false ∧ d.get SPN_LAPSES = min (s.dev.get SPN_LAPSES + 1) 4294967295) ∧
      (st ≠ 5 ∨ s.dev.hbAlive = false → d.pairState = st)) ∧
    (st ≠ 4 → exec .takeOnSilence s = .next (s.settling s.dev)) ∧
    (st = 4 →
      let due := s.dev.lastMsg + usTicks (s.dev.spn.grantLease.getD s.dev.leaseUs + 20)
      (s.dev.hbAlive = true ∨ ¬s.dev.ReachesElapsed due → exec .takeOnSilence s = .next (s.settling (passElapsed due s.dev))) ∧
      (s.dev.hbAlive = false → s.dev.ReachesElapsed due → ∃ d, exec .takeOnSilence s = .next (s.settling d) ∧ d.pairState = 5 ∧ d.acting = true ∧ d.flag SPN_STAT_lease_valid = true ∧
        d.spn.gapRef = some (max s.dev.lastMsg (s.dev.spn.hbIn.getD 0)) ∧ d.get SPN_TAKES = min (s.dev.get SPN_TAKES + 1) 4294967295)) ∧
    (st ≠ 3 → exec .syncTimeout s = .next (s.settling s.dev)) ∧
    (let due := s.dev.lastMsg + usTicks (s.dev.spn.grantLease.getD s.dev.leaseUs + 20)
    (st = 3 → ¬s.dev.ReachesElapsed due → exec .syncTimeout s = .next (s.settling (passElapsed due s.dev))) ∧
    (st = 3 → s.dev.ReachesElapsed due → ∃ d, exec .syncTimeout s = .next (s.settling d) ∧ d.pairState = 2 ∧ d.spn.joinFrom = d.time.elapsed ∧ d.acting = false)) ∧
    (st ≠ 2 → exec .joinTimeout s = .next (s.settling s.dev)) ∧
    (let heard := max (max s.dev.spn.joinFrom s.dev.lastMsg) (if s.dev.hbAlive then 0 else s.dev.spn.hbIn.getD 0)
    let due := heard + usTicks (1000 * s.dev.get SPN_LEASE_join_ms)
    (st = 2 → ¬s.dev.ReachesElapsed due → exec .joinTimeout s = .next (s.settling (passElapsed due s.dev))) ∧
    (st = 2 → s.dev.ReachesElapsed due → ∃ d, exec .joinTimeout s = .next (s.settling d) ∧
      if s.dev.hbAlive then d.pairState = 2 ∧ d.spn.noted = true else d.pairState = 5 ∧ d.get SPN_TAKES = min (s.dev.get SPN_TAKES + 1) 4294967295))

/-- Start, commands and return (R285, R295, R297, R300, R302): the pair starts SINGLE, RELEASED or JOINING; RELEASE with 0xA5 hands the token of a HOLDER whose
peer is STANDBY over, and REJOIN leaves RELEASED while no cause stands, and both are refused otherwise (log entry 80); a write of SPN_RETURN restarts the hold-off, at whose end
REQUEST is sent. An uncorrectable error of the pair's tables stands as ECC_CRIT and releases the token. -/
def Rules.PairStartsAndReturns : Prop :=
  ∀ s : State, s.Running →
    let st := s.dev.pairState
    (s.dev.get CKP_PWR_STAT_step < 9 ∨ s.dev.bnd.rebinding = true ∨ s.dev.flag BND_STAT_locked = false ∨ s.dev.pwr.shut ≠ 0 → exec .pairStart s = .next (s.settling s.dev)) ∧
    (9 ≤ s.dev.get CKP_PWR_STAT_step → s.dev.bnd.rebinding = false → s.dev.flag BND_STAT_locked = true → s.dev.pwr.shut = 0 → ∃ d, exec .pairStart s = .next (s.settling d) ∧
      (s.dev.get CKP_PWR_STAT_step = 9 → d.get CKP_PWR_STAT_step = 10) ∧
      (st ≠ 0 → d.pairState = st) ∧
      (st = 0 → d.pairState = if s.dev.flag SPN_CFG_enable = false then 1 else if s.dev.get SPN_DIAG_standing ≠ 0 then 7 else 2) ∧
      (st = 0 → s.dev.flag SPN_CFG_enable = false → d.acting = true)) ∧
    (∀ (m : Master) (c : Fin 256), s.dev.Writes m 0xD0010 (1 + 256 * c.val) → ∃ d, exec (.spnCmdRelease m c) s = .next (s.settling d) ∧
      if c.val = 0xA5 ∧ st = 5 ∧ s.dev.get SPN_PEER_state = 4 then d.pairState = 7 ∧ d.get SPN_STAT_diag_cause = 7 ∧ d.acting = false
      else d.flag SPN_STAT_cmd_refused = true ∧ s.dev.SameBut (fun k => k = SPN_STAT.key) d) ∧
    (∀ m : Master, s.dev.Writes m 0xD0010 2 → ∃ d, exec (.spnRejoin m) s = .next (s.settling d) ∧
      if st = 7 ∧ s.dev.get SPN_DIAG_standing = 0 then d.pairState = 2
      else d.flag SPN_STAT_cmd_refused = true ∧ s.dev.SameBut (fun k => k = SPN_STAT.key) d) ∧
    (∀ m : Master, s.dev.Writes m 0xD0010 3 → ∃ d, exec (.spnClearCnt m) s = .next (s.settling d) ∧
      (∀ f ∈ [SPN_TAKES, SPN_LAPSES, SPN_CRC_ERR, SPN_FOREIGN, SPN_MIRROR_LAG, SPN_GAP_MAX], d.get f = 0) ∧
      s.dev.SameBut (fun k => k ∈ [SPN_TAKES.key, SPN_LAPSES.key, SPN_CRC_ERR.key, SPN_FOREIGN.key, SPN_MIRROR_LAG.key, SPN_GAP_MAX.key]) d) ∧
    (∀ (m : Master) (v : BitVec 32), s.dev.Writes m 0xD000C v.toNat → ∃ d, exec (.spnReturnWrite m v) s = .next (s.settling d) ∧
      (1 ≤ v.toNat % 65536 → v.toNat % 65536 ≤ 3600 → d.get SPN_RETURN_holdoff_s = v.toNat % 65536) ∧ d.spn.returnFrom = if s.dev.returnReady then some s.dev.time.elapsed else none) ∧
    (s.dev.spn.returnFrom = none → exec .returnHoldoff s = .next (s.settling s.dev)) ∧
    (∀ t, s.dev.spn.returnFrom = some t →
      let due := t + usTicks (1000000 * s.dev.get SPN_RETURN_holdoff_s)
      let x := passElapsed due s.dev
      (s.dev.returnReady = false ∨ ¬s.dev.ReachesElapsed due → exec .returnHoldoff s = .next (s.settling x)) ∧
      (s.dev.returnReady = true → s.dev.ReachesElapsed due → ∃ d, exec .returnHoldoff s = .next (s.settling d) ∧ d.spn.returnFrom = some x.time.elapsed ∧
        (s.dev.spn.line = none → s.dev.spn.queue = [] → d.spn.seq = (s.dev.spn.seq + 1) % 2 ^ 32) ∧
        (s.dev.spn.line ≠ none → ∃ m, m.ty = 5 ∧ d.spn.queue = s.dev.spn.queue ++ [m]))) ∧
    (∃ t, exec .eccCrit s = .next t ∧ t.dev.spn.ecc = true ∧ bitAt (t.dev.get SPN_DIAG_standing) 1 = true ∧
      (s.dev.paired = true → t.dev.pairState = 7 ∧ t.dev.acting = false))

/-- The messages that the two units of a pair exchange. -/
def Obligations.PairExchangesMessages : Prop := Rules.MessagesMoveThePair ∧ Rules.MessagesAreTaken ∧ Rules.MessagesAreDiscardedAndSent

/-- The time-driven side of the pair and its commands. -/
def Obligations.PairKeepsItsTime : Prop := Rules.HeartbeatsAndPaths ∧ Rules.TimersOfThePair ∧ Rules.PairStartsAndReturns

/-! ## Energy and the logs -/

/-- A level confirmed by deb_ms samples is taken after the boundaries that have passed (R353-R357): an active level at a pulse input of an enabled channel in mode 0 counts
and adds the gain of its quantity to the accumulator, the import or export one by single_dir, by the direction, or by the input (R355); a direction input in mode 1 takes its new
direction, at the next sample where a pulse of its channel has been confirmed at this one. The sampling grid, the order at a boundary and the deb_ms of a direction
input are log entries 91, 98 and 99. -/
def Rules.PulsesAreBooked : Prop :=
  ∀ (s : State) (high : Bool) (run ms : Nat), s.Running →
    (∀ (i : Instr) (p c : Nat), (∃ q : Fin 32, i = .pulseConfirm q high run ms ∧ p = q.val ∧ c = q.val / 2) ∨
        (∃ k : Fin 16, i = .directionConfirm k high run ms ∧ p = 2 * k.val + 1 ∧ c = k.val) →
      let due := s.dev.samplePoint + turnOf p ms s.dev * sampleQ
      let x := passElapsed due s.dev
      let y := ivCatchUp x
      (x.time.elapsed < due ∨ x.enr.halted = true ∨ run < x.force (ENR_CH_CFG_deb_ms c) ∨ x.plsLevel p = high → exec i s = .next (s.settling x)) ∧
      (due ≤ x.time.elapsed → x.enr.halted = false → x.force (ENR_CH_CFG_deb_ms c) ≤ run → x.plsLevel p ≠ high → ∃ d, exec i s = .next (s.settling d) ∧ d.plsLevel p = high ∧
        (p % 2 = 1 → y.force (ENR_CH_CFG_mode c) = 1 → lookup c d.enr.lastDir = some (x.time.elapsed, x.now) ∧ d.enr.counts = y.enr.counts) ∧
        (p % 2 = 0 ∨ y.force (ENR_CH_CFG_mode c) = 2 → y.chOn c = true → high ≠ (y.force (if p % 2 = 0 then ENR_CH_CFG_pol_a c else ENR_CH_CFG_pol_b c) == 1) →
          let q := y.chPair c + (if y.force (ENR_CH_CFG_mode c) = 0 then y.force (ENR_CH_CFG_single_dir c)
            else if y.force (ENR_CH_CFG_mode c) = 1 then b2n (y.levelB c) else p % 2)
          d.enr.counts = modAt y.enr.counts p (fun n => (n + 1) % 2 ^ 64) ∧ d.acc c q = min (y.acc c q + y.gain c q) (2 ^ 64 - 1))))

/-- At a boundary the open interval closes and the next one opens at it, every total begins at zero, and the offset of a used quantity of an enabled channel enters
its accumulator, held at zero, unless the interval is INCOMPLETE (R358, R359). Boundaries are not taken while they are not evaluated. -/
def Rules.IntervalsClose : Prop :=
  ∀ s : State, s.Running →
    (s.dev.enr.ivStart = none ∨ s.dev.ivActive = false ∨ s.dev.enr.evalOn = false → exec .intervalBoundary s = .next (s.settling s.dev)) ∧
    (∀ start, s.dev.enr.ivStart = some start → s.dev.ivActive = true → s.dev.enr.evalOn = true →
      let due := natOf (s.dev.ivEnd start + s.dev.getI TBS_UTC_utc_offset * 1000000000)
      let x := passTo due s.dev
      (x.now < due → exec .intervalBoundary s = .next (s.settling x)) ∧
      (due ≤ x.now → ∃ d, exec .intervalBoundary s = .next (s.settling d) ∧ d.enr.ivStart = some due ∧ (∀ c < 16, ∀ q < 4, d.ivl c q = 0) ∧ d.enr.held = [] ∧
        ∀ c < 16, ∀ q ∈ s.dev.chUsed c, q < 4 → s.dev.chOn c = true → bitAt (s.dev.enr.flags.getD c 0) 2 = false →
          d.acc c q = min (natOf ((s.dev.acc c q : Int) + s.dev.offset c q)) (2 ^ 64 - 1)))

/-- Saves (R362): one starts in the next slot of the ring when its time comes; one that was written is the newest of its slot and the sequence goes on; one that
does not read back marks the slot bad and is written again, and fails the third time. Its write waits for another NVM write in progress (R468), and a save that
fell due meanwhile starts then. ENR_SAVE_STAT.slot is the position in the ring, and a save asked for while one is written follows it (log entries 101 and 132). -/
def Obligations.SavesAreWritten : Prop :=
  ∀ s : State, s.Running →
    (let due := s.dev.enr.opMark + (s.dev.enr.saveDue - s.dev.enr.opBase) * 4000000000
    let x := passElapsed due s.dev
    (x.time.elapsed < due ∨ s.dev.enr.saving ≠ none ∨ s.dev.pwr.shut ≠ 0 → exec .periodicSave s = .next (s.settling x)) ∧
    (due ≤ x.time.elapsed → s.dev.enr.saving = none → s.dev.pwr.shut = 0 → s.dev.nvm.ring ≠ [] → ∃ d v, exec .periodicSave s = .next (s.settling d) ∧
      d.enr.saving = some v ∧ v.bytes = saveBytes x ∧ v.pos = s.dev.enr.next % s.dev.nvm.ring.length ∧ v.fails = 0 ∧
      d.enr.saveDue = s.dev.enr.opBase + x.elapsedSince s.dev.enr.opMark + s.dev.get ENR_SAVE_period_s)) ∧
    (s.dev.bnd.saving = false → ∀ ok, s.dev.enr.saving = none → exec (.saveComplete ok) s = .next (s.settling s.dev)) ∧
    (s.dev.bnd.saving = false → s.dev.nvmOwner ≠ some .save → ∀ ok, exec (.saveComplete ok) s = .next (s.settling s.dev)) ∧
    (s.dev.bnd.saving = false → s.dev.nvmOwner = some .save → ∀ v, s.dev.enr.saving = some v →
      (∃ d, exec (.saveComplete true) s = .next (s.settling d) ∧ (s.dev.enr.again = false → d.enr.saving = none) ∧
        (s.dev.enr.again = true → s.dev.nvm.ring ≠ [] → ∃ w, d.enr.saving = some w ∧ w.fails = 0) ∧ d.enr.saveSeq = (s.dev.enr.saveSeq + 1) % 2 ^ 32 ∧
        lookup (s.dev.nvm.ring.getD v.pos 0) d.nvm.saves = some v.bytes ∧ d.get ENR_SAVE_STAT_slot = v.pos % 64) ∧
      (∃ d, exec (.saveComplete false) s = .next (s.settling d) ∧ d.get ENR_SAVE_STAT_bad_slots = min (s.dev.get ENR_SAVE_STAT_bad_slots + 1) 65535 ∧
        (2 ≤ v.fails → d.flag ENR_SAVE_STAT_fail = true ∧ (s.dev.enr.again = false → d.enr.saving = none)) ∧
        (v.fails < 2 → 2 ≤ s.dev.nvm.ring.length → ∃ w, d.enr.saving = some w ∧ w.bytes = v.bytes ∧ w.fails = v.fails + 1)))

/-- The seal (R366): it is open while the latch is set or an opening by procedure stands. The contact sets the latch; OPEN with the right key opens by procedure for 3,600 s,
and a wrong one counts and at the fourth locks; CLOSE and the end of that time close, and CLOSE clears the latch while the contact is released. -/
def Rules.SealOpensAndCloses : Prop :=
  ∀ s : State, s.Running →
    (∀ asserted long : Bool, 4 ≤ s.dev.get CKP_PWR_STAT_step → ∃ d, exec (.sealInAssert asserted long) s = .next (s.ending (watch d)) ∧
      let l := s.dev.island.sealLatch || (asserted && long && s.dev.island.vstby)
      d.island = { s.dev.island with contact := asserted, sealLatch := l } ∧ d.flag ENR_SEAL_STAT_latch = l ∧
      d.flag ENR_SEAL_STAT_contact = asserted ∧ d.flag ENR_SEAL_STAT_open = (l || s.dev.flag ENR_SEAL_STAT_procedure)) ∧
    (∀ m : Master, s.dev.Writes m 0xE0020 1 →
      (s.dev.flag ENR_SEAL_STAT_locked = true → exec (.sealOpen m) s = .next (s.settling { s.dev with enr := { s.dev.enr with key := 0 } })) ∧
      (s.dev.flag ENR_SEAL_STAT_locked = false → ∃ d, exec (.sealOpen m) s = .next (s.settling d) ∧ d.enr.key = 0 ∧
        if s.dev.enr.key = s.dev.nvm.sealKey then d.flag ENR_SEAL_STAT_open = true ∧ d.flag ENR_SEAL_STAT_procedure = true ∧
          d.get ENR_SEAL_STAT_fails = 0 ∧ d.enr.procEnd = some (s.dev.time.elapsed + 3600 * 4000000000)
        else d.get ENR_SEAL_STAT_fails = (s.dev.get ENR_SEAL_STAT_fails + 1) % 8 ∧ d.flag ENR_SEAL_STAT_open = s.dev.flag ENR_SEAL_STAT_open ∧
          d.flag ENR_SEAL_STAT_locked = decide (3 ≤ s.dev.get ENR_SEAL_STAT_fails))) ∧
    (∀ m : Master, s.dev.Writes m 0xE0020 2 → ∃ d, exec (.sealClose m) s = .next (s.settling d) ∧ d.flag ENR_SEAL_STAT_procedure = false ∧ d.enr.procEnd = none ∧
      d.island.sealLatch = (s.dev.island.sealLatch && s.dev.island.contact) ∧
      d.flag ENR_SEAL_STAT_open = (s.dev.island.sealLatch && s.dev.island.contact)) ∧
    (s.dev.enr.procEnd = none → exec .sealOpeningExpire s = .next (s.settling s.dev)) ∧
    (∀ e, s.dev.enr.procEnd = some e →
      let x := passElapsed e s.dev
      (x.time.elapsed < e → exec .sealOpeningExpire s = .next (s.settling x)) ∧
      (e ≤ x.time.elapsed → ∃ d, exec .sealOpeningExpire s = .next (s.settling d) ∧ d.flag ENR_SEAL_STAT_procedure = false ∧ d.enr.procEnd = none ∧
        d.flag ENR_SEAL_STAT_open = s.dev.flag ENR_SEAL_STAT_latch))

/-- A write of a legal parameter while the seal is closed changes nothing and is counted in ENR_DENIED; an accepted one changes only the staged copy, not what is in force, and appends
one record (R365). A pending legal record becomes visible when it has been written, in its turn among the NVM writes (R374, R468); where the log has filled meanwhile it is discarded and not
written (log entry 7). -/
def Rules.LegalParametersAreStaged : Prop :=
  ∀ s : State, s.Running →
    (∀ (m : Master) (off : Nat) (v : BitVec 32) (r : RegRow) (ix : List Nat), findRow off = some (r, ix) → r.gate = .legal → s.dev.Writes m off v.toNat →
      (s.dev.flag ENR_SEAL_STAT_open = false → ∃ d, exec (.legalParamWrite m off v) s = .next (s.settling d) ∧
        d.get ENR_DENIED = min (s.dev.get ENR_DENIED + 1) 4294967295 ∧ s.dev.SameBut (fun k => k = ENR_DENIED.key) d) ∧
      (s.dev.flag ENR_SEAL_STAT_open = true → s.dev.legalAccepts = true → ∃ d, exec (.legalParamWrite m off v) s = .next (s.settling d) ∧
        d.logs.legalQueue.length = s.dev.logs.legalQueue.length + 1 ∧ d.enr.accepted = s.dev.enr.accepted + 1 ∧
        (off ≠ ENR_SAVE.key → ∀ f : Fld, keyBlock f.key = 0xE → d.force f = s.dev.force f) ∧
        (∀ c q, c < 16 → q < 4 → off = 0xE0108 + 0x80 * c + 8 * q → d.get (ENR_CH_GAIN_LO c q) = v.toNat))) ∧
    (s.dev.logs.legalQueue = [] → exec .legalRecordWriteDone s = .next (s.settling s.dev)) ∧
    (s.dev.nvmOwner ≠ some .append → exec .legalRecordWriteDone s = .next (s.settling s.dev)) ∧
    (∀ r rs, s.dev.logs.legalQueue = r :: rs → s.dev.nvmOwner = some .append → ∃ d, exec .legalRecordWriteDone s = .next (s.settling d) ∧ d.logs.legalQueue = rs ∧
      (s.dev.logs.legal.length < 4096 → d.nvm.legal = s.dev.nvm.legal ++ [r] ∧ d.logs.legal = s.dev.logs.legal ++ [r] ∧ d.get (EVR_STAT_fill 1) = s.dev.logs.legal.length + 1) ∧
      (4096 ≤ s.dev.logs.legal.length → d.nvm.legal = s.dev.nvm.legal ∧ d.logs.legal = s.dev.logs.legal ∧ d.get (EVR_DISCARD 1) = min (s.dev.get (EVR_DISCARD 1) + 1) 4294967295))

/-- The logs are read by an index, which a read of REC7 advances up to 8,192 (R378), and cleared by a CLEAR that passes its checks: the oldest records go, the head advances
and the grid log has LOG_CLEARED at its end (R379). -/
def Obligations.LogsAreReadAndCleared : Prop :=
  ∀ (s : State) (m : Master) (l : Fin 2), s.Running →
    let lg : Log := if l = 0 then .grid else .legal
    let shows (d : Dev) (i : Nat) : Prop := d.get (EVR_IDX_index m l) = i ∧ d.get (EVR_RECNUM m l) = (s.dev.get (EVR_HEAD l) + i) % 2 ^ 32 ∧
      ∀ w < 8, d.get (EVR_REC m l w) = leAt ((s.dev.logRecords lg).getD i (List.replicate 32 0)) (4 * w) 4
    (∀ i : Fin 16384, s.dev.Writes m (0xF0020 + 0x100 * l.val) i.val →
      (8192 < i.val → exec (.logIndexSelect m l i) s = .next (s.leaving s.dev)) ∧
      (i.val ≤ 8192 → ∃ d, exec (.logIndexSelect m l i) s = .next (s.leaving d) ∧ shows d i.val)) ∧
    (s.dev.readVerdict m (0xF005C + 0x100 * l.val) = .pass → ∃ d : Dev, exec (.logRec7Read m l) s = .next (s.leaving (d.answer m { data := s.dev.get (EVR_REC m l 7) })) ∧ shows d (min (s.dev.get (EVR_IDX_index m l) + 1) 8192)) ∧
    (∀ n : Fin 16384, s.dev.Writes m (0xF0010 + 0x100 * l.val) (1 + 4 * n.val) → ∃ d, exec (.logClear m l n) s = .next (s.leaving d) ∧
      let c := clearCode lg m n s.dev
      d.get (EVR_STAT_result l) = c ∧
      (c ≠ 0 → d.logs = s.dev.logs ∧ d.get (EVR_HEAD l) = s.dev.get (EVR_HEAD l)) ∧
      (c = 0 → d.get (EVR_HEAD l) = (s.dev.get (EVR_HEAD l) + n.val) % 2 ^ 32 ∧
        (l = 0 → s.dev.logs.grid.length ≤ 8192 → ∃ r, d.logs.grid = s.dev.logs.grid.drop n.val ++ [r] ∧ leAt r 0 2 = 0x10FF) ∧
        (l = 1 → d.logs.legal = s.dev.logs.legal.drop n.val)))

/-- The counting of energy. -/
def Obligations.EnergyIsCounted : Prop := Rules.PulsesAreBooked ∧ Rules.IntervalsClose

/-- The seal, and what it lets through. -/
def Obligations.SealGuardsTheParameters : Prop := Rules.SealOpensAndCloses ∧ Rules.LegalParametersAreStaged

/-! ## Compression and the queues -/

/-- The write of CMP_JOB7 refuses a descriptor with a field out of its range with FIELD, one that finds 32 jobs pending with FULL, and else accepts it: the
job stands behind the pending ones, the accepted count goes on and CMP_STAT shows the length (R382). -/
def Rules.JobsAreSubmitted : Prop :=
  ∀ (s : State) (m : Master) (v : BitVec 32), s.Running → s.dev.Writes m 0x10002C v.toNat →
    let b := (List.range 7).flatMap (fun i => toLe 4 (s.dev.get (CMP_JOB m i))) ++ toLe 4 v.toNat
    ∃ d, exec (.cmpJobSubmit m v) s = .next (s.leaving d) ∧ d.get (CMP_JOB m 7) = v.toNat ∧
      (cmpFieldsOk b = false → d.get (CMP_SUBMIT_STAT_result m) = 1 ∧ d.cmp = s.dev.cmp) ∧
      (cmpFieldsOk b = true → 32 ≤ s.dev.cmp.pending.length → d.get (CMP_SUBMIT_STAT_result m) = 2 ∧ d.cmp = s.dev.cmp) ∧
      (cmpFieldsOk b = true → s.dev.cmp.pending.length < 32 → d.get (CMP_SUBMIT_STAT_result m) = 0 ∧
        d.cmp = { s.dev.cmp with pending := s.dev.cmp.pending ++ [cmpJobOf m b] } ∧
        d.get (CMP_SUBMIT_STAT_accepted m) = (s.dev.get (CMP_SUBMIT_STAT_accepted m) + 1) % 65536 ∧
        d.get CMP_STAT_pending = s.dev.cmp.pending.length + 1)

/-- The engine takes a job while it is ON and runs none (R383): archive jobs and host jobs alternate, and a resumed job goes before every other host
job. Otherwise nothing starts, nor while a verification has sections to expand. -/
def Rules.JobsAreChosen : Prop :=
  ∀ s : State, s.Running →
    let hosts := s.dev.cmp.resumed ++ s.dev.cmp.pending
    let idle := s.dev.blockRuns 59 = true ∧ s.dev.get CMP_CFG_state = 1 ∧ s.dev.cmp.running = none ∧ s.dev.expanding = false
    (¬idle → exec .cmpJobStart s = .next (s.leaving s.dev)) ∧
    (idle → ∀ nt nts, s.dev.col.archive = nt :: nts → (∃ x ∈ (s.dev.grid nt.grid).held, x.g = nt.g) →
      (hosts = [] ∨ s.dev.cmp.lastArch = false → ∃ d, exec .cmpJobStart s = .next (s.leaving d) ∧ d.cmp = { s.dev.cmp with running := some (s.dev.archJob nt) } ∧
        d.col.archive = nts) ∧
      (∀ j js, hosts = j :: js → s.dev.cmp.lastArch = true → ∃ d, exec .cmpJobStart s = .next (s.leaving d) ∧ d.cmp.running = some j ∧
        d.cmp.resumed ++ d.cmp.pending = js ∧ d.col = s.dev.col)) ∧
    (idle → s.dev.col.archive = [] → (hosts = [] → exec .cmpJobStart s = .next (s.leaving s.dev)) ∧
      (∀ j js, hosts = j :: js → ∃ d, exec .cmpJobStart s = .next (s.leaving d) ∧ d.cmp.running = some j ∧ d.cmp.resumed ++ d.cmp.pending = js ∧
        d.flag CMP_STAT_running = true))

/-- A job that runs to its end leaves the engine with its status counted in CMP_JOBS_OK or CMP_JOBS_FAIL (R393). One that needs another buffer goes into
the lowest free of the four slots, where CMP_CTXk shows it, and ends with NO_BUFFER where none is free (R389). Neither command does what the other is for. An archive job whose
gathering is gone is skipped and counted in COL_ARCH_SKIP (R396). -/
def Rules.JobsEndAndSuspend : Prop :=
  ∀ s : State, s.Running → s.dev.blockRuns 59 = true →
    (s.dev.cmp.running = none → exec .cmpJobEnd s = .next (s.leaving s.dev) ∧ exec .cmpJobSuspend s = .next (s.leaving s.dev)) ∧
    (∀ j, s.dev.cmp.running = some j →
      let r := cmpRun j s.dev
      (∀ st, r.2.1 = some st → exec .cmpJobSuspend s = .next (s.leaving s.dev) ∧ (s.dev.archGone j = false → ∃ d, exec .cmpJobEnd s = .next (s.leaving d) ∧ d.cmp.running = none ∧
        d.cmp.pending = s.dev.cmp.pending ∧ d.cmp.resumed = s.dev.cmp.resumed ∧ d.cmp.ctx = s.dev.cmp.ctx ∧ d.cmp.lastArch = j.arch.isSome ∧
        d.get CMP_JOBS_OK = (if st = 0 then min (s.dev.get CMP_JOBS_OK + 1) 4294967295 else s.dev.get CMP_JOBS_OK) ∧
        d.get CMP_JOBS_FAIL = (if st = 0 then s.dev.get CMP_JOBS_FAIL else min (s.dev.get CMP_JOBS_FAIL + 1) 4294967295))) ∧
      (s.dev.archGone j = true → ∃ d, exec .cmpJobEnd s = .next (s.leaving d) ∧ d.cmp.running = none ∧ d.get COL_ARCH_SKIP = min (s.dev.get COL_ARCH_SKIP + 1) 4294967295 ∧
        d.get CMP_JOBS_OK = s.dev.get CMP_JOBS_OK ∧ d.get CMP_JOBS_FAIL = s.dev.get CMP_JOBS_FAIL) ∧
      (r.2.1 = none → exec .cmpJobEnd s = .next (s.leaving s.dev) ∧ ∃ d k, exec .cmpJobSuspend s = .next (s.leaving d) ∧ k < 4 ∧ lookup k s.dev.cmp.ctx = none ∧
        (∀ i < k, (lookup i s.dev.cmp.ctx).isSome) ∧ d.cmp.running = none ∧ lookup k d.cmp.ctx = some r.1 ∧ d.flag (CMP_CTX_suspended k) = true ∧
        d.get (CMP_CTX_tag k) = r.1.tag % 65536 ∧ d.get CMP_JOBS_OK = s.dev.get CMP_JOBS_OK ∧ d.get CMP_JOBS_FAIL = s.dev.get CMP_JOBS_FAIL) ∧
      (j.arch = none → (∀ k < 4, (lookup k s.dev.cmp.ctx).isSome) → r.2.1 ≠ none))

/-- CANCEL ends every job of its master with its tag, pending, resumed, suspended or running, and counts each as failed; where there is none it changes
nothing but cmd_refused (R394). RESUME of a free slot is refused, of a job whose next is still 0 leaves it suspended, and else queues the job on its next
buffer; one whose next is not readable ends with that status (R389). enable turns the engine ON, or is pending while it is DISABLING; clearing it leads to
OFF once no job runs (R395). An engine that a fabric timeout has stopped does neither CANCEL nor RESUME (R16; log entry 170). -/
def Rules.JobCommandsAct : Prop :=
  ∀ (s : State) (m : Master), s.Running →
    (∀ tag : BitVec 16, s.dev.Writes m 0x100034 (1 + 65536 * tag.toNat) → if s.dev.blockRuns 59 = false then exec (.cmpCancel m tag) s = .next (s.leaving s.dev) else
      let hit (j : CmpJob) : Bool := j.master == m && j.tag == tag.toNat && j.arch.isNone
      let hits := (s.dev.cmp.pending.filter hit).length + (s.dev.cmp.resumed.filter hit).length + (s.dev.cmp.ctx.filter (fun p => hit p.2)).length +
        (s.dev.cmp.running.filter hit).toList.length
      (hits = 0 → ∃ d, exec (.cmpCancel m tag) s = .next (s.leaving d) ∧ d.flag CMP_STAT_cmd_refused = true ∧ s.dev.SameBut (fun k => k = CMP_STAT.key) d) ∧
      (hits ≠ 0 → ∃ d, exec (.cmpCancel m tag) s = .next (s.leaving d) ∧ d.cmp.pending = s.dev.cmp.pending.filter (fun j => !hit j) ∧
        d.cmp.resumed = s.dev.cmp.resumed.filter (fun j => !hit j) ∧ d.cmp.ctx = s.dev.cmp.ctx.filter (fun p => !hit p.2) ∧
        d.cmp.running = s.dev.cmp.running.filter (fun j => !hit j) ∧ d.get CMP_JOBS_OK = s.dev.get CMP_JOBS_OK ∧
        d.get CMP_JOBS_FAIL = min (s.dev.get CMP_JOBS_FAIL + hits) 4294967295)) ∧
    (∀ k : Fin 4, s.dev.Writes m 0x100034 (2 + 4 * k.val) → if s.dev.blockRuns 59 = false then exec (.cmpResume m k) s = .next (s.leaving s.dev) else
      (lookup k.val s.dev.cmp.ctx = none → ∃ d, exec (.cmpResume m k) s = .next (s.leaving d) ∧ d.flag CMP_STAT_cmd_refused = true ∧ d.cmp = s.dev.cmp) ∧
      (∀ j b e, lookup k.val s.dev.cmp.ctx = some j → cmpRead (j.buf + 0x10) 8 s.dev = (.ok b, e) →
        ∃ d, exec (.cmpResume m k) s = .next (s.leaving d) ∧
          if leAt b 0 8 = 0 then d.cmp = s.dev.cmp
          else lookup k.val d.cmp.ctx = none ∧ d.cmp.resumed = s.dev.cmp.resumed ++ [{ j with buf := leAt b 0 8, used := 0 }] ∧
            d.flag (CMP_CTX_suspended k) = false) ∧
      (∀ j st e, lookup k.val s.dev.cmp.ctx = some j → cmpRead (j.buf + 0x10) 8 s.dev = (.error st, e) →
        ∃ d, exec (.cmpResume m k) s = .next (s.leaving d) ∧ lookup k.val d.cmp.ctx = none ∧ d.cmp.resumed = s.dev.cmp.resumed ∧
          d.get CMP_JOBS_FAIL = min (s.dev.get CMP_JOBS_FAIL + 1) 4294967295)) ∧
    (s.dev.WritesField m 0x100000 0 1 1 → ∃ d, exec (.cmpEnable m) s = .next (s.leaving d) ∧ d.flag CMP_CFG_enable = true ∧ d.cmp = s.dev.cmp ∧
      (s.dev.get CMP_CFG_state = 0 → s.dev.flag CMP_CFG_enable = false → d.get CMP_CFG_state = 1) ∧
      (s.dev.get CMP_CFG_state = 1 → d.get CMP_CFG_state = 1) ∧
      (s.dev.get CMP_CFG_state = 2 → d.get CMP_CFG_state = 2 ∧ d.flag CMP_CFG_enable_pending = true)) ∧
    (s.dev.WritesField m 0x100000 0 1 0 → ∃ d, exec (.cmpDisable m) s = .next (s.leaving d) ∧ d.flag CMP_CFG_enable = false ∧ d.cmp = s.dev.cmp ∧
      (s.dev.get CMP_CFG_state = 1 → s.dev.flag CMP_CFG_enable = true → d.get CMP_CFG_state = if s.dev.blockRuns 59 = true ∧ s.dev.cmp.running = none then 0 else 2) ∧
      (s.dev.get CMP_CFG_state = 2 → d.get CMP_CFG_state = 2 ∧ d.flag CMP_CFG_enable_pending = false))

/-- A write of CMP_ARCH_RD outside the range from RD to WR in ring order is discarded; else it is rounded up to the next entry start, and the entries
before it are released (R398). -/
def Rules.ArchiveIsReleased : Prop :=
  ∀ (s : State) (m : Master) (v : BitVec 32), s.Running → s.dev.Writes m 0x100088 v.toNat →
    let u := s.dev.archUnits
    let ahead (x : Nat) : Nat := (x + u - s.dev.get CMP_ARCH_RD) % u
    let held := if s.dev.cmp.entries = [] then 0 else if s.dev.get CMP_ARCH_WR = s.dev.get CMP_ARCH_RD then u else ahead (s.dev.get CMP_ARCH_WR)
    let kept := s.dev.cmp.entries.filter (fun e => decide (ahead v.toNat ≤ ahead e.1))
    (u ≤ v.toNat ∨ held < ahead v.toNat → exec (.archiveRelease m v) s = .next (s.leaving s.dev)) ∧
    (v.toNat < u → ahead v.toNat ≤ held → ∃ d, exec (.archiveRelease m v) s = .next (s.leaving d) ∧ d.cmp.entries = kept ∧
      (∀ e es, kept = e :: es → d.get CMP_ARCH_RD = e.1 % 2 ^ 32) ∧ (kept = [] → d.get CMP_ARCH_RD = s.dev.get CMP_ARCH_WR) ∧
      s.dev.SameBut (fun k => k = CMP_ARCH_RD.key) { d with cmp := s.dev.cmp })

/-- What a compression job delivers never exceeds its input by more than five bytes for each block of 65,535 and six, and two with the wrapper. The wrapper
is 0x78 and the byte that makes the pair a multiple of 31 with FDICT 0 and the level in FLEVEL, and at the end the Adler-32 of the transformed bytes,
which the job's record shows too (R388). -/
def Obligations.StreamsStayWithinTheirBound : Prop :=
  ∀ (j : CmpJob) (input : List Byte), 1 ≤ j.level → j.level ≤ 4 →
    let r := cmpStream j input
    let t := preTransform j.shuffle j.delta j.elem input
    r.1.length ≤ input.length + 5 * cdiv input.length 65535 + 6 + 2 * b2n j.zlib ∧ t.length = input.length ∧ r.2 = adler32 t ∧
      (j.zlib = true → byteAt r.1 0 = 0x78 ∧ (byteAt r.1 0 * 256 + byteAt r.1 1) % 31 = 0 ∧ bitAt (byteAt r.1 1) 5 = false ∧
        byteAt r.1 1 / 64 = j.level - 1 ∧ beAt r.1 (r.1.length - 4) 4 = adler32 t)

/-- enable = 1 of a queue that is OFF checks it (R400): OK opens it, and another code leaves it OFF with enable 0. In DISABLING it is pending. enable = 0 of
a queue that is ON answers every stalled pop with the empty token, and OFF with nothing in it is reached once no device packet is being written (R401).
flush empties the queue, answers the stalled pops and counts nothing as lost (R407). clear_hwm sets the mark to the occupancy (R408). -/
def Rules.QueueEnablesAndFlushes : Prop :=
  ∀ (s : State) (m : Master) (n : Fin 64), s.Running →
    let at_ := 0x110100 + 0x20 * n.val
    let q := s.dev.queue n
    (s.dev.WritesField m at_ 0 1 1 → ∃ d, exec (.queueEnable m n) s = .next (s.leaving d) ∧ d.queues = s.dev.queues ∧
      (s.dev.get (QUE_Q_CTRL_state n) = 0 →
        let c := queueEnableCode n s.dev
        d.get (QUE_Q_CTRL_result n) = c ∧ d.get (QUE_Q_CTRL_state n) = (if c = 0 then 1 else 0) ∧ d.flag (QUE_Q_CTRL_enable n) = decide (c = 0)) ∧
      (s.dev.get (QUE_Q_CTRL_state n) = 1 → d.get (QUE_Q_CTRL_state n) = 1) ∧
      (s.dev.get (QUE_Q_CTRL_state n) = 2 → d.get (QUE_Q_CTRL_state n) = 2 ∧ d.flag (QUE_Q_CTRL_enable_pending n) = true)) ∧
    (s.dev.WritesField m at_ 0 1 0 → ∃ d, exec (.queueDisable m n) s = .next (s.leaving d) ∧ d.flag (QUE_Q_CTRL_enable n) = false ∧
      (s.dev.get (QUE_Q_CTRL_state n) = 1 → (d.queue n).stalled = [] ∧
        d.get (QUE_Q_EMPTY n) = min (s.dev.get (QUE_Q_EMPTY n) + q.stalled.length) 4294967295 ∧
        (q.writing = [] → d.get (QUE_Q_CTRL_state n) = 0 ∧ (d.queue n).packets = []) ∧
        (q.writing ≠ [] → d.get (QUE_Q_CTRL_state n) = 2 ∧ d.queue n = { q with stalled := [] })) ∧
      (s.dev.get (QUE_Q_CTRL_state n) ≠ 1 → d.get (QUE_Q_CTRL_state n) = s.dev.get (QUE_Q_CTRL_state n) ∧ d.queues = s.dev.queues)) ∧
    (s.dev.WritesField m at_ 4 1 1 → ∃ d, exec (.queueFlush m n) s = .next (s.leaving d) ∧ (d.queue n).packets = [] ∧ (d.queue n).writing = [] ∧
      (d.queue n).stalled = [] ∧ d.get (QUE_Q_EMPTY n) = min (s.dev.get (QUE_Q_EMPTY n) + q.stalled.length) 4294967295 ∧
      d.get (QUE_Q_LOST n) = s.dev.get (QUE_Q_LOST n) ∧ d.flag (QUE_Q_OCC_wm_state n) = false ∧ d.get (QUE_Q_OCC_occupancy n) = 0) ∧
    (s.dev.Writes m (0x11010C + 0x20 * n.val) (2 ^ 31) → ∃ d, exec (.queOccClearHwm m n) s = .next (s.leaving d) ∧
      d.get (QUE_Q_OCC_hwm n) = s.dev.get (QUE_Q_OCC_occupancy n) ∧ d.get (QUE_Q_OCC_occupancy n) = s.dev.get (QUE_Q_OCC_occupancy n) ∧
      s.dev.SameBut (fun k => k = (QUE_Q_OCC_hwm n).key) d)

/-- A read of POP_LO takes the oldest committed word; the halves and the status are captured for the master that read (R404). A word with one flipped bit
is corrected in ECC mode and poisoned in PARITY mode, and one with two is poisoned in ECC mode (R410, R411). From a queue that is not ON, or for MG or without
stall time from an empty one, it returns the empty token at once, and else stalls behind the others with its limit stall_us ahead; the stalled pop whose limit comes
first returns the token at its limit, and not before (R405). -/
def Obligations.PopsTakeWords : Prop :=
  ∀ (s : State) (n : Fin 64), s.Running →
    let q := s.dev.queue n
    (∀ (m : Master) (wide : Bool), s.dev.queueVerdict m (0x1000 * n.val) false true = .pass →
      let token (d : Dev) : Prop := lookup m.val d.host.reads = some { data := if wide then emptyToken else 0xFFFFFFFF } ∧
        d.get (QUE_Q_EMPTY n) = min (s.dev.get (QUE_Q_EMPTY n) + 1) 4294967295 ∧ d.queues = s.dev.queues
      (s.dev.queueOn n = false → ∃ d, exec (.queuePop m n wide) s = .next (s.leaving d) ∧ token d) ∧
      (s.dev.queueOn n = true → q.occupancy = 0 → m.val = 2 ∨ s.dev.get (QUE_Q_CFG_stall_us n) = 0 → ∃ d, exec (.queuePop m n wide) s = .next (s.leaving d) ∧ token d) ∧
      (s.dev.queueOn n = true → q.occupancy = 0 → m.val ≠ 2 → s.dev.get (QUE_Q_CFG_stall_us n) ≠ 0 → ∃ d, exec (.queuePop m n wide) s = .next (s.leaving d) ∧
        lookup m.val d.host.reads = some { stalled := true } ∧ d.queue n = { q with stalled := q.stalled ++ [⟨m.val, wide, s.dev.time.elapsed + 4000 * s.dev.get (QUE_Q_CFG_stall_us n)⟩] } ∧
        d.get (QUE_Q_EMPTY n) = s.dev.get (QUE_Q_EMPTY n)) ∧
      (s.dev.queueOn n = true → ∀ p ps w ws, q.packets = p :: ps → p.words = w :: ws →
        let ecc : Prop := s.dev.get QUE_POOL_mode = 2
        ∃ d data bad, exec (.queuePop m n wide) s = .next (s.leaving d) ∧
          lookup m.val d.host.reads = some { data := if wide then data else data % 2 ^ 32, poison := bad } ∧
          lookup (popHiKey m n) d.shadow = some (BitVec.ofNat 32 (data / 2 ^ 32)) ∧
          d.queue n = { q with packets := if ws = [] then ps else { p with words := ws } :: ps, lostBefore := false } ∧
          (w.flips = 0 ∨ (ecc ∧ w.flips = 1) → data = w.val.toNat ∧ bad = false) ∧
          (ecc → w.flips = 1 → d.get (QUE_Q_INTEG_cecc n) = min (s.dev.get (QUE_Q_INTEG_cecc n) + 1) 65535) ∧
          ((ecc ∧ w.flips = 2) ∨ (¬ecc ∧ w.flips = 1) → bad = true ∧
            d.get (QUE_Q_INTEG_poison n) = min (s.dev.get (QUE_Q_INTEG_poison n) + 1) 65535) ∧
          (w.flips = 0 → lookup (popStatKey m n) d.shadow = some (BitVec.ofNat 32 (1 + b2n (p.words.length == p.total) * 4 + b2n ws.isEmpty * 8 +
            b2n q.lostBefore * 64 + d.get (QUE_Q_OCC_occupancy n) * 2 ^ 16))))) ∧
    (q.stalled = [] → exec (.popStallTimeout n) s = .next (s.leaving s.dev)) ∧
    (∀ w, earliestStall q.stalled = some w → w ∈ q.stalled ∧ ∀ v ∈ q.stalled, w.due ≤ v.due) ∧
    (∀ w, earliestStall q.stalled = some w → ¬s.dev.ReachesElapsed w.due → exec (.popStallTimeout n) s = .next (s.leaving (passElapsed w.due s.dev))) ∧
    (∀ w, earliestStall q.stalled = some w → s.dev.ReachesElapsed w.due → ∃ d, exec (.popStallTimeout n) s = .next (s.leaving d) ∧ d.queue n = { q with stalled := q.stalled.erase w } ∧
      lookup w.master d.host.reads = some { data := if w.wide then emptyToken else 0xFFFFFFFF } ∧
      d.get (QUE_Q_EMPTY n) = min (s.dev.get (QUE_Q_EMPTY n) + 1) 4294967295)

/-- A write of PUSH_HI appends a word to the staged words of its master; a 65th word and a word for another queue discard them and set push_err. COMMIT
offers the staged words as one packet, which an open queue with room takes and a queue that is not open refuses and counts; BAD in any window discards them (R403). -/
def Rules.PushesStageWords : Prop :=
  ∀ (s : State) (m : Master) (n : Fin 64), s.Running →
    let q := s.dev.queue n
    let g := s.dev.stage m
    (∀ hi : BitVec 32, s.dev.queueVerdict m (0x1000 * n.val + 0x14) true true = .pass → ∃ d, exec (.pushWord m n hi) s = .next (s.leaving d) ∧ d.queues = s.dev.queues ∧
      ((g.words ≠ [] ∧ g.queue ≠ n.val) ∨ g.words.length = 64 → (d.stage m).words = [] ∧ (d.stage m).err = true) ∧
      (g.words = [] ∨ g.queue = n.val → g.words.length ≠ 64 →
        d.stage m = { g with queue := n.val, words := g.words ++ [BitVec.ofNat 64 (g.low + hi.toNat * 2 ^ 32)] })) ∧
    (s.dev.queueVerdict m (0x1000 * n.val + 0x18) true true = .pass →
      (∃ d, exec (.pushBad m n) s = .next (s.leaving d) ∧ d.queues = s.dev.queues ∧ (d.stage m).words = [] ∧ (d.stage m).err = false) ∧
      (g.words = [] ∨ g.queue ≠ n.val → ∃ d, exec (.pushCommit m n) s = .next (s.leaving d) ∧ d.queues = s.dev.queues ∧ (d.stage m).words = g.words) ∧
      (g.words ≠ [] → g.queue = n.val → ∃ d, exec (.pushCommit m n) s = .next (s.leaving d) ∧ (d.stage m).words = [] ∧
        (s.dev.queueOn n = false → d.queues = s.dev.queues ∧ d.get (QUE_Q_REFUSED n) = min (s.dev.get (QUE_Q_REFUSED n) + 1) 4294967295) ∧
        (s.dev.queueOn n = true → q.stalled = [] → q.occupancy + q.reserved + g.words.length ≤ s.dev.queueCap n →
          d.queue n = { q with packets := q.packets ++ [⟨storeWords q.inject g.words, g.words.length⟩], inject := 0 })))

/-- A producer reserves room for its whole packet of 1 to 64 words; nothing else is a packet (R402). Packets are removed from the oldest on, no more than it takes, and each is counted as lost (R406). The
packet becomes visible whole when it commits; a bad one is rewound without a count (R402). A queue that is not ON refuses and counts it (R401). -/
def Rules.PacketsBecomeVisible : Prop :=
  ∀ (s : State) (n : Fin 64), s.Running →
    let q := s.dev.queue n
    (∀ words : List (BitVec 64),
      let fits (k : Nat) : Prop := ((q.packets.drop k).map (fun p => p.words.length)).sum + q.reserved + words.length ≤ s.dev.queueCap n
      (words = [] ∨ 64 < words.length → exec (.packetReserve n words) s = .next (s.leaving s.dev)) ∧
      (words ≠ [] → words.length ≤ 64 → s.dev.queueOn n = false → ∃ d, exec (.packetReserve n words) s = .next (s.leaving d) ∧ d.queues = s.dev.queues ∧
        d.get (QUE_Q_REFUSED n) = min (s.dev.get (QUE_Q_REFUSED n) + 1) 4294967295) ∧
      (words ≠ [] → words.length ≤ 64 → s.dev.queueOn n = true → ∃ d k, exec (.packetReserve n words) s = .next (s.leaving d) ∧ k ≤ q.packets.length ∧ (fits k ∨ k = q.packets.length) ∧
        (∀ i < k, ¬fits i) ∧ d.queue n = { q with packets := q.packets.drop k, writing := q.writing ++ [words], lostBefore := q.lostBefore || decide (0 < k) } ∧
        d.get (QUE_Q_LOST n) = min (s.dev.get (QUE_Q_LOST n) + k) 4294967295)) ∧
    (s.dev.get (QUE_Q_CTRL_state n) ≠ 2 → ∀ (i : Nat) (good : Bool),
      (q.writing[i]? = none → exec (.packetCommit n i good) s = .next (s.leaving s.dev)) ∧
      (∀ ws, q.writing[i]? = some ws →
        (∃ d, exec (.packetCommit n i false) s = .next (s.leaving d) ∧ d.queue n = { q with writing := q.writing.eraseIdx i }) ∧
        (q.stalled = [] → ∃ d, exec (.packetCommit n i true) s = .next (s.leaving d) ∧
          d.queue n = { q with packets := q.packets ++ [⟨storeWords q.inject ws, ws.length⟩], writing := q.writing.eraseIdx i, inject := 0 }))) ∧
    (∀ (ws : List (BitVec 64)) (good : Bool), s.dev.get (QUE_Q_CTRL_state n) = 2 → s.dev.flag (QUE_Q_CTRL_enable_pending n) = false → q.writing = [ws] →
      ∃ d, exec (.packetCommit n 0 good) s = .next (s.leaving d) ∧ d.get (QUE_Q_CTRL_state n) = 0 ∧ (d.queue n).packets = [] ∧ (d.queue n).writing = [])

/-- A change of QUE_POOL.test that changes the mode due empties every queue, and the pool initialises until the new mode is in force; a write that does not
change test does nothing (R409). QUE_TEST
with kind 1 or 2 flips that many bits of the next word committed to its queue; the other kinds do nothing (R412). -/
def Rules.PoolSwitchesModes : Prop :=
  ∀ s : State, s.Running →
    (∀ (m : Master) (on : Bool), s.dev.Writes m 0x110000 (b2n on * 4) →
      let x := s.dev.setFlag QUE_POOL_test on
      (on = s.dev.flag QUE_POOL_test → exec (.poolTestWrite m on) s = .next (s.leaving s.dev)) ∧
      (on ≠ s.dev.flag QUE_POOL_test → x.poolDue = x.get QUE_POOL_mode → exec (.poolTestWrite m on) s = .next (s.leaving x)) ∧
      (on ≠ s.dev.flag QUE_POOL_test → x.poolDue ≠ x.get QUE_POOL_mode → ∃ d, exec (.poolTestWrite m on) s = .next (s.leaving d) ∧ d.flag QUE_POOL_test = on ∧ d.get QUE_POOL_mode = 1 ∧
        ∀ n < 64, (d.queue n).packets = [] ∧ (d.queue n).writing = [] ∧ (d.queue n).stalled = [])) ∧
    (s.dev.get QUE_POOL_mode = 1 → ∃ d, exec .poolInitDone s = .next (s.leaving d) ∧ d.get QUE_POOL_mode = s.dev.poolDue ∧
      s.dev.SameBut (fun k => k = QUE_POOL_mode.key) d) ∧
    (s.dev.get QUE_POOL_mode ≠ 1 → exec .poolInitDone s = .next (s.leaving s.dev)) ∧
    (∀ (m : Master) (n : Fin 64) (kind : Fin 4), s.dev.Writes m 0x110004 (n.val + 256 * kind.val) →
      (kind.val = 1 ∨ kind.val = 2 → ∃ d, exec (.errorInject m n kind) s = .next (s.leaving d) ∧ d.queue n = { s.dev.queue n with inject := kind.val } ∧
        ∀ k : Nat, k ≠ n.val → d.queue k = s.dev.queue k) ∧
      (kind.val = 0 ∨ kind.val = 3 → exec (.errorInject m n kind) s = .next (s.leaving s.dev)))

/-- What a command on one queue leaves: the other 63 queues with all that is in them, every register outside QUE, EVC and the violation record of ACT but
the status fields that follow other state, DRAM, the memory windows, NVM and the state of every other block, but for the DOUTs where clocks are lost and the
record of their monitors; time passes by POP_STALL_TIMEOUT alone. Host memory changes by messages of MSI-X alone and not at all where no event is routed to a
host. -/
def Rules.QueueCommandsKeepTheRest : Prop :=
  ∀ (s t : State) (i : Instr) (n : Fin 64), s.Running →
    ((∃ (m : Master) (wide : Bool), i = .queuePop m n wide) ∨ i = .popStallTimeout n ∨ (∃ (m : Master) (hi : BitVec 32), i = .pushWord m n hi) ∨
      (∃ m : Master, i = .pushCommit m n ∨ i = .pushBad m n ∨ i = .queueEnable m n ∨ i = .queueDisable m n ∨ i = .queueFlush m n ∨ i = .queOccClearHwm m n) ∨
      (∃ words, i = .packetReserve n words) ∨ (∃ k good, i = .packetCommit n k good) ∨ (∃ (m : Master) (k : Fin 4), i = .errorInject m n k)) →
    exec i s = .next t →
      (∀ k : Nat, k ≠ n.val → t.dev.queue k = s.dev.queue k) ∧
      (∀ k, keyBlock k ≠ 0x11 → keyBlock k ≠ 0x12 → keyBlock k ≠ 3 → k ≠ GCTL_XDROP.key → k ≠ TBS_STATE_coast.key → k ≠ ACQ_STATUS_complete.key → k ≠ DET_PEND_pending.key →
        k ≠ DET_ALM_STAT_token.key → t.dev.word k = s.dev.word k) ∧
      t.pending = s.pending ∧
      t.dev = { s.dev with
        regs := t.dev.regs, queues := t.dev.queues, staging := t.dev.staging, shadow := t.dev.shadow, host := t.dev.host, hostA := t.dev.hostA, hostB := t.dev.hostB, free := t.dev.free,
        time := { s.dev.time with clock := t.dev.time.clock, elapsed := t.dev.time.elapsed }, pwr := { s.dev.pwr with writer := s.dev.nvmOwner },
        le := { s.dev.le with dout := t.dev.le.dout, doutWas := t.dev.le.doutWas, doutDiff := t.dev.le.doutDiff } } ∧
      (s.dev.clocksLost = false → t.dev.le.dout = s.dev.le.dout) ∧ (i ≠ .popStallTimeout n → t.dev.time = s.dev.time) ∧
      ((∀ src < 128, s.dev.flag (EVC_ROUTE_ha_en src) = false ∧ s.dev.flag (EVC_ROUTE_hb_en src) = false) →
        t.dev.hostA = s.dev.hostA ∧ t.dev.hostB = s.dev.hostB)

/-- The submission of a compression job and the commands of the engine. -/
def Obligations.CompressionIsCommanded : Prop := Rules.JobsAreSubmitted ∧ Rules.JobCommandsAct

/-- The running of the jobs and the release of the archive. -/
def Obligations.CompressionRunsItsJobs : Prop := Rules.JobsAreChosen ∧ Rules.JobsEndAndSuspend ∧ Rules.ArchiveIsReleased

/-- The states of the host queues and of their pool. -/
def Obligations.QueuesOpenAndClose : Prop := Rules.QueueEnablesAndFlushes ∧ Rules.PoolSwitchesModes

/-- The producers of a queue, host and device, and what every command on a queue leaves as it was. -/
def Obligations.PacketsEnterWhole : Prop := Rules.PushesStageWords ∧ Rules.PacketsBecomeVisible ∧ Rules.QueueCommandsKeepTheRest
end

