-- ==== Sys2Proof/Laws/Bits.lean ====
section
/-! SUPPORT. Laws of bit fields and of lists with keys. -/
namespace Sys2Proof.Machine

/-! ## Bit fields -/

theorem bits_lt (v lo w : Nat) : bits v lo w < 2 ^ w := Nat.mod_lt _ (Nat.two_pow_pos w)

theorem bits_zero (lo w : Nat) : bits 0 lo w = 0 := by simp [bits]

/-- A number is its part above a field, the field and its part below it. -/
theorem bits_split (v lo w : Nat) : v = v / 2 ^ (lo + w) * 2 ^ (lo + w) + bits v lo w * 2 ^ lo + v % 2 ^ lo := by
  unfold bits
  have h1 := Nat.div_add_mod v (2 ^ lo)
  have h2 := Nat.div_add_mod (v / 2 ^ lo) (2 ^ w)
  have h3 : v / 2 ^ lo / 2 ^ w = v / 2 ^ (lo + w) := by rw [Nat.div_div_eq_div_mul, ← Nat.pow_add]
  rw [h3] at h2
  generalize hA : v / 2 ^ (lo + w) = A at *
  generalize hB : v / 2 ^ lo % 2 ^ w = B at *
  rw [Nat.pow_add]
  calc v = 2 ^ lo * (v / 2 ^ lo) + v % 2 ^ lo := h1.symm
    _ = 2 ^ lo * (2 ^ w * A + B) + v % 2 ^ lo := by rw [h2]
    _ = A * (2 ^ lo * 2 ^ w) + B * 2 ^ lo + v % 2 ^ lo := by ring

/-- `putBits` in parts. -/
theorem putBits_eq (v lo w x : Nat) :
    putBits v lo w x = v / 2 ^ (lo + w) * 2 ^ (lo + w) + x % 2 ^ w * 2 ^ lo + v % 2 ^ lo := by
  have h := bits_split v lo w
  unfold putBits
  generalize hA : v / 2 ^ (lo + w) * 2 ^ (lo + w) = A at *
  generalize hB : bits v lo w * 2 ^ lo = B at *
  generalize hC : v % 2 ^ lo = C at *
  omega

theorem low_lt (v lo : Nat) : v % 2 ^ lo < 2 ^ lo := Nat.mod_lt _ (Nat.two_pow_pos lo)

theorem bits_putBits_same (v lo w x : Nat) : bits (putBits v lo w x) lo w = x % 2 ^ w := by
  rw [putBits_eq]
  unfold bits
  have h : (v / 2 ^ (lo + w) * 2 ^ (lo + w) + x % 2 ^ w * 2 ^ lo + v % 2 ^ lo) = 2 ^ lo * (2 ^ w * (v / 2 ^ (lo + w)) + x % 2 ^ w) + v % 2 ^ lo := by
    rw [Nat.pow_add]; ring
  rw [h, Nat.mul_add_div (Nat.two_pow_pos lo), Nat.div_eq_of_lt (low_lt v lo), Nat.add_zero, Nat.mul_add_mod, Nat.mod_mod]

/-- A field above the one that is replaced keeps its value. -/
theorem bits_putBits_above (v lo w x lo' w' : Nat) (h : lo + w ≤ lo') : bits (putBits v lo w x) lo' w' = bits v lo' w' := by
  obtain ⟨k, rfl⟩ := Nat.exists_eq_add_of_le h
  unfold bits
  congr 1
  have e (y : Nat) : y / 2 ^ (lo + w + k) = y / 2 ^ (lo + w) / 2 ^ k := by rw [Nat.div_div_eq_div_mul, ← Nat.pow_add]
  rw [e, e, putBits_eq]
  congr 1
  have hx : x % 2 ^ w * 2 ^ lo + v % 2 ^ lo < 2 ^ (lo + w) := by
    have h1 : x % 2 ^ w + 1 ≤ 2 ^ w := Nat.mod_lt _ (Nat.two_pow_pos w)
    have h2 := low_lt v lo
    calc x % 2 ^ w * 2 ^ lo + v % 2 ^ lo < x % 2 ^ w * 2 ^ lo + 2 ^ lo := by omega
      _ = (x % 2 ^ w + 1) * 2 ^ lo := by ring
      _ ≤ 2 ^ w * 2 ^ lo := Nat.mul_le_mul_right _ h1
      _ = 2 ^ (lo + w) := by rw [Nat.pow_add]; ring
  rw [Nat.add_assoc, Nat.mul_comm, Nat.mul_add_div (Nat.two_pow_pos _), Nat.div_eq_of_lt hx, Nat.add_zero]

/-- A field below the one that is replaced keeps its value. -/
theorem bits_putBits_below (v lo w x lo' w' : Nat) (h : lo' + w' ≤ lo) : bits (putBits v lo w x) lo' w' = bits v lo' w' := by
  obtain ⟨k, rfl⟩ := Nat.exists_eq_add_of_le h
  have e (y : Nat) : bits y lo' w' = y % 2 ^ (lo' + w' + k) / 2 ^ lo' % 2 ^ w' := by
    unfold bits
    have : (2 : Nat) ^ (lo' + w' + k) = 2 ^ lo' * (2 ^ w' * 2 ^ k) := by rw [Nat.pow_add, Nat.pow_add]; ring
    rw [this, Nat.mod_mul_right_div_self, Nat.mod_mul_right_mod]
  rw [e, e v, putBits_eq]
  congr 2
  have : v / 2 ^ (lo' + w' + k + w) * 2 ^ (lo' + w' + k + w) + x % 2 ^ w * 2 ^ (lo' + w' + k) + v % 2 ^ (lo' + w' + k)
      = 2 ^ (lo' + w' + k) * (v / 2 ^ (lo' + w' + k + w) * 2 ^ w + x % 2 ^ w) + v % 2 ^ (lo' + w' + k) := by
    rw [Nat.pow_add 2 (lo' + w' + k) w]; ring
  rw [this, Nat.mul_add_mod, Nat.mod_mod]

/-- A field apart from the one that is replaced keeps its value. -/
theorem bits_putBits_apart (v lo w x lo' w' : Nat) (h : lo + w ≤ lo' ∨ lo' + w' ≤ lo) :
    bits (putBits v lo w x) lo' w' = bits v lo' w' :=
  h.elim (bits_putBits_above v lo w x lo' w') (bits_putBits_below v lo w x lo' w')

/-- Replacing a field by its own value changes nothing. -/
theorem putBits_self (v lo w : Nat) : putBits v lo w (bits v lo w) = v := by
  have h := bits_split v lo w
  rw [putBits_eq, Nat.mod_eq_of_lt (bits_lt v lo w)]
  exact h.symm

/-- A word stays a word when a field inside it is replaced. -/
theorem putBits_lt (v lo w x : Nat) (n : Nat) (hw : lo + w ≤ n) (hv : v < 2 ^ n) : putBits v lo w x < 2 ^ n := by
  obtain ⟨k, rfl⟩ := Nat.exists_eq_add_of_le hw
  rw [putBits_eq]
  have h1 : x % 2 ^ w + 1 ≤ 2 ^ w := Nat.mod_lt _ (Nat.two_pow_pos w)
  have h2 := low_lt v lo
  have h3 : v / 2 ^ (lo + w) + 1 ≤ 2 ^ k := by
    have : v / 2 ^ (lo + w) < 2 ^ k := by
      rw [Nat.div_lt_iff_lt_mul (Nat.two_pow_pos _)]
      calc v < 2 ^ (lo + w + k) := hv
        _ = 2 ^ k * 2 ^ (lo + w) := by rw [Nat.pow_add]; ring
    omega
  have h4 : x % 2 ^ w * 2 ^ lo + v % 2 ^ lo < 2 ^ (lo + w) := by
    calc x % 2 ^ w * 2 ^ lo + v % 2 ^ lo < x % 2 ^ w * 2 ^ lo + 2 ^ lo := by omega
      _ = (x % 2 ^ w + 1) * 2 ^ lo := by ring
      _ ≤ 2 ^ w * 2 ^ lo := Nat.mul_le_mul_right _ h1
      _ = 2 ^ (lo + w) := by rw [Nat.pow_add]; ring
  calc v / 2 ^ (lo + w) * 2 ^ (lo + w) + x % 2 ^ w * 2 ^ lo + v % 2 ^ lo
      < v / 2 ^ (lo + w) * 2 ^ (lo + w) + 2 ^ (lo + w) := by omega
    _ = (v / 2 ^ (lo + w) + 1) * 2 ^ (lo + w) := by ring
    _ ≤ 2 ^ k * 2 ^ (lo + w) := Nat.mul_le_mul_right _ h3
    _ = 2 ^ (lo + w + k) := by rw [Nat.pow_add 2 (lo + w) k]; ring

theorem b2n_mod_two (b : Bool) : b2n b % 2 = b2n b := by cases b <;> rfl

theorem b2n_ne_zero (b : Bool) : (b2n b != 0) = b := by cases b <;> rfl

theorem bitAt_eq (v i : Nat) : bitAt v i = (bits v i 1 == 1) := by simp [bitAt, bits]

/-- A bit that is set or cleared; the other bits stay. -/
theorem bitAt_setBit (v i j : Nat) (b : Bool) : bitAt (setBit v i b) j = if j = i then b else bitAt v j := by
  rw [bitAt_eq, bitAt_eq]
  unfold setBit
  by_cases h : j = i
  · subst h
    rw [bits_putBits_same, if_pos rfl]
    cases b <;> rfl
  · rw [bits_putBits_apart _ _ _ _ _ _ (by omega), if_neg h]

/-! ## Lists with keys -/

/-- An erased key is not found. -/
@[simp] theorem lookup_eraseKey_same {α : Type} (k : Nat) (xs : List (Nat × α)) : lookup k (eraseKey k xs) = none := by
  induction xs with
  | nil => rfl
  | cons p xs ih =>
    obtain ⟨j, b⟩ := p
    by_cases h : j = k
    · simpa [eraseKey, h] using ih
    · simp only [eraseKey, List.filter_cons] at ih ⊢
      simpa [lookup, h] using ih

/-- What is inserted at a key is found there. -/
@[simp] theorem lookup_insertKey_same {α : Type} (k : Nat) (a : α) (xs : List (Nat × α)) : lookup k (insertKey k a xs) = some a := by
  induction xs with
  | nil => simp [insertKey, lookup]
  | cons p xs ih =>
    obtain ⟨j, b⟩ := p
    simp only [insertKey]
    split
    · simp [lookup]
    · split
      · simp [lookup]
      · rename_i h1 h2
        simp [lookup, ih, Ne.symm h2]

/-- An insertion changes no other key. -/
theorem lookup_insertKey_ne {α : Type} {k i : Nat} (a : α) (xs : List (Nat × α)) (h : i ≠ k) : lookup i (insertKey k a xs) = lookup i xs := by
  induction xs with
  | nil => simp [insertKey, lookup, Ne.symm h]
  | cons p xs ih =>
    obtain ⟨j, b⟩ := p
    simp only [insertKey]
    split
    · simp [lookup, Ne.symm h]
    · split
      · rename_i h1 h2
        subst h2
        simp [lookup, Ne.symm h]
      · simp [lookup, ih]

end Sys2Proof.Machine
end

