-- ==== Sys2Proof/Laws/Memory.lean ====
section
/-! SUPPORT. Laws of sparse lists and memories: what a read finds after a write, and that every operation keeps the canonical form. -/
namespace Sys2Proof.Machine

variable {α : Type} [DecidableEq α]

/-! ## Reads after writes -/

omit [DecidableEq α] in
theorem cellGet_cellDrop_same (dflt : Nat → α) (k : Nat) (xs : List (Nat × α)) : cellGet dflt (cellDrop k xs) k = dflt k := by
  induction xs with
  | nil => rfl
  | cons p xs ih =>
    obtain ⟨j, w⟩ := p
    by_cases h : j = k <;> simp [cellDrop, cellGet, h] <;> simpa [cellDrop] using ih

omit [DecidableEq α] in
theorem cellGet_cellDrop_ne (dflt : Nat → α) {k i : Nat} (h : i ≠ k) (xs : List (Nat × α)) :
    cellGet dflt (cellDrop k xs) i = cellGet dflt xs i := by
  induction xs with
  | nil => rfl
  | cons p xs ih =>
    obtain ⟨j, w⟩ := p
    by_cases hk : j = k
    · subst hk
      simpa [cellDrop, cellGet, Ne.symm h] using ih
    · by_cases hi : j = i
      · simp [cellDrop, cellGet, hi, h]
      · simpa [cellDrop, cellGet, hk, hi] using ih

/-- A key reads as what was stored there last. -/
theorem cellGet_cellPut_same (dflt : Nat → α) (k : Nat) (v : α) (xs : List (Nat × α)) : cellGet dflt (cellPut dflt k v xs) k = v := by
  induction xs with
  | nil => simp only [cellPut]; split <;> simp_all [cellGet]
  | cons p xs ih =>
    obtain ⟨j, w⟩ := p
    simp only [cellPut]
    split
    · split
      · rename_i h; rw [cellGet_cellDrop_same, h]
      · simp [cellGet]
    · split
      · split
        · rename_i h; rw [cellGet_cellDrop_same, h]
        · simp [cellGet]
      · rename_i h1 h2
        simp [cellGet, ih, Ne.symm h2]

/-- A store changes no other key. -/
theorem cellGet_cellPut_ne (dflt : Nat → α) {k i : Nat} (v : α) (xs : List (Nat × α)) (h : i ≠ k) :
    cellGet dflt (cellPut dflt k v xs) i = cellGet dflt xs i := by
  induction xs with
  | nil => simp only [cellPut]; split <;> simp [cellGet, Ne.symm h]
  | cons p xs ih =>
    obtain ⟨j, w⟩ := p
    simp only [cellPut]
    split
    · split
      · exact cellGet_cellDrop_ne dflt h _
      · simp [cellGet, Ne.symm h]
    · split
      · rename_i h1 h2
        subst h2
        split
        · rw [cellGet_cellDrop_ne dflt h]; simp [cellGet, Ne.symm h]
        · simp [cellGet, Ne.symm h]
      · simp [cellGet, ih]

@[simp] theorem memRead_memWrite_same (m : List Host.Cell) (a : Nat) (b : Byte) : memRead (memWrite a b m) a = b :=
  cellGet_cellPut_same _ a b m

theorem memRead_memWrite_ne (m : List Host.Cell) {a i : Nat} (b : Byte) (h : i ≠ a) : memRead (memWrite a b m) i = memRead m i :=
  cellGet_cellPut_ne _ b m h

/-- A write of several bytes changes no byte outside them. -/
theorem memRead_memWriteN_out (m : List Host.Cell) (a i : Nat) (bs : List Byte) (h : i < a ∨ a + bs.length ≤ i) :
    memRead (memWriteN m a bs) i = memRead m i := by
  induction bs generalizing m a with
  | nil => rfl
  | cons b bs ih =>
    simp only [memWriteN, List.length_cons] at *
    rw [ih _ _ (by omega), memRead_memWrite_ne _ _ (by omega)]

/-- The bytes of a write are read where they were written. -/
theorem memRead_memWriteN_in (m : List Host.Cell) (a : Nat) (bs : List Byte) (i : Nat) (h : i < bs.length) :
    memRead (memWriteN m a bs) (a + i) = bs[i] := by
  induction bs generalizing m a i with
  | nil => exact absurd h (Nat.not_lt_zero _)
  | cons b bs ih =>
    cases i with
    | zero => simp only [memWriteN, Nat.add_zero, List.getElem_cons_zero]; rw [memRead_memWriteN_out _ _ _ _ (.inl (by omega))]; simp
    | succ i =>
      simp only [memWriteN, List.getElem_cons_succ]
      have := ih (memWrite a b m) (a + 1) i (by simpa using h)
      rwa [Nat.add_assoc, Nat.add_comm 1 i] at this

/-- A cleared range reads as zero; nothing else changes. -/
theorem memRead_memClear (m : List Host.Cell) (a n i : Nat) :
    memRead (memClear a n m) i = if a ≤ i ∧ i < a + n then 0 else memRead m i := by
  induction m with
  | nil => simp [memClear, memRead, cellGet, memDefault]
  | cons p m ih =>
    obtain ⟨j, w⟩ := p
    simp only [memClear, memRead] at ih ⊢
    by_cases hj : j < a ∨ a + n ≤ j
    · rw [List.filter_cons_of_pos (by simpa using hj)]
      simp only [cellGet]
      by_cases e : j = i
      · subst e; simp; omega
      · simp [e, ih]
    · rw [List.filter_cons_of_neg (by simpa using hj)]
      simp only [cellGet]
      rw [ih]
      by_cases e : j = i
      · subst e
        have : a ≤ j ∧ j < a + n := by omega
        simp [this]
      · simp [e]

theorem memReadN_length (m : List Host.Cell) (a n : Nat) : (memReadN m a n).length = n := by
  induction n generalizing a with
  | zero => rfl
  | succ n ih => simp [memReadN, ih]

/-- What was written is read back. -/
theorem memReadN_memWriteN_same (m : List Host.Cell) (a : Nat) (bs : List Byte) : memReadN (memWriteN m a bs) a bs.length = bs := by
  induction bs generalizing m a with
  | nil => rfl
  | cons b bs ih =>
    simp only [memWriteN, List.length_cons, memReadN, ih]
    rw [memRead_memWriteN_out _ _ _ _ (.inl (by omega))]
    simp

/-! ## The canonical form -/

/-- Every key of a list lies above a bound. -/
def Above (k : Nat) (xs : List (Nat × α)) : Prop := ∀ p ∈ xs, k < p.1

theorem cellWf_cons {dflt : Nat → α} {k : Nat} {v : α} {xs : List (Nat × α)} :
    cellWf dflt ((k, v) :: xs) = true ↔ v ≠ dflt k ∧ Above k xs ∧ cellWf dflt xs = true := by
  induction xs generalizing k v with
  | nil => simp [cellWf, Above]
  | cons p xs ih =>
    obtain ⟨j, w⟩ := p
    simp only [cellWf, Bool.and_eq_true, decide_eq_true_eq]
    constructor
    · rintro ⟨⟨h1, h2⟩, h3⟩
      refine ⟨h1, ?_, h3⟩
      intro p hp
      rcases List.mem_cons.1 hp with rfl | hp
      · exact h2
      · exact Nat.lt_trans h2 ((ih.1 h3).2.1 p hp)
    · rintro ⟨h1, h2, h3⟩
      exact ⟨⟨h1, h2 _ (List.mem_cons_self ..)⟩, h3⟩

omit [DecidableEq α] in
theorem cellDrop_above {k : Nat} {xs : List (Nat × α)} (h : Above k xs) : cellDrop k xs = xs :=
  List.filter_eq_self.2 (fun p hp => by have := h p hp; simp; omega)

theorem above_cellPut {dflt : Nat → α} {b k : Nat} {v : α} {xs : List (Nat × α)} (hb : b < k) (h : Above b xs) :
    Above b (cellPut dflt k v xs) := by
  induction xs with
  | nil =>
    simp only [cellPut]
    split
    · exact fun p hp => absurd hp (by simp)
    · intro p hp; simp at hp; subst hp; exact hb
  | cons p xs ih =>
    obtain ⟨j, w⟩ := p
    have hxs : Above b xs := fun q hq => h q (List.mem_cons_of_mem _ hq)
    have hdrop (ys : List (Nat × α)) (hy : Above b ys) : Above b (cellDrop k ys) := fun q hq => hy q (List.mem_of_mem_filter hq)
    simp only [cellPut]
    split
    · split
      · exact hdrop _ h
      · intro q hq
        rcases List.mem_cons.1 hq with rfl | hq
        · exact hb
        · exact h q hq
    · split
      · split
        · exact hdrop _ hxs
        · intro q hq
          rcases List.mem_cons.1 hq with rfl | hq
          · exact hb
          · exact hxs q hq
      · intro q hq
        rcases List.mem_cons.1 hq with rfl | hq
        · exact h _ (List.mem_cons_self ..)
        · exact ih hxs q hq

/-- A store keeps the canonical form. -/
theorem cellPut_wf {dflt : Nat → α} {k : Nat} {v : α} {xs : List (Nat × α)} (h : cellWf dflt xs = true) :
    cellWf dflt (cellPut dflt k v xs) = true := by
  induction xs with
  | nil =>
    simp only [cellPut]
    split
    · rfl
    · rename_i hv; simpa [cellWf] using hv
  | cons p xs ih =>
    obtain ⟨j, w⟩ := p
    obtain ⟨hw, ha, hx⟩ := cellWf_cons.1 h
    simp only [cellPut]
    split
    · rename_i hk
      have hab : Above k ((j, w) :: xs) := by
        intro q hq
        rcases List.mem_cons.1 hq with rfl | hq
        · exact hk
        · exact Nat.lt_trans hk (ha q hq)
      split
      · rw [cellDrop_above hab]; exact h
      · rename_i hv
        exact cellWf_cons.2 ⟨hv, hab, h⟩
    · split
      · rename_i hk
        subst hk
        split
        · rw [cellDrop_above ha]; exact hx
        · rename_i hv
          exact cellWf_cons.2 ⟨hv, ha, hx⟩
      · rename_i h1 h2
        exact cellWf_cons.2 ⟨hw, above_cellPut (by omega) ha, ih hx⟩

theorem memWrite_wf {m : List Host.Cell} (a : Nat) (b : Byte) (h : Memory.wf m = true) : Memory.wf (memWrite a b m) = true := cellPut_wf h

theorem memWriteN_wf {m : List Host.Cell} (a : Nat) (bs : List Byte) (h : Memory.wf m = true) : Memory.wf (memWriteN m a bs) = true := by
  induction bs generalizing m a with
  | nil => exact h
  | cons b bs ih => exact ih (a + 1) (memWrite_wf a b h)

theorem memClear_wf {m : List Host.Cell} (a n : Nat) (h : Memory.wf m = true) : Memory.wf (memClear a n m) = true := by
  induction m with
  | nil => rfl
  | cons p m ih =>
    obtain ⟨j, w⟩ := p
    obtain ⟨hw, ha, hx⟩ := cellWf_cons.1 h
    have := ih hx
    simp only [memClear, List.filter_cons] at this ⊢
    split
    · exact cellWf_cons.2 ⟨hw, fun q hq => ha q (List.mem_of_mem_filter hq), this⟩
    · exact this

theorem putWord_wf {d : Dev} (k : Nat) (w : Word) (h : cellWf resetOf d.regs = true) : cellWf resetOf (d.putWord k w).regs = true :=
  cellPut_wf h

theorem dev_set_wf {d : Dev} (f : Fld) (v : Nat) (h : cellWf resetOf d.regs = true) : cellWf resetOf (d.set f v).regs = true :=
  cellPut_wf h

/-- The memories and registers at reset are canonical. -/
theorem reset_wf : cellWf resetOf State.reset.dev.regs = true ∧ Memory.wf State.reset.dev.win = true
    ∧ Memory.wf State.reset.dev.dram = true ∧ Memory.wf State.reset.dev.hostA = true ∧ Memory.wf State.reset.dev.hostB = true :=
  ⟨rfl, rfl, rfl, rfl, rfl⟩

end Sys2Proof.Machine
end

