-- ==== Sys2Proof/Laws/State.lean ====
section
/-! SUPPORT. Laws of the state: an update of a register changes no other field of the device, and an update of another field changes
no register. -/
namespace Sys2Proof.Machine

/-! ## A register update changes no other field -/

@[simp] theorem Dev.shadow_putWord (d : Dev) (k : Nat) (w : Word) : (d.putWord k w).shadow = d.shadow := rfl
@[simp] theorem Dev.win_putWord (d : Dev) (k : Nat) (w : Word) : (d.putWord k w).win = d.win := rfl
@[simp] theorem Dev.dram_putWord (d : Dev) (k : Nat) (w : Word) : (d.putWord k w).dram = d.dram := rfl
@[simp] theorem Dev.nvm_putWord (d : Dev) (k : Nat) (w : Word) : (d.putWord k w).nvm = d.nvm := rfl
@[simp] theorem Dev.hostA_putWord (d : Dev) (k : Nat) (w : Word) : (d.putWord k w).hostA = d.hostA := rfl
@[simp] theorem Dev.hostB_putWord (d : Dev) (k : Nat) (w : Word) : (d.putWord k w).hostB = d.hostB := rfl
@[simp] theorem Dev.free_putWord (d : Dev) (k : Nat) (w : Word) : (d.putWord k w).free = d.free := rfl
@[simp] theorem Dev.stopped_putWord (d : Dev) (k : Nat) (w : Word) : (d.putWord k w).stopped = d.stopped := rfl
@[simp] theorem Dev.quires_putWord (d : Dev) (k : Nat) (w : Word) : (d.putWord k w).quires = d.quires := rfl
@[simp] theorem Dev.avs_putWord (d : Dev) (k : Nat) (w : Word) : (d.putWord k w).avs = d.avs := rfl
@[simp] theorem Dev.time_putWord (d : Dev) (k : Nat) (w : Word) : (d.putWord k w).time = d.time := rfl
@[simp] theorem Dev.logs_putWord (d : Dev) (k : Nat) (w : Word) : (d.putWord k w).logs = d.logs := rfl
@[simp] theorem Dev.queues_putWord (d : Dev) (k : Nat) (w : Word) : (d.putWord k w).queues = d.queues := rfl
@[simp] theorem Dev.staging_putWord (d : Dev) (k : Nat) (w : Word) : (d.putWord k w).staging = d.staging := rfl
@[simp] theorem Dev.host_putWord (d : Dev) (k : Nat) (w : Word) : (d.putWord k w).host = d.host := rfl
@[simp] theorem Dev.eth_putWord (d : Dev) (k : Nat) (w : Word) : (d.putWord k w).eth = d.eth := rfl
@[simp] theorem Dev.bnd_putWord (d : Dev) (k : Nat) (w : Word) : (d.putWord k w).bnd = d.bnd := rfl
@[simp] theorem Dev.str_putWord (d : Dev) (k : Nat) (w : Word) : (d.putWord k w).str = d.str := rfl
@[simp] theorem Dev.col_putWord (d : Dev) (k : Nat) (w : Word) : (d.putWord k w).col = d.col := rfl
@[simp] theorem Dev.flt_putWord (d : Dev) (k : Nat) (w : Word) : (d.putWord k w).flt = d.flt := rfl
@[simp] theorem Dev.det_putWord (d : Dev) (k : Nat) (w : Word) : (d.putWord k w).det = d.det := rfl
@[simp] theorem Dev.sch_putWord (d : Dev) (k : Nat) (w : Word) : (d.putWord k w).sch = d.sch := rfl
@[simp] theorem Dev.kern_putWord (d : Dev) (k : Nat) (w : Word) : (d.putWord k w).kern = d.kern := rfl
@[simp] theorem Dev.le_putWord (d : Dev) (k : Nat) (w : Word) : (d.putWord k w).le = d.le := rfl
@[simp] theorem Dev.spn_putWord (d : Dev) (k : Nat) (w : Word) : (d.putWord k w).spn = d.spn := rfl
@[simp] theorem Dev.acq_putWord (d : Dev) (k : Nat) (w : Word) : (d.putWord k w).acq = d.acq := rfl
@[simp] theorem Dev.enr_putWord (d : Dev) (k : Nat) (w : Word) : (d.putWord k w).enr = d.enr := rfl
@[simp] theorem Dev.cmp_putWord (d : Dev) (k : Nat) (w : Word) : (d.putWord k w).cmp = d.cmp := rfl
@[simp] theorem Dev.ckp_putWord (d : Dev) (k : Nat) (w : Word) : (d.putWord k w).ckp = d.ckp := rfl
@[simp] theorem Dev.pwr_putWord (d : Dev) (k : Nat) (w : Word) : (d.putWord k w).pwr = d.pwr := rfl
@[simp] theorem Dev.island_putWord (d : Dev) (k : Nat) (w : Word) : (d.putWord k w).island = d.island := rfl
@[simp] theorem Dev.tap_putWord (d : Dev) (k : Nat) (w : Word) : (d.putWord k w).tap = d.tap := rfl

@[simp] theorem Dev.shadow_set (d : Dev) (f : Fld) (v : Nat) : (d.set f v).shadow = d.shadow := rfl
@[simp] theorem Dev.win_set (d : Dev) (f : Fld) (v : Nat) : (d.set f v).win = d.win := rfl
@[simp] theorem Dev.dram_set (d : Dev) (f : Fld) (v : Nat) : (d.set f v).dram = d.dram := rfl
@[simp] theorem Dev.nvm_set (d : Dev) (f : Fld) (v : Nat) : (d.set f v).nvm = d.nvm := rfl
@[simp] theorem Dev.hostA_set (d : Dev) (f : Fld) (v : Nat) : (d.set f v).hostA = d.hostA := rfl
@[simp] theorem Dev.hostB_set (d : Dev) (f : Fld) (v : Nat) : (d.set f v).hostB = d.hostB := rfl
@[simp] theorem Dev.free_set (d : Dev) (f : Fld) (v : Nat) : (d.set f v).free = d.free := rfl
@[simp] theorem Dev.stopped_set (d : Dev) (f : Fld) (v : Nat) : (d.set f v).stopped = d.stopped := rfl
@[simp] theorem Dev.quires_set (d : Dev) (f : Fld) (v : Nat) : (d.set f v).quires = d.quires := rfl
@[simp] theorem Dev.avs_set (d : Dev) (f : Fld) (v : Nat) : (d.set f v).avs = d.avs := rfl
@[simp] theorem Dev.time_set (d : Dev) (f : Fld) (v : Nat) : (d.set f v).time = d.time := rfl
@[simp] theorem Dev.logs_set (d : Dev) (f : Fld) (v : Nat) : (d.set f v).logs = d.logs := rfl
@[simp] theorem Dev.queues_set (d : Dev) (f : Fld) (v : Nat) : (d.set f v).queues = d.queues := rfl
@[simp] theorem Dev.staging_set (d : Dev) (f : Fld) (v : Nat) : (d.set f v).staging = d.staging := rfl
@[simp] theorem Dev.host_set (d : Dev) (f : Fld) (v : Nat) : (d.set f v).host = d.host := rfl
@[simp] theorem Dev.eth_set (d : Dev) (f : Fld) (v : Nat) : (d.set f v).eth = d.eth := rfl
@[simp] theorem Dev.bnd_set (d : Dev) (f : Fld) (v : Nat) : (d.set f v).bnd = d.bnd := rfl
@[simp] theorem Dev.str_set (d : Dev) (f : Fld) (v : Nat) : (d.set f v).str = d.str := rfl
@[simp] theorem Dev.col_set (d : Dev) (f : Fld) (v : Nat) : (d.set f v).col = d.col := rfl
@[simp] theorem Dev.flt_set (d : Dev) (f : Fld) (v : Nat) : (d.set f v).flt = d.flt := rfl
@[simp] theorem Dev.det_set (d : Dev) (f : Fld) (v : Nat) : (d.set f v).det = d.det := rfl
@[simp] theorem Dev.sch_set (d : Dev) (f : Fld) (v : Nat) : (d.set f v).sch = d.sch := rfl
@[simp] theorem Dev.kern_set (d : Dev) (f : Fld) (v : Nat) : (d.set f v).kern = d.kern := rfl
@[simp] theorem Dev.le_set (d : Dev) (f : Fld) (v : Nat) : (d.set f v).le = d.le := rfl
@[simp] theorem Dev.spn_set (d : Dev) (f : Fld) (v : Nat) : (d.set f v).spn = d.spn := rfl
@[simp] theorem Dev.acq_set (d : Dev) (f : Fld) (v : Nat) : (d.set f v).acq = d.acq := rfl
@[simp] theorem Dev.enr_set (d : Dev) (f : Fld) (v : Nat) : (d.set f v).enr = d.enr := rfl
@[simp] theorem Dev.cmp_set (d : Dev) (f : Fld) (v : Nat) : (d.set f v).cmp = d.cmp := rfl
@[simp] theorem Dev.ckp_set (d : Dev) (f : Fld) (v : Nat) : (d.set f v).ckp = d.ckp := rfl
@[simp] theorem Dev.pwr_set (d : Dev) (f : Fld) (v : Nat) : (d.set f v).pwr = d.pwr := rfl
@[simp] theorem Dev.island_set (d : Dev) (f : Fld) (v : Nat) : (d.set f v).island = d.island := rfl
@[simp] theorem Dev.tap_set (d : Dev) (f : Fld) (v : Nat) : (d.set f v).tap = d.tap := rfl

/-! ## The other updates of registers are updates of a field -/

theorem Dev.setFlag_eq (d : Dev) (f : Fld) (b : Bool) : d.setFlag f b = d.set f (b2n b) := rfl
theorem Dev.add_eq (d : Dev) (f : Fld) (n : Nat) : d.add f n = d.set f (min (d.get f + n) (2 ^ f.width - 1)) := rfl
theorem Dev.inc_eq (d : Dev) (f : Fld) : d.inc f = d.set f (min (d.get f + 1) (2 ^ f.width - 1)) := rfl
theorem Dev.incWrap_eq (d : Dev) (f : Fld) : d.incWrap f = d.set f (d.get f + 1) := rfl
theorem Dev.setI_eq (d : Dev) (f : Fld) (v : Int) : d.setI f v = d.set f (ofInt f.width v) := rfl
theorem Dev.set2_eq (d : Dev) (lo hi : Fld) (v : Nat) : d.set2 lo hi v = (d.set lo v).set hi (v / 2 ^ 32) := rfl
theorem Dev.flag_eq (d : Dev) (f : Fld) : d.flag f = (d.get f != 0) := rfl

/-! ## Other updates change no register -/

/-- The word at a key of a register file. -/
def regWord (regs : List (Nat × Word)) (k : Nat) : Word := cellGet resetOf regs k

/-- The value of a field in a register file. -/
def regGet (regs : List (Nat × Word)) (f : Fld) : Nat := bits (regWord regs f.key).toNat f.lo f.width

section
variable (regs : List (Nat × Word)) (x1 : List (Nat × Word)) (x2 : List Host.Cell) (x3 : List Host.Cell) (x4 : NvmSt) (x5 : List Host.Cell) (x6 : List Host.Cell) (x7 : Nat) (x8 : List Nat) (x9 : List (Nat × Quire)) (x10 : AvsSt) (x11 : TimeSt) (x12 : LogSt) (x13 : List (Nat × QueueSt)) (x14 : List (Nat × Staging)) (x15 : HostSt) (x16 : EthSt) (x17 : BndSt) (x18 : StrSt) (x19 : ColSt) (x20 : FltSt) (x21 : DetSt) (x22 : SchSt) (x23 : KernSt) (x24 : LeSt) (x25 : SpnSt) (x26 : AcqSt) (x27 : EnrSt) (x28 : CmpSt) (x29 : CkpSt) (x30 : PwrSt) (x31 : IslandSt) (x32 : TapSt)

@[simp] theorem Dev.word_mk (k : Nat) :
    (Dev.mk regs x1 x2 x3 x4 x5 x6 x7 x8 x9 x10 x11 x12 x13 x14 x15 x16 x17 x18 x19 x20 x21 x22 x23 x24 x25 x26 x27 x28 x29 x30 x31 x32).word k = regWord regs k := rfl

@[simp] theorem Dev.get_mk (f : Fld) :
    (Dev.mk regs x1 x2 x3 x4 x5 x6 x7 x8 x9 x10 x11 x12 x13 x14 x15 x16 x17 x18 x19 x20 x21 x22 x23 x24 x25 x26 x27 x28 x29 x30 x31 x32).get f = regGet regs f := rfl

end

@[simp] theorem regWord_regs (d : Dev) (k : Nat) : regWord d.regs k = d.word k := rfl
@[simp] theorem regGet_regs (d : Dev) (f : Fld) : regGet d.regs f = d.get f := rfl

end Sys2Proof.Machine
end

