-- ==== Sys2Proof/Laws/Registers.lean ====
section
/-! SUPPORT. Laws of registers and fields: what a field reads as after a field was set. -/
namespace Sys2Proof.Machine

/-- The field lies in its word. -/
def Fld.inWord (f : Fld) : Bool := f.lo + f.width ≤ 32

/-- Two fields share no bit. -/
def Fld.apart (f g : Fld) : Bool := f.key != g.key || f.lo + f.width ≤ g.lo || g.lo + g.width ≤ f.lo

@[simp] theorem Dev.word_putWord_same (d : Dev) (k : Nat) (w : Word) : (d.putWord k w).word k = w := cellGet_cellPut_same _ k w d.regs

theorem Dev.word_putWord_ne (d : Dev) {k i : Nat} (w : Word) (h : i ≠ k) : (d.putWord k w).word i = d.word i :=
  cellGet_cellPut_ne _ w d.regs h

/-- A set field is found in its word. -/
theorem Dev.word_set_same (d : Dev) (f : Fld) (v : Nat) (hf : f.inWord = true) :
    ((d.set f v).word f.key).toNat = putBits (d.word f.key).toNat f.lo f.width v := by
  simp only [Dev.set, Dev.word_putWord_same, BitVec.toNat_ofNat]
  exact Nat.mod_eq_of_lt (putBits_lt _ _ _ _ 32 (by simpa [Fld.inWord] using hf) (BitVec.isLt _))

theorem Dev.word_set_ne (d : Dev) (f : Fld) (v : Nat) {k : Nat} (h : k ≠ f.key) : (d.set f v).word k = d.word k :=
  Dev.word_putWord_ne d _ h

/-- A field reads as what it was set to, in its width. -/
theorem Dev.get_set_same (d : Dev) (f : Fld) (v : Nat) (hf : f.inWord = true) : (d.set f v).get f = v % 2 ^ f.width := by
  unfold Dev.get
  rw [Dev.word_set_same d f v hf, bits_putBits_same]

/-- Setting a field changes no field apart from it. -/
theorem Dev.get_set_apart (d : Dev) (f g : Fld) (v : Nat) (hf : f.inWord = true) (h : f.apart g = true) : (d.set f v).get g = d.get g := by
  unfold Dev.get
  by_cases hk : g.key = f.key
  · rw [hk, Dev.word_set_same d f v hf, bits_putBits_apart]
    simpa [Fld.apart, hk] using h
  · rw [Dev.word_set_ne d f v hk]

/-- Setting a field changes no field of another word. -/
theorem Dev.get_set_ne (d : Dev) (f g : Fld) (v : Nat) (h : g.key ≠ f.key) : (d.set f v).get g = d.get g := by
  unfold Dev.get
  rw [Dev.word_set_ne d f v h]

/-- A flag reads as what it was set to. -/
theorem Dev.flag_setFlag_same (d : Dev) (f : Fld) (b : Bool) (hf : f.inWord = true) (hw : f.width = 1) : (d.setFlag f b).flag f = b := by
  rw [Dev.flag_eq, Dev.setFlag_eq, Dev.get_set_same d f _ hf, hw, Nat.pow_one, b2n_mod_two, b2n_ne_zero]

/-- A field never exceeds its width. -/
theorem Dev.get_lt (d : Dev) (f : Fld) : d.get f < 2 ^ f.width := bits_lt _ _ _

/-- One bit of a field set: that bit reads as written and the others as before. -/
theorem Dev.bitAt_get_setBit (d : Dev) (f : Fld) (i : Nat) (b : Bool) (hf : f.inWord = true) (hi : i < f.width) (k : Nat) :
    bitAt ((d.set f (setBit (d.get f) i b)).get f) k = if k = i then b else bitAt (d.get f) k := by
  have h : setBit (d.get f) i b < 2 ^ f.width := putBits_lt _ _ _ _ _ (by omega) (d.get_lt f)
  rw [Dev.get_set_same d f _ hf, Nat.mod_eq_of_lt h, bitAt_setBit]

/-- Setting a field to the value it holds changes no word. -/
theorem Dev.word_set_self (d : Dev) (f : Fld) (k : Nat) (hf : f.inWord = true) : (d.set f (d.get f)).word k = d.word k := by
  by_cases h : k = f.key
  · subst h
    apply BitVec.eq_of_toNat_eq
    rw [Dev.word_set_same d f _ hf]
    exact putBits_self _ _ _
  · exact Dev.word_set_ne d f _ h

/-- A counter that saturates: it advances below its maximum and stays there. -/
theorem Dev.get_inc_same (d : Dev) (f : Fld) (hf : f.inWord = true) : (d.inc f).get f = min (d.get f + 1) (2 ^ f.width - 1) := by
  rw [Dev.inc_eq, Dev.get_set_same d f _ hf]
  exact Nat.mod_eq_of_lt (by have := Nat.two_pow_pos f.width; omega)

theorem Dev.get_add_same (d : Dev) (f : Fld) (n : Nat) (hf : f.inWord = true) :
    (d.add f n).get f = min (d.get f + n) (2 ^ f.width - 1) := by
  rw [Dev.add_eq, Dev.get_set_same d f _ hf]
  exact Nat.mod_eq_of_lt (by have := Nat.two_pow_pos f.width; omega)

end Sys2Proof.Machine
end

