-- ==== Sys2Proof/Laws/Events.lean ====
section
/-! SUPPORT. Laws of the event controller: what raising a source changes, and what it leaves. -/
namespace Sys2Proof.Machine

/-- `e` differs from `d` in nothing but registers of EVC, GCTL_XDROP, host memory and the state of the host interface. -/
structure EventOnly (d e : Dev) : Prop where
  word : ∀ k, keyBlock k ≠ 0x12 → k ≠ GCTL_XDROP.key → e.word k = d.word k
  rest : e = { d with regs := e.regs, hostA := e.hostA, hostB := e.hostB, host := e.host }

theorem EventOnly.refl (d : Dev) : EventOnly d d := ⟨fun _ _ _ => rfl, rfl⟩

theorem EventOnly.trans {a b c : Dev} (h : EventOnly a b) (g : EventOnly b c) : EventOnly a c :=
  ⟨fun k hk hx => (g.word k hk hx).trans (h.word k hk hx), by rw [g.rest, h.rest]⟩

theorem eventOnly_set {d : Dev} (f : Fld) (v : Nat) (h : keyBlock f.key = 0x12) : EventOnly d (d.set f v) :=
  ⟨fun _ hk _ => Dev.word_set_ne d f v (fun e => hk (e ▸ h)), rfl⟩

theorem eventOnly_hostWrite (e a : Nat) (bs : List Byte) (d : Dev) : EventOnly d (d.hostWrite e a bs) := by
  unfold Dev.hostWrite
  split
  · unfold xdrop
    rw [Dev.inc_eq]
    exact ⟨fun _ _ hx => Dev.word_set_ne d _ _ hx, rfl⟩
  · split
    · split <;> exact ⟨fun _ _ _ => rfl, rfl⟩
    · exact EventOnly.refl d

theorem eventOnly_msixSend {e v : Nat} (d : Dev) (_ : e < 2) (hv : v < 32) : EventOnly d (msixSend e v d) := by
  unfold msixSend
  split
  · refine eventOnly_set _ _ ?_
    simp only [EVC_PBA, keyBlock, masterSpan]
    omega
  · exact eventOnly_hostWrite ..

theorem Dev.evVector_lt (d : Dev) (e s : Nat) : d.evVector e s < 32 := by
  unfold Dev.evVector
  split <;> exact d.get_lt _

theorem eventOnly_evPend {t s : Nat} (d : Dev) (ht : t < 3) (hs : s < 128) : EventOnly d (evPend t s d) := by
  unfold evPend
  have h := eventOnly_set (d := d) (EVC_PEND t (s / 32)) (setBit (d.get (EVC_PEND t (s / 32))) (s % 32) true)
    (by simp only [EVC_PEND, keyBlock, masterSpan]; omega)
  simp only
  split
  · rename_i hc
    simp only [Bool.and_eq_true, decide_eq_true_eq] at hc
    exact h.trans (eventOnly_msixSend _ hc.1.2 (Dev.evVector_lt ..))
  · exact h

/-- Raising a source changes EVC, host memory and the latch of the logic engine, and nothing else. -/
theorem eventOnly_raise {s : Nat} (d : Dev) (hs : s < 128) : EventOnly d (raise s d) := by
  unfold raise
  have step (c : Bool) (t : Nat) (ht : t < 3) (x : Dev) : EventOnly x (if c then evPend t s x else x) := by
    split
    · exact eventOnly_evPend x ht hs
    · exact EventOnly.refl x
  have h0 := step (d.flag (EVC_ROUTE_ha_en s)) 0 (by omega) d
  revert h0
  generalize (if d.flag (EVC_ROUTE_ha_en s) = true then evPend 0 s d else d) = x
  intro h0
  have h1 := step (x.flag (EVC_ROUTE_hb_en s)) 1 (by omega) x
  revert h1
  try simp only []
  generalize (if x.flag (EVC_ROUTE_hb_en s) = true then evPend 1 s x else x) = y
  intro h1
  have h2 := step (y.flag (EVC_ROUTE_mg_en s)) 2 (by omega) y
  revert h2
  try simp only []
  generalize (if y.flag (EVC_ROUTE_mg_en s) = true then evPend 2 s y else y) = z
  intro h2
  refine h0.trans (h1.trans (h2.trans ?_))
  split
  · exact ⟨fun _ _ _ => rfl, rfl⟩
  · exact EventOnly.refl z

theorem eventOnly_raiseMerged {s : Nat} (d : Dev) (hs : s < 128) : EventOnly d (raiseMerged s d) := by
  unfold raiseMerged
  split
  · exact EventOnly.refl d
  · rename_i due _
    split
    · exact EventOnly.refl d
    · exact EventOnly.trans (b := { d with host := { d.host with
        evMerged := eraseKey s d.host.evMerged, evLast := insertKey s (due / 1000000) d.host.evLast } }) ⟨fun _ _ _ => rfl, rfl⟩ (eventOnly_raise _ hs)

theorem eventOnly_raiseMs {s : Nat} (d : Dev) (hs : s < 128) : EventOnly d (raiseMs s d) := by
  unfold raiseMs
  refine (eventOnly_raiseMerged d hs).trans ?_
  generalize raiseMerged s d = d
  dsimp only
  split
  · split
    · exact EventOnly.refl d
    · exact ⟨fun _ _ _ => rfl, rfl⟩
  · exact EventOnly.trans (b := { d with host := { d.host with evLast := insertKey s (d.now / 1000000) d.host.evLast } })
      ⟨fun _ _ _ => rfl, rfl⟩ (eventOnly_raise _ hs)

theorem EventOnly.get {d e : Dev} (h : EventOnly d e) (f : Fld) (hf : keyBlock f.key ≠ 0x12) (hx : f.key ≠ GCTL_XDROP.key) : e.get f = d.get f := by
  unfold Dev.get
  rw [h.word _ hf hx]

theorem get_raise (d : Dev) {s : Nat} (f : Fld) (hs : s < 128) (hf : keyBlock f.key ≠ 0x12) (hx : f.key ≠ GCTL_XDROP.key) :
    (raise s d).get f = d.get f :=
  (eventOnly_raise d hs).get f hf hx

theorem get_raiseMs (d : Dev) {s : Nat} (f : Fld) (hs : s < 128) (hf : keyBlock f.key ≠ 0x12) (hx : f.key ≠ GCTL_XDROP.key) :
    (raiseMs s d).get f = d.get f :=
  (eventOnly_raiseMs d hs).get f hf hx

theorem EventOnly.shadow {d e : Dev} (h : EventOnly d e) : e.shadow = d.shadow := by rw [h.rest]
theorem EventOnly.win {d e : Dev} (h : EventOnly d e) : e.win = d.win := by rw [h.rest]
theorem EventOnly.dram {d e : Dev} (h : EventOnly d e) : e.dram = d.dram := by rw [h.rest]
theorem EventOnly.nvm {d e : Dev} (h : EventOnly d e) : e.nvm = d.nvm := by rw [h.rest]
theorem EventOnly.free {d e : Dev} (h : EventOnly d e) : e.free = d.free := by rw [h.rest]
theorem EventOnly.stopped {d e : Dev} (h : EventOnly d e) : e.stopped = d.stopped := by rw [h.rest]
theorem EventOnly.quires {d e : Dev} (h : EventOnly d e) : e.quires = d.quires := by rw [h.rest]
theorem EventOnly.avs {d e : Dev} (h : EventOnly d e) : e.avs = d.avs := by rw [h.rest]
theorem EventOnly.time {d e : Dev} (h : EventOnly d e) : e.time = d.time := by rw [h.rest]
theorem EventOnly.logs {d e : Dev} (h : EventOnly d e) : e.logs = d.logs := by rw [h.rest]
theorem EventOnly.queues {d e : Dev} (h : EventOnly d e) : e.queues = d.queues := by rw [h.rest]
theorem EventOnly.staging {d e : Dev} (h : EventOnly d e) : e.staging = d.staging := by rw [h.rest]
theorem EventOnly.eth {d e : Dev} (h : EventOnly d e) : e.eth = d.eth := by rw [h.rest]
theorem EventOnly.bnd {d e : Dev} (h : EventOnly d e) : e.bnd = d.bnd := by rw [h.rest]
theorem EventOnly.str {d e : Dev} (h : EventOnly d e) : e.str = d.str := by rw [h.rest]
theorem EventOnly.col {d e : Dev} (h : EventOnly d e) : e.col = d.col := by rw [h.rest]
theorem EventOnly.flt {d e : Dev} (h : EventOnly d e) : e.flt = d.flt := by rw [h.rest]
theorem EventOnly.det {d e : Dev} (h : EventOnly d e) : e.det = d.det := by rw [h.rest]
theorem EventOnly.sch {d e : Dev} (h : EventOnly d e) : e.sch = d.sch := by rw [h.rest]
theorem EventOnly.kern {d e : Dev} (h : EventOnly d e) : e.kern = d.kern := by rw [h.rest]
theorem EventOnly.le {d e : Dev} (h : EventOnly d e) : e.le = d.le := by rw [h.rest]
theorem EventOnly.spn {d e : Dev} (h : EventOnly d e) : e.spn = d.spn := by rw [h.rest]
theorem EventOnly.acq {d e : Dev} (h : EventOnly d e) : e.acq = d.acq := by rw [h.rest]
theorem EventOnly.enr {d e : Dev} (h : EventOnly d e) : e.enr = d.enr := by rw [h.rest]
theorem EventOnly.cmp {d e : Dev} (h : EventOnly d e) : e.cmp = d.cmp := by rw [h.rest]
theorem EventOnly.ckp {d e : Dev} (h : EventOnly d e) : e.ckp = d.ckp := by rw [h.rest]
theorem EventOnly.pwr {d e : Dev} (h : EventOnly d e) : e.pwr = d.pwr := by rw [h.rest]
theorem EventOnly.island {d e : Dev} (h : EventOnly d e) : e.island = d.island := by rw [h.rest]
theorem EventOnly.tap {d e : Dev} (h : EventOnly d e) : e.tap = d.tap := by rw [h.rest]

end Sys2Proof.Machine
end

