-- ==== Sys2Proof/Laws/Logs.lean ====
section
/-! SUPPORT. Laws of the event recorders: what appending a record changes, and what it leaves. -/
namespace Sys2Proof.Machine

/-- `e` differs from `d` in nothing but registers of EVC and EVR, GCTL_XDROP, host memory, the host interface, the logs and NVM. -/
structure LogOnly (d e : Dev) : Prop where
  word : ∀ k, keyBlock k ≠ 0x12 → keyBlock k ≠ 0xF → k ≠ GCTL_XDROP.key → e.word k = d.word k
  rest : e = { d with regs := e.regs, hostA := e.hostA, hostB := e.hostB, host := e.host, logs := e.logs, nvm := e.nvm }

theorem LogOnly.refl (d : Dev) : LogOnly d d := ⟨fun _ _ _ _ => rfl, rfl⟩

theorem LogOnly.trans {a b c : Dev} (h : LogOnly a b) (g : LogOnly b c) : LogOnly a c :=
  ⟨fun k h1 h2 h3 => (g.word k h1 h2 h3).trans (h.word k h1 h2 h3), by rw [g.rest, h.rest]⟩

theorem EventOnly.logOnly {d e : Dev} (h : EventOnly d e) : LogOnly d e :=
  ⟨fun k h1 _ h3 => h.word k h1 h3, by rw [h.rest]⟩

theorem logOnly_set {d : Dev} (f : Fld) (v : Nat) (h : keyBlock f.key = 0xF) : LogOnly d (d.set f v) :=
  ⟨fun _ _ h2 _ => Dev.word_set_ne d f v (fun e => h2 (e ▸ h)), rfl⟩

theorem Log.source_lt (l : Log) : l.source < 128 := by cases l <;> decide

theorem logOnly_putLog (l : Log) (rs : List (List Byte)) (d : Dev) : LogOnly d (d.putLog l rs) := by
  unfold Dev.putLog
  refine LogOnly.trans (b := match l with
    | .grid => { d with logs := { d.logs with grid := rs } }
    | .legal => { d with logs := { d.logs with legal := rs } }) ?_ ?_
  · cases l <;> exact ⟨fun _ _ _ _ => rfl, rfl⟩
  · simp only [Dev.setFlag_eq]
    exact LogOnly.trans (logOnly_set _ _ (by cases l <;> decide)) (logOnly_set _ _ (by cases l <;> decide))

theorem logOnly_raise (d : Dev) {s : Nat} (hs : s < 128) : LogOnly d (raise s d) := (eventOnly_raise d hs).logOnly

theorem logOnly_raiseMs (d : Dev) {s : Nat} (hs : s < 128) : LogOnly d (raiseMs s d) := (eventOnly_raiseMs d hs).logOnly

theorem logOnly_logDiscard (l : Log) (d : Dev) : LogOnly d (logDiscard l d) := by
  unfold logDiscard
  refine LogOnly.trans (b := d.inc (EVR_DISCARD l.idx)) ?_ (LogOnly.trans ?_ (logOnly_raiseMs _ l.source_lt))
  · rw [Dev.inc_eq]
    exact logOnly_set _ _ (by cases l <;> decide)
  · cases l <;> exact ⟨fun _ _ _ _ => rfl, rfl⟩

/-- Appending a record changes EVR, the log and what its event reaches, and nothing else. -/
theorem logOnly_logAppend (l : Log) (r : List Byte) (d : Dev) : LogOnly d (logAppend l r d) := by
  unfold logAppend
  simp only
  split
  · exact logOnly_logDiscard l d
  · split
    · exact (logOnly_putLog l _ d).trans (logOnly_raiseMs _ l.source_lt)
    · exact logOnly_putLog l _ d

theorem logOnly_gridLog (code p0 p1 p2 p3 : Nat) (d : Dev) : LogOnly d (gridLog code p0 p1 p2 p3 d) := logOnly_logAppend _ _ _

theorem logOnly_legalLog (code p0 p1 p2 p3 : Nat) (d : Dev) : LogOnly d (legalLog code p0 p1 p2 p3 d) := by
  unfold legalLog
  split
  · exact logOnly_logDiscard _ d
  · exact ⟨fun _ _ _ _ => rfl, rfl⟩

theorem LogOnly.get {d e : Dev} (h : LogOnly d e) (f : Fld) (h1 : keyBlock f.key ≠ 0x12) (h2 : keyBlock f.key ≠ 0xF)
    (h3 : f.key ≠ GCTL_XDROP.key) : e.get f = d.get f := by
  unfold Dev.get
  rw [h.word _ h1 h2 h3]

theorem get_gridLog (code p0 p1 p2 p3 : Nat) (d : Dev) (f : Fld) (h1 : keyBlock f.key ≠ 0x12) (h2 : keyBlock f.key ≠ 0xF)
    (h3 : f.key ≠ GCTL_XDROP.key) : (gridLog code p0 p1 p2 p3 d).get f = d.get f := (logOnly_gridLog ..).get f h1 h2 h3

end Sys2Proof.Machine
end

