-- ==== Sys2Proof/Laws/Routing.lean ====
section
/-! SUPPORT. Laws of the register map: the row behind the offset of each register that repeats over an index, and the way of a write
to its register. -/
namespace Sys2Proof.Machine

/-! ## The row of an offset -/

/-- The first offset past a register's arrays. -/
def RegRow.stop (r : RegRow) : Nat := match r.dims with
  | [] => r.base + 1
  | (n, s) :: _ => r.base + n * s

theorem dimIndex_none_of_stop (r : RegRow) {off : Nat} (hs : r.dims.all (fun d => decide (0 < d.2)) = true) (h : r.stop ≤ off) : dimIndex r.dims (off - r.base) = none := by
  cases hd : r.dims with
  | nil =>
    have e : r.stop = r.base + 1 := by unfold RegRow.stop; rw [hd]
    simp only [dimIndex]
    rw [if_neg (by omega)]
  | cons p ds =>
    obtain ⟨n, s⟩ := p
    have e : r.stop = r.base + n * s := by unfold RegRow.stop; rw [hd]
    simp only [dimIndex]
    rw [if_neg]
    intro hlt
    cases s with
    | zero => rw [hd] at hs; simp at hs
    | succ s =>
      have := (Nat.div_lt_iff_lt_mul (Nat.succ_pos s)).mp hlt
      rw [Nat.succ_eq_add_one] at this
      omega

/-- The row of an offset where every row before it in its block ends below. -/
theorem findRow_split {blk off lo : Nat} {pre post : List RegRow} {r : RegRow} {ix : List Nat} (h : blockRows blk = pre ++ r :: post)
    (hlo : lo ≤ off) (hoff : off / 0x10000 = blk) (hpre : pre.all (fun x => decide (x.stop ≤ lo) && x.dims.all (fun d => decide (0 < d.2))) = true)
    (hr : (if off < r.base then none else (dimIndex r.dims (off - r.base)).map (fun ix => (r, ix))) = some (r, ix)) :
    findRow off = some (r, ix) := by
  unfold findRow
  rw [hoff, h, List.findSome?_append]
  have h0 : pre.findSome? (fun r => if off < r.base then none else (dimIndex r.dims (off - r.base)).map (fun ix => (r, ix))) = none := by
    rw [List.findSome?_eq_none_iff]
    intro x hx
    have := List.all_eq_true.mp hpre x hx
    rw [Bool.and_eq_true, decide_eq_true_eq] at this
    split
    · rfl
    · rw [dimIndex_none_of_stop x this.2 (by omega)]; rfl
  rw [h0, Option.none_or, List.findSome?_cons, hr]

/-- The row of CKP_DOM_CTRL. -/
def row_domCtrl : RegRow :=
  ⟨0x10100, [(10, 0x10)], false, .none, [⟨0, 1, .rw, 1, []⟩, ⟨1, 2, .ro, 0, []⟩, ⟨3, 1, .ro, 0, []⟩, ⟨4, 1, .rw, 0, []⟩, ⟨5, 1, .rw, 1, []⟩, ⟨6, 1, .w1c, 0, []⟩, ⟨8, 4, .ro, 0xf, []⟩, ⟨12, 4, .rw, 1, [(1, 15)]⟩, ⟨16, 11, .ro, 0, []⟩]⟩

theorem findRow_domCtrl (i : Fin 10) : findRow (0x10100 + 0x10 * i.val) = some (row_domCtrl, [i.val]) := by
  revert i
  decide

/-- The row of ACT_DMA_CTRL. -/
def row_dmaCtrl : RegRow :=
  ⟨0x30100, [(16, 0x20)], false, .none, [⟨0, 1, .rw, 0, []⟩, ⟨1, 1, .ro, 0, []⟩, ⟨4, 5, .rw, 0, []⟩]⟩

theorem findRow_dmaCtrl (i : Fin 16) : findRow (0x30100 + 0x20 * i.val) = some (row_dmaCtrl, [i.val]) := by
  revert i
  decide

/-- The row of TBS_P_TXQ_ID. -/
def row_txqId : RegRow :=
  ⟨0x40110, [(4, 0x20)], false, .none, [⟨0, 32, .ro, 0, []⟩]⟩

theorem findRow_txqId (i : Fin 4) : findRow (0x40110 + 0x20 * i.val) = some (row_txqId, [i.val]) := by
  revert i
  decide

/-- The row of TBS_TTO_CTRL. -/
def row_ttoCtrl : RegRow :=
  ⟨0x40200, [(8, 0x20)], false, .none, [⟨0, 1, .rw, 0, []⟩, ⟨1, 1, .rw, 0, []⟩, ⟨2, 1, .rw, 1, []⟩]⟩

theorem findRow_ttoCtrl (i : Fin 8) : findRow (0x40200 + 0x20 * i.val) = some (row_ttoCtrl, [i.val]) := by
  revert i
  decide

/-- The row of ETH_CFG. -/
def row_ethCfg : RegRow :=
  ⟨0x50000, [(4, 0x4000)], false, .ethCfg, [⟨0, 1, .rw, 0, []⟩, ⟨1, 2, .ro, 0, []⟩, ⟨3, 1, .ro, 0, []⟩, ⟨4, 2, .rw, 0, [(0, 2)]⟩, ⟨6, 1, .rw, 0, []⟩, ⟨7, 1, .rw, 1, []⟩, ⟨8, 1, .rw, 0, []⟩, ⟨9, 1, .w1c, 0, []⟩, ⟨12, 4, .ro, 0xf, []⟩, ⟨16, 14, .rw, 0x5f2, []⟩]⟩

theorem findRow_ethCfg (i : Fin 4) : findRow (0x50000 + 0x4000 * i.val) = some (row_ethCfg, [i.val]) := by
  revert i
  decide

/-- The row of ETH_MM. -/
def row_ethMm : RegRow :=
  ⟨0x50018, [(4, 0x4000)], false, .none, [⟨0, 1, .rw, 0, []⟩, ⟨1, 1, .rw, 0, []⟩, ⟨2, 2, .rw, 0, []⟩, ⟨4, 8, .rw, 0xa, [(1, 128)]⟩]⟩

theorem findRow_ethMm (i : Fin 4) : findRow (0x50018 + 0x4000 * i.val) = some (row_ethMm, [i.val]) := by
  revert i
  decide

/-- The row of ETH_RXR_CTRL. -/
def row_rxRingCtrl : RegRow :=
  ⟨0x51000, [(4, 0x4000), (2, 0x40)], false, .rxRing, [⟨0, 1, .rw, 0, []⟩, ⟨1, 1, .ro, 0, []⟩, ⟨4, 4, .rw, 0, []⟩, ⟨8, 1, .rw, 0, []⟩]⟩

theorem findRow_rxRingCtrl (i : Fin 4) (j : Fin 2) : findRow (0x51000 + 0x4000 * i.val + 0x40 * j.val) = some (row_rxRingCtrl, [i.val, j.val]) := by
  revert i j
  decide

/-- The row of ETH_RXR_TAKE. -/
def row_rxRingTake : RegRow :=
  ⟨0x51014, [(4, 0x4000), (2, 0x40)], false, .none, [⟨0, 32, .ro, 0, []⟩]⟩

theorem findRow_rxRingTake (i : Fin 4) (j : Fin 2) : findRow (0x51014 + 0x4000 * i.val + 0x40 * j.val) = some (row_rxRingTake, [i.val, j.val]) := by
  revert i j
  decide

/-- The row of ETH_RXR_DONE. -/
def row_rxRingDone : RegRow :=
  ⟨0x51018, [(4, 0x4000), (2, 0x40)], false, .none, [⟨0, 32, .wo, 0, []⟩]⟩

theorem findRow_rxRingDone (i : Fin 4) (j : Fin 2) : findRow (0x51018 + 0x4000 * i.val + 0x40 * j.val) = some (row_rxRingDone, [i.val, j.val]) := by
  revert i j
  decide

/-- The row of ETH_TXR_CTRL. -/
def row_txRingCtrl : RegRow :=
  ⟨0x51100, [(4, 0x4000), (2, 0x40)], false, .txRing, [⟨0, 1, .rw, 0, []⟩, ⟨1, 1, .ro, 0, []⟩, ⟨4, 4, .rw, 0, []⟩]⟩

theorem findRow_txRingCtrl (i : Fin 4) (j : Fin 2) : findRow (0x51100 + 0x4000 * i.val + 0x40 * j.val) = some (row_txRingCtrl, [i.val, j.val]) := by
  revert i j
  decide

/-- The row of ETH_TXR_TAIL. -/
def row_txRingTail : RegRow :=
  ⟨0x5110C, [(4, 0x4000), (2, 0x40)], false, .none, [⟨0, 16, .rw, 0, []⟩]⟩

theorem findRow_txRingTail (i : Fin 4) (j : Fin 2) : findRow (0x5110C + 0x4000 * i.val + 0x40 * j.val) = some (row_txRingTail, [i.val, j.val]) := by
  revert i j
  decide

/-- The row of COL_GRID_CTRL. -/
def row_gridCtrl : RegRow :=
  ⟨0x70100, [(8, 0x20)], false, .colGrid, [⟨0, 1, .rw, 0, []⟩, ⟨1, 2, .ro, 0, []⟩, ⟨3, 1, .ro, 0, []⟩, ⟨4, 4, .ro, 0xf, []⟩, ⟨8, 1, .w1c, 0, []⟩, ⟨9, 1, .rw, 0, []⟩, ⟨16, 8, .rw, 0x32, []⟩]⟩

theorem findRow_gridCtrl (i : Fin 8) : findRow (0x70100 + 0x20 * i.val) = some (row_gridCtrl, [i.val]) := by
  revert i
  decide

/-- The row of COL_RD_CTRL. -/
def row_readerCtrl : RegRow :=
  ⟨0x71000, [(64, 0x20)], false, .colReader, [⟨0, 1, .rw, 0, []⟩, ⟨1, 2, .ro, 0, []⟩, ⟨3, 1, .ro, 0, []⟩, ⟨4, 4, .ro, 0xf, []⟩, ⟨8, 1, .w1c, 0, []⟩, ⟨9, 3, .rw, 0, []⟩, ⟨12, 1, .rw, 0, []⟩, ⟨13, 1, .rw, 0, []⟩]⟩

theorem findRow_readerCtrl (i : Fin 64) : findRow (0x71000 + 0x20 * i.val) = some (row_readerCtrl, [i.val]) := by
  revert i
  decide

/-- The row of FLT_GRP_CTRL. -/
def row_groupCtrl : RegRow :=
  ⟨0x80000, [(32, 0x40)], false, .fltGrp, [⟨0, 1, .rw, 0, []⟩, ⟨1, 2, .ro, 0, []⟩, ⟨3, 1, .ro, 0, []⟩, ⟨4, 1, .rw, 0, []⟩, ⟨5, 1, .rw, 0, []⟩, ⟨6, 1, .rw, 0, []⟩, ⟨7, 1, .rw, 0, []⟩, ⟨8, 1, .w1c, 0, []⟩, ⟨12, 4, .ro, 0xf, []⟩]⟩

theorem findRow_groupCtrl (i : Fin 32) : findRow (0x80000 + 0x40 * i.val) = some (row_groupCtrl, [i.val]) := by
  revert i
  decide

/-- The row of FLT_GRP_SWAP. -/
def row_groupSwap : RegRow :=
  ⟨0x80004, [(32, 0x40)], false, .none, [⟨0, 2, .wo, 0, []⟩, ⟨2, 1, .wo, 0, []⟩, ⟨16, 13, .wo, 0, []⟩]⟩

theorem findRow_groupSwap (i : Fin 32) : findRow (0x80004 + 0x40 * i.val) = some (row_groupSwap, [i.val]) := by
  revert i
  decide

/-- The row of SCH_LVL_DEPTH. -/
def row_lvlDepth : RegRow :=
  ⟨0xA0100, [(8, 0x8)], false, .none, [⟨0, 11, .ro, 0, []⟩, ⟨16, 11, .ro, 0, []⟩, ⟨31, 1, .wo, 0, []⟩]⟩

theorem findRow_lvlDepth (i : Fin 8) : findRow (0xA0100 + 0x8 * i.val) = some (row_lvlDepth, [i.val]) := by
  revert i
  decide

/-- The row of SCH_ENG_CTRL. -/
def row_engCtrl : RegRow :=
  ⟨0xA1000, [(16, 0x40)], false, .none, [⟨0, 1, .rw, 1, []⟩, ⟨1, 3, .ro, 0, []⟩, ⟨4, 1, .ro, 0, []⟩, ⟨5, 1, .wo, 0, []⟩, ⟨8, 4, .ro, 0, []⟩, ⟨16, 10, .ro, 0, []⟩, ⟨26, 2, .ro, 0, []⟩]⟩

theorem findRow_engCtrl (i : Fin 16) : findRow (0xA1000 + 0x40 * i.val) = some (row_engCtrl, [i.val]) := by
  revert i
  decide

/-- The row of SCH_INST_CTRL. -/
def row_instCtrl : RegRow :=
  ⟨0xA6000, [(1024, 0x4)], false, .none, [⟨0, 1, .rw, 0, []⟩, ⟨1, 2, .ro, 0, []⟩, ⟨3, 1, .ro, 0, []⟩, ⟨4, 1, .w1c, 0, []⟩, ⟨16, 16, .ro, 0, []⟩]⟩

theorem findRow_instCtrl (i : Fin 1024) : findRow (0xA6000 + 0x4 * i.val) = some (row_instCtrl, [i.val]) := by
  obtain ⟨i, hi⟩ := i
  refine findRow_split (r := row_instCtrl) (blk := 10) (pre := (blockRows 10).take 19) (post := (blockRows 10).drop 20) rfl (lo := 0xA6000) (by omega) (by omega) (by decide) ?_
  simp only [row_instCtrl, dimIndex]
  rw [if_neg (by omega), if_pos (by omega), if_pos (by omega)]
  simp only [Option.map_some]
  congr
  omega

/-- The row of LGE_FRC0. -/
def row_forceWord : RegRow :=
  ⟨0xCC000, [(256, 0x10)], false, .none, [⟨0, 16, .rw, 0, []⟩, ⟨16, 4, .rw, 0, [(0, 3)]⟩, ⟨31, 1, .rw, 0, []⟩]⟩

theorem findRow_forceWord (i : Fin 256) : findRow (0xCC000 + 0x10 * i.val) = some (row_forceWord, [i.val]) := by
  obtain ⟨i, hi⟩ := i
  refine findRow_split (r := row_forceWord) (blk := 12) (pre := (blockRows 12).take 38) (post := (blockRows 12).drop 39) rfl (lo := 0xCC000) (by omega) (by omega) (by decide) ?_
  simp only [row_forceWord, dimIndex]
  rw [if_neg (by omega), if_pos (by omega), if_pos (by omega)]
  simp only [Option.map_some]
  congr
  omega

/-- The row of EVR_CMD. -/
def row_evrCmd : RegRow :=
  ⟨0xF0010, [(2, 0x100)], false, .none, [⟨0, 2, .wo, 0, []⟩, ⟨2, 14, .wo, 0, []⟩]⟩

theorem findRow_evrCmd (i : Fin 2) : findRow (0xF0010 + 0x100 * i.val) = some (row_evrCmd, [i.val]) := by
  revert i
  decide

/-- The row of EVR_IDX. -/
def row_evrIdx : RegRow :=
  ⟨0xF0020, [(2, 0x100)], true, .none, [⟨0, 14, .rw, 0, [(0, 8192)]⟩]⟩

theorem findRow_evrIdx (i : Fin 2) : findRow (0xF0020 + 0x100 * i.val) = some (row_evrIdx, [i.val]) := by
  revert i
  decide

/-- The row of EVR_REC. -/
def row_evrRec : RegRow :=
  ⟨0xF0040, [(2, 0x100), (8, 0x4)], true, .none, [⟨0, 32, .ro, 0, []⟩]⟩

theorem findRow_evrRec (i : Fin 2) (j : Fin 8) : findRow (0xF0040 + 0x100 * i.val + 0x4 * j.val) = some (row_evrRec, [i.val, j.val]) := by
  revert i j
  decide

/-- The row of QUE_Q_CTRL. -/
def row_queueCtrl : RegRow :=
  ⟨0x110100, [(64, 0x20)], false, .none, [⟨0, 1, .rw, 0, []⟩, ⟨1, 2, .ro, 0, []⟩, ⟨3, 1, .ro, 0, []⟩, ⟨4, 1, .wo, 0, []⟩, ⟨5, 1, .rw, 0, []⟩, ⟨6, 1, .w1c, 0, []⟩, ⟨8, 4, .ro, 0xf, []⟩]⟩

theorem findRow_queueCtrl (i : Fin 64) : findRow (0x110100 + 0x20 * i.val) = some (row_queueCtrl, [i.val]) := by
  revert i
  decide

/-- The row of QUE_Q_OCC. -/
def row_queueOcc : RegRow :=
  ⟨0x11010C, [(64, 0x20)], false, .none, [⟨0, 14, .ro, 0, []⟩, ⟨15, 1, .ro, 0, []⟩, ⟨16, 14, .ro, 0, []⟩, ⟨31, 1, .wo, 0, []⟩]⟩

theorem findRow_queueOcc (i : Fin 64) : findRow (0x11010C + 0x20 * i.val) = some (row_queueOcc, [i.val]) := by
  revert i
  decide

/-- The row of EVC_MASK. -/
def row_evcMask : RegRow :=
  ⟨0x120240, [(3, 0x10), (4, 0x4)], false, .none, [⟨0, 32, .rw, 0, []⟩]⟩

theorem findRow_evcMask (i : Fin 3) (j : Fin 4) : findRow (0x120240 + 0x10 * i.val + 0x4 * j.val) = some (row_evcMask, [i.val, j.val]) := by
  revert i j
  decide

/-! ## Configuration spaces and stalled pops -/

theorem Dev.pcie_putPcie (d : Dev) (e : Nat) (c : PcieCfg) (o : Nat) :
    (d.putPcie e c).pcie o = if (o = 0) = (e = 0) then c else d.pcie o := by
  unfold Dev.putPcie Dev.pcie
  by_cases h : e = 0 <;> by_cases g : o = 0 <;> simp [h, g]

/-- The pop whose limit comes first is a stalled one, and no other has an earlier limit (R405). -/
theorem earliestStall_least {l : List QStall} {w : QStall} (h : earliestStall l = some w) : w ∈ l ∧ ∀ v ∈ l, w.due ≤ v.due := by
  induction l generalizing w with
  | nil => cases h
  | cons x xs ih =>
    unfold earliestStall at h
    split at h
    · rename_i hn
      cases h
      cases xs with
      | nil => simp
      | cons y ys =>
        unfold earliestStall at hn
        split at hn <;> cases hn
    · rename_i u hu
      obtain ⟨hm, hl⟩ := ih hu
      cases h
      split
      · exact ⟨List.mem_cons_of_mem _ hm, fun v hv => by
          rcases List.mem_cons.mp hv with rfl | hv
          · omega
          · exact hl v hv⟩
      · exact ⟨List.mem_cons_self .., fun v hv => by
          rcases List.mem_cons.mp hv with rfl | hv
          · omega
          · have := hl v hv; omega⟩

end Sys2Proof.Machine
end

