-- ==== Sys2Proof/Laws/Writes.lean ====
section
/-! SUPPORT. Laws of the way a command takes to the device: what a running device answers, how a write that passes its checks reaches its
register, and what a repetition over a range keeps. -/
namespace Sys2Proof.Machine

/-! ## Commands of a running device -/

theorem State.does_of_running {s : State} (h : s.Running) (f : Dev → Dev) : s.does f = .next { s with dev := publish (f s.dev) } := by
  unfold State.does
  rw [h]
  rfl

theorem State.acts_of_running {s : State} (h : s.Running) (f : Dev → Dev) : s.acts f = .next { s with dev := publish (watch (f s.dev)) } :=
  State.does_of_running h _

theorem completes_of {c : Instr} {s : State} {f : Dev → Dev} {d : Dev} (hc : exec c s = s.does f) (h : s.Running) (hf : f s.dev = d) :
    exec c s = .next (s.leaving d) := by
  subst hf
  exact hc.trans (State.does_of_running h f)

theorem settles_of {c : Instr} {s : State} {f : Dev → Dev} {d : Dev} (hc : exec c s = s.acts f) (h : s.Running) (hf : f s.dev = d) :
    exec c s = .next (s.settling d) := by
  subst hf
  exact hc.trans (State.acts_of_running h f)

/-- A device in internal reset is left as it is by every command but those of the supplies and the resets. -/
theorem State.does_of_held {s : State} (h : s.dev.pwr.held = true) (f : Dev → Dev) : s.does f = .next s := by
  unfold State.does
  rw [h]
  rfl

theorem State.acts_of_held {s : State} (h : s.dev.pwr.held = true) (f : Dev → Dev) : s.acts f = .next s := State.does_of_held h _

/-! ## Writes that pass their checks -/

theorem targetOf_reg {off : Nat} (h : off < 0x140000) : targetOf off = some (off / 0x10000) := by
  unfold targetOf
  rw [if_pos h]

/-- A write whose verdict is not that it falls away has arrived. -/
theorem Dev.arrives_of_pass {d : Dev} {m off v : Nat} {whole : Bool} (h : d.writeVerdict m off v whole = .pass) : d.arrives m = true := by
  unfold Dev.writeVerdict at h
  split at h
  · cases h
  · split at h
    · cases h
    · rename_i a
      simpa using a

/-- A write that passes reaches its register; outside the Binding block nothing else happens. -/
theorem busWrite_of_writes {d : Dev} {c : Ctx} {m off v : Nat} (h : d.Writes m off v) (ho : off < 0x140000) (h4 : off % 4 = 0)
    (hb : off / 0x10000 ≠ 2) : busWrite c m .bar0 off v true d = regWrite c m off v d := by
  have e : off / 4 * 4 = off := by omega
  simp only [busWrite, e, bar0Write, targetOf_reg ho, Option.getD_some, Dev.arrives_of_pass h.1]
  rw [if_neg (by simp), if_neg (by simp [hb]), if_pos (by omega), h.1, h.2]

/-- A write that needs administer right, by a master without it, is discarded and recorded (R428). -/
theorem regCmd_of_admin_denied {d : Dev} {m off v : Nat} (ha : d.arrives m = true) (hf : d.fixedWrite m off v = false) (hn : writeNeed m off v = .admin)
    (ht : off / 0x10000 = 1) (h4 : off % 4 = 0) (hg : d.granted .admin 1 m = false) : regCmd m off v d = violation .admin m 1 off d := by
  have e : off / 4 * 4 = off := by omega
  have hv : d.writeVerdict m off v true = .deny .admin := by
    simp [Dev.writeVerdict, targetOf_reg (off := off) (by omega), ha, hf, hn, ht, Dev.check, hg]
  simp [regCmd, busWrite, bar0Write, e, targetOf_reg (off := off) (by omega), ha, ht, hv]

theorem regCmd_of_writes {d : Dev} {m off v : Nat} (h : d.Writes m off v) (ho : off < 0x140000) (h4 : off % 4 = 0)
    (hb : off / 0x10000 ≠ 2) : regCmd m off v d = regWrite {} m off v d := busWrite_of_writes h ho h4 hb

theorem regKeep_of_writes {d : Dev} {m off lo w v : Nat} (h : d.WritesField m off lo w v) (ho : off < 0x140000) (h4 : off % 4 = 0)
    (hb : off / 0x10000 ≠ 2) : regKeep m off lo w v d = regWrite {} m off (putBits (d.rwHeld off) lo w v) d :=
  busWrite_of_writes h ho h4 hb

/-- The two registers of the key sequence leave the key to their own effect. -/
theorem regCmd_of_writes_key {d : Dev} {m off v : Nat} (h : d.Writes m off v) (hk : off = 0x20100 ∨ off = 0x20104) :
    regCmd m off v d = regWrite {} m off v d := by
  have e : off / 4 * 4 = off := by omega
  unfold regCmd
  simp only [busWrite, e, bar0Write, targetOf_reg (off := off) (by omega), Option.getD_some, Dev.arrives_of_pass h.1]
  rw [if_neg (by simp), if_neg (by simp [h.1]; omega), if_pos (by omega), h.1, h.2]

/-- A write of another register of the Binding block disarms the master's key first (R471). -/
theorem regCmd_of_writes_bnd {d : Dev} {m off v : Nat} (h : d.Writes m off v) (hb : off / 0x10000 = 2) (h4 : off % 4 = 0)
    (h1 : off ≠ 0x20100) (h2 : off ≠ 0x20104) : regCmd m off v d = regWrite {} m off v (keyDisarm m d) := by
  have e : off / 4 * 4 = off := by omega
  have hv : (keyDisarm m d).writeVerdict m off v true = .pass := h.1
  have hk : (keyDisarm m d).keepEnable m off v = v := h.2
  unfold regCmd
  simp only [busWrite, e, bar0Write, targetOf_reg (off := off) (by omega), Option.getD_some, Dev.arrives_of_pass h.1]
  rw [if_neg (by simp), if_pos (by simp [hb, h1, h2]), if_pos (by omega), hv, hk]

/-! ## Repetition -/

/-- What each step of a list keeps, the whole repetition keeps. -/
theorem forL_keeps {α : Type} {P : Dev → Prop} {f : α → Dev → Dev} (h : ∀ a d, P d → P (f a d)) (xs : List α) (d : Dev) (hd : P d) :
    P (forL xs f d) := by
  induction xs generalizing d with
  | nil => exact hd
  | cons a xs ih => exact ih _ (h a d hd)

theorem forN_keeps {P : Dev → Prop} {n : Nat} {f : Nat → Dev → Dev} (h : ∀ i < n, ∀ d, P d → P (f i d)) (d : Dev) (hd : P d) :
    P (forN n f d) := by
  unfold forN
  have hx : ∀ i ∈ List.range n, i < n := fun i hi => List.mem_range.mp hi
  generalize List.range n = xs at hx
  induction xs generalizing d with
  | nil => exact hd
  | cons a xs ih =>
    exact ih _ (h a (hx a List.mem_cons_self) d hd) (fun i hi => hx i (List.mem_cons_of_mem a hi))

/-- A repetition whose steps leave a field alone leaves it alone. -/
theorem get_forN {g : Fld} {n : Nat} {f : Nat → Dev → Dev} (h : ∀ i < n, ∀ d, (f i d).get g = d.get g) (d : Dev) :
    (forN n f d).get g = d.get g := forN_keeps (P := fun e => e.get g = d.get g) (fun i hi e he => (h i hi e).trans he) d rfl

/-- A repetition takes its steps in rising order. -/
theorem forN_succ (n : Nat) (f : Nat → Dev → Dev) (d : Dev) : forN (n + 1) f d = f n (forN n f d) := by
  unfold forN
  rw [List.range_succ, List.foldl_append]
  rfl

/-- What the steps so far have established holds after the whole repetition. -/
theorem forN_ind {P : Nat → Dev → Prop} {n : Nat} {f : Nat → Dev → Dev} {d : Dev} (h0 : P 0 d) (h : ∀ i < n, ∀ e, P i e → P (i + 1) (f i e)) :
    P n (forN n f d) := by
  induction n with
  | zero => exact h0
  | succ n ih =>
    rw [forN_succ]
    exact h n (by omega) _ (ih fun i hi => h i (by omega))

end Sys2Proof.Machine
end

