-- ==== Sys2Proof/Laws/Rows.lean ====
section
/-! SUPPORT. Laws of the rows of the register map: the fields of each lie in the word and share no bit, and what a master writes to leave a
register's fields as they are. -/
namespace Sys2Proof.Machine

/-- Two fields of a row share no bit. -/
def FieldRow.clear (f g : FieldRow) : Prop := f.lo + f.width ≤ g.lo ∨ g.lo + g.width ≤ f.lo

/-- The fields of a row lie in the word and share no bit. -/
def RegRow.sound (r : RegRow) : Bool :=
  r.fields.all (fun f => f.lo + f.width ≤ 32) &&
    decide (r.fields.Pairwise (fun f g => f.lo + f.width ≤ g.lo ∨ g.lo + g.width ≤ f.lo))

theorem rows_sound : ∀ b < 20, (blockRows b).all RegRow.sound = true := by decide

theorem findRow_sound {off : Nat} {r : RegRow} {ix : List Nat} (h : findRow off = some (r, ix)) : r.sound = true := by
  unfold findRow at h
  obtain ⟨x, hx, h2⟩ := List.exists_of_findSome?_eq_some h
  have hr : x = r := by
    split at h2
    · cases h2
    · rw [Option.map_eq_some_iff] at h2
      obtain ⟨_, _, h3⟩ := h2
      cases h3
      rfl
  subst hr
  by_cases hb : off / 0x10000 < 20
  · exact List.all_eq_true.mp (rows_sound _ hb) x hx
  · have : blockRows (off / 0x10000) = [] := by
      unfold blockRows
      split <;> first | omega | rfl
    rw [this] at hx
    cases hx

theorem RegRow.sound_width {r : RegRow} (h : r.sound = true) {f : FieldRow} (hf : f ∈ r.fields) : f.lo + f.width ≤ 32 := by
  unfold RegRow.sound at h
  rw [Bool.and_eq_true, List.all_eq_true] at h
  exact of_decide_eq_true (h.1 f hf)

theorem RegRow.sound_apart {r : RegRow} (h : r.sound = true) : r.fields.Pairwise FieldRow.clear := by
  unfold RegRow.sound at h
  rw [Bool.and_eq_true, decide_eq_true_eq] at h
  exact h.2

/-- One field taken from a word into the value that a master writes. -/
def heldStep (word : Nat) (w : Nat) (f : FieldRow) : Nat :=
  if f.acc == .rw || f.acc == .rwb then putBits w f.lo f.width (bits word f.lo f.width) else w

theorem heldFold_apart (word : Nat) (f : FieldRow) (fs : List FieldRow) (w : Nat) (h : ∀ g ∈ fs, g.clear f) :
    bits (fs.foldl (heldStep word) w) f.lo f.width = bits w f.lo f.width := by
  induction fs generalizing w with
  | nil => rfl
  | cons g gs ih =>
    rw [List.foldl_cons, ih _ (fun x hx => h x (List.mem_cons_of_mem g hx))]
    unfold heldStep
    split
    · exact bits_putBits_apart _ _ _ _ _ _ (h g List.mem_cons_self)
    · rfl

theorem heldFold_field (word : Nat) (fs : List FieldRow) (w : Nat) (hp : fs.Pairwise FieldRow.clear) (f : FieldRow) (hf : f ∈ fs) :
    bits (fs.foldl (heldStep word) w) f.lo f.width =
      if f.acc == .rw || f.acc == .rwb then bits word f.lo f.width else bits w f.lo f.width := by
  induction fs generalizing w with
  | nil => cases hf
  | cons g gs ih =>
    rw [List.pairwise_cons] at hp
    rw [List.foldl_cons]
    rcases List.mem_cons.mp hf with rfl | hf'
    · rw [heldFold_apart _ _ _ _ (fun x hx => (hp.1 x hx).symm)]
      unfold heldStep
      split
      · rw [bits_putBits_same, Nat.mod_eq_of_lt (bits_lt _ _ _)]
      · rfl
    · rw [ih _ hp.2 hf']
      split
      · rfl
      · unfold heldStep
        split
        · exact bits_putBits_apart _ _ _ _ _ _ (hp.1 f hf')
        · rfl

/-- What a master writes to leave a register as it is: each writable field at its value, and zero in the other fields. -/
theorem bits_rwHeld {off : Nat} {r : RegRow} {ix : List Nat} (h : findRow off = some (r, ix)) (d : Dev) {f : FieldRow} (hf : f ∈ r.fields) :
    bits (d.rwHeld off) f.lo f.width = if f.acc == .rw || f.acc == .rwb then bits (d.word off).toNat f.lo f.width else 0 := by
  have hp := RegRow.sound_apart (findRow_sound h)
  unfold Dev.rwHeld
  rw [h]
  refine (heldFold_field (d.word off).toNat r.fields 0 hp f hf).trans ?_
  rw [bits_zero]

end Sys2Proof.Machine
end

