-- ==== Sys2Proof/Laws/Publish.lean ====
section
/-! SUPPORT. Laws of the status fields that follow other state: the five fields that a command's end writes, and what it leaves. -/
namespace Sys2Proof.Machine

/-- The words that the end of a command writes: TBS_STATE, ACQ_STATUS, QUE_FC, DET_PEND and DET_ALM_STAT. -/
def followKey (k : Nat) : Bool := k == 0x40004 || k == 0x9000C || k == 0x110020 || k == 0xB0008 || k == 0xB0040

/-- Registers, the logic engine's outputs and the writer of the NVM are all that is written. -/
theorem publish_rest (d : Dev) : publish d = { d with regs := (publish d).regs, le := (publish d).le, pwr := (publish d).pwr } := by
  unfold publish doutHold
  dsimp only
  split <;> rfl

/-- The registers that the end of a command leaves are those of the status fields. -/
theorem publish_regs (d : Dev) : (publish d).regs = (showStatus d).regs := by
  unfold publish doutHold
  dsimp only
  split <;> rfl

theorem word_publish_eq (d : Dev) (k : Nat) : (publish d).word k = (showStatus d).word k := by
  unfold Dev.word
  rw [publish_regs]

theorem get_publish_eq (d : Dev) (f : Fld) : (publish d).get f = (showStatus d).get f := by
  unfold Dev.get
  rw [word_publish_eq]

/-- No other word is written. -/
theorem word_publish (d : Dev) {k : Nat} (h : followKey k = false) : (publish d).word k = d.word k := by
  simp only [followKey, Bool.or_eq_false_iff, beq_eq_false_iff_ne] at h
  obtain ⟨⟨⟨⟨h1, h2⟩, h3⟩, h4⟩, h5⟩ := h
  rw [word_publish_eq]
  unfold showStatus queueFc segCount detPendShow
  simp only [Dev.setFlag_eq]
  rw [Dev.word_set_ne _ _ _ h5, Dev.word_set_ne _ _ _ h4, Dev.word_set_ne _ _ _ h3, Dev.word_set_ne _ _ _ h2, Dev.word_set_ne _ _ _ h1]

/-- A field of another word reads as before. -/
theorem get_publish (d : Dev) (f : Fld) (h : followKey f.key = false) : (publish d).get f = d.get f := by
  unfold Dev.get
  rw [word_publish d h]

/-- A field of one of these words that is not one of the five reads as before. -/
theorem get_publish_apart (d : Dev) (f : Fld) (h1 : TBS_STATE_coast.apart f = true) (h2 : ACQ_STATUS_complete.apart f = true)
    (h3 : QUE_FC_fc.apart f = true) (h4 : DET_PEND_pending.apart f = true) (h5 : DET_ALM_STAT_token.apart f = true) :
    (publish d).get f = d.get f := by
  rw [get_publish_eq]
  unfold showStatus queueFc segCount detPendShow
  simp only [Dev.setFlag_eq]
  rw [Dev.get_set_apart _ _ _ _ (by decide) h5, Dev.get_set_apart _ _ _ _ (by decide) h4, Dev.get_set_apart _ _ _ _ (by decide) h3,
    Dev.get_set_apart _ _ _ _ (by decide) h2, Dev.get_set_apart _ _ _ _ (by decide) h1]

/-- A device in reset is not watched. -/
theorem watch_held {d : Dev} (h : d.pwr.held = true) : watch d = d := by
  unfold watch
  rw [h]
  rfl

theorem watch_running {d : Dev} (h : d.pwr.held = false) : watch d = settle d := by
  unfold watch
  rw [h]
  rfl

/-! ## What a command answers -/

/-- Every command but those that act in reset leaves a held device as it is, and otherwise ends with the status fields. -/
theorem exec_form (c : Instr) (s : State) :
    ActsInReset c = true ∨ ∃ d, exec c s = .next { s with dev := if s.dev.pwr.held = true then s.dev else publish d } := by
  cases c <;> first | exact Or.inl rfl | exact Or.inr ⟨_, rfl⟩

/-- A command that acts in reset ends with the status fields where the device runs after it. -/
theorem exec_form_always (c : Instr) (s : State) (h : ActsInReset c = true) :
    ∃ d : Dev, exec c s = .next { s with dev := if d.pwr.held = true then d else publish d } := by
  cases c <;> first | exact (Bool.noConfusion h) | exact ⟨_, rfl⟩

end Sys2Proof.Machine
end

