-- ==== Sys2Proof/Laws/Time.lean ====
section
/-! SUPPORT. Laws of passing time: an effect that falls due is taken once the counter has reached its instant. -/
namespace Sys2Proof.Machine

/-- Passing time changes the counter and the elapsed time only. -/
theorem passTo_rest (t : Nat) (d : Dev) :
    passTo t d = { d with time := { d.time with clock := (passTo t d).time.clock, elapsed := (passTo t d).time.elapsed } } := by
  unfold passTo passTicks
  split <;> rfl

theorem passElapsed_rest (e : Nat) (d : Dev) :
    passElapsed e d = { d with time := { d.time with clock := (passElapsed e d).time.clock, elapsed := (passElapsed e d).time.elapsed } } := by
  unfold passElapsed passTicks
  split <;> rfl

@[simp] theorem passTo_regs (t : Nat) (d : Dev) : (passTo t d).regs = d.regs := by rw [passTo_rest]
@[simp] theorem passElapsed_regs (e : Nat) (d : Dev) : (passElapsed e d).regs = d.regs := by rw [passElapsed_rest]
@[simp] theorem word_passTo (t : Nat) (d : Dev) (k : Nat) : (passTo t d).word k = d.word k := by rw [passTo_rest]; rfl
@[simp] theorem word_passElapsed (e : Nat) (d : Dev) (k : Nat) : (passElapsed e d).word k = d.word k := by rw [passElapsed_rest]; rfl
@[simp] theorem get_passTo (t : Nat) (d : Dev) (f : Fld) : (passTo t d).get f = d.get f := by rw [passTo_rest]; rfl
@[simp] theorem get_passElapsed (e : Nat) (d : Dev) (f : Fld) : (passElapsed e d).get f = d.get f := by rw [passElapsed_rest]; rfl

/-- An instant in the past needs no time. -/
theorem passTo_past {t : Nat} {d : Dev} (h : t ≤ d.now) : passTo t d = d := by
  unfold passTo
  rw [if_neg]
  simp only [Bool.and_eq_true, decide_eq_true_eq]
  omega

theorem passElapsed_past {e : Nat} {d : Dev} (h : e ≤ d.time.elapsed) : passElapsed e d = d := by
  unfold passElapsed
  rw [if_neg]
  simp only [Bool.and_eq_true, decide_eq_true_eq]
  omega

/-- The counter reaches an instant ahead of it, short of the end of its 64 bits: it stands at the first tick at or after it. -/
theorem now_passTo {t : Nat} {d : Dev} (hr : d.tickable = true) (hs : 0 < d.tickStep) (hc : d.time.clock / nsUnit < 2 ^ 64)
    (ht : t * nsUnit + d.tickStep ≤ 2 ^ 64 * nsUnit) : t ≤ (passTo t d).now := by
  have hn : d.now = d.time.clock / nsUnit := Nat.mod_eq_of_lt hc
  by_cases h2 : d.now < t
  · unfold passTo
    rw [if_pos (by simp [hr, h2, hs])]
    have hu : nsUnit = 4294967296 := rfl
    have hp : clockSpan = 2 ^ 48 * 1000000000 * nsUnit := rfl
    have hm : d.time.clock = nsUnit * d.now + d.time.clock % nsUnit := by rw [hn]; exact (Nat.div_add_mod _ _).symm
    have hf : d.time.clock % nsUnit < nsUnit := Nat.mod_lt _ (by rw [hu]; decide)
    generalize hk : (t - d.now) * nsUnit - d.time.clock % nsUnit = k
    have hk1 : d.time.clock + k = t * nsUnit := by
      rw [hu] at *
      omega
    have e := Nat.div_add_mod (k + (d.tickStep - 1)) d.tickStep
    have l := Nat.mod_lt (k + (d.tickStep - 1)) hs
    have hg : cdiv k d.tickStep = (k + (d.tickStep - 1)) / d.tickStep := by
      unfold cdiv
      congr 1
      omega
    rw [← hg] at e
    have hlo : k ≤ cdiv k d.tickStep * d.tickStep := by rw [Nat.mul_comm]; omega
    have hhi : cdiv k d.tickStep * d.tickStep < k + d.tickStep := by rw [Nat.mul_comm]; omega
    show t ≤ ((d.time.clock + cdiv k d.tickStep * d.tickStep) % clockSpan / nsUnit) % 2 ^ 64
    generalize cdiv k d.tickStep * d.tickStep = n at hlo hhi ⊢
    have h1 : t * nsUnit ≤ d.time.clock + n := by omega
    have h3 : d.time.clock + n < 2 ^ 64 * nsUnit := by omega
    have h4 : 2 ^ 64 * nsUnit ≤ clockSpan := by rw [hp, hu]; decide
    rw [Nat.mod_eq_of_lt (Nat.lt_of_lt_of_le h3 h4), Nat.mod_eq_of_lt ((Nat.div_lt_iff_lt_mul (by rw [hu]; decide)).2 h3)]
    exact (Nat.le_div_iff_mul_le (by rw [hu]; decide)).2 h1
  · rw [passTo_past (by omega)]
    omega

/-- What falls due at an instant that the counter reaches takes place at it. -/
theorem atTime_reached {t : Nat} {f : Dev → Dev} {d : Dev} (h : t ≤ (passTo t d).now) : atTime t f d = f (passTo t d) := by
  unfold atTime
  simp only
  rw [if_neg (by omega)]

theorem atTime_past {t : Nat} {f : Dev → Dev} {d : Dev} (h : t ≤ d.now) : atTime t f d = f d := by
  rw [atTime_reached] <;> rw [passTo_past h]
  exact h

end Sys2Proof.Machine
end

