-- ==== Sys2Proof/WellFormed.lean ====
section
/-! DEFINITION. Which commands the surroundings can give: aligned offsets inside the spaces, whole SPI requests, one measured value for
each ring and domain, packets of a length that producers form. The meanings are total and do not rest on it. -/
namespace Sys2Proof

/-- The size of a space in bytes (R416): BAR0 32 MiB, BAR4 256 KiB. -/
def BusSpace.size : BusSpace → Nat
  | .bar0 => 0x2000000
  | .bar4 => 0x40000

/-- An access of a word: an offset inside the space, a multiple of 4 (R5). -/
def busOk (sp : BusSpace) (off : Nat) : Bool := off < sp.size && off % 4 == 0

/-- The operation nibble of an SPI request. -/
def byteHigh (mosi : List Byte) : Nat := (mosi.headD 0).toNat / 16

/-- An access through BAR2 moves at least one byte. -/
def accOk : BarAcc → Bool
  | .read n => 1 ≤ n
  | .write bytes => 1 ≤ bytes.length

/-- The command is one that the surroundings can give. -/
def Instr.wf : Instr → Bool
  | .registerWrite _ sp off _ _ => busOk sp off
  | .lowWordRead _ sp off _ => busOk sp off
  | .quireSend _ => true
  | .quireCreditReturn _ => true
  | .readerNoticeTake _ => true
  | .fabricTimeout _ => true
  | .deadCrossing _ => true
  | .crossingRevive _ => true
  | .qmonSelect _ _ => true
  | .qmonClearHwm _ _ => true
  | .headroomMeasure counts => counts.length == 8
  | .hdrmLowClear _ => true
  | .avsEvaluate => true
  | .avsVoutPoll _ => true
  | .avsStepTimeout => true
  | .supplyWarn _ => true
  | .bndLock _ => true
  | .bndVerify _ _ => true
  | .bindingVerifyDone => true
  | .bndRebind _ _ _ => true
  | .rebindVerifyDone => true
  | .rcvBegin _ => true
  | .rcvData _ _ => true
  | .rcvEnd _ => true
  | .recoveryVerifyDone => true
  | .slotVerifyDone => true
  | .folioBuildDone _ => true
  | .lockTimeout => true
  | .timeCaptureRead _ _ => true
  | .timeSet _ => true
  | .timeAdj _ => true
  | .timeSetState _ _ => true
  | .ptpModeChange _ _ => true
  | .incrWrite _ _ => true
  | .counterStep => true
  | .announceRx => true
  | .masterLost => true
  | .pdelayReqRx => true
  | .pdelayReqSend _ => true
  | .pdelayRespRx => true
  | .pdelayRespFollowUpRx => true
  | .syncRx => true
  | .followUpRx => true
  | .holdoverTimeout => true
  | .holdoverSecond _ => true
  | .utcWrite _ _ => true
  | .leapApply => true
  | .leapOccurredExpire => true
  | .txqPop _ _ => true
  | .ttoEnable _ _ => true
  | .ttoDisable _ _ => true
  | .ttoInstant _ => true
  | .ttoTrailingEdge _ => true
  | .dinEdgeConfirm _ _ run t => 1 ≤ run && t % 1000 == 0
  | .strCommit _ _ => true
  | .strCommitApply => true
  | .clearCnt _ _ => true
  | .noteCfgcnt _ _ => true
  | .strCmdDone => true
  | .srcSnapshot _ _ => true
  | .synchrophasorFrameRx => true
  | .svFrameRx => true
  | .silenceCheck => true
  | .goodFramePlace => true
  | .gatheringOpen _ => true
  | .viewInstant _ _ => true
  | .quorumMinExpire _ _ _ => true
  | .viewWaitExpire _ _ _ => true
  | .gatheringFinal _ _ => true
  | .gatheringRetire _ _ => true
  | .gridEnable _ _ => true
  | .gridDisable _ _ => true
  | .readerEnable _ _ => true
  | .readerDisable _ _ => true
  | .readerOff _ => true
  | .filterSample => true
  | .swapRequest _ _ _ _ => true
  | .swapCancel _ _ => true
  | .fltGroupEnable _ _ => true
  | .fltGroupDisable _ _ => true
  | .fltGroupOff _ => true
  | .taskCreate => true
  | .taskSubmit _ _ => true
  | .stagingComplete _ => true
  | .taskStart _ => true
  | .taskEnd _ => true
  | .taskOverrun => true
  | .taskRunLimit _ => true
  | .engineFault _ _ => true
  | .selftestDone _ _ => true
  | .engineEnable _ _ => true
  | .engineDisable _ _ => true
  | .engineRetest _ _ => true
  | .instanceEnable _ _ => true
  | .instanceDisable _ _ => true
  | .schStatsWindow => true
  | .lvlClearHwm _ _ => true
  | .detResult => true
  | .ackPoint _ _ => true
  | .ackClass _ _ => true
  | .confirmTimeout => true
  | .noticeRepeat => true
  | .leCycle ns _ => 1 ≤ ns
  | .leWatchdog => true
  | .lockstepMismatch _ => true
  | .leEccError _ => true
  | .leStartWarm _ => true
  | .leStartCold _ => true
  | .leStop _ _ => true
  | .leStartComplete _ => true
  | .startupRestart => true
  | .progSwap _ _ _ => true
  | .doutToggle _ => true
  | .gooseRx => true
  | .gooseStale _ => true
  | .gooseRetransmit _ => true
  | .progVerify _ _ => true
  | .progVerifyDone => true
  | .progCancel _ => true
  | .forceWrite _ _ _ => true
  | .pairStart => true
  | .spnJoin _ => true
  | .spnGrant _ => true
  | .spnAck _ => true
  | .spnRelease _ => true
  | .spnRequest _ => true
  | .spnHandover _ => true
  | .spnMirror _ => true
  | .spnSnapReq _ => true
  | .spnAckcmd _ => true
  | .spnPubsync _ => true
  | .spineMessageDiscard _ => true
  | .spnGrantSend => true
  | .spnJoinSend => true
  | .spnPubsyncSend => true
  | .spineTxDone => true
  | .heartbeatPulse _ => true
  | .hbInEdge => true
  | .heartbeatSilent => true
  | .spinePathSilent _ => true
  | .leaseLapse => true
  | .takeOnSilence => true
  | .syncTimeout => true
  | .joinTimeout => true
  | .spnCmdRelease _ _ => true
  | .spnRejoin _ => true
  | .spnClearCnt _ => true
  | .returnHoldoff => true
  | .spnReturnWrite _ _ => true
  | .eccCrit => true
  | .acqEnable _ => true
  | .acqDisable _ => true
  | .acqArm _ => true
  | .acqDisarm _ => true
  | .acqForce _ => true
  | .acqFree _ _ => true
  | .acqClearCnt _ => true
  | .acqPreFull => true
  | .acqValueTake _ => true
  | .triggerStepEval => true
  | .recordComplete => true
  | .recordTailExpire => true
  | .ethPortEnable _ _ => true
  | .ethPortDisable _ _ => true
  | .linkChange _ _ => true
  | .ethFrameRx _ _ _ _ => true
  | .pauseHoldEnd _ => true
  | .rxRingTake _ _ _ => true
  | .rxRingDone _ _ _ => true
  | .rxRingEnable _ _ _ => true
  | .rxRingDisable _ _ _ => true
  | .txRingTail _ _ _ _ => true
  | .txRingEnable _ _ _ => true
  | .txRingDisable _ _ _ => true
  | .txFrameEnd _ _ => true
  | .txUnderrun _ => true
  | .mmVerifyAttempt _ => true
  | .mmConfigWrite _ _ _ => true
  | .mmVerifyResponseRx _ => true
  | .pulseConfirm _ _ run _ => 1 ≤ run
  | .directionConfirm _ _ run _ => 1 ≤ run
  | .intervalBoundary => true
  | .periodicSave => true
  | .saveComplete _ => true
  | .sealInAssert _ _ => true
  | .sealOpen _ => true
  | .sealClose _ => true
  | .sealOpeningExpire => true
  | .legalParamWrite _ off _ => 0xE0000 ≤ off && off < 0xF0000 && off % 4 == 0
  | .legalRecordWriteDone => true
  | .logIndexSelect _ _ _ => true
  | .logRec7Read _ _ => true
  | .logClear _ _ _ => true
  | .cmpJobSubmit _ _ => true
  | .cmpJobStart => true
  | .cmpJobEnd => true
  | .cmpJobSuspend => true
  | .cmpCancel _ _ => true
  | .cmpResume _ _ => true
  | .cmpEnable _ => true
  | .cmpDisable _ => true
  | .archiveRelease _ _ => true
  | .queueEnable _ _ => true
  | .queueDisable _ _ => true
  | .queueFlush _ _ => true
  | .queuePop _ _ _ => true
  | .popStallTimeout _ => true
  | .pushWord _ _ _ => true
  | .pushCommit _ _ => true
  | .pushBad _ _ => true
  | .packetReserve _ words => 1 ≤ words.length && words.length ≤ 64
  | .packetCommit _ _ _ => true
  | .queOccClearHwm _ _ => true
  | .poolTestWrite _ _ => true
  | .poolInitDone => true
  | .errorInject _ _ _ => true
  | .pcieLinkDown _ => true
  | .pcieLinkUp _ => true
  | .dmaStart _ _ => true
  | .dmaDescriptorDone _ => true
  | .dmaAbort _ _ => true
  | .spiRead mosi => mosi.length == 5 && byteHigh mosi == 1
  | .spiWrite mosi => mosi.length == 9 && byteHigh mosi == 2
  | .spiCsEarlyRise _ _ => true
  | .bar2Access _ off acc => off < 0x100000000 && accOk acc
  | .eventMergedRaise _ => true
  | .evcMaskWrite _ _ _ _ => true
  | .doorbell _ _ => true
  | .refclkMonitorTrip _ => true
  | .monitorClear => true
  | .refclkFirstEdge => true
  | .countComplete => true
  | .lockAchieved => true
  | .clkRetry _ => true
  | .domainEnable _ _ => true
  | .domainDisable _ _ => true
  | .domainSourceSwitch _ _ _ _ => true
  | .domainRampStep _ => true
  | .switchEdgeTimeout _ => true
  | .freqMeasure khz => khz.length == 12
  | .sscApply _ => true
  | .pornAssert => true
  | .resetRelease => true
  | .supplyMonitorTrip => true
  | .tjMeasure _ => true
  | .softReset _ _ => true
  | .orderlyShutdown _ _ => true
  | .shutdownPowerOff => true
  | .vstbyRise => true
  | .vstbyLoss => true
  | .wakeEdge => true
  | .wakeHoldoffExpire => true
  | .startupNvmRead _ => true
  | .ddrTrainingDone _ _ => true
  | .nvmKeyWrite _ _ => true
  | .nvmKeyExpire _ => true
  | .storeSlot _ _ _ => true
  | .eraseSlot _ _ => true
  | .storeSettings _ _ => true
  | .enrollKey _ _ => true
  | .setMinver _ => true
  | .setSealKey _ => true
  | .nvmChunkDone => true
  | .nvmCmdDone _ => true
  | .doutFault _ => true
  | .tapInstruction _ => true

end Sys2Proof
end

