-- ==== Sys2Proof/Tests/Slice0.lean ====
section
/-! SUPPORT. Own tests: what WellFormed refuses, states that meet the hypotheses of each statement, and single steps with values from the
manual. -/
namespace Sys2Proof.Tests
open Sys2Proof Sys2Proof.Machine
set_option Elab.async false

/-- The state after reset with both PCIe links up, and its device changed. -/
def dev (f : Dev → Dev) : State := { State.reset with dev := f { State.reset.dev with host := { State.reset.dev.host with linkUp := 3 } } }
def up : State := dev id

/-- The device that a command leaves, and the one after it where it stops. -/
def after (c : Instr) (s : State) : Dev := match exec c s with
  | .next t => t.dev
  | _ => s.dev

/-! ## WellFormed refuses one ill-formed command for each of its checks -/

theorem test_wf_registerWrite_misaligned : (Instr.registerWrite 0 .bar0 2 0 15).wf = false ∧ (Instr.registerWrite 0 .bar0 4 0 15).wf = true := by decide
theorem test_wf_registerWrite_outside : (Instr.registerWrite 0 .bar4 0x40000 0 15).wf = false := by decide
theorem test_wf_lowWordRead : (Instr.lowWordRead 0 .bar0 0x2000000 true).wf = false ∧ (Instr.lowWordRead 0 .bar4 0x3FFFC true).wf = true := by decide
theorem test_wf_headroomMeasure : (Instr.headroomMeasure [1, 2]).wf = false ∧ (Instr.headroomMeasure (List.replicate 8 1)).wf = true := by decide
theorem test_wf_freqMeasure : (Instr.freqMeasure []).wf = false ∧ (Instr.freqMeasure (List.replicate 12 1)).wf = true := by decide
theorem test_wf_dinEdgeConfirm : (Instr.dinEdgeConfirm 0 true 0 1000).wf = false ∧ (Instr.dinEdgeConfirm 0 true 1 1001).wf = false ∧
    (Instr.dinEdgeConfirm 0 true 1 1000).wf = true := by decide
theorem test_wf_packetReserve : (Instr.packetReserve 0 []).wf = false ∧ (Instr.packetReserve 0 (List.replicate 65 0)).wf = false ∧
    (Instr.packetReserve 0 [0]).wf = true := by decide +kernel
theorem test_wf_pulseConfirm : (Instr.pulseConfirm 0 true 0 3).wf = false ∧ (Instr.pulseConfirm 31 true 1 0).wf = true ∧ (Instr.directionConfirm 0 true 0 3).wf = false := by decide
theorem test_wf_legalParamWrite : (Instr.legalParamWrite 2 0xDFFFC 0).wf = false ∧ (Instr.legalParamWrite 2 0xE0002 0).wf = false ∧ (Instr.legalParamWrite 2 0xEFFFC 0).wf = true := by decide
theorem test_wf_spi : (Instr.spiRead [0x10, 0, 0, 0]).wf = false ∧ (Instr.spiRead [0x20, 0, 0, 0, 0]).wf = false ∧ (Instr.spiRead [0x10, 0, 0, 0, 0]).wf = true ∧
    (Instr.spiWrite [0x20, 0, 0, 0, 0, 0, 0, 0]).wf = false ∧ (Instr.spiWrite [0x10, 0, 0, 0, 0, 0, 0, 0, 0]).wf = false := by decide
theorem test_wf_bar2Access : (Instr.bar2Access 0 0x100000000 (.read 4)).wf = false ∧ (Instr.bar2Access 0 0 (.read 0)).wf = false ∧ (Instr.bar2Access 0 0 (.write [])).wf = false ∧
    (Instr.bar2Access 0 0xFFFFFFFF (.read 4)).wf = true := by decide
theorem test_wf_leCycle : (Instr.leCycle 0 0).wf = false ∧ (Instr.leCycle 1 0).wf = true := by decide

/-! ## No word spells a command -/

theorem test_no_word_spells_a_command (nbits w : Nat) : decodeTableWord nbits w = none := rfl
theorem test_placing_a_word_changes_nothing (s : State) (nbits w : Nat) : s.withFetchWord nbits w = s := rfl

/-! ## States that meet the hypotheses of the statements: the machine, its registers, fabric and clocks -/

/-- A device that internal reset holds. -/
def heldState : State := dev (fun d => { d with pwr := { d.pwr with held := true } })

theorem witness_EmptyQueueIsATick : up.dev.pwr.held = false ∧ (dev (fun d => d.domPut 0 .on)).dev.pwr.held = false ∧
    (dev (fun d => d.domPut 0 .on)).dev.tbcRuns = true ∧ (dev (fun d => d.domPut 0 .on)).dev.time.pending = none ∧ heldState.dev.pwr.held = true := by
  decide +kernel
theorem witness_InvariantOfEveryStep : (match step up with | .next _ => true | _ => false) = true := by decide +kernel
theorem witness_CoastIsCopied : (after (.supplyWarn .vcore) up).flag TBS_STATE_coast = true ∧
    (after (.supplyWarn .vcore) up).pwr.held = false := by decide +kernel
theorem witness_HeldDeviceIsStill : heldState.dev.pwr.held = true ∧ ActsInReset (.quireSend 3) = false ∧
    (∀ c ∈ [Instr.quireSend 3, .masterLost], ActsInReset c = false) := by decide +kernel

theorem witness_FieldsFollowTheirTypes : ∃ r ix, findRow 0x100000 = some (r, ix) ∧ r.fields.length = 5 := ⟨_, _, rfl, rfl⟩
theorem witness_ReservedEncodingLeavesItsField : ∃ r ix, findRow 0x100080 = some (r, ix) ∧
    (r.fields.any (fun f => f.acc == .rw && !(f.ok.isEmpty || f.ok.any (fun p => p.1 ≤ bits 0xF f.lo f.width && bits 0xF f.lo f.width ≤ p.2)))) = true :=
  ⟨_, _, rfl, rfl⟩
theorem witness_RwbFieldsKeepAfterLock : (∃ r ix, findRow 0x10 = some (r, ix)) → (dev (fun d => d.setFlag BND_STAT_locked true)).dev.flag BND_STAT_locked = true :=
  fun _ => by decide +kernel
theorem witness_PlainWriteActsByItsTypes : plainRegister 0x100080 = true ∧ up.dev.Writes 0 0x100080 3 ∧ up.Running := by decide +kernel
theorem witness_DeniedWriteIsDiscarded : up.dev.writeVerdict 0 0x100080 3 ((3 : BitVec 4) == 15) = .deny .partialWrite ∧
    up.dev.fixedWrite 0 0x100080 3 = false ∧ up.dev.writeVerdict 21 0x100080 3 true = .deny .fixed ∧
    (dev (fun d => d.setFlag ACT_VIOL_FIRST0_valid true)).dev.writeVerdict 21 0x100080 3 true = .deny .fixed := by decide +kernel
theorem witness_RecoveryAnswersNothingElse : (dev (fun d => d.bndPut .recovery)).dev.bndIs .recovery = true ∧
    (dev (fun d => d.bndPut .recovery)).dev.fixedWrite 0 0x100080 3 = false ∧ writeNeed 0 0x100080 3 = .table ∧ (dev (fun d => d.bndPut .recovery)).dev.arrives 0 = true ∧
    State.reset.Running ∧ State.reset.dev.arrives 0 = false ∧ State.reset.dev.arrives 1 = false := by decide +kernel
theorem witness_PlainReadAnswersItsWord : up.dev.readVerdict 0 0x10000 = .pass ∧ (∃ r ix, findRow 0x10000 = some (r, ix)) ∧ up.dev.pairLow 0x10000 = false ∧
    up.dev.pairLow (0x10000 - 4) = false ∧ findRow 0x13FFFC = none ∧ up.dev.readVerdict 0 0x13FFFC = .pass := ⟨by decide +kernel, ⟨_, _, rfl⟩, by decide +kernel⟩
theorem witness_WindowsAreReadAndWritten : [0x1000000, 0x11FFFFC, 0x1200000, 0x127FFFC, 0x129FFFC, 0x147FFFC].map targetOf = [some 20, some 21, some 22, some 23, some 24, some 25] ∧
    (∀ a ∈ [0x1000000, 0x11FFFFC, 0x1200000, 0x127FFFC, 0x129FFFC, 0x147FFFC], up.dev.Writes 0 a 5 ∧ up.dev.readVerdict 0 a = .pass) ∧ up.dev.bankLockedWr 1 = false ∧
    (dev (fun d => d.set (bankState 1) 1)).dev.bankLockedWr 1 = true ∧ (dev (fun d => d.set (bankState 1) 1)).dev.Writes 0 0x127FFFC 5 ∧
    bankLocked up.dev 0x7FFFC = false ∧ bankLocked (dev (fun d => (d.set (FLT_GRP_CTRL_state 31) 1).set (FLT_GRP_CTRL_bank 31) 1)).dev 0x7FFFC = true ∧
    up.dev.get LGE_STAT_state = 0 ∧ (dev (fun d => d.set LGE_STAT_state 2)).dev.get LGE_STAT_state ≠ 4 := by decide +kernel
theorem witness_LowWordReadCapturesTheHighWord : up.dev.pairLow 0x40068 = true ∧ up.dev.readVerdict 0 0x40068 = .pass ∧
    (dev (fun d => d.capture (masterSpan + 0x4006C) 5)).dev.pairLow 0x40068 = true ∧
    (dev (fun d => d.capture (masterSpan + 0x4006C) 5)).dev.shadowWord (masterSpan + 0x4006C) = some 5 ∧
    up.dev.shadowWord (masterSpan + 0x4006C) = none := by decide +kernel
theorem witness_EventCommands : up.dev.Writes 0 0x120300 7 ∧ up.dev.Writes 0 0x120240 0xFFFFFFFF ∧
    lookup 5 (dev (fun d => { d with host := { d.host with evMerged := [(5, 0)] } })).dev.host.evMerged = some 0 := by decide +kernel

theorem witness_QuiresNeverOverflow : ∀ j, (up.dev.quire j).credits ≤ (up.dev.quire j).capacity := fun _ => Nat.le_refl _
theorem witness_QuireCreditsFollowTheItems : up.Running ∧ up.dev.quireDead 402 = false ∧
    (dev (fun d => d.set GCTL_FAB_STAT_dead_xing 0xFFF)).dev.quireDead 402 = true := by decide +kernel
theorem witness_QuireMonitorShowsTheQuire : up.dev.Writes 0 0x200 5 ∧ bitAt 5 31 = false ∧ up.dev.Writes 0 0x200 (5 + 2 ^ 31) ∧
    ((dev (fun d => { d with quires := [(5, { credits := 3, capacity := 4, high := 2 })] })).dev.quire 5).capacity ≠ 0 := by decide +kernel
theorem witness_FabricFaultsAreRecorded : up.dev.xingDead 7 = false ∧ (dev (fun d => d.set GCTL_FAB_STAT_dead_xing 0x80)).dev.xingDead 7 = true ∧
    up.dev.xingRuns 7 = false := by
  decide +kernel

/-- REFCLK is clear, the multiplier is LOCKED and the domains run. -/
def clocked (d : Dev) : Dev := forN 10 (fun g d => d.domPut g .on) ((({ d with ckp := { d.ckp with started := true, refGone := false } }.setFlag CKP_STAT_ref_ok true).setFlag CKP_STAT_coast false).set
  CKP_STAT_state MultState.locked.code)

theorem witness_HeadroomIsTheLeastOfTheRings : up.dev.coast = true ∧ (dev (fun d => { clocked d with
      nvm := { d.nvm with floor := List.replicate 8 100 } })).dev.refOk = true ∧ (dev clocked).dev.coast = false := by decide +kernel
theorem witness_CoreVoltageCommands : up.dev.Writes 0 0x100 (2 ^ 29) ∧
    let s := dev (fun d => ({ clocked d with avs := { d.avs with request := 700 } }).setFlag GCTL_AVS_CFG_enable true)
    s.dev.flag GCTL_AVS_CFG_enable = true ∧ s.dev.refOk = true ∧ s.dev.coast = false ∧ s.dev.avs.stepping = none ∧ s.dev.avs.request ≠ 0 ∧
      s.dev.flag GCTL_HDRM_valid = false ∧ s.dev.avs.failures < 2 ∧
    let t := dev (fun d => (({ clocked d with avs := { d.avs with request := 700, goodRun := 15, stepping := none } }).setFlag GCTL_AVS_CFG_enable true).setFlag GCTL_HDRM_valid true |>.setI GCTL_HDRM_headroom 30000)
    t.dev.flag GCTL_HDRM_valid = true ∧ t.dev.avs.retry = none ∧ t.dev.get GCTL_AVS_CFG_down_step ≠ 0 ∧
    5 * (t.dev.get GCTL_AVS_CFG_margin : Int) + 5 * (t.dev.get GCTL_AVS_CFG_hysteresis : Int) ≤ t.dev.getI GCTL_HDRM_headroom ∧ 15 ≤ t.dev.avs.goodRun ∧
    let u := dev (fun d => { t.dev with avs := { d.avs with retry := some 690, request := 700, stepping := some 690, failures := 2 } })
    u.dev.avs.retry = some 690 ∧ u.dev.avs.stepping = some 690 ∧ 2 ≤ u.dev.avs.failures := by decide +kernel

theorem witness_MonitorTripMovesTheMultiplier : let s := dev (fun d => clocked d)
    s.Running ∧ s.dev.refOk = true ∧ s.dev.multIs .locked = true ∧ up.dev.refOk = false ∧
    (dev (fun d => (d.setFlag CKP_STAT_mon_trip false).set CKP_STAT_state MultState.counting.code)).dev.multIs .counting = true := by decide +kernel
theorem witness_MultiplierTransitions : up.dev.multIs .waitRef = true ∧ up.dev.multIs .locking = false ∧
    (dev (fun d => d.set CKP_STAT_state MultState.locking.code)).dev.multIs .locking = true ∧ up.dev.Writes 0 0x10000 1 := by decide +kernel
theorem witness_DomainsRampByTheirDividers : let s := dev (fun d => ((clocked d).domPut 5 .ramping).set (CKP_DOM_CTRL_divider 5) 1024)
    s.Running ∧ s.dev.domEdges 5 = true ∧ s.dev.domIs 5 .ramping = true ∧
    s.dev.flag (CKP_DOM_CTRL_enable_pending 5) = false ∧ s.dev.get (CKP_DOM_CTRL_divider 5) ≤ 1024 ∧ domFixed 5 = false ∧ domFixed 0 = true ∧
    let t := dev (fun d => ((clocked d).domPut 5 .disabling).set (CKP_DOM_CTRL_divider 5) 1024)
    t.dev.domEdges 5 = true ∧ t.dev.domIs 5 .disabling = true ∧ t.dev.get (CKP_DOM_CTRL_divider 5) = 1024 ∧
    t.dev.flag (CKP_DOM_CTRL_enable_pending 5) = false := by
  decide +kernel
theorem witness_DomainsRampByTheirDividers_switch : let s := dev (fun d => (clocked d).domPut 5 .off)
    s.dev.domIs 5 .off = true ∧ s.dev.ckp.started = true ∧ s.dev.WritesField 0 0x10150 0 1 1 ∧ s.dev.WritesField 0 0x10100 0 1 0 ∧
    let t := dev (fun d => (clocked d).setFlag (CKP_DOM_CTRL_enable 5) true)
    t.dev.domIs 5 .on = true ∧ t.dev.flag (CKP_DOM_CTRL_enable 5) = true ∧ t.dev.WritesField 0 0x10150 0 1 0 := by decide +kernel
theorem witness_ClockSwitchesAndMeasurements : let s := dev (fun d => (clocked d).setFlag (CKP_DOM_CTRL_enable 5) true)
    s.Running ∧ s.dev.onRef 5 ≠ true ∧ s.dev.domIs 5 .on = true ∧ s.dev.refOk = true ∧ s.dev.WritesField 0 0x10150 4 1 1 ∧
    s.dev.onRef 0 ≠ true ∧ s.dev.WritesField 0 0x10100 4 1 1 ∧ s.dev.Reaches (nextMs s.dev.now) ∧ s.dev.ckp.switching.contains 5 = false ∧
    let t := dev (fun d => (clocked d).domPut 5 .off)
    t.dev.domIs 5 .off = true ∧ t.dev.onRef 5 ≠ true ∧ t.dev.WritesField 0 0x10150 4 1 1 ∧
    (dev (fun d => { d with ckp := { d.ckp with switching := [5] } })).dev.ckp.switching.contains 5 = true := by decide +kernel

/-! ## States that meet the hypotheses of the statements: power, the Binding, hosts and time -/

theorem witness_ResetsStartAllOver : up.dev.Writes 0 0x10808 0x5E ∧ 0x5E % 256 = 0x5E ∧ up.dev.Writes 0 0x10808 0x5D ∧
    let s := dev (fun d => d.set BND_STAT_active 1)
    s.Running ∧ s.dev.fixedWrite 0 0x10808 0x5E = false ∧ s.dev.granted .admin 1 0 = false := by decide +kernel
theorem witness_TemperatureTripsAndResets : (dev (fun d => { d with pwr := { d.pwr with thermRun := 2 } })).Running ∧ (500 : Int) ≤ 500 ∧
    up.dev.pwr.thermRun < 2 ∧ (dev (fun d => { d with pwr := { d.pwr with held := true, thermHold := true } })).dev.pwr.held = true := by
  decide +kernel
theorem witness_IslandControlsTheRails :
    let s := dev (fun d => { d with pwr := { d.pwr with held := true }, island := { d.island with vstby := true, pwrEn := true, holdOff := true } })
    s.dev.pwr.held = true ∧ s.dev.island.vstby = true ∧ s.dev.island.pwrEn = true ∧ s.dev.pwr.thermHold = false ∧
    s.dev.island.holdOff = true ∧ s.dev.get CKP_PWR_STAT_step = 0 ∧
    let t := dev (fun d => { d with pwr := { d.pwr with held := true }, island := { d.island with vstby := false } })
    t.dev.pwr.held = true ∧ t.dev.island.vstby = false := by decide +kernel
theorem witness_ShutdownInItsOrder : up.dev.Writes 0 0x1080C 0xD5 ∧ up.dev.Writes 0 0x1080C 0xD4 ∧
    (dev (fun d => d.set BND_STAT_active 1)).dev.fixedWrite 0 0x1080C 0xD5 = false ∧ (dev (fun d => d.set BND_STAT_active 1)).dev.granted .admin 1 0 = false ∧
    up.dev.get CKP_PWR_STAT_step < 9 ∧ up.dev.pwr.store = none ∧ up.dev.pwr.shut = 0 ∧
    (dev (fun d => d.set CKP_PWR_STAT_step 9)).dev.Writes 0 0x1080C 0xD5 ∧ 9 ≤ (dev (fun d => d.set CKP_PWR_STAT_step 9)).dev.get CKP_PWR_STAT_step ∧
    up.dev.enr.saving = none ∧ up.dev.logs.legalQueue = [] ∧
    (dev (fun d => { d with pwr := { d.pwr with shut := 3 } })).dev.pwr.shut = 3 ∧
    (dev (fun d => { d with pwr := { d.pwr with store := some { cmd := 2, slot := 1, bytes := [] } } })).dev.Writes 0 0x1080C 0xD5 := by decide +kernel
theorem witness_StartupReadsTheNvm : (dev (fun d => d.set CKP_PWR_STAT_step 3)).dev.get CKP_PWR_STAT_step = 3 ∧ up.dev.get CKP_PWR_STAT_step ≠ 3 ∧
    let s := dev (fun d => { clocked d with le := { d.le with doutDiff := [(3, 0)] } })
    lookup 3 s.dev.le.doutDiff = some 0 ∧ s.dev.ReachesElapsed (0 + 800000) ∧ lookup 3 up.dev.le.doutDiff = none ∧
    up.dev.readVerdict 0 0x130204 = .pass ∧ lookup 3 up.dev.le.doutRise = none ∧
    (dev (fun d => { d with le := { d.le with doutRise := [(3, 0)] } })).dev.doutMonBit 3 = true ∧
    (dev (fun d => { d with tap := { d.tap with testMode := true } })).dev.tap.testMode = true := by decide +kernel
theorem witness_KeySequenceArms : up.dev.Writes 0 0x20100 0x13579BDF ∧
    let s := dev (fun d => { clocked d with pwr := { d.pwr with keys := [(0, (1, 0)), (1, (2, 0))] } })
    lookup 0 s.dev.pwr.keys = some (1, 0) ∧ lookup 1 s.dev.pwr.keys = some (2, 0) ∧ s.dev.ReachesElapsed (0 + 4000000) := by decide +kernel
theorem witness_NvmCommandsRun : up.dev.Writes 2 0x20104 (2 + 16 * 1 + 64 * b2n false) ∧ up.dev.Writes 2 0x20104 (1 + 16 * 1 + 64 * b2n true) ∧
    up.dev.nvmOwner ≠ some .store ∧
    (nvmRefuse 2 2 1 false up.dev).isSome = true ∧
    let s := dev (fun d => { d with pwr := { d.pwr with keys := [(2, (2, 0))] } })
    nvmRefuse 2 2 1 false s.dev = none ∧
    let st : StoreSt := { cmd := 1, slot := 1, bytes := List.replicate 8 0 }
    (dev (fun d => { d with pwr := { d.pwr with store := some st } })).dev.nvmOwner = some .store ∧ st.cmd = 1 ∧ st.bytes.length ≤ st.done + 65536 := by decide +kernel
/-- Every command of NVM has a state in which it is accepted, and every kind of store one in which its end comes. -/
theorem witness_NvmCommandsRun_accepted :
    let s := dev (fun d => { (((d.set NVM_LEN 64).set NVM_ARG_LO 7).setFlag ENR_SEAL_STAT_open true).set2 NVM_SRC_LO NVM_SRC_HI (0x300000000000000 + 0x200000) |>.set (BND_PART_size_mib 3) 64 with
      pwr := { d.pwr with ddrMib := 1024, keys := [(2, (2, 0))] } })
    (∀ c ∈ [(1, 2), (2, 1), (3, 0), (4, 0), (5, 0), (6, 0)], nvmRefuse 2 c.1 c.2 false s.dev = none ∧ s.dev.Writes 2 0x20104 (c.1 + 16 * c.2)) ∧
    (∀ c ∈ [2, 3, 4, 5, 6], (dev (fun d => { d with pwr := { d.pwr with store := some { cmd := c, slot := 1, bytes := [1] } } })).dev.nvmOwner = some .store) ∧
    (let st : StoreSt := { cmd := 1, slot := 2, bytes := [] }
     0 + 65536 < (List.replicate 65537 (0 : Byte)).length ∧ st.done = 0) := by decide +kernel

theorem witness_LockOfTheBinding : up.dev.Writes 0 0x20008 1 ∧ up.dev.bndIs .unlocked = false ∧
    let s := dev (fun d => (clocked d).bndPut .unlocked)
    s.dev.bndIs .unlocked = true ∧ s.dev.Writes 0 0x20008 1 ∧ s.dev.ReachesElapsed (s.dev.bnd.unlockedAt + s.dev.bnd.timeoutMs * 4000000) ∧
    let u := dev (fun d => let d := d.bndPut .unlocked; { d with bnd := { d.bnd with timeoutMs := 10 } })
    u.dev.bndIs .unlocked = true ∧ ¬u.dev.ReachesElapsed (u.dev.bnd.unlockedAt + u.dev.bnd.timeoutMs * 4000000) := by decide +kernel
theorem witness_VerifyAndRebind : let s := dev (fun d => d.bndPut .locked)
    s.Running ∧ s.dev.bndIs .locked = true ∧ s.dev.Writes 0 0x20008 18 ∧ s.dev.Writes 0 0x20008 (3 + 16 + 256 * 0xC3) ∧
    s.dev.bnd.verifying.isSome = false ∧ s.dev.bnd.rebinding = false ∧ s.dev.storing 1 = false ∧ s.dev.bndIs .verifying = false ∧
    let t := dev (fun d => { d.bndPut .locked with bnd := { d.bnd with verifying := some (1, false) } })
    t.dev.bnd.verifying = some (1, false) ∧ t.dev.bndIs .verifying = false ∧ imgVerdict (t.dev.slotImage 1) t.dev = some 1 ∧ t.dev.Writes 0 0x20008 18 ∧
    up.dev.bndIs .locked = false := by decide +kernel
theorem witness_RecoveryLoad : let s := dev (fun d => d.bndPut .rcvLoading)
    s.dev.Writes 2 0x20008 4 ∧ s.dev.Writes 2 0x2000C 0x1234 ∧ s.dev.Writes 2 0x20008 5 ∧ s.dev.inRecovery = true ∧ s.dev.bndIs .rcvLoading = true ∧
    (dev (fun d => { d with bnd := { d.bnd with verifying := some (3, false) } })).dev.bnd.verifying = some (3, false) ∧
    verifyCode [] 0 up.dev ≠ 0 := by decide +kernel
theorem witness_VerificationDecides : let s := dev (fun d => { d.bndPut .verifying with bnd := { d.bnd with verifying := some (1, false) } })
    s.dev.bnd.verifying = some (1, false) ∧ s.dev.bndIs .verifying = true ∧ verifyCode (s.dev.slotImage 1) (16 * 65535) s.dev ≠ 0 ∧
    s.dev.pwr.trained = false := by decide +kernel
theorem witness_FolioBuildEnds : (dev (fun d => d.bndPut .building)).dev.bndIs .building = true ∧ up.dev.bndIs .building = false ∧
    (dev (fun d => { d.bndPut .rebinding with bnd := { d.bnd with rebuild := true } })).dev.bndIs .rebinding = true := by decide +kernel

theorem witness_LinksOfTheHosts : (∀ e : Endpoint, (up.dev.pcie e).msixEnable = (up.dev.pcie 0).msixEnable) ∧ (dev (fun d => (clocked d).set CKP_PWR_STAT_step 4)).dev.phyRuns 5 = true ∧
    4 ≤ (dev (fun d => (clocked d).set CKP_PWR_STAT_step 4)).dev.get CKP_PWR_STAT_step ∧ up.dev.get CKP_PWR_STAT_step < 4 := by decide +kernel
theorem witness_ApertureAccesses : up.dev.arrives 0 = true ∧ up.dev.arrives 1 = true ∧ State.reset.dev.arrives 1 = false ∧ up.dev.apertureHit (up.dev.apertureAddr 0 0) = none ∧
    let s := dev (fun d => { (d.set (BND_PART_size_mib 1) 4).set (BND_PART_base_mib 1) 8 with pwr := { d.pwr with ddrMib := 1024 } })
    (s.dev.apertureHit (8 * mib)).isSome = true := by decide +kernel
theorem witness_DmaStartsAndAborts : up.dev.WritesField 0 0x30100 0 1 1 ∧ up.dev.WritesField 0 0x30100 0 1 0 ∧
    up.dev.flag (ACT_DMA_CTRL_busy 0) = false ∧ (dev (fun d => d.setFlag (ACT_DMA_CTRL_busy 0) true)).dev.flag (ACT_DMA_CTRL_busy 0) = true := by
  decide +kernel
theorem witness_DmaDescriptorsEnd :
    let s := dev (fun d => { d.setFlag (ACT_DMA_CTRL_busy 0) true with host := { d.host with linkUp := 3, dma := [(0, 0x100)], dmaCur := [(0, 0)] } })
    s.Running ∧ 0 ∈ dmaOf 0 ∧ s.dev.flag (ACT_DMA_CTRL_busy 0) = true ∧ s.dev.linkUp 0 = true ∧ s.dev.dmaRuns 0 = some 0 ∧ dmaForm 0 (memReadN (s.dev.hostMem 0) 0x100 32) = none := by decide +kernel
theorem witness_SpiTransactions : let req : List Byte := [0x10, 0, 0, 0]
    spiLen [0x10, 0, 0, 0, 0] = 4 ∧ byteAt req 0 / 16 = 1 ∧ spiLen [0x20] = 8 ∧ [0x20].length ≤ spiLen [0x20] ∧ crc8 req ≠ 0 := by decide +kernel

theorem witness_CounterCommands : up.dev.readVerdict 0 0x40018 = .pass ∧ up.dev.WritesField 0 0x40000 0 2 1 ∧
    up.dev.WritesField 0 0x40000 0 2 2 ∧ up.dev.WritesField 0 0x40000 2 2 3 ∧ up.dev.WritesField 0 0x40000 8 2 2 ∧
    up.dev.Writes 0 0x40034 5 ∧ up.dev.timeState = 0 ∧ (dev (fun d => d.set TBS_STATE_state 1)).dev.timeState ≠ 0 := by decide +kernel
theorem witness_CounterStepTakesEffect : let s := dev (fun d => { clocked d with time := { d.time with pending := some (.adj 5) } })
    s.Running ∧ s.dev.time.pending = some (.adj 5) ∧ s.dev.tbcRuns = true ∧ up.dev.time.pending = none := by decide +kernel

/-! ## States that meet the hypotheses of the statements: PTP, triggers and Ethernet -/

/-- A PTP message of a type behind its Ethernet header: version 2, sequence 0, all else zero, of sender 7 and port number 1. -/
def ptpMsg (ty n : Nat) : RxFrame :=
  { port := 0, stamp := 0, raw := [], bytes := List.replicate 14 0 ++ [BitVec.ofNat 8 ty, 2, 0, BitVec.ofNat 8 n] ++ List.replicate 16 0 ++ toBe 8 7 ++ toBe 2 1
    ++ List.replicate (n - 30) 0 }

/-- ENGINE mode on port 0, with a message handed over and a qualified, selected master 7. -/
def ptpState (f : RxFrame) : State := dev (fun d =>
  { (clocked d).set TBS_CTRL_ptp_mode 1 |>.set TBS_PTP_CFG_port_en 1 with
    eth := { d.eth with ptpIn := [f] }
    time := { d.time with foreign := [{ port := 0, clockId := 7, portNumber := 1, seen := [0], qualified := true }], selected := some ⟨0, 7, 1⟩ } })

theorem witness_PeerDelayExchange : (ptpState (ptpMsg 2 54)).dev.ptpRuns 0 = true ∧ (ptpTake 2 (ptpState (ptpMsg 2 54)).dev).isSome = true ∧
    (ptpState (ptpMsg 2 54)).dev.ptpGood 54 (ptpMsg 2 54).payload = true ∧ ptpTake 2 up.dev = none ∧ up.dev.ptpRuns 0 = false ∧
    (ptpTake 3 (ptpState (ptpMsg 3 54)).dev).isSome = true ∧ (ptpTake 10 (ptpState (ptpMsg 10 54)).dev).isSome = true ∧
    let s := ptpState (ptpMsg 2 54)
    s.dev.pdelayDue 0 ≤ (passElapsed (s.dev.pdelayDue 0) s.dev).time.elapsed := by decide +kernel
theorem witness_MastersAreSelected : (ptpTake 11 (ptpState (ptpMsg 11 64)).dev).isSome = true ∧
    (ptpState (ptpMsg 11 64)).dev.ptpGood 64 (ptpMsg 11 64).payload = true ∧ (ptpState (ptpMsg 11 64)).dev.selectedForeign.isSome = true ∧
    up.dev.selectedForeign = none ∧
    let s := ptpState (ptpMsg 11 64)
    ∀ f, s.dev.selectedForeign = some f → let n := s.dev.get TBS_PTP_CFG_announce_timeout * f.interval
      min (f.seen.headD 0 + n) (f.lastSync + n) ≤ (passTo (min (f.seen.headD 0 + n) (f.lastSync + n)) s.dev).now := by decide +kernel
theorem witness_ServoRunsOnSync : let s := ptpState (ptpMsg 0 44)
    (ptpTake 0 s.dev).isSome = true ∧ s.dev.ptpGood 44 (ptpMsg 0 44).payload = true ∧ s.dev.fromSelected (ptpMsg 0 44) = true ∧
    bitAt (byteAt (ptpMsg 0 44).payload 6) 1 = false ∧ s.dev.coast = false ∧ s.dev.time.firstUpdate = true ∧ s.dev.time.waitSync = none ∧
    (ptpTake 8 (ptpState (ptpMsg 8 44)).dev).isSome = true := by decide +kernel
theorem witness_HoldoverAndLeapSeconds :
    let s := dev (fun d => { clocked d |>.set TBS_STATE_state 2 |>.set TBS_CTRL_ptp_mode 1 |>.set TBS_UTC_leap 1 with
      time := { d.time with leapAt := some 5, lockedLeft := some 0 } })
    s.Running ∧ s.dev.timeState = 2 ∧ s.dev.get TBS_CTRL_ptp_mode = 1 ∧ s.dev.get TBS_UTC_leap ≠ 0 ∧ s.dev.time.leapAt = some 5 ∧
    s.dev.time.lockedLeft = some 0 ∧ s.dev.Writes 0 0x40070 (37 + 2 ^ 20) ∧ 5 + 86400000000000 ≤ (passTo (5 + 86400000000000) s.dev).now ∧
    up.dev.timeState ≠ 2 ∧ up.dev.get TBS_UTC_leap = 0 ∧ up.dev.time.leapAt = none := by decide +kernel
theorem witness_StampsAndTriggerEnables : up.dev.readVerdict 0 0x40110 = .pass ∧ up.dev.txq 0 = [] ∧
    (dev (fun d => d.putTxq 0 [⟨3, 1000000007⟩])).dev.txq 0 = [⟨3, 1000000007⟩] ∧ up.dev.WritesField 0 0x40200 0 1 1 ∧
    up.dev.WritesField 0 0x40200 0 1 0 ∧ up.dev.get (TBS_TTO_STAT_state 0) = 0 ∧
    let s := dev (fun d => (d.set (TBS_TTO_PERIOD 0) 1000).set (TBS_TTO_WIDTH 0) 100)
    100 ≤ s.dev.get (TBS_TTO_PERIOD 0) ∧ 4 ≤ s.dev.get (TBS_TTO_WIDTH 0) ∧ s.dev.get (TBS_TTO_WIDTH 0) + 4 ≤ s.dev.get (TBS_TTO_PERIOD 0) ∧
    s.dev.WritesField 0 0x40200 0 1 1 ∧ (dev (fun d => d.set (TBS_TTO_STAT_state 0) 2)).dev.get (TBS_TTO_STAT_state 0) = 2 := by decide +kernel
theorem witness_TriggersAndInputs :
    let s := dev (fun d => { clocked d with time := { d.time with ttoNext := [(0, 10)], ttoPulse := [(1, 40)] } })
    s.Running ∧ lookup 0 s.dev.time.ttoNext = some 10 ∧ (let x := passTo 12 s.dev; ¬(12 * 2 ^ 32 + x.tickStep ≤ x.time.clock)) ∧
    (let x := passTo 12 (dev (fun d => { clocked d with time := { d.time with clock := 100 * 2 ^ 32 } })).dev; 12 * 2 ^ 32 + x.tickStep ≤ x.time.clock) ∧ (10 + 3) / 4 * 4 ≤ (passTo ((10 + 3) / 4 * 4) s.dev).now ∧ lookup 1 s.dev.time.ttoPulse = some 40 ∧
    40 ≤ (passElapsed 40 s.dev).time.elapsed ∧ lookup 2 s.dev.time.ttoNext = none ∧ lookup 2 s.dev.time.ttoPulse = none ∧
    s.dev.get DIO_DIN_FILT_filt_us < 101 ∧ bitAt (s.dev.get DIO_DIN_LEVEL_level) 0 ≠ true ∧
    2000 / 1000 * 1000 ≤ (passTo (2000 / 1000 * 1000) s.dev).now := by decide +kernel

theorem witness_PortsOpenAndClose : up.dev.WritesField 0 0x50000 0 1 1 ∧ up.dev.WritesField 0 0x50000 0 1 0 ∧
    up.dev.get (ETH_CFG_state 0) = 0 ∧ up.dev.flag (ETH_STAT_link 0) = false ∧ up.dev.phyRuns 1 = false ∧
    (dev clocked).dev.phyRuns 1 = true ∧ (dev clocked).dev.flag (ETH_STAT_link 0) ≠ true ∧
    (dev (fun d => d.set (ETH_CFG_state 0) 2)).dev.get (ETH_CFG_state 0) = 2 ∧ (dev (fun d => d.set (ETH_CFG_state 0) 1)).dev.WritesField 0 0x50000 0 1 0 := by
  decide +kernel
/-- Port 0 is ON with its link up, and the frame in transmission is a host's. -/
def portState : State := dev (fun d => { (clocked d |>.set (ETH_CFG_state 0) 1).setFlag (ETH_STAT_link 0) true with
  eth := { d.eth with ports := [(0, { holdEnd := some 8, current := some { kind := .host 0 0 1 false false false, bytes := List.replicate 10000 0, hostLen := 9996 } })] } })
theorem witness_FramesAreReceived : portState.Running ∧ (passTo 0 portState.dev).get (ETH_CFG_state 0) = 1 ∧ (passTo 0 portState.dev).flag (ETH_STAT_link 0) = true ∧
    rxDropCounter 0 (List.replicate 10 0) .none portState.dev = some 4 ∧
    rxDropCounter 0 (List.replicate 6 255 ++ List.replicate 6 0 ++ [0x88, 0xF7] ++ List.replicate 46 0) .none portState.dev = none ∧
    (portState.dev.port 0).holdEnd = some 8 ∧ portState.dev.ReachesElapsed 8 ∧ ¬up.dev.ReachesElapsed 8 ∧ (up.dev.port 0).holdEnd = none := by decide +kernel
theorem witness_ReceiveRings : up.dev.readVerdict 0 0x51014 = .pass ∧ up.dev.Writes 0 0x51018 0 ∧
    up.dev.WritesField 0 0x51000 0 1 1 ∧ up.dev.WritesField 0 0x51000 0 1 0 := by decide +kernel
theorem witness_TransmitRings : up.dev.Writes 0 0x5110C 3 ∧ up.dev.WritesField 0 0x51100 0 1 1 ∧
    up.dev.WritesField 0 0x51100 0 1 0 ∧ up.dev.flag (ETH_TXR_CTRL_on 0 0) = false := by decide +kernel
theorem witness_TransmissionEnds : (portState.dev.port 0).current.isSome = true ∧ (∀ it ∈ (portState.dev.port 0).current, 256 * it.thr < it.hostLen) ∧ (up.dev.port 0).current = none := by
  decide +kernel
theorem witness_PreemptionIsVerified : up.dev.get (ETH_MM_STAT_verify 0) = 0 ∧ up.dev.Writes 0 0x50018 1 ∧
    (dev (fun d => d.set (ETH_MM_STAT_verify 0) 2)).dev.get (ETH_MM_STAT_verify 0) = 2 ∧ (up.dev.port 0).verifyDue = none ∧ (dev clocked).dev.ReachesElapsed 40 ∧ 1 ≠ up.dev.get (ETH_MM_pre_en 0) := by decide +kernel

/-! ## States that meet the hypotheses of the statements: streams and the Collator -/

theorem witness_StreamCommandsStart : up.dev.Writes 0 0x60020 (1 + 16 * 5) ∧ up.dev.Writes 0 0x60020 (3 + 16 * 5) ∧
    up.dev.flag STR_CMD_STAT_busy = false ∧ (dev (fun d => d.setFlag STR_CMD_STAT_busy true)).dev.Writes 0 0x60020 (2 + 16 * 5) ∧
    (dev (fun d => d.setFlag STR_CMD_STAT_busy true)).dev.flag STR_CMD_STAT_busy = true := by decide +kernel
theorem witness_StreamCommandsEnd : up.dev.str.cmd = none ∧
    (dev (fun d => { d with str := { d.str with cmd := some { op := 1, index := 5 } } })).dev.str.cmd = some { op := 1, index := 5 } ∧
    (dev (fun d => { d with str := { d.str with cmd := some { op := 2, index := 5 } } })).dev.str.cmd = some { op := 2, index := 5 } := by decide +kernel
theorem witness_SourceSnapshot : up.dev.Writes 0 0x60100 5 := by decide +kernel

/-- Entry of kind 1: rate 50, 10.0.0.1, port 4712, IDCODE 7, TIME_BASE 1,000,000, no channel. -/
def entry : Ent := ⟨[1, 1] ++ toLe 2 50 ++ toLe 4 0 ++ [10, 0, 0, 1] ++ toLe 2 4712 ++ toLe 2 7 ++ toLe 4 1000000 ++ List.replicate 54 0 ++ [1, 0] ++ toLe 2 1000
  ++ toLe 2 100 ++ List.replicate 48 0⟩
/-- A data frame of that entry at second 100: STAT, FREQ and DFREQ. -/
def c37Payload : List Byte := let b := [0xAA, 1] ++ toBe 2 22 ++ toBe 2 7 ++ toBe 4 100 ++ toBe 4 0 ++ List.replicate 6 0
  b ++ toBe 2 (crcCcitt b)
/-- It in UDP over IPv4 over Ethernet. -/
def c37Frame : RxFrame := let ip (ck : Nat) : List Byte := [0x45, 0] ++ toBe 2 50 ++ [0, 0, 0, 0, 64, 17] ++ toBe 2 ck ++ [10, 0, 0, 1, 10, 0, 0, 2]
  { port := 0, stamp := 0, raw := [], bytes := List.replicate 12 0 ++ [8, 0] ++ ip (65535 - fold16 (sum16 (ip 0))) ++ toBe 2 4712 ++ toBe 2 4712 ++ toBe 2 30 ++ toBe 2 0
      ++ c37Payload }
def c37State : State := dev (fun d => { d with eth := { d.eth with streamIn := [c37Frame] }, str := { d.str with working := [(5, entry)], src := [(5, { state := 1 })] } })

theorem witness_SynchrophasorFrames : c37State.Running ∧ up.dev.eth.streamIn = [] ∧ udpPayload c37Frame.bytes = some c37Payload ∧
    syncOk c37Payload = true ∧ bits (byteAt c37Payload 1) 4 3 = 0 ∧ udpPayload [] = none ∧
    c37State.dev.matchC37 (slice c37Frame.bytes 26 4 ++ toLe 2 (beAt c37Frame.bytes (14 + byteAt c37Frame.bytes 14 % 16 * 4 + 2) 2) ++
      toLe 2 (beAt c37Payload 4 2)) = some 5 ∧
    c37State.dev.laneRuns 1 0 = true ∧ crcCcitt (c37Payload.take (c37Payload.length - 2)) = beAt c37Payload (c37Payload.length - 2) 2 ∧
    ((placeUpTo (fun f => f.src == 5) c37State.dev).srcSt 5).state ≠ 5 ∧ c37Payload.length = (c37State.dev.ent 5).frameSize ∧ beAt c37Payload 11 3 < (c37State.dev.ent 5).timeBase ∧
    withheld (c37State.dev.ent 5) 0 0 = false ∧ (c37State.dev.srcSt 5).stat10 = false := by decide +kernel

/-- Entry of kind 2: destination 01-0C-CD-04-00-01, APPID 0x4000, 4,000 samples a second, svID "A". -/
def svEntry : Ent := ⟨[2, 1] ++ toLe 2 50 ++ toLe 4 1 ++ [1, 0x0C, 0xCD, 4, 0, 1] ++ toLe 2 0x4000 ++ toLe 2 4000 ++ [0, 1, 1, 65] ++ List.replicate 52 0 ++ [1, 0] ++ toLe 2 1000
  ++ List.replicate 50 0⟩
def svFrame : RxFrame :=
  let asdu : List Byte := [0x80, 1, 65, 0x82, 2] ++ toBe 2 10 ++ [0x83, 4] ++ toBe 4 1 ++ [0x85, 1, 2, 0x87, 64] ++ List.replicate 64 0
  let pdu : List Byte := [0x60, 89, 0x80, 1, 1, 0xA2, 84, 0x30, 82] ++ asdu
  { port := 0, stamp := 0, raw := [], bytes := [1, 0x0C, 0xCD, 4, 0, 1, 2, 0, 0, 0, 0, 1, 0x88, 0xBA] ++ toBe 2 0x4000 ++ toBe 2 (8 + pdu.length) ++ [0, 0, 0, 0] ++ pdu }
def svState : State := dev (fun d => { d with eth := { d.eth with svIn := [svFrame] }, str := { d.str with working := [(5, svEntry)], src := [(5, { state := 1 })] } })

theorem witness_SampledValueFrames : svState.Running ∧ up.dev.eth.svIn = [] ∧ savPdu [] = none ∧ firstSvid [] = none ∧ (firstSvid svFrame.apdu).isSome = true ∧
    svFrame.apdu = (svFrame.bytes.drop 22).take (beAt svFrame.bytes 16 2 - 8) ∧
    (match savPdu ((svFrame.bytes.drop 22).take (beAt svFrame.bytes 16 2 - 8)) with
      | some (1, [a]) => a.sync == some 2 && a.data.length == 64 && a.confRev == (svState.dev.ent 5).cfgRef && decide (a.smpCnt < (svState.dev.ent 5).svRate) &&
          svState.dev.matchSv (svFrame.bytes.take 6) (beAt svFrame.bytes 14 2) a.svid == some 5
      | _ => false) = true ∧
    svState.dev.laneRuns 1 0 = true ∧ ((finishAll 5 svState.dev).srcSt 5).state ≠ 5 ∧ ((finishAll 5 svState.dev).srcSt 5).svRuns = [] ∧ (svState.dev.ent 5).svAsdu = 1 ∧ bits (svState.dev.ent 5).policy 8 2 ≤ 2 := by
  decide +kernel
theorem witness_SilenceIsChecked : (dev clocked).Running ∧ nextMs (dev clocked).dev.now ≤ (passTo (nextMs (dev clocked).dev.now) (dev clocked).dev).now := by
  decide +kernel

/-- Grid 0 is ON with entry 5 in its range, its instant 10 open and seen by reader 32; the good frame of entry 5 for it waits. -/
def gridState (frame : GoodFrame) (fin : Option Nat) : State := dev (fun d =>
  { clocked d |>.set (COL_GRID_CTRL_state 0) 1 |>.set (COL_GRID_CTRL_rate 0) 50 |>.set (COL_GRID_SRC_first 0) 0 |>.set (COL_GRID_SRC_count 0) 16
      |>.set (COL_RD_CTRL_state 32) 1 |>.set (COL_RD_WAIT_wait_us 32) 5000 with
    str := { d.str with working := [(5, entry)], src := [(5, { state := 1 })] }
    col := { d.col with
      inbox := [frame], grids := [(0, { next := 11, held := [{ k := 10, g := 200000000, due := [5], views := [{ reader := 32 }], finalAt := fin }] })] } })
def onTime : GoodFrame := { src := 5, t := 200000000, arr := 200000000 }

theorem witness_GoodFramesArePlaced : let s := gridState onTime none
    s.Running ∧ up.dev.col.inbox = [] ∧ s.dev.frames = [onTime] ∧ s.dev.eth.streamIn = [] ∧ (parseBefore onTime.arr s.dev).frames = [onTime] ∧ s.dev.blockRuns 58 = true ∧ s.dev.laneRuns 2 0 = true ∧ onTime.t < onTime.arr + s.dev.lead ∧
    s.dev.onOwnGrid (s.dev.ent 5) onTime.t = true ∧ s.dev.gridsOf 5 = [0] ∧ s.dev.place? 0 onTime.t onTime.arr = some (10, false) ∧
    (s.dev.gath 0 10).isSome = true ∧ s.dev.memAlive = true ∧ 0 + s.dev.lead ≤ 200000000 := by decide +kernel
theorem witness_GatheringsOpenAndRetire : let s := gridState onTime none
    s.dev.get (COL_GRID_CTRL_state 0) = 1 ∧ s.dev.gath 0 11 = none ∧ (s.dev.gath 0 10).isSome = true ∧ up.dev.get (COL_GRID_CTRL_state 0) ≠ 1 ∧
    (let due := instantAt 50 11 - s.dev.lead - s.dev.tol; due ≤ (passTo due s.dev).now) ∧
    s.dev.finalTime 0 200000000 ≤ (passTo (s.dev.finalTime 0 200000000) s.dev).now ∧
    s.dev.retireTime 0 200000000 ≤ (passTo (s.dev.retireTime 0 200000000) s.dev).now := by decide +kernel
theorem witness_ViewsClose : let s := gridState onTime none
    s.dev.gath 0 11 = none ∧ (∃ x ∈ s.dev.gath 0 10, x.finalAt = none ∧ x.g = 200000000 ∧ (s.dev.expected x).length = 1 ∧
      ∃ v ∈ x.views.find? (fun w => w.reader == 32), v.state = 0) ∧
    200000000 ≤ (passTo 200000000 s.dev).now ∧ 205000000 ≤ (passTo 205000000 s.dev).now ∧ s.dev.flag (COL_RD_CTRL_policy 32) = false := by decide +kernel
theorem witness_GridsOpenAndClose : up.dev.WritesField 0 0x70100 0 1 1 ∧ up.dev.WritesField 0 0x70100 0 1 0 ∧
    up.dev.get (COL_GRID_CTRL_state 0) = 0 ∧ (gridState onTime none).dev.WritesField 0 0x70100 0 1 0 ∧ (gridState onTime none).dev.blockRuns 58 = true ∧
    (dev (fun d => d.set (COL_GRID_CTRL_state 0) 2)).dev.get (COL_GRID_CTRL_state 0) = 2 := by decide +kernel
theorem witness_ReadersOpenAndClose : up.dev.WritesField 0 0x71400 0 1 1 ∧ up.dev.WritesField 0 0x71400 0 1 0 ∧
    up.dev.get (COL_RD_CTRL_state 32) = 0 ∧ (gridState onTime none).dev.get (COL_RD_CTRL_state 32) = 1 ∧
    (dev (fun d => d.set (COL_RD_CTRL_state 32) 2)).dev.get (COL_RD_CTRL_state 32) = 2 ∧
    (dev (fun d => d.set (COL_RD_CTRL_state 32) 2)).dev.flag (COL_RD_CTRL_enable_pending 32) = false := by decide +kernel
theorem witness_ReadersTakeNotices : (gridState onTime none).dev.get (COL_RD_CTRL_state 32) = 1 ∧ (gridState onTime none).dev.blockRuns 57 = true ∧
    (let s := dev (fun d => (d.set BND_FOLIO_CNT_out 1).set (COL_RD_CTRL_state 3) 1);
      s.Running ∧ s.dev.get (COL_RD_CTRL_state 3) = 1 ∧ 3 < 4 * s.dev.get BND_FOLIO_CNT_out ∧ s.dev.laneRuns 5 (3 / 4) = true ∧ 4 * s.dev.get BND_FOLIO_CNT_out ≤ 4) ∧
    (let nt : Notice := { grid := 0, k := 10, g := 200000000, arrived := 0, kind := 1, cause := 2 };
     let s : State := { gridState onTime none with dev := ((((((gridState onTime none).dev.set BND_FOLIO_CNT_out 1).set (COL_RD_CTRL_state 3) 1).set (ETH_CFG_state 0) 1).setFlag (ETH_STAT_link 0) true).putReader 3 { notices := [nt] }).setFlag SPN_STAT_acting true };
     ((s.dev.reader 3).notices.dropWhile (fun nt => (s.dev.gath nt.grid nt.k).isNone)).head? = some nt ∧ nt.g ∉ (s.dev.reader 3).composed ∧ s.dev.acting = true ∧
       s.dev.get (COL_OS_CFG_port 3) = 0 ∧ s.dev.portSends 0 = true ∧ s.dev.xingDead 1 = false) ∧ up.dev.acting = false := by decide +kernel

/-! ## States that meet the hypotheses of the statements: filters and the recorder -/

def sample : Sample := { group := 0, index := 10, time := 0, sync := 2, vals := List.replicate 8 0 }
def filterState : State := dev (fun d => { (d.set (FLT_GRP_CTRL_state 0) 1).set BND_FOLIO_CNT_flt 2 with
  flt := { d.flt with queue := [sample] }, str := { d.str with working := [(5, svEntry)] } })

theorem witness_SamplesAreFiltered : filterState.Running ∧ filterState.dev.flt.queue = [sample] ∧ filterState.dev.laneRuns 3 0 = true ∧
    filterState.dev.groupSrc 0 ≠ none ∧ filterState.dev.get (FLT_GRP_CTRL_state 0) = 1 ∧ filterState.dev.fltBound 0 = true ∧
    up.dev.flt.queue = [] ∧ up.dev.groupSrc 0 = none := by decide +kernel
theorem witness_SwapsAndFades : up.dev.Writes 0 0x80004 (1 + 4 + 65536 * 4097) ∧ up.dev.Writes 0 0x80004 2 ∧
    up.dev.get (FLT_GRP_CTRL_state 0) ≠ 1 ∧ filterState.dev.Writes 0 0x80004 (1 + 4 + 65536 * 4097) ∧
    (filterState.dev.fgroup 0).fade = none ∧ (filterState.dev.fgroup 0).held = none ∧ fltCode 0 1 (some ⟨1, 4097⟩) filterState.dev ≠ 0 ∧
    let t := dev (fun d => (d.set (FLT_GRP_CTRL_state 0) 1).putFgroup 0 { held := some ⟨1, 5⟩ })
    (t.dev.fgroup 0).held ≠ none ∧ t.dev.get (FLT_GRP_CTRL_state 0) = 1 := by decide +kernel
theorem witness_FilterGroupsOpenAndClose : let s := dev (fun d => d.set BND_FOLIO_CNT_flt 2)
    s.dev.fltBound 0 = true ∧ s.dev.WritesField 0 0x80000 0 1 1 ∧ s.dev.WritesField 0 0x80000 0 1 0 ∧ s.dev.get (FLT_GRP_CTRL_state 0) = 0 ∧
    (dev (fun d => d.set (FLT_GRP_CTRL_state 0) 2)).dev.get (FLT_GRP_CTRL_state 0) = 2 ∧ s.dev.laneRuns 3 0 = true ∧
    (dev (fun d => d.set (FLT_GRP_CTRL_state 0) 2)).dev.flag (FLT_GRP_CTRL_enable_pending 0) = false := by decide +kernel

/-- A recorder of two segments in a state, over 64 MiB of partition 1. -/
def recorder (st : Nat) (f : AcqSt → AcqSt) : State := dev (fun d =>
  { clocked d |>.set ACQ_STATUS_state st |>.set ACQ_CFG_n_seg 2 |>.set ACQ_SEGSZ_n_seg 2 |>.set (BND_PART_size_mib 1) 64 |>.set ACQ_TIME_settle 1
      |>.set (ACQ_TERM_T 0) 1 with acq := f d.acq })

theorem witness_RecorderOpensAndCloses : up.dev.WritesField 0 0x90000 0 1 1 ∧ up.dev.acqState = 0 ∧ up.dev.flag ACQ_CFG_enable = false ∧
    (recorder 4 id).dev.acqState = 4 ∧ (recorder 4 id).dev.WritesField 0 0x90000 0 1 1 ∧
    let s := dev (fun d => (d.set ACQ_STATUS_state 1).setFlag ACQ_CFG_enable true)
    s.dev.WritesField 0 0x90000 0 1 0 ∧ s.dev.flag ACQ_CFG_enable = true ∧ s.dev.flag ACQ_STATUS_enable_pending = false ∧ s.dev.acqState = 1 := by decide +kernel
theorem witness_RecorderCommands : let s := recorder 1 id
    s.dev.Writes 0 0x90010 1 ∧ s.dev.get ACQ_SEGSZ_n_seg ≤ 64 ∧ armCode s.dev ≠ 0 ∧ s.dev.Writes 0 0x90010 2 ∧ s.dev.Writes 0 0x90010 3 ∧
    s.dev.Writes 0 0x90010 (4 + 16 * 63) ∧ s.dev.Writes 0 0x90010 5 ∧ (recorder 2 id).dev.acqState = 2 ∧ (recorder 3 id).dev.acqState = 3 ∧
    s.dev.get (ACQ_SEG_state 0) = 0 ∧ (dev (fun d => d.set (ACQ_SEG_state 0) 3)).dev.get (ACQ_SEG_state 0) = 3 ∧
    (dev (fun d => d.set (ACQ_SEG_state 0) 1)).dev.get (ACQ_SEG_state 0) = 1 := by decide +kernel
def rec0 : AcqRec := { tt := 0, mask := 0, states := 0, cause := 0, term := 0, forced := false, tq := 0, tstate := 0, utc := 0, seq := 1 }
theorem witness_RecorderTakesValues : up.dev.acqState ≠ 2 ∧ (recorder 2 id).dev.acqState = 2 ∧
    (let s := recorder 2 id; s.dev.acq.tArm + s.dev.acqPre ≤ (passTo (s.dev.acq.tArm + s.dev.acqPre) s.dev).now) ∧ (recorder 2 id).dev.acq.recd = none ∧
    (recorder 2 (fun a => { a with inbox := [⟨0, 0, 0, 0, 4000, 50, 0, false⟩] })).dev.acq.inbox.length = 1 := by decide +kernel
theorem witness_TriggerStepsAreEvaluated : up.dev.acqActive = false ∧ (recorder 2 id).dev.acqActive = true ∧
    (let s := recorder 2 id; s.dev.stepOf ((s.dev.now - s.dev.acqSettle : Nat) : Int) ≤ s.dev.acq.nextStep + 1 ∧
      (∀ k < 32, s.dev.get (ACQ_COND0_kind k) ≠ 7) ∧ s.dev.stepDue 0 ≤ (passTo (s.dev.stepDue 0) s.dev).now ∧ s.dev.acq.events = [] ∧ s.dev.acq.forces = []) ∧
    (∃ t ∈ (recorder 2 (fun a => { a with forces := [0] })).dev.acq.forces, t < up.dev.stepStart 1) := by decide +kernel
theorem witness_RecordsComplete : let s := recorder 3 (fun a => { a with recd := some rec0 })
    s.Running ∧ s.dev.get ACQ_SEGSZ_n_seg ≤ 64 ∧ s.dev.flag ACQ_STATUS_enable_pending = false ∧ s.dev.acq.recd = some rec0 ∧
    s.dev.acq.tracks.all (fun t => t.done (0 + s.dev.acqPost)) = true ∧
    0 + s.dev.acqPost + s.dev.acqTail ≤ (passTo (0 + s.dev.acqPost + s.dev.acqTail) s.dev).now ∧ up.dev.acq.recd = none := by decide +kernel

/-! ## States that meet the hypotheses of the statements: the scheduler, DET and the logic engine -/

/-- A task of the kernel NOP for engine 0 and instance 0, created at 0. -/
def task (staged : Bool) (due : Nat) : Task :=
  { kernel := 1, prio := 2, inst := 0, affinity := 1, deadline := due, ready := 0, staged := staged }
/-- A notice to the detector group 0. -/
def trigger0 : Trigger := .notice 0 { grid := 0, k := 1, g := 1000, arrived := 0, kind := 1, cause := 0 } 0 0
/-- Engine 0 is in a state and holds tasks in its two slots. -/
def engine0 (st : Nat) (p r : Option Task) : State := dev (fun d => ((clocked d).putEng 0 { prefetch := p, running := r }).set (SCH_ENG_CTRL_state 0) st)

/-- A row of the register map that ends before an offset. -/
def endsBefore (o : Nat) (r : RegRow) : Bool := match r.dims with
  | [] => r.base + 1 ≤ o
  | (n, s) :: _ => decide (0 < s) && decide (r.base + n * s ≤ o)
theorem row_past {r : RegRow} {b o : Nat} (h : endsBefore b r = true) (hb : b ≤ o) :
    (if o < r.base then none else (dimIndex r.dims (o - r.base)).map (fun ix => (r, ix))) = none := by
  unfold endsBefore at h
  split at h
  · rename_i hd
    rw [hd]
    simp only [dimIndex, decide_eq_true_eq] at *
    rw [if_neg (by omega), if_neg (by omega)]; rfl
  · rename_i n s ds hd
    rw [hd]
    simp only [dimIndex, Bool.and_eq_true, decide_eq_true_eq] at *
    rw [if_neg (by omega), if_neg]
    · rfl
    · rw [Nat.div_lt_iff_lt_mul h.1]; omega
theorem rows_past (b o : Nat) (rs ts : List RegRow) (h : rs.all (endsBefore b) = true) (hb : b ≤ o) :
    (rs ++ ts).findSome? (fun r => if o < r.base then none else (dimIndex r.dims (o - r.base)).map (fun ix => (r, ix))) =
      ts.findSome? (fun r => if o < r.base then none else (dimIndex r.dims (o - r.base)).map (fun ix => (r, ix))) := by
  induction rs with
  | nil => rfl
  | cons r rs ih =>
    rw [List.all_cons, Bool.and_eq_true] at h
    rw [List.cons_append, List.findSome?_cons, row_past h.1 hb]
    exact ih h.2
theorem instances_start_off (i : Nat) (hi : i < 1024) : up.dev.get (SCH_INST_CTRL_state i) = 0 := by
  have hf : ∃ r, findRow (0xA6000 + i * 4) = some (r, [i]) ∧ rowReset r = 0 := by
    refine ⟨regsSch.getD 19 ⟨0, [], false, .none, []⟩, ?_, by decide⟩
    unfold findRow
    rw [show (0xA6000 + i * 4) / 0x10000 = 10 by omega]
    change List.findSome? _ regsSch = _
    rw [show regsSch = regsSch.take 19 ++ regsSch.drop 19 from (List.take_append_drop 19 regsSch).symm,
      rows_past 0xA6000 _ _ _ (by decide +kernel) (by omega)]
    change List.findSome? _ (regsSch.getD 19 ⟨0, [], false, .none, []⟩ :: regsSch.drop 20) = _
    rw [List.findSome?_cons]
    have h1 : (regsSch.getD 19 ⟨0, [], false, .none, []⟩).dims = [(1024, 4)] := by decide
    have h2 : (regsSch.getD 19 ⟨0, [], false, .none, []⟩).base = 0xA6000 := by decide
    rw [h1, h2, if_neg (by omega), Nat.add_sub_cancel_left]
    simp only [dimIndex]
    rw [Nat.mul_div_cancel i (by decide), Nat.mul_mod_left, if_pos hi]
    rfl
  obtain ⟨r, h1, h2⟩ := hf
  have hr : resetOf (0xA6000 + i * 4) = 0 := by
    unfold resetOf resetAt
    rw [show masterSpan = 0x4000000 from rfl, Nat.mod_eq_of_lt (by omega), h1]
    show BitVec.ofNat 32 (rowReset r + indexedReset (0xA6000 + i * 4) [i]) = 0
    unfold indexedReset
    rw [h2, if_neg (by omega), if_neg (by omega), if_neg (by omega), if_neg (by omega)]
    rfl
  have hw : up.dev.word (SCH_INST_CTRL_state i).key = resetOf (0xA6000 + i * 4) := by
    show cellGet resetOf [(0x10804, 1)] (0xA6000 + i * 4) = _
    simp [cellGet]; omega
  show bits (up.dev.word (SCH_INST_CTRL_state i).key).toNat 1 2 = 0
  rw [hw, hr]
  rfl

/-- Instance 5 is ON and takes notices, and a trigger waits. -/
def trigState : State := dev (fun d => { (d.set (SCH_INST_CTRL_state 5) 1).set (SCH_INST0_notice_mask 5) 7 with sch := { d.sch with inbox := [trigger0] } })
theorem only_instance_matches : (List.range 1024).filter (fun i => trigState.dev.instMatches i trigger0) = [5] := by
  have h : ∀ i ∈ List.range 1024, trigState.dev.instMatches i trigger0 = (i == 5) := by
    intro i hi
    by_cases h5 : i = 5
    · subst h5; decide +kernel
    · have hs : trigState.dev.get (SCH_INST_CTRL_state i) = 0 := by
        rw [← instances_start_off i (List.mem_range.mp hi)]
        show (((up.dev.set (SCH_INST_CTRL_state 5) 1).set (SCH_INST0_notice_mask 5) 7)).get (SCH_INST_CTRL_state i) = _
        rw [Dev.get_set_ne, Dev.get_set_ne]
        · show 0xA6000 + i * 4 ≠ 0xA6000 + 5 * 4; omega
        · show 0xA6000 + i * 4 ≠ (SCH_INST0_notice_mask 5).key
          rw [show (SCH_INST0_notice_mask 5).key = 0xA8000 + 5 * 0x10 from rfl]; have := List.mem_range.mp hi; omega
      show (trigState.dev.get (SCH_INST_CTRL_state i) == 1 && _ && _ && _) = _
      rw [hs]
      simp [h5]
  rw [List.filter_congr h]
  decide +kernel

theorem witness_TasksAreCreated : up.dev.sch.inbox = [] ∧ up.dev.blockRuns 57 = true ∧ up.dev.Writes 0 0xA002C 0 ∧
    trigState.dev.sch.inbox = [trigger0] ∧ (trigState.dev.ready (trigState.dev.instTask 5 trigger0).prio).length < 1024 ∧
    (let b (s : State) : List Byte := ((List.range 7).map (fun i => toLe 4 (s.dev.get (SCH_SUBMIT 0 i)))).flatten ++ toLe 4 0;
      submitCode (b up) up.dev = 1 ∧ (dev (fun d => { d with stopped := [57] })).dev.blockRuns 57 = false ∧
      submitCode (b (dev (fun d => (d.set (SCH_SUBMIT 0 0) 1).set (SCH_SUBMIT 0 1) 0x10000))) up.dev = 0) := by decide +kernel
theorem witness_TasksRun : (up.dev.eng 0).prefetch = none ∧ (up.dev.eng 0).running = none ∧
    (let s := engine0 1 (some (task false 100)) none;
      (s.dev.eng 0).prefetch = some (task false 100) ∧ (task false 100).staged = false ∧ s.Running ∧ s.dev.blockRuns 57 = true) ∧
    (let s := engine0 1 (some (task true 100)) none; s.dev.online 0 = true ∧ (s.dev.eng 0).running = none ∧ s.dev.now < 100) ∧
    (let s := engine0 1 (some (task true 0)) none; s.dev.online 0 = true ∧ (s.dev.eng 0).running = none ∧ 0 ≤ s.dev.now) ∧
    (engine0 0 (some (task true 0)) none).dev.online 0 = false ∧
    (let t := { task true 100 with kernel := 0x0301, params := [1, 0, 2, 1, 1, 0, 0, 0] ++ List.replicate 24 0 ++ toLe 4 0x42480000 };
     let s := engine0 1 none (some t);
      (s.dev.eng 0).running = some t ∧ (kernelRun 0 t s.dev).1.outcome ≠ 4 ∧ (kernelRun 0 t s.dev).1.outcome ≠ 5 ∧
      (kernelRun 0 t s.dev).1.result.isSome = true ∧ (kernelRun 0 t s.dev).2.get (SCH_INST_CTRL_state 0) ≠ 2) := by decide +kernel
theorem witness_TasksOverrun : (let s := engine0 1 (some (task false 100)) none;
      (s.dev.eng 0).prefetch = some (task false 100) ∧ 100 ≤ (passTo 100 s.dev).now ∧ s.dev.blockRuns 57 = true) ∧
    (passTo 100 up.dev).now < 100 ∧ (List.range 8).flatMap up.dev.ready = [] ∧
    (let s := engine0 1 none (some (task true 100));
      let due := (task true 100).startTick + 4000000 * (task true 100).runLimit;
      (s.dev.eng 0).running = some (task true 100) ∧ due < (passElapsed (due + 1) s.dev).time.elapsed ∧ (passElapsed (due + 1) s.dev).get (SCH_ENG_CTRL_state 0) = 1) := by decide +kernel
theorem witness_EnginesChangeState : (∀ st ∈ [0, 1, 2, 3, 4], (engine0 st none none).dev.get (SCH_ENG_CTRL_state 0) = st ∧
      (engine0 st none none).dev.flag (SCH_ENG_CTRL_enable_pending 0) = false) ∧
    let s := dev (fun d => (d.bndPut .locked).setFlag BND_STAT_locked true);
    s.dev.bndLocked = true ∧ s.dev.WritesField 0 0xA1000 0 1 1 ∧ s.dev.WritesField 0 0xA1000 0 1 0 ∧ s.dev.WritesField 0 0xA1000 5 1 1 := by decide +kernel
theorem witness_InstancesOpenAndClose : up.dev.WritesField 0 0xA6000 0 1 1 ∧ up.dev.get (SCH_INST_CTRL_state 0) = 0 ∧
    up.dev.WritesField 0 0xA6000 0 1 0 ∧ instCode 0 up.dev = 1 ∧
    instCode 0 (dev (fun d => (d.set (SCH_INST0_kernel_id 0) 1).set (SCH_INST1_deadline 0) 1 |>.set (SCH_INST1_affinity 0) 1)).dev = 0 ∧
    (dev (fun d => d.set (SCH_INST_CTRL_state 0) 2)).dev.get (SCH_INST_CTRL_state 0) = 2 ∧
    (let s := dev (fun d => (d.putEng 0 { running := some (task true 9) }).set (SCH_INST_CTRL_state 0) 1);
      s.dev.get (SCH_INST_CTRL_state 0) = 1 ∧ (s.dev.eng 0).running = some (task true 9) ∧ (task true 9).host = false) ∧
    (∀ e < 16, (up.dev.eng e).running = none) := by decide +kernel
theorem witness_StatisticsOfTheEngines : up.Running ∧ up.dev.Writes 0 0xA0100 (2 ^ 31) ∧ up.dev.Writes 0 0xA0138 (2 ^ 31) ∧
    (passTo 1000000000 up.dev).now < 1000000000 ∧ (dev clocked).dev.sch.winSec = 0 ∧
    1000000000 ≤ (passTo 1000000000 (dev clocked).dev).now := by decide +kernel
theorem witness_AlarmsAreDecided : up.dev.det.inbox = [] ∧ up.dev.Writes 0 0xB0004 1 ∧ up.dev.Writes 0 0xB0004 (2 + 16 * 11) ∧
    up.dev.Writes 0 0xB0004 (1 + 16 * 16383) ∧
    (let r : DetResult := { inst := 1023, cls := 11, bits := 0x8001, instant := 5 };
     let s := dev (fun d => { d with det := { d.det with inbox := [r] } });
      s.dev.det.inbox = [r] ∧ r.inst < 1024 ∧ r.cls ≤ 11 ∧ r.signal = false) := by decide +kernel
theorem witness_AlarmsWaitAndRepeat :
    let p : PendPoint := { point := 7, inst := 0, grid := 0, g := 5, cls := 3, memLost := false, until_ := some 900 };
    let s := dev (fun d => { clocked d with det := { d.det with pend := [p], repeats := [{ port := 1, bytes := [], left := 2, due := 900 }] } });
    p ∈ s.dev.det.pend ∧ p.until_ = some 900 ∧ p.current = true ∧ 900 ≤ (passTo 900 s.dev).now ∧ (∀ x ∈ s.dev.det.repeats, 900 ≤ x.due) ∧
    s.dev.acting = false ∧ (let t := dev (fun d => ((clocked d).setFlag SPN_STAT_acting true).set (ETH_CFG_state 1) 1 |>.setFlag (ETH_STAT_link 1) true);
      t.dev.acting = true ∧ t.dev.portSends 1 = true ∧ t.dev.xingDead 2 = false) ∧ up.dev.det.repeats = [] ∧ up.dev.det.pend = [] ∧ (passTo 900 up.dev).now < 900 := by decide +kernel

/-- The logic engine in a state. -/
def logicState (st : Nat) : State := dev (fun d => (clocked d).set LGE_STAT_state st)

theorem witness_LogicCycle : (logicState 0).dev.get LGE_STAT_state ≠ 2 ∧ (logicState 2).dev.get LGE_STAT_state = 2 ∧
    (let s := dev (fun d => ((clocked d).set LGE_STAT_state 2).set LGE_CFG_watchdog_us 100);
      s.dev.tbcRuns = true ∧ s.dev.get LGE_CFG_watchdog_us * 1000 ≤ s.dev.ticked 100000 ∧ s.dev.ticked 99000 < s.dev.get LGE_CFG_watchdog_us * 1000 ∧ s.dev.time.pending = none ∧
      (counterStepAll s.dev).pwr.shut ≠ 1 ∧ (counterStepAll s.dev).bnd.releasing = false) := by
  decide +kernel
theorem witness_LogicEngineHalts : (∀ st ∈ [0, 1, 2, 3, 4], (logicState st).dev.get LGE_STAT_state = st) ∧ (logicState 2).Running ∧ (logicState 2).dev.tbcRuns = true ∧
    (dev (fun d => d.setFlag LGE_PROG_STAT_armed true)).dev.flag LGE_PROG_STAT_armed = true := by decide +kernel
theorem witness_LogicEngineStartsAndStops : up.dev.Writes 0 0xC0000 1 ∧ up.dev.Writes 0 0xC0000 2 ∧ up.dev.Writes 0 0xC0000 3 ∧
    (logicState 1).dev.get LGE_STAT_state = 1 ∧ (logicState 3).dev.get LGE_STAT_state = 3 ∧ (logicState 4).dev.leHeld = false ∧
    (logicState 2).dev.leRunning = true ∧ up.dev.leRunning = false ∧
    (logicState 2).dev.flag LGE_STAT_start_pending = false ∧ up.dev.flag BND_STAT_locked = false ∧
    (let s := dev (fun d => (((clocked d).set LGE_STAT_state 1).setFlag BND_STAT_locked true).set CKP_PWR_STAT_step 7 |>.set LGE_CFG_auto_restart 1);
      s.dev.le.fromHalt = false ∧ s.dev.flag BND_STAT_locked = true ∧ s.dev.get CKP_PWR_STAT_step = 7 ∧ s.dev.get LGE_CFG_auto_restart = 1) ∧
    (dev (fun d => { d with le := { d.le with fromHalt := true } })).dev.le.fromHalt = true := by decide +kernel
theorem witness_ProgramsAreVerifiedAndExchanged : up.dev.Writes 0 0xC0040 1 ∧ up.dev.Writes 0 0xC0040 5 ∧ up.dev.Writes 0 0xC0000 8 ∧
    up.dev.Writes 0 0xC0040 2 ∧ up.dev.le.verifying = none ∧
    (dev (fun d => { d with le := { d.le with verifying := some 1 } })).dev.le.verifying = some 1 ∧
    (let s := dev (fun d => ((clocked d).set LGE_STAT_state 2).set (bankState 1) 2);
      s.dev.leRunning = true ∧ s.dev.flag LGE_PROG_STAT_armed = false ∧ s.dev.get (bankState (1 - s.dev.get LGE_STAT_bank)) = 2) ∧
    up.dev.Writes 0 0xCC000 (2 ^ 31 + 5) ∧ up.dev.Writes 0 0xCCFF0 0 := by decide +kernel
theorem witness_OutputsAndGoose : (passTo 50000 up.dev).now < 50000 ∧
    (dev clocked).dev.doutDue ≤ (passTo (dev clocked).dev.doutDue (dev clocked).dev).now ∧ up.dev.eth.gooseIn = [] ∧
    (up.dev.sub 63).expiry = none ∧ (up.dev.pub 31).due = none ∧
    (let s := dev (fun d => { (clocked d).set LGE_STAT_state 2 with le := { d.le with subs := [(3, { valid := true, expiry := some 40 })], pubs := [(4, { due := some 40 })] } });
      (s.dev.sub 3).expiry = some 40 ∧ 40 ≤ (passTo 40 s.dev).now ∧ (s.dev.pub 4).due = some 40 ∧ s.dev.leCycles = true ∧ s.dev.leRunning = true) ∧
    (let s := dev (fun d => { clocked d with le := { d.le with doutAt := some 200000, doutRise := [(2, 0)] } }); s.dev.le.doutAt = some 200000 ∧ s.dev.doutMonBit 2 = true) := by decide +kernel

/-! ## States that meet the hypotheses of the statements: paired operation -/

/-- A message of unit 1 of pair 0 with flags and a body (R287). -/
def spnMsg (ty flags : Nat) (body : List Byte) : List Byte :=
  let m := toLe 1 ty ++ toLe 1 flags ++ toLe 2 body.length ++ toLe 2 0 ++ toLe 2 1 ++ toLe 4 5 ++ toLe 4 0 ++ body
  m ++ toLe 4 (crc32c m)
/-- A body of each type. -/
def spnBodyOf (ty : Nat) : List Byte := match ty with
  | 1 => List.replicate 8 0
  | 2 => List.replicate 8 1
  | 3 => List.replicate 12 0
  | 7 => List.replicate 10 0 ++ [1, 0] ++ List.replicate 64 (7 : Byte)
  | 9 => [1, 0, 0, 0]
  | _ => []
/-- A device with the pair in a state and its device clocks running. -/
def pairSt (st : Nat) (f : SpnSt → SpnSt) : State := dev (fun d => { (clocked d).set SPN_STAT_state st with spn := f d.spn })
/-- A message is one of a type that arrives first on Spine-A. -/
def arrives (ty : Nat) (bs : List Byte) (d : Dev) : Bool :=
  (spnTake (fun _ b => byteAt b 0 == ty) (.lineA bs) d).map (fun x => (x.1, x.2.1)) == some (false, bs) && spnCrcOk bs && !d.spnForeign bs && !d.spnCopy bs
theorem arrives_iff (ty : Nat) (bs : List Byte) (d : Dev) (h : arrives ty bs d = true) : MessageArrives ty (.lineA bs) d false bs := by
  unfold arrives spnTake at h
  simp only [Bool.and_eq_true, Bool.not_eq_true', beq_iff_eq] at h
  obtain ⟨⟨⟨h1, h2⟩, h3⟩, h4⟩ := h
  refine ⟨⟨d, ?_⟩, h2, h3, h4⟩
  unfold spnTake
  split at h1
  · rename_i hb; simp [hb]
  · cases h1

theorem witness_MessagesMoveThePair : (∀ ty ∈ [1, 2, 3, 4, 6], ∀ st ∈ [2, 3, 4, 5, 6], arrives ty (spnMsg ty 0 (spnBodyOf ty)) (pairSt st id).dev = true) ∧
    (let bs := spnMsg 1 0 (spnBodyOf 1); bitAt (byteAt bs 1) 0 = false ∧ (dev (fun d => d.setFlag SPN_CFG_role true)).dev.primary = true ∧ leAt bs 6 2 = 1) ∧
    (let bs := spnMsg 2 3 (spnBodyOf 2); bitAt (byteAt bs 1) 0 = true ∧ bitAt (byteAt bs 1) 1 = true ∧ (pairSt 5 id).dev.primary = false) ∧
    (let s := dev (fun d => { ((clocked d).set SPN_STAT_state 6).set LGE_STAT_state 2 with spn := { d.spn with grants := [(0, (3, 50))] } });
      arrives 3 (spnMsg 3 0 (spnBodyOf 3)) s.dev = true ∧ s.dev.pairState = 6 ∧ lookup (leAt (spnMsg 3 0 (spnBodyOf 3)) 12 4) s.dev.spn.grants = some (3, 50) ∧
      s.dev.leRunning = true ∧ s.dev.spn.ackedAt = none ∧ s.dev.time.elapsed < 3 + 4000 * 50) := by decide +kernel
theorem witness_MessagesAreTaken : (∀ ty ∈ [5, 7, 8, 9, 10], ∀ st ∈ [3, 4, 5], arrives ty (spnMsg ty 8 (spnBodyOf ty)) (pairSt st id).dev = true) ∧
    bitAt (byteAt (spnMsg 7 8 (spnBodyOf 7)) 1) 3 = true ∧ leAt (spnBody (spnMsg 7 8 (spnBodyOf 7))) 10 2 = 1 ∧ leAt (spnMsg 9 0 (spnBodyOf 9)) 16 4 = 1 + 16 * 0 ∧
    (spnTake (fun _ b => byteAt b 0 == 1) .portB up.dev).isNone = true ∧ (pairSt 3 id).dev.spn.opened = none ∧
    (let o : MirrorSet := { cycle := 0, retain := 0, blocks := [], seq := 4 }; (5 + 2 ^ 32 - o.seq) % 2 ^ 32 = 1 ∧ leAt (spnMsg 7 8 (spnBodyOf 7)) 8 4 = 5 ∧
      (pairSt 3 (fun x => { x with opened := some o })).dev.spn.opened = some o) := by decide +kernel
theorem witness_MessagesAreDiscardedAndSent :
    let bad := (spnMsg 4 0 []).set 2 7
    let mine := spnMsg 11 0 []
    (spnTake (pairSt 4 id).dev.spnDiscarded (.lineA bad) (pairSt 4 id).dev).isSome = true ∧ spnCrcOk bad = false ∧
    (spnTake (pairSt 4 id).dev.spnDiscarded (.lineA mine) (pairSt 4 id).dev).isSome = true ∧ spnCrcOk mine = true ∧ (pairSt 4 id).dev.spnForeign mine = true ∧
    (let s := pairSt 4 (fun x => { x with seen := [(5, true)] });
      (spnTake s.dev.spnDiscarded (.lineA (spnMsg 4 0 [])) s.dev).isSome = true ∧ s.dev.spnForeign (spnMsg 4 0 []) = false) ∧
    (spnTake up.dev.spnDiscarded .lineAbort up.dev).isNone = true ∧ (pairSt 5 id).dev.pairState = 5 ∧ (pairSt 2 id).dev.pairState = 2 ∧
    (pairSt 5 id).dev.xingDead 8 = false ∧ (pairSt 5 id).dev.phyHeld 8 = false ∧ up.dev.phyHeld 8 = true ∧ (pairSt 5 id).dev.ReachesElapsed 0 ∧ (pairSt 5 (fun x => { x with sendLast := some 9 })).dev.ReachesElapsed 40000 ∧
    (pairSt 5 id).dev.sec = 0 ∧ 1000000000 ≤ (passTo 1000000000 (pairSt 5 id).dev).now ∧ (passTo 1000000000 up.dev).now < 1000000000 := by decide +kernel
theorem witness_HeartbeatsAndPaths : (pairSt 4 id).dev.hbRuns = true ∧ up.dev.hbRuns = false ∧ (pairSt 4 id).dev.spn.hbIn = none ∧
    (pairSt 5 (fun x => { x with hbIn := some 3, lastA := some 3, hbOut := some 2 })).dev.spn.hbIn = some 3 ∧
    (dev (fun d => ((clocked d).setFlag SPN_STAT_hb_alive true).setFlag (pathFld false) true)).dev.hbAlive = true ∧
    (pairSt 5 id).dev.ReachesElapsed (3 + usTicks 30) ∧ (pairSt 5 id).dev.ReachesElapsed (2 + usTicks 10) ∧ ¬up.dev.ReachesElapsed 40 ∧
    (dev (fun d => ((clocked d).setFlag SPN_STAT_hb_alive true).setFlag (pathFld false) true)).dev.flag (pathFld false) = true ∧
    (pairSt 5 (fun x => { x with leaseEnd := some 9 })).dev.flag SPN_STAT_lease_valid = false ∧ up.dev.lastOn true = none ∧
    (pairSt 5 (fun x => { x with lastA := some 3 })).dev.lastOn false = some 3 := by decide +kernel
theorem witness_TimersOfThePair : (∀ st ∈ [2, 3, 4, 5], (pairSt st id).dev.pairState = st ∧ (pairSt st id).Running) ∧ up.dev.spn.leaseEnd = none ∧
    (let s := dev (fun d => { ((clocked d).set SPN_STAT_state 5).setFlag SPN_STAT_hb_alive true with spn := { d.spn with leaseEnd := some 9 } });
      s.dev.spn.leaseEnd = some 9 ∧ s.dev.ReachesElapsed 9 ∧ s.dev.pairState = 5 ∧ s.dev.hbAlive = true) ∧ (pairSt 4 id).dev.hbAlive = false ∧
    (dev (fun d => ((clocked d).set SPN_STAT_state 4).setFlag SPN_STAT_hb_alive true)).dev.hbAlive = true ∧
    (∀ st ∈ [2, 3, 4], let d := (pairSt st id).dev; d.ReachesElapsed (d.lastMsg + usTicks (d.spn.grantLease.getD d.leaseUs + 20)) ∧
      d.ReachesElapsed (d.lastMsg + usTicks (1000 * d.get SPN_LEASE_join_ms))) := by decide +kernel
theorem witness_PairStartsAndReturns : up.dev.flag BND_STAT_locked = false ∧
    (let s := dev (fun d => (d.set CKP_PWR_STAT_step 9).setFlag BND_STAT_locked true);
      9 ≤ s.dev.get CKP_PWR_STAT_step ∧ s.dev.pwr.shut = 0 ∧ s.dev.bnd.rebinding = false ∧ s.dev.flag BND_STAT_locked = true ∧ s.dev.pairState = 0 ∧ s.dev.flag SPN_CFG_enable = false) ∧
    up.dev.Writes 0 0xD0010 (1 + 256 * 0xA5) ∧ up.dev.Writes 0 0xD0010 2 ∧ up.dev.Writes 0 0xD0010 3 ∧
    up.dev.Writes 0 0xD000C 3600 ∧ up.dev.spn.returnFrom = none ∧ (pairSt 7 id).dev.pairState = 7 ∧ (pairSt 7 id).dev.get SPN_DIAG_standing = 0 ∧
    (dev (fun d => d.set SPN_DIAG_standing 8)).dev.get SPN_DIAG_standing ≠ 0 ∧
    (dev (fun d => (d.set SPN_STAT_state 5).set SPN_PEER_state 4)).dev.get SPN_PEER_state = 4 ∧
    (let s := dev (fun d => { forL [SPN_CFG_role, SPN_CFG_auto_return, SPN_STAT_mirror_ok, SPN_STAT_spa_alive, SPN_STAT_spb_alive, SPN_STAT_hb_alive]
        (fun f d => d.setFlag f true) ((clocked d).set SPN_STAT_state 4) with spn := { d.spn with returnFrom := some 0 } });
      s.dev.returnReady = true ∧ s.dev.spn.returnFrom = some 0 ∧ s.dev.ReachesElapsed (0 + usTicks (1000000 * s.dev.get SPN_RETURN_holdoff_s))) ∧ up.dev.returnReady = false ∧ (pairSt 4 id).dev.paired = true := by decide +kernel

/-! ## States that meet the hypotheses of the statements: energy, the logs, compression and the queues -/

/-- Channel 0 is enabled, counts pulses of both polarities, and confirms after one sample; an interval is open. -/
def energyState : State := dev (fun d => { ((clocked d).set (ENR_CH_CFG_en 0) 1).set (ENR_CH_CFG_deb_ms 0) 1 |>.setFlag TBS_UTC_valid true |>.set TBS_STATE_state 3 with
  enr := { d.enr with ivStart := some 0, evalOn := true, saveDue := 2 } })

theorem witness_PulsesAreBooked : energyState.Running ∧ energyState.dev.enr.halted = false ∧
    (let due := energyState.dev.samplePoint + turnOf 0 2 energyState.dev * sampleQ;
     let x := passElapsed due energyState.dev;
      due ≤ x.time.elapsed ∧ x.force (ENR_CH_CFG_deb_ms 0) ≤ 2 ∧ x.plsLevel 0 ≠ true ∧ (ivCatchUp x).chOn 0 = true ∧
      (ivCatchUp x).force (ENR_CH_CFG_mode 0) = 0 ∧ true ≠ ((ivCatchUp x).force (ENR_CH_CFG_pol_a 0) == 1)) ∧
    (let y := ivCatchUp (passElapsed (2 * sampleQ) (energyState.dev.set (ENR_CH_CFG_mode 0) 1)); y.force (ENR_CH_CFG_mode 0) = 1 ∧ true ≠ (y.force (ENR_CH_CFG_pol_a 0) == 1)) ∧
    (let y := ivCatchUp (passElapsed (2 * sampleQ) (energyState.dev.set (ENR_CH_CFG_mode 0) 2));
      y.force (ENR_CH_CFG_mode 0) = 2 ∧ y.chOn 0 = true ∧ true ≠ (y.force (ENR_CH_CFG_pol_b 0) == 1)) := by decide +kernel
theorem witness_IntervalsClose : energyState.dev.enr.ivStart = some 0 ∧ energyState.dev.ivActive = true ∧ energyState.dev.enr.evalOn = true ∧
    (let due := natOf (energyState.dev.ivEnd 0 + energyState.dev.getI TBS_UTC_utc_offset * 1000000000);
      due ≤ (passTo due energyState.dev).now) ∧ 0 ∈ energyState.dev.chUsed 0 ∧ energyState.dev.chOn 0 = true ∧
    bitAt (energyState.dev.enr.flags.getD 0 0) 2 = false ∧ up.dev.enr.ivStart = none := by decide +kernel
/-- A save that is being written. -/
def save0 (fails : Nat) : SaveSt := { bytes := [1, 2], pos := 0, first := 0, fails := fails }
theorem witness_SavesAreWritten : (passElapsed 8000000000 energyState.dev).time.elapsed ≥ 8000000000 ∧
    energyState.dev.enr.opMark + (energyState.dev.enr.saveDue - energyState.dev.enr.opBase) * 4000000000 = 8000000000 ∧
    energyState.dev.enr.saving = none ∧ energyState.dev.pwr.shut = 0 ∧ energyState.dev.nvm.ring ≠ [] ∧ energyState.dev.bnd.saving = false ∧
    2 ≤ energyState.dev.nvm.ring.length ∧ (save0 0).fails < 2 ∧ 2 ≤ (save0 2).fails ∧
    (dev (fun d => { d with enr := { d.enr with saving := some (save0 2) } })).dev.enr.saving = some (save0 2) ∧
    (dev (fun d => { d with enr := { d.enr with saving := some (save0 2) } })).dev.nvmOwner = some .save ∧ up.dev.nvmOwner ≠ some .save ∧
    (dev (fun d => { d with enr := { d.enr with saving := some (save0 2), again := true } })).dev.enr.again = true := by decide +kernel
theorem witness_SealOpensAndCloses : 4 ≤ (dev (fun d => d.set CKP_PWR_STAT_step 4)).dev.get CKP_PWR_STAT_step ∧ up.dev.Writes 2 0xE0020 1 ∧
    up.dev.Writes 2 0xE0020 2 ∧ up.dev.flag ENR_SEAL_STAT_locked = false ∧ up.dev.enr.key = up.dev.nvm.sealKey ∧
    (dev (fun d => { d with enr := { d.enr with key := 5 } })).dev.enr.key ≠ up.dev.nvm.sealKey ∧
    (dev (fun d => { clocked d with enr := { d.enr with procEnd := some 40 } })).dev.enr.procEnd = some 40 ∧
    40 ≤ (passElapsed 40 (dev clocked).dev).time.elapsed ∧ (passElapsed 40 up.dev).time.elapsed < 40 := by decide +kernel
theorem witness_LegalParametersAreStaged : ((findRow 0xE0108).map (fun x => (x.1.gate == .legal, x.2))) = some (true, [0, 0]) ∧
    up.dev.Writes 2 0xE0108 5 ∧ up.dev.flag ENR_SEAL_STAT_open = false ∧ up.dev.legalAccepts = true ∧ 0xE0108 ≠ ENR_SAVE.key ∧
    (dev (fun d => d.setFlag ENR_SEAL_STAT_open true)).dev.flag ENR_SEAL_STAT_open = true ∧
    (dev (fun d => { d with logs := { d.logs with legalQueue := [[1]] } })).dev.logs.legalQueue = [[1]] ∧
    (dev (fun d => { d with logs := { d.logs with legalQueue := [[1]] } })).dev.nvmOwner = some .append ∧ up.dev.nvmOwner ≠ some .append ∧ up.dev.logs.legal.length < 4096 ∧
    4096 ≤ (dev (fun d => { d with logs := { d.logs with legal := List.replicate 4096 [] } })).dev.logs.legal.length := by decide +kernel
theorem witness_LogsAreReadAndCleared : up.dev.Writes 0 0xF0020 8193 ∧ up.dev.Writes 0 0xF0120 5 ∧
    up.dev.readVerdict 0 0xF005C = .pass ∧ up.dev.readVerdict 0 0xF015C = .pass ∧ up.dev.Writes 0 0xF0010 5 ∧
    up.dev.Writes 2 0xF0110 5 ∧ clearCode .grid 0 1 up.dev ≠ 0 ∧
    (let s := dev (fun d => { d.setFlag ENR_SEAL_STAT_open true with logs := { d.logs with grid := [[1], [2]], legal := [[3]] } });
      clearCode .grid 0 1 s.dev = 0 ∧ clearCode .legal 0 1 s.dev = 0 ∧ s.dev.logs.grid.length ≤ 8192) := by decide +kernel

/-- A compression job of master 0 with level 2. -/
def job0 : CmpJob := { op := 1, level := 2, flags := 1, elem := 0, tag := 9, master := 0, src := 0, srcLen := 0, limit := 0, buf := 0 }
/-- An ON compression engine in a state. -/
def cmpState (f : CmpSt → CmpSt) : State := dev (fun d => { (clocked d).set CMP_CFG_state 1 with cmp := f d.cmp })

theorem witness_JobsAreSubmitted : up.dev.Writes 0 0x10002C 0x10000000 ∧
    (let b (s : State) (v : Nat) : List Byte := (List.range 7).flatMap (fun i => toLe 4 (s.dev.get (CMP_JOB 0 i))) ++ toLe 4 v;
      cmpFieldsOk (b up 0) = false ∧ cmpFieldsOk (b (dev (fun d => (d.set (CMP_JOB 0 0) 0x0201).set (CMP_JOB 0 3) 0x10000000)) 0x10000000) = true) ∧
    up.dev.cmp.pending.length < 32 ∧ 32 ≤ (cmpState (fun x => { x with pending := List.replicate 32 job0 })).dev.cmp.pending.length := by decide +kernel
theorem witness_JobsAreChosen :
    (let s := dev (fun d => { (clocked d).set CMP_CFG_state 1 with
        cmp := { d.cmp with pending := [job0], lastArch := true }
        col := { d.col with archive := [{ grid := 1, k := 2, g := 40, arrived := 0, kind := 2, cause := 0 }], grids := [(1, { held := [{ k := 2, g := 40 }] })] } });
      s.dev.blockRuns 59 = true ∧ s.dev.get CMP_CFG_state = 1 ∧ s.dev.cmp.running = none ∧ s.dev.expanding = false ∧ s.dev.col.archive.length = 1 ∧
      ((s.dev.grid 1).held.any (fun x => x.g == 40)) = true ∧ s.dev.cmp.resumed ++ s.dev.cmp.pending = [job0] ∧ s.dev.cmp.lastArch = true) ∧
    up.dev.cmp.lastArch = false ∧ up.dev.col.archive = [] ∧ up.dev.get CMP_CFG_state ≠ 1 := by decide +kernel
theorem witness_JobsEndAndSuspend : (cmpState (fun x => { x with running := some job0 })).dev.blockRuns 59 = true ∧
    (cmpState (fun x => { x with running := some job0 })).dev.cmp.running = some job0 ∧ job0.arch = none ∧ up.dev.cmp.running = none ∧
    (∀ k < 4, (lookup k (cmpState (fun x => { x with ctx := [(0, job0), (1, job0), (2, job0), (3, job0)] })).dev.cmp.ctx).isSome = true) ∧
    (cmpRun job0 (cmpState (fun x => { x with running := some job0 })).dev).2.1 ≠ none ∧ up.dev.archGone job0 = false ∧
    up.dev.archGone { job0 with arch := some (0, 40) } = true := by decide +kernel
theorem witness_JobCommandsAct : up.dev.Writes 0 0x100034 (1 + 65536 * 9) ∧ up.dev.Writes 0 0x100034 (2 + 4 * 3) ∧
    up.dev.WritesField 0 0x100000 0 1 1 ∧ up.dev.WritesField 0 0x100000 0 1 0 ∧ lookup 3 up.dev.cmp.ctx = none ∧
    ((cmpState (fun x => { x with pending := [job0] })).dev.cmp.pending.filter (fun j => j.master == 0 && j.tag == 9 && j.arch.isNone)).length = 1 ∧
    (let j := { job0 with buf := 0x100000000000000 };
     let s := dev (fun d => { d.set (BND_PART_size_mib 1) 64 with pwr := { d.pwr with ddrMib := 1024 }, cmp := { d.cmp with ctx := [(3, j)] } });
      lookup 3 s.dev.cmp.ctx = some j ∧ s.dev.blockRuns 59 = true ∧ (match cmpRead (j.buf + 0x10) 8 s.dev with
        | (.ok b, _) => leAt b 0 8 == 0
        | _ => false) = true ∧ (match cmpRead 1 8 s.dev with
        | (.error _, _) => true
        | _ => false) = true) ∧ (dev (fun d => { d with stopped := [59] })).dev.blockRuns 59 = false ∧
    up.dev.get CMP_CFG_state = 0 ∧ (dev (fun d => d.setFlag CMP_CFG_enable false)).dev.flag CMP_CFG_enable = false ∧ (cmpState id).dev.get CMP_CFG_state = 1 ∧
    (dev (fun d => d.set CMP_CFG_state 2)).dev.get CMP_CFG_state = 2 := by decide +kernel
theorem witness_ArchiveIsReleased : up.dev.Writes 0 0x100088 3 ∧
    (let s := dev (fun d => { (d.set (BND_PART_size_mib 2) 1).set CMP_ARCH_WR 5 with cmp := { d.cmp with entries := [(0, 3), (3, 2)] } });
      3 < s.dev.archUnits ∧ s.dev.get CMP_ARCH_RD = 0 ∧ s.dev.get CMP_ARCH_WR = 5) ∧ up.dev.archUnits ≤ 3 := by decide +kernel
theorem witness_StreamsStayWithinTheirBound : 1 ≤ job0.level ∧ job0.level ≤ 4 ∧ job0.zlib = true ∧ (cmpStream job0 [1, 2, 3]).2 = adler32 [1, 2, 3] := by decide +kernel

/-- A queue in a state. -/
def queueState (st : Nat) (n : Nat) (q : QueueSt) : State := dev (fun d => (((clocked d).set (QUE_Q_CTRL_state n) st).set (QUE_Q_CFG_log2_cap n) 6).putQueue n q)
def packet0 : QPacket := { words := [{ val := 5, flips := 1 }, { val := 6 }], total := 2 }

theorem witness_QueuesOpenAndClose : up.dev.WritesField 0 0x110100 0 1 1 ∧ up.dev.WritesField 0 0x1108E0 0 1 0 ∧
    up.dev.WritesField 0 0x110100 4 1 1 ∧ up.dev.Writes 0 0x11010C (2 ^ 31) ∧ up.dev.get (QUE_Q_CTRL_state 0) = 0 ∧
    (∀ st ∈ [1, 2], (queueState st 0 { packets := [packet0] }).dev.get (QUE_Q_CTRL_state 0) = st) ∧
    queueEnableCode 0 (dev (fun d => d.set (QUE_Q_CFG_log2_cap 0) 5)).dev = 1 ∧ queueEnableCode 0 (dev (fun d => d.set (QUE_Q_CFG_log2_cap 0) 6)).dev = 0 := by decide +kernel
theorem witness_PopsTakeWords : up.dev.queueVerdict 0 0 false true = .pass ∧ up.dev.queueVerdict 2 (0x1000 * 63) false true = .pass ∧
    up.dev.queueOn 0 = false ∧ (queueState 1 0 {}).dev.queueOn 0 = true ∧ ((queueState 1 0 {}).dev.queue 0).occupancy = 0 ∧
    ((queueState 1 0 {}).dev.set (QUE_Q_CFG_stall_us 0) 0).get (QUE_Q_CFG_stall_us 0) = 0 ∧
    ((queueState 1 0 {}).dev.set (QUE_Q_CFG_stall_us 0) 5).get (QUE_Q_CFG_stall_us 0) ≠ 0 ∧
    ((queueState 1 0 { packets := [packet0] }).dev.queue 0).packets = [packet0] ∧ packet0.words = [{ val := 5, flips := 1 }, { val := 6 }] ∧
    (queueState 1 0 {}).dev.get QUE_POOL_mode ≠ 2 ∧ ((queueState 1 0 {}).dev.set QUE_POOL_mode 2).get QUE_POOL_mode = 2 ∧
    ((queueState 1 0 { stalled := [⟨0, true, 400⟩] }).dev.queue 0).stalled = [⟨0, true, 400⟩] ∧ earliestStall [⟨0, true, 900⟩, ⟨1, true, 400⟩] = some ⟨1, true, 400⟩ ∧ (queueState 1 0 {}).dev.ReachesElapsed 400 ∧ ¬up.dev.ReachesElapsed 400 ∧ (up.dev.queue 0).stalled = [] := by decide +kernel
theorem witness_PushesStageWords : up.dev.queueVerdict 0 (0x1000 * 3 + 0x14) true true = .pass ∧
    up.dev.queueVerdict 0 (0x1000 * 3 + 0x18) true true = .pass ∧ (up.dev.stage 0).words = [] ∧
    (let s := dev (fun d => d.putStage 0 { queue := 3, words := List.replicate 64 0 }); (s.dev.stage 0).words.length = 64 ∧ (s.dev.stage 0).queue = 3) ∧
    (let s := dev (fun _ => ((queueState 1 3 {}).dev).putStage 0 { queue := 3, words := [7] });
      (s.dev.stage 0).words ≠ [] ∧ s.dev.queueOn 3 = true ∧ (s.dev.queue 3).stalled = [] ∧ (s.dev.queue 3).occupancy + (s.dev.queue 3).reserved + 1 ≤ s.dev.queueCap 3) := by
  decide +kernel
theorem witness_PacketsEnterWhole : up.dev.queueOn 0 = false ∧ (List.replicate 64 (0 : BitVec 64)).length ≤ 64 ∧ 64 < (List.replicate 65 (0 : BitVec 64)).length ∧ (queueState 1 0 { packets := [packet0], writing := [[1]] }).dev.queueOn 0 = true ∧
    ((queueState 1 0 { writing := [[1]] }).dev.queue 0).writing[0]? = some [1] ∧ ((queueState 1 0 { writing := [[1]] }).dev.queue 0).writing[1]? = none ∧
    (queueState 2 0 { writing := [[1]] }).dev.get (QUE_Q_CTRL_state 0) = 2 ∧ ((queueState 2 0 { writing := [[1]] }).dev.queue 0).writing = [[1]] ∧
    (queueState 2 0 { writing := [[1]] }).dev.flag (QUE_Q_CTRL_enable_pending 0) = false := by decide +kernel
theorem witness_PoolSwitchesModes : up.dev.Writes 0 0x110000 4 ∧ up.dev.Writes 0 0x110000 0 ∧
    up.dev.Writes 0 0x110004 (63 + 256 * 2) ∧ up.dev.poolDue = up.dev.get QUE_POOL_mode ∧
    (let x := (dev (fun d => (d.bndPut .locked).set QUE_POOL_mode 2)).dev.setFlag QUE_POOL_test true; x.poolDue ≠ x.get QUE_POOL_mode) ∧
    up.dev.flag QUE_POOL_test = false ∧ (let x := up.dev.setFlag QUE_POOL_test true; x.poolDue = x.get QUE_POOL_mode) ∧
    (dev (fun d => d.set QUE_POOL_mode 1)).dev.get QUE_POOL_mode = 1 := by decide +kernel
theorem witness_QueueCommandsKeepTheRest : up.Running ∧ (match exec (.queuePop 0 5 true) up with
    | .next _ => true
    | _ => false) = true ∧ (∀ src < 128, up.dev.flag (EVC_ROUTE_ha_en src) = false ∧ up.dev.flag (EVC_ROUTE_hb_en src) = false) ∧
    (dev clocked).dev.clocksLost = false := by decide +kernel

/-! ## Single steps with values from the manual -/

/-- The example of delta and shuffle of three elements behind R392. -/
theorem test_shuffle_delta_example : preTransform true true 4 [0x00, 0x01, 0, 0, 0x03, 0x01, 0, 0, 0xFF, 0, 0, 0, 0xAA, 0xBB] =
    [0x00, 0x03, 0xFC, 0x01, 0x00, 0xFF, 0x00, 0x00, 0xFF, 0x00, 0x00, 0xFF, 0xAA, 0xBB] := by decide +kernel
/-- The example of the servo: −180,008 in 2^-4 ppb gives the increment 0x3_FFFD_0CFE. -/
theorem test_servo_increment_example : incrOf (4 * 2 ^ 32) (-180008) = 0x3FFFD0CFE := by decide +kernel
/-- The two examples of the encoding of logic code. -/
theorem test_logic_words : lDecode 0x40408008 = some (.tmr 1 0 1 0 8) ∧ lDecode 0x3D40300F = some (.loop 5 3 16) := by decide +kernel
/-- The example of a denied SPI read: the request's CRC-8, the response and the violation. -/
theorem test_denied_spi_read : let s := dev (fun d => ((d.bndPut .locked).setFlag BND_STAT_locked true).set BND_STAT_active 1);
    let d := after (.spiRead [0x10, 0x12, 0x00, 0x00, 0x13]) s;
    d.host.miso.drop (d.host.miso.length - 7) = [0xA5, 0x02, 0, 0, 0, 0, 0xC4] ∧ d.get ACT_VIOL_CNT = 1 ∧ d.get ACT_VIOL_LAST1 = 0x120000 ∧
      d.get ACT_VIOL_LAST0 % 2 ^ 15 = 2 + 256 * 18 := by decide +kernel
/-- The example of a packet cut under a slow reader: four words with one free remove the rest of packet A and count it once. -/
theorem test_packet_cut : let w (i : Nat) : QPacket := { words := [{ val := BitVec.ofNat 64 i }, { val := 1 }, { val := 2 }, { val := 3 }], total := 4 };
    let s := queueState 1 5 { packets := { w 0 with words := [{ val := 1 }, { val := 2 }, { val := 3 }] } :: (List.range 15).map (fun i => w (i + 1)) };
    let d := after (.packetReserve 5 [9, 9, 9, 9]) s;
    (s.dev.queue 5).occupancy = 63 ∧ (d.queue 5).packets = (List.range 15).map (fun i => w (i + 1)) ∧ d.get (QUE_Q_LOST 5) = 1 ∧
      (d.queue 5).lostBefore = true := by decide +kernel
/-- R379 and its example: a CLEAR with the head in CONFIRM removes the oldest records; repeated, it fails on its count. -/
theorem test_clear_and_repeat : let s := dev (fun d => { d.setFlag ENR_SEAL_STAT_open true with logs := { d.logs with legal := [[1], [2], [3]] } });
    let d := after (.logClear 2 1 2) s;
    (d.logs.legal, d.get (EVR_HEAD 1), d.get (EVR_STAT_result 1)) = ([[3]], 2, 0) ∧
      (after (.logClear 2 1 2) { dev := d, pending := [] }).get (EVR_STAT_result 1) = 1 := by decide +kernel
/-- R405: a pop of a queue that is not ON returns the empty token, all ones. -/
theorem test_empty_token : lookup 0 (after (.queuePop 0 5 true) up).host.reads = some { data := 0xFFFFFFFFFFFFFFFF } := by decide +kernel

end Sys2Proof.Tests
end

section
/-! PROOF. Writes of registers act field by field (O10, O11). -/
namespace Sys2Proof.Machine

/-! ## The word that a write makes, field by field -/

/-- Writing one field leaves every field that shares no bit with it. -/
theorem bits_fieldWord_apart {locked : Bool} {v old : Nat} {f g : FieldRow} (h : f.clear g) :
    bits (fieldWord locked v old f) g.lo g.width = bits old g.lo g.width := by
  have put (x : Nat) : bits (putBits old f.lo f.width x) g.lo g.width = bits old g.lo g.width :=
    bits_putBits_apart _ _ _ _ _ _ h
  unfold fieldWord
  cases f.acc <;> dsimp only
  case rw | rwb => split <;> [exact put _; rfl]
  case rz | w1c | w1s => exact put _

/-- What a field becomes depends on its own bits of the word alone. -/
theorem bits_fieldWord_congr {locked : Bool} {v a b : Nat} {f : FieldRow} (h : bits a f.lo f.width = bits b f.lo f.width) :
    bits (fieldWord locked v a f) f.lo f.width = bits (fieldWord locked v b f) f.lo f.width := by
  unfold fieldWord
  cases f.acc <;> dsimp only
  case rw | rwb => split <;> simp only [bits_putBits_same, h]
  case rz | w1c | w1s => simp only [bits_putBits_same, h]
  case ro | wo | rs => exact h

/-- Fields that share no bit with `g` leave it alone. -/
theorem bits_foldl_fieldWord_apart {locked : Bool} {v : Nat} {g : FieldRow} {fs : List FieldRow} (h : ∀ f ∈ fs, f.clear g) (old : Nat) :
    bits (fs.foldl (fieldWord locked v) old) g.lo g.width = bits old g.lo g.width := by
  induction fs generalizing old with
  | nil => rfl
  | cons f fs ih =>
    rw [List.foldl_cons, ih (fun x hx => h x (List.mem_cons_of_mem f hx)), bits_fieldWord_apart (h f List.mem_cons_self)]

/-- Where fields share no bit, each takes the value that it takes alone. -/
theorem bits_foldl_fieldWord {locked : Bool} {v : Nat} {fs : List FieldRow} (hp : fs.Pairwise FieldRow.clear) {f : FieldRow}
    (hf : f ∈ fs) (old : Nat) :
    bits (fs.foldl (fieldWord locked v) old) f.lo f.width = bits (fieldWord locked v old f) f.lo f.width := by
  induction fs generalizing old with
  | nil => cases hf
  | cons g gs ih =>
    obtain ⟨hg, hgs⟩ := List.pairwise_cons.mp hp
    rw [List.foldl_cons]
    rcases List.mem_cons.mp hf with rfl | hf'
    · exact bits_foldl_fieldWord_apart (fun x hx => (hg x hx).symm) _
    · rw [ih hgs hf']
      exact bits_fieldWord_congr (bits_fieldWord_apart (hg f hf'))

/-- In every register of the map each field takes the value that it takes alone. -/
theorem bits_newWord {off : Nat} {r : RegRow} {ix : List Nat} (h : findRow off = some (r, ix)) {f : FieldRow} (hf : f ∈ r.fields)
    (locked : Bool) (old v : Nat) :
    bits (newWord locked r old v) f.lo f.width = bits (fieldWord locked v old f) f.lo f.width :=
  bits_foldl_fieldWord (RegRow.sound_apart (findRow_sound h)) hf old

/-- A writable field that is given a reserved encoding keeps its value (R7). -/
theorem fieldWord_reserved {locked : Bool} {v old : Nat} {f : FieldRow} (ha : f.acc = .rw ∨ f.acc = .rwb)
    (hr : f.accepts (bits v f.lo f.width) = false) : fieldWord locked v old f = old := by
  unfold fieldWord
  rcases ha with h | h <;> simp [h, hr]

/-- Settles O11: the fields of a row share no bit, so each is written as if alone. -/
theorem reservedEncodingLeavesItsField : Obligations.ReservedEncodingLeavesItsField := by
  intro off r ix h f hf locked old v _ hr ha
  refine ⟨?_, fun g hg _ => bits_newWord h hg locked old v⟩
  rw [bits_newWord h hf, fieldWord_reserved ha hr]

/-- Refutes O10: the register at 0xA8000 keeps reserved bits as they are written (access type `rz`), and the statement lets
them keep their old value. -/
theorem not_fieldsFollowTheirTypes : ¬ Obligations.FieldsFollowTheirTypes := by
  intro h
  have row : findRow 0xA8000 = some (⟨0xA8000, [(1024, 0x10)], false, .schInst, [⟨0, 16, .rw, 0, []⟩, ⟨16, 3, .rw, 0, []⟩,
    ⟨19, 5, .rw, 0, []⟩, ⟨24, 1, .rw, 0, []⟩, ⟨25, 3, .rw, 0, []⟩, ⟨28, 1, .rw, 0, []⟩, ⟨29, 3, .rz, 0, []⟩]⟩, [0]) := by
    decide +kernel
  have := h 0xA8000 _ _ row ⟨29, 3, .rz, 0, []⟩ (by decide) State.reset.dev 0 0x20000000
  revert this
  decide +kernel
end Sys2Proof.Machine
end

section
/-! PROOF. Quires and their monitor (O16). -/
namespace Sys2Proof.Machine

/-! ## Quires (O16) -/

theorem Dev.quire_putQuire (d : Dev) (i j : Nat) (q : Quire) : (d.putQuire i q).quire j = if j = i then q else d.quire j := by
  unfold Dev.putQuire Dev.quire
  split
  · next h => rw [h]; simp
  · next h => rw [lookup_insertKey_ne _ _ h]

@[simp] theorem Dev.word_putQuire (d : Dev) (i k : Nat) (q : Quire) : (d.putQuire i q).word k = d.word k := rfl

/-- An item leaves every quire's capacity, the other quires, and the bound on the credits (R20). -/
theorem quire_quireSend (i j : Nat) (d : Dev) : ∃ q, (quireSend i d).quire j = q ∧ q.capacity = (d.quire j).capacity ∧
    q.credits ≤ (d.quire j).credits ∧ (j ≠ i → q = d.quire j) := by
  refine ⟨_, rfl, ?_⟩
  unfold quireSend
  dsimp only
  split
  · exact ⟨rfl, le_rfl, fun _ => rfl⟩
  · split
    · exact ⟨rfl, le_rfl, fun _ => rfl⟩
    · rw [Dev.quire_putQuire]
      split
      · next h => subst h; exact ⟨rfl, Nat.sub_le _ _, fun h => absurd rfl h⟩
      · exact ⟨rfl, le_rfl, fun _ => rfl⟩

/-- A returned credit leaves every quire's capacity and the other quires, and goes no higher than the capacity (R20). -/
theorem quire_quireReturn (i j : Nat) (d : Dev) : ∃ q, (quireReturn i d).quire j = q ∧ q.capacity = (d.quire j).capacity ∧
    (q.credits = (d.quire j).credits ∨ q.credits ≤ q.capacity) ∧ (j ≠ i → q = d.quire j) := by
  refine ⟨_, rfl, ?_⟩
  unfold quireReturn
  dsimp only
  split
  · next hc =>
    rw [Dev.quire_putQuire]
    split
    · next h => subst h; exact ⟨rfl, .inr hc, fun h => absurd rfl h⟩
    · exact ⟨rfl, .inl rfl, fun _ => rfl⟩
  · exact ⟨rfl, .inl rfl, fun _ => rfl⟩

theorem quiresNeverOverflow : Rules.QuiresNeverOverflow := by
  intro s i hr hs c hc
  simp only [List.mem_cons, List.not_mem_nil, or_false] at hc
  rcases hc with rfl | rfl
  · refine ⟨_, completes_of rfl hr rfl, fun j => ?_, fun j => ?_, fun j hj => ?_⟩ <;>
      obtain ⟨q, hq, hcap, hcr, hne⟩ := quire_quireSend i j s.dev <;> rw [hq]
    · exact hcap ▸ hcr.trans (hs j)
    · exact hcap
    · exact hne hj
  · refine ⟨_, completes_of rfl hr rfl, fun j => ?_, fun j => ?_, fun j hj => ?_⟩ <;>
      obtain ⟨q, hq, hcap, hcr, hne⟩ := quire_quireReturn i j s.dev <;> rw [hq]
    · exact hcr.elim (fun h => h ▸ hcap ▸ hs j) id
    · exact hcap
    · exact hne hj

theorem quireCreditsFollowTheItems : Rules.QuireCreditsFollowTheItems := by
  intro s i hr
  refine ⟨fun hd hc => completes_of rfl hr ?_, fun hd hc => completes_of rfl hr ?_, fun hd => ⟨xdrop s.dev, completes_of rfl hr ?_, ?_, ?_⟩,
    fun hc => completes_of rfl hr (if_pos hc), fun hc => completes_of rfl hr (if_neg (Nat.not_lt.mpr hc)),
    fun j r => Dev.quire_putQuire _ _ _ _⟩
  · simp [quireSend, hd, Nat.ne_of_gt hc]
  · simp [quireSend, hd, hc]
  · simp [quireSend, hd]
  · exact Dev.get_inc_same s.dev GCTL_XDROP rfl
  · exact ⟨fun k hk => Dev.word_set_ne _ _ _ hk, rfl⟩

/-- A write of GCTL_QMON_SEL reaches the quire monitor. -/
theorem regCmd_qmonSel {d : Dev} {m v : Nat} (h : d.Writes m 0x200 v) : regCmd m 0x200 v d = qmonWrite m v d :=
  regCmd_of_writes h (by decide) (by decide) (by decide)

/-- A write of GCTL_QMON_SEL writes the master's two words and, with clear_hwm, the quire it selects. -/
theorem word_qmonWrite_ne (m v : Nat) (d : Dev) {k : Nat} (h1 : k ≠ (GCTL_QMON_SEL m).key) (h2 : k ≠ (GCTL_QMON_DATA m).key) :
    (qmonWrite m v d).word k = d.word k := by
  have shown (x y z w : Nat) : ((((d.set (GCTL_QMON_SEL_index m) x).set (GCTL_QMON_DATA_credits m) y).set (GCTL_QMON_DATA_capacity m) z).set
      (GCTL_QMON_DATA_hwm_pct m) w).word k = d.word k := by
    rw [Dev.word_set_ne _ (GCTL_QMON_DATA_hwm_pct m) _ h2, Dev.word_set_ne _ (GCTL_QMON_DATA_capacity m) _ h2,
      Dev.word_set_ne _ (GCTL_QMON_DATA_credits m) _ h2, Dev.word_set_ne _ (GCTL_QMON_SEL_index m) _ h1]
  unfold qmonWrite
  dsimp only
  split
  · rw [Dev.word_putQuire]; exact shown ..
  · exact shown ..

theorem quireMonitorShowsTheQuire : Rules.QuireMonitorShowsTheQuire := by
  intro s m hr
  refine ⟨fun v hw hv => ⟨_, completes_of rfl hr (regCmd_qmonSel hw), ?_⟩, fun i hw hc => ⟨_, completes_of rfl hr (regCmd_qmonSel hw), ?_⟩⟩
  · have fields : (qmonWrite m v.toNat s.dev).get (GCTL_QMON_SEL_index m) = v.toNat % 1024 ∧
        (qmonWrite m v.toNat s.dev).get (GCTL_QMON_DATA_credits m) = (s.dev.quire (v.toNat % 1024)).credits % 4096 ∧
        (qmonWrite m v.toNat s.dev).get (GCTL_QMON_DATA_capacity m) = (s.dev.quire (v.toNat % 1024)).capacity % 4096 := by
      simp only [qmonWrite, hv, Bool.false_and, Bool.false_eq_true, if_false]
      simp (disch := simp [Fld.apart, Fld.inWord, GCTL_QMON_SEL_index, GCTL_QMON_DATA_credits, GCTL_QMON_DATA_capacity,
        GCTL_QMON_DATA_hwm_pct]) only [Dev.get_set_same, Dev.get_set_apart]
      exact ⟨Nat.mod_mod _ 1024, rfl, rfl⟩
    obtain ⟨hi, hc, hp⟩ := fields
    refine ⟨hi, hc, hp, fun hne => ?_, fun k hk => word_qmonWrite_ne _ _ _ (fun h => hk (.inl h)) (fun h => hk (.inr h)), ?_⟩ <;>
      simp only [qmonWrite, hv, Bool.false_and, Bool.false_eq_true, if_false]
    · rw [Dev.get_set_same _ _ _ rfl, if_neg hne]
      rfl
    · rfl
  · have hi : (i.val + 2 ^ 31) % 1024 = i.val := by omega
    have hb : bitAt (i.val + 2 ^ 31) 31 = true := by simp [bitAt]; omega
    have hq : ∀ j, (qmonWrite m (i.val + 2 ^ 31) s.dev).quire j =
        if j = i.val then { s.dev.quire i with high := (s.dev.quire i).capacity - (s.dev.quire i).credits } else s.dev.quire j := by
      intro j
      simp only [qmonWrite, hi, hb, Bool.true_and, bne_iff_ne, ne_eq, hc, not_false_eq_true, if_true]
      exact Dev.quire_putQuire _ _ _ _
    exact ⟨(hq _).trans (if_pos rfl), fun j hj => (hq j).trans (if_neg hj)⟩

/-- Settles O16: an item and a returned credit move one quire by one, and a write of GCTL_QMON_SEL shows one. -/
theorem quiresHoldTheirItems : Obligations.QuiresHoldTheirItems :=
  ⟨quiresNeverOverflow, quireCreditsFollowTheItems, quireMonitorShowsTheQuire⟩

end Sys2Proof.Machine
end

section
/-! PROOF. Reads of registers, and the pairs of R10 (O14). -/
namespace Sys2Proof.Machine

/-! ## Reads of registers -/

/-- No block reads the register in a way of its own. -/
abbrev PlainRead (off : Nat) (r : RegRow) (ix : List Nat) : Prop :=
  (off < 0x40008 ∨ 0x4001C < off) ∧ r.base ∉ [0x40110, 0x51014, 0x130204, 0x98000] ∧ (r.base ≠ 0xF0040 ∨ ix.getD 1 0 ≠ 7) ∧
    (off < 0x128000 ∨ 0x130000 ≤ off) ∧ off / 0x10000 ≠ 8 ∧ r.gate ≠ .acqMeas ∧ r.gate ≠ .acqCond3

/-- What a read of such a register answers and does: the low word of a pair captures, the high word answers what was captured (R10). -/
theorem regRead_of_plainRead {off : Nat} {r : RegRow} {ix : List Nat} (h : findRow off = some (r, ix)) (hp : PlainRead off r ix)
    (m : Nat) (d : Dev) :
    regRead m off d =
      if d.pairLow off then
        (r.shown (d.word (r.keyFor m off)).toNat, d.capture ((m + 1) * masterSpan + off + 4)
          (d.word ((findRow (off + 4)).elim (off + 4) (fun x => x.1.keyFor m (off + 4)))).toNat)
      else if 4 ≤ off && d.pairLow (off - 4) then
        (((d.shadowWord ((m + 1) * masterSpan + off)).map BitVec.toNat).getD (r.shown (d.word (r.keyFor m off)).toNat), d)
      else (r.shown (d.word (r.keyFor m off)).toNat, d) := by
  obtain ⟨htime, hbase, hlog, hmsix, hflt, hmeas, hcond⟩ := hp
  simp only [List.mem_cons, List.not_mem_nil, or_false, not_or] at hbase
  obtain ⟨h1, h2, h3, h4⟩ := hbase
  unfold regRead
  simp only [h]
  rw [if_neg (by simp; omega), if_neg h3, if_neg h1, if_neg h2, if_neg (by simp; tauto), if_neg (by simp; omega),
    if_neg (by simp [hflt]), if_neg (by simp [h4]), if_neg (by simp [hmeas]), if_neg (by simp [hcond])]
  cases d.shadowWord ((m + 1) * masterSpan + off) <;> rfl

/-- A read whose verdict is not that it falls away has arrived. -/
theorem Dev.arrives_of_readPass {d : Dev} {m off : Nat} (h : d.readVerdict m off = .pass) : d.arrives m = true := by
  unfold Dev.readVerdict at h
  split at h
  · cases h
  · split at h
    · cases h
    · next a => simpa using a

/-- A read that passes its checks answers what its register gives. -/
theorem busRead_of_pass {d : Dev} {m off : Nat} (w : Bool) (h : d.readVerdict m off = .pass) (h4 : off % 4 = 0) (ho : off < 0x140000) :
    busRead m .bar0 off w d = (regRead m off d).2.answer m { data := (regRead m off d).1 } := by
  have ha := Dev.arrives_of_readPass h
  have e : off / 4 * 4 = off := by omega
  simp [busRead, bar0Read, e, ha, h, ho]

/-- A register without reserved bits that are held shows its whole word (R6). -/
theorem shown_eq_self {r : RegRow} (h : r.fields.all (fun f => f.acc != .rz) = true) (w : Nat) : r.shown w = w := by
  unfold RegRow.shown
  generalize r.fields = fs at h
  induction fs with
  | nil => rfl
  | cons f fs ih =>
    obtain ⟨hf, hfs⟩ := Bool.and_eq_true_iff.mp h
    rw [List.foldl_cons, if_neg (by simpa using hf)]
    exact ih hfs

/-! ## Pairs of R10 (O14) -/

/-- The offsets inside a register's arrays. -/
def dimOffs : List (Nat × Nat) → List Nat
  | [] => [0]
  | (n, s) :: ds => (List.range n).flatMap (fun i => (dimOffs ds).map (i * s + ·))

theorem mem_dimOffs {ds : List (Nat × Nat)} {o : Nat} (h : (dimIndex ds o).isSome = true) : o ∈ dimOffs ds := by
  induction ds generalizing o with
  | nil =>
    unfold dimIndex at h
    split at h
    · next h0 => exact h0 ▸ List.mem_singleton_self 0
    · cases h
  | cons p ds ih =>
    obtain ⟨n, s⟩ := p
    unfold dimIndex at h
    split at h
    · next hlt =>
      rw [Option.isSome_map] at h
      refine List.mem_flatMap.mpr ⟨o / s, List.mem_range.mpr hlt, List.mem_map.mpr ⟨o % s, ih h, ?_⟩⟩
      rw [Nat.mul_comm]
      exact Nat.div_add_mod o s
    · cases h

/-- The pairs of R10, with the words that are one for kind TIME alone. -/
def anyPairRows : List (Nat × List (Nat × Nat)) := pairRows ++ [(0xCC004, [(256, 16)]), (0x90404, [(32, 16)])]

/-- The offset may be the low register of a pair. -/
def mayPairLow (off : Nat) : Bool := anyPairRows.any (fun r => r.1 ≤ off && (dimIndex r.2 (off - r.1)).isSome)

theorem mayPairLow_of_pairLow {d : Dev} {off : Nat} (h : d.pairLow off = true) : mayPairLow off = true := by
  unfold mayPairLow anyPairRows
  unfold Dev.pairLow pairLow at h
  simp only [List.any_append, List.any_cons, List.any_nil, Bool.or_false]
  rw [Bool.or_eq_true, Bool.or_eq_true] at h
  rcases h with (h | h) | h
  · rw [h, Bool.true_or]
  · rw [(Bool.and_eq_true_iff.mp h).1, Bool.true_or, Bool.or_true]
  · rw [(Bool.and_eq_true_iff.mp h).1, Bool.or_true, Bool.or_true]

/-- The register shows its whole word, and no block reads it in a way of its own. -/
def showsWord (off : Nat) : Bool :=
  match findRow off with
  | none => false
  | some (r, ix) => decide (off < 0x140000) && decide (PlainRead off r ix) && r.fields.all (fun f => f.acc != .rz)

theorem pairRows_showWords : anyPairRows.all (fun r => (dimOffs r.2).all (fun o =>
    showsWord (r.1 + o) && showsWord (r.1 + o + 4) && !mayPairLow (r.1 + o + 4))) = true := by decide +kernel

/-- Both registers of a pair show their whole words, and the high one is no low one. -/
theorem showsWord_of_pairLow {d : Dev} {off : Nat} (h : d.pairLow off = true) :
    showsWord off = true ∧ showsWord (off + 4) = true ∧ mayPairLow (off + 4) = false := by
  obtain ⟨r, hr, ho⟩ := List.any_eq_true.mp (mayPairLow_of_pairLow h)
  obtain ⟨hle, hdim⟩ := Bool.and_eq_true_iff.mp ho
  have hall := List.all_eq_true.mp (List.all_eq_true.mp pairRows_showWords r hr) _ (mem_dimOffs hdim)
  rw [Nat.add_sub_cancel' (of_decide_eq_true hle)] at hall
  simpa [and_assoc] using hall

/-- The word of the register behind an offset, for a master. -/
def Dev.wordAt (d : Dev) (m off : Nat) : Word := d.word ((findRow off).elim off (fun x => x.1.keyFor m off))

theorem exists_row_of_showsWord {off : Nat} (h : showsWord off = true) : ∃ r ix, findRow off = some (r, ix) ∧ PlainRead off r ix ∧
    off < 0x140000 ∧ ∀ w, r.shown w = w := by
  unfold showsWord at h
  split at h
  · cases h
  · next r ix hf =>
    simp only [Bool.and_eq_true, decide_eq_true_eq] at h
    obtain ⟨⟨ho, hp⟩, hz⟩ := h
    exact ⟨r, ix, hf, hp, ho, shown_eq_self hz⟩

/-- A read of the low register of a pair answers its word and captures the high word. -/
theorem regRead_pairLow {d : Dev} {off : Nat} (h : d.pairLow off = true) (m : Nat) :
    regRead m off d = ((d.wordAt m off).toNat, d.capture ((m + 1) * masterSpan + off + 4) (d.wordAt m (off + 4)).toNat) := by
  obtain ⟨r, ix, hf, hp, _, hs⟩ := exists_row_of_showsWord (showsWord_of_pairLow h).1
  rw [regRead_of_plainRead hf hp, if_pos h, hs]
  unfold Dev.wordAt
  rw [hf]
  rfl

/-- A read of the high register of a pair answers the captured word, or the live one where none is captured. -/
theorem regRead_pairHigh {d : Dev} {off : Nat} (h : d.pairLow off = true) (m : Nat) :
    regRead m (off + 4) d = (((d.shadowWord ((m + 1) * masterSpan + off + 4)).map BitVec.toNat).getD (d.wordAt m (off + 4)).toNat, d) := by
  obtain ⟨_, hw, hno⟩ := showsWord_of_pairLow h
  obtain ⟨r, ix, hf, hp, _, hs⟩ := exists_row_of_showsWord hw
  have hlow : ¬ d.pairLow (off + 4) = true := fun hl => by simp [mayPairLow_of_pairLow hl] at hno
  rw [regRead_of_plainRead hf hp, if_neg hlow, if_pos (by simp [h]), hs, ← Nat.add_assoc]
  unfold Dev.wordAt
  rw [hf]
  rfl

/-- Settles O14: both registers of every pair of R10 lie in the map as plain registers, and no high register is a low one. -/
theorem lowWordReadCapturesTheHighWord : Obligations.LowWordReadCapturesTheHighWord := by
  intro off m w s hr h4 hl hv hi e
  obtain ⟨hlo, hhi, -⟩ := showsWord_of_pairLow hl
  obtain ⟨-, -, -, -, ho, -⟩ := exists_row_of_showsWord hlo
  obtain ⟨-, -, -, -, ho4, -⟩ := exists_row_of_showsWord hhi
  have high (u : State) (hu : u.Running) (hul : u.dev.pairLow off = true) (huv : u.dev.readVerdict m (off + 4) = .pass) :
      exec (.lowWordRead m .bar0 (off + 4) w) u = .next (u.leaving (u.dev.answer m
        { data := ((u.dev.shadowWord ((m + 1) * masterSpan + off + 4)).map BitVec.toNat).getD (u.dev.wordAt m (off + 4)).toNat })) := by
    refine completes_of rfl hu ?_
    rw [busRead_of_pass w huv (by omega) ho4, regRead_pairHigh hul]
  refine ⟨completes_of rfl hr ?_, fun u hu hul huv => ⟨fun hc => ?_, fun hc => ?_⟩⟩
  · rw [busRead_of_pass w hv h4 ho, regRead_pairLow hl]
    rfl
  · rw [high u hu hul huv, hc]
    rfl
  · rw [high u hu hul huv, hc]
    rfl

end Sys2Proof.Machine
end

section
/-! PROOF. The recovery load of a Binding (O27). -/
namespace Sys2Proof.Machine

/-! ## What the updates of a Binding leave -/

@[simp] theorem Dev.get_withBnd (d : Dev) (f : BndSt → BndSt) (g : Fld) : (d.withBnd f).get g = d.get g := rfl
@[simp] theorem Dev.word_withBnd (d : Dev) (f : BndSt → BndSt) (k : Nat) : (d.withBnd f).word k = d.word k := rfl

@[simp] theorem bndIs_keyDisarm (m : Nat) (d : Dev) (b : BndState) : (keyDisarm m d).bndIs b = d.bndIs b := rfl
@[simp] theorem inRecovery_keyDisarm (m : Nat) (d : Dev) : (keyDisarm m d).inRecovery = d.inRecovery := rfl

@[simp] theorem get_cmdResult_same (c : Nat) (d : Dev) : (cmdResult c d).get BND_RESULT_command = c % 256 := Dev.get_set_same _ _ _ rfl

theorem get_cmdResult_apart (c : Nat) (d : Dev) {g : Fld} (h : BND_RESULT_command.apart g = true) : (cmdResult c d).get g = d.get g :=
  Dev.get_set_apart _ _ _ _ rfl h

theorem BndState.code_lt (b : BndState) : b.code < 2 ^ BND_STAT_state.width := by cases b <;> decide

theorem BndState.code_inj {a b : BndState} (h : a.code = b.code) : a = b := by
  cases a <;> cases b <;> simp_all [BndState.code]

/-- The Binding is in the state that was put, and in no other. -/
theorem bndIs_bndPut (a b : BndState) (d : Dev) : (d.bndPut a).bndIs b = decide (a = b) := by
  unfold Dev.bndIs Dev.bndPut
  rw [Dev.get_set_same _ _ _ rfl, Nat.mod_eq_of_lt a.code_lt]
  by_cases h : a = b
  · simp [h]
  · simpa [h] using fun hc => h (BndState.code_inj hc)

theorem get_bndPut_apart (b : BndState) (d : Dev) {g : Fld} (h : BND_STAT_state.apart g = true) : (d.bndPut b).get g = d.get g :=
  Dev.get_set_apart _ _ _ _ rfl h

/-- Where the state's field reads the same, the Binding is in the same state. -/
theorem bndIs_congr {d e : Dev} (h : e.get BND_STAT_state = d.get BND_STAT_state) (b : BndState) : e.bndIs b = d.bndIs b := by
  unfold Dev.bndIs
  rw [h]

@[simp] theorem bndIs_withBnd (d : Dev) (f : BndSt → BndSt) (b : BndState) : (d.withBnd f).bndIs b = d.bndIs b := rfl

@[simp] theorem bndIs_cmdResult (c : Nat) (d : Dev) (b : BndState) : (cmdResult c d).bndIs b = d.bndIs b :=
  bndIs_congr (get_cmdResult_apart c d rfl) b

theorem bnd_stepDone (n : Nat) (d : Dev) : (stepDone n d).bnd = d.bnd := by
  unfold stepDone
  split <;> rfl

theorem get_stepDone_apart (n : Nat) (d : Dev) {g : Fld} (h : CKP_PWR_STAT_step.apart g = true) : (stepDone n d).get g = d.get g := by
  unfold stepDone
  split
  · exact Dev.get_set_apart _ _ _ _ rfl h
  · rfl

/-- The code of a verification is one of the eleven of R40. -/
theorem verifyCode_le (img : List Byte) (cap : Nat) (d : Dev) : verifyCode img cap d ≤ 10 := by
  unfold verifyCode
  repeat' split
  all_goals decide

theorem imgVerdict_le {img : List Byte} {d : Dev} {c : Nat} (h : imgVerdict img d = some c) : c ≤ 10 := by
  unfold imgVerdict at h
  obtain ⟨-, rfl⟩ := by simpa only [Option.ite_none_left_eq_some, Option.some.injEq] using h
  exact verifyCode_le ..

/-! ## The recovery load (O27) -/

/-- A command of the Binding reaches its row, past the disarming of the master's key. -/
theorem regCmd_bndCmd {d : Dev} {m v : Nat} (h : d.Writes m 0x20008 v) : regCmd m 0x20008 v d = bndCmdWrite v (keyDisarm m d) :=
  regCmd_of_writes_bnd h (by decide) (by decide) (by decide) (by decide)

theorem regCmd_rcvBegin {d : Dev} {m : Nat} (h : d.Writes m 0x20008 4) : regCmd m 0x20008 4 d = rcvBegin (keyDisarm m d) := regCmd_bndCmd h

theorem regCmd_rcvEnd {d : Dev} {m : Nat} (h : d.Writes m 0x20008 5) : regCmd m 0x20008 5 d = rcvEnd (keyDisarm m d) := regCmd_bndCmd h

theorem regCmd_rcvData {d : Dev} {m v : Nat} (h : d.Writes m 0x2000C v) : regCmd m 0x2000C v d = rcvData v (keyDisarm m d) :=
  regCmd_of_writes_bnd h (by decide) (by decide) (by decide) (by decide)

/-- RCV_BEGIN and RCV_END outside a recovery load give STATE. -/
theorem rcvBegin_outside {d : Dev} (h : d.inRecovery = false) : rcvBegin d = cmdResult 0x0C d := by simp [rcvBegin, h]

theorem rcvEnd_outside {d : Dev} (h : d.inRecovery = false) : rcvEnd d = cmdResult 0x0C d := by simp [rcvEnd, h]

theorem rcvBegin_effect {d : Dev} (h : d.inRecovery = true) : (rcvBegin d).bndIs .rcvLoading = true ∧ (rcvBegin d).get BND_RCV_COUNT = 0 ∧
    (rcvBegin d).bnd.staging = [] ∧ (rcvBegin d).get BND_RESULT_command = 0 := by
  unfold rcvBegin
  rw [if_pos h]
  refine ⟨?_, ?_, rfl, get_cmdResult_same 0 _⟩
  · rw [bndIs_withBnd, bndIs_cmdResult, bndIs_congr (Dev.get_set_apart _ _ _ _ rfl rfl), bndIs_bndPut]
    rfl
  · rw [Dev.get_withBnd, get_cmdResult_apart _ _ rfl, Dev.get_set_same _ _ _ rfl]
    rfl

theorem rcvEnd_effect {d : Dev} (h : d.inRecovery = true) : (rcvEnd d).bndIs .verifying = true ∧
    (rcvEnd d).bnd = { d.bnd with loading := some 3 } ∧ (rcvEnd d).get BND_RESULT_command = 0 := by
  unfold rcvEnd
  rw [if_pos h]
  refine ⟨?_, rfl, get_cmdResult_same 0 _⟩
  rw [bndIs_withBnd, bndIs_cmdResult, bndIs_bndPut]
  rfl

theorem rcvData_effect {d : Dev} (v : Nat) (h : d.bndIs .rcvLoading = true) :
    (rcvData v d).get BND_RCV_COUNT = min (d.get BND_RCV_COUNT + 4) 4294967295 ∧
    (rcvData v d).bnd.staging = if d.get BND_RCV_COUNT < 4194304 then d.bnd.staging ++ toLe 4 v else d.bnd.staging := by
  unfold rcvData
  rw [h]
  simp only [Bool.not_true, Bool.false_eq_true, if_false]
  split <;> exact ⟨Dev.get_add_same _ _ _ rfl, rfl⟩

/-- The build that a good verification starts: the Binding is in BUILDING with the image and its source (R42, R44). -/
theorem buildStart_effect (src : Nat) (img : List Byte) (d : Dev) :
    (stepDone 5 (buildStart src img d)).bndIs .building = true ∧ (stepDone 5 (buildStart src img d)).bnd.loading = none ∧
    (stepDone 5 (buildStart src img d)).bnd.image = img ∧ (stepDone 5 (buildStart src img d)).bnd.target = src := by
  rw [bnd_stepDone, bndIs_congr (get_stepDone_apart _ _ rfl)]
  refine ⟨?_, rfl, rfl, rfl⟩
  unfold buildStart
  rw [bndIs_withBnd, bndIs_bndPut]
  rfl

theorem get_buildStart_apart (src : Nat) (img : List Byte) (d : Dev) {g : Fld} (h : BND_STAT_state.apart g = true)
    (hs : CKP_PWR_STAT_step.apart g = true) : (stepDone 5 (buildStart src img d)).get g = d.get g := by
  rw [get_stepDone_apart _ _ hs]
  exact get_bndPut_apart _ _ h

theorem recoveryVerifyDone_of_verdict {d : Dev} {c : Nat} (hl : d.bnd.loading = some 3) (hv : imgVerdict d.bnd.staging d = some c) :
    recoveryVerifyDone d = if c = 0 then stepDone 5 (buildStart 3 d.bnd.staging (d.set BND_RESULT_recovery c))
      else ((d.set BND_RESULT_recovery c).bndPut .recovery).withBnd (fun b => { b with loading := none }) := by
  unfold recoveryVerifyDone
  rw [hl]
  simp only [hv]
  rfl

/-- Settles O27: each command of the load reaches its row past the disarmed key, and the end of the verification follows its verdict. -/
theorem recoveryLoad : Obligations.RecoveryLoad := by
  intro s hr
  refine ⟨fun m hw => ⟨_, completes_of rfl hr (regCmd_rcvBegin hw), ?_⟩, fun m v hw => ⟨_, completes_of rfl hr (regCmd_rcvData hw), ?_⟩,
    fun m hw => ⟨_, completes_of rfl hr (regCmd_rcvEnd hw), ?_⟩, fun hl => ⟨fun hv => ?_, fun hv => ?_, fun c hv => ?_⟩⟩
  · split
    · next h => exact rcvBegin_effect h
    · next h => rw [rcvBegin_outside (by simpa using h)]; exact ⟨get_cmdResult_same _ _, rfl⟩
  · split
    · next h => exact rcvData_effect _ h
    · next h => simp [rcvData, h]
  · split
    · next h => exact rcvEnd_effect h
    · next h => rw [rcvEnd_outside (by simpa using h)]; exact ⟨get_cmdResult_same _ _, rfl⟩
  · refine completes_of rfl hr ?_
    unfold recoveryVerifyDone
    rw [hl]
    simp only [hv]
  · refine ⟨_, completes_of rfl hr (recoveryVerifyDone_of_verdict hl hv), ?_⟩
    obtain ⟨hb, hn, hi, ht⟩ := buildStart_effect 3 s.dev.bnd.staging (s.dev.set BND_RESULT_recovery 0)
    refine ⟨?_, hn, hb, hi, ht⟩
    rw [if_pos rfl, get_buildStart_apart _ _ _ rfl rfl]
    exact Dev.get_set_same _ _ _ rfl
  · refine ⟨_, completes_of rfl hr (recoveryVerifyDone_of_verdict hl hv), ?_⟩
    have hc := imgVerdict_le hv
    rw [if_neg (Nat.succ_ne_zero c)]
    refine ⟨?_, rfl, ?_, rfl⟩
    · rw [Dev.get_withBnd, get_bndPut_apart _ _ rfl, Dev.get_set_same _ _ _ rfl]
      exact Nat.mod_eq_of_lt (by show c + 1 < 256; omega)
    · rw [bndIs_withBnd, bndIs_bndPut]
      rfl

end Sys2Proof.Machine
end

section
/-! PROOF. VERIFY, REBIND and what a verification decides (O26). -/
namespace Sys2Proof.Machine

/-! ## VERIFY and REBIND (O26) -/

/-- Fields of different words share no bit. -/
theorem Fld.apart_of_key {f g : Fld} (h : f.key ≠ g.key) : f.apart g = true := by simp [Fld.apart, h]

theorem word_cmdResult_ne (c : Nat) (d : Dev) {k : Nat} (h : k ≠ BND_RESULT.key) : (cmdResult c d).word k = d.word k :=
  Dev.word_set_ne d BND_RESULT_command c h

theorem regCmd_bndVerify {d : Dev} {m : Nat} {slot : Fin 4} (h : d.Writes m 0x20008 (2 + 16 * slot.val)) :
    regCmd m 0x20008 (2 + 16 * slot.val) d = bndVerify slot (keyDisarm m d) := by
  have hc : (2 + 16 * slot.val) % 16 = 2 := by omega
  have hs : bits (2 + 16 * slot.val) 4 2 = slot.val := by unfold bits; omega
  rw [regCmd_bndCmd h]
  unfold bndCmdWrite
  rw [hc, hs]
  rfl

theorem regCmd_bndRebind {d : Dev} {m : Nat} {slot : Fin 4} {c : Fin 256} (h : d.Writes m 0x20008 (3 + 16 * slot.val + 256 * c.val)) :
    regCmd m 0x20008 (3 + 16 * slot.val + 256 * c.val) d = bndRebind slot c (keyDisarm m d) := by
  have hc : (3 + 16 * slot.val + 256 * c.val) % 16 = 3 := by omega
  have hs : bits (3 + 16 * slot.val + 256 * c.val) 4 2 = slot.val := by unfold bits; omega
  have hx : bits (3 + 16 * slot.val + 256 * c.val) 8 8 = c.val := by unfold bits; omega
  rw [regCmd_bndCmd h]
  unfold bndCmdWrite
  rw [hc, hs, hx]
  rfl

section
variable {slot : Nat} {ok rebind : Bool} {d : Dev}

/-- A command in a state that does not serve it, or for a slot that is not one of the two, gives STATE. -/
theorem verifyStart_refused (h : ¬(slot = 1 ∨ slot = 2) ∨ ok = false) : verifyStart slot ok rebind d = cmdResult 0x0C d := by
  unfold verifyStart
  rw [if_pos]
  rcases h with h | h
  · simp only [not_or] at h
    simp [h]
  · simp [h]

/-- While a verification, a re-binding or a store of the slot runs, the command gives BUSY. -/
theorem verifyStart_busy (hn : slot = 1 ∨ slot = 2) (ho : ok = true)
    (h : d.bnd.verifying.isSome = true ∨ (d.bnd.rebinding = true ∧ d.bnd.broken = false) ∨ d.storing slot = true) :
    verifyStart slot ok rebind d = cmdResult 0x0B d := by
  unfold verifyStart
  rw [if_neg (by simpa [ho, or_iff_not_imp_left] using hn), if_pos (by simpa [or_assoc] using h)]

/-- Otherwise the verification starts, and a re-binding with it. -/
theorem verifyStart_starts (hn : slot = 1 ∨ slot = 2) (ho : ok = true)
    (h : ¬(d.bnd.verifying.isSome = true ∨ (d.bnd.rebinding = true ∧ d.bnd.broken = false) ∨ d.storing slot = true)) :
    verifyStart slot ok rebind d = when rebind (Dev.bndPut .rebinding) (d.withBnd (fun b => { b with verifying := some (slot, rebind) })) := by
  unfold verifyStart when
  rw [if_neg (by simpa [ho, or_iff_not_imp_left] using hn), if_neg (by simpa [or_assoc] using h)]

end

theorem bndVerifyDone_of_verdict {d : Dev} {i c : Nat} (hi : d.bnd.verifying = some (i, false)) (hv : imgVerdict (d.slotImage i) d = some c) :
    bndVerifyDone d = cmdResult c ((d.set (resultFld i) c).withBnd (fun b => { b with verifying := none })) := by
  unfold bndVerifyDone
  rw [hi]
  simp only [hv]

/-- The fields of BND_RESULT: a byte of that word each, apart from the command's. -/
theorem resultFld_spec (i : Nat) : (resultFld i).key = BND_RESULT.key ∧ (resultFld i).width = 8 ∧ (resultFld i).inWord = true ∧
    BND_RESULT_command.apart (resultFld i) = true := by
  unfold resultFld
  split
  · exact ⟨rfl, rfl, rfl, rfl⟩
  · split <;> exact ⟨rfl, rfl, rfl, rfl⟩

theorem get_set_resultFld (i c : Nat) (d : Dev) (h : c < 256) : (d.set (resultFld i) c).get (resultFld i) = c := by
  obtain ⟨-, hw, hin, -⟩ := resultFld_spec i
  rw [Dev.get_set_same _ _ _ hin, hw]
  exact Nat.mod_eq_of_lt h

/-- The commands VERIFY and REBIND, the end of a verification that VERIFY started, and what the verdict waits for (R47, R383, R463). -/
theorem verifyAndRebind : Rules.VerifyAndRebind := by
  intro s m slot hr named busy serves
  have ser : serves ↔ (s.dev.bndIs .unlocked || s.dev.bndIs .locked || s.dev.bndIs .recovery) = true := by
    simp [serves, or_assoc]
  refine ⟨fun hw => ⟨fun hn hs hb => ?_, fun hn hs hb => ?_, fun hn => ?_⟩, fun c hw => ⟨fun hn hl hc hb => ?_, fun hn hl hc hb => ?_, fun hn => ?_⟩,
    fun i hi => ⟨fun c hc => ?_, fun hv => ?_⟩, fun img => ⟨fun hw => ?_, fun hw ht => ?_, fun hw ht => ?_⟩⟩
  · exact ⟨_, completes_of rfl hr ((regCmd_bndVerify hw).trans (verifyStart_starts hn (ser.mp hs) hb)), rfl, rfl, rfl⟩
  · exact ⟨_, completes_of rfl hr ((regCmd_bndVerify hw).trans (verifyStart_busy hn (ser.mp hs) hb)), rfl, get_cmdResult_same _ _⟩
  · refine ⟨_, completes_of rfl hr ((regCmd_bndVerify hw).trans (verifyStart_refused ?_)), rfl, get_cmdResult_same _ _⟩
    exact hn.imp id fun h => by simpa using mt ser.mpr h
  · refine ⟨_, completes_of rfl hr ((regCmd_bndRebind hw).trans (verifyStart_starts hn ?_ hb)), rfl, rfl, ?_⟩
    · simp [hc, hl]
    · exact bndIs_bndPut ..
  · refine ⟨_, completes_of rfl hr ((regCmd_bndRebind hw).trans (verifyStart_busy hn ?_ hb)), rfl, get_cmdResult_same _ _⟩
    simp [hc, hl]
  · refine ⟨_, completes_of rfl hr ((regCmd_bndRebind hw).trans (verifyStart_refused ?_)), rfl, get_cmdResult_same _ _⟩
    refine hn.imp id fun h => ?_
    rcases h with h | h <;> simp [h]
  · obtain ⟨hk, -, -, hap⟩ := resultFld_spec i
    have hlt : c < 256 := by have := imgVerdict_le hc; omega
    refine ⟨_, completes_of rfl hr (bndVerifyDone_of_verdict hi hc), ?_, ?_, rfl, fun k hk' => ?_, rfl⟩
    · rw [get_cmdResult_apart _ _ hap, Dev.get_withBnd, get_set_resultFld _ _ _ hlt]
    · rw [get_cmdResult_same, Nat.mod_eq_of_lt hlt]
    · rw [Dev.word_mk, regWord_regs, word_cmdResult_ne _ _ hk', Dev.word_withBnd, Dev.word_set_ne _ _ _ (hk ▸ hk')]
  · refine completes_of rfl hr ?_
    unfold bndVerifyDone
    rw [hi]
    simp only [hv]
  · obtain ⟨h1, h2, h3⟩ := hw
    simp [imgVerdict, h1, h2, h3]
  · have hn : (s.dev.cmp.running.isSome && s.dev.blockRuns 59 && imgPacked img) = false := by simpa [and_assoc] using hw
    simp [imgVerdict, ht, hn]
  · have hn : (s.dev.cmp.running.isSome && s.dev.blockRuns 59 && imgPacked img) = false := by simpa [and_assoc] using hw
    simp [imgVerdict, ht, hn]

/-! ## What a verification decides (O26) -/

/-- The map and the partitions that RECOVERY clears lie above the Binding's other registers. -/
theorem get_forN_unbound (d : Dev) {g : Fld} (h : g.key < 0x20050) :
    (forN 10 (fun n d => d.set (BND_FOLIO_MAP n) 0) (forN 16 (fun n d => d.set (BND_PART n) 0) d)).get g = d.get g := by
  rw [get_forN, get_forN]
  · exact fun i _ e => Dev.get_set_ne _ _ _ _ (by simp only [BND_PART]; omega)
  · exact fun i _ e => Dev.get_set_ne _ _ _ _ (by simp only [BND_FOLIO_MAP]; omega)

/-- Entering RECOVERY unbinds all folios, raises source 6 and leaves the results of verifications (R42, R43). -/
theorem enterRecovery_spec (d : Dev) : ∃ x : Dev, enterRecovery d = raise 6 x ∧ x.bndIs .recovery = true ∧ x.get BND_FOLIO_CNT = 40 * 2 ^ 24 ∧
    x.flag BND_STAT_locked = false ∧ x.quires = [] ∧
    x.bnd = { d.bnd with loading := none, image := [], rebuild := false, broken := d.bnd.rebinding } ∧
    ∀ i, x.get (resultFld i) = d.get (resultFld i) := by
  refine ⟨_, rfl, ?_, ?_, ?_, rfl, rfl, fun i => ?_⟩
  · rw [Dev.bndIs, Dev.get_mk, regGet_regs, get_forN_unbound _ (by decide), Dev.setFlag_eq]
    simp (disch := decide) only [Dev.get_set_apart]
    exact bndIs_bndPut _ _ d
  · rw [Dev.get_mk, regGet_regs, get_forN_unbound _ (by decide), Dev.setFlag_eq]
    simp (disch := decide) only [Dev.get_set_apart, Dev.get_set_same]
    decide
  · rw [Dev.flag_eq, Dev.get_mk, regGet_regs, get_forN_unbound _ (by decide), ← Dev.flag_eq]
    exact Dev.flag_setFlag_same _ _ _ rfl rfl
  · obtain ⟨hk, -, -, -⟩ := resultFld_spec i
    rw [Dev.get_mk, regGet_regs, get_forN_unbound _ (by rw [hk]; decide), Dev.setFlag_eq]
    have ne (f : Fld) (v : Nat) (e : Dev) (h : f.key ≠ BND_RESULT.key) : (e.set f v).get (resultFld i) = e.get (resultFld i) :=
      Dev.get_set_ne _ _ _ _ (by rw [hk]; exact h.symm)
    rw [ne _ _ _ (by decide), ne _ _ _ (by decide), ne _ _ _ (by decide), ne _ _ _ (by decide), ne _ _ _ (by decide), Dev.get_withBnd,
      Dev.bndPut, ne _ _ _ (by decide)]

theorem slotVerifyDone_of_verdict {d : Dev} {slot c : Nat} (hl : d.bnd.loading = some slot) (hs : slot ≠ 3)
    (hv : imgVerdict (d.slotImage slot) d = some c) :
    slotVerifyDone d = if c = 0 then stepDone 5 (buildStart slot (d.slotImage slot) (d.set (resultFld slot) c))
      else slotReject slot (d.set (resultFld slot) c) := by
  unfold slotVerifyDone
  rw [hl]
  simp only [if_neg hs, hv]

theorem rebindVerifyDone_of_verdict {d : Dev} {slot c : Nat} (hl : d.bnd.verifying = some (slot, true))
    (hv : imgVerdict (d.slotImage slot) d = some c) :
    rebindVerifyDone d = if c != 0 then ((cmdResult c (d.set (resultFld slot) c)).bndPut .locked).withBnd (fun b => { b with verifying := none })
      else
        let x := (cmdResult c (d.set (resultFld slot) c)).withBnd
          (fun b => { b with verifying := none, image := d.slotImage slot, target := slot, releasing := true })
        if x.leRunning || x.get LGE_STAT_state = 3 then x else rebindRelease x := by
  unfold rebindVerifyDone
  rw [hl]
  simp only [hv]

/-- What the verification of a slot at start-up and that of a re-binding decide (R42, R48, R49). -/
theorem verificationDecides : Rules.VerificationDecides := by
  intro s hr
  refine ⟨fun slot hl hs => ⟨fun hv => ?_, fun hv => ?_, fun c hv hc h1 => ?_, fun c hv h1 => ?_⟩, fun slot hl => ⟨fun hv => ?_, fun c hv => ⟨fun hc => ?_, fun hc => ?_⟩⟩⟩
  · refine settles_of rfl hr ?_
    unfold slotVerifyDone
    rw [hl]
    simp only [if_neg hs, hv]
  · refine ⟨_, settles_of rfl hr (slotVerifyDone_of_verdict hl hs hv), ?_⟩
    obtain ⟨hb, hn, hi, ht⟩ := buildStart_effect slot (s.dev.slotImage slot) (s.dev.set (resultFld slot) 0)
    obtain ⟨hk, -, -, -⟩ := resultFld_spec slot
    refine ⟨hb, hi, ht, hn, ?_⟩
    rw [if_pos rfl, get_buildStart_apart _ _ _ (Fld.apart_of_key (by rw [hk]; decide)) (Fld.apart_of_key (by rw [hk]; decide)),
      get_set_resultFld _ _ _ (by decide)]
  · subst h1
    refine ⟨_, settles_of rfl hr ((slotVerifyDone_of_verdict hl hs hv).trans (if_neg (Nat.succ_ne_zero c))), ?_, ?_, bndIs_bndPut .., rfl⟩
    · rw [get_bndPut_apart _ _ rfl, Dev.setFlag_eq, Dev.get_set_apart _ _ _ _ rfl rfl, get_set_resultFld _ _ _ (by omega)]
    · rw [Dev.flag_eq, get_bndPut_apart _ _ rfl, ← Dev.flag_eq]
      exact Dev.flag_setFlag_same _ _ _ rfl rfl
  · obtain ⟨x, hx, hb, hf, hlk, hq, hbnd, hres⟩ := enterRecovery_spec (s.dev.set (resultFld slot) (c + 1))
    refine ⟨x, settles_of rfl hr ((slotVerifyDone_of_verdict hl hs hv).trans ((if_neg (Nat.succ_ne_zero c)).trans ((if_neg h1).trans hx))),
      hb, fun hc => ?_, hf, hlk, hq, by rw [hbnd], by rw [hbnd]⟩
    rw [hres, get_set_resultFld _ _ _ (by omega)]
  · refine settles_of rfl hr ?_
    unfold rebindVerifyDone
    rw [hl]
    simp only [hv]
  · refine ⟨_, settles_of rfl hr ((rebindVerifyDone_of_verdict hl hv).trans (if_pos (by simpa using hc))), ?_, ?_, rfl⟩
    · rw [bndIs_withBnd, bndIs_bndPut]; rfl
    · have := imgVerdict_le hv
      rw [Dev.get_withBnd, get_bndPut_apart _ _ rfl, get_cmdResult_same, Nat.mod_eq_of_lt (by omega)]
  · subst hc
    refine ⟨(cmdResult 0 (s.dev.set (resultFld slot) 0)).withBnd
      (fun b => { b with verifying := none, image := s.dev.slotImage slot, target := slot, releasing := true }), rfl, get_cmdResult_same _ _, ?_⟩
    refine settles_of rfl hr ((rebindVerifyDone_of_verdict hl hv).trans ?_)
    obtain ⟨hk, -, -, -⟩ := resultFld_spec slot
    have hst : (cmdResult 0 (s.dev.set (resultFld slot) 0)).get LGE_STAT_state = s.dev.get LGE_STAT_state := by
      rw [get_cmdResult_apart _ _ rfl, Dev.get_set_ne _ _ _ _ (by rw [hk]; decide)]
    simp only [Dev.leRunning, Dev.get_withBnd, hst, bne_self_eq_false, Bool.false_eq_true, if_false, Bool.or_eq_true, beq_iff_eq, decide_eq_true_eq]

/-- Settles O26: the commands by the three ends of `verifyStart`, the ends of verifications by their verdicts. -/
theorem bindingIsVerified : Obligations.BindingIsVerified := ⟨verifyAndRebind, verificationDecides⟩

end Sys2Proof.Machine
end

section
/-! PROOF. Links of the hosts and their apertures (O28). -/
namespace Sys2Proof.Machine

/-! ## Links and configuration spaces -/

/-- The links that are up and the configuration spaces of both endpoints. -/
def Dev.links (d : Dev) : Nat × PcieCfg × PcieCfg := (d.host.linkUp, d.host.cfgA, d.host.cfgB)

theorem Dev.pcie_of_links {d e : Dev} (h : e.links = d.links) (o : Nat) : e.pcie o = d.pcie o := by
  obtain ⟨-, ha, hb⟩ := by simpa [Dev.links] using h
  unfold Dev.pcie
  rw [ha, hb]

theorem Dev.linkUp_of_links {d e : Dev} (h : e.links = d.links) (o : Nat) : e.linkUp o = d.linkUp o := by
  obtain ⟨hl, -, -⟩ := by simpa [Dev.links] using h
  unfold Dev.linkUp
  rw [hl]

@[simp] theorem links_set (d : Dev) (f : Fld) (v : Nat) : (d.set f v).links = d.links := rfl
@[simp] theorem links_incWrap (d : Dev) (f : Fld) : (d.incWrap f).links = d.links := rfl
@[simp] theorem links_dmaStop (i : Nat) (d : Dev) : (dmaStop i d).links = d.links := rfl

@[simp] theorem links_hostWrite (e a : Nat) (bs : List Byte) (d : Dev) : (d.hostWrite e a bs).links = d.links := by
  unfold Dev.hostWrite
  split
  · rfl
  · split
    · split <;> rfl
    · rfl

@[simp] theorem links_msixSend (e v : Nat) (d : Dev) : (msixSend e v d).links = d.links := by
  unfold msixSend msixWrite
  split
  · rfl
  · simp

@[simp] theorem links_evPend (t s : Nat) (d : Dev) : (evPend t s d).links = d.links := by
  unfold evPend
  dsimp only
  split <;> simp

theorem links_ite {c : Prop} [Decidable c] {d x y : Dev} (hx : x.links = d.links) (hy : y.links = d.links) :
    (if c then x else y).links = d.links := by
  split
  · exact hx
  · exact hy

/-- Raising a source changes no link and no configuration space. -/
@[simp] theorem links_raise (s : Nat) (d : Dev) : (raise s d).links = d.links := by
  have latch (c : Bool) (x : Dev) : (if c then { x with host := { x.host with leLatch := setBit x.host.leLatch s true } } else x).links = x.links :=
    links_ite rfl rfl
  have pend (c : Bool) (t : Nat) (x : Dev) : (if c then evPend t s x else x).links = x.links := links_ite (links_evPend ..) rfl
  unfold raise
  dsimp only
  rw [latch, pend, pend, pend]

@[simp] theorem links_raiseMerged (s : Nat) (d : Dev) : (raiseMerged s d).links = d.links := by
  unfold raiseMerged
  split
  · rfl
  · exact links_ite rfl (links_raise ..)

@[simp] theorem links_raiseMs (s : Nat) (d : Dev) : (raiseMs s d).links = d.links := by
  rw [← links_raiseMerged s d]
  unfold raiseMs
  exact links_ite (links_ite rfl rfl) (links_raise ..)

@[simp] theorem links_violation (k : VKind) (m t off : Nat) (d : Dev) : (violation k m t off d).links = d.links := by
  unfold violation
  dsimp only
  rw [links_raiseMs]
  exact links_ite rfl rfl

theorem links_drawBytes (n : Nat) (d : Dev) : (d.drawBytes n).2.links = d.links := by
  induction n generalizing d with
  | zero => rfl
  | succ n ih => exact ih _

theorem links_hostRead (e a n : Nat) (d : Dev) : (hostRead e a n d).2.links = d.links := by
  unfold hostRead
  split
  · rfl
  · exact links_drawBytes ..

@[simp] theorem links_dramWrite (a : Nat) (bs : List Byte) (d : Dev) : (d.dramWrite a bs).links = d.links := links_ite rfl rfl

theorem links_dmaCopy (e : Nat) (b : List Byte) (limit : Nat) (d : Dev) : (dmaCopy e b limit d).2.links = d.links := by
  have branch {c : Prop} [Decidable c] {x y : Nat × Dev} (hx : x.2.links = d.links) (hy : y.2.links = d.links) :
      (if c then x else y).2.links = d.links := by
    split
    · exact hx
    · exact hy
  unfold dmaCopy
  split
  · rfl
  · refine branch rfl (branch rfl (branch (links_violation ..) (links_ite ?_ (links_hostWrite ..))))
    exact (links_dramWrite ..).trans (links_hostRead ..)

theorem links_dmaCut (i : Nat) (d : Dev) : (dmaCut i d).2.2.links = d.links :=
  (links_dmaCopy ..).trans (links_hostRead ..)

theorem links_dmaEnd (i a flags st : Nat) (d : Dev) : (dmaEnd i a flags st d).links = d.links := by
  unfold dmaEnd
  exact links_ite (by simp) (by simp)

/-- The MSI-X table of an endpoint returns to reset, and nothing is pending in it (R419). -/
def msixReset (e : Nat) (d : Dev) : Dev :=
  forN 2 (fun w d => d.set (EVC_PBA e w) 0) (forN 32 (fun v d => forN 4 (fun w d => d.set (EVC_MSIX e v w) (if w = 3 then 1 else 0)) d) d)

theorem host_msixReset (e : Nat) (d : Dev) : (msixReset e d).host = d.host := by
  have table : (forN 32 (fun v d => forN 4 (fun w d => d.set (EVC_MSIX e v w) (if w = 3 then 1 else 0)) d) d).host = d.host :=
    forN_keeps (P := fun x => x.host = d.host) (fun v _ x hx => forN_keeps (P := fun y => y.host = d.host)
      (fun w _ y hy => (Dev.host_set y _ _).trans hy) x hx) d rfl
  unfold msixReset
  exact forN_keeps (P := fun x => x.host = d.host) (fun w _ x hx => (Dev.host_set x _ _).trans hx) _ table

/-- The MSI-X table of an endpoint lies above the registers that masters share. -/
theorem get_msixReset (e : Nat) (d : Dev) {g : Fld} (h : g.key < 0x4000000) :
    (msixReset e d).get g = d.get g := by
  unfold msixReset
  rw [get_forN, get_forN]
  · exact fun v _ x => get_forN (fun w _ y => Dev.get_set_ne _ _ _ _ (by simp only [EVC_MSIX]; omega)) x
  · exact fun w _ x => Dev.get_set_ne _ _ _ _ (by simp only [EVC_PBA]; omega)

/-- After a link-down every vector of the endpoint is masked and cleared. -/
theorem get_msixReset_msix (e : Nat) (d : Dev) {v w : Nat} (hv : v < 32) (hw : w < 4) :
    (msixReset e d).get (EVC_MSIX e v w) = if w = 3 then 1 else 0 := by
  have row (i : Nat) (x : Dev) : ∀ w < 4, (forN 4 (fun w d => d.set (EVC_MSIX e i w) (if w = 3 then 1 else 0)) x).get (EVC_MSIX e i w) =
      if w = 3 then 1 else 0 := by
    refine forN_ind (P := fun n y => ∀ w < n, y.get (EVC_MSIX e i w) = if w = 3 then 1 else 0) (fun w hw => absurd hw (Nat.not_lt_zero w)) ?_
    intro n _ y hy w hw
    by_cases h : w = n
    · subst h
      rw [Dev.get_set_same _ _ _ rfl]
      split <;> rfl
    · rw [Dev.get_set_ne _ _ _ _ (by simp only [EVC_MSIX]; omega)]
      exact hy w (by omega)
  have table (x : Dev) : ∀ v < 32, ∀ w < 4,
      (forN 32 (fun v d => forN 4 (fun w d => d.set (EVC_MSIX e v w) (if w = 3 then 1 else 0)) d) x).get (EVC_MSIX e v w) =
        if w = 3 then 1 else 0 := by
    refine forN_ind (P := fun n y => ∀ v < n, ∀ w < 4, y.get (EVC_MSIX e v w) = if w = 3 then 1 else 0)
      (fun v hv => absurd hv (Nat.not_lt_zero v)) ?_
    intro n _ y hy v hv w hw
    by_cases h : v = n
    · subst h
      exact row v y w hw
    · rw [get_forN (fun u hu z => Dev.get_set_ne _ _ _ _ (by simp only [EVC_MSIX]; omega))]
      exact hy v (by omega) w hw
  unfold msixReset
  rw [get_forN (fun u hu z => Dev.get_set_ne _ _ _ _ (by simp only [EVC_MSIX, EVC_PBA]; omega))]
  exact table d v hv w hw

theorem get_msixReset_pba (e : Nat) (d : Dev) {w : Nat} (hw : w < 2) : (msixReset e d).get (EVC_PBA e w) = 0 := by
  refine forN_ind (P := fun n y => ∀ w < n, y.get (EVC_PBA e w) = 0) (fun w hw => absurd hw (Nat.not_lt_zero w)) ?_ w hw
  intro n _ y hy w hw
  by_cases h : w = n
  · subst h
    rw [Dev.get_set_same _ _ _ rfl]
    rfl
  · rw [Dev.get_set_ne _ _ _ _ (by simp only [EVC_PBA]; omega)]
    exact hy w (by omega)

/-! ## Channels that stop -/

theorem flag_dmaStop (i c : Nat) (d : Dev) :
    (dmaStop i d).flag (ACT_DMA_CTRL_busy c) = (decide (c ≠ i) && d.flag (ACT_DMA_CTRL_busy c)) := by
  unfold dmaStop
  by_cases h : c = i
  · subst h
    rw [Dev.flag_setFlag_same _ _ _ rfl rfl]
    simp
  · rw [Dev.setFlag_eq, Dev.flag_eq, Dev.get_set_ne _ _ _ _ (by simp only [ACT_DMA_CTRL_busy]; omega)]
    simp [h, Dev.flag_eq]

/-- Every channel that is stopped is no longer busy. -/
theorem flag_forL_dmaStop {cs : List Nat} {c : Nat} (h : c ∈ cs) (d : Dev) : (forL cs dmaStop d).flag (ACT_DMA_CTRL_busy c) = false := by
  induction cs generalizing d with
  | nil => cases h
  | cons i cs ih =>
    rcases List.mem_cons.mp h with rfl | h
    · refine forL_keeps (P := fun x => x.flag (ACT_DMA_CTRL_busy c) = false) (fun j x hx => ?_) cs _ ?_
      · rw [flag_dmaStop, hx, Bool.and_false]
      · rw [flag_dmaStop]
        simp
    · exact ih h _

theorem get_dmaStop_stat (i j : Nat) (d : Dev) : (dmaStop i d).get (ACT_DMA_STAT_status j) = d.get (ACT_DMA_STAT_status j) :=
  Dev.get_set_ne _ _ _ _ (by simp only [ACT_DMA_CTRL_busy, ACT_DMA_STAT_status]; omega)

/-- A descriptor that ends shows its status. -/
theorem get_dmaEnd_stat {i : Nat} (a flags st : Nat) (d : Dev) (hi : i < 16) (hs : st < 8) :
    (dmaEnd i a flags st d).get (ACT_DMA_STAT_status i) = st := by
  have shown (x : Dev) : ((x.set (ACT_DMA_STAT_status i) st).incWrap (ACT_DMA_STAT_done i)).get (ACT_DMA_STAT_status i) = st := by
    rw [Dev.incWrap_eq, Dev.get_set_apart _ _ _ _ rfl (by simp [Fld.apart, ACT_DMA_STAT_status, ACT_DMA_STAT_done]), Dev.get_set_same _ _ _ rfl]
    exact Nat.mod_eq_of_lt hs
  unfold dmaEnd
  dsimp only
  split
  · rw [(eventOnly_msixSend _ (by omega) (Dev.get_lt _ _)).get _ (by simp only [keyBlock, ACT_DMA_STAT_status, masterSpan]; omega)
      (by simp only [ACT_DMA_STAT_status, GCTL_XDROP]; omega)]
    exact shown _
  · exact shown _

/-! ## Links that rise and fall (O28) -/

/-- The link of an endpoint falls, and the descriptor that runs on it ends with ABORTED (R419). -/
def linkCut (e : Nat) (d : Dev) : Dev :=
  let down (d : Dev) : Dev := { d with host := { d.host with linkUp := setBit d.host.linkUp e false } }
  match d.dmaRuns e with
  | none => down d
  | some i => dmaEnd i (dmaCut i d).1 (dmaCut i d).2.1 4 (down (dmaCut i d).2.2)

/-- No channel of the endpoint has its turn. -/
def dmaNoTurn (e : Nat) (d : Dev) : Dev := { d with host := { d.host with dmaCur := eraseKey e d.host.dmaCur } }

theorem links_dmaNoTurn (e : Nat) (d : Dev) : (dmaNoTurn e d).links = d.links := rfl
theorem get_dmaNoTurn (e : Nat) (d : Dev) (g : Fld) : (dmaNoTurn e d).get g = d.get g := rfl
theorem dmaRuns_dmaNoTurn (e : Nat) (d : Dev) : (dmaNoTurn e d).dmaRuns e = none := lookup_eraseKey_same _ _

/-- The channels of an endpoint have stopped, and none has its turn. -/
def dmaCleared (e : Nat) (d : Dev) : Dev := dmaNoTurn e (forL (dmaOf e) dmaStop d)

/-- A link-down in its parts. -/
theorem pcieDown_eq (e : Nat) (d : Dev) :
    pcieDown e d = msixReset e ((dmaCleared e (linkCut e d)).putPcie e ((dmaCleared e (linkCut e d)).pcie e).afterReset) := by
  unfold pcieDown linkCut
  cases d.dmaRuns e <;> rfl

theorem links_linkCut (e : Nat) (d : Dev) : (linkCut e d).links = (setBit d.host.linkUp e false, d.host.cfgA, d.host.cfgB) := by
  unfold linkCut
  dsimp only
  split
  · rfl
  · next i _ =>
    rw [links_dmaEnd]
    have h := links_dmaCut i d
    obtain ⟨hl, ha, hb⟩ := by simpa [Dev.links] using h
    simp [Dev.links, hl, ha, hb]

theorem links_dmaCleared (e : Nat) (d : Dev) : (dmaCleared e d).links = d.links := by
  rw [dmaCleared, links_dmaNoTurn]
  exact forL_keeps (P := fun x => x.links = d.links) (fun i x hx => (links_dmaStop i x).trans hx) (dmaOf e) d rfl

theorem get_dmaCleared (e : Nat) (d : Dev) (g : Fld) : (dmaCleared e d).get g = (forL (dmaOf e) dmaStop d).get g := by
  rw [dmaCleared, get_dmaNoTurn]

theorem dmaRuns_dmaCleared (e : Nat) (d : Dev) : (dmaCleared e d).dmaRuns e = none := by
  rw [dmaCleared, dmaRuns_dmaNoTurn]

theorem get_dmaCleared_stat (e j : Nat) (d : Dev) : (dmaCleared e d).get (ACT_DMA_STAT_status j) = d.get (ACT_DMA_STAT_status j) := by
  rw [get_dmaCleared]
  exact forL_keeps (P := fun x => x.get (ACT_DMA_STAT_status j) = d.get (ACT_DMA_STAT_status j))
    (fun i x hx => (get_dmaStop_stat i j x).trans hx) (dmaOf e) d rfl

theorem get_linkCut_stat {e i : Nat} {d : Dev} (h : d.dmaRuns e = some i) (hi : i < 16) : (linkCut e d).get (ACT_DMA_STAT_status i) = 4 := by
  unfold linkCut
  rw [h]
  exact get_dmaEnd_stat _ _ _ _ hi (by decide)

@[simp] theorem Dev.get_putPcie (d : Dev) (e : Nat) (c : PcieCfg) (g : Fld) : (d.putPcie e c).get g = d.get g := by
  unfold Dev.putPcie
  split <;> rfl

theorem dmaRuns_putPcie (d : Dev) (e : Nat) (c : PcieCfg) (o : Nat) : (d.putPcie e c).dmaRuns o = d.dmaRuns o := by
  unfold Dev.putPcie
  split <;> rfl

theorem linkUp_putPcie (d : Dev) (e : Nat) (c : PcieCfg) (o : Nat) : (d.putPcie e c).linkUp o = d.linkUp o := by
  unfold Dev.putPcie
  split <;> rfl

theorem linkUp_msixReset (e : Nat) (d : Dev) (o : Nat) : (msixReset e d).linkUp o = d.linkUp o := by
  unfold Dev.linkUp
  rw [host_msixReset]

theorem dmaRuns_msixReset (e : Nat) (d : Dev) (o : Nat) : (msixReset e d).dmaRuns o = d.dmaRuns o := by
  unfold Dev.dmaRuns
  rw [host_msixReset]

theorem pcie_msixReset (e : Nat) (d : Dev) (o : Nat) : (msixReset e d).pcie o = d.pcie o := by
  unfold Dev.pcie
  rw [host_msixReset]

theorem mem_dmaOf {e i : Nat} (h : i ∈ dmaOf e) : 8 * e ≤ i ∧ i < 8 * e + 8 := by
  obtain ⟨c, hc, rfl⟩ := List.mem_map.mp h
  have := List.mem_range.mp hc
  omega

theorem linksOfTheHosts : Rules.LinksOfTheHosts := by
  intro s e hr
  refine ⟨⟨_, completes_of rfl hr (pcieDown_eq e s.dev), ?_, fun v hv w hw => get_msixReset_msix _ _ hv hw,
    fun w hw => get_msixReset_pba _ _ hw, fun c hc => ?_, ?_, fun i hi hi' => ?_, fun o => ?_⟩, fun h4 hp => ?_, fun h => ?_⟩
  · rw [linkUp_msixReset, linkUp_putPcie, Dev.linkUp_of_links (links_dmaCleared ..)]
    have h := links_linkCut e s.dev
    obtain ⟨hl, -, -⟩ := by simpa [Dev.links] using h
    rw [Dev.linkUp, hl, bitAt_setBit, if_pos rfl]
  · obtain ⟨-, hlt⟩ := mem_dmaOf hc
    rw [Dev.flag_eq, get_msixReset _ _ (by simp only [ACT_DMA_CTRL_busy]; omega), Dev.get_putPcie, get_dmaCleared, ← Dev.flag_eq]
    exact flag_forL_dmaStop hc _
  · rw [dmaRuns_msixReset, dmaRuns_putPcie, dmaRuns_dmaCleared]
  · obtain ⟨-, hlt⟩ := mem_dmaOf hi
    rw [get_msixReset _ _ (by simp only [ACT_DMA_STAT_status]; omega), Dev.get_putPcie, get_dmaCleared_stat, get_linkCut_stat hi' (by omega)]
  · have kept (o : Nat) : (dmaCleared e (linkCut e s.dev)).pcie o = s.dev.pcie o := by
      rw [Dev.pcie_of_links (links_dmaCleared ..)]
      have h := links_linkCut e s.dev
      obtain ⟨-, ha, hb⟩ := by simpa [Dev.links] using h
      rw [Dev.pcie, ha, hb, Dev.pcie]
    rw [pcie_msixReset, Dev.pcie_putPcie, kept, kept]
    by_cases h : o = e
    · rw [if_pos h, if_pos (by rw [h])]
      rfl
    · rw [if_neg h, if_neg]
      have : o.val ≠ e.val := fun hv => h (Fin.ext hv)
      simp only [eq_iff_iff]
      omega
  · refine ⟨_, completes_of rfl hr (if_pos (by simp [h4, hp])), ?_, fun o ho => ?_, rfl⟩
    · rw [Dev.linkUp, bitAt_setBit, if_pos rfl]
    · rw [Dev.linkUp, bitAt_setBit, if_neg (fun hv => ho (Fin.ext hv)), Dev.linkUp]
  · refine completes_of rfl hr (if_neg ?_)
    rcases h with h | h
    · simp [Nat.not_le.mpr h]
    · simp [h]

/-! ## Accesses through BAR2 (O28) -/

/-- The AER of an endpoint logs a Completer Abort; the other endpoint's configuration space stays (R430). -/
theorem aerAbort_spec (e : Endpoint) (d : Dev) :
    bitAt ((aerAbort e d).pcie e).aerStatus 15 = true ∧ ∀ o : Endpoint, o ≠ e → (aerAbort e d).pcie o = d.pcie o := by
  unfold aerAbort
  rw [if_neg (by omega)]
  refine ⟨?_, fun o ho => ?_⟩
  · rw [Dev.pcie_putPcie, if_pos rfl, bitAt_setBit, if_pos rfl]
  · rw [Dev.pcie_putPcie, if_neg]
    have : o.val ≠ e.val := fun hv => ho (Fin.ext hv)
    simp only [eq_iff_iff]
    omega

theorem bar2Access_lost {e off : Nat} {acc : BarAcc} {d : Dev} (h : d.arrives e = false) : bar2Access e off acc d = lostAccess e d := by
  simp [bar2Access, h]

theorem bar2Access_miss {e off : Nat} {d : Dev} (ha : d.arrives e = true) (h : d.apertureHit (d.apertureAddr e off) = none) (acc : BarAcc) :
    bar2Access e off acc d = match acc with
      | .read _ => d.answer e {}
      | .write _ => d := by
  cases acc <;> simp [bar2Access, ha, h]

theorem bar2Access_read {e off p : Nat} {d : Dev} (ha : d.arrives e = true) (h : d.apertureHit (d.apertureAddr e off) = some p) (n : Nat) :
    bar2Access e off (.read n) d =
      if d.granted .read (96 + p) e then d.answer e { data := ofLe (d.dramRead (d.apertureAddr e off)
        (d.partRoom p (d.apertureAddr e off - (d.part p).1) n)) }
      else (aerAbort e (violation .read e (96 + p) (d.apertureAddr e off % 2 ^ 32) d)).answer e { violation := true } := by
  simp [bar2Access, ha, h]

theorem bar2Access_write {e off p : Nat} {d : Dev} (ha : d.arrives e = true) (h : d.apertureHit (d.apertureAddr e off) = some p) (bs : List Byte) :
    bar2Access e off (.write bs) d =
      if d.granted .write (96 + p) e then d.dramWrite (d.apertureAddr e off)
        (bs.take (d.partRoom p (d.apertureAddr e off - (d.part p).1) bs.length))
      else violation .write e (96 + p) (d.apertureAddr e off % 2 ^ 32) d := by
  simp [bar2Access, ha, h]

theorem apertureAccesses : Rules.ApertureAccesses := by
  intro s e off hr a
  refine ⟨fun ha acc => completes_of rfl hr (bar2Access_lost ha), aerAbort_spec e,
    fun ha hm => ⟨fun n => completes_of rfl hr (bar2Access_miss ha hm _), fun bs => completes_of rfl hr (bar2Access_miss ha hm _)⟩,
    fun p ha hp => ⟨fun n => ?_, fun bs => ?_⟩⟩
  · split
    · next hg => exact completes_of rfl hr ((bar2Access_read ha hp n).trans (if_pos hg))
    · next hg => exact completes_of rfl hr ((bar2Access_read ha hp n).trans (if_neg hg))
  · split
    · next hg => exact completes_of rfl hr ((bar2Access_write ha hp bs).trans (if_pos hg))
    · next hg => exact completes_of rfl hr ((bar2Access_write ha hp bs).trans (if_neg hg))

/-- Settles O28: a link-down in its parts, a link-up, and an access through BAR2 by the partition it reaches. -/
theorem hostLinksAndApertures : Obligations.HostLinksAndApertures := ⟨linksOfTheHosts, apertureAccesses⟩

end Sys2Proof.Machine
end

section
/-! PROOF. Start-up step 4, the DOUT monitors and the key sequence (O23). -/
namespace Sys2Proof.Machine

/-! ## Words made of bits -/

/-- A word that holds `f n` at each bit below `n`. -/
theorem bitAt_foldl_bits (f : Nat → Bool) (n k : Nat) :
    bitAt ((List.range n).foldl (fun a i => a + b2n (f i) * 2 ^ i) 0) k = (decide (k < n) && f k) := by
  have h : (List.range n).foldl (fun a i => a + b2n (f i) * 2 ^ i) 0 < 2 ^ n ∧
      ∀ k, bitAt ((List.range n).foldl (fun a i => a + b2n (f i) * 2 ^ i) 0) k = (decide (k < n) && f k) := by
    induction n with
    | zero => exact ⟨Nat.one_pos, fun k => by simp [bitAt]⟩
    | succ n ih =>
      obtain ⟨hlt, hbit⟩ := ih
      rw [List.range_succ, List.foldl_append]
      simp only [List.foldl_cons, List.foldl_nil]
      generalize (List.range n).foldl (fun a i => a + b2n (f i) * 2 ^ i) 0 = a at hlt hbit
      have hput : a + b2n (f n) * 2 ^ n = setBit a n (f n) := by
        have h0 : bits a n 1 = 0 := by unfold bits; rw [Nat.div_eq_of_lt hlt]; rfl
        rw [setBit, putBits, h0, Nat.pow_one, b2n_mod_two]
        omega
      rw [hput]
      refine ⟨putBits_lt _ _ _ _ _ le_rfl (Nat.lt_of_lt_of_le hlt (Nat.pow_le_pow_right (by decide) (Nat.le_succ n))), fun k => ?_⟩
      rw [bitAt_setBit, hbit]
      by_cases hk : k = n
      · subst hk; simp
      · rw [if_neg hk]
        congr 1
        simp only [decide_eq_decide]
        omega
  exact h.2 k

/-- A list that a range makes, with the keys that are left out. -/
theorem isSome_lookup_filterMap {α : Type} (p : Nat → Prop) [DecidablePred p] (g : Nat → α) (xs : List Nat) (k : Nat) :
    (lookup k (xs.filterMap (fun i => if p i then none else some (i, g i)))).isSome = (decide (k ∈ xs) && !decide (p k)) := by
  induction xs with
  | nil => rfl
  | cons i xs ih =>
    rw [List.filterMap_cons]
    by_cases hp : p i
    · simp only [if_pos hp, ih, List.mem_cons]
      by_cases hk : k = i
      · subst hk; simp [hp]
      · simp [hk]
    · simp only [if_neg hp, lookup]
      by_cases hk : i = k
      · subst hk; simp [hp]
      · simp [hk, Ne.symm hk, ih]

/-! ## The monitors of the DOUTs (O23) -/

theorem bitAt_doutMon (d : Dev) {n : Nat} (h : n < 16) : bitAt d.doutMon n = d.doutMonBit n := by
  rw [Dev.doutMon, bitAt_foldl_bits]
  simp [h]

/-- A DOUT is watched exactly while its monitor bit differs from its expected state (R482). -/
theorem lookup_doutDiff_publish (d : Dev) {n : Nat} (h : n < 16) :
    (lookup n (publish d).le.doutDiff).isSome = ((publish d).doutMonBit n != (publish d).doutOn n) := by
  have watched (x : Dev) : (lookup n (doutWatch x).le.doutDiff).isSome = ((doutWatch x).doutMonBit n != (doutWatch x).doutOn n) := by
    have hon : bitAt ((List.range 16).foldl (fun a n => a + b2n (x.doutOn n) * 2 ^ n) 0) n = x.doutOn n := by
      rw [bitAt_foldl_bits]
      simp [h]
    have hm : (doutWatch x).doutMonBit n = x.doutMonBit n := rfl
    have ho : (doutWatch x).doutOn n = x.doutOn n := rfl
    rw [hm, ho]
    unfold doutWatch
    dsimp only
    rw [isSome_lookup_filterMap, hon]
    simp only [List.mem_range, h]
    cases x.doutMonBit n <;> cases x.doutOn n <;> rfl
  exact watched _

/-- A read of DIO_DOUT_MON answers the monitor bits. -/
theorem regRead_doutMon (m : Nat) (d : Dev) : regRead m 0x130204 d = (d.doutMon, d) := rfl

theorem doutFault_of_reached {n t : Nat} {d : Dev} (h : lookup n d.le.doutDiff = some t) (hr : d.ReachesElapsed (t + 800000)) :
    doutFault n d = (passElapsed (t + 800000) d).set DIO_DOUT_FAULT_fault
      (setBit ((passElapsed (t + 800000) d).get DIO_DOUT_FAULT_fault) n true) := by
  unfold doutFault
  rw [h]
  exact if_neg (Nat.not_lt.mpr hr)

/-! ## Start-up step 4 (O23) -/

/-- The areas that pass their checks, with one more power cycle counted (R470). -/
def nvmCounted (bad : Nat) (d : Dev) : Dev := { d with nvm := { nvmCheck bad d.nvm with cycles := (nvmCheck bad d.nvm).cycles + 1 } }

/-- The configuration spaces of both endpoints take the identity (R415). -/
def pcieIdentify (d : Dev) : Dev :=
  let ids (c : PcieCfg) : PcieCfg := { c with vendor := d.nvm.vendor, subVendor := d.nvm.subVendor, subsystem := d.nvm.subsystem }
  { d with host := { d.host with cfgA := ids d.host.cfgA, cfgB := ids d.host.cfgB } }

/-- The registers show what step 4 has read. -/
def nvmShown (bad : Nat) (d : Dev) : Dev :=
  let d := pcieIdentify (((d.set CKP_PWR_STAT_cycles d.nvm.cycles).set BND_MINVER d.nvm.minver).setFlag BND_STAT_key_enrolled (!d.nvm.ownerKey.isEmpty))
  ((d.set NVM_WEAR_spares_used d.nvm.spares).set NVM_WEAR_ring_len d.nvm.ring.length).set NVM_STAT_area_err
    (bits bad 0 4 + b2n d.saveNewest.isNone * 16)

theorem startupNvmRead_of_step {bad : Nat} {d : Dev} (h : d.get CKP_PWR_STAT_step = 3) :
    startupNvmRead bad d = stepDone 4 (((sealMove 3 (sealShow (saveRestore (legalScan (applySettings (nvmShown bad (nvmCounted bad d))))))).bndPut
      .verifying).withBnd (fun b => { b with loading := some 1 })) := by
  unfold startupNvmRead
  rw [if_neg (by simp [h])]
  rfl

theorem nvmCheck_cycles (bad : Nat) (n : NvmSt) : (nvmCheck bad n).cycles = if bitAt bad 3 then 0 else n.cycles := by
  unfold nvmCheck; split_ifs <;> rfl
theorem nvmCheck_settings (bad : Nat) (n : NvmSt) : (nvmCheck bad n).settings = if bitAt bad 0 then [] else n.settings := by
  unfold nvmCheck; split_ifs <;> rfl
theorem nvmCheck_ownerKey (bad : Nat) (n : NvmSt) : (nvmCheck bad n).ownerKey = if bitAt bad 1 then [] else n.ownerKey := by
  unfold nvmCheck; split_ifs <;> rfl
theorem nvmCheck_vendor (bad : Nat) (n : NvmSt) : (nvmCheck bad n).vendor = if bitAt bad 1 then 0 else n.vendor := by
  unfold nvmCheck; split_ifs <;> rfl

@[simp] theorem get_pcieIdentify (d : Dev) (g : Fld) : (pcieIdentify d).get g = d.get g := rfl
@[simp] theorem get_nvmCounted (bad : Nat) (d : Dev) (g : Fld) : (nvmCounted bad d).get g = d.get g := rfl

/-- What step 4 shows of the areas it has read. -/
theorem nvmShown_spec (bad : Nat) (d : Dev) : (nvmShown bad d).get CKP_PWR_STAT_step = d.get CKP_PWR_STAT_step ∧
    (nvmShown bad d).get CKP_PWR_STAT_cycles = d.nvm.cycles % 2 ^ 16 ∧ (nvmShown bad d).flag BND_STAT_key_enrolled = !d.nvm.ownerKey.isEmpty ∧
    (∀ k < 4, bitAt ((nvmShown bad d).get NVM_STAT_area_err) k = bitAt bad k) ∧
    ∀ e < 2, (nvmShown bad d).pcie e =
      { d.pcie e with vendor := d.nvm.vendor, subVendor := d.nvm.subVendor, subsystem := d.nvm.subsystem } := by
  unfold nvmShown
  dsimp only
  refine ⟨?_, ?_, ?_, fun k hk => ?_, fun e he => ?_⟩
  · rw [Dev.get_set_apart _ _ _ _ rfl rfl, Dev.get_set_apart _ _ _ _ rfl rfl, Dev.get_set_apart _ _ _ _ rfl rfl, get_pcieIdentify,
      Dev.setFlag_eq, Dev.get_set_apart _ _ _ _ rfl rfl, Dev.get_set_apart _ _ _ _ rfl rfl, Dev.get_set_apart _ _ _ _ rfl rfl]
  · rw [Dev.get_set_apart _ _ _ _ rfl rfl, Dev.get_set_apart _ _ _ _ rfl rfl, Dev.get_set_apart _ _ _ _ rfl rfl, get_pcieIdentify,
      Dev.setFlag_eq, Dev.get_set_apart _ _ _ _ rfl rfl, Dev.get_set_apart _ _ _ _ rfl rfl, Dev.get_set_same _ _ _ rfl]
    rfl
  · rw [Dev.flag_eq, Dev.get_set_apart _ _ _ _ rfl rfl, Dev.get_set_apart _ _ _ _ rfl rfl, Dev.get_set_apart _ _ _ _ rfl rfl, get_pcieIdentify,
      ← Dev.flag_eq, Dev.flag_setFlag_same _ _ _ rfl rfl]
  · rw [Dev.get_set_same _ _ _ rfl]
    generalize b2n (Option.isNone _) = b
    have low : bits bad 0 4 = bad % 16 := by simp [bits]
    have hw : 2 ^ NVM_STAT_area_err.width = 32 := rfl
    rw [low, hw]
    unfold bitAt
    congr 1
    interval_cases k <;> omega
  · unfold Dev.pcie
    interval_cases e <;> rfl

/-! ## The key sequence (O23) -/

theorem nvmKeyWrite_spec (m v : Nat) (d : Dev) :
    nvmKeyWrite m v d = { d with pwr := { d.pwr with keys := (nvmKeyWrite m v d).pwr.keys } } ∧
    lookup m (nvmKeyWrite m v d).pwr.keys = if v = 0x13579BDF then some (1, d.time.elapsed)
      else if v = 0xECA86420 ∧ (lookup m d.pwr.keys).map (·.1) = some 1 then some (2, d.time.elapsed) else none := by
  unfold nvmKeyWrite keyDisarm
  by_cases h1 : v = 0x13579BDF
  · simp only [if_pos h1]
    exact ⟨trivial, lookup_insertKey_same ..⟩
  · simp only [if_neg h1]
    split
    · next t ht =>
      by_cases h2 : v = 0xECA86420
      · simp only [if_pos h2, ht]
        exact ⟨trivial, (lookup_insertKey_same ..).trans (by simp [h2])⟩
      · simp only [if_neg h2]
        exact ⟨trivial, (lookup_eraseKey_same ..).trans (by simp [h2])⟩
    · next hn =>
      refine ⟨rfl, (lookup_eraseKey_same ..).trans (if_neg ?_).symm⟩
      rintro ⟨-, hm⟩
      obtain ⟨⟨st, t⟩, hl, rfl⟩ := Option.map_eq_some_iff.mp hm
      exact hn t hl

/-- A key that has been armed for 1 ms disarms. -/
theorem nvmKeyExpire_of_reached {m t : Nat} {d : Dev} (h : lookup m d.pwr.keys = some (2, t)) (hr : d.ReachesElapsed (t + 4000000)) :
    nvmKeyExpire m d = keyDisarm m (passElapsed (t + 4000000) d) := by
  have hk : (passElapsed (t + 4000000) d).pwr.keys = d.pwr.keys := by rw [passElapsed_rest]
  unfold nvmKeyExpire
  rw [h]
  refine if_neg ?_
  unfold Dev.keyArmed
  rw [hk, h]
  simpa using hr

theorem nvmKeyExpire_unarmed {m : Nat} {d : Dev} (h : ∀ t, lookup m d.pwr.keys ≠ some (2, t)) : nvmKeyExpire m d = d := by
  unfold nvmKeyExpire
  split
  · next t ht => exact absurd ht (h t)
  · rfl

theorem keySequenceArms : Rules.KeySequenceArms := by
  intro s m hr
  refine ⟨fun v hw => ⟨_, completes_of rfl hr ((regCmd_of_writes_key hw (.inl rfl)).trans ?_), (nvmKeyWrite_spec m v.toNat s.dev).1, ?_⟩,
    fun t ht hre => ⟨_, completes_of rfl hr (nvmKeyExpire_of_reached ht hre), lookup_eraseKey_same _ _, hre⟩,
    fun h => completes_of rfl hr (nvmKeyExpire_unarmed h)⟩
  · rfl
  · rw [(nvmKeyWrite_spec m v.toNat s.dev).2]
    simp only [← BitVec.toNat_inj]
    rfl

theorem startupReadsTheNvm : Rules.StartupReadsTheNvm := by
  intro s hr
  refine ⟨fun bad h3 => ?_, fun bad h3 => settles_of rfl hr (if_pos (by simp [h3])), fun ok mib => settles_of rfl hr ?_, fun n t ht hre => ?_,
    fun n hn => settles_of rfl hr ?_, fun n hn => lookup_doutDiff_publish _ hn, fun m w hv => ⟨completes_of rfl hr ?_, fun n hn => ?_⟩,
    fun t => completes_of rfl hr ?_⟩
  · obtain ⟨hst, hcy, hkey, herr, hid⟩ := nvmShown_spec bad (nvmCounted bad s.dev)
    refine ⟨nvmShown bad (nvmCounted bad s.dev), ?_, ?_, hcy, ?_, ?_, hkey, herr, ?_, fun e he => hid e he,
      settles_of rfl hr (startupNvmRead_of_step h3)⟩
    · rw [hst, get_nvmCounted, h3]
    · exact congrArg (· + 1) (nvmCheck_cycles _ _)
    · exact nvmCheck_settings _ _
    · exact nvmCheck_ownerKey _ _
    · exact nvmCheck_vendor _ _
  · simp [ddrTrained]
  · refine ⟨_, settles_of rfl hr (doutFault_of_reached ht hre), ⟨fun k hk => ?_, ?_⟩, fun k hk => ?_⟩
    · rw [Dev.word_mk, regWord_regs, Dev.word_set_ne _ DIO_DOUT_FAULT_fault _ hk, word_passElapsed]
    · rw [passElapsed_rest]
      rfl
    · rw [Dev.bitAt_get_setBit _ _ _ _ rfl n.isLt, get_passElapsed]
      by_cases h : k = n.val <;> simp [h]
  · unfold doutFault
    rw [hn]
  · rw [busRead_of_pass w hv (by decide) (by decide), regRead_doutMon]
  · rw [bitAt_doutMon _ hn]; rfl
  · unfold tapInstruction TapSt.selects
    cases s.dev.tap.testMode <;> cases t <;> rfl

/-- Settles O23: step 4 by what it reads and shows, the DOUTs by their watch, the key by its sequence. -/
theorem startupAndItsKeys : Obligations.StartupAndItsKeys := ⟨startupReadsTheNvm, keySequenceArms⟩

end Sys2Proof.Machine
end

section
/-! PROOF. Writes of plain registers, and writes that are denied (O13). -/
namespace Sys2Proof.Machine

/-! ## Plain registers -/

/-! Whether a block gives a register's write an effect of its own depends on the register alone. -/

theorem isNone_writeA (c : Ctx) (m base i v : Nat) : (writeA c m base i v).isNone = (writeA {} 0 base i 0).isNone := by
  unfold writeA
  split <;> simp only [Option.isNone_some]

theorem isNone_writeB (base i j v : Nat) (w : Dev → Dev) : (writeB base i j v w).isNone = (writeB base i 0 0 id).isNone := by
  unfold writeB
  split <;> simp only [Option.isNone_some]

theorem isNone_writeC (m base i v : Nat) (w : Dev → Dev) : (writeC m base i v w).isNone = (writeC 0 base i 0 id).isNone := by
  unfold writeC
  split <;> simp only [Option.isNone_some]

theorem isNone_writeD (c : Ctx) (m base i v : Nat) (w : Dev → Dev) (word : Dev → Nat) :
    (writeD c m base i v w word).isNone = (writeD {} 0 base i 0 id (fun _ => 0)).isNone := by
  unfold writeD
  split <;> simp only [apply_ite Option.isNone, Option.isNone_some]

theorem isNone_writeE (m base i j v : Nat) (w : Dev → Dev) : (writeE m base i j v w).isNone = (writeE 0 base i 0 0 id).isNone := by
  unfold writeE
  split <;> simp only [apply_ite Option.isNone, Option.isNone_some]

/-- A write of a plain register acts by the access types alone. -/
theorem regWrite_of_plain {off : Nat} {r : RegRow} {ix : List Nat} (h : findRow off = some (r, ix)) (hp : plainRegister off = true)
    (c : Ctx) (m v : Nat) (d : Dev) : regWrite c m off v d = rowWrite r m off v d := by
  unfold plainRegister at hp
  rw [h] at hp
  simp only [Bool.and_eq_true, beq_iff_eq, Bool.not_eq_true', Bool.and_eq_false_iff, beq_eq_false_iff_ne, decide_eq_false_iff_not] at hp
  obtain ⟨⟨hg, hflt⟩, hn⟩ := hp
  unfold regWrite
  rw [h]
  dsimp only
  rw [if_neg (by simp; omega)]
  have special : (if off < 0x40000 then writeA c m r.base (ix.headD 0) v
      else if off < 0x60000 then writeB r.base (ix.headD 0) (ix.getD 1 0) v (rowWrite r m off v)
      else if off < 0xA0000 then writeC m r.base (ix.headD 0) v (rowWrite r m off v)
      else if off < 0x100000 then writeD c m r.base (ix.headD 0) v (rowWrite r m off v) (fun d => newWord false r (d.word off).toNat v)
      else writeE m r.base (ix.headD 0) (ix.getD 1 0) v (rowWrite r m off v)) = none := by
    rw [← Option.isNone_iff_eq_none]
    simp only [apply_ite Option.isNone, isNone_writeA c, isNone_writeB, isNone_writeC m, isNone_writeD c, isNone_writeE m]
    exact hn
  rw [special, hg]
  rfl

/-- A write changes its register, and beside it only the two words that count the writes of RWB fields (R46). -/
theorem word_rowWrite_ne (r : RegRow) (m off v : Nat) (d : Dev) {k : Nat} (hk : k ≠ r.keyFor m off) (h1 : k ≠ BND_RWB_DROP.key)
    (h2 : k ≠ BND_RWB_LAST_offset.key) : (rowWrite r m off v d).word k = d.word k := by
  unfold rowWrite
  dsimp only
  split
  · rw [Dev.word_set_ne _ BND_RWB_LAST_master _ h2, Dev.word_set_ne _ BND_RWB_LAST_offset _ h2, Dev.inc_eq, Dev.word_set_ne _ _ _ h1,
      Dev.word_putWord_ne _ _ hk]
  · exact Dev.word_putWord_ne _ _ hk

theorem plainWriteActsByItsTypes : Rules.PlainWriteActsByItsTypes := by
  intro s m off v r ix hr h4 ho hb hrow hp hw
  exact ⟨settles_of rfl hr ((busWrite_of_writes hw ho h4 hb).trans (regWrite_of_plain hrow hp _ _ _ _)),
    fun k hk h1 h2 => word_rowWrite_ne _ _ _ _ _ hk h1 h2⟩

/-! ## Denied writes -/

theorem Dev.word_set_whole (d : Dev) (f : Fld) (v : Nat) (hl : f.lo = 0) (hw : f.width = 32) : (d.set f v).word f.key = BitVec.ofNat 32 v := by
  unfold Dev.set
  rw [Dev.word_putWord_same, hl, hw]
  apply BitVec.eq_of_toNat_eq
  have := putBits_eq (d.word f.key).toNat 0 32 v
  simp only [BitVec.toNat_ofNat, this]
  have hlt := (d.word f.key).isLt
  omega

/-- The record of a violation (R430). -/
def violationWord (k : VKind) (m t : Nat) : Nat := m + k.code * 2 ^ 5 + t % 128 * 2 ^ 8 + 2 ^ 31

/-- What a violation changes before its event. -/
def violationShown (k : VKind) (m t off : Nat) (d : Dev) : Dev :=
  let d := ((d.inc ACT_VIOL_CNT).set ACT_VIOL_LAST0 (violationWord k m t)).set ACT_VIOL_LAST1 off
  if d.flag ACT_VIOL_FIRST0_valid then d else (d.set ACT_VIOL_FIRST0 (violationWord k m t)).set ACT_VIOL_FIRST1 off

theorem violation_eq (k : VKind) (m t off : Nat) (d : Dev) : violation k m t off d = raiseMs 126 (violationShown k m t off d) := rfl

/-- The event of a violation leaves every word outside EVC but the counter of dead crossings. -/
theorem word_violation (k : VKind) (m t off : Nat) (d : Dev) {key : Nat} (h1 : keyBlock key ≠ 0x12) (h2 : key ≠ GCTL_XDROP.key) :
    (violation k m t off d).word key = (violationShown k m t off d).word key := by
  rw [violation_eq]
  exact (eventOnly_raiseMs _ (by decide)).word key h1 h2

theorem word_violationShown_ne (k : VKind) (m t off : Nat) (d : Dev) {key : Nat} (h : keyBlock key ≠ 3) :
    (violationShown k m t off d).word key = d.word key := by
  have ne (f : Fld) (x : Nat) (e : Dev) (hf : keyBlock f.key = 3) : (e.set f x).word key = e.word key :=
    Dev.word_set_ne _ _ _ (fun he => h (he ▸ hf))
  unfold violationShown
  dsimp only
  split
  · rw [ne _ _ _ rfl, ne _ _ _ rfl, Dev.inc_eq, ne _ _ _ rfl]
  · rw [ne _ _ _ rfl, ne _ _ _ rfl, ne _ _ _ rfl, ne _ _ _ rfl, Dev.inc_eq, ne _ _ _ rfl]

/-- The count advances, LAST takes the record, and so does FIRST where it is empty (R430). -/
theorem violationShown_spec (k : VKind) (m t off : Nat) (d : Dev) :
    let e := violationShown k m t off d
    e.get ACT_VIOL_CNT = min (d.get ACT_VIOL_CNT + 1) (2 ^ ACT_VIOL_CNT.width - 1) ∧
    e.word ACT_VIOL_LAST0.key = BitVec.ofNat 32 (violationWord k m t) ∧ e.get ACT_VIOL_LAST1 = off % 2 ^ 32 ∧
    (d.flag ACT_VIOL_FIRST0_valid = false →
      e.word ACT_VIOL_FIRST0.key = BitVec.ofNat 32 (violationWord k m t) ∧ e.get ACT_VIOL_FIRST1 = off % 2 ^ 32) ∧
    (d.flag ACT_VIOL_FIRST0_valid = true →
      e.word ACT_VIOL_FIRST0.key = d.word ACT_VIOL_FIRST0.key ∧ e.word ACT_VIOL_FIRST1.key = d.word ACT_VIOL_FIRST1.key) := by
  have valid : (((d.inc ACT_VIOL_CNT).set ACT_VIOL_LAST0 (violationWord k m t)).set ACT_VIOL_LAST1 off).flag ACT_VIOL_FIRST0_valid =
      d.flag ACT_VIOL_FIRST0_valid := by
    rw [Dev.flag_eq, Dev.get_set_ne _ _ _ _ (by decide), Dev.get_set_ne _ _ _ _ (by decide), Dev.inc_eq, Dev.get_set_ne _ _ _ _ (by decide),
      Dev.flag_eq]
  unfold violationShown
  dsimp only
  rw [valid]
  cases d.flag ACT_VIOL_FIRST0_valid
  · rw [if_neg Bool.false_ne_true]
    refine ⟨?_, ?_, ?_, fun _ => ⟨?_, ?_⟩, fun h => absurd h Bool.false_ne_true⟩
    · rw [Dev.get_set_ne _ _ _ _ (by decide), Dev.get_set_ne _ _ _ _ (by decide), Dev.get_set_ne _ _ _ _ (by decide),
        Dev.get_set_ne _ _ _ _ (by decide), Dev.get_inc_same _ _ rfl]
    · rw [Dev.word_set_ne _ _ _ (by decide), Dev.word_set_ne _ _ _ (by decide), Dev.word_set_ne _ _ _ (by decide),
        Dev.word_set_whole _ _ _ rfl rfl]
    · rw [Dev.get_set_ne _ _ _ _ (by decide), Dev.get_set_ne _ _ _ _ (by decide), Dev.get_set_same _ _ _ rfl]
      rfl
    · rw [Dev.word_set_ne _ _ _ (by decide), Dev.word_set_whole _ _ _ rfl rfl]
    · rw [Dev.get_set_same _ _ _ rfl]
      rfl
  · rw [if_pos rfl]
    refine ⟨?_, ?_, ?_, fun h => absurd h.symm Bool.false_ne_true, fun _ => ⟨?_, ?_⟩⟩
    · rw [Dev.get_set_ne _ _ _ _ (by decide), Dev.get_set_ne _ _ _ _ (by decide), Dev.get_inc_same _ _ rfl]
    · rw [Dev.word_set_ne _ _ _ (by decide), Dev.word_set_whole _ _ _ rfl rfl]
    · rw [Dev.get_set_same _ _ _ rfl]
      rfl
    · rw [Dev.word_set_ne _ _ _ (by decide), Dev.word_set_ne _ _ _ (by decide), Dev.inc_eq, Dev.word_set_ne _ _ _ (by decide)]
    · rw [Dev.word_set_ne _ _ _ (by decide), Dev.word_set_ne _ _ _ (by decide), Dev.inc_eq, Dev.word_set_ne _ _ _ (by decide)]

theorem Dev.arrives_of_denied {d : Dev} {m off v : Nat} {whole : Bool} {k : VKind} (h : d.writeVerdict m off v whole = .deny k) :
    d.arrives m = true := by
  unfold Dev.writeVerdict at h
  split at h
  · cases h
  · split at h
    · cases h
    · next a => simpa using a

/-- A write that a check turns away is recorded and does nothing else but disarm a key (R430, R471). -/
theorem busWrite_of_denied {d : Dev} {c : Ctx} {m off v : Nat} {whole : Bool} {k : VKind} (h : d.writeVerdict m off v whole = .deny k)
    (h4 : off % 4 = 0) (ho : off < 0x140000) : ∃ e : Dev, (∀ key, e.word key = d.word key) ∧
    busWrite c m .bar0 off v whole d = violation k m (off / 0x10000) off e := by
  have e4 : off / 4 * 4 = off := by omega
  have ha := Dev.arrives_of_denied h
  have hk : (keyDisarm m d).writeVerdict m off v whole = .deny k := h
  unfold busWrite bar0Write
  rw [ha, e4]
  dsimp only
  rw [if_neg (by simp), targetOf_reg ho, Option.getD_some]
  generalize (decide (off / 0x10000 = 2) && (off != 0x20100 && off != 0x20104 || d.writeVerdict m off v whole != .pass)) = disarms
  cases disarms
  · exact ⟨d, fun _ => rfl, by simp only [Bool.false_eq_true, if_false, h]⟩
  · exact ⟨keyDisarm m d, fun _ => rfl, by simp only [if_true, hk]⟩

/-- A write without all its byte enables is denied as such, unless a fixed rule denies it (R5, R429). -/
theorem writeVerdict_partial {d : Dev} {m off v : Nat} {k : VKind} (h : d.writeVerdict m off v false = .deny k)
    (hf : d.fixedWrite m off v = false) : k = .partialWrite := by
  unfold Dev.writeVerdict Dev.check at h
  simp only [hf, Bool.false_eq_true, if_false, Bool.not_false, if_true] at h
  split at h
  · cases h
  · split at h
    · cases h
    · split at h <;> split at h <;> cases h <;> rfl

theorem deniedWriteIsDiscarded : Rules.DeniedWriteIsDiscarded := by
  intro s m off t v be k hr h4 ho ht hv
  subst ht
  refine ⟨fun hbe hf => writeVerdict_partial (by rwa [beq_eq_false_iff_ne.mpr hbe] at hv) hf, ?_⟩
  obtain ⟨e, he, hw⟩ := busWrite_of_denied (c := {}) hv h4 ho
  obtain ⟨hc, hl0, hl1, hfree, htaken⟩ := violationShown_spec k m (off / 0x10000) off e
  have hword : violationWord k m (off / 0x10000) = m + k.code * 2 ^ 5 + off / 0x10000 * 2 ^ 8 + 2 ^ 31 := by
    unfold violationWord
    rw [Nat.mod_eq_of_lt (by omega)]
  have hoff : off % 2 ^ 32 = off := Nat.mod_eq_of_lt (by omega)
  have get (f : Fld) : e.get f = s.dev.get f := by unfold Dev.get; rw [he]
  have out {key : Nat} (h1 : keyBlock key = 3) : (violation k m (off / 0x10000) off e).word key = (violationShown k m (off / 0x10000) off e).word key :=
    word_violation _ _ _ _ _ (by rw [h1]; decide) (fun hx => by rw [hx] at h1; exact absurd h1 (by decide))
  have outGet {f : Fld} (h1 : keyBlock f.key = 3) : (violation k m (off / 0x10000) off e).get f = (violationShown k m (off / 0x10000) off e).get f := by
    unfold Dev.get; rw [out h1]
  rw [Dev.flag_eq, get, ← Dev.flag_eq] at hfree htaken
  rw [hword] at hl0 hfree
  rw [hoff] at hl1 hfree
  rw [get] at hc
  rw [he, he] at htaken
  refine ⟨_, settles_of rfl hr hw, ?_, ?_, ?_, fun h => ?_, fun h => ?_, fun key h3 h12 hx => ?_⟩
  · rw [outGet rfl, hc]
  · rw [out rfl, hl0]
  · rw [outGet rfl, hl1]
  · rw [out rfl, outGet rfl]
    exact hfree h
  · rw [out rfl, out rfl]
    exact htaken h
  · rw [word_violation _ _ _ _ _ h12 hx, word_violationShown_ne _ _ _ _ _ h3, he]

end Sys2Proof.Machine
end

section
/-! PROOF. RECOVERY, plain reads and the memory windows (O13). -/
namespace Sys2Proof.Machine

/-! ## RECOVERY and links that are down -/

theorem busWrite_of_lost {d : Dev} {m : Nat} (h : d.arrives m = false) (c : Ctx) (sp : BusSpace) (off v : Nat) (whole : Bool) :
    busWrite c m sp off v whole d = lostAccess m d := by simp [busWrite, h]

theorem busRead_of_lost {d : Dev} {m : Nat} (h : d.arrives m = false) (sp : BusSpace) (off : Nat) (w : Bool) :
    busRead m sp off w d = lostAccess m d := by simp [busRead, h]

/-- In RECOVERY a write beyond GCTL, CKP and BND is void, whatever its byte enables (R43, R429). -/
theorem writeVerdict_recovery {d : Dev} {m off v : Nat} (whole : Bool) (h : d.bndIs .recovery = true) (ho : off < 0x140000)
    (hlo : 0x30000 ≤ off) (hf : d.fixedWrite m off v = false) (hn : writeNeed m off v = .table) : d.writeVerdict m off v whole = .void := by
  have ht : ¬ off / 65536 ≤ 2 := by omega
  simp [Dev.writeVerdict, targetOf_reg ho, hf, hn, Dev.check, Dev.inRecovery, h, ht]

theorem readVerdict_recovery {d : Dev} {m off : Nat} (h : d.bndIs .recovery = true) (ho : off < 0x140000) (hlo : 0x30000 ≤ off)
    (hm : m < 20) : d.readVerdict m off = .void := by
  have ht : ¬ off / 65536 ≤ 2 := by omega
  have h21 : ¬ 21 ≤ m := by omega
  simp [Dev.readVerdict, targetOf_reg ho, Dev.check, Dev.inRecovery, h, ht, h21]

theorem busWrite_of_void {d : Dev} {c : Ctx} {m off v : Nat} {whole : Bool} (h : d.writeVerdict m off v whole = .void) (ha : d.arrives m = true)
    (h4 : off % 4 = 0) (hb : off / 0x10000 ≠ 2) : busWrite c m .bar0 off v whole d = d := by
  have e : off / 4 * 4 = off := by omega
  simp [busWrite, bar0Write, ha, e, hb, h]

theorem busRead_of_void {d : Dev} {m off : Nat} (h : d.readVerdict m off = .void) (ha : d.arrives m = true)
    (h4 : off % 4 = 0) (w : Bool) : busRead m .bar0 off w d = d.answer m {} := by
  have e : off / 4 * 4 = off := by omega
  simp [busRead, bar0Read, ha, e, h]

theorem recoveryAnswersNothingElse : Rules.RecoveryAnswersNothingElse := by
  intro s m off v be w hr hrec h4 hlo ho hm ha
  refine ⟨fun hf hn => settles_of rfl hr (busWrite_of_void (writeVerdict_recovery _ hrec ho hlo hf hn) ha h4 (by omega)),
    completes_of rfl hr (busRead_of_void (readVerdict_recovery hrec ho hlo hm) ha h4 w), fun u sp o hu hl => ⟨?_, ?_⟩⟩
  · exact settles_of rfl hu (busWrite_of_lost hl _ _ _ _ _)
  · exact completes_of rfl hu (busRead_of_lost hl _ _ _)

/-! ## Plain reads -/

/-- One reserved field cleared from a word as it is read. -/
def shownStep (w : Nat) (f : FieldRow) : Nat := if f.acc == .rz then putBits w f.lo f.width 0 else w

theorem bits_shownFold_apart {f : FieldRow} {fs : List FieldRow} (h : ∀ g ∈ fs, g.clear f) (w : Nat) :
    bits (fs.foldl shownStep w) f.lo f.width = bits w f.lo f.width := by
  induction fs generalizing w with
  | nil => rfl
  | cons g gs ih =>
    rw [List.foldl_cons, ih (fun x hx => h x (List.mem_cons_of_mem g hx)), shownStep]
    split
    · exact bits_putBits_apart _ _ _ _ _ _ (h g List.mem_cons_self)
    · rfl

/-- Reserved bits read as zero (R6). -/
theorem bits_shown_rz {r : RegRow} (hs : r.sound = true) {f : FieldRow} (hf : f ∈ r.fields) (hz : f.acc = .rz) (w : Nat) :
    bits (r.shown w) f.lo f.width = 0 := by
  have hp := RegRow.sound_apart hs
  have key (fs : List FieldRow) (hp : fs.Pairwise FieldRow.clear) (hf : f ∈ fs) (w : Nat) : bits (fs.foldl shownStep w) f.lo f.width = 0 := by
    induction fs generalizing w with
    | nil => cases hf
    | cons g gs ih =>
      obtain ⟨hg, hgs⟩ := List.pairwise_cons.mp hp
      rw [List.foldl_cons]
      rcases List.mem_cons.mp hf with rfl | hf'
      · rw [bits_shownFold_apart (fun x hx => (hg x hx).symm), shownStep, if_pos (by simp [hz]), bits_putBits_same, Nat.zero_mod]
      · exact ih hgs hf' _
  exact key r.fields hp hf w

theorem regRead_of_unassigned {off : Nat} (h : findRow off = none) (m : Nat) (d : Dev) : regRead m off d = (0, d) := by
  unfold regRead
  rw [h]

theorem plainReadAnswersItsWord : Rules.PlainReadAnswersItsWord := by
  intro s m off w hr h4 ho hv
  refine ⟨fun r ix hrow htime hbase hlog hmsix hflt hmeas hcond hlow hhigh => ⟨completes_of rfl hr ?_, fun f hf hz => ?_⟩,
    fun hrow _ => completes_of rfl hr ?_⟩
  · rw [busRead_of_pass w hv h4 ho, regRead_of_plainRead hrow ⟨htime, hbase, hlog, hmsix, hflt, hmeas, hcond⟩, if_neg (by simp [hlow]),
      if_neg (by simp [hhigh])]
  · exact bits_shown_rz (findRow_sound hrow) hf hz _
  · rw [busRead_of_pass w hv h4 ho, regRead_of_unassigned hrow]

/-! ## Memory windows -/

theorem toLe_length (n v : Nat) : (toLe n v).length = n := by
  induction n generalizing v with
  | zero => rfl
  | succ n ih => simp [toLe, ih]

theorem ofLe_toLe (n v : Nat) : ofLe (toLe n v) = v % 256 ^ n := by
  induction n generalizing v with
  | zero => simp [toLe, ofLe, Nat.mod_one]
  | succ n ih =>
    rw [toLe, ofLe, ih, BitVec.toNat_ofNat]
    exact ((congrArg (v % ·) Nat.pow_succ').trans Nat.mod_mul).symm

/-- A memory window begins above the registers. -/
theorem window_le {off t : Nat} (h : targetOf off = some t) (ht : 20 ≤ t) : 0x1000000 ≤ off := by
  unfold targetOf at h
  split_ifs at h <;> cases h <;> omega

theorem busWrite_window {d : Dev} {c : Ctx} {m off v t : Nat} (h : d.Writes m off v) (ht : targetOf off = some t) (h20 : 20 ≤ t) (h4 : off % 4 = 0) :
    busWrite c m .bar0 off v true d = windowWrite t off v d := by
  have e : off / 4 * 4 = off := by omega
  have hlo := window_le ht h20
  have hb : off / 65536 ≠ 2 := by omega
  simp [busWrite, bar0Write, e, ht, Dev.arrives_of_pass h.1, h.1, hb, Nat.not_lt.mpr h20]

theorem busRead_window {d : Dev} {m off t : Nat} (h : d.readVerdict m off = .pass) (ht : targetOf off = some t) (h20 : 20 ≤ t) (h4 : off % 4 = 0)
    (w : Bool) : busRead m .bar0 off w d = d.answer m { data := memLe d.win off 4 } := by
  have e : off / 4 * 4 = off := by omega
  have hlo : ¬ off < 1310720 := by have := window_le ht h20; omega
  simp [busRead, bar0Read, e, h, Dev.arrives_of_readPass h, hlo]

/-- The header words of a bank lie above its state. -/
theorem get_bankInfo (b bound : Nat) (ok : Bool) (d : Dev) {g : Fld} (h : g.key < 0xC0048) : (bankInfo b bound ok d).get g = d.get g := by
  unfold bankInfo
  dsimp only
  rw [Dev.get_set_ne _ _ _ _ (by simp only [LGE_PROG_INFO_BOUND]; omega), Dev.get_set_ne _ _ _ _ (by simp only [LGE_PROG_INFO_SIZES]; omega),
    Dev.get_set_ne _ _ _ _ (by simp only [LGE_PROG_INFO_RETAIN]; omega), Dev.get_set_ne _ _ _ _ (by simp only [LGE_PROG_INFO_ID]; omega)]

/-- An accepted write makes its bank UNVERIFIED and leaves the other bank's state (R276). -/
theorem bankTouched_spec {b : Nat} (hb : b < 2) (d : Dev) : (bankTouched b d).win = d.win ∧ (bankTouched b d).get (bankState b) = 0 ∧
    (bankTouched b d).get (bankState (1 - b)) = d.get (bankState (1 - b)) := by
  unfold bankTouched
  refine ⟨rfl, ?_, ?_⟩
  · interval_cases b
    · rw [get_bankInfo _ _ _ _ (by decide), Dev.get_set_same _ _ _ rfl]
      rfl
    · rw [get_bankInfo _ _ _ _ (by decide), Dev.get_set_same _ _ _ rfl]
      rfl
  · interval_cases b
    · rw [get_bankInfo _ _ _ _ (by decide), Dev.get_set_apart _ _ _ _ rfl rfl]
    · rw [get_bankInfo _ _ _ _ (by decide), Dev.get_set_apart _ _ _ _ rfl rfl]

theorem windowsAreReadAndWritten : Rules.WindowsAreReadAndWritten := by
  intro s m off t v hr h4 h20 ht put o
  refine ⟨fun hw => ?_, fun w hv => completes_of rfl hr (busRead_window hv ht h20 h4 w), ?_, fun a ha => ?_⟩
  · have way (x : Dev) (hx : windowWrite t off v.toNat s.dev = x) : exec (.registerWrite m .bar0 off v 15) s = .next (s.settling x) :=
      settles_of rfl hr ((busWrite_window hw ht h20 h4).trans hx)
    refine ⟨fun h => way _ ?_, fun h hl => way _ ?_, fun h hl => ⟨_, way _ rfl, ?_⟩, fun h => way _ ?_, fun h => way _ ?_⟩
    · rcases h with rfl | rfl <;> rfl
    · unfold windowWrite
      rw [if_pos (by simpa using h), if_pos hl]
    · have hwr : windowWrite t off v.toNat s.dev = bankTouched (t - 22) put := by
        unfold windowWrite
        rw [if_pos (by simpa using h), if_neg (by simp [hl])]
      obtain ⟨hwin, hst, hother⟩ := bankTouched_spec (b := t - 22) (by omega) put
      rw [show 1 - (t - 22) = 23 - t by omega] at hother
      rw [hwr]
      exact ⟨hwin, hst, hother⟩
    · subst h
      have hidle : (s.dev.get LGE_STAT_state = 0 ∨ s.dev.get LGE_STAT_state = 4) = (s.dev.leIdle = true) := by simp [Dev.leIdle]
      simp only [hidle]
      rfl
    · subst h
      rfl
  · have h := memReadN_memWriteN_same s.dev.win off (toLe 4 v.toNat)
    rw [toLe_length] at h
    rw [memLe, h, ofLe_toLe]
    exact Nat.mod_eq_of_lt v.isLt
  · exact memRead_memWriteN_out _ _ _ _ (by rwa [toLe_length])

/-- Settles O13, by the verdict on each access: granted to a register or a window, denied, void in RECOVERY, or lost with its link. -/
theorem registerAccesses : Obligations.RegisterAccesses :=
  ⟨plainWriteActsByItsTypes, deniedWriteIsDiscarded, recoveryAnswersNothingElse, plainReadAnswersItsWord, windowsAreReadAndWritten⟩

end Sys2Proof.Machine
end

section
/-! PROOF. Fabric timeouts and dead crossings (O17). -/
namespace Sys2Proof.Machine

/-! ## Devices that differ in named registers alone -/

theorem Dev.SameBut.refl (K : Nat → Prop) (d : Dev) : d.SameBut K d := ⟨fun _ _ => rfl, rfl⟩

/-- Setting a field of a named word keeps the rest. -/
theorem Dev.SameBut.set {K : Nat → Prop} {d e : Dev} (h : d.SameBut K e) (f : Fld) (hf : K f.key) (v : Nat) : d.SameBut K (e.set f v) :=
  ⟨fun k hk => (Dev.word_set_ne e f v (k := k) (fun he => hk (he ▸ hf))).trans (h.1 k hk), congrArg (fun x : Dev => { x with regs := (e.set f v).regs }) h.2⟩

theorem Dev.SameBut.get {K : Nat → Prop} {d e : Dev} (h : d.SameBut K e) {f : Fld} (hf : ¬K f.key) : e.get f = d.get f := by
  unfold Dev.get
  rw [h.1 _ hf]

/-! ## What a fault of the fabric records (R16, R25, R373) -/

/-- Event source 0 and the grid record of a fault. -/
def faultLogged (code p : Nat) (d : Dev) : Dev := gridLog code p 0 0 0 (raise 0 d)

theorem logOnly_faultLogged (code p : Nat) (d : Dev) : LogOnly d (faultLogged code p d) :=
  (logOnly_raise d (by decide)).trans (logOnly_gridLog ..)

theorem word_faultLogged (code p : Nat) (d : Dev) {k : Nat} (h0 : keyBlock k ≠ 0) (hf : keyBlock k ≠ 0xF) (h12 : keyBlock k ≠ 0x12) :
    (faultLogged code p d).word k = d.word k :=
  (logOnly_faultLogged code p d).word k h12 hf (fun e => h0 (e ▸ rfl))

/-- GCTL_FAB_STAT is not written by the record of a fault. -/
theorem get_faultLogged (code p : Nat) (d : Dev) {f : Fld} (h : f.key = GCTL_FAB_STAT_timeout.key) : (faultLogged code p d).get f = d.get f :=
  (logOnly_faultLogged code p d).get f (by rw [h]; decide) (by rw [h]; decide) (by rw [h]; decide)

/-- GCTL_FAB_STAT after a timeout: the block is named where none was. -/
def timeoutShown (b : Nat) (d : Dev) : Dev :=
  if d.flag GCTL_FAB_STAT_timeout then d else (d.setFlag GCTL_FAB_STAT_timeout true).set GCTL_FAB_STAT_block b

theorem sameBut_timeoutShown (b : Nat) (d : Dev) : d.SameBut (fun k => k = GCTL_FAB_STAT_timeout.key) (timeoutShown b d) := by
  unfold timeoutShown
  split
  · exact .refl _ d
  · exact ((Dev.SameBut.refl _ d).set GCTL_FAB_STAT_timeout (by rfl) _).set GCTL_FAB_STAT_block (by rfl) b

theorem flag_timeoutShown (b : Nat) (d : Dev) : (timeoutShown b d).flag GCTL_FAB_STAT_timeout = true := by
  unfold timeoutShown
  split
  · assumption
  · rw [Dev.flag_eq, Dev.get_set_apart _ _ _ _ rfl rfl, ← Dev.flag_eq, Dev.flag_setFlag_same _ _ _ rfl rfl]

theorem block_timeoutShown {b : Nat} (hb : b < 256) (d : Dev) : (timeoutShown b d).get GCTL_FAB_STAT_block =
    if d.flag GCTL_FAB_STAT_timeout then d.get GCTL_FAB_STAT_block else b := by
  unfold timeoutShown
  split
  · rfl
  · rw [Dev.get_set_same _ _ _ rfl]
    exact Nat.mod_eq_of_lt hb

/-- A block is stopped, once. -/
def stopBlock (b : Nat) (d : Dev) : Dev := if d.stopped.contains b then d else { d with stopped := b :: d.stopped }

theorem fabricRecord_eq (b : Nat) (d : Dev) :
    fabricRecord b d = stopBlock b (faultLogged 0x1006 ((timeoutShown b d).get GCTL_FAB_STAT_block) (timeoutShown b d)) := rfl

theorem stopBlock_rest (b : Nat) (d : Dev) : stopBlock b d = { d with stopped := (stopBlock b d).stopped } := by
  unfold stopBlock
  split <;> rfl

theorem contains_stopBlock (b c : Nat) (d : Dev) : (stopBlock b d).stopped.contains c = (c == b || d.stopped.contains c) := by
  unfold stopBlock
  split
  · next h =>
    by_cases hc : c = b
    · simp [hc, List.contains_iff_mem.mp h]
    · simp [hc]
  · rw [List.contains_cons]

theorem get_stopBlock (b : Nat) (d : Dev) (f : Fld) : (stopBlock b d).get f = d.get f := by rw [stopBlock_rest]; rfl

theorem word_stopBlock (b : Nat) (d : Dev) (k : Nat) : (stopBlock b d).word k = d.word k := by rw [stopBlock_rest]; rfl

/-! ## Crossings -/

/-- The bit of one crossing is set or cleared; the others stay. -/
def setXing (b : Nat) (dead : Bool) (d : Dev) : Dev :=
  d.set GCTL_FAB_STAT_dead_xing (setBit (d.get GCTL_FAB_STAT_dead_xing) b dead)

theorem xingDead_setXing {b : Nat} (hb : b < 12) (dead : Bool) (d : Dev) (o : Nat) :
    (setXing b dead d).xingDead o = if o = b then dead else d.xingDead o :=
  Dev.bitAt_get_setBit d _ b dead rfl hb o

theorem sameBut_setXing (b : Nat) (dead : Bool) (d : Dev) : d.SameBut (fun k => k = GCTL_FAB_STAT_dead_xing.key) (setXing b dead d) :=
  (Dev.SameBut.refl _ d).set GCTL_FAB_STAT_dead_xing (by rfl) _

theorem crossingDie_of_alive {b : Nat} {d : Dev} (h : d.xingDead b = false) :
    crossingDie b d = (let x := faultLogged 0x1007 ((setXing b true d).get GCTL_FAB_STAT_dead_xing) (setXing b true d)
      if b = 7 then memLost x else x) := by
  unfold crossingDie
  rw [if_neg (by simp [h])]
  rfl

theorem crossingDie_of_dead {b : Nat} {d : Dev} (h : d.xingDead b = true) : crossingDie b d = d := by
  unfold crossingDie
  rw [if_pos h]

/-! ## The obligation -/

/-- Settles O17: a timeout by the three parts of `fabricRecord`, a crossing by its one bit. -/
theorem fabricFaultsAreRecorded : Obligations.FabricFaultsAreRecorded := by
  intro s hr
  refine ⟨fun b => ?_, fun b => ⟨fun h => ?_, fun ha hc => ?_⟩, fun b => ?_⟩
  · have hl := logOnly_faultLogged 0x1006 ((timeoutShown b s.dev).get GCTL_FAB_STAT_block) (timeoutShown b s.dev)
    have hs := sameBut_timeoutShown b s.dev
    refine ⟨fabricRecord b s.dev, timeoutShown b s.dev, hs, flag_timeoutShown b s.dev, block_timeoutShown (by omega) _, ?_, fun c => ?_, ?_,
      fun k h0 hf h12 => ?_, settles_of rfl hr rfl⟩
    · rw [fabricRecord_eq]
      exact stopBlock_rest ..
    · rw [fabricRecord_eq, contains_stopBlock, hl.rest, hs.2]
    · rw [fabricRecord_eq, Dev.flag_eq, get_stopBlock, get_faultLogged _ _ _ rfl, ← Dev.flag_eq, flag_timeoutShown]
    · rw [fabricRecord_eq, word_stopBlock, word_faultLogged _ _ _ h0 hf h12]
      exact hs.1 k (fun e => h0 (e ▸ rfl))
  · refine settles_of rfl hr ?_
    rcases h with h | ⟨h, h9⟩ <;> unfold crossingLost
    · rw [crossingDie_of_dead h, ite_self]
    · rw [if_pos (by simp [h, h9])]
  · have hx (o : Nat) : (faultLogged 0x1007 ((setXing b true s.dev).get GCTL_FAB_STAT_dead_xing) (setXing b true s.dev)).xingDead o =
        if o = b.val then true else s.dev.xingDead o := by
      rw [← xingDead_setXing b.isLt]
      exact congrArg (bitAt · o) (get_faultLogged _ _ _ rfl)
    refine ⟨_, setXing b true s.dev, sameBut_setXing b true s.dev, ?_, rfl, settles_of rfl hr ?_, (hx b).trans (if_pos rfl),
      fun o _ hne => (hx o).trans (if_neg hne), fun k h0 hf h12 => ?_⟩
    · rw [xingDead_setXing b.isLt, if_pos rfl]
    · have : (s.dev.xingRuns b && b.val != 9) = false := by rcases hc with h | h <;> simp [h]
      unfold crossingLost
      rw [if_neg (by simp [this]), crossingDie_of_alive ha]
      rfl
    · exact (word_faultLogged _ _ _ h0 hf h12).trans ((sameBut_setXing b true s.dev).1 k (fun e => h0 (e ▸ rfl)))
  · refine ⟨crossingReturn b s.dev, settles_of rfl hr rfl, ?_, fun o _ hne => ?_, fun k hk => ?_⟩ <;> unfold crossingReturn <;> split
    · next h => rw [show crossingRevive b s.dev = setXing b false s.dev from rfl, xingDead_setXing b.isLt, if_pos rfl, h]; rfl
    · next h => rw [Bool.eq_false_iff.mpr h]; rfl
    · exact (xingDead_setXing b.isLt false s.dev o).trans (if_neg hne)
    · rfl
    · exact (sameBut_setXing b false s.dev).1 k hk
    · rfl

end Sys2Proof.Machine
end

section
/-! PROOF. The headroom of the rings and the core voltage (O18). -/
namespace Sys2Proof.Machine

/-! ## Signed fields -/

/-- An integer that fits a field is read back from it. -/
theorem toInt_ofInt {w : Nat} {x : Int} (hlo : -(2 ^ w : Nat) ≤ 2 * x) (hhi : 2 * x < (2 ^ w : Nat)) : toInt w (ofInt w x) = x := by
  cases w with
  | zero =>
    have : x = 0 := by rw [Nat.pow_zero] at hlo hhi; omega
    subst this
    rfl
  | succ w =>
    unfold toInt ofInt
    rw [Nat.add_sub_cancel]
    rw [Nat.pow_succ] at *
    have hp : 0 < 2 ^ w := Nat.two_pow_pos w
    generalize 2 ^ w = p at *
    rcases Int.lt_or_le x 0 with hx | hx
    · have e : x % ((p * 2 : Nat) : Int) = x + ((p * 2 : Nat) : Int) := by
        rw [← Int.add_emod_right, Int.emod_eq_of_lt (by omega) (by omega)]
      rw [e, Nat.mod_eq_of_lt (by omega), if_neg (by omega)]
      omega
    · rw [Int.emod_eq_of_lt hx (by omega), Nat.mod_eq_of_lt (by omega), if_pos (by omega)]
      omega

theorem ofInt_lt (w : Nat) (x : Int) : ofInt w x < 2 ^ w := by
  have hp : 0 < 2 ^ w := Nat.two_pow_pos w
  have := Int.emod_lt_of_pos x (b := ((2 ^ w : Nat) : Int)) (by omega)
  have := Int.emod_nonneg x (b := ((2 ^ w : Nat) : Int)) (by omega)
  unfold ofInt
  omega

theorem Dev.getI_setI_same (d : Dev) (f : Fld) {x : Int} (hf : f.inWord = true) (hlo : -(2 ^ f.width : Nat) ≤ 2 * x)
    (hhi : 2 * x < (2 ^ f.width : Nat)) : (d.setI f x).getI f = x := by
  unfold Dev.getI
  rw [Dev.setI_eq, Dev.get_set_same d f _ hf, Nat.mod_eq_of_lt (ofInt_lt ..), toInt_ofInt hlo hhi]

theorem clampI_bounds {lo hi : Int} (h : lo ≤ hi) (x : Int) : lo ≤ clampI lo hi x ∧ clampI lo hi x ≤ hi := by
  unfold clampI
  split
  · omega
  · split <;> omega

/-! ## The least of a list of numbers -/

/-- The place that a search for the least stands at after some places. -/
theorem foldl_least (f : Nat → Int) (xs : List Nat) (b : Nat) :
    let r := xs.foldl (fun b i => if f i < f b then i else b) b
    f r ≤ f b ∧ (∀ i ∈ xs, f r ≤ f i) ∧ (r = b ∨ r ∈ xs) := by
  induction xs generalizing b with
  | nil => exact ⟨le_rfl, fun i hi => (List.not_mem_nil hi).elim, .inl rfl⟩
  | cons x xs ih =>
    obtain ⟨hle, hall, hmem⟩ := ih (if f x < f b then x else b)
    simp only [List.foldl_cons]
    generalize hr : xs.foldl (fun b i => if f i < f b then i else b) (if f x < f b then x else b) = r at *
    have step : f (if f x < f b then x else b) ≤ f b ∧ f (if f x < f b then x else b) ≤ f x := by
      split <;> omega
    refine ⟨hle.trans step.1, fun i hi => ?_, ?_⟩
    · rcases List.mem_cons.mp hi with rfl | hi
      · exact hle.trans step.2
      · exact hall i hi
    · rcases hmem with h | h
      · split at h
        · exact .inr (h ▸ List.mem_cons_self)
        · exact .inl h
      · exact .inr (List.mem_cons_of_mem x h)

/-! ## The measurement (R28, R31) -/

/-- The headroom of ring `i`, as its field holds it. -/
def ringShown (counts floor : List Nat) (i : Nat) : Int := clampI (-32768) 32767 (ringHeadroom (counts.getD i 0) (floor.getD i 1))

theorem ringShown_bounds (counts floor : List Nat) (i : Nat) : -32768 ≤ ringShown counts floor i ∧ ringShown counts floor i ≤ 32767 :=
  clampI_bounds (by decide) _

/-- Every ring shows its own headroom. -/
theorem getI_forN_ring (h : Nat → Int) (hb : ∀ i, -32768 ≤ h i ∧ h i ≤ 32767) (n : Nat) (d : Dev) :
    ∀ i < n, (forN n (fun i d => d.setI (GCTL_HDRM_RING_headroom i) (h i)) d).getI (GCTL_HDRM_RING_headroom i) = h i := by
  refine forN_ind (P := fun n e => ∀ i < n, e.getI (GCTL_HDRM_RING_headroom i) = h i) (fun i hi => absurd hi (Nat.not_lt_zero i)) ?_
  intro j _ e he i hi
  by_cases hij : i = j
  · subst hij
    have := hb i
    exact Dev.getI_setI_same e _ rfl (by simp only [GCTL_HDRM_RING_headroom]; omega) (by simp only [GCTL_HDRM_RING_headroom]; omega)
  · unfold Dev.getI
    rw [Dev.setI_eq, Dev.get_set_ne _ _ _ _ (by simp only [GCTL_HDRM_RING_headroom]; omega)]
    exact he i (by omega)

/-- The published headroom: the value, its ring, and that it is valid. -/
def headroomShown (h : Int) (ring : Nat) (d : Dev) : Dev := ((d.setI GCTL_HDRM_headroom h).set GCTL_HDRM_ring ring).setFlag GCTL_HDRM_valid true

theorem headroomShown_spec {h : Int} {ring : Nat} (hb : -32768 ≤ h ∧ h ≤ 32767) (hr : ring < 8) (d : Dev) :
    let e := headroomShown h ring d
    e.getI GCTL_HDRM_headroom = h ∧ e.get GCTL_HDRM_ring = ring ∧ e.flag GCTL_HDRM_valid = true := by
  refine ⟨?_, ?_, Dev.flag_setFlag_same _ _ _ rfl rfl⟩
  · unfold headroomShown Dev.getI
    rw [Dev.setFlag_eq, Dev.get_set_apart _ _ _ _ rfl rfl, Dev.get_set_apart _ _ _ _ rfl rfl]
    exact Dev.getI_setI_same d _ rfl (by simp only [GCTL_HDRM_headroom]; omega) (by simp only [GCTL_HDRM_headroom]; omega)
  · unfold headroomShown
    rw [Dev.setFlag_eq, Dev.get_set_apart _ _ _ _ rfl rfl, Dev.get_set_same _ _ _ rfl]
    exact Nat.mod_eq_of_lt hr

/-- A headroom that becomes negative sets low and raises event source 1 (R31). -/
def headroomWarn (c : Bool) (d : Dev) : Dev := if c then raise 1 (d.setFlag GCTL_HDRM_low true) else d

theorem get_headroomWarn (c : Bool) (d : Dev) {f : Fld} (hk : keyBlock f.key = 0) (hx : f.key ≠ GCTL_XDROP.key) (ha : GCTL_HDRM_low.apart f = true) :
    (headroomWarn c d).get f = d.get f := by
  unfold headroomWarn
  split
  · rw [get_raise _ _ (by decide) (by rw [hk]; decide) hx, Dev.setFlag_eq, Dev.get_set_apart _ _ _ _ rfl ha]
  · rfl

/-- The headrooms of the eight rings. -/
def ringHeadrooms (counts floor : List Nat) : List Int := (List.range 8).map (ringShown counts floor)

theorem getD_ringHeadrooms (counts floor : List Nat) {i : Nat} (hi : i < 8) : (ringHeadrooms counts floor).getD i 0 = ringShown counts floor i := by
  simp [ringHeadrooms, List.getD_eq_getElem?_getD, hi]

theorem getD_ringHeadrooms_bounds (counts floor : List Nat) (i : Nat) :
    -32768 ≤ (ringHeadrooms counts floor).getD i 0 ∧ (ringHeadrooms counts floor).getD i 0 ≤ 32767 := by
  by_cases hi : i < 8
  · rw [getD_ringHeadrooms counts floor hi]
    exact ringShown_bounds counts floor i
  · rw [List.getD_eq_default _ _ (by simp [ringHeadrooms]; omega)]
    decide

/-- The lowest of the rings with the least headroom. -/
def leastRing (hs : List Int) : Nat := (List.range 8).foldl (fun b i => if hs.getD i 0 < hs.getD b 0 then i else b) 0

theorem leastRing_spec (hs : List Int) : leastRing hs < 8 ∧ ∀ i < 8, hs.getD (leastRing hs) 0 ≤ hs.getD i 0 := by
  obtain ⟨-, hall, hmem⟩ := foldl_least (fun i => hs.getD i 0) (List.range 8) 0
  refine ⟨?_, fun i hi => hall i (List.mem_range.mpr hi)⟩
  rcases hmem with h | h
  · exact h.trans_lt (by decide)
  · exact List.mem_range.mp h

/-- The measurement on a device with floor counts, in its parts. -/
theorem headroomMeasure_of_floor {counts : List Nat} {d : Dev} (hr : d.hdrmRuns = true) (hl : d.nvm.floor.length = 8)
    (hf : ∀ f ∈ d.nvm.floor, f ≠ 0) : let hs := ringHeadrooms counts d.nvm.floor
    ∃ (c : Bool) (x : Dev), headroomMeasure counts d = headroomWarn c (headroomShown (hs.getD (leastRing hs) 0) (leastRing hs)
      (forN 8 (fun i d => d.setI (GCTL_HDRM_RING_headroom i) (hs.getD i 0)) x)) := by
  have hn : (forN 8 (fun i d => d.set (GCTL_HDRM_RING_count i) (counts.getD i 0)) d).nvm = d.nvm :=
    forN_keeps (P := fun e => e.nvm = d.nvm) (fun _ _ e he => (Dev.nvm_set e _ _).trans he) d rfl
  unfold headroomMeasure
  rw [if_neg (by simp [hr])]
  generalize forN 8 (fun i d => d.set (GCTL_HDRM_RING_count i) (counts.getD i 0)) d = x at hn
  dsimp only
  rw [hn, if_neg (by simpa [hl] using fun h => hf 0 h rfl)]
  exact ⟨_, x, rfl⟩

theorem headroomIsTheLeastOfTheRings : Rules.HeadroomIsTheLeastOfTheRings := by
  intro s counts hr
  refine ⟨fun h => completes_of rfl hr (if_pos ?_), fun href hco hl hf => ?_⟩
  · rcases h with h | h <;> simp [Dev.hdrmRuns, h]
  · obtain ⟨c, x, he⟩ := headroomMeasure_of_floor (counts := counts) (by simp [Dev.hdrmRuns, href, hco]) hl hf
    have hrings := getI_forN_ring _ (getD_ringHeadrooms_bounds counts s.dev.nvm.floor) 8 x
    obtain ⟨hb, hleast⟩ := leastRing_spec (ringHeadrooms counts s.dev.nvm.floor)
    have hbd := getD_ringHeadrooms_bounds counts s.dev.nvm.floor (leastRing (ringHeadrooms counts s.dev.nvm.floor))
    have hring (i : Nat) (hi : i < 8) := getD_ringHeadrooms counts s.dev.nvm.floor hi
    generalize ringHeadrooms counts s.dev.nvm.floor = hs at *
    generalize forN 8 (fun i d => d.setI (GCTL_HDRM_RING_headroom i) (hs.getD i 0)) x = y at *
    obtain ⟨hval, hname, hvalid⟩ := headroomShown_spec hbd hb y
    have ringKept (i : Nat) (hi : i < 8) :
        (headroomWarn c (headroomShown (hs.getD (leastRing hs) 0) (leastRing hs) y)).getI (GCTL_HDRM_RING_headroom i) = hs.getD i 0 := by
      rw [← hrings i hi]
      unfold Dev.getI
      rw [get_headroomWarn _ _ (by simp only [keyBlock, GCTL_HDRM_RING_headroom, masterSpan]; omega)
        (by simp only [GCTL_HDRM_RING_headroom, GCTL_XDROP]; omega) (Fld.apart_of_key (by simp only [GCTL_HDRM_RING_headroom, GCTL_HDRM_low]; omega))]
      unfold headroomShown
      rw [Dev.setFlag_eq, Dev.get_set_ne _ _ _ _ (by simp only [GCTL_HDRM_RING_headroom, GCTL_HDRM_valid]; omega),
        Dev.get_set_ne _ _ _ _ (by simp only [GCTL_HDRM_RING_headroom, GCTL_HDRM_ring]; omega), Dev.setI_eq,
        Dev.get_set_ne _ _ _ _ (by simp only [GCTL_HDRM_RING_headroom, GCTL_HDRM_headroom]; omega)]
    have valKept : (headroomWarn c (headroomShown (hs.getD (leastRing hs) 0) (leastRing hs) y)).getI GCTL_HDRM_headroom =
        hs.getD (leastRing hs) 0 := by
      refine Eq.trans ?_ hval
      unfold Dev.getI
      rw [get_headroomWarn _ _ rfl (by decide) rfl]
    have nameKept : (headroomWarn c (headroomShown (hs.getD (leastRing hs) 0) (leastRing hs) y)).get GCTL_HDRM_ring = leastRing hs :=
      (get_headroomWarn _ _ rfl (by decide) rfl).trans hname
    refine ⟨_, completes_of rfl hr he, ?_, fun i hi => ?_, fun i hi => ?_, ?_, ?_⟩
    · rw [Dev.flag_eq, get_headroomWarn _ _ rfl (by decide) rfl]
      exact hvalid
    · rw [ringKept i hi, hring i hi]
      rfl
    · rw [valKept, ringKept i hi]
      exact hleast i hi
    · rw [nameKept]
      exact hb
    · rw [nameKept, valKept, ringKept _ hb]

/-! ## The core voltage (R29-R31, R457-R459) -/

/-- An evaluation that runs, in the order of its conditions. -/
theorem avsEvaluate_of_runs {d : Dev} (he : d.flag GCTL_AVS_CFG_enable = true) (hr : d.hdrmRuns = true) (hs : d.avs.stepping = none) :
    avsEvaluate d =
      let margin : Int := 5 * d.get GCTL_AVS_CFG_margin
      let h := d.getI GCTL_HDRM_headroom
      if !d.flag GCTL_HDRM_valid || h < margin then avsRequest (5 * d.get GCTL_AVS_CFG_up_step) { d with avs := { d.avs with goodRun := 0 } }
      else if d.avs.retry.isSome then { d with avs := { d.avs with stepping := d.avs.retry, retry := none } }
      else if h < margin + 5 * d.get GCTL_AVS_CFG_hysteresis then { d with avs := { d.avs with goodRun := 0 } }
      else if d.avs.goodRun + 1 < 16 then { d with avs := { d.avs with goodRun := d.avs.goodRun + 1 } }
      else avsRequest (-(5 * (d.get GCTL_AVS_CFG_down_step : Int))) { d with avs := { d.avs with goodRun := 0 } } := by
  unfold avsEvaluate
  rw [if_neg (by simp [he, hr, hs])]

/-- A change of the core voltage starts from the last completed request; one equal to it is not sent, and a change upwards never lowers the
voltage (R30, log entry 114). -/
theorem avsRequest_of_request {d : Dev} (δ : Int) (h : d.avs.request ≠ 0) :
    avsRequest δ { d with avs := { d.avs with goodRun := 0 } } =
      let v := natOf (clampI (d.get CKP_AVS_LIM_vmin_mv) (d.get CKP_AVS_LIM_vmax_mv) ((d.avs.request : Int) + δ))
      { d with avs := if v = d.avs.request ∨ (0 ≤ δ ∧ v ≤ d.avs.request) then { d.avs with goodRun := 0 }
        else { d.avs with stepping := some v, goodRun := 0, retry := none } } := by
  unfold avsRequest
  simp only [if_neg h, Dev.get_mk, regGet_regs, Bool.or_eq_true, Bool.and_eq_true, decide_eq_true_eq]
  generalize natOf _ = v
  by_cases c : v = d.avs.request ∨ 0 ≤ δ ∧ v ≤ d.avs.request
  · rw [if_pos c, if_pos c]
  · rw [if_neg c, if_neg c]

/-- A poll of a step that runs: the voltage is shown, and the step is complete within 5 mV of its request (R458). -/
theorem avsPoll_of_stepping {d : Dev} {v : Nat} (mv : Nat) (hs : d.avs.stepping = some v) (hr : d.hdrmRuns = true) :
    avsPoll mv d = { d.set CKP_AVS_STAT_vout_mv mv with
      avs := if v ≤ mv + 5 && mv ≤ v + 5 then { d.avs with stepping := none, request := v, failures := 0 } else d.avs } := by
  unfold avsPoll
  simp only [hs, hr, Bool.not_true, Bool.false_eq_true, if_false]
  split <;> rfl

/-- A failed step is counted and retried later; the third in a row switches the loop off (R459). -/
theorem avsFail_of_stepping {d : Dev} (hs : d.avs.stepping.isSome = true) (hr : d.hdrmRuns = true) :
    avsFail d = if 3 ≤ d.avs.failures + 1 then
        raise 8 ((({ d with avs := { d.avs with stepping := none, failures := 0 } }).setFlag GCTL_AVS_CFG_enable false).setFlag CKP_AVS_STAT_fault true)
      else { d with avs := { d.avs with stepping := none, failures := d.avs.failures + 1, retry := d.avs.stepping } } := by
  unfold avsFail
  rw [if_neg (by simp [hr, Option.isSome_iff_ne_none.mp hs])]

theorem regCmd_hdrmLow {d : Dev} {m : Nat} (h : d.Writes m 0x100 (2 ^ 29)) : regCmd m 0x100 (2 ^ 29) d = hdrmLowClear d :=
  regCmd_of_writes h (by decide) (by decide) (by decide)

theorem coreVoltageCommands : Rules.CoreVoltageCommands := by
  intro s hr
  have runs (h1 : s.dev.refOk = true) (h2 : s.dev.coast = false) : s.dev.hdrmRuns = true := by simp [Dev.hdrmRuns, h1, h2]
  refine ⟨fun m hw => completes_of rfl hr (regCmd_hdrmLow hw), fun he h1 h2 hs hq hlow => ?_, fun he h1 h2 hs hv => ⟨fun v hm ht => ?_,
    fun ht hm hh => ?_, fun ht hh hg => ?_, fun ht hh hg hq hd => ?_⟩, fun mv v hs h1 h2 => ?_, fun hs h1 h2 => ?_, fun rail => completes_of rfl hr rfl⟩
  · refine completes_of rfl hr ?_
    rw [avsEvaluate_of_runs he (runs h1 h2) hs]
    refine (if_pos (by simpa using hlow)).trans ((avsRequest_of_request _ hq).trans (congrArg (fun a => { s.dev with avs := a }) ?_))
    generalize natOf _ = v
    by_cases hle : v ≤ s.dev.avs.request
    · rw [if_pos (.inr ⟨by omega, hle⟩), if_pos hle, if_pos hle, ← hs]
    · rw [if_neg (by omega), if_neg hle, if_neg hle]
  · refine completes_of rfl hr ?_
    rw [avsEvaluate_of_runs he (runs h1 h2) hs]
    simp [hv, not_lt.mpr hm, ht]
  · refine completes_of rfl hr ?_
    rw [avsEvaluate_of_runs he (runs h1 h2) hs]
    simp [hv, not_lt.mpr hm, ht, hh]
  · refine completes_of rfl hr ?_
    rw [avsEvaluate_of_runs he (runs h1 h2) hs]
    have hm : ¬ s.dev.getI GCTL_HDRM_headroom < 5 * (s.dev.get GCTL_AVS_CFG_margin : Int) := by omega
    simp [hv, hm, ht, not_lt.mpr hh, hg]
  · refine completes_of rfl hr ?_
    rw [avsEvaluate_of_runs he (runs h1 h2) hs]
    have hm : ¬ s.dev.getI GCTL_HDRM_headroom < 5 * (s.dev.get GCTL_AVS_CFG_margin : Int) := by omega
    have hg' : ¬ s.dev.avs.goodRun + 1 < 16 := Nat.not_lt.mpr (Nat.add_le_add_right hg 1)
    refine (if_neg (by simp [hv, hm])).trans ((if_neg (by simp [ht])).trans ((if_neg (not_lt.mpr hh)).trans ((if_neg hg').trans
      ((avsRequest_of_request _ hq).trans (congrArg (fun a => { s.dev with avs := a }) ?_)))))
    rw [← sub_eq_add_neg]
    generalize natOf _ = v
    by_cases he : v = s.dev.avs.request
    · rw [if_pos (.inl he), if_pos he, ← hs]
    · rw [if_neg (by omega), if_neg he, ← ht]
  · exact ⟨_, completes_of rfl hr (avsPoll_of_stepping mv hs (runs h1 h2)), Dev.get_set_same _ _ _ rfl, rfl⟩
  · have hfail := avsFail_of_stepping hs (runs h1 h2)
    refine ⟨_, completes_of rfl hr hfail, ?_, fun hf => if_neg (by omega), fun hf => ⟨_, if_pos (by omega), ?_, ?_, ?_, ?_⟩⟩
    · split
      · rw [(eventOnly_raise _ (by decide)).avs]
        rfl
      · rfl
    · rw [Dev.flag_eq, Dev.setFlag_eq, Dev.get_set_apart _ _ _ _ rfl rfl, ← Dev.flag_eq]
      exact Dev.flag_setFlag_same _ _ _ rfl rfl
    · exact Dev.flag_setFlag_same _ _ _ rfl rfl
    · rw [if_pos (by omega), (eventOnly_raise _ (by decide)).avs]
      rfl
    · exact ((Dev.SameBut.refl _ s.dev).set GCTL_AVS_CFG_enable (.inl rfl) _).set CKP_AVS_STAT_fault (.inr rfl) _

/-- Settles O18: the measurement publishes the least of the rings, and each command of the core voltage follows the order of its conditions. -/
theorem headroomMovesTheCoreVoltage : Obligations.HeadroomMovesTheCoreVoltage := ⟨headroomIsTheLeastOfTheRings, coreVoltageCommands⟩

end Sys2Proof.Machine
end

section
/-! PROOF. The clock multiplier and the monitor of its reference (O19). -/
namespace Sys2Proof.Machine

/-! ## The monitor (R438, R453) -/

theorem Dev.SameBut.trans {K L : Nat → Prop} {a b c : Dev} (h : a.SameBut K b) (g : b.SameBut L c) : a.SameBut (fun k => K k ∨ L k) c :=
  ⟨fun k hk => (g.1 k (fun x => hk (.inr x))).trans (h.1 k (fun x => hk (.inl x))), g.2.trans (congrArg (fun x : Dev => { x with regs := c.regs }) h.2)⟩

theorem Dev.SameBut.mono {K L : Nat → Prop} {a b : Dev} (h : a.SameBut K b) (hkl : ∀ k, K k → L k) : a.SameBut L b :=
  ⟨fun k hk => h.1 k (fun x => hk (hkl k x)), h.2⟩

/-- What holds of a device whose clock state differs, holds of the device that keeps it. -/
theorem Dev.SameBut.ofCkp {K : Nat → Prop} {d e : Dev} {c : CkpSt} (h : ({ d with ckp := c } : Dev).SameBut K e) : d.SameBut K { e with ckp := d.ckp } :=
  ⟨h.1, congrArg (fun x : Dev => { x with ckp := d.ckp }) h.2⟩

/-- REFCLK as its monitor has seen it. -/
def Dev.refMarked (d : Dev) (absent : Bool) : Dev := { d with ckp := { d.ckp with refGone := absent } }

/-- While REFCLK is absent no count of a clock is valid; nothing else changes. -/
theorem sameBut_refSeen (absent : Bool) (d : Dev) :
    (d.refMarked absent).SameBut (fun k => absent = true ∧ ∃ g < 12, k = (CKP_DOM_FREQ g).key) (refSeen absent d) := by
  have step (g : Nat) (hg : g < 12) (e : Dev) (he : (d.refMarked absent).SameBut (fun k => absent = true ∧ ∃ g < 12, k = (CKP_DOM_FREQ g).key) e) :
      absent = true → (d.refMarked absent).SameBut (fun k => absent = true ∧ ∃ g < 12, k = (CKP_DOM_FREQ g).key) (e.setFlag (CKP_DOM_FREQ_valid g) false) :=
    fun ha => he.set (CKP_DOM_FREQ_valid g) ⟨ha, g, hg, rfl⟩ _
  have base := Dev.SameBut.refl (fun k => absent = true ∧ ∃ g < 12, k = (CKP_DOM_FREQ g).key) (d.refMarked absent)
  rw [show refSeen absent d = if absent then forN 12 (fun g d => d.setFlag (CKP_DOM_FREQ_valid g) false) (d.refMarked absent) else d.refMarked absent
    from rfl]
  split
  · next ha => exact forN_keeps (fun g hg e he => step g hg e he ha) _ base
  · exact base

theorem sameBut_refSeen_ckp (absent : Bool) (d : Dev) :
    d.SameBut (fun k => absent = true ∧ ∃ g < 12, k = (CKP_DOM_FREQ g).key) { refSeen absent d with ckp := d.ckp } :=
  Dev.SameBut.ofCkp (c := { d.ckp with refGone := absent }) (sameBut_refSeen absent d)

theorem ckp_refSeen (absent : Bool) (d : Dev) : (refSeen absent d).ckp = { d.ckp with refGone := absent } :=
  congrArg Dev.ckp (sameBut_refSeen absent d).2

theorem flag_refSeen_freq (d : Dev) {g : Nat} (hg : g < 12) : (refSeen true d).flag (CKP_DOM_FREQ_valid g) = false := by
  refine forN_ind (P := fun n e => ∀ g < n, e.flag (CKP_DOM_FREQ_valid g) = false) (n := 12) (d := d.refMarked true)
    (f := fun g d => d.setFlag (CKP_DOM_FREQ_valid g) false) (fun g hg => absurd hg (Nat.not_lt_zero g)) ?_ g hg
  intro n _ e he g hg
  by_cases h : g = n
  · subst h
    exact Dev.flag_setFlag_same _ _ _ rfl rfl
  · rw [Dev.flag_eq, Dev.setFlag_eq, Dev.get_set_ne _ _ _ _ (by simp only [CKP_DOM_FREQ_valid]; omega), ← Dev.flag_eq]
    exact he g (by omega)

theorem get_refSeen (absent : Bool) (d : Dev) {f : Fld} (h : ∀ g < 12, f.key ≠ (CKP_DOM_FREQ g).key) : (refSeen absent d).get f = d.get f :=
  (sameBut_refSeen absent d).get (fun ⟨_, g, hg, e⟩ => h g hg e)

/-- CKP_STAT and the headroom are no words of a count. -/
theorem ne_domFreq_of_lt {k : Nat} (h : k < 0x10104) : ∀ g < 12, k ≠ (CKP_DOM_FREQ g).key := by
  intro g _
  simp only [CKP_DOM_FREQ]
  omega

theorem refOk_refSeen (absent : Bool) (d : Dev) : (refSeen absent d).refOk = d.refOk :=
  congrArg (· != 0) (get_refSeen absent d (ne_domFreq_of_lt (by decide)))

theorem multIs_congr {d e : Dev} (h : e.get CKP_STAT_state = d.get CKP_STAT_state) (s : MultState) : e.multIs s = d.multIs s := by
  unfold Dev.multIs
  rw [h]

/-- A trip is recorded with its cause and counted, and the published headroom is no longer valid (R438, R28). -/
def tripShown (cause : Nat) (d : Dev) : Dev :=
  ((((d.setFlag CKP_STAT_ref_ok false).inc CKP_STAT_trips).setFlag CKP_STAT_mon_trip true).set CKP_STAT_trip_cause cause).setFlag GCTL_HDRM_valid false

theorem monitorTrip_of_tripped {cause : Nat} {d : Dev} (h : d.refOk = false) : monitorTrip cause d = refSeen (cause == 1) d := by
  unfold monitorTrip
  dsimp only
  rw [refOk_refSeen, h]
  rfl

/-- A trip of a clear monitor: it is recorded, the multiplier follows from its state, and then the domains fall back. -/
theorem monitorTrip_of_clear {cause : Nat} {d : Dev} (h : d.refOk = true) :
    let x := tripShown cause (refSeen (cause == 1) d)
    monitorTrip cause d = forN 10 domFallback
      (if x.multIs .locked then coastEnter x else if x.multIs .counting || x.multIs .locking then attemptFail x else x) := by
  unfold monitorTrip
  dsimp only
  rw [refOk_refSeen, h]
  rfl

theorem sameBut_tripShown (cause : Nat) (d : Dev) : d.SameBut (fun k => k = CKP_STAT_state.key ∨ k = GCTL_HDRM.key) (tripShown cause d) :=
  (((((Dev.SameBut.refl _ d).set CKP_STAT_ref_ok (.inl rfl) _).set CKP_STAT_trips (.inl rfl) _).set CKP_STAT_mon_trip (.inl rfl) _).set
    CKP_STAT_trip_cause (.inl rfl) _).set GCTL_HDRM_valid (.inr rfl) _

theorem tripShown_spec {cause : Nat} (hc : cause < 4) (d : Dev) :
    let x := tripShown cause d
    x.refOk = false ∧ x.flag CKP_STAT_mon_trip = true ∧ x.get CKP_STAT_trip_cause = cause ∧
      x.get CKP_STAT_trips = min (d.get CKP_STAT_trips + 1) 65535 ∧ x.flag GCTL_HDRM_valid = false ∧
      x.get CKP_STAT_state = d.get CKP_STAT_state ∧ x.get CKP_STAT_attempts = d.get CKP_STAT_attempts := by
  unfold tripShown Dev.refOk
  refine ⟨?_, ?_, ?_, ?_, Dev.flag_setFlag_same _ _ _ rfl rfl, ?_, ?_⟩
  · simp (disch := decide) only [Dev.flag_eq, Dev.setFlag_eq, Dev.inc_eq, Dev.get_set_same, Dev.get_set_apart]
    rfl
  · simp (disch := decide) only [Dev.flag_eq, Dev.setFlag_eq, Dev.inc_eq, Dev.get_set_same, Dev.get_set_apart]
    rfl
  · simp (disch := decide) only [Dev.setFlag_eq, Dev.inc_eq, Dev.get_set_same, Dev.get_set_apart]
    exact Nat.mod_eq_of_lt hc
  · simp (disch := decide) only [Dev.setFlag_eq, Dev.get_inc_same, Dev.get_set_apart]
    rfl
  · simp (disch := decide) only [Dev.setFlag_eq, Dev.inc_eq, Dev.get_set_apart]
  · simp (disch := decide) only [Dev.setFlag_eq, Dev.inc_eq, Dev.get_set_apart]

/-! ## States of the multiplier (R439) -/

theorem sameBut_multPut (s : MultState) (d : Dev) : d.SameBut (fun k => k = CKP_STAT_state.key ∨ k = TBS_STATE_state.key) (multPut s d) :=
  (((Dev.SameBut.refl _ d).set CKP_STAT_state (.inl rfl) _).set CKP_STAT_coast (.inl rfl) _).set TBS_STATE_coast (.inr rfl) _

theorem get_multPut_state (s : MultState) (d : Dev) : (multPut s d).get CKP_STAT_state = s.code := by
  unfold multPut
  simp (disch := decide) only [Dev.setFlag_eq, Dev.get_set_same, Dev.get_set_apart]
  cases s <;> rfl

theorem flag_multPut_coast (s : MultState) (d : Dev) : (multPut s d).flag CKP_STAT_coast = (s != .locked) := by
  unfold multPut
  simp (disch := decide) only [Dev.flag_eq, Dev.setFlag_eq, Dev.get_set_same, Dev.get_set_apart]
  cases s <;> rfl

theorem get_multPut_attempts (s : MultState) (d : Dev) : (multPut s d).get CKP_STAT_attempts = d.get CKP_STAT_attempts := by
  unfold multPut
  simp (disch := decide) only [Dev.setFlag_eq, Dev.get_set_apart]

/-- Event source 2 changes no register of the clocks. -/
theorem get_multEvent (d : Dev) {f : Fld} (h : keyBlock f.key = 1) : (multEvent d).get f = d.get f :=
  get_raiseMs d f (by decide) (by rw [h]; decide) (fun e => by rw [e] at h; exact absurd h (by decide))

theorem ckp_multEvent (d : Dev) : (multEvent d).ckp = d.ckp := (eventOnly_raiseMs d (by decide)).ckp

/-- A failed attempt is counted, and the multiplier gives up at 16, coasts in service and waits at start-up (R438, R439). -/
theorem attemptFail_spec (d : Dev) :
    let n := min (d.get CKP_STAT_attempts + 1) 31
    (attemptFail d).get CKP_STAT_attempts = n ∧ (attemptFail d).flag CKP_STAT_coast = true ∧
      (attemptFail d).get CKP_STAT_state = (if 16 ≤ n then MultState.held.code else if d.ckp.started then MultState.coast.code else MultState.waitRef.code) := by
  have hn : (d.inc CKP_STAT_attempts).get CKP_STAT_attempts = min (d.get CKP_STAT_attempts + 1) 31 := Dev.get_inc_same d _ rfl
  have he : ∃ s : MultState, (s != .locked) = true ∧
      s.code = (if 16 ≤ min (d.get CKP_STAT_attempts + 1) 31 then MultState.held.code else if d.ckp.started then MultState.coast.code else MultState.waitRef.code) ∧
      attemptFail d = multEvent (multPut s (d.inc CKP_STAT_attempts)) := by
    unfold attemptFail
    dsimp only
    rw [hn]
    have hck : (d.inc CKP_STAT_attempts).ckp = d.ckp := rfl
    rw [hck]
    split
    · exact ⟨.held, rfl, rfl, rfl⟩
    · split
      · exact ⟨.coast, rfl, rfl, rfl⟩
      · exact ⟨.waitRef, rfl, rfl, rfl⟩
  obtain ⟨s, hs, hcode, he⟩ := he
  dsimp only
  rw [he, ← hcode]
  refine ⟨?_, ?_, ?_⟩
  · rw [get_multEvent _ rfl, get_multPut_attempts, hn]
  · rw [Dev.flag_eq, get_multEvent _ rfl, ← Dev.flag_eq, flag_multPut_coast, hs]
  · rw [get_multEvent _ rfl, get_multPut_state]

theorem monitorTripMovesTheMultiplier : Rules.MonitorTripMovesTheMultiplier := by
  intro s cause hr seen
  have hc : (cause.val + 1 == 1) = decide (cause.val = 0) := by simp [Bool.beq_eq_decide_eq]
  have sub {k : Nat} (h : decide (cause.val = 0) = true ∧ ∃ g < 12, k = (CKP_DOM_FREQ g).key) : seen k := ⟨of_decide_eq_true h.1, h.2⟩
  have hsame := sameBut_refSeen_ckp (decide (cause.val = 0)) s.dev
  have hfreq (h0 : cause.val = 0) (g : Nat) (hg : g < 12) : (refSeen (decide (cause.val = 0)) s.dev).flag (CKP_DOM_FREQ_valid g) = false := by
    rw [decide_eq_true h0]
    exact flag_refSeen_freq s.dev hg
  refine ⟨fun h => ⟨_, settles_of rfl hr (monitorTrip_of_tripped h), ?_, ?_, ?_⟩, fun h => ?_⟩
  · rw [hc]
    exact ⟨fun k hk => hsame.1 k (fun hx => hk (sub hx)), hsame.2⟩
  · rw [hc]
    exact ckp_refSeen _ _
  · rw [hc]
    exact hfreq
  · obtain ⟨hok, htrip, hcause, htrips, hvalid, hstate, hatt⟩ := tripShown_spec (cause := cause.val + 1) (by omega) (refSeen (decide (cause.val = 0)) s.dev)
    have hsx := sameBut_tripShown (cause.val + 1) (refSeen (decide (cause.val = 0)) s.dev)
    have hmt := monitorTrip_of_clear (cause := cause.val + 1) h
    have hkept {f : Fld} (hf : f.key < 0x10104) : (refSeen (decide (cause.val = 0)) s.dev).get f = s.dev.get f := get_refSeen _ _ (ne_domFreq_of_lt hf)
    rw [hkept (f := CKP_STAT_trips) (by decide)] at htrips
    rw [hkept (f := CKP_STAT_state) (by decide)] at hstate
    rw [hkept (f := CKP_STAT_attempts) (by decide)] at hatt
    have hckp : (tripShown (cause.val + 1) (refSeen (decide (cause.val = 0)) s.dev)).ckp = { s.dev.ckp with refGone := decide (cause.val = 0) } :=
      (congrArg Dev.ckp hsx.2).trans (ckp_refSeen _ _)
    have hseen (h0 : cause.val = 0) (g : Nat) (hg : g < 12) :
        (tripShown (cause.val + 1) (refSeen (decide (cause.val = 0)) s.dev)).flag (CKP_DOM_FREQ_valid g) = false := by
      rw [← hfreq h0 g hg, Dev.flag_eq, Dev.flag_eq, hsx.get (by simp only [CKP_DOM_FREQ_valid, CKP_STAT_state, GCTL_HDRM]; omega)]
    have hall : s.dev.SameBut (fun k => k = CKP_STAT_state.key ∨ k = GCTL_HDRM.key ∨ seen k)
        { tripShown (cause.val + 1) (refSeen (decide (cause.val = 0)) s.dev) with ckp := s.dev.ckp } := by
      refine (Dev.SameBut.ofCkp (c := { s.dev.ckp with refGone := decide (cause.val = 0) }) ((sameBut_refSeen _ s.dev).trans hsx)).mono fun k h => ?_
      rcases h with h | h | h
      · exact .inr (.inr (sub h))
      · exact .inl h
      · exact .inr (.inl h)
    rw [hc] at hmt
    dsimp only at hmt
    generalize tripShown (cause.val + 1) (refSeen (decide (cause.val = 0)) s.dev) = x at *
    have his (t : MultState) : x.multIs t = s.dev.multIs t := multIs_congr hstate t
    rw [his, his, his] at hmt
    refine ⟨x, hckp, hseen, hok, htrip, hcause, htrips, hvalid, hstate, hatt, hall, fun hl => ?_, fun hl => ?_, fun h1 h2 h3 => ?_⟩
    · exact settles_of rfl hr (by rw [hmt, if_pos hl])
    · have hnl : s.dev.multIs .locked = false := by
        unfold Dev.multIs at hl ⊢
        rcases hl with h | h <;> rw [beq_iff_eq.mp h] <;> rfl
      obtain ⟨ha, hco, hst⟩ := attemptFail_spec x
      rw [hatt] at ha hst
      rw [hckp] at hst
      exact ⟨attemptFail x, settles_of rfl hr (by rw [hmt, if_neg (by simp [hnl]), if_pos (by simpa using hl)]), ha, hco, hst⟩
    · exact settles_of rfl hr (by rw [hmt, if_neg (by simp [h1]), if_neg (by simp [h2, h3])])

/-! ## The other commands of the multiplier (R439, R442) -/

theorem sameBut_stepDone (n : Nat) (d : Dev) : d.SameBut (fun k => k = CKP_PWR_STAT_step.key) (stepDone n d) := by
  unfold stepDone
  split
  · exact (Dev.SameBut.refl _ d).set CKP_PWR_STAT_step (by rfl) n
  · exact .refl _ d

/-- LOCKED, without failed attempts; the step of the counter that came before the lock is forgotten (R442). -/
def multLocked (d : Dev) : Dev :=
  let e := (multEvent (multPut .locked d)).set CKP_STAT_attempts 0
  { e with time := { e.time with stepped := false } }

theorem multLocked_spec (d : Dev) : (multLocked d).multIs .locked = true ∧ (multLocked d).flag CKP_STAT_coast = false ∧
    (multLocked d).get CKP_STAT_attempts = 0 ∧ (multLocked d).ckp = d.ckp := by
  have kept {f : Fld} (hf : keyBlock f.key = 1) (ha : CKP_STAT_attempts.apart f = true) : (multLocked d).get f = (multPut .locked d).get f :=
    (Dev.get_set_apart _ _ _ _ rfl ha).trans (get_multEvent _ hf)
  refine ⟨?_, ?_, Dev.get_set_same _ _ _ rfl, ckp_multEvent _⟩
  · unfold Dev.multIs
    rw [kept rfl rfl, get_multPut_state]
    rfl
  · rw [Dev.flag_eq, kept rfl rfl, ← Dev.flag_eq, flag_multPut_coast]
    rfl

theorem lockAchieved_of_locking {d : Dev} (h : d.multIs .locking = true) : lockAchieved d =
    if (multLocked d).ckp.started then domRevive 7 (multLocked d)
    else forN 10 (fun g d => if domFixed g || d.flag (CKP_DOM_CTRL_enable g) then domStart g d else d)
      { multLocked d with ckp := { (multLocked d).ckp with started := true } } := by
  unfold lockAchieved
  rw [if_neg (by simp [h])]
  rfl

theorem regCmd_clkRetry {d : Dev} {m : Nat} (h : d.Writes m 0x10000 1) : regCmd m 0x10000 1 d = multRetry d :=
  regCmd_of_writes h (by decide) (by decide) (by decide)

theorem multiplierTransitions : Rules.MultiplierTransitions := by
  intro s hr
  refine ⟨⟨_, settles_of rfl hr rfl, ?_, ?_, ?_, ?_⟩, ⟨_, settles_of rfl hr rfl, ?_, ?_⟩, ⟨_, settles_of rfl hr rfl, ?_, ?_⟩, fun h => settles_of rfl hr ?_,
    fun h => ?_, fun m hw => ⟨_, settles_of rfl hr (regCmd_clkRetry hw), ?_, ?_, ?_⟩⟩
  · exact (refOk_refSeen _ _).trans (Dev.flag_setFlag_same _ _ _ rfl rfl)
  · exact Dev.get_set_apart _ _ _ _ rfl rfl
  · rfl
  · exact (Dev.SameBut.refl _ s.dev).set CKP_STAT_ref_ok (by rfl) _
  · unfold refEdge
    split
    · exact sameBut_multPut _ _
    · exact .refl _ _
  · unfold refEdge
    split
    · exact get_multPut_state _ _
    · rfl
  · unfold countComplete
    split
    · exact ((sameBut_multPut .locking s.dev).trans (sameBut_stepDone 2 _)).mono (fun k h => by tauto)
    · exact .refl _ _
  · unfold countComplete
    split
    · rw [get_stepDone_apart _ _ rfl, get_multPut_state]
    · rfl
  · unfold lockAchieved
    rw [if_pos (by simp [h])]
  · obtain ⟨hl, hco, ha, hck⟩ := multLocked_spec s.dev
    refine ⟨multLocked s.dev, hl, hco, ha, settles_of rfl hr ?_⟩
    rw [lockAchieved_of_locking h, hck]
  · unfold multRetry
    split
    · exact (sameBut_multPut .waitRef s.dev).set CKP_STAT_attempts (.inl rfl) 0
    · exact .refl _ _
  · unfold multRetry
    split
    · rw [Dev.get_set_apart _ _ _ _ rfl rfl, get_multPut_state]
    · rfl
  · unfold multRetry
    split
    · exact Dev.get_set_same _ _ _ rfl
    · rfl

/-- Settles O19: a trip in the three parts of `monitorTrip_of_clear`, the other commands by the row of R439 that each takes. -/
theorem multiplierFollowsItsReference : Obligations.MultiplierFollowsItsReference := ⟨monitorTripMovesTheMultiplier, multiplierTransitions⟩

end Sys2Proof.Machine
end

section
/-! PROOF. What a block that writes records, memory and violations leaves alone, and the commands of the compression engine (O55). -/
namespace Sys2Proof.Machine

/-! ## Traffic: queues, memories and violations -/

/-- `e` differs from `d` in nothing but registers of ACT, QUE and EVC, GCTL_XDROP, memories, queues, the host interface, captured words
and the count of free values. -/
structure TrafficOnly (d e : Dev) : Prop where
  word : ∀ k, keyBlock k ≠ 3 → keyBlock k ≠ 0x11 → keyBlock k ≠ 0x12 → k ≠ GCTL_XDROP.key → e.word k = d.word k
  rest : e = { d with regs := e.regs, shadow := e.shadow, dram := e.dram, hostA := e.hostA, hostB := e.hostB, free := e.free, queues := e.queues, host := e.host }

theorem TrafficOnly.refl (d : Dev) : TrafficOnly d d := ⟨fun _ _ _ _ _ => rfl, rfl⟩

theorem TrafficOnly.trans {a b c : Dev} (h : TrafficOnly a b) (g : TrafficOnly b c) : TrafficOnly a c :=
  ⟨fun k h1 h2 h3 h4 => (g.word k h1 h2 h3 h4).trans (h.word k h1 h2 h3 h4), by rw [g.rest, h.rest]⟩

theorem trafficOnly_ite {c : Prop} [Decidable c] {d e : Dev} (h : TrafficOnly d e) : TrafficOnly d (if c then e else d) := by
  split
  · exact h
  · exact .refl d

theorem EventOnly.traffic {d e : Dev} (h : EventOnly d e) : TrafficOnly d e :=
  ⟨fun k _ _ h3 h4 => h.word k h3 h4, by rw [h.rest]⟩

theorem TrafficOnly.get {d e : Dev} (h : TrafficOnly d e) (f : Fld) (h1 : keyBlock f.key ≠ 3) (h2 : keyBlock f.key ≠ 0x11)
    (h3 : keyBlock f.key ≠ 0x12) (h4 : f.key ≠ GCTL_XDROP.key) : e.get f = d.get f := by
  unfold Dev.get
  rw [h.word _ h1 h2 h3 h4]

theorem TrafficOnly.cmp {d e : Dev} (h : TrafficOnly d e) : e.cmp = d.cmp := by rw [h.rest]
theorem TrafficOnly.sch {d e : Dev} (h : TrafficOnly d e) : e.sch = d.sch := by rw [h.rest]
theorem TrafficOnly.col {d e : Dev} (h : TrafficOnly d e) : e.col = d.col := by rw [h.rest]
theorem TrafficOnly.stopped {d e : Dev} (h : TrafficOnly d e) : e.stopped = d.stopped := by rw [h.rest]

theorem trafficOnly_set {d : Dev} (f : Fld) (v : Nat) (h : keyBlock f.key = 3 ∨ keyBlock f.key = 0x11) : TrafficOnly d (d.set f v) :=
  ⟨fun _ h1 h2 _ _ => Dev.word_set_ne d f v (fun e => by rw [e] at h1 h2; exact h.elim h1 h2), rfl⟩

theorem trafficOnly_inc {d : Dev} (f : Fld) (h : keyBlock f.key = 3 ∨ keyBlock f.key = 0x11) : TrafficOnly d (d.inc f) :=
  Dev.inc_eq d f ▸ trafficOnly_set f _ h

theorem trafficOnly_xdrop (d : Dev) : TrafficOnly d (xdrop d) :=
  ⟨fun _ _ _ _ h4 => by unfold xdrop; rw [Dev.inc_eq]; exact Dev.word_set_ne d _ _ h4, rfl⟩

theorem trafficOnly_raise (d : Dev) {s : Nat} (hs : s < 128) : TrafficOnly d (raise s d) := (eventOnly_raise d hs).traffic

theorem trafficOnly_raiseMs (d : Dev) {s : Nat} (hs : s < 128) : TrafficOnly d (raiseMs s d) := (eventOnly_raiseMs d hs).traffic

theorem trafficOnly_putQueue (n : Nat) (q : QueueSt) (d : Dev) : TrafficOnly d (d.putQueue n q) := ⟨fun _ _ _ _ _ => rfl, rfl⟩

theorem trafficOnly_free (n : Nat) (d : Dev) : TrafficOnly d { d with free := n } := ⟨fun _ _ _ _ _ => rfl, rfl⟩

/-- What each repetition leaves alone, all of them leave alone. -/
theorem trafficOnly_iterate {f : Dev → Option Dev} (h : ∀ d e, f d = some e → TrafficOnly d e) (n : Nat) (d : Dev) :
    TrafficOnly d (iterate n f d) := by
  induction n generalizing d with
  | zero => exact .refl d
  | succ n ih =>
    unfold iterate
    split
    · exact .refl d
    · next e he => exact (h d e he).trans (ih e)

/-! ### Host queues -/

/-- The registers of a queue stand in QUE. -/
theorem keyBlock_queue {n : Nat} (hn : n < 64) {base : Nat} (h : 0x110100 ≤ base ∧ base < 0x110120) : keyBlock (base + n * 0x20) = 0x11 := by
  simp only [keyBlock, masterSpan]
  omega

theorem trafficOnly_queueWmState {n : Nat} (hn : n < 64) (b : Bool) (d : Dev) : TrafficOnly d (queueWmState n b d) := by
  unfold queueWmState queueFc
  rw [Dev.setFlag_eq]
  refine (trafficOnly_set (QUE_Q_OCC_wm_state n) _ (.inr (keyBlock_queue hn (by decide)))).trans ((trafficOnly_set _ _ (.inr ?_)).trans
    (trafficOnly_set _ _ (.inr rfl)))
  simp only [QUE_HIGH, keyBlock, masterSpan]
  omega

theorem trafficOnly_queueNote {n : Nat} (hn : n < 64) (b : Bool) (d : Dev) : TrafficOnly d (queueNote n b d) := by
  have occ : keyBlock (QUE_Q_OCC n).key = 0x11 := keyBlock_queue hn (by decide)
  have bit : keyBlock (QUE_NONEMPTY (n / 32)).key = 0x11 := by
    simp only [QUE_NONEMPTY, keyBlock, masterSpan]
    omega
  unfold queueNote
  extract_lets o was d1 d2 d3 d4
  have h4 : TrafficOnly d3 d4 := by
    unfold d4
    split
    · exact trafficOnly_raise _ (by decide)
    · exact .refl _
  refine (trafficOnly_set (QUE_Q_OCC_occupancy n) _ (.inr occ)).trans ((trafficOnly_set (QUE_Q_OCC_hwm n) _ (.inr occ)).trans
    ((trafficOnly_set (QUE_NONEMPTY (n / 32)) _ (.inr bit)).trans (h4.trans ?_)))
  split
  · exact trafficOnly_queueWmState hn _ _
  · split
    · exact (trafficOnly_queueWmState hn _ _).trans (trafficOnly_raiseMs _ (by decide))
    · split
      · exact trafficOnly_queueWmState hn _ _
      · exact .refl _

theorem trafficOnly_popEmpty {n : Nat} (hn : n < 64) (d : Dev) : TrafficOnly d (popEmpty n d).2.2 :=
  trafficOnly_inc (QUE_Q_EMPTY n) (.inr (keyBlock_queue hn (by decide)))

theorem trafficOnly_popWord {n : Nat} (hn : n < 64) (d : Dev) : TrafficOnly d (popWord n d).2.2 := by
  have integ : keyBlock (QUE_Q_INTEG n).key = 0x11 := keyBlock_queue hn (by decide)
  unfold popWord
  extract_lets q ecc lost
  split
  · exact trafficOnly_popEmpty hn d
  · split
    · exact (trafficOnly_putQueue ..).trans (trafficOnly_popEmpty hn _)
    · extract_lets first last poison corrected data d1 d2 d3 d4 d5 status
      have h1 : TrafficOnly d d1 := by
        unfold d1
        split
        · exact .refl d
        · exact trafficOnly_free ..
      have h4 : TrafficOnly d3 d4 := by
        unfold d4
        split
        · exact trafficOnly_inc (QUE_Q_INTEG_cecc n) (.inr integ)
        · exact .refl _
      have h5 : TrafficOnly d4 d5 := by
        unfold d5
        split
        · exact (trafficOnly_inc (QUE_Q_INTEG_poison n) (.inr integ)).trans (trafficOnly_raiseMs _ (by decide))
        · exact .refl _
      exact h1.trans ((trafficOnly_putQueue ..).trans ((trafficOnly_queueNote hn false _).trans (h4.trans h5)))

theorem trafficOnly_popAnswer (m n : Nat) (wide : Bool) (r : Nat × Nat × Dev) : TrafficOnly r.2.2 (popAnswer m n wide r) := by
  unfold popAnswer Dev.answer Dev.capture
  exact ⟨fun _ _ _ _ _ => rfl, rfl⟩

theorem trafficOnly_popTimeout {n : Nat} (hn : n < 64) (d : Dev) : TrafficOnly d (popTimeout n d) := by
  unfold popTimeout
  dsimp only
  split
  · exact .refl d
  · exact (trafficOnly_putQueue ..).trans ((trafficOnly_popEmpty hn _).trans (trafficOnly_popAnswer ..))

theorem trafficOnly_popExpire {n : Nat} (hn : n < 64) (d : Dev) : TrafficOnly d (popExpire n d) := by
  refine trafficOnly_iterate (fun d e h => ?_) _ d
  split at h
  · cases h
  · split at h
    · cases h
      exact trafficOnly_popTimeout hn d
    · cases h

theorem trafficOnly_popServe {n : Nat} (hn : n < 64) (d : Dev) : TrafficOnly d (popServe n d) := by
  refine (trafficOnly_popExpire hn d).trans (trafficOnly_iterate (fun d e h => ?_) _ _)
  dsimp only at h
  split at h
  · cases h
  · split at h
    · cases h
    · cases h
      exact (trafficOnly_putQueue ..).trans ((trafficOnly_popWord hn _).trans (trafficOnly_popAnswer ..))

theorem trafficOnly_queueMakeRoom {n : Nat} (hn : n < 64) (need : Nat) (d : Dev) : TrafficOnly d (queueMakeRoom n need d) := by
  refine trafficOnly_iterate (fun d e h => ?_) _ d
  dsimp only at h
  split at h
  · cases h
  · split at h
    · cases h
    · cases h
      exact (trafficOnly_putQueue ..).trans ((trafficOnly_inc (QUE_Q_LOST n) (.inr (keyBlock_queue hn (by decide)))).trans
        (trafficOnly_raiseMs _ (by decide)))

theorem trafficOnly_packetReserve {n : Nat} (hn : n < 64) (ws : List (BitVec 64)) (d : Dev) : TrafficOnly d (packetReserve n ws d) := by
  unfold packetReserve
  split
  · exact .refl d
  · split
    · exact trafficOnly_inc (QUE_Q_REFUSED n) (.inr (keyBlock_queue hn (by decide)))
    · exact (trafficOnly_queueMakeRoom hn _ d).trans ((trafficOnly_putQueue ..).trans (trafficOnly_queueNote hn false _))

theorem trafficOnly_packetCommit {n : Nat} (hn : n < 64) (i : Nat) (good : Bool) (d : Dev) : TrafficOnly d (packetCommit n i good d) := by
  unfold packetCommit
  dsimp only
  split
  · exact .refl d
  · split
    · exact (trafficOnly_putQueue ..).trans ((trafficOnly_queueNote hn false _).trans (trafficOnly_popServe hn _))
    · exact trafficOnly_putQueue ..

/-- A record written to a host queue changes the queue, what it shows, the pops that it answers and the events. -/
theorem trafficOnly_queueRecord {n : Nat} (hn : n < 64) (bs : List Byte) (d : Dev) : TrafficOnly d (queueRecord n bs d) := by
  unfold queueRecord packetWrite
  dsimp only
  refine TrafficOnly.trans (trafficOnly_packetReserve hn (toWords ((bs.length + 7) / 8) bs) d) ?_
  split
  · exact trafficOnly_packetCommit hn ..
  · exact .refl _

/-! ### Memories and violations -/

theorem sameBut_violationShown (k : VKind) (m t off : Nat) (d : Dev) : d.SameBut (fun x => keyBlock x = 3) (violationShown k m t off d) := by
  have h : d.SameBut (fun x => keyBlock x = 3) (((d.inc ACT_VIOL_CNT).set ACT_VIOL_LAST0 (violationWord k m t)).set ACT_VIOL_LAST1 off) := by
    rw [Dev.inc_eq]
    exact (((Dev.SameBut.refl _ d).set ACT_VIOL_CNT (by rfl) _).set ACT_VIOL_LAST0 (by rfl) _).set ACT_VIOL_LAST1 (by rfl) _
  unfold violationShown
  dsimp only
  split
  · exact h
  · exact (h.set ACT_VIOL_FIRST0 (by rfl) _).set ACT_VIOL_FIRST1 (by rfl) _

theorem Dev.SameBut.traffic {K : Nat → Prop} {d e : Dev} (h : d.SameBut K e) (hk : ∀ k, K k → keyBlock k = 3 ∨ keyBlock k = 0x11) :
    TrafficOnly d e :=
  ⟨fun k h1 h2 _ _ => h.1 k (fun c => (hk k c).elim h1 h2), by rw [h.2]⟩

theorem trafficOnly_violation (k : VKind) (m t off : Nat) (d : Dev) : TrafficOnly d (violation k m t off d) := by
  rw [violation_eq]
  exact ((sameBut_violationShown k m t off d).traffic (fun _ => .inl)).trans (trafficOnly_raiseMs _ (by decide))

theorem trafficOnly_drawNat (d : Dev) : TrafficOnly d d.drawNat.2 := trafficOnly_free ..

theorem trafficOnly_drawBytes (n : Nat) (d : Dev) : TrafficOnly d (d.drawBytes n).2 := by
  induction n generalizing d with
  | zero => exact .refl d
  | succ n ih => exact (trafficOnly_free ..).trans (ih _)

theorem trafficOnly_hostRead (e a n : Nat) (d : Dev) : TrafficOnly d (hostRead e a n d).2 := by
  unfold hostRead
  split
  · exact .refl d
  · exact trafficOnly_drawBytes n d

theorem trafficOnly_dramWrite (a : Nat) (bs : List Byte) (d : Dev) : TrafficOnly d (d.dramWrite a bs) := by
  unfold Dev.dramWrite
  split
  · exact ⟨fun _ _ _ _ _ => rfl, rfl⟩
  · exact trafficOnly_xdrop d

/-! ## A running job -/

theorem trafficOnly_cmpBeyond (a : Nat) (d : Dev) : TrafficOnly d (cmpBeyond a d) := by
  unfold cmpBeyond
  split
  · exact trafficOnly_violation ..
  · exact (trafficOnly_drawNat d).trans (trafficOnly_violation ..)

theorem trafficOnly_cmpRead (a n : Nat) (d : Dev) : TrafficOnly d (cmpRead a n d).2 := by
  unfold cmpRead
  split
  · exact trafficOnly_cmpBeyond a d
  · exact trafficOnly_hostRead ..
  · split
    · exact .refl d
    · exact trafficOnly_violation ..

/-- A read that ends a job ends it with a status of its own. -/
theorem cmpRead_error {a n st : Nat} {d e : Dev} (h : cmpRead a n d = (.error st, e)) : st ≠ 0 := by
  unfold cmpRead at h
  split at h
  · cases h
    decide
  · cases h
  · split at h
    · cases h
    · cases h
      decide

theorem trafficOnly_cmpWrite (a : Nat) (bs : List Byte) (d : Dev) : TrafficOnly d (cmpWrite a bs d).2 := by
  unfold cmpWrite
  split
  · exact trafficOnly_cmpBeyond a d
  · exact (eventOnly_hostWrite ..).traffic
  · split
    · exact trafficOnly_cmpBeyond a d
    · split
      · exact trafficOnly_dramWrite ..
      · exact trafficOnly_violation ..

theorem trafficOnly_cmpMark (a used : Nat) (b : List Byte) (d : Dev) : TrafficOnly d (cmpMark a used b d).2 := by
  have h := trafficOnly_cmpWrite (a + 0x0C) (toLe 4 used) d
  unfold cmpMark
  split
  · next st e he => rwa [he] at h
  · next e he => rw [he] at h; exact h.trans (trafficOnly_cmpWrite ..)

theorem trafficOnly_cmpPrepare (j : CmpJob) (d : Dev) : TrafficOnly d (cmpPrepare j d).2 := by
  have h := trafficOnly_cmpRead j.src j.srcLen d
  unfold cmpPrepare
  split
  · exact .refl d
  · split
    · next he => rwa [he] at h
    · next he =>
      rw [he] at h
      refine h.trans ?_
      split
      · split
        · exact trafficOnly_cmpBeyond ..
        · exact .refl _
      · dsimp only
        split
        · exact trafficOnly_drawNat _
        · exact trafficOnly_ite (trafficOnly_cmpBeyond ..)

theorem trafficOnly_cmpDeliver (n : Nat) (j : CmpJob) (d : Dev) : TrafficOnly d (cmpDeliver n j d).2.2 := by
  induction n generalizing j d with
  | zero => exact .refl d
  | succ n ih =>
    have hr := trafficOnly_cmpRead j.buf 32 d
    unfold cmpDeliver
    split
    · exact .refl d
    · split
      · next he => rwa [he] at hr
      · next b e he =>
        rw [he] at hr
        refine hr.trans ?_
        split
        · exact trafficOnly_cmpBeyond ..
        · split
          · exact .refl e
          · extract_lets k j'
            have hw : TrafficOnly e (if k = 0 then (none, e) else cmpWrite (leAt b 0 8 + j.used) (j.out.take k) e).2 := by
              split
              · exact .refl e
              · exact trafficOnly_cmpWrite ..
            split
            · next he =>
              rw [he] at hw
              exact hw.trans (trafficOnly_cmpMark ..)
            · next f he =>
              rw [he] at hw
              have hm := trafficOnly_cmpMark j'.buf j'.used b f
              refine hw.trans ?_
              split
              · next he => rwa [he] at hm
              · next he =>
                rw [he] at hm
                refine hm.trans ?_
                split
                · exact .refl _
                · split
                  · exact .refl _
                  · exact ih ..

/-! ## What the engine shows of its jobs -/

/-- CMP_STAT and the four CMP_CTXk. -/
def cmpShownKey (k : Nat) : Prop := k = CMP_STAT.key ∨ 0x100040 ≤ k ∧ k < 0x100050

/-- What the engine shows of context slot `k`. -/
def cmpSlotShow (k : Nat) (d : Dev) : Dev :=
  match lookup k d.cmp.ctx with
  | none => d.set (CMP_CTX k) 0
  | some j => ((d.setFlag (CMP_CTX_suspended k) true).set (CMP_CTX_master k) j.master).set (CMP_CTX_tag k) j.tag

/-- What the engine shows of its queue. -/
def cmpStatShow (d : Dev) : Dev := (d.set CMP_STAT_pending d.cmp.pending.length).setFlag CMP_STAT_running d.cmp.running.isSome

theorem cmpShow_eq (d : Dev) : cmpShow d = forN 4 cmpSlotShow (cmpStatShow d) := rfl

theorem cmp_set (d : Dev) (f : Fld) (v : Nat) : (d.set f v).cmp = d.cmp := rfl

theorem sameBut_cmpStatShow (d : Dev) : d.SameBut cmpShownKey (cmpStatShow d) :=
  ((Dev.SameBut.refl _ d).set CMP_STAT_pending (.inl rfl) _).set CMP_STAT_running (.inl rfl) _

theorem sameBut_cmpSlotShow {k : Nat} (hk : k < 4) (d : Dev) : d.SameBut cmpShownKey (cmpSlotShow k d) := by
  have key : cmpShownKey (CMP_CTX k).key := by
    simp only [cmpShownKey, CMP_CTX]
    omega
  unfold cmpSlotShow
  split
  · exact (Dev.SameBut.refl _ d).set (CMP_CTX k) key 0
  · exact (((Dev.SameBut.refl _ d).set (CMP_CTX_suspended k) key _).set (CMP_CTX_master k) key _).set (CMP_CTX_tag k) key _

theorem sameBut_cmpShow (d : Dev) : d.SameBut cmpShownKey (cmpShow d) := by
  rw [cmpShow_eq]
  exact forN_keeps (P := d.SameBut cmpShownKey) (fun i hi e he => (he.trans (sameBut_cmpSlotShow hi e)).mono (fun _ h => h.elim id id)) _
    (sameBut_cmpStatShow d)

theorem cmp_cmpShow (d : Dev) : (cmpShow d).cmp = d.cmp := by rw [(sameBut_cmpShow d).2]

theorem cmp_withCmp (f : CmpSt → CmpSt) (d : Dev) : (d.withCmp f).cmp = f d.cmp := cmp_cmpShow _

theorem get_cmpShow (d : Dev) {f : Fld} (h : ¬cmpShownKey f.key) : (cmpShow d).get f = d.get f := (sameBut_cmpShow d).get h

/-- Changing the jobs changes no register but those that show them. -/
theorem get_withCmp (g : CmpSt → CmpSt) (d : Dev) {f : Fld} (h : ¬cmpShownKey f.key) : (d.withCmp g).get f = d.get f := get_cmpShow _ h

theorem pending_cmpShow (d : Dev) : (cmpShow d).get CMP_STAT_pending = d.cmp.pending.length % 64 := by
  rw [cmpShow_eq]
  refine forN_keeps (P := fun e => e.get CMP_STAT_pending = d.cmp.pending.length % 64) (fun i hi e he => ?_) _ ?_
  · have key : CMP_STAT_pending.key ≠ (CMP_CTX i).key := by simp only [CMP_STAT_pending, CMP_CTX]; omega
    rw [← he]
    unfold cmpSlotShow
    split
    · exact Dev.get_set_ne _ _ _ _ key
    · exact (Dev.get_set_ne _ (CMP_CTX_tag i) _ _ key).trans ((Dev.get_set_ne _ (CMP_CTX_master i) _ _ key).trans
        (Dev.get_set_ne _ (CMP_CTX_suspended i) _ _ key))
  · unfold cmpStatShow
    rw [Dev.setFlag_eq, Dev.get_set_apart _ _ _ _ rfl rfl, Dev.get_set_same _ _ _ rfl]
    rfl

theorem suspended_cmpSlotShow (k : Nat) (d : Dev) : (cmpSlotShow k d).flag (CMP_CTX_suspended k) = (lookup k d.cmp.ctx).isSome := by
  have ap (f : Fld) (hf : f = CMP_CTX_master k ∨ f = CMP_CTX_tag k) : f.apart (CMP_CTX_suspended k) = true := by
    rcases hf with rfl | rfl <;> exact Bool.or_eq_true_iff.mpr (.inr rfl)
  unfold cmpSlotShow
  split
  · next h =>
    rw [h, Dev.flag_eq]
    unfold Dev.get
    rw [show (CMP_CTX_suspended k).key = (CMP_CTX k).key from rfl, Dev.word_set_whole _ _ _ rfl rfl, BitVec.toNat_ofNat, Nat.zero_mod, bits_zero]
    rfl
  · next j h =>
    rw [h, Dev.flag_eq, Dev.get_set_apart _ _ _ _ rfl (ap _ (.inr rfl)), Dev.get_set_apart _ _ _ _ rfl (ap _ (.inl rfl)), ← Dev.flag_eq,
      Dev.flag_setFlag_same _ _ _ rfl rfl]
    rfl

/-- A slot shows whether it holds a job. -/
theorem suspended_cmpShow (d : Dev) {k : Nat} (hk : k < 4) : (cmpShow d).flag (CMP_CTX_suspended k) = (lookup k d.cmp.ctx).isSome := by
  rw [cmpShow_eq]
  refine (forN_ind (P := fun n e => e.cmp = d.cmp ∧ ∀ k < n, e.flag (CMP_CTX_suspended k) = (lookup k d.cmp.ctx).isSome)
    ⟨by rw [(sameBut_cmpStatShow d).2], fun k hk => by omega⟩ (fun i hi e he => ?_)).2 k hk
  obtain ⟨hc, hs⟩ := he
  refine ⟨by rw [(sameBut_cmpSlotShow hi e).2, hc], fun k hk => ?_⟩
  by_cases h : k = i
  · rw [h, suspended_cmpSlotShow, hc]
  · rw [← hs k (by omega), Dev.flag_eq, Dev.flag_eq]
    have key : (CMP_CTX_suspended k).key ≠ (CMP_CTX i).key := by simp only [CMP_CTX_suspended, CMP_CTX]; omega
    unfold cmpSlotShow
    split
    · rw [Dev.get_set_ne _ _ _ _ key]
    · rw [Dev.get_set_ne _ (CMP_CTX_tag i) _ _ key, Dev.get_set_ne _ (CMP_CTX_master i) _ _ key, Dev.setFlag_eq,
        Dev.get_set_ne _ (CMP_CTX_suspended i) _ _ key]

/-- A field reads as a value that fits it. -/
theorem Dev.get_set_fits (d : Dev) (f : Fld) {v : Nat} (hf : f.inWord = true) (h : v < 2 ^ f.width) : (d.set f v).get f = v :=
  (Dev.get_set_same d f v hf).trans (Nat.mod_eq_of_lt h)

/-! ## Submission (R382) -/

/-- The row of CMP_JOB. -/
def row_cmpJob : RegRow := ⟨0x100010, [(8, 0x4)], true, .none, [⟨0, 32, .rw, 0, []⟩]⟩

theorem findRow_cmpJob : findRow 0x10002C = some (row_cmpJob, [7]) := by decide

theorem regWrite_cmpJob (m v : Nat) (d : Dev) : regWrite {} m 0x10002C v d = cmpSubmit m v (rowWrite row_cmpJob m 0x10002C v d) := by
  unfold regWrite
  rw [findRow_cmpJob]
  rfl

/-- The descriptor that stands in CMP_JOB. -/
def Dev.jobBytes (d : Dev) (m n : Nat) : List Byte := (List.range n).flatMap (fun i => toLe 4 (d.get (CMP_JOB m i)))

theorem jobBytes_last (m : Nat) {v : Nat} (hv : v < 2 ^ 32) (d : Dev) :
    (d.set (CMP_JOB m 7) v).jobBytes m 8 = d.jobBytes m 7 ++ toLe 4 v := by
  have key {i : Nat} (hi : i < 7) : (CMP_JOB m i).key ≠ (CMP_JOB m 7).key := by simp only [CMP_JOB]; omega
  unfold Dev.jobBytes
  rw [List.range_succ, List.flatMap_append, List.flatMap_singleton, Dev.get_set_fits _ (CMP_JOB m 7) rfl hv]
  congr 1
  refine List.flatMap_congr (fun i hi => ?_)
  rw [Dev.get_set_ne _ _ _ _ (key (List.mem_range.mp hi))]

/-- The row of the descriptor takes the word and touches nothing else. -/
theorem sameBut_rowWrite_cmpJob (m v : Nat) (d : Dev) :
    d.SameBut (fun k => k = (CMP_JOB m 7).key) (rowWrite row_cmpJob m 0x10002C v d) := by
  have hd (old : Nat) : rwbDiffers row_cmpJob old v = false := rfl
  have key : row_cmpJob.keyFor m 0x10002C = (CMP_JOB m 7).key := by simp only [RegRow.keyFor, row_cmpJob, CMP_JOB, masterSpan, if_true]
  unfold rowWrite
  dsimp only
  rw [hd, Bool.and_false, if_neg Bool.false_ne_true, key]
  exact ⟨fun k hk => Dev.word_putWord_ne _ _ hk, rfl⟩

/-- An accepted descriptor. -/
def cmpAccept (m : Nat) (b : List Byte) (d : Dev) : Dev :=
  ((d.set (CMP_SUBMIT_STAT_result m) 0).incWrap (CMP_SUBMIT_STAT_accepted m)).withCmp (fun c => { c with pending := c.pending ++ [cmpJobOf m b] })

/-- The write of CMP_JOB7 once the word is taken: the two refusals, and the submission. -/
theorem cmpSubmit_eq (m v : Nat) (d : Dev) : cmpSubmit m v d =
    if cmpFieldsOk ((d.set (CMP_JOB m 7) v).jobBytes m 8) = false then (d.set (CMP_JOB m 7) v).set (CMP_SUBMIT_STAT_result m) 1
    else if 32 ≤ d.cmp.pending.length then (d.set (CMP_JOB m 7) v).set (CMP_SUBMIT_STAT_result m) 2
    else cmpAccept m ((d.set (CMP_JOB m 7) v).jobBytes m 8) (d.set (CMP_JOB m 7) v) := by
  unfold cmpSubmit Dev.jobBytes
  simp only [Bool.not_eq_true', cmp_set]
  rfl

/-- The registers of a master stand apart from those that show the jobs. -/
theorem not_cmpShownKey_of_master {m k : Nat} (h : (m + 1) * 0x4000000 ≤ k) : ¬cmpShownKey k := by
  simp only [cmpShownKey, CMP_STAT]
  omega

theorem cmpAccept_spec (m : Nat) (b : List Byte) (d : Dev) :
    (cmpAccept m b d).get (CMP_SUBMIT_STAT_result m) = 0 ∧ (cmpAccept m b d).get (CMP_JOB m 7) = d.get (CMP_JOB m 7) ∧
    (cmpAccept m b d).get (CMP_SUBMIT_STAT_accepted m) = (d.get (CMP_SUBMIT_STAT_accepted m) + 1) % 65536 ∧
    (cmpAccept m b d).cmp = { d.cmp with pending := d.cmp.pending ++ [cmpJobOf m b] } ∧
    (cmpAccept m b d).get CMP_STAT_pending = (d.cmp.pending.length + 1) % 64 := by
  have ap : (CMP_SUBMIT_STAT_accepted m).apart (CMP_SUBMIT_STAT_result m) = true ∧
      (CMP_SUBMIT_STAT_result m).apart (CMP_SUBMIT_STAT_accepted m) = true :=
    ⟨Bool.or_eq_true_iff.mpr (.inr rfl), Bool.or_eq_true_iff.mpr (.inl (Bool.or_eq_true_iff.mpr (.inr rfl)))⟩
  have kj : (CMP_JOB m 7).key ≠ (CMP_SUBMIT_STAT m).key := by simp only [CMP_JOB, CMP_SUBMIT_STAT]; omega
  unfold cmpAccept
  refine ⟨?_, ?_, ?_, cmp_withCmp _ _, ?_⟩
  · rw [get_withCmp _ _ (not_cmpShownKey_of_master (m := m) (Nat.le_add_right _ _)), Dev.incWrap_eq, Dev.get_set_apart _ _ _ _ rfl ap.1,
      Dev.get_set_same _ _ _ rfl]
    rfl
  · rw [get_withCmp _ _ (not_cmpShownKey_of_master (m := m) (by simp only [CMP_JOB]; omega)), Dev.incWrap_eq,
      Dev.get_set_ne _ (CMP_SUBMIT_STAT_accepted m) _ _ kj, Dev.get_set_ne _ (CMP_SUBMIT_STAT_result m) _ _ kj]
  · rw [get_withCmp _ _ (not_cmpShownKey_of_master (m := m) (Nat.le_add_right _ _)), Dev.incWrap_eq, Dev.get_set_same _ _ _ rfl,
      Dev.get_set_apart _ _ _ _ rfl ap.2]
    rfl
  · unfold Dev.withCmp
    rw [pending_cmpShow]
    simp only [List.length_append, List.length_singleton]
    rfl

theorem jobsAreSubmitted : Rules.JobsAreSubmitted := by
  intro s m v hr hw b
  refine ⟨_, completes_of rfl hr ((regCmd_of_writes hw (by decide) (by decide) (by decide)).trans (regWrite_cmpJob ..)), ?_⟩
  have hs := sameBut_rowWrite_cmpJob m.val v.toNat s.dev
  generalize rowWrite row_cmpJob m.val 0x10002C v.toNat s.dev = d at hs
  have hb : (d.set (CMP_JOB m 7) v.toNat).jobBytes m 8 = b := by
    rw [jobBytes_last _ v.isLt]
    unfold Dev.jobBytes b
    congr 1
    refine List.flatMap_congr (fun i hi => ?_)
    have := List.mem_range.mp hi
    rw [hs.get (by simp only [CMP_JOB]; omega)]
  have kj : (CMP_JOB m 7).key ≠ (CMP_SUBMIT_STAT m).key := by simp only [CMP_JOB, CMP_SUBMIT_STAT]; omega
  have ha : (d.set (CMP_JOB m 7) v.toNat).get (CMP_SUBMIT_STAT_accepted m) = s.dev.get (CMP_SUBMIT_STAT_accepted m) := by
    rw [Dev.get_set_ne _ (CMP_JOB m 7) (CMP_SUBMIT_STAT_accepted m) _ (Ne.symm kj), hs.get (f := CMP_SUBMIT_STAT_accepted m) (Ne.symm kj)]
  have hc : (d.set (CMP_JOB m 7) v.toNat).cmp = s.dev.cmp := by rw [cmp_set, hs.2]
  have hj : (d.set (CMP_JOB m 7) v.toNat).get (CMP_JOB m 7) = v.toNat := Dev.get_set_fits _ (CMP_JOB m 7) rfl v.isLt
  rw [cmpSubmit_eq, hb, show d.cmp = s.dev.cmp from hc]
  generalize d.set (CMP_JOB m 7) v.toNat = e at ha hc hj
  have refused {n : Nat} (hn : n < 16) : (e.set (CMP_SUBMIT_STAT_result m) n).get (CMP_JOB m 7) = v.toNat ∧
      (e.set (CMP_SUBMIT_STAT_result m) n).get (CMP_SUBMIT_STAT_result m) = n ∧ (e.set (CMP_SUBMIT_STAT_result m) n).cmp = s.dev.cmp :=
    ⟨(Dev.get_set_ne _ (CMP_SUBMIT_STAT_result m) _ _ kj).trans hj, Dev.get_set_fits _ (CMP_SUBMIT_STAT_result m) rfl hn, hc⟩
  by_cases ok : cmpFieldsOk b = false
  · rw [if_pos ok]
    have h := refused (n := 1) (by decide)
    exact ⟨h.1, fun _ => h.2, fun h => absurd (ok.symm.trans h) Bool.false_ne_true, fun h => absurd (ok.symm.trans h) Bool.false_ne_true⟩
  · rw [if_neg ok]
    by_cases full : 32 ≤ s.dev.cmp.pending.length
    · rw [if_pos full]
      have h := refused (n := 2) (by decide)
      exact ⟨h.1, fun h => absurd h ok, fun _ _ => h.2, fun _ h => absurd full (Nat.not_le.mpr h)⟩
    · rw [if_neg full]
      obtain ⟨hres, hjob, hacc, hcmp, hpend⟩ := cmpAccept_spec m b e
      rw [hc] at hcmp hpend
      exact ⟨hjob.trans hj, fun h => absurd h ok, fun _ h => absurd h full,
        fun _ _ => ⟨hres, hcmp, by rw [hacc, ha], hpend.trans (Nat.mod_eq_of_lt (by omega))⟩⟩

/-! ## Ends (R393) -/

/-- The counts of jobs that ended. -/
def Dev.jobCounts (d : Dev) : Nat × Nat := (d.get CMP_JOBS_OK, d.get CMP_JOBS_FAIL)

theorem TrafficOnly.jobCounts {d e : Dev} (h : TrafficOnly d e) : e.jobCounts = d.jobCounts := by
  unfold Dev.jobCounts
  rw [h.get CMP_JOBS_OK (by decide) (by decide) (by decide) (by decide), h.get CMP_JOBS_FAIL (by decide) (by decide) (by decide) (by decide)]

theorem jobCounts_withCmp (g : CmpSt → CmpSt) (d : Dev) : (d.withCmp g).jobCounts = d.jobCounts := by
  unfold Dev.jobCounts
  rw [get_withCmp _ _ (by unfold cmpShownKey; decide), get_withCmp _ _ (by unfold cmpShownKey; decide)]

theorem trafficOnly_cmpRecord (code st : Nat) (j : CmpJob) (d : Dev) : TrafficOnly d (cmpRecord code st j d) := by
  unfold cmpRecord
  split
  · exact trafficOnly_queueRecord (d.get_lt CMP_CFG_queue) _ d
  · exact .refl d

/-- A job that ends with a status of a failure is counted as failed. -/
theorem cmpFinish_failed (j : CmpJob) {st : Nat} (h : st ≠ 0) (d : Dev) : TrafficOnly (d.inc CMP_JOBS_FAIL) (cmpFinish j st d) := by
  unfold cmpFinish
  dsimp only
  rw [if_neg h]
  refine TrafficOnly.trans (trafficOnly_cmpRecord 0x1201 st j _) ?_
  split
  · exact trafficOnly_raiseMs _ (by decide)
  · exact .refl _

/-- `n` jobs more have failed, and the jobs that the engine holds are as before. -/
def JobsFailed (n : Nat) (d e : Dev) : Prop := e.cmp = d.cmp ∧ e.jobCounts = (d.get CMP_JOBS_OK, min (d.get CMP_JOBS_FAIL + n) 4294967295)

theorem jobsFailed_none (d : Dev) : JobsFailed 0 d d :=
  ⟨rfl, Prod.ext rfl (Nat.min_eq_left (Nat.le_sub_one_of_lt (d.get_lt CMP_JOBS_FAIL))).symm⟩

theorem JobsFailed.trans {a b c : Dev} {n k : Nat} (h : JobsFailed n a b) (g : JobsFailed k b c) : JobsFailed (n + k) a c := by
  obtain ⟨hc, hn⟩ := h
  obtain ⟨gc, gn⟩ := g
  have h1 : b.get CMP_JOBS_OK = a.get CMP_JOBS_OK := congrArg Prod.fst hn
  have h2 : b.get CMP_JOBS_FAIL = min (a.get CMP_JOBS_FAIL + n) 4294967295 := congrArg Prod.snd hn
  refine ⟨gc.trans hc, gn.trans ?_⟩
  rw [h1, h2]
  congr 1
  omega

theorem jobsFailed_cmpFinish (j : CmpJob) {st : Nat} (h : st ≠ 0) (d : Dev) : JobsFailed 1 d (cmpFinish j st d) := by
  have t := cmpFinish_failed j h d
  refine ⟨t.cmp, t.jobCounts.trans ?_⟩
  unfold Dev.jobCounts
  rw [Dev.get_inc_same _ _ rfl, Dev.inc_eq, Dev.get_set_ne _ _ _ _ (by decide)]
  rfl

/-- Every job of a list ends as cancelled. -/
theorem jobsFailed_forL (js : List CmpJob) (d : Dev) : JobsFailed js.length d (forL js (fun j d => cmpFinish j 6 d) d) := by
  induction js generalizing d with
  | nil => exact jobsFailed_none d
  | cons j js ih =>
    rw [List.length_cons, Nat.add_comm]
    exact (jobsFailed_cmpFinish j (by decide) d).trans (ih _)

theorem cmpReachOff_rest (d : Dev) : d.SameBut (fun k => k = CMP_CFG_state.key) (cmpReachOff d) := by
  unfold cmpReachOff
  split
  · exact ((Dev.SameBut.refl _ d).set CMP_CFG_state (by rfl) _).set CMP_CFG_enable_pending (by rfl) _
  · exact .refl _ d

theorem cmpIdle_spec (arch : Bool) (d : Dev) :
    (cmpIdle arch d).cmp = { d.cmp with running := none, lastArch := arch } ∧ (cmpIdle arch d).jobCounts = d.jobCounts := by
  unfold cmpIdle
  have h := cmpReachOff_rest (d.withCmp (fun c => { c with running := none, lastArch := arch }))
  refine ⟨by rw [h.2]; exact cmp_withCmp _ d, ?_⟩
  rw [← jobCounts_withCmp (fun c => { c with running := none, lastArch := arch }) d]
  unfold Dev.jobCounts
  rw [h.get (by decide), h.get (by decide)]

theorem trafficOnly_cmpOpen (j : CmpJob) (d : Dev) : TrafficOnly d (cmpOpen j d).2 := trafficOnly_free ..

theorem TrafficOnly.jobsFailed {a b c : Dev} {n : Nat} (h : TrafficOnly a b) (g : JobsFailed n b c) : JobsFailed n a c := by
  obtain ⟨hc, hn⟩ := g
  refine ⟨hc.trans h.cmp, hn.trans ?_⟩
  rw [show b.get CMP_JOBS_OK = a.get CMP_JOBS_OK from congrArg Prod.fst h.jobCounts,
    show b.get CMP_JOBS_FAIL = a.get CMP_JOBS_FAIL from congrArg Prod.snd h.jobCounts]

/-- The running job ends as cancelled, and the engine runs none. -/
theorem cmpCancelRunning_spec (j : CmpJob) (d : Dev) : ∃ e, JobsFailed 1 d e ∧ cmpCancelRunning j d = cmpIdle false e := by
  have h1 := trafficOnly_cmpPrepare j d
  unfold cmpCancelRunning
  generalize cmpPrepare j d = r at h1
  obtain ⟨j1, d1⟩ := r
  have h2 := trafficOnly_drawNat d1
  dsimp only at h1 ⊢
  generalize d1.drawNat = r at h2
  obtain ⟨n, d2⟩ := r
  dsimp only at h2 ⊢
  have h3 := trafficOnly_cmpDeliver (j1.out.length + 1) { j1 with out := j1.out.take (n % (j1.out.length + 1)) } d2
  generalize cmpDeliver (j1.out.length + 1) { j1 with out := j1.out.take (n % (j1.out.length + 1)) } d2 = r at h3
  obtain ⟨j3, st, d3⟩ := r
  have h4 := trafficOnly_cmpOpen j3 d3
  dsimp only at h3 ⊢
  generalize cmpOpen j3 d3 = r at h4
  obtain ⟨j4, d4⟩ := r
  exact ⟨_, (h1.trans (h2.trans (h3.trans h4))).jobsFailed (jobsFailed_cmpFinish j4 (by decide) d4), rfl⟩

/-! ## CANCEL (R394) -/

/-- The jobs that a CANCEL of master `m` with tag `tag` meets. -/
def cancelHit (m tag : Nat) (j : CmpJob) : Bool := j.master == m && j.tag == tag && j.arch.isNone

/-- The jobs of the queues and slots that it ends. -/
def CmpSt.cancelled (c : CmpSt) (m tag : Nat) : List CmpJob :=
  c.pending.filter (cancelHit m tag) ++ c.resumed.filter (cancelHit m tag) ++ (c.ctx.filter (fun p => cancelHit m tag p.2)).map (fun p => p.2)

/-- The queues and slots without them. -/
def CmpSt.without (c : CmpSt) (m tag : Nat) : CmpSt :=
  { c with pending := c.pending.filter (fun j => !cancelHit m tag j), resumed := c.resumed.filter (fun j => !cancelHit m tag j),
           ctx := c.ctx.filter (fun p => !cancelHit m tag p.2) }

/-- A CANCEL that meets a job. -/
def cmpCancelled (m tag : Nat) (d : Dev) : Dev :=
  let e := forL (d.cmp.cancelled m tag) (fun j d => cmpFinish j 6 d) (d.withCmp (fun c => c.without m tag))
  match d.cmp.running.filter (cancelHit m tag) with
  | none => e
  | some j => cmpCancelRunning j e

theorem cmpCancel_eq (m tag : Nat) (d : Dev) : cmpCancel m tag d =
    if (d.cmp.cancelled m tag).isEmpty && (d.cmp.running.filter (cancelHit m tag)).isNone then d.setFlag CMP_STAT_cmd_refused true
    else cmpCancelled m tag d := rfl

theorem jobsFailed_withCmp {n : Nat} (g : CmpSt → CmpSt) {d e : Dev} (h : JobsFailed n (d.withCmp g) e) :
    e.cmp = g d.cmp ∧ e.jobCounts = (d.get CMP_JOBS_OK, min (d.get CMP_JOBS_FAIL + n) 4294967295) := by
  obtain ⟨hc, hn⟩ := h
  have hk := jobCounts_withCmp g d
  refine ⟨hc.trans (cmp_withCmp g d), hn.trans ?_⟩
  rw [show (d.withCmp g).get CMP_JOBS_OK = d.get CMP_JOBS_OK from congrArg Prod.fst hk,
    show (d.withCmp g).get CMP_JOBS_FAIL = d.get CMP_JOBS_FAIL from congrArg Prod.snd hk]

/-- The jobs that a CANCEL meets are gone, and each is counted. -/
theorem cmpCancelled_spec (m tag : Nat) (d : Dev) :
    let n := (d.cmp.cancelled m tag).length + (d.cmp.running.filter (cancelHit m tag)).toList.length
    let c := (cmpCancelled m tag d).cmp
    c.pending = (d.cmp.without m tag).pending ∧ c.resumed = (d.cmp.without m tag).resumed ∧ c.ctx = (d.cmp.without m tag).ctx ∧
      c.running = d.cmp.running.filter (fun j => !cancelHit m tag j) ∧
      (cmpCancelled m tag d).jobCounts = (d.get CMP_JOBS_OK, min (d.get CMP_JOBS_FAIL + n) 4294967295) := by
  have h := jobsFailed_forL (d.cmp.cancelled m tag) (d.withCmp (fun c => c.without m tag))
  unfold cmpCancelled
  dsimp only
  generalize forL (d.cmp.cancelled m tag) (fun j d => cmpFinish j 6 d) (d.withCmp (fun c => c.without m tag)) = e at h
  cases hr : d.cmp.running with
  | none =>
    obtain ⟨hc, hn⟩ := jobsFailed_withCmp _ h
    dsimp only [Option.filter_none]
    rw [hc, hn]
    exact ⟨rfl, rfl, rfl, hr, rfl⟩
  | some j =>
    cases hit : cancelHit m tag j with
    | false =>
      obtain ⟨hc, hn⟩ := jobsFailed_withCmp _ h
      rw [Option.filter_some_neg (by simp [hit]), Option.filter_some_pos (by simp [hit])]
      dsimp only
      rw [hc, hn]
      exact ⟨rfl, rfl, rfl, hr, rfl⟩
    | true =>
      obtain ⟨f, hf, he⟩ := cmpCancelRunning_spec j e
      obtain ⟨hc, hn⟩ := jobsFailed_withCmp _ (h.trans hf)
      obtain ⟨ic, ij⟩ := cmpIdle_spec false f
      rw [Option.filter_some_pos hit, Option.filter_some_neg (by simp [hit])]
      dsimp only
      rw [he, ic, ij, hc, hn]
      exact ⟨rfl, rfl, rfl, rfl, rfl⟩

/-! ## The commands -/

/-- The row of CMP_CMD. -/
def row_cmpCmd : RegRow := ⟨0x100034, [], false, .none, [⟨0, 2, .wo, 0, []⟩, ⟨2, 2, .wo, 0, []⟩, ⟨16, 16, .wo, 0, []⟩]⟩

theorem findRow_cmpCmd : findRow 0x100034 = some (row_cmpCmd, []) := by decide

theorem regWrite_cmpCmd (m v : Nat) (d : Dev) : regWrite {} m 0x100034 v d = cmpCmdWrite m v d := by
  unfold regWrite
  rw [findRow_cmpCmd]
  rfl

theorem cmpCmdWrite_stopped {d : Dev} (h : d.blockRuns 59 = false) (m v : Nat) : cmpCmdWrite m v d = d := by
  unfold cmpCmdWrite cmpWork
  rw [h]
  rfl

theorem cmpCmdWrite_cancel {d : Dev} (h : d.blockRuns 59 ≠ false) (m : Nat) (tag : BitVec 16) :
    cmpCmdWrite m (1 + 65536 * tag.toNat) d = cmpCancel m tag.toNat d := by
  have hb : bits (1 + 65536 * tag.toNat) 16 16 = tag.toNat := by
    have := tag.isLt
    simp only [bits]
    omega
  unfold cmpCmdWrite cmpWork
  rw [if_pos (by simpa using h)]
  dsimp only
  rw [if_pos (by omega), hb]

theorem cmpCmdWrite_resume {d : Dev} (h : d.blockRuns 59 ≠ false) (m : Nat) (k : Fin 4) :
    cmpCmdWrite m (2 + 4 * k.val) d = cmpResume k.val d := by
  have hb : bits (2 + 4 * k.val) 2 2 = k.val := by
    simp only [bits]
    omega
  unfold cmpCmdWrite cmpWork
  rw [if_pos (by simpa using h)]
  dsimp only
  rw [if_neg (by omega), if_pos (by omega), hb]

/-- The row of CMP_CFG. -/
def row_cmpCfg : RegRow :=
  ⟨0x100000, [], false, .none, [⟨0, 1, .rw, 1, []⟩, ⟨1, 2, .ro, 0, []⟩, ⟨3, 1, .ro, 0, []⟩, ⟨4, 6, .rw, 0, []⟩, ⟨10, 1, .rw, 0, []⟩]⟩

theorem findRow_cmpCfg : findRow 0x100000 = some (row_cmpCfg, []) := by decide

theorem regWrite_cmpCfg (m v : Nat) (d : Dev) : regWrite {} m 0x100000 v d = cmpCfgWrite v d := by
  unfold regWrite
  rw [findRow_cmpCfg]
  rfl

/-- The fields of CMP_CFG beside enable. -/
def cmpCfgFields (v : Nat) (d : Dev) : Dev := (d.set CMP_CFG_queue (bits v 4 6)).set CMP_CFG_rec_en (bits v 10 1)

theorem cmpCfgWrite_eq (v : Nat) (d : Dev) : cmpCfgWrite v d = cmpEnableWrite (bitAt v 0) (cmpCfgFields v d) := rfl

theorem get_cmpCfgFields (v : Nat) (d : Dev) {f : Fld} (h1 : CMP_CFG_queue.apart f = true) (h2 : CMP_CFG_rec_en.apart f = true) :
    (cmpCfgFields v d).get f = d.get f := by
  unfold cmpCfgFields
  rw [Dev.get_set_apart _ _ _ _ rfl h2, Dev.get_set_apart _ _ _ _ rfl h1]

theorem cmp_setFlag (d : Dev) (f : Fld) (b : Bool) : (d.setFlag f b).cmp = d.cmp := rfl

theorem cmp_cmpReachOff (d : Dev) : (cmpReachOff d).cmp = d.cmp := by rw [(cmpReachOff_rest d).2]

theorem enable_cmpReachOff (d : Dev) : (cmpReachOff d).flag CMP_CFG_enable = d.flag CMP_CFG_enable := by
  unfold cmpReachOff
  split
  · simp only [Dev.flag_eq, Dev.setFlag_eq]
    rw [Dev.get_set_apart _ CMP_CFG_enable_pending _ _ rfl rfl, Dev.get_set_apart _ CMP_CFG_state _ _ rfl rfl]
  · rfl

/-- An engine that is not enabled reaches OFF from DISABLING once it runs no job. -/
theorem state_cmpReachOff {d : Dev} (h2 : d.get CMP_CFG_state = 2) (he : d.flag CMP_CFG_enable = false) :
    (cmpReachOff d).get CMP_CFG_state = if d.blockRuns 59 = true ∧ d.cmp.running = none then 0 else 2 := by
  unfold cmpReachOff
  by_cases c : d.blockRuns 59 = true ∧ d.cmp.running = none
  · rw [if_pos (by simp [c.1, c.2, h2]), if_pos c, Dev.setFlag_eq, Dev.get_set_apart _ CMP_CFG_enable_pending _ _ rfl rfl,
      Dev.get_set_same _ _ _ rfl, he, Bool.and_false]
    rfl
  · rw [if_neg (by simpa [h2] using c), if_neg c, h2]

/-- The enable field takes what is written, and no job changes. -/
theorem cmpEnableWrite_flag (on : Bool) (d : Dev) :
    (cmpEnableWrite on d).flag CMP_CFG_enable = on ∧ (cmpEnableWrite on d).cmp = d.cmp := by
  have same : (d.setFlag CMP_CFG_enable on).flag CMP_CFG_enable = on := Dev.flag_setFlag_same _ _ _ rfl rfl
  have past (f : Fld) (v : Nat) (hw : f.inWord = true) (hf : f.apart CMP_CFG_enable = true) :
      ((d.setFlag CMP_CFG_enable on).set f v).flag CMP_CFG_enable = on := by
    rw [Dev.flag_eq, Dev.get_set_apart _ _ _ _ hw hf, ← Dev.flag_eq, same]
  unfold cmpEnableWrite
  dsimp only
  split
  · exact ⟨past CMP_CFG_enable_pending _ rfl rfl, rfl⟩
  · split
    · next h => exact ⟨h, rfl⟩
    · split
      · split
        · exact ⟨past CMP_CFG_state _ rfl rfl, rfl⟩
        · exact ⟨same, rfl⟩
      · split
        · exact ⟨(enable_cmpReachOff _).trans (past CMP_CFG_state _ rfl rfl), cmp_cmpReachOff _⟩
        · exact ⟨same, rfl⟩

theorem cmpEnableWrite_disabling {d : Dev} (h : d.get CMP_CFG_state = 2) (on : Bool) :
    (cmpEnableWrite on d).get CMP_CFG_state = 2 ∧ (cmpEnableWrite on d).flag CMP_CFG_enable_pending = on := by
  unfold cmpEnableWrite
  dsimp only
  rw [if_pos h]
  refine ⟨?_, Dev.flag_setFlag_same _ _ _ rfl rfl⟩
  rw [Dev.setFlag_eq, Dev.setFlag_eq, Dev.get_set_apart _ CMP_CFG_enable_pending _ _ rfl rfl, Dev.get_set_apart _ CMP_CFG_enable _ _ rfl rfl, h]

theorem cmpEnableWrite_off {d : Dev} (h : d.get CMP_CFG_state = 0) (he : d.flag CMP_CFG_enable = false) :
    (cmpEnableWrite true d).get CMP_CFG_state = 1 := by
  unfold cmpEnableWrite
  dsimp only
  rw [if_neg (by omega), if_neg (by rw [he]; decide), if_pos rfl, if_pos h]
  exact Dev.get_set_same _ _ _ rfl

theorem cmpEnableWrite_on {d : Dev} (h : d.get CMP_CFG_state = 1) : (cmpEnableWrite true d).get CMP_CFG_state = 1 := by
  unfold cmpEnableWrite
  dsimp only
  rw [if_neg (by omega)]
  split
  · exact h
  · rw [if_pos rfl, if_neg (by omega), Dev.setFlag_eq, Dev.get_set_apart _ CMP_CFG_enable _ _ rfl rfl, h]

theorem cmpEnableWrite_leaves {d : Dev} (h : d.get CMP_CFG_state = 1) (he : d.flag CMP_CFG_enable = true) :
    (cmpEnableWrite false d).get CMP_CFG_state = if d.blockRuns 59 = true ∧ d.cmp.running = none then 0 else 2 := by
  unfold cmpEnableWrite
  dsimp only
  rw [if_neg (by omega), if_neg (by rw [he]; decide), if_neg Bool.false_ne_true, if_pos h]
  refine (state_cmpReachOff (Dev.get_set_same _ _ _ rfl) ?_).trans rfl
  rw [Dev.flag_eq, Dev.get_set_apart _ CMP_CFG_state _ _ rfl rfl, ← Dev.flag_eq]
  exact Dev.flag_setFlag_same _ _ _ rfl rfl

/-- A CANCEL as the obligation counts what it meets. -/
theorem cancelActs (m tag : Nat) (d : Dev) :
    let hits := (d.cmp.pending.filter (cancelHit m tag)).length + (d.cmp.resumed.filter (cancelHit m tag)).length +
      (d.cmp.ctx.filter (fun p => cancelHit m tag p.2)).length + (d.cmp.running.filter (cancelHit m tag)).toList.length
    (hits = 0 → cmpCancel m tag d = d.setFlag CMP_STAT_cmd_refused true) ∧ (hits ≠ 0 → cmpCancel m tag d = cmpCancelled m tag d) ∧
    (d.cmp.cancelled m tag).length + (d.cmp.running.filter (cancelHit m tag)).toList.length = hits := by
  intro hits
  have hl : (d.cmp.cancelled m tag).length + (d.cmp.running.filter (cancelHit m tag)).toList.length = hits := by
    unfold CmpSt.cancelled hits
    rw [List.length_append, List.length_append, List.length_map]
  have hz : ((d.cmp.cancelled m tag).isEmpty && (d.cmp.running.filter (cancelHit m tag)).isNone) = true ↔ hits = 0 := by
    rw [← hl, Bool.and_eq_true, List.isEmpty_iff_length_eq_zero, Nat.add_eq_zero_iff]
    cases d.cmp.running.filter (cancelHit m tag) <;> simp
  rw [cmpCancel_eq]
  exact ⟨fun h => if_pos (hz.mpr h), fun h => if_neg (fun c => h (hz.mp c)), hl⟩

/-- RESUME of a job whose next is not readable (R389). -/
theorem cmpResume_error {k : Nat} {j : CmpJob} {st : Nat} {d e : Dev} (hj : lookup k d.cmp.ctx = some j)
    (hr : cmpRead (j.buf + 0x10) 8 d = (.error st, e)) :
    cmpResume k d = cmpFinish j st (e.withCmp (fun c => { c with ctx := eraseKey k c.ctx })) := by
  unfold cmpResume
  rw [hj]
  dsimp only
  rw [hr]

/-- RESUME of a job whose next is read (R389). -/
theorem cmpResume_ok {k : Nat} {j : CmpJob} {b : List Byte} {d e : Dev} (hj : lookup k d.cmp.ctx = some j)
    (hr : cmpRead (j.buf + 0x10) 8 d = (.ok b, e)) : cmpResume k d =
      if leAt b 0 8 = 0 then e
      else e.withCmp (fun c => { c with ctx := eraseKey k c.ctx, resumed := c.resumed ++ [{ j with buf := leAt b 0 8, used := 0 }] }) := by
  unfold cmpResume
  rw [hj]
  dsimp only
  rw [hr]

theorem jobCommandsAct : Rules.JobCommandsAct := by
  intro s m hr
  have command {v : Nat} (hw : s.dev.Writes m 0x100034 v) : regCmd m 0x100034 v s.dev = cmpCmdWrite m v s.dev :=
    (regCmd_of_writes hw (by decide) (by decide) (by decide)).trans (regWrite_cmpCmd ..)
  have enable {b : Bool} (hw : s.dev.WritesField m 0x100000 0 1 (b2n b)) :
      ∃ v, regKeep m 0x100000 0 1 (b2n b) s.dev = cmpEnableWrite b (cmpCfgFields v s.dev) := by
    refine ⟨putBits (s.dev.rwHeld 0x100000) 0 1 (b2n b), ((regKeep_of_writes hw (by decide) (by decide) (by decide)).trans (regWrite_cmpCfg ..)).trans ?_⟩
    rw [cmpCfgWrite_eq, bitAt_eq, bits_putBits_same]
    cases b <;> rfl
  have fields (v : Nat) (f : Fld) (h1 : CMP_CFG_queue.apart f = true) (h2 : CMP_CFG_rec_en.apart f = true) := get_cmpCfgFields v s.dev h1 h2
  refine ⟨fun tag hw => ?_, fun k hw => ?_, fun hw => ?_, fun hw => ?_⟩
  · split
    · next hb => exact completes_of rfl hr ((command hw).trans (cmpCmdWrite_stopped hb _ _))
    · next hb =>
      obtain ⟨none, some, hl⟩ := cancelActs m.val tag.toNat s.dev
      have run := (command hw).trans (cmpCmdWrite_cancel hb m.val tag)
      refine ⟨fun h => ⟨_, completes_of rfl hr (run.trans (none h)), Dev.flag_setFlag_same _ _ _ rfl rfl,
        (Dev.SameBut.refl _ _).set CMP_STAT_cmd_refused (by rfl) _⟩, fun h => ⟨_, completes_of rfl hr (run.trans (some h)), ?_⟩⟩
      obtain ⟨hp, hre, hc, hru, hn⟩ := cmpCancelled_spec m.val tag.toNat s.dev
      rw [hl] at hn
      exact ⟨hp, hre, hc, hru, congrArg Prod.fst hn, congrArg Prod.snd hn⟩
  · split
    · next hb => exact completes_of rfl hr ((command hw).trans (cmpCmdWrite_stopped hb _ _))
    · next hb =>
      have run := (command hw).trans (cmpCmdWrite_resume hb m.val k)
      refine ⟨fun h => ?_, fun j b e hj he => ?_, fun j st e hj he => ?_⟩
      · refine ⟨_, completes_of rfl hr (run.trans (by unfold cmpResume; rw [h])), Dev.flag_setFlag_same _ _ _ rfl rfl, rfl⟩
      · have t := trafficOnly_cmpRead (j.buf + 0x10) 8 s.dev
        rw [he] at t
        refine ⟨_, completes_of rfl hr (run.trans (cmpResume_ok hj he)), ?_⟩
        split
        · exact t.cmp
        · unfold Dev.withCmp
          rw [suspended_cmpShow _ k.isLt, cmp_cmpShow]
          dsimp only
          rw [lookup_eraseKey_same, t.cmp]
          exact ⟨rfl, rfl, rfl⟩
      · have t := trafficOnly_cmpRead (j.buf + 0x10) 8 s.dev
        rw [he] at t
        refine ⟨_, completes_of rfl hr (run.trans (cmpResume_error hj he)), ?_⟩
        obtain ⟨hc, hn⟩ := jobsFailed_withCmp _ (jobsFailed_cmpFinish j (cmpRead_error he) (e.withCmp (fun c => { c with ctx := eraseKey k c.ctx })))
        rw [hc]
        refine ⟨lookup_eraseKey_same _ _, by rw [t.cmp], (congrArg Prod.snd hn).trans ?_⟩
        rw [show e.get CMP_JOBS_FAIL = s.dev.get CMP_JOBS_FAIL from congrArg Prod.snd t.jobCounts]
  · obtain ⟨v, hv⟩ := enable (b := true) hw
    obtain ⟨hf, hc⟩ := cmpEnableWrite_flag true (cmpCfgFields v s.dev)
    have st := fields v CMP_CFG_state rfl rfl
    refine ⟨_, completes_of rfl hr hv, hf, hc, fun h0 he => cmpEnableWrite_off (st.trans h0) ?_, fun h => cmpEnableWrite_on (st.trans h),
      fun h => cmpEnableWrite_disabling (st.trans h) true⟩
    rw [Dev.flag_eq, fields v CMP_CFG_enable rfl rfl, ← Dev.flag_eq, he]
  · obtain ⟨v, hv⟩ := enable (b := false) hw
    obtain ⟨hf, hc⟩ := cmpEnableWrite_flag false (cmpCfgFields v s.dev)
    have st := fields v CMP_CFG_state rfl rfl
    refine ⟨_, completes_of rfl hr hv, hf, hc, fun h1 he => cmpEnableWrite_leaves (st.trans h1) ?_,
      fun h => cmpEnableWrite_disabling (st.trans h) false⟩
    rw [Dev.flag_eq, fields v CMP_CFG_enable rfl rfl, ← Dev.flag_eq, he]

/-- Settles O55: the submission by its three outcomes, the commands by what each finds. -/
theorem compressionIsCommanded : Obligations.CompressionIsCommanded := ⟨jobsAreSubmitted, jobCommandsAct⟩

end Sys2Proof.Machine
end

section
/-! PROOF. What the conditions looked at after a command leave alone: the grids of the Collator and the scheduler, but for a teardown. -/
namespace Sys2Proof.Machine

/-- The grids of the Collator, and the scheduler. -/
def Dev.core (d : Dev) : List (Nat × GridSt) × SchSt := (d.col.grids, d.sch)

/-! ## Updates, repetition and traffic -/

@[simp] theorem core_set (d : Dev) (f : Fld) (v : Nat) : (d.set f v).core = d.core := rfl
@[simp] theorem core_setFlag (d : Dev) (f : Fld) (b : Bool) : (d.setFlag f b).core = d.core := rfl
@[simp] theorem core_set2 (d : Dev) (f g : Fld) (v : Nat) : (d.set2 f g v).core = d.core := rfl
@[simp] theorem core_inc (d : Dev) (f : Fld) : (d.inc f).core = d.core := rfl
@[simp] theorem core_incWrap (d : Dev) (f : Fld) : (d.incWrap f).core = d.core := rfl
@[simp] theorem core_xdrop (d : Dev) : (xdrop d).core = d.core := rfl
@[simp] theorem core_spn (d : Dev) (x : SpnSt) : ({ d with spn := x } : Dev).core = d.core := rfl
@[simp] theorem core_enr (d : Dev) (x : EnrSt) : ({ d with enr := x } : Dev).core = d.core := rfl
@[simp] theorem core_acq (d : Dev) (x : AcqSt) : ({ d with acq := x } : Dev).core = d.core := rfl
@[simp] theorem core_det (d : Dev) (x : DetSt) : ({ d with det := x } : Dev).core = d.core := rfl
@[simp] theorem core_le (d : Dev) (x : LeSt) : ({ d with le := x } : Dev).core = d.core := rfl
@[simp] theorem core_bnd (d : Dev) (x : BndSt) : ({ d with bnd := x } : Dev).core = d.core := rfl
@[simp] theorem core_time (d : Dev) (x : TimeSt) : ({ d with time := x } : Dev).core = d.core := rfl

@[simp] theorem core_withBnd (f : BndSt → BndSt) (d : Dev) : (d.withBnd f).core = d.core := rfl

theorem core_forN {f : Nat → Dev → Dev} (h : ∀ i d, (f i d).core = d.core) (n : Nat) (d : Dev) : (forN n f d).core = d.core :=
  forN_keeps (P := fun e => e.core = d.core) (fun i _ e he => (h i e).trans he) d rfl

theorem core_forL {α : Type} {f : α → Dev → Dev} (h : ∀ a d, (f a d).core = d.core) (xs : List α) (d : Dev) : (forL xs f d).core = d.core :=
  forL_keeps (P := fun e => e.core = d.core) (fun a e he => (h a e).trans he) xs d rfl

theorem core_iterate {f : Dev → Option Dev} (h : ∀ d e, f d = some e → e.core = d.core) (n : Nat) (d : Dev) : (iterate n f d).core = d.core := by
  induction n generalizing d with
  | zero => rfl
  | succ n ih =>
    unfold iterate
    split
    · rfl
    · next e he => rw [ih, h d e he]

theorem TrafficOnly.core {d e : Dev} (h : TrafficOnly d e) : e.core = d.core := by
  unfold Dev.core
  rw [h.col, h.sch]

@[simp] theorem core_hostWrite (e a : Nat) (bs : List Byte) (d : Dev) : (d.hostWrite e a bs).core = d.core := (eventOnly_hostWrite e a bs d).traffic.core

@[simp] theorem core_msixSend (e v : Nat) (d : Dev) : (msixSend e v d).core = d.core := by
  unfold msixSend
  split
  · rfl
  · exact core_hostWrite ..

@[simp] theorem core_evPend (t s : Nat) (d : Dev) : (evPend t s d).core = d.core := by
  unfold evPend
  dsimp only
  split
  · rw [core_msixSend, core_set]
  · rfl

@[simp] theorem core_raise (s : Nat) (d : Dev) : (raise s d).core = d.core := by
  have pend (c : Bool) (t : Nat) (e : Dev) : (if c then evPend t s e else e).core = e.core := by
    split
    · exact core_evPend ..
    · rfl
  unfold raise
  extract_lets d1 d2 d3
  have h : d3.core = d.core := (pend _ _ _).trans ((pend _ _ _).trans (pend _ _ _))
  split
  · exact h
  · exact h

@[simp] theorem core_raiseMs (s : Nat) (d : Dev) : (raiseMs s d).core = d.core := by
  have merged : (raiseMerged s d).core = d.core := by
    unfold raiseMerged
    split
    · rfl
    · split
      · rfl
      · exact core_raise ..
  unfold raiseMs
  dsimp only
  split
  · split
    · exact merged
    · exact merged
  · exact (core_raise ..).trans merged

theorem core_publish (d : Dev) : (publish d).core = d.core := by rw [publish_rest]; rfl

/-! ## Sending over Ethernet -/

@[simp] theorem core_putPort (p : Nat) (e : EthPort) (d : Dev) : (d.putPort p e).core = d.core := rfl

@[simp] theorem core_outStart (p : Nat) (i : TxItem) (d : Dev) : (outStart p i d).core = d.core := by
  unfold outStart
  split
  · split
    · exact core_raiseMs ..
    · rfl
  · rfl

@[simp] theorem core_txStart (p : Nat) (d : Dev) : (txStart p d).core = d.core := by
  unfold txStart
  dsimp only
  split
  · rfl
  · split
    · rfl
    · split
      · rfl
      · split
        · rw [core_outStart, core_putPort]
        · rfl

@[simp] theorem core_holdStart (p ns : Nat) (d : Dev) : (holdStart p ns d).core = d.core := by
  unfold holdStart
  dsimp only
  split
  · rw [core_txStart]; rfl
  · rfl

@[simp] theorem core_txHold (p : Nat) (d : Dev) : (txHold p d).core = d.core := by
  unfold txHold
  split
  · exact core_holdStart ..
  · rfl

@[simp] theorem core_txPreempt (p : Nat) (d : Dev) : (txPreempt p d).core = d.core := by
  unfold txPreempt
  dsimp only
  split
  · split
    · split
      · rfl
      · rw [core_txStart, core_txHold, core_putPort]
        split <;> rfl
    · rfl
  · rfl

@[simp] theorem core_ethEvent (p cause : Nat) (d : Dev) : (ethEvent p cause d).core = d.core := by
  unfold ethEvent
  rw [core_raiseMs, core_set]

@[simp] theorem core_txWriteBack (p h first count status stamp : Nat) (ts irq : Bool) (d : Dev) :
    (txWriteBack p h first count status stamp ts irq d).core = d.core := by
  unfold txWriteBack
  extract_lets d1 d2 d3
  have h1 : d1.core = d.core := core_forN (fun _ _ => core_hostWrite ..) _ _
  have h3 : d3.core = d.core := by
    refine Eq.trans (b := d2.core) rfl (Eq.trans ?_ h1)
    unfold d2
    split
    · exact core_hostWrite ..
    · rfl
  split
  · exact (core_ethEvent ..).trans h3
  · exact h3

@[simp] theorem core_txDrop (p : Nat) (it : TxItem) (d : Dev) : (txDrop p it d).core = d.core := by
  have h : (if d.xingDead (1 + p) then xdrop d else ethCount p 19 d).core = d.core := by split <;> rfl
  unfold txDrop
  dsimp only
  split
  · rw [core_txWriteBack, h]
  · exact h

@[simp] theorem core_txDiscard (p : Nat) (it : TxItem) (d : Dev) : (txDiscard p it d).core = d.core := by
  unfold txDiscard
  dsimp only
  split
  · rw [core_inc, core_txDrop]
  · rw [core_inc, core_txDrop]
  · exact core_txDrop ..

@[simp] theorem core_ethSend (p : Nat) (it : TxItem) (d : Dev) : (ethSend p it d).core = d.core := by
  unfold ethSend
  dsimp only
  split
  · exact core_txDiscard ..
  · rw [core_txPreempt, core_txStart, core_putPort]
    split <;> rfl

/-! ## The spine and the pair -/

@[simp] theorem core_spineB (bs : List Byte) (d : Dev) : (spineB bs d).core = d.core := by
  unfold spineB
  split
  · rfl
  · exact core_ethSend ..

@[simp] theorem core_spnStart (m : SpnMsg) (d : Dev) : (spnStart m d).core = d.core := by
  unfold spnStart
  extract_lets bs src d1 d2 src' d3
  have h1 : d1.core = d.core := by unfold d1; split <;> rfl
  have h3 : d3.core = d.core := by
    refine Eq.trans ?_ h1
    unfold d3
    split
    · rfl
    · split <;> rfl
  split
  · exact (core_spineB ..).trans h3
  · exact h3

@[simp] theorem core_spnNext (d : Dev) : (spnNext d).core = d.core := by
  refine core_iterate (fun d e h => ?_) _ d
  split at h
  · cases h
  · split at h
    · cases h
      exact core_spnStart ..
    · cases h

@[simp] theorem core_spnSend (ty : Nat) (last : Bool) (ref : Nat) (body : List Byte) (d : Dev) : (spnSend ty last ref body d).core = d.core := by
  unfold spnSend
  dsimp only
  split
  · rw [core_spnStart, core_spn]
  · rw [core_spnNext, core_spn]

@[simp] theorem core_actingEnd (d : Dev) : (actingEnd d).core = d.core := by
  unfold actingEnd
  dsimp only
  split
  · rfl
  · rw [core_raise]; rfl

@[simp] theorem core_pairEnter (st : Nat) (d : Dev) : (pairEnter st d).core = d.core := by
  unfold pairEnter spnEval
  dsimp only
  split
  · rfl
  · split
    · rfl
    · exact core_actingEnd ..

@[simp] theorem core_pairRelease (cause : Nat) (d : Dev) : (pairRelease cause d).core = d.core := by
  unfold pairRelease
  dsimp only
  rw [core_raise]
  split
  · rw [core_spnSend, core_pairEnter]; rfl
  · rw [core_pairEnter]; rfl

@[simp] theorem core_pairRebind (d : Dev) : (pairRebind d).core = d.core := by
  unfold pairRebind
  dsimp only
  split
  · rw [core_spnSend, core_pairEnter]; rfl
  · rw [core_pairEnter]; rfl

@[simp] theorem core_diagEval (d : Dev) : (diagEval d).core = d.core := by
  unfold diagEval
  extract_lets old new d1 fresh d2
  have h2 : d2.core = d.core := by
    unfold d2
    split <;> rfl
  split
  · exact (core_pairRelease ..).trans h2
  · exact h2

@[simp] theorem core_returnEval (d : Dev) : (returnEval d).core = d.core := by
  unfold returnEval
  split
  · split <;> rfl
  · split <;> rfl

/-! ## Acquisition and energy -/

@[simp] theorem core_acqEvent (e : AcqEv) (d : Dev) : (acqEvent e d).core = d.core := by
  unfold acqEvent
  dsimp only
  rw [core_acq]
  split
  · rw [core_raiseMs, core_inc]
  · rfl

@[simp] theorem core_acqNotice (d : Dev) : (acqNotice d).core = d.core := by
  have ht : (timeNotice d).core = d.core := by
    unfold timeNotice
    split
    · split <;> rfl
    · rfl
  unfold acqNotice
  extract_lets d1 sets d2
  split
  · split
    · exact ht
    · exact ht
  · refine (core_forN (fun k d => ?_) _ _).trans ht
    extract_lets kind i new old fires t
    split
    · rfl
    · split
      · exact core_acqEvent ..
      · rfl

theorem Dev.force_lt (d : Dev) (f : Fld) : d.force f < 2 ^ f.width := by
  unfold Dev.force
  split
  · exact bits_lt _ _ _
  · exact d.get_lt f

@[simp] theorem core_ivRecord (code c flags len off start imp exp : Nat) (d : Dev) : (ivRecord code c flags len off start imp exp d).core = d.core := by
  unfold ivRecord
  split
  · exact (trafficOnly_queueRecord (d.force_lt ENR_CFG_queue) _ d).core
  · rfl

@[simp] theorem core_ivCloseCh (start c : Nat) (d : Dev) : (ivCloseCh start c d).core = d.core := by
  have offsets (d : Dev) : (applyOffsets c d).core = d.core := by
    refine core_forL (fun q d => ?_) _ d
    dsimp only
    split <;> rfl
  unfold ivCloseCh
  split
  · rfl
  · dsimp only
    rw [core_ivRecord]
    split
    · rfl
    · exact offsets d

theorem core_putIvl (c q v : Nat) (d : Dev) : (d.putIvl c q v).core = d.core := by
  unfold Dev.putIvl
  exact core_set2 ..

theorem core_showChannel (c : Nat) (d : Dev) : (showChannel c d).core = d.core := by
  unfold showChannel
  rw [core_set, core_setFlag, core_setFlag]

@[simp] theorem core_ivClose (start : Nat) (d : Dev) : (ivClose start d).core = d.core := by
  have clear (d : Dev) : (forN 16 (fun c d => forN 4 (fun q d => d.putIvl c q 0) d) d).core = d.core :=
    core_forN (fun c d => core_forN (fun q d => core_putIvl c q 0 d) 4 d) 16 d
  unfold ivClose
  rw [core_raise, core_enr, clear]
  exact core_forN (core_ivCloseCh start) 16 d

@[simp] theorem core_ivApply (hour : Bool) (d : Dev) : (ivApply hour d).core = d.core := by
  unfold ivApply
  exact (core_forN core_showChannel 16 _).trans (core_enr ..)

@[simp] theorem core_ivJump (start : Nat) (step : Bool) (d : Dev) : (ivJump start step d).core = d.core := by
  have flag (i : Nat) (d : Dev) : (ivFlagAll i d).core = d.core := rfl
  have opens (start : Int) (b : Bool) (d : Dev) : (ivOpen start b d).core = d.core := rfl
  unfold ivJump
  extract_lets e cal d1 d2 fwd old d3 len cur hour gap off d4
  have h2 : d2.core = d.core := by
    unfold d2
    rw [core_ivClose]
    split <;> rfl
  have h3 : d3.core = d.core := by
    refine Eq.trans ?_ h2
    unfold d3
    split
    · exact core_ivApply ..
    · rfl
  have h4 : d4.core = d.core := by
    refine Eq.trans ?_ h3
    unfold d4
    split
    · refine core_forN (fun c d => ?_) _ _
      split
      · exact core_ivRecord ..
      · rfl
    · rfl
  exact (opens ..).trans h4

@[simp] theorem core_enrEval (step : Bool) (d : Dev) : (enrEval step d).core = d.core := by
  have flag (i : Nat) (d : Dev) : (ivFlagAll i d).core = d.core := rfl
  unfold enrEval
  extract_lets step' enr d1 cur enr' d2 d3 d4 src
  split
  · rfl
  · split
    · rfl
    · extract_lets e
      have h2 : d2.core = d.core := by unfold d2; split <;> rfl
      have h4 : d4.core = d.core := by
        unfold d4 d3
        split <;> split <;> exact h2
      split
      · exact h4
      · exact (core_ivJump ..).trans h2

@[simp] theorem core_enrSettle (d : Dev) : (enrSettle d).core = d.core := by
  have flag (c : Bool) (i : Nat) (d : Dev) : (if c then ivFlagAll i d else d).core = d.core := by split <;> rfl
  unfold enrSettle
  dsimp only
  rw [flag, flag]
  split
  · rw [core_enrEval]; rfl
  · rfl

/-! ## Alarms -/

@[simp] theorem core_detPublish (d : Dev) : (detPublish d).core = d.core := by
  unfold detPublish
  dsimp only
  rw [core_setFlag, core_set]
  exact core_forN (fun c e => by rw [core_setFlag, core_set, core_set]) 12 d

@[simp] theorem core_noticeSend (rs : List AlmRec) (d : Dev) : (noticeSend rs d).core = d.core := by
  unfold noticeSend
  extract_lets p payload udp bs det d1 n det' d2
  split
  · rw [core_ethSend]
    unfold d2
    split <;> rfl
  · rfl

@[simp] theorem core_almOut (rs : List AlmRec) (d : Dev) : (almOut rs d).core = d.core := by
  unfold almOut
  extract_lets d1 ns
  have h1 : d1.core = d.core := by
    refine core_forL (fun r d => ?_) _ _
    split
    · exact (trafficOnly_queueRecord (d.get_lt (DET_CLASS_CFG_queue r.cls)) _ d).core
    · rfl
  split
  · exact (core_forL (fun _ _ => core_noticeSend ..) _ _).trans h1
  · exact h1

theorem core_pendResolve (x : PendPoint) (outcome extra : Nat) (acc : List AlmRec × Dev) : (pendResolve x outcome extra acc).2.core = acc.2.core := by
  unfold pendResolve almForm
  dsimp only
  split
  · unfold Dev.putAst
    split <;> rfl
  · rfl

theorem core_pendFinal (x : PendPoint) (arrived : Nat) (acc : List AlmRec × Dev) : (pendFinal x arrived acc).2.core = acc.2.core := by
  unfold pendFinal
  dsimp only
  split
  · split
    · split
      · exact core_pendResolve ..
      · exact core_pendResolve ..
    · rfl
  · rfl

theorem core_pendFinals (xs : List PendPoint) (arrived : Nat) (acc : List AlmRec × Dev) :
    (forL xs (fun x acc => pendFinal x arrived acc) acc).2.core = acc.2.core := by
  induction xs generalizing acc with
  | nil => rfl
  | cons x xs ih => exact (ih _).trans (core_pendFinal ..)

@[simp] theorem core_detFinalOne (nt : Notice) (d : Dev) : (detFinalOne nt d).core = d.core := by
  unfold detFinalOne
  extract_lets det d1
  generalize List.partition _ d1.det.pend = parts
  obtain ⟨mine, rest⟩ := parts
  dsimp only
  have h := core_pendFinals mine nt.arrived ([], detPendShow { d1 with det := { d1.det with pend := rest } })
  generalize forL mine (fun x acc => pendFinal x nt.arrived acc) ([], detPendShow { d1 with det := { d1.det with pend := rest } }) = r at h ⊢
  obtain ⟨rs, e⟩ := r
  dsimp only at h ⊢
  split
  · exact h
  · rw [core_detPublish, core_almOut]
    exact h

@[simp] theorem core_detFinals (d : Dev) : (detFinals d).core = d.core := core_forL (fun _ _ => core_detFinalOne ..) _ _

/-! ## The logic engine -/

@[simp] theorem core_gooseState (b : Nat) (ms : List Nat) (d : Dev) : (gooseState b ms d).core = d.core := by
  have send (t : Nat) (d : Dev) : (gooseSend b t d).core = d.core := by
    unfold gooseSend
    extract_lets x bs d1
    split
    · exact core_ethSend ..
    · rfl
  exact (send ..).trans rfl

@[simp] theorem core_gooseSync (d : Dev) : (gooseSync d).core = d.core := by
  unfold gooseSync
  split
  · rfl
  · refine core_forN (fun b d => ?_) _ _
    dsimp only
    split
    · split
      · exact core_gooseState ..
      · rfl
    · rfl

@[simp] theorem core_swapDisarm (d : Dev) : (swapDisarm d).core = d.core := by
  unfold swapDisarm
  split
  · exact core_raise ..
  · rfl

@[simp] theorem core_leStart (warm : Bool) (d : Dev) : (leStart warm d).core = d.core := by
  unfold leStart
  split
  · rfl
  · rfl
  · rfl
  · split
    · rfl
    · dsimp only
      split <;> rfl

@[simp] theorem core_leRelease (d : Dev) : (leRelease d).core = d.core := by
  refine (core_forN (fun b d => ?_) _ _).trans rfl
  dsimp only
  split <;> rfl

@[simp] theorem core_leStopped (d : Dev) : (leStopped d).core = d.core := by
  unfold leStopped
  dsimp only
  split
  · rw [core_leStart, core_setFlag, core_raise, core_leRelease, core_set]
  · rw [core_raise, core_leRelease, core_set]

@[simp] theorem core_saveStart (d : Dev) : (saveStart d).core = d.core := by
  unfold saveStart
  dsimp only
  split
  · rfl
  · split <;> rfl

@[simp] theorem core_shutRelease (d : Dev) : (shutRelease d).core = d.core := by
  have h1 : (if d.paired then pairRelease 7 d else if d.pairState = 1 then pairEnter 0 d else d).core = d.core := by
    split
    · exact core_pairRelease ..
    · split
      · exact core_pairEnter ..
      · rfl
  unfold shutRelease
  extract_lets d1 st
  refine (core_saveStart _).trans (Eq.trans (b := d1.core) ?_ h1)
  split
  · exact (core_leStopped _).trans (core_swapDisarm _)
  · rfl

/-! ## Teardown -/

/-- A teardown leaves no grid and no task. -/
def Dev.torn (d : Dev) : Prop := d.core.1 = [] ∧ d.core.2.next = 0 ∧ d.core.2.engines = []

theorem torn_of_core {d e : Dev} (h : e.core = d.core) (ht : d.torn) : e.torn := by
  unfold Dev.torn
  rw [h]
  exact ht

theorem torn_teardown (d : Dev) : (teardown d).torn := by
  unfold teardown
  extract_lets mode e b f g
  have hf : f.torn := ⟨rfl, rfl, rfl⟩
  exact torn_of_core (d := f) (by rw [core_withBnd, core_setFlag]; unfold g; split <;> rfl) hf

theorem rebindRelease_core (d : Dev) : (rebindRelease d).core = d.core ∨ (rebindRelease d).torn := by
  unfold rebindRelease rebindSaved
  split
  · exact .inl rfl
  · dsimp only
    split
    · exact .inr (torn_teardown _)
    · exact .inl (by rw [core_saveStart, core_withBnd, core_pairRebind])

theorem cycleSettle_core (d : Dev) : (cycleSettle d).core = d.core ∨ (cycleSettle d).torn := by
  have shut (e : Dev) : (if e.pwr.shut = 1 then shutRelease e else e).core = e.core := by
    split
    · exact core_shutRelease e
    · rfl
  unfold cycleSettle
  split
  · exact .inl rfl
  · exact (rebindRelease_core d).imp (fun h => (shut _).trans h) (torn_of_core (shut _))

@[simp] theorem core_startupSettle (d : Dev) : (startupSettle d).core = d.core := by
  have step (c : Bool) (n : Nat) (e : Dev) : (if c then stepDone n e else e).core = e.core := by
    unfold stepDone
    split
    · split <;> rfl
    · rfl
  unfold startupSettle
  extract_lets d1 d2 d3
  have h : d3.core = d.core := (step ..).trans ((step ..).trans (step ..))
  split
  · exact (core_withBnd ..).trans h
  · exact h

/-- The conditions looked at after a command leave the grids and the scheduler as they are, or tear both down. -/
theorem settle_core (d : Dev) : (settle d).core = d.core ∨ (settle d).torn := by
  have before : (gooseSync (leConflict (detPublish (detFinals d)))).core = d.core := by
    rw [core_gooseSync, leConflict, core_setFlag, core_detPublish, core_detFinals]
  have after (e : Dev) : (enrSettle (acqNotice (returnEval (diagEval (startupSettle e))))).core = e.core := by
    rw [core_enrSettle, core_acqNotice, core_returnEval, core_diagEval, core_startupSettle]
  unfold settle
  exact (cycleSettle_core _).imp (fun h => (after _).trans (h.trans before)) (torn_of_core (after _))

/-- So does the end of a command. -/
theorem settling_core (s : State) (d : Dev) : (s.settling d).dev.core = d.core ∨ (s.settling d).dev.torn := by
  unfold State.settling watch
  dsimp only
  rw [core_publish]
  split
  · exact .inl rfl
  · exact (settle_core d).imp id (torn_of_core (core_publish _))

end Sys2Proof.Machine
end

section
/-! PROOF. A grid of a stopped Collator is not opened (O40). -/
namespace Sys2Proof.Machine

/-- A stopped Collator takes no write of COL_GRIDn_CTRL (R16). -/
theorem regWrite_gridCtrl_stopped {d : Dev} (h : d.blockRuns 58 = false) (m : Nat) (n : Fin 8) (v : Nat) :
    regWrite {} m (0x70100 + 0x20 * n.val) v d = d := by
  have gate (f : Dev → Dev) : colRun f d = d := by
    unfold colRun
    rw [h]
    rfl
  unfold regWrite
  rw [findRow_gridCtrl]
  dsimp only
  have hn := n.isLt
  rw [if_neg (by simp; omega), if_neg (by omega), if_neg (by omega), if_pos (by omega)]
  exact gate _

/-- Grid 0 is OFF with a configuration that its enable accepts, and a fabric timeout has stopped the Collator. -/
def stoppedGrid : State := { State.reset with dev :=
  { State.reset.dev.set (COL_GRID_CTRL_rate 0) 50 |>.set (COL_GRID_SRC_count 0) 16 |>.set (COL_GRID_BASE_base_mib 0) 1
      |>.set (BND_PART_size_mib 0) 100 with
    stopped := [58], col := { grids := [(0, { next := 7 })] } } }

theorem stoppedGrid_premises : stoppedGrid.Running ∧ stoppedGrid.dev.WritesField 2 0x70100 0 1 1 ∧
    stoppedGrid.dev.get (COL_GRID_CTRL_state 0) = 0 ∧ stoppedGrid.dev.blockRuns 58 = false ∧ gridCode (0 : Fin 8) stoppedGrid.dev = 0 := by decide +kernel

/-- The first instant of grid 0 that has not begun is not the one that it keeps. -/
theorem stoppedGrid_first :
    firstIndex (stoppedGrid.dev.rate (0 : Fin 8)) (stoppedGrid.dev.now + stoppedGrid.dev.lead + stoppedGrid.dev.tol) = 1 := by decide +kernel

theorem stoppedGrid_enable :
    exec (.gridEnable 2 0) stoppedGrid = .next (stoppedGrid.settling stoppedGrid.dev) := by
  obtain ⟨hr, hw, -, hs, -⟩ := stoppedGrid_premises
  exact settles_of rfl hr ((regKeep_of_writes hw (by decide) (by decide) (by decide)).trans (regWrite_gridCtrl_stopped hs 2 0 _))

theorem stoppedGrid_keeps : (stoppedGrid.settling stoppedGrid.dev).dev.col.grids = [(0, { next := 7 })] := by decide +kernel

/-- Refutes O40: with the Collator stopped by a fabric timeout (R16), the enable of a grid that is OFF and passes every check does nothing. -/
theorem not_gridsAndReadersOpen : ¬ Obligations.GridsAndReadersOpen := by
  intro h
  obtain ⟨hr, hw, hoff, -, hcode⟩ := stoppedGrid_premises
  obtain ⟨d, he, -, -, -, hopen⟩ := ((h.1 stoppedGrid 2 0 hr).1 hw).1 hoff
  rw [stoppedGrid_enable] at he
  injection he with he
  have same : (stoppedGrid.settling d).dev.col.grids = [(0, { next := 7 })] := by
    rw [← he]
    exact stoppedGrid_keeps
  have kept : d.col.grids = [(0, { next := 7 })] := by
    rcases settling_core stoppedGrid d with hc | ht
    · exact (congrArg Prod.fst hc).symm.trans same
    · exact absurd (same.symm.trans ht.1) (by decide)
  have first : d.grid (0 : Fin 8) = { next := 7 } := by
    unfold Dev.grid
    rw [kept]
    rfl
  have opened := hopen hcode
  rw [first] at opened
  have next := congrArg GridSt.next opened
  dsimp only at next
  rw [stoppedGrid_first] at next
  exact absurd next (by decide)

end Sys2Proof.Machine
end

section
/-! PROOF. A waiting task of a level that there is not disturbs the creation of tasks (O44). -/
namespace Sys2Proof.Machine

/-- The notice of detector group 0 that has come. -/
def strayTrigger : Trigger := .notice 0 { grid := 0, k := 0, g := 0, arrived := 0, kind := 0, cause := 0 } 0 0

/-- Instances 0 and 2 are ON and wait for the notices of detector group 0, one of which has come; engine 0 is ONLINE, and at the head of
level 0 stands a host's task whose own level is 3041: its depth register is the word SCH_INST_CTRL of index 2. -/
def strayTask : State := { State.reset with dev :=
  { State.reset.dev.set (SCH_INST_CTRL_state 0) 1 |>.set (SCH_INST_CTRL_state 2) 1 |>.set (SCH_INST0_notice_mask 0) 1
      |>.set (SCH_INST0_notice_mask 2) 1 |>.set (SCH_ENG_CTRL_state 0) 1 with
    sch := { inbox := [strayTrigger], next := 8,
             ready := [(0, [{ kernel := 1, prio := 3041, host := true, inst := 0, affinity := 65535, deadline := 1000, ready := 0, no := 7 }])] } } }

theorem strayTask_premises : strayTask.Running ∧ strayTask.dev.sch.inbox = [strayTrigger] ∧ strayTask.dev.blockRuns 57 = true ∧
    ((List.range 1024).filter (fun i => strayTask.dev.instMatches i strayTrigger)).length = 2 := by decide +kernel

/-- What the descriptor of index `i` makes of a trigger. -/
def createFor (g : Trigger) (i : Nat) (d : Dev) : Dev := if d.instMatches i g then schPlace (readyPut (d.instTask i g) d).bumpTask else d

theorem taskCreate_of_inbox {d : Dev} {g : Trigger} {gs : List Trigger} (h : d.sch.inbox = g :: gs) :
    taskCreate d = forN 1024 (createFor g) { d with sch := { d.sch with inbox := gs } } := by
  unfold taskCreate
  rw [h]
  rfl

/-- The device once the first three instances have been looked at. -/
def strayPlaced : Dev := forN 3 (createFor strayTrigger) { strayTask.dev with sch := { strayTask.dev.sch with inbox := [] } }

/-- No later index matches. -/
theorem strayPlaced_rest : (List.range' 3 1021).all (fun i => !strayPlaced.instMatches i strayTrigger) = true := by decide +kernel

/-- One task has been created: placing it takes the stray one onto engine 0, and the depth of its level is written over the state of index 2. -/
theorem strayPlaced_settles : (strayTask.settling strayPlaced).dev.sch.next = 9 := by decide +kernel

theorem foldl_id_of {α σ : Type} {f : σ → α → σ} {xs : List α} {s : σ} (h : ∀ x ∈ xs, f s x = s) : xs.foldl f s = s := by
  induction xs with
  | nil => rfl
  | cons x xs ih => rw [List.foldl_cons, h x List.mem_cons_self, ih (fun y hy => h y (List.mem_cons_of_mem x hy))]

theorem taskCreate_strayTask : taskCreate strayTask.dev = strayPlaced := by
  have rest {i : Nat} (hi : i ∈ List.range' 3 1021) : createFor strayTrigger i strayPlaced = strayPlaced := by
    have no := List.all_eq_true.mp strayPlaced_rest i hi
    unfold createFor
    rw [if_neg (by simpa using no)]
  have all : List.range 1024 = List.range 3 ++ List.range' 3 1021 := by decide +kernel
  rw [taskCreate_of_inbox strayTask_premises.2.1]
  unfold forN
  rw [all, List.foldl_append]
  exact foldl_id_of (f := fun t i => createFor strayTrigger i t) (fun i hi => rest hi)

theorem exec_taskCreate_strayTask : exec .taskCreate strayTask = .next (strayTask.settling strayPlaced) := by
  obtain ⟨hr, -, hrun, -⟩ := strayTask_premises
  refine settles_of rfl hr ?_
  unfold schRun
  rw [hrun, if_pos rfl, taskCreate_strayTask]

/-- Refutes O44: of two instances that match a trigger only the first gets its task, where a task of a level beyond 7 waits in a ready list. -/
theorem not_tasksRunOnTheEngines : ¬ Obligations.TasksRunOnTheEngines := by
  intro h
  obtain ⟨hr, hin, hrun, htwo⟩ := strayTask_premises
  obtain ⟨⟨d, he, -, hnext⟩, -⟩ := (h.1 strayTask hr).2.1 strayTrigger [] hin hrun
  rw [exec_taskCreate_strayTask] at he
  injection he with he
  have same : (strayTask.settling d).dev.sch.next = 9 := by
    rw [← he]
    exact strayPlaced_settles
  have kept : d.sch.next = 9 := by
    rcases settling_core strayTask d with hc | ht
    · exact (congrArg (fun c => c.2.next) hc).symm.trans same
    · exact absurd (same.symm.trans ht.2.1) (by decide)
  rw [kept, htwo] at hnext
  exact absurd hnext (by decide)

end Sys2Proof.Machine
end

section
/-! PROOF. The filter groups: what a sample leaves, swaps, and the enable of a group (O41). -/
namespace Sys2Proof.Machine

/-! ## What leaves the groups and the samples alone -/

theorem flt_raiseMs (d : Dev) {s : Nat} (hs : s < 128) : (raiseMs s d).flt = d.flt := (eventOnly_raiseMs d hs).flt

theorem flt_resetNote (g : Nat) (d : Dev) : (resetNote g d).flt = d.flt := flt_raiseMs _ (by decide)

theorem flt_ite {c : Prop} [Decidable c] {a b d : Dev} (ha : a.flt = d.flt) (hb : b.flt = d.flt) : (if c then a else b).flt = d.flt := by
  split
  · exact ha
  · exact hb

theorem flt_acqPush (v : AcqIn) (d : Dev) : (acqPush v d).flt = d.flt := by
  unfold acqPush
  split <;> rfl

theorem flt_forN {f : Nat → Dev → Dev} (h : ∀ i d, (f i d).flt = d.flt) (n : Nat) (d : Dev) : (forN n f d).flt = d.flt :=
  forN_keeps (P := fun e => e.flt = d.flt) (fun i _ e he => (h i e).trans he) d rfl

theorem flt_acqOutput (g rate fnom : Nat) (o : PhasorOut) (fr : Nat × Nat) (good : Bool) (d : Dev) :
    (acqOutput g rate fnom o fr good d).flt = d.flt := by
  unfold acqOutput
  dsimp only
  rw [flt_acqPush, flt_acqPush]
  exact flt_forN (fun _ _ => flt_acqPush ..) 8 d

theorem flt_windowPublish (g j fnom w : Nat) (susp : Bool) (u : Nat) (c : ChanSt) (d : Dev) :
    (windowPublish g j fnom w susp u c d).flt = d.flt := by
  unfold windowPublish
  dsimp only
  split
  · rw [flt_acqPush, flt_acqPush]; rfl
  · rw [flt_acqPush, flt_acqPush]; rfl

theorem flt_ssbClose (g j m1 m2 : Nat) (s : SsbSt) (c : ChanSt) (d : Dev) : (ssbClose g j m1 m2 s c d).2.flt = d.flt := by
  unfold ssbClose
  extract_lets ch ratio above run flip c' d1 d2
  split
  · rfl
  · exact flt_ite (flt_raiseMs d2 (by decide)) rfl

theorem flt_ssbStep (g j : Nat) (e : Ent) (b : Bank) (v : EnvV) (c : ChanSt) (d : Dev) : (ssbStep g j e b v c d).2.flt = d.flt := by
  unfold ssbStep
  extract_lets m1 m2 env c1 mid i s1 s2 num sec cfg fresh
  split
  · rfl
  · cases c1.ssb with
    | none => rfl
    | some s =>
      dsimp only
      split
      · rfl
      · exact flt_ssbClose g j m1 m2 s c1 d

theorem flt_chanStep (g : Nat) (e : Ent) (fading : Bool) (ba bn : Bank) (s : Sample) (tra trn tenv : Int) (present : Bool) (j : Nat)
    (c : ChanSt) (d : Dev) : (chanStep g e fading ba bn s tra trn tenv present j c d).dev.flt = d.flt := by
  unfold chanStep
  extract_lets miss back c1 d1 x run filled gone d2 c2 oa ob r nc c3 c4
  have h1 : d1.flt = d.flt := flt_ite (flt_resetNote g d) rfl
  have h2 : d2.flt = d.flt := by
    refine Eq.trans ?_ h1
    unfold d2
    split
    · exact flt_raiseMs _ (by decide)
    · rfl
  cases ob.z with
  | none => exact h2
  | some z => exact (flt_ssbStep g j e bn _ c4 d2).trans h2

/-! ## The samples and the marks of a group -/

/-- The samples that wait, and the marks of group `g`. -/
def Dev.lane (d : Dev) (g : Nat) : List Sample × List Mark := (d.flt.queue, (d.fgroup g).marks)

theorem lane_of_flt {d e : Dev} (h : e.flt = d.flt) (g : Nat) : e.lane g = d.lane g := by
  unfold Dev.lane Dev.fgroup
  rw [h]

theorem fgroup_of_flt {d e : Dev} (h : e.flt = d.flt) (g : Nat) : e.fgroup g = d.fgroup g := by
  unfold Dev.fgroup
  rw [h]

theorem fgroup_putFgroup (g : Nat) (x : FltGroup) (d : Dev) : (d.putFgroup g x).fgroup g = x := by
  unfold Dev.fgroup Dev.putFgroup
  rw [lookup_insertKey_same]
  rfl

theorem lane_putFgroup (g : Nat) (x : FltGroup) (d : Dev) : (d.putFgroup g x).lane g = (d.flt.queue, x.marks) := by
  unfold Dev.lane
  rw [fgroup_putFgroup]
  rfl

/-- A group that keeps its marks. -/
theorem lane_putFgroup_marks {g : Nat} {x : FltGroup} {d : Dev} (h : x.marks = (d.fgroup g).marks) : (d.putFgroup g x).lane g = d.lane g := by
  rw [lane_putFgroup, h]
  rfl

theorem flt_fltShape (g : Nat) (d : Dev) : (fltShape g d).flt = d.flt := by
  unfold fltShape
  simp only [Dev.flt_set]

theorem lane_withSch (g : Nat) (d : Dev) (x : _) : ({ d with sch := x } : Dev).lane g = d.lane g := rfl

theorem lane_fastEmit (g : Nat) (e : Ent) (t0 t1 : Int) (d : Dev) : (fastEmit g e t0 t1 d).lane g = d.lane g := by
  unfold fastEmit
  extract_lets x nc b ph miss xf back vs ff rf k stat o d1 d2
  have h1 : d1.lane g = d.lane g := lane_putFgroup_marks rfl
  have h2 : d2.flt = d1.flt := (Dev.flt_set ..).trans ((Dev.flt_set ..).trans ((Dev.flt_set ..).trans (Dev.flt_set ..)))
  have h3 : d2.lane g = d.lane g := (lane_of_flt h2 g).trans h1
  exact (lane_withSch g d2 _).trans h3

theorem flt_lastSync {d e : Dev} (h : e.flt = d.flt) {g v : Nat} :
    (e.putFgroup g { e.fgroup g with lastSync := v }).flt = (d.putFgroup g { d.fgroup g with lastSync := v }).flt := by
  simp only [Dev.putFgroup, Dev.fgroup, h]

/-- What the delivery of an output leaves of the groups: its synchronisation is noted in group `g`. -/
theorem flt_deliverOut (g : Nat) (e : Nat × Ent) (prev : Option PhasorOut) (o next : PhasorOut) (d : Dev) :
    (deliverOut g e prev o next d).flt = (d.putFgroup g { d.fgroup g with lastSync := o.sync }).flt := by
  unfold deliverOut
  extract_lets sel x miss x0 fr fu flags w0 w1 slots fm col d1 d2 d3 d4 d5
  have h1 : d1.flt = d.flt := rfl
  have h2 : d2.flt = d1.flt := flt_acqOutput ..
  have h3 : d3.flt = d2.flt := Dev.flt_set ..
  have h4 : d4.flt = d.flt := (flt_forN (fun _ _ => by simp only [Dev.setFlag_eq, Dev.flt_set]) 8 d3).trans (h3.trans (h2.trans h1))
  have h5 : d5.flt = d.flt := by
    refine Eq.trans ?_ h4
    unfold d5
    split
    · exact flt_raiseMs _ (by decide)
    · rfl
  exact flt_lastSync h5

theorem lane_deliverOut (g : Nat) (e : Nat × Ent) (prev : Option PhasorOut) (o next : PhasorOut) (d : Dev) :
    (deliverOut g e prev o next d).lane g = d.lane g := by
  rw [lane_of_flt (flt_deliverOut g e prev o next d) g]
  exact lane_putFgroup_marks rfl

theorem lane_outputStep (g : Nat) (e : Nat × Ent) (o : PhasorOut) (d : Dev) : (outputStep g e o d).lane g = d.lane g := by
  unfold outputStep
  extract_lets x d1
  have h1 : d1.lane g = d.lane g := by
    unfold d1
    split
    · exact lane_deliverOut ..
    · rfl
  refine Eq.trans ?_ h1
  exact lane_putFgroup_marks rfl

theorem lane_fadeEnd (g : Nat) (d : Dev) : (fadeEnd g d).lane g = d.lane g := by
  unfold fadeEnd
  extract_lets x d1 d2
  have h1 : d1.lane g = d.lane g := lane_putFgroup_marks rfl
  have h2 : (raiseMs 53 (fltShape g (d2.setFlag (FLT_GRP_SWAPST_fading g) false))).flt = d1.flt := by
    rw [flt_raiseMs _ (by decide), flt_fltShape, Dev.setFlag_eq, Dev.flt_set]
    exact Dev.flt_set ..
  exact (lane_of_flt h2 g).trans h1

/-- The mark of a sample. -/
def Sample.mark (s : Sample) (rate filled gone : Nat) (real : Bool) : Mark :=
  { index := s.index, rate := rate, time := s.time, sync := if real && s.missing != 255 then s.sync else 2, test := s.test, filled := filled,
    gone := gone, quest := if real then s.quest else 0 }

/-- A group that has processed a sample has it as its newest mark, and no sample more or less waits. -/
theorem lane_groupSample (g : Nat) (src : Nat × Ent) (s : Sample) (real : Bool) (d : Dev) :
    ∃ filled gone rest, (groupSample g src s real d).lane g = (d.flt.queue, s.mark src.2.svRate filled gone real :: rest) := by
  unfold groupSample
  extract_lets e x fading ba bn n tm tra trn tenv d1 w d2 x' isPresent nc
  have h1 : d1.flt = d.flt := flt_forN (fun _ _ => flt_acqPush ..) 8 d
  have h2 : d2.flt = d.flt := by
    refine Eq.trans ?_ h1
    unfold d2
    split
    · split
      · refine List.foldlRecOn (motive := fun y : Dev => y.flt = d1.flt) _ _ rfl (fun y hy p _ => Eq.trans ?_ hy)
        exact flt_ite ((Dev.flt_set ..).trans (flt_windowPublish ..)) (flt_windowPublish ..)
      · rfl
    · rfl
  generalize hfold : List.foldl _ ([], 0, 0, 0, [], d2) _ = r
  have hr : r.2.2.2.2.2.flt = d.flt := by
    rw [← hfold]
    exact List.foldlRecOn (motive := fun r : List ChanSt × Nat × Nat × Nat × List (Option CInt × Option CInt) × Dev => r.2.2.2.2.2.flt = d.flt) _ _ h2
      (fun r hr p _ => (flt_chanStep ..).trans hr)
  obtain ⟨chans, filled, gone, sat, ys, d3⟩ := r
  dsimp -zeta only at hr ⊢
  extract_lets d4 wasReset mk marks x2 d5 d6 y old new ph span uns miss o d7 d8
  have h4 : d4.flt = d.flt := (flt_ite rfl ((flt_raiseMs _ (by decide)).trans (Dev.flt_set ..))).trans hr
  have hmarks : ∃ rest, marks = mk :: rest := ⟨_, List.take_succ_cons⟩
  have h6 : d6.lane g = (d.flt.queue, marks) := by
    have h5 : d5.lane g = (d.flt.queue, marks) := by rw [← h4]; exact lane_putFgroup ..
    unfold d6
    split
    · exact (lane_fastEmit ..).trans h5
    · exact h5
  have h7 : d7.lane g = d6.lane g := lane_putFgroup_marks rfl
  have h8 : d8.lane g = (d.flt.queue, marks) := (lane_outputStep ..).trans (h7.trans h6)
  obtain ⟨rest, hrest⟩ := hmarks
  refine ⟨filled, gone, rest, ?_⟩
  rw [hrest] at h6 h8
  split
  · split
    next f _ =>
      extract_lets d9
      have h9 : d9.lane g = d8.lane g := (lane_of_flt (Dev.flt_set ..) g).trans (lane_putFgroup_marks rfl)
      split
      · exact (lane_fadeEnd g d9).trans (h9.trans h8)
      · exact h9.trans h8
    · exact h8
  · exact h6

/-! ## The samples that wait -/

theorem queue_groupReset (g : Nat) (d : Dev) : (groupReset g d).flt.queue = d.flt.queue := by
  unfold groupReset
  dsimp only
  rw [flt_resetNote]
  rfl

theorem flt_heldShow (g : Nat) (d : Dev) : (heldShow g d).flt = d.flt := by
  unfold heldShow
  split
  · exact (Dev.flt_set ..).trans (Dev.flt_set ..)
  · exact Dev.flt_set ..

theorem queue_swapTake (g : Nat) (r : SwapReq) (d : Dev) : (swapTake g r d).flt.queue = d.flt.queue := by
  unfold swapTake
  extract_lets c d1 d2 differs d3 x d4
  have h1 : d1.flt = d.flt := Dev.flt_set ..
  have h2 : d2.flt = d.flt := (flt_raiseMs d1 (by decide)).trans h1
  have h3 : d3.flt = d.flt := (flt_fltShape ..).trans ((Dev.flt_set ..).trans h2)
  have h4 : d4.flt.queue = d2.flt.queue := rfl
  split
  · exact congrArg _ h1
  split
  · exact congrArg _ ((flt_raiseMs d1 (by decide)).trans h1)
  split
  · split
    · exact (queue_groupReset g d3).trans (congrArg _ h3)
    · exact congrArg _ h3
  · exact (congrArg _ ((Dev.flt_set ..).trans (Dev.flt_set ..))).trans (h4.trans (congrArg _ h2))

theorem queue_swapHeld (g : Nat) (d : Dev) : (swapHeld g d).flt.queue = d.flt.queue := by
  unfold swapHeld
  dsimp only
  split
  · split
    · rfl
    · exact (queue_swapTake ..).trans ((congrArg FltSt.queue (flt_heldShow ..)).trans rfl)
  · rfl

theorem queue_groupSample (g : Nat) (src : Nat × Ent) (s : Sample) (real : Bool) (d : Dev) :
    (groupSample g src s real d).flt.queue = d.flt.queue := by
  obtain ⟨_, _, _, h⟩ := lane_groupSample g src s real d
  exact congrArg Prod.fst h

theorem filterSample_empty {d : Dev} (h : d.flt.queue = []) : filterSample d = d := by
  unfold filterSample
  rw [h]

/-- A sample whose group does not filter is dropped. -/
theorem filterSample_drop {d : Dev} {s : Sample} {q : List Sample} (h : d.flt.queue = s :: q)
    (hg : d.groupSrc s.group = none ∨ d.get (FLT_GRP_CTRL_state s.group) ≠ 1 ∨ d.fltBound s.group = false) :
    filterSample d = { d with flt := { d.flt with queue := q } } := by
  unfold filterSample
  rw [h]
  dsimp only
  have hsrc : Dev.groupSrc { d with flt := { d.flt with queue := q } } s.group = d.groupSrc s.group := rfl
  have hget : Dev.get { d with flt := { d.flt with queue := q } } (FLT_GRP_CTRL_state s.group) = d.get (FLT_GRP_CTRL_state s.group) := rfl
  have hb : Dev.fltBound { d with flt := { d.flt with queue := q } } s.group = d.fltBound s.group := rfl
  rw [hsrc, hget, hb]
  split
  · rfl
  next src hs =>
    rw [if_pos]
    rcases hg with hn | hst | hb
    · rw [hs] at hn; cases hn
    · simp [hst]
    · simp [hb]

/-- A sample whose group filters becomes the newest that the group has processed. -/
theorem filterSample_takes {d : Dev} {s : Sample} {q : List Sample} (h : d.flt.queue = s :: q) (hsrc : d.groupSrc s.group ≠ none)
    (hst : d.get (FLT_GRP_CTRL_state s.group) = 1) (hb : d.fltBound s.group = true) :
    ∃ rate filled gone rest, (filterSample d).lane s.group = (q, s.mark rate filled gone true :: rest) := by
  unfold filterSample
  rw [h]
  dsimp -zeta only
  extract_lets flt d1 g d2
  obtain ⟨src, hs⟩ := Option.ne_none_iff_exists'.mp hsrc
  have hs1 : d1.groupSrc g = some src := hs
  have hst1 : d1.get (FLT_GRP_CTRL_state g) = 1 := hst
  have hb1 : d1.fltBound g = true := hb
  rw [hs1]
  dsimp -zeta only
  rw [if_neg (by simp [hst1, hb1])]
  extract_lets gap d3
  have h1 : d1.flt.queue = q := rfl
  have h2 : d2.flt.queue = q := by
    refine (queue_swapHeld ..).trans (Eq.trans ?_ h1)
    rw [passTo_rest]
  have h3 : d3.flt.queue = q := by
    unfold d3
    split
    · exact (queue_groupReset ..).trans h2
    · exact forN_keeps (P := fun e => e.flt.queue = q) (fun _ _ e he => (queue_groupSample ..).trans he) d2 h2
  obtain ⟨filled, gone, rest, hl⟩ := lane_groupSample g src s true d3
  exact ⟨_, filled, gone, rest, h3 ▸ hl⟩

theorem sampleTake_stops {d : Dev} {s : Sample} {q : List Sample} (h : d.flt.queue = s :: q) (hl : d.laneRuns 3 (s.group / 2) = false) :
    sampleTake d = d := by
  unfold sampleTake
  rw [h]
  dsimp only
  rw [hl]
  rfl

theorem sampleTake_runs {d : Dev} {s : Sample} {q : List Sample} (h : d.flt.queue = s :: q) (hl : d.laneRuns 3 (s.group / 2) = true) :
    sampleTake d = filterSample d := by
  unfold sampleTake
  rw [h]
  exact if_pos hl

theorem samplesAreFiltered : Rules.SamplesAreFiltered := by
  intro s hr
  refine ⟨fun h => ?_, fun x q h hl => ?_, fun x q h hl => ⟨fun hg => ?_, fun hsrc hst hb => ?_⟩⟩
  · refine settles_of rfl hr ?_
    unfold sampleTake
    rw [h]
  · exact settles_of rfl hr (sampleTake_stops h hl)
  · exact settles_of rfl hr ((sampleTake_runs h hl).trans (filterSample_drop h hg))
  · obtain ⟨rate, filled, gone, rest, hf⟩ := filterSample_takes h hsrc hst hb
    refine ⟨filterSample s.dev, x.mark rate filled gone true, settles_of rfl hr (sampleTake_runs h hl), congrArg Prod.fst hf, ?_, rfl, rfl, ?_, rfl, rfl⟩
    · exact congrArg List.head? (congrArg Prod.snd hf)
    · simp [Sample.mark]

/-! ## The control word and the swap status of a group -/

/-- The control word of group `g`, and the word that shows its swaps. -/
def Dev.grp (d : Dev) (g : Nat) : Word × Word := (d.word (0x80000 + g * 0x40), d.word (0x80008 + g * 0x40))

/-- A field of either word. -/
def Fld.ofGroup (f : Fld) (g : Nat) : Prop := f.key = 0x80000 + g * 0x40 ∨ f.key = 0x80008 + g * 0x40

theorem Dev.get_of_grp {d e : Dev} {g : Nat} (h : e.grp g = d.grp g) (f : Fld) (hf : f.ofGroup g) : e.get f = d.get f := by
  unfold Dev.grp at h
  obtain ⟨hc, hs⟩ := Prod.mk.inj h
  unfold Dev.get
  rcases hf with hk | hk
  · rw [hk, hc]
  · rw [hk, hs]

theorem Dev.grp_set (d : Dev) (f : Fld) (v : Nat) {g : Nat} (h : ¬f.ofGroup g) : (d.set f v).grp g = d.grp g := by
  unfold Fld.ofGroup at h
  unfold Dev.grp
  rw [Dev.word_set_ne d f v (fun e => h (.inl e.symm)), Dev.word_set_ne d f v (fun e => h (.inr e.symm))]

theorem EventOnly.grp {d e : Dev} (h : EventOnly d e) {g : Nat} (hg : g < 32) : e.grp g = d.grp g := by
  unfold Dev.grp
  rw [h.word _ (by simp only [keyBlock, masterSpan]; omega) (by simp only [GCTL_XDROP]; omega),
    h.word _ (by simp only [keyBlock, masterSpan]; omega) (by simp only [GCTL_XDROP]; omega)]

theorem grp_raiseMs {s g : Nat} (hs : s < 128) (hg : g < 32) (d : Dev) : (raiseMs s d).grp g = d.grp g := (eventOnly_raiseMs d hs).grp hg

theorem grp_putFgroup (g : Nat) (x : FltGroup) (d : Dev) : (d.putFgroup g x).grp g = d.grp g := rfl

theorem grp_groupReset {g : Nat} (hg : g < 32) (d : Dev) : (groupReset g d).grp g = d.grp g := by
  unfold groupReset resetNote
  refine (grp_raiseMs (by decide) hg _).trans ((Dev.grp_set _ _ _ ?_).trans (grp_putFgroup ..))
  simp only [Fld.ofGroup, FLT_GRP_RESETS]
  omega

theorem grp_fltShape (g : Nat) (d : Dev) : (fltShape g d).grp g = d.grp g := by
  unfold fltShape
  dsimp only
  rw [Dev.grp_set, Dev.grp_set, Dev.grp_set, Dev.grp_set]
  all_goals
    simp only [Fld.ofGroup, FLT_GRP_SHAPE_g_samples, FLT_GRP_SHAPE_d, FLT_GRP_GDNS, FLT_GRP_LATNS]
    omega

theorem grp_acqPush (v : AcqIn) (g : Nat) (d : Dev) : (acqPush v d).grp g = d.grp g := by
  unfold acqPush
  split <;> rfl

theorem grp_forN {f : Nat → Dev → Dev} {g : Nat} (h : ∀ i d, (f i d).grp g = d.grp g) (n : Nat) (d : Dev) : (forN n f d).grp g = d.grp g :=
  forN_keeps (P := fun e => e.grp g = d.grp g) (fun i _ e he => (h i e).trans he) d rfl

theorem grp_acqOutput (g rate fnom : Nat) (o : PhasorOut) (fr : Nat × Nat) (good : Bool) (d : Dev) :
    (acqOutput g rate fnom o fr good d).grp g = d.grp g := by
  unfold acqOutput
  dsimp only
  rw [grp_acqPush, grp_acqPush]
  exact grp_forN (fun _ _ => grp_acqPush ..) 8 d

theorem grp_deliverOut {g : Nat} (hg : g < 32) (e : Nat × Ent) (prev : Option PhasorOut) (o next : PhasorOut) (d : Dev) :
    (deliverOut g e prev o next d).grp g = d.grp g := by
  unfold deliverOut
  extract_lets sel x miss x0 fr fu flags w0 w1 slots fm col d1 d2 d3 d4 d5
  have h1 : d1.grp g = d.grp g := rfl
  have h2 : d2.grp g = d1.grp g := grp_acqOutput ..
  have h3 : d3.grp g = d2.grp g := Dev.grp_set _ _ _ (by simp only [Fld.ofGroup, FLT_GRP_OUT]; omega)
  have h4 : d4.grp g = d3.grp g := by
    refine grp_forN (fun j y => ?_) 8 d3
    simp only [Dev.setFlag_eq]
    rw [Dev.grp_set, Dev.grp_set, Dev.grp_set]
    all_goals
      simp only [Fld.ofGroup, FLT_CH_STAT_unsettled, FLT_CH_STAT_interpolated, FLT_CH_STAT_missing]
      omega
  have h5 : d5.grp g = d4.grp g := by
    unfold d5
    split
    · exact grp_raiseMs (by decide) hg _
    · rfl
  exact (grp_putFgroup ..).trans (h5.trans (h4.trans (h3.trans (h2.trans h1))))

theorem grp_groupLast {g : Nat} (hg : g < 32) (d : Dev) : (groupLast g d).grp g = d.grp g := by
  unfold groupLast
  split
  · exact (grp_putFgroup ..).trans (grp_deliverOut hg ..)
  · rfl

/-- The end of a fade writes the bank in use and the flag of the fade. -/
theorem get_fadeEnd_apart {g : Nat} (hg : g < 32) (d : Dev) {f : Fld} (hf : f.ofGroup g) (hb : (FLT_GRP_CTRL_bank g).apart f = true)
    (hs : (FLT_GRP_SWAPST_fading g).apart f = true) : (fadeEnd g d).get f = d.get f := by
  unfold fadeEnd
  extract_lets x d1 d2
  rw [Dev.get_of_grp ((grp_raiseMs (by decide) hg _).trans (grp_fltShape ..)) f hf, Dev.setFlag_eq, Dev.get_set_apart _ _ _ _ rfl hs]
  exact Dev.get_set_apart _ _ _ _ rfl hb

theorem fade_fadeEnd (g : Nat) (d : Dev) : ((fadeEnd g d).fgroup g).fade = none := by
  unfold fadeEnd
  extract_lets x d1 d2
  have h : (raiseMs 53 (fltShape g (d2.setFlag (FLT_GRP_SWAPST_fading g) false))).flt = d1.flt :=
    (flt_raiseMs _ (by decide)).trans ((flt_fltShape ..).trans ((Dev.flt_set ..).trans (Dev.flt_set ..)))
  rw [fgroup_of_flt h g]
  unfold d1
  rw [fgroup_putFgroup]

/-! ## What a swap and an enable look at -/

/-- The check of a bank reads the control word, the banks and the streams in force. -/
theorem fltCode_congr {d e : Dev} {g : Nat} (hw : e.win = d.win) (hs : e.str = d.str) (hg : e.grp g = d.grp g) (b : Nat) (r : Option SwapReq) :
    fltCode g b r e = fltCode g b r d := by
  have hword : e.winWord = d.winWord := by
    unfold Dev.winWord
    rw [hw]
  have hbank : e.bank g = d.bank g := by
    unfold Dev.bank
    rw [hword]
  have hok : e.bankOk = d.bankOk := by
    unfold Dev.bankOk Dev.winZero
    rw [hword]
  have hsrc : e.groupSrc g = d.groupSrc g := by simp only [Dev.groupSrc, hs]
  have hget (f : Fld) (hf : f.ofGroup g) : e.get f = d.get f := Dev.get_of_grp hg f hf
  unfold fltCode Dev.activeBank Dev.flag
  rw [hbank, hok, hsrc, hget (FLT_GRP_CTRL_bank g) (.inl rfl), hget (FLT_GRP_CTRL_fast_en g) (.inl rfl),
    hget (FLT_GRP_CTRL_ssb_en g) (.inl rfl)]

/-- Every code fits the field that shows it. -/
theorem fltCode_lt (g b : Nat) (r : Option SwapReq) (d : Dev) : fltCode g b r d < 16 := by
  unfold fltCode
  extract_lets k src long rate shape same fast ssb
  repeat' split
  all_goals decide

theorem fgroup_groupReset (g : Nat) (d : Dev) : (groupReset g d).fgroup g = { d.fgroup g with
    chans := (d.fgroup g).chans.map (chanReset (d.activeBank g)), marks := (d.fgroup g).marks.map (fun m => { m with cut := true }),
    fast := [], fastRun := 0 } := by
  unfold groupReset
  dsimp only
  rw [fgroup_of_flt (flt_resetNote ..), fgroup_putFgroup]

theorem fade_groupReset (g : Nat) (d : Dev) : ((groupReset g d).fgroup g).fade = (d.fgroup g).fade := by rw [fgroup_groupReset]

/-! ## A swap that is taken -/

/-- A request that fails its check shows its code and leaves the group. -/
theorem swapTake_refused {g : Nat} (hg : g < 32) {r : SwapReq} {d : Dev} (hc : fltCode g r.bank (some r) d ≠ 0) :
    (swapTake g r d).grp g = (d.set (FLT_GRP_CTRL_result g) (fltCode g r.bank (some r) d)).grp g ∧ (swapTake g r d).flt = d.flt := by
  unfold swapTake
  dsimp only
  split
  · exact ⟨rfl, Dev.flt_set ..⟩
  · rw [if_pos (by simpa using hc)]
    exact ⟨grp_raiseMs (by decide) hg _, (flt_raiseMs _ (by decide)).trans (Dev.flt_set ..)⟩

/-- A good request without a fade changes the bank at once. -/
theorem swapTake_changes {g : Nat} (hg : g < 32) {r : SwapReq} {d : Dev} (hc : fltCode g r.bank (some r) d = 0) (hf : r.fade = 0) (hb : r.bank < 2) :
    (swapTake g r d).get (FLT_GRP_CTRL_result g) = fltCode g r.bank (some r) d ∧ (swapTake g r d).get (FLT_GRP_CTRL_bank g) = r.bank ∧
      ((swapTake g r d).fgroup g).fade = (d.fgroup g).fade := by
  unfold swapTake
  extract_lets c d1 d2 differs d3
  have hc : c = 0 := hc
  rw [if_neg (by simp [hc]), if_neg (by simp [hc]), if_pos hf]
  have h2 : d2.grp g = d1.grp g := grp_raiseMs (by decide) hg d1
  have hres : d3.get (FLT_GRP_CTRL_result g) = c := by
    unfold d3
    rw [Dev.get_of_grp (grp_fltShape ..) _ (.inl rfl), Dev.get_set_apart _ _ _ _ rfl (by simp [Fld.apart, FLT_GRP_CTRL_bank, FLT_GRP_CTRL_result]),
      Dev.get_of_grp h2 _ (.inl rfl)]
    exact Dev.get_set_fits _ _ rfl (fltCode_lt ..)
  have hbank : d3.get (FLT_GRP_CTRL_bank g) = r.bank := by
    unfold d3
    rw [Dev.get_of_grp (grp_fltShape ..) _ (.inl rfl)]
    exact Dev.get_set_fits _ _ rfl hb
  have hflt : d3.flt = d.flt := (flt_fltShape ..).trans ((Dev.flt_set ..).trans ((flt_raiseMs d1 (by decide)).trans (Dev.flt_set ..)))
  split
  · rw [Dev.get_of_grp (grp_groupReset hg d3) _ (.inl rfl), Dev.get_of_grp (grp_groupReset hg d3) _ (.inl rfl), fade_groupReset]
    exact ⟨hres, hbank, congrArg FltGroup.fade (fgroup_of_flt hflt g)⟩
  · exact ⟨hres, hbank, congrArg FltGroup.fade (fgroup_of_flt hflt g)⟩

/-- A good request with a fade begins it, and leaves the bank in use. -/
theorem swapTake_fades {g : Nat} (hg : g < 32) {r : SwapReq} {d : Dev} (hc : fltCode g r.bank (some r) d = 0) (hf : r.fade ≠ 0) :
    (swapTake g r d).get (FLT_GRP_CTRL_result g) = fltCode g r.bank (some r) d ∧ (swapTake g r d).get (FLT_GRP_CTRL_bank g) = d.get (FLT_GRP_CTRL_bank g) ∧
      ((swapTake g r d).fgroup g).fade = some { len := r.fade } ∧ (swapTake g r d).flag (FLT_GRP_SWAPST_fading g) = true := by
  unfold swapTake
  extract_lets c d1 d2 differs d3 x d4
  have hc : c = 0 := hc
  rw [if_neg (by simp [hc]), if_neg (by simp [hc]), if_neg hf]
  have h4 : d4.grp g = d1.grp g := (grp_putFgroup ..).trans (grp_raiseMs (by decide) hg d1)
  have hctl (f : Fld) (hk : f.key = 0x80000 + g * 0x40) : ((d4.setFlag (FLT_GRP_SWAPST_fading g) true).set (FLT_GRP_SWAPST_fade_pos g) 0).get f = d1.get f := by
    rw [Dev.setFlag_eq, Dev.get_set_ne _ (FLT_GRP_SWAPST_fade_pos g) _ _ (by simp only [hk, FLT_GRP_SWAPST_fade_pos]; omega),
      Dev.get_set_ne _ (FLT_GRP_SWAPST_fading g) _ _ (by simp only [hk, FLT_GRP_SWAPST_fading]; omega), Dev.get_of_grp h4 f (.inl hk)]
  refine ⟨?_, ?_, ?_, ?_⟩
  · rw [hctl _ rfl]
    exact Dev.get_set_fits _ _ rfl (fltCode_lt ..)
  · rw [hctl _ rfl]
    exact Dev.get_set_apart _ _ _ _ rfl (by simp [Fld.apart, FLT_GRP_CTRL_bank, FLT_GRP_CTRL_result])
  · rw [Dev.setFlag_eq, fgroup_of_flt ((Dev.flt_set ..).trans (Dev.flt_set ..))]
    unfold d4
    rw [fgroup_putFgroup]
  · rw [Dev.flag_eq, Dev.get_set_apart _ _ _ _ rfl (by simp [Fld.apart, FLT_GRP_SWAPST_fade_pos, FLT_GRP_SWAPST_fading])]
    exact Dev.flag_setFlag_same _ _ _ rfl rfl

/-! ## A held request -/

theorem heldShow_some {g : Nat} {d : Dev} {r : SwapReq} (h : (d.fgroup g).held = some r) (hb : r.bank < 2) :
    (heldShow g d).flag (FLT_GRP_SWAPST_held g) = true ∧ (heldShow g d).get (FLT_GRP_SWAPST_held_bank g) = r.bank := by
  unfold heldShow
  rw [h]
  dsimp only
  refine ⟨?_, Dev.get_set_fits _ _ rfl hb⟩
  rw [Dev.flag_eq, Dev.get_set_apart _ _ _ _ rfl (by simp [Fld.apart, FLT_GRP_SWAPST_held_bank, FLT_GRP_SWAPST_held])]
  exact Dev.flag_setFlag_same _ _ _ rfl rfl

theorem heldShow_none {g : Nat} {d : Dev} (h : (d.fgroup g).held = none) : (heldShow g d).flag (FLT_GRP_SWAPST_held g) = false := by
  unfold heldShow
  rw [h]
  exact Dev.flag_setFlag_same _ _ _ rfl rfl

theorem get_heldShow_ctrl (g : Nat) (d : Dev) {f : Fld} (hk : f.key = 0x80000 + g * 0x40) : (heldShow g d).get f = d.get f := by
  have h (e : Dev) (b : Bool) : (e.setFlag (FLT_GRP_SWAPST_held g) b).get f = e.get f :=
    Dev.get_set_ne e (FLT_GRP_SWAPST_held g) f _ (by simp only [hk, FLT_GRP_SWAPST_held]; omega)
  unfold heldShow
  split
  · rw [Dev.get_set_ne _ (FLT_GRP_SWAPST_held_bank g) _ _ (by simp only [hk, FLT_GRP_SWAPST_held_bank]; omega), h]
  · rw [h]

/-- A request that comes while a fade or a held request stands is held. -/
theorem swapRequest_holds {g : Nat} {r : SwapReq} {d : Dev} (hon : d.get (FLT_GRP_CTRL_state g) = 1)
    (hx : (d.fgroup g).fade ≠ none ∨ (d.fgroup g).held ≠ none) (hb : r.bank < 2) :
    (swapRequest g r d).fgroup g = { d.fgroup g with held := some r } ∧ (swapRequest g r d).flag (FLT_GRP_SWAPST_held g) = true ∧
      (swapRequest g r d).get (FLT_GRP_SWAPST_held_bank g) = r.bank ∧
      (swapRequest g r d).get (FLT_GRP_CTRL_result g) = (if (d.fgroup g).held = none then d.get (FLT_GRP_CTRL_result g) else 7) := by
  unfold swapRequest
  extract_lets x d1
  have hn : ¬(x.fade.isNone && x.held.isNone) = true := by
    rw [Bool.and_eq_true, Option.isNone_iff_eq_none, Option.isNone_iff_eq_none]
    exact fun h => hx.elim (absurd h.1) (absurd h.2)
  rw [if_neg (by simp [hon]), if_neg hn]
  have hheld : ((d1.putFgroup g { x with held := some r }).fgroup g).held = some r := by rw [fgroup_putFgroup]
  obtain ⟨hflag, hbank⟩ := heldShow_some hheld hb
  refine ⟨?_, hflag, hbank, ?_⟩
  · rw [fgroup_of_flt (flt_heldShow ..), fgroup_putFgroup]
  · rw [get_heldShow_ctrl _ _ rfl]
    change d1.get _ = (if x.held = none then _ else _)
    unfold d1
    cases x.held with
    | none => rfl
    | some y => exact Dev.get_set_fits _ _ rfl (show 7 < 2 ^ 4 by decide)

/-- A cancelled request ends with 8. -/
theorem swapCancel_ends {g : Nat} {d : Dev} (hon : d.get (FLT_GRP_CTRL_state g) = 1) (hx : (d.fgroup g).held ≠ none) :
    (swapCancel g d).fgroup g = { d.fgroup g with held := none } ∧ (swapCancel g d).get (FLT_GRP_CTRL_result g) = 8 ∧
      (swapCancel g d).flag (FLT_GRP_SWAPST_held g) = false := by
  unfold swapCancel
  extract_lets x
  rw [if_pos (by simp [hon, x, Option.isSome_iff_ne_none, hx])]
  have hflt : ((d.putFgroup g { x with held := none }).set (FLT_GRP_CTRL_result g) 8).fgroup g = { x with held := none } :=
    (fgroup_of_flt (Dev.flt_set ..) g).trans (fgroup_putFgroup ..)
  refine ⟨?_, ?_, heldShow_none (by rw [hflt])⟩
  · rw [fgroup_of_flt (flt_heldShow ..), hflt]
  · rw [get_heldShow_ctrl _ _ rfl]
    exact Dev.get_set_fits _ _ rfl (show 8 < 2 ^ 4 by decide)

theorem swapCancel_idle {g : Nat} {d : Dev} (h : d.get (FLT_GRP_CTRL_state g) ≠ 1 ∨ (d.fgroup g).held = none) : swapCancel g d = d := by
  unfold swapCancel
  extract_lets x
  refine if_neg ?_
  rcases h with h | h
  · simp [h]
  · simp [x, h]

/-! ## The writes of a group's registers -/

theorem regWrite_groupCtrl {d : Dev} {g : Fin 32} (hb : d.fltBound g.val = true) (m v : Nat) :
    regWrite {} m (0x80000 + 0x40 * g.val) v d = groupCtrlWrite g.val v d := by
  have hg := g.isLt
  unfold regWrite
  rw [findRow_groupCtrl]
  dsimp only
  rw [if_neg (by simp [hb]), if_neg (by omega), if_neg (by omega), if_pos (by omega)]
  rfl

theorem regWrite_groupSwap {d : Dev} {g : Fin 32} (hb : d.fltBound g.val = true) (m v : Nat) :
    regWrite {} m (0x80004 + 0x40 * g.val) v d = swapWrite g.val v d := by
  have hg := g.isLt
  unfold regWrite
  rw [findRow_groupSwap]
  dsimp only
  rw [if_neg (by simp [hb]), if_neg (by omega), if_neg (by omega), if_pos (by omega)]
  rfl

theorem regWrite_groupSwap_unbound {d : Dev} {g : Fin 32} (hb : d.fltBound g.val = false) (m v : Nat) :
    regWrite {} m (0x80004 + 0x40 * g.val) v d = d := by
  have hg := g.isLt
  unfold regWrite
  rw [findRow_groupSwap]
  exact if_pos (by simp [hb]; omega)

/-- The word of a request is decoded. -/
theorem swapWrite_request (g : Nat) (bank : Fin 2) (fade : Fin 8192) (d : Dev) :
    swapWrite g (1 + 4 * bank.val + 65536 * fade.val) d = swapRequest g ⟨bank.val, fade.val⟩ d := by
  have hb := bank.isLt
  have hf := fade.isLt
  have h1 : (1 + 4 * bank.val + 65536 * fade.val) % 4 = 1 := by omega
  have h2 : bits (1 + 4 * bank.val + 65536 * fade.val) 2 1 = bank.val := by simp only [bits]; omega
  have h3 : bits (1 + 4 * bank.val + 65536 * fade.val) 16 13 = fade.val := by simp only [bits]; omega
  unfold swapWrite
  rw [h1, h2, h3]
  rfl

theorem regCmd_swapRequest {d : Dev} {m : Nat} {g : Fin 32} {bank : Fin 2} {fade : Fin 8192}
    (h : d.Writes m (0x80004 + 0x40 * g.val) (1 + 4 * bank.val + 65536 * fade.val)) :
    regCmd m (0x80004 + 0x40 * g.val) (1 + 4 * bank.val + 65536 * fade.val) d =
      if d.fltBound g.val then swapRequest g.val ⟨bank.val, fade.val⟩ d else d := by
  have hg := g.isLt
  rw [regCmd_of_writes h (by omega) (by omega) (by omega)]
  split
  next hb => rw [regWrite_groupSwap hb, swapWrite_request]
  next hb => exact regWrite_groupSwap_unbound (by simpa using hb) ..

theorem regCmd_swapCancel {d : Dev} {m : Nat} {g : Fin 32} (h : d.Writes m (0x80004 + 0x40 * g.val) 2) :
    regCmd m (0x80004 + 0x40 * g.val) 2 d = if d.fltBound g.val then swapCancel g.val d else d := by
  have hg := g.isLt
  rw [regCmd_of_writes h (by omega) (by omega) (by omega)]
  split
  next hb => rw [regWrite_groupSwap hb]; rfl
  next hb => exact regWrite_groupSwap_unbound (by simpa using hb) ..

theorem swapRequest_off {g : Nat} {r : SwapReq} {d : Dev} (h : d.get (FLT_GRP_CTRL_state g) ≠ 1) : swapRequest g r d = d := by
  unfold swapRequest
  exact if_pos (by simp [h])

theorem swapRequest_taken {g : Nat} {r : SwapReq} {d : Dev} (hon : d.get (FLT_GRP_CTRL_state g) = 1) (hf : (d.fgroup g).fade = none)
    (hh : (d.fgroup g).held = none) : swapRequest g r d = swapTake g r d := by
  unfold swapRequest
  dsimp only
  rw [if_neg (by simp [hon]), if_pos (by simp [hf, hh])]

/-- What a request that is taken does: its code is shown, and a good one changes the bank or begins a fade. -/
theorem swapTake_does {g : Nat} (hg : g < 32) {r : SwapReq} {d : Dev} (hb : r.bank < 2) (hf : (d.fgroup g).fade = none) :
    let c := fltCode g r.bank (some r) d
    let e := swapTake g r d
    e.get (FLT_GRP_CTRL_result g) = c ∧
      (c ≠ 0 → e.fgroup g = d.fgroup g ∧ e.get (FLT_GRP_CTRL_bank g) = d.get (FLT_GRP_CTRL_bank g)) ∧
      (c = 0 → r.fade = 0 → e.get (FLT_GRP_CTRL_bank g) = r.bank ∧ (e.fgroup g).fade = none) ∧
      (c = 0 → r.fade ≠ 0 → e.get (FLT_GRP_CTRL_bank g) = d.get (FLT_GRP_CTRL_bank g) ∧ (e.fgroup g).fade = some { len := r.fade } ∧
        e.flag (FLT_GRP_SWAPST_fading g) = true) := by
  intro c e
  by_cases hc : c = 0
  · by_cases hz : r.fade = 0
    · obtain ⟨hres, hbank, hfade⟩ := swapTake_changes hg hc hz hb
      exact ⟨hres, fun h => absurd hc h, fun _ _ => ⟨hbank, hfade.trans hf⟩, fun _ h => absurd hz h⟩
    · obtain ⟨hres, hbank, hfade, hflag⟩ := swapTake_fades hg hc hz
      exact ⟨hres, fun h => absurd hc h, fun _ h => absurd h hz, fun _ _ => ⟨hbank, hfade, hflag⟩⟩
  · obtain ⟨hgrp, hflt⟩ := swapTake_refused hg hc
    refine ⟨?_, fun _ => ⟨fgroup_of_flt hflt g, ?_⟩, fun h => absurd h hc, fun h => absurd h hc⟩
    · exact (Dev.get_of_grp hgrp _ (.inl rfl)).trans (Dev.get_set_fits _ _ rfl (fltCode_lt ..))
    · exact (Dev.get_of_grp hgrp _ (.inl rfl)).trans (Dev.get_set_apart _ _ _ _ rfl (by simp [Fld.apart, FLT_GRP_CTRL_bank, FLT_GRP_CTRL_result]))

theorem swapsAndFades : Rules.SwapsAndFades := by
  intro s m g hr
  have hg := g.isLt
  refine ⟨fun bank fade hw => ?_, fun hw => ?_⟩
  · have hreg := regCmd_swapRequest hw
    refine ⟨fun h => settles_of rfl hr (hreg.trans ?_), fun hb hon hf hh => ?_, fun hb hon hx => ?_⟩
    · split
      next hb => exact swapRequest_off (h.resolve_left (by simp [hb]))
      · rfl
    · refine ⟨_, settles_of rfl hr (hreg.trans ((if_pos hb).trans (swapRequest_taken hon hf hh))), ?_⟩
      exact swapTake_does hg bank.isLt hf
    · obtain ⟨hgrp, hflag, hbank, hres⟩ := swapRequest_holds (r := ⟨bank.val, fade.val⟩) hon hx bank.isLt
      exact ⟨_, settles_of rfl hr (hreg.trans (if_pos hb)), hgrp, hflag, hbank, hres⟩
  · have hreg := regCmd_swapCancel hw
    refine ⟨fun h => settles_of rfl hr (hreg.trans ?_), fun hb hon hh => ?_⟩
    · split
      next hb => exact swapCancel_idle (h.resolve_left (by simp [hb]))
      · rfl
    · exact ⟨_, settles_of rfl hr (hreg.trans (if_pos hb)), swapCancel_ends hon hh⟩

/-! ## Enabling and disabling -/

/-- Setting a field keeps the other fields of its word. -/
theorem Dev.get_set_sameWord (d : Dev) {k lo w lo' w' : Nat} (v : Nat) (hw : lo + w ≤ 32) (h : lo + w ≤ lo' ∨ lo' + w' ≤ lo) :
    (d.set ⟨k, lo, w⟩ v).get ⟨k, lo', w'⟩ = d.get ⟨k, lo', w'⟩ :=
  Dev.get_set_apart d _ _ v (by simpa [Fld.inWord] using hw) (by simpa [Fld.apart] using h)

/-- An enable that the check refuses. -/
theorem groupOpen_refused {g : Nat} (hg : g < 32) {d : Dev} (hc : fltCode g (d.get (FLT_GRP_CTRL_bank g)) none d ≠ 0) :
    (groupOpen g d).get (FLT_GRP_CTRL_result g) = fltCode g (d.get (FLT_GRP_CTRL_bank g)) none d ∧
      (groupOpen g d).get (FLT_GRP_CTRL_state g) = d.get (FLT_GRP_CTRL_state g) ∧ (groupOpen g d).flag (FLT_GRP_CTRL_enable g) = false := by
  unfold groupOpen
  extract_lets c d1
  rw [if_pos (by simpa using hc)]
  have hgrp := grp_raiseMs (s := 52) (by decide) hg (d1.setFlag (FLT_GRP_CTRL_enable g) false)
  rw [Dev.flag_eq, Dev.get_of_grp hgrp _ (.inl rfl), Dev.get_of_grp hgrp _ (.inl rfl), Dev.get_of_grp hgrp _ (.inl rfl)]
  refine ⟨?_, ?_, Dev.flag_setFlag_same _ _ _ rfl rfl⟩
  · exact (Dev.get_set_sameWord _ _ (by decide) (by decide)).trans (Dev.get_set_fits _ _ rfl (fltCode_lt ..))
  · exact (Dev.get_set_sameWord _ _ (by decide) (by decide)).trans (Dev.get_set_sameWord _ _ (by decide) (by decide))

/-- An enable that the check lets pass. -/
theorem groupOpen_opens {g : Nat} (hg : g < 32) {d : Dev} (hc : fltCode g (d.get (FLT_GRP_CTRL_bank g)) none d = 0) :
    (groupOpen g d).get (FLT_GRP_CTRL_result g) = 0 ∧ (groupOpen g d).get (FLT_GRP_CTRL_state g) = 1 ∧
      (groupOpen g d).flag (FLT_GRP_CTRL_enable g) = true ∧ ((groupOpen g d).fgroup g).marks = [] ∧ ((groupOpen g d).fgroup g).fade = none := by
  unfold groupOpen
  rw [hc]
  extract_lets c d1 d2 chans
  rw [if_neg (by decide)]
  have hgrp : (groupReset g (fltShape g (d2.putFgroup g { chans := chans }))).grp g = d2.grp g :=
    (grp_groupReset hg _).trans ((grp_fltShape ..).trans (grp_putFgroup ..))
  rw [Dev.flag_eq, Dev.get_of_grp hgrp _ (.inl rfl), Dev.get_of_grp hgrp _ (.inl rfl), Dev.get_of_grp hgrp _ (.inl rfl), fgroup_groupReset,
    fgroup_of_flt (flt_fltShape ..), fgroup_putFgroup]
  refine ⟨?_, ?_, Dev.flag_setFlag_same _ _ _ rfl rfl, rfl, rfl⟩
  · exact (Dev.get_set_sameWord _ _ (by decide) (by decide)).trans ((Dev.get_set_sameWord _ _ (by decide) (by decide)).trans
      (Dev.get_set_fits _ _ rfl (show 0 < 2 ^ 4 by decide)))
  · exact (Dev.get_set_sameWord _ _ (by decide) (by decide)).trans (Dev.get_set_fits _ _ rfl (show 1 < 2 ^ 2 by decide))

/-- A group that stops keeps its enable, and no fade or held request. -/
theorem groupStop_does {g : Nat} (hg : g < 32) (d : Dev) :
    (groupStop g d).get (FLT_GRP_CTRL_state g) = 2 ∧ (groupStop g d).flag (FLT_GRP_CTRL_enable g) = d.flag (FLT_GRP_CTRL_enable g) ∧
      ((groupStop g d).fgroup g).fade = none ∧ ((groupStop g d).fgroup g).held = none := by
  unfold groupStop
  extract_lets d1 d2
  have hget (f : Fld) (hk : f.key = 0x80000 + g * 0x40) (hb : (FLT_GRP_CTRL_bank g).apart f = true) : d2.get f = d1.get f := by
    unfold d2
    split
    · exact get_fadeEnd_apart hg d1 (.inl hk) hb (Fld.apart_of_key (by simp only [hk, FLT_GRP_SWAPST_fading]; omega))
    · rfl
  have hfade : (d2.fgroup g).fade = none := by
    unfold d2
    split
    · exact fade_fadeEnd g d1
    next h => exact Option.not_isSome_iff_eq_none.mp h
  rw [Dev.flag_eq, get_heldShow_ctrl _ _ rfl, get_heldShow_ctrl _ _ rfl, fgroup_of_flt (flt_heldShow ..), fgroup_putFgroup]
  refine ⟨?_, ?_, hfade, rfl⟩
  · exact (hget _ rfl (by simp [Fld.apart, FLT_GRP_CTRL_bank, FLT_GRP_CTRL_state])).trans (Dev.get_set_fits _ _ rfl (show 2 < 2 ^ 2 by decide))
  · exact congrArg (· != 0) ((hget _ rfl (by simp [Fld.apart, FLT_GRP_CTRL_bank, FLT_GRP_CTRL_enable])).trans
      (Dev.get_set_sameWord _ _ (by decide) (by decide)))

theorem groupDisable_does {g : Nat} (hg : g < 32) {d : Dev} (hb : d.fltBound g = true) :
    (groupDisable g d).flag (FLT_GRP_CTRL_enable g) = false ∧
      (d.get (FLT_GRP_CTRL_state g) = 1 → (groupDisable g d).get (FLT_GRP_CTRL_state g) = 2 ∧ ((groupDisable g d).fgroup g).fade = none ∧
        ((groupDisable g d).fgroup g).held = none) := by
  unfold groupDisable
  rw [if_neg (by simp [hb])]
  extract_lets d1
  have hflag : d1.flag (FLT_GRP_CTRL_enable g) = false :=
    (congrArg (· != 0) (Dev.get_set_sameWord _ _ (by decide) (by decide))).trans (Dev.flag_setFlag_same d (FLT_GRP_CTRL_enable g) false rfl rfl)
  have hstate : d1.get (FLT_GRP_CTRL_state g) = d.get (FLT_GRP_CTRL_state g) :=
    (Dev.get_set_sameWord _ _ (by decide) (by decide)).trans (Dev.get_set_sameWord _ _ (by decide) (by decide))
  obtain ⟨hst, hen, hfade, hheld⟩ := groupStop_does hg d1
  split
  next h => exact ⟨hen.trans hflag, fun _ => ⟨hst, hfade, hheld⟩⟩
  next h => exact ⟨hflag, fun h1 => absurd (hstate.trans h1) h⟩

theorem groupEnable_opens {g : Nat} {d : Dev} (hb : d.fltBound g = true) (h : d.get (FLT_GRP_CTRL_state g) = 0) : groupEnable g d = groupOpen g d := by
  unfold groupEnable
  dsimp only
  rw [if_neg (by simp [hb]), if_pos h]

/-- An enable that comes while the group stops is noted. -/
theorem groupEnable_pends {g : Nat} {d : Dev} (hb : d.fltBound g = true) (h : d.get (FLT_GRP_CTRL_state g) = 2) :
    (groupEnable g d).get (FLT_GRP_CTRL_state g) = 2 ∧ (groupEnable g d).flag (FLT_GRP_CTRL_enable_pending g) = true := by
  unfold groupEnable
  dsimp only
  rw [if_neg (by simp [hb]), if_neg (by simp [h]), if_pos h]
  refine ⟨?_, Dev.flag_setFlag_same _ _ _ rfl rfl⟩
  exact (Dev.get_set_sameWord _ _ (by decide) (by decide)).trans ((Dev.get_set_sameWord _ _ (by decide) (by decide)).trans h)

/-- A group without a pending enable that has stopped is OFF. -/
theorem groupOff_stops {g : Nat} (hg : g < 32) {d : Dev} (h : d.get (FLT_GRP_CTRL_state g) = 2) (hp : d.flag (FLT_GRP_CTRL_enable_pending g) = false) :
    (groupOff g d).get (FLT_GRP_CTRL_state g) = 0 := by
  unfold groupOff
  rw [if_pos h]
  extract_lets d1 d2 pend d3
  have h1 : d1.grp g = d.grp g := grp_groupLast hg d
  have h2 (f : Fld) (hk : f.key = 0x80000 + g * 0x40) :
      d2.get f = ((d1.set (FLT_GRP_CTRL_state g) 0).setFlag (FLT_GRP_CTRL_enable g) (d1.flag (FLT_GRP_CTRL_enable g) && d1.flag (FLT_GRP_CTRL_enable_pending g))).get f :=
    Dev.get_of_grp (grp_raiseMs (by decide) hg _) f (.inl hk)
  have hpend : pend = false := by
    have hget : d2.get (FLT_GRP_CTRL_enable_pending g) = d.get (FLT_GRP_CTRL_enable_pending g) :=
      (h2 _ rfl).trans ((Dev.get_set_sameWord _ _ (by decide) (by decide)).trans ((Dev.get_set_sameWord _ _ (by decide) (by decide)).trans
        (Dev.get_of_grp h1 _ (.inl rfl))))
    exact (congrArg (· != 0) hget).trans hp
  rw [if_neg (by simp [hpend])]
  exact (Dev.get_set_sameWord _ _ (by decide) (by decide)).trans ((h2 _ rfl).trans ((Dev.get_set_sameWord _ _ (by decide) (by decide)).trans
    (Dev.get_set_fits _ _ rfl (show 0 < 2 ^ 2 by decide))))

/-! ## A write of the enable that keeps the rest of the control word -/

/-- Setting fields of a device to the values that they hold. -/
theorem Dev.SameBut.set_self {K : Nat → Prop} {d e : Dev} (h : d.SameBut K e) (f : Fld) (hf : f.inWord = true) {v : Nat} (hv : e.get f = v) :
    d.SameBut K (e.set f v) := by
  subst hv
  exact ⟨fun k hk => (Dev.word_set_self e f k hf).trans (h.1 k hk), congrArg (fun x : Dev => { x with regs := (e.set f (e.get f)).regs }) h.2⟩

/-- The value holds the configuration of the group, and acknowledges no dropped write. -/
structure KeepsGroup (g v : Nat) (d : Dev) : Prop where
  ack : bitAt v 8 = false
  bank : d.get (FLT_GRP_CTRL_bank g) = bits v 4 1
  freq : d.get (FLT_GRP_CTRL_freq_src g) = bits v 5 1
  fast : d.get (FLT_GRP_CTRL_fast_en g) = bits v 6 1
  ssb : d.get (FLT_GRP_CTRL_ssb_en g) = bits v 7 1

theorem keepsGroup_rwHeld (g : Fin 32) (x : Nat) (d : Dev) : KeepsGroup g.val (putBits (d.rwHeld (0x80000 + 0x40 * g.val)) 0 1 x) d := by
  have hkey : 0x80000 + g.val * 0x40 = 0x80000 + 0x40 * g.val := by omega
  have above (lo : Nat) (h : 1 ≤ lo) (r : FieldRow) (hr : r ∈ row_groupCtrl.fields) (hlo : r.lo = lo) (hw : r.width = 1) :
      bits (putBits (d.rwHeld (0x80000 + 0x40 * g.val)) 0 1 x) lo 1 =
        if r.acc == .rw || r.acc == .rwb then bits (d.word (0x80000 + 0x40 * g.val)).toNat lo 1 else 0 := by
    rw [bits_putBits_above _ _ _ _ _ _ (by omega), ← hlo, ← hw]
    exact bits_rwHeld (findRow_groupCtrl g) d hr
  have held (lo : Nat) (h : 1 ≤ lo) (hr : ⟨lo, 1, .rw, 0, []⟩ ∈ row_groupCtrl.fields) :
      d.get ⟨0x80000 + g.val * 0x40, lo, 1⟩ = bits (putBits (d.rwHeld (0x80000 + 0x40 * g.val)) 0 1 x) lo 1 := by
    rw [above lo h _ hr rfl rfl, Dev.get, hkey]
    rfl
  refine ⟨?_, held 4 (by decide) (by decide), held 5 (by decide) (by decide), held 6 (by decide) (by decide), held 7 (by decide) (by decide)⟩
  rw [bitAt_eq, above 8 (by decide) ⟨8, 1, .w1c, 0, []⟩ (by decide) rfl rfl]
  rfl

/-- Such a write acts on the enable alone. -/
theorem groupCtrlWrite_keeps {g v : Nat} {d : Dev} (hb : d.fltBound g = true) (hv : KeepsGroup g v d) :
    ∃ e, d.SameBut (fun _ => False) e ∧ groupCtrlWrite g v d = if bitAt v 0 then groupEnable g e else groupDisable g e := by
  obtain ⟨ack, bank, freq, fast, ssb⟩ := hv
  unfold groupCtrlWrite
  rw [if_neg (by simp [hb]), ack]
  extract_lets d1 d2
  have h1 : d1 = d := rfl
  refine ⟨d2, ?_, rfl⟩
  unfold d2
  rw [h1]
  have same := Dev.SameBut.refl (fun _ => False) d
  split
  · have s1 := same.set_self (FLT_GRP_CTRL_bank g) rfl bank
    have s2 := s1.set_self (FLT_GRP_CTRL_freq_src g) rfl ((s1.get (fun h => h)).trans freq)
    have s3 := s2.set_self (FLT_GRP_CTRL_fast_en g) rfl ((s2.get (fun h => h)).trans fast)
    exact s3.set_self (FLT_GRP_CTRL_ssb_en g) rfl ((s3.get (fun h => h)).trans ssb)
  · rw [if_neg (by simp [bank, freq, fast, ssb])]
    exact same

/-- What a device shows of its groups is what another shows whose registers read the same. -/
theorem fltCode_alike {d e : Dev} (h : d.SameBut (fun _ => False) e) (g b : Nat) (r : Option SwapReq) : fltCode g b r e = fltCode g b r d := by
  have hgrp : e.grp g = d.grp g := by
    unfold Dev.grp
    rw [h.1 _ id, h.1 _ id]
  exact fltCode_congr (by rw [h.2]) (by rw [h.2]) hgrp b r

theorem fltBound_alike {d e : Dev} (h : d.SameBut (fun _ => False) e) (g : Nat) : e.fltBound g = d.fltBound g := by
  unfold Dev.fltBound
  rw [h.get id]

/-- The write of an enable. -/
theorem regKeep_group {d : Dev} {m : Nat} {g : Fin 32} {x : Nat} (hb : d.fltBound g.val = true) (hw : d.WritesField m (0x80000 + 0x40 * g.val) 0 1 x) :
    ∃ e, d.SameBut (fun _ => False) e ∧
      regKeep m (0x80000 + 0x40 * g.val) 0 1 x d = if x % 2 = 1 then groupEnable g.val e else groupDisable g.val e := by
  have hg := g.isLt
  obtain ⟨e, he, hc⟩ := groupCtrlWrite_keeps hb (keepsGroup_rwHeld g x d)
  refine ⟨e, he, (regKeep_of_writes hw (by omega) (by omega) (by omega)).trans ((regWrite_groupCtrl hb ..).trans (hc.trans ?_))⟩
  rw [bitAt_eq, bits_putBits_same]
  simp

/-- FLT_GROUP_OFF acts while the lane of the group runs. -/
theorem exec_fltGroupOff (g : Fin 32) (s : State) :
    exec (.fltGroupOff g) s = s.acts (fun d => if d.laneRuns 3 (g.val / 2) then groupOff g.val d else d) := rfl

theorem filterGroupsOpenAndClose : Rules.FilterGroupsOpenAndClose := by
  intro s m g hr
  have hg := g.isLt
  refine ⟨fun hb hw => ?_, fun hb hw => ?_, fun h => settles_of (exec_fltGroupOff g s) hr ?_, fun hl h hp => ?_⟩
  · obtain ⟨e, he, hreg⟩ := regKeep_group hb hw
    have hreg := hreg.trans (if_pos rfl)
    have hbe := (fltBound_alike he g.val).trans hb
    refine ⟨fun hoff => ?_, fun hdis => ?_⟩
    · have hopen := hreg.trans (groupEnable_opens hbe ((he.get id).trans hoff))
      refine ⟨_, settles_of rfl hr hopen, ?_⟩
      rw [← fltCode_alike he, ← he.get (f := FLT_GRP_CTRL_bank g.val) id]
      by_cases hc : fltCode g.val (e.get (FLT_GRP_CTRL_bank g.val)) none e = 0
      · obtain ⟨hres, hst, hen, hmarks, hfade⟩ := groupOpen_opens hg hc
        simp only [hc, hres, hst, hen, hmarks, hfade, if_true, decide_true, and_self, implies_true]
      · obtain ⟨hres, hst, hen⟩ := groupOpen_refused hg hc
        exact ⟨hres, by rw [hst, he.get id, hoff, if_neg hc], by simp [hen, hc], fun h => absurd h hc⟩
    · exact ⟨_, settles_of rfl hr hreg, groupEnable_pends hbe ((he.get id).trans hdis)⟩
  · obtain ⟨e, he, hreg⟩ := regKeep_group hb hw
    obtain ⟨hen, hst⟩ := groupDisable_does hg ((fltBound_alike he g.val).trans hb)
    exact ⟨_, settles_of rfl hr (hreg.trans (if_neg (by decide))), hen, fun h => hst ((he.get id).trans h)⟩
  · split
    · exact if_neg h
    · rfl
  · exact ⟨_, settles_of (exec_fltGroupOff g s) hr (if_pos hl), groupOff_stops hg h hp⟩

/-- Settles O41: what a sample, a swap and the enable of a group leave. -/
theorem filtersRunAndSwap : Obligations.FiltersRunAndSwap := ⟨samplesAreFiltered, swapsAndFades, filterGroupsOpenAndClose⟩

end Sys2Proof.Machine
end

section
/-! PROOF. The state after reset, and RWB fields after lock (O9, O12). -/
namespace Sys2Proof.Machine

/-! ## The state after reset (O9) -/

/-- Settles O9 by evaluation: CKP_RST_CAUSE alone is listed as written, each other register reads its reset value, and memory that nothing has
written reads zero (log entries 3 and 133). -/
theorem resetState : Obligations.ResetState := by
  unfold Obligations.ResetState
  decide +kernel

/-! ## Which registers hold RWB fields (R46) -/

/-- The row of an offset belongs to the offset's block. -/
theorem mem_blockRows_of_findRow {off : Nat} {r : RegRow} {ix : List Nat} (h : findRow off = some (r, ix)) : r ∈ blockRows (off / 0x10000) := by
  obtain ⟨x, hx, hr⟩ := List.exists_of_findSome?_eq_some h
  obtain ⟨-, j, -, hj⟩ : ¬off < x.base ∧ ∃ j, dimIndex x.dims (off - x.base) = some j ∧ (x, j) = (r, ix) := by
    simpa [Option.ite_none_left_eq_some] using hr
  cases hj
  exact hx

/-- No register of the Binding's own block holds one. -/
theorem blockRows_bnd_not_rwb : ∀ r ∈ blockRows 2, ∀ f ∈ r.fields, f.acc ≠ .rwb := by decide

/-- A register with an RWB field is another one than those that count the writes, for every master. -/
theorem keyFor_ne_of_rwb {off : Nat} {r : RegRow} {ix : List Nat} (h : findRow off = some (r, ix)) (hf : ∃ f ∈ r.fields, f.acc = .rwb)
    (m : Nat) {k : Nat} (hk : k / 0x10000 = 2) : r.keyFor m off ≠ k := by
  have hb : off / 0x10000 ≠ 2 := by
    intro hb
    obtain ⟨f, hf, ha⟩ := hf
    exact blockRows_bnd_not_rwb r (hb ▸ mem_blockRows_of_findRow h) f hf ha
  unfold RegRow.keyFor masterSpan
  split <;> omega

/-! ## A write after lock (O12) -/

/-- A field inside the word is not touched by the word's bound. -/
theorem bits_ofNat_word (v : Nat) {lo w : Nat} (h : lo + w ≤ 32) : bits (BitVec.ofNat 32 v).toNat lo w = bits v lo w := by
  rw [BitVec.toNat_ofNat]
  unfold bits
  obtain ⟨n, hn⟩ := Nat.exists_eq_add_of_le h
  rw [hn, Nat.pow_add, Nat.pow_add, Nat.mul_assoc, Nat.mod_mul_right_div_self, Nat.mod_mul_right_mod]

/-- The word that a locked register takes keeps its RWB fields. -/
theorem bits_newWord_locked {off : Nat} {r : RegRow} {ix : List Nat} (h : findRow off = some (r, ix)) {f : FieldRow} (hf : f ∈ r.fields)
    (ha : f.acc = .rwb) (old v : Nat) : bits (newWord true r old v) f.lo f.width = bits old f.lo f.width := by
  rw [bits_newWord h hf]
  simp [fieldWord, ha]

/-- The device once a dropped write of an RWB field is counted and recorded (R46). -/
def rwbDropped (m off : Nat) (d : Dev) : Dev := ((d.inc BND_RWB_DROP).set BND_RWB_LAST_offset off).set BND_RWB_LAST_master m

theorem word_rwbDropped_ne (m off : Nat) (d : Dev) {k : Nat} (hd : k ≠ BND_RWB_DROP.key) (hl : k ≠ BND_RWB_LAST_offset.key) :
    (rwbDropped m off d).word k = d.word k :=
  (Dev.word_set_ne _ BND_RWB_LAST_master m hl).trans ((Dev.word_set_ne _ BND_RWB_LAST_offset off hl).trans (Dev.word_set_ne _ BND_RWB_DROP _ hd))

theorem rwbDropped_spec {m : Nat} (hm : m < 32) (off : Nat) (d : Dev) :
    (rwbDropped m off d).get BND_RWB_DROP = min (d.get BND_RWB_DROP + 1) (2 ^ BND_RWB_DROP.width - 1) ∧
    (rwbDropped m off d).get BND_RWB_LAST_offset = off % 2 ^ BND_RWB_LAST_offset.width ∧ (rwbDropped m off d).get BND_RWB_LAST_master = m := by
  refine ⟨?_, ?_, Dev.get_set_fits _ _ rfl hm⟩
  · exact (Dev.get_set_ne _ _ _ _ (by decide)).trans ((Dev.get_set_ne _ _ _ _ (by decide)).trans (Dev.get_inc_same _ _ rfl))
  · exact (Dev.get_set_apart _ _ _ _ rfl rfl).trans (Dev.get_set_same _ _ _ rfl)

/-- A write to a locked register: the word, and the count where an RWB field would change. -/
theorem rowWrite_locked {r : RegRow} {m off v : Nat} {d : Dev} (hl : d.flag BND_STAT_locked = true) :
    rowWrite r m off v d =
      let k := r.keyFor m off
      let x := d.putWord k (BitVec.ofNat 32 (newWord true r (d.word k).toNat v))
      if rwbDiffers r (d.word k).toNat v then rwbDropped m off x else x := by
  unfold rowWrite
  simp only [hl, Bool.true_and]
  rfl

/-- Settles O12: the register's word is none of the two that count, so the fields and the count are looked at apart. -/
theorem rwbFieldsKeepAfterLock : Obligations.RwbFieldsKeepAfterLock := by
  intro off r ix h hf d m v hm hl
  have hdrop : r.keyFor m off ≠ BND_RWB_DROP.key := keyFor_ne_of_rwb h hf m rfl
  have hlast : r.keyFor m off ≠ BND_RWB_LAST_offset.key := keyFor_ne_of_rwb h hf m rfl
  extract_lets k e
  generalize hx : d.putWord k (BitVec.ofNat 32 (newWord true r (d.word k).toNat v)) = x
  have he : e = if rwbDiffers r (d.word k).toNat v then rwbDropped m off x else x := by
    subst hx
    exact rowWrite_locked hl
  have hword : e.word k = BitVec.ofNat 32 (newWord true r (d.word k).toNat v) := by
    have hk : x.word k = BitVec.ofNat 32 (newWord true r (d.word k).toNat v) := hx ▸ Dev.word_putWord_same ..
    rw [he, apply_ite (fun y : Dev => y.word k), word_rwbDropped_ne _ _ _ hdrop hlast, ite_self, hk]
  have hother {k' : Nat} (hk : k ≠ k') : x.word k' = d.word k' := hx ▸ Dev.word_putWord_ne _ _ hk.symm
  have hcount : x.get BND_RWB_DROP = d.get BND_RWB_DROP := by
    unfold Dev.get
    rw [hother hdrop]
  refine ⟨fun f hf ha => ?_, ?_⟩
  · rw [hword, bits_ofNat_word _ (RegRow.sound_width (findRow_sound h) hf), bits_newWord_locked h hf ha]
  · rw [he, ← hcount]
    unfold rwbDiffers
    split
    · exact rwbDropped_spec hm off x
    · exact ⟨rfl, hother hlast⟩

end Sys2Proof.Machine
end

section
/-! PROOF. The lock of a Binding and the end of a folio build (O25). -/
namespace Sys2Proof.Machine

/-! ## The lock (R45, R46, R463) -/

/-- The device at the instant of the lock: the Binding is LOCKED and source 5 is raised (R45). -/
def bndLocked (d : Dev) : Dev := raise 5 ((d.bndPut .locked).setFlag BND_STAT_locked true)

/-- A lock, and then what follows it, in this order (R83, R463; log entry 121 for the compression engine). -/
theorem bndLockNow_eq (d : Dev) : bndLockNow d = cmpPower (enginesLock (poolUpdate (colReeval (commitAll commitEntry (bndLocked d))))) := rfl

/-- Whether the Binding is locked changes, and beside it what an event changes. -/
theorem eventOnly_bndLocked (d : Dev) : EventOnly ((d.bndPut .locked).setFlag BND_STAT_locked true) (bndLocked d) := eventOnly_raise _ (by decide)

theorem get_bndLocked_apart (d : Dev) {g : Fld} (hs : BND_STAT_state.apart g = true) (hl : BND_STAT_locked.apart g = true)
    (hb : keyBlock g.key ≠ 0x12) (hx : g.key ≠ GCTL_XDROP.key) : (bndLocked d).get g = d.get g :=
  ((eventOnly_bndLocked d).get g hb hx).trans ((Dev.get_set_apart _ BND_STAT_locked g _ rfl hl).trans (get_bndPut_apart _ _ hs))

theorem bndIs_bndLocked (d : Dev) : (bndLocked d).bndIs .locked = true :=
  calc (bndLocked d).bndIs .locked = (d.bndPut .locked).bndIs .locked :=
        bndIs_congr (((eventOnly_bndLocked d).get _ (by decide) (by decide)).trans (Dev.get_set_apart _ BND_STAT_locked _ _ rfl rfl)) _
    _ = true := bndIs_bndPut ..

theorem flag_locked_bndLocked (d : Dev) : (bndLocked d).flag BND_STAT_locked = true := by
  rw [Dev.flag_eq, (eventOnly_bndLocked d).get _ (by decide) (by decide), ← Dev.flag_eq]
  exact Dev.flag_setFlag_same _ _ _ rfl rfl

theorem regCmd_bndLock {d : Dev} {m : Nat} (h : d.Writes m 0x20008 1) : regCmd m 0x20008 1 d = bndLock (keyDisarm m d) := regCmd_bndCmd h

theorem bndLock_refused {d : Dev} (h : d.bndIs .unlocked = false) : bndLock d = cmdResult 0x0C d := by simp [bndLock, h]

theorem bndLock_unlocked {d : Dev} (h : d.bndIs .unlocked = true) : bndLock d = bndLockNow (cmdResult 0 d) := if_pos h

/-- The elapsed time at which an UNLOCKED Binding locks by itself (R45). -/
def Dev.lockDue (d : Dev) : Nat := d.bnd.unlockedAt + d.bnd.timeoutMs * 4000000

theorem bndLockTimeout_idle {d : Dev} (h : d.bndIs .unlocked = false) : bndLockTimeout d = d := by simp [bndLockTimeout, h]

theorem bndLockTimeout_reached {d : Dev} (h : d.bndIs .unlocked = true) (ht : d.ReachesElapsed d.lockDue) :
    bndLockTimeout d = bndLockNow ((passElapsed d.lockDue d).setFlag BND_STAT_lock_timeout true) := by
  unfold bndLockTimeout
  rw [if_neg (by simp [h])]
  exact if_neg (Nat.not_lt.mpr ht)

theorem bndLockTimeout_early {d : Dev} (h : d.bndIs .unlocked = true) (ht : ¬d.ReachesElapsed d.lockDue) :
    bndLockTimeout d = passElapsed d.lockDue d := by
  unfold bndLockTimeout
  rw [if_neg (by simp [h])]
  exact if_pos (Nat.not_le.mp ht)

/-- At step 6 the start-up goes to step 7 exactly when what the lock started has ended (R463). -/
theorem step_startupSettle_of_six {d : Dev} (h : d.get CKP_PWR_STAT_step = 6) :
    (startupSettle d).get CKP_PWR_STAT_step = if d.lockDone then 7 else 6 := by
  unfold startupSettle
  extract_lets d1 d2 d3
  have h1 : d1 = d := if_neg (by simp [h])
  have h2 : d2.get CKP_PWR_STAT_step = if d.lockDone then 7 else 6 := by
    unfold d2
    rw [h1]
    by_cases hd : d.lockDone = true
    · rw [if_pos (by simp [h, hd]), if_pos hd, stepDone, if_pos (by rw [h])]
      exact Dev.get_set_same _ _ _ rfl
    · rw [if_neg (by simp [hd]), if_neg hd, h]
  have h3 : d3 = d2 := if_neg (by rw [h2]; split <;> simp)
  rw [apply_ite (fun x : Dev => x.get CKP_PWR_STAT_step), Dev.get_withBnd, ite_self, h3, h2]

theorem lockOfTheBinding : Rules.LockOfTheBinding := by
  intro s hr locks
  have follows {c : Instr} {f : Dev → Dev} {y : Dev} (hc : exec c s = s.acts f) (hy : f s.dev = bndLockNow y) : locks c (bndLocked y) :=
    ⟨bndIs_bndLocked y, flag_locked_bndLocked y, settles_of hc hr (hy.trans (bndLockNow_eq y))⟩
  refine ⟨fun m hw => ⟨fun hu => ?_, fun hu => ?_⟩, fun hu ht => ?_, fun hu ht => ?_, fun hu => ?_, fun h => ?_⟩
  · refine ⟨_, settles_of rfl hr ((regCmd_bndLock hw).trans (bndLock_refused hu)), get_cmdResult_same _ _, fun k hk => ?_, rfl⟩
    exact word_cmdResult_ne _ (keyDisarm m.val s.dev) hk
  · refine ⟨_, follows rfl ((regCmd_bndLock hw).trans (bndLock_unlocked hu)), ?_, (eventOnly_bndLocked _).queues⟩
    exact (get_bndLocked_apart _ rfl rfl (by decide) (by decide)).trans (get_cmdResult_same _ _)
  · refine ⟨_, follows rfl (bndLockTimeout_reached hu ht), ?_, ?_⟩
    · rw [Dev.flag_eq, get_bndLocked_apart _ rfl rfl (by decide) (by decide), ← Dev.flag_eq]
      exact Dev.flag_setFlag_same _ _ _ rfl rfl
    · rw [(eventOnly_bndLocked _).time]
      exact ht
  · exact settles_of rfl hr (bndLockTimeout_early hu ht)
  · exact settles_of rfl hr (bndLockTimeout_idle hu)
  · exact step_startupSettle_of_six h

/-! ## The end of a folio build (R42, R45, R51, R463) -/

/-- Whether folios are being built: at start-up, by a recovery load, or in the re-binding's own step. -/
def Dev.buildRuns (d : Dev) : Bool := d.bndIs .building || (d.bndIs .rebinding && d.bnd.rebuild)

theorem folioBuildDone_idle {d : Dev} (h : d.buildRuns = false) (ok : Bool) : folioBuildDone ok d = d := if_neg (Bool.eq_false_iff.mp h)

theorem folioBuildDone_good {d : Dev} (h : d.buildRuns = true) : folioBuildDone true d = buildDone d := if_pos h

theorem folioBuildDone_bad {d : Dev} (h : d.buildRuns = true) : folioBuildDone false d = buildFail d := if_pos h

/-- A failing build or verification goes on with the verification of another slot: source 4 and BND_STAT.fallback tell of it. -/
theorem fallback_spec (slot : Nat) (d : Dev) :
    let e := (raise 4 ((d.setFlag BND_STAT_fallback true).bndPut .verifying)).withBnd (fun b => { b with loading := some slot })
    e.flag BND_STAT_fallback = true ∧ e.bndIs .verifying = true ∧ e.bnd.loading = some slot := by
  refine ⟨?_, ?_, rfl⟩
  · rw [Dev.flag_eq, Dev.get_withBnd, get_raise _ _ (by decide) (by decide) (by decide), get_bndPut_apart _ _ rfl, ← Dev.flag_eq]
    exact Dev.flag_setFlag_same _ _ _ rfl rfl
  · rw [bndIs_withBnd, bndIs_congr (get_raise _ _ (by decide) (by decide) (by decide)), bndIs_bndPut]
    rfl

/-- Of any source but slot A, a failing build outside a re-binding leads to RECOVERY. -/
theorem buildFail_recovery {d : Dev} (hb : d.bndIs .rebinding = false) (ht : d.bnd.target ≠ 1) : buildFail d = enterRecovery d := by
  simp [buildFail, slotReject, hb, ht]

theorem buildFail_slotA {d : Dev} (hb : d.bndIs .rebinding = false) (ht : d.bnd.target = 1) : buildFail d =
    (raise 4 ((d.setFlag BND_STAT_fallback true).bndPut .verifying)).withBnd (fun b => { b with loading := some 2 }) := by
  simp [buildFail, slotReject, hb, ht]

theorem folioBuildEnds : Rules.FolioBuildEnds := by
  intro s hr b hb img y
  have good {d : Dev} (ht : b = true) (hd : buildDone s.dev = d) : exec (.folioBuildDone true) s = .next (s.settling d) :=
    settles_of rfl hr ((folioBuildDone_good (hb.symm.trans ht)).trans hd)
  have bad {d : Dev} (ht : b = true) (hd : buildFail s.dev = d) : exec (.folioBuildDone false) s = .next (s.settling d) :=
    settles_of rfl hr ((folioBuildDone_bad (hb.symm.trans ht)).trans hd)
  refine ⟨fun hf ok => settles_of rfl hr (folioBuildDone_idle (hb.symm.trans hf) ok), fun ht hi => good ht (if_pos hi), fun ht hi => ?_,
    fun ht hre => ⟨_, bad ht (if_pos hre), fallback_spec 1 s.dev⟩,
    fun ht hre hsl => ⟨_, bad ht (buildFail_slotA hre hsl), fallback_spec 2 s.dev⟩, fun ht hre hsl => bad ht (buildFail_recovery hre hsl)⟩
  have hd : imgFlags img % 2 ≠ 0 := by omega
  refine ⟨_, good ht (if_neg hd), ?_, rfl, rfl, rfl, fun k hk => Dev.word_set_ne y BND_STAT_state _ hk, rfl⟩
  rw [bndIs_withBnd, bndIs_bndPut]
  rfl

/-- Settles O25: a lock is one step whatever asks for it, and the end of a build follows its outcome and the state it began in. -/
theorem bindingLocksAndBuilds : Obligations.BindingLocksAndBuilds := ⟨lockOfTheBinding, folioBuildEnds⟩

end Sys2Proof.Machine
end


section
/-! PROOF. A step on an empty queue, and the copy of COAST after every step (O2, O7). -/
namespace Sys2Proof.Machine

/-! ## An empty queue is a tick (O2) -/

theorem cko1Edge_rest (d : Dev) : cko1Edge d = { d with ckp := (cko1Edge d).ckp } := by
  unfold cko1Edge
  split <;> rfl

theorem tickAll_of_idle {d : Dev} (h : d.time.pending = none) : tickAll d = settle (cko1Edge (tick d)) := if_neg (by simp [h])

theorem tick_of_runs {d : Dev} (h : d.tbcRuns = true) :
    tick d = { d with time := { d.time with clock := (d.time.clock + d.tickStep) % clockSpan, elapsed := d.time.elapsed + d.tickElapsed } } := if_pos h

/-- Settles O2: no step waits, so the empty queue's tick is the counter's own, and what else it moves is the divider of CKO1. -/
theorem emptyQueueIsATick : Obligations.EmptyQueueIsATick := by
  refine fun d => ⟨fun hh => State.does_of_held (s := ⟨d, []⟩) hh tickAll, fun hr ht hp => ⟨cko1Edge (tick d), ?_, ?_⟩⟩
  · exact (State.does_of_running (s := ⟨d, []⟩) hr tickAll).trans (by rw [tickAll_of_idle hp])
  · rw [cko1Edge_rest, tick_of_runs ht]
    exact ⟨rfl, rfl, rfl⟩

/-! ## TBS_STATE.coast copies COAST (O7) -/

/-- The status fields that follow other state copy COAST. -/
theorem flag_coast_publish (d : Dev) : (publish d).flag TBS_STATE_coast = (publish d).flag CKP_STAT_coast := by
  have copied : (publish d).get TBS_STATE_coast = (d.setFlag TBS_STATE_coast d.coast).get TBS_STATE_coast := by
    rw [get_publish_eq]
    unfold showStatus queueFc segCount detPendShow
    rw [Dev.setFlag_eq, Dev.get_set_ne _ _ _ _ (by decide), Dev.get_set_ne _ _ _ _ (by decide), Dev.get_set_ne _ _ _ _ (by decide),
      Dev.get_set_ne _ _ _ _ (by decide)]
  rw [Dev.flag_eq, copied, ← Dev.flag_eq, Dev.flag_setFlag_same _ _ _ rfl rfl, Dev.coast, Dev.flag_eq, Dev.flag_eq, get_publish _ _ rfl]

/-- A step after which the device runs ends with the status fields. -/
theorem step_publishes {s t : State} (h : step s = .next t) (hr : t.Running) : ∃ d, t.dev = publish d := by
  have running {q : List Instr} {x e : Dev} (ht : t = ⟨if x.pwr.held = true then x else publish e, q⟩) : ∃ d, t.dev = publish d := by
    by_cases hx : x.pwr.held = true
    · have hs : t = ⟨x, q⟩ := ht.trans (by rw [if_pos hx])
      rw [State.Running, hs] at hr
      exact absurd hx (by rw [hr]; decide)
    · exact ⟨e, by rw [ht, if_neg hx]⟩
  have ended {c : Instr} {q : List Instr} (hc : exec c ⟨s.dev, q⟩ = .next t) : ∃ d, t.dev = publish d := by
    rcases exec_form c ⟨s.dev, q⟩ with ha | ⟨d, hd⟩
    · obtain ⟨d, hd⟩ := exec_form_always c ⟨s.dev, q⟩ ha
      exact running (Host.Outcome.next.inj (hc.symm.trans hd))
    · exact running (Host.Outcome.next.inj (hc.symm.trans hd))
  obtain ⟨d, q⟩ := s
  cases q with
  | nil => exact running (Host.Outcome.next.inj h).symm
  | cons c rest => exact ended h

/-- Settles O7: every step of a device that then runs ends with the status fields, and COAST's copy is one of them. -/
theorem coastIsCopied : Obligations.CoastIsCopied := by
  intro s t h hr
  obtain ⟨d, hd⟩ := step_publishes h hr
  rw [hd, flag_coast_publish]

end Sys2Proof.Machine
end

section
/-! PROOF. What the operations of the time base change and leave: its state, its configuration registers and the time state (R61-R66). -/
namespace Sys2Proof.Machine

/-! ## Configuration registers that the device's own operations leave -/

/-- TBS_CTRL, TBS_SERVO_CFG, TBS_SERVO_LIM, TBS_LOCK_CFG, TBS_HOLD_CFG and TBS_PTP_CFG. -/
def tbsCfg (k : Nat) : Bool := k == 0x40000 || k == 0x40040 || k == 0x40044 || k == 0x40050 || k == 0x40054 || k == 0x40060

/-- These registers read the same. -/
def CfgKept (d e : Dev) : Prop := ∀ k, tbsCfg k = true → e.word k = d.word k

theorem CfgKept.refl (d : Dev) : CfgKept d d := fun _ _ => rfl

theorem CfgKept.trans {a b c : Dev} (h : CfgKept a b) (g : CfgKept b c) : CfgKept a c := fun k hk => (g k hk).trans (h k hk)

theorem CfgKept.ite {c : Prop} [Decidable c] {d x y : Dev} (hx : CfgKept d x) (hy : CfgKept d y) : CfgKept d (if c then x else y) := by
  split
  · exact hx
  · exact hy

theorem CfgKept.get {d e : Dev} (h : CfgKept d e) (f : Fld) (hf : tbsCfg f.key = true) : e.get f = d.get f := by
  unfold Dev.get
  rw [h _ hf]

theorem CfgKept.set {d e : Dev} (h : CfgKept d e) (f : Fld) (v : Nat) (hf : tbsCfg f.key = false) : CfgKept d (e.set f v) :=
  h.trans fun _ hk => Dev.word_set_ne e f v (fun he => Bool.noConfusion (hk.symm.trans (he ▸ hf)))

/-- The configuration registers of the time base stand in its own block. -/
theorem tbsCfg_block {k : Nat} (h : tbsCfg k = true) : keyBlock k ≠ 0x12 ∧ keyBlock k ≠ 0xF ∧ k ≠ GCTL_XDROP.key := by
  simp only [tbsCfg, Bool.or_eq_true, beq_iff_eq] at h
  obtain ((((rfl | rfl) | rfl) | rfl) | rfl) | rfl := h <;> decide

theorem LogOnly.cfgKept {d e : Dev} (h : LogOnly d e) : CfgKept d e := fun k hk =>
  have ⟨h12, hf, hx⟩ := tbsCfg_block hk
  h.word k h12 hf hx

theorem LogOnly.time {d e : Dev} (h : LogOnly d e) : e.time = d.time := by rw [h.rest]

theorem LogOnly.ite {c : Prop} [Decidable c] {d e : Dev} (h : LogOnly d e) : LogOnly d (if c then e else d) := by
  split
  · exact h
  · exact .refl d

/-! ## The published quality, the increment and the frequency (R61, R64, R65) -/

@[simp] theorem time_updateTq (d : Dev) : (updateTq d).time = d.time := rfl
@[simp] theorem time_updateRefPpb (d : Dev) : (updateRefPpb d).time = d.time := rfl

theorem sameBut_updateTq (d : Dev) : d.SameBut (fun k => k = TBS_TQ.key ∨ k = TBS_HOLD_EST.key) (updateTq d) :=
  (((((Dev.SameBut.refl _ d).set TBS_TQ_code (.inl rfl) _).set TBS_TQ_unlocked (.inl rfl) _).set TBS_TQ_sync_err (.inl rfl) _).set
    TBS_TQ_since_locked (.inl rfl) _).set TBS_HOLD_EST (.inr rfl) _

theorem sameBut_updateRefPpb (d : Dev) : d.SameBut (fun k => k = CKP_REF_PPB.key ∨ k = CKP_STAT_state.key) (updateRefPpb d) :=
  ((Dev.SameBut.refl _ d).set CKP_REF_PPB (.inl rfl) _).set CKP_STAT_ref_ppb_valid (.inr rfl) _

theorem cfgKept_updateTq (d : Dev) : CfgKept d (updateTq d) := fun k hk =>
  (sameBut_updateTq d).1 k (fun h => by rcases h with rfl | rfl <;> cases hk)

theorem cfgKept_updateRefPpb (d : Dev) : CfgKept d (updateRefPpb d) := fun k hk =>
  (sameBut_updateRefPpb d).1 k (fun h => by rcases h with rfl | rfl <;> cases hk)

@[simp] theorem timeState_updateTq (d : Dev) : (updateTq d).timeState = d.timeState := (sameBut_updateTq d).get (by decide)
@[simp] theorem timeState_updateRefPpb (d : Dev) : (updateRefPpb d).timeState = d.timeState := (sameBut_updateRefPpb d).get (by decide)

/-- A frequency correction with its increment in force and shown, before the clamp is looked at. -/
def freqShown (f : Int) (d : Dev) : Dev :=
  let d : Dev := { d with time := { d.time with freq := f } }
  updateRefPpb (setIncr (incrOf d.incrNom f) (d.setI TBS_SERVO_FREQ f))

/-- An arrival at the clamp raises source 16 (R61). -/
def clampShown (f : Int) (d : Dev) : Dev :=
  let atClamp := f.natAbs == d.clamp16.natAbs
  let e := d.setFlag TBS_STATE_clamp atClamp
  if atClamp && !d.flag TBS_STATE_clamp then raise 16 e else e

theorem setFreq_eq (f : Int) (d : Dev) : setFreq f d = clampShown f (freqShown f d) := rfl

theorem logOnly_clampShown (f : Int) (d : Dev) : LogOnly (d.setFlag TBS_STATE_clamp (f.natAbs == d.clamp16.natAbs)) (clampShown f d) :=
  (logOnly_raise _ (by decide)).ite

/-- The frequency and its increment are all that a correction changes of the time base's state. -/
theorem time_setFreq (f : Int) (d : Dev) : (setFreq f d).time = { d.time with freq := f, incr := incrOf d.incrNom f % 2 ^ 40 } :=
  (logOnly_clampShown f (freqShown f d)).time

theorem cfgKept_setFreq (f : Int) (d : Dev) : CfgKept d (setFreq f d) := by
  have shown : CfgKept d (freqShown f d) := by
    refine CfgKept.trans ?_ (cfgKept_updateRefPpb _)
    exact ((CfgKept.set (e := { d with time := { d.time with freq := f, incr := incrOf d.incrNom f % 2 ^ 40 } }) (fun _ _ => rfl) TBS_SERVO_FREQ _ rfl).set
      TBS_INCR_LO _ rfl).set TBS_INCR_HI_value _ rfl
  exact (shown.set TBS_STATE_clamp _ rfl).trans (logOnly_clampShown f _).cfgKept

theorem timeState_setFreq (f : Int) (d : Dev) : (setFreq f d).timeState = d.timeState := by
  have shown : (freqShown f d).timeState = d.timeState := by
    unfold freqShown setIncr
    rw [timeState_updateRefPpb]
    unfold Dev.timeState
    rw [Dev.get_set_ne _ _ _ _ (by decide), Dev.get_set_ne _ _ _ _ (by decide)]
    exact Dev.get_set_ne _ _ _ _ (by decide)
  refine ((logOnly_clampShown f (freqShown f d)).get TBS_STATE_state (by decide) (by decide) (by decide)).trans ?_
  exact (Dev.get_set_apart _ TBS_STATE_clamp TBS_STATE_state _ rfl rfl).trans shown

/-! ## A change of the time state (R63, R64) -/

/-- The marks that a change of the time state sets. -/
def Dev.entering (d : Dev) (new : Nat) : TimeSt :=
  { d.time with
    goodRun := 0, badRun := 0, newMaster := false
    lockedLeft := if d.timeState = 3 then some d.time.elapsed else d.time.lockedLeft
    holdFrom := if new = 2 then d.time.elapsed else d.time.holdFrom
    firstUpdate := d.time.firstUpdate || new == 0
    stepped := if new = 0 then false else d.time.stepped }

/-- The state and its marks, with source 12 and the record of the change. -/
def stateNoted (new : Nat) (d : Dev) : Dev :=
  let e : Dev := { d.set TBS_STATE_state new with time := d.entering new }
  gridLog 0x1001 d.timeState new (e.get TBS_CTRL_ptp_mode) 0 (raise 12 e)

theorem setTimeState_same {new : Nat} {d : Dev} (h : d.timeState = new) : setTimeState new d = updateTq d := if_pos h

theorem setTimeState_changes {new : Nat} {d : Dev} (h : d.timeState ≠ new) : setTimeState new d = updateRefPpb (updateTq
    (if new = 2 && (stateNoted new d).get TBS_CTRL_ptp_mode == 1 then setFreq (-(stateNoted new d).time.integ) (stateNoted new d)
      else stateNoted new d)) := if_neg h

theorem logOnly_stateNoted (new : Nat) (d : Dev) : LogOnly { d.set TBS_STATE_state new with time := d.entering new } (stateNoted new d) :=
  (logOnly_raise _ (by decide)).trans (logOnly_gridLog ..)

theorem time_stateNoted (new : Nat) (d : Dev) : (stateNoted new d).time = d.entering new := (logOnly_stateNoted new d).time

theorem cfgKept_stateNoted (new : Nat) (d : Dev) : CfgKept d (stateNoted new d) :=
  ((CfgKept.refl d).set TBS_STATE_state new rfl).trans (logOnly_stateNoted new d).cfgKept

/-- What a change of the time state does to the time base: nothing where the state stays, its marks, and in ENGINE mode the correction
of HOLDOVER (R63). -/
theorem time_setTimeState (new : Nat) (d : Dev) : (setTimeState new d).time =
    if d.timeState = new then d.time
    else if new = 2 ∧ d.get TBS_CTRL_ptp_mode = 1 then
      { d.entering new with freq := -d.time.integ, incr := incrOf (stateNoted new d).incrNom (-d.time.integ) % 2 ^ 40 }
    else d.entering new := by
  by_cases h : d.timeState = new
  · rw [setTimeState_same h, if_pos h, time_updateTq]
  · have mode : (stateNoted new d).get TBS_CTRL_ptp_mode = d.get TBS_CTRL_ptp_mode := (cfgKept_stateNoted new d).get _ rfl
    rw [setTimeState_changes h, if_neg h, time_updateRefPpb, time_updateTq, mode]
    by_cases hf : new = 2 ∧ d.get TBS_CTRL_ptp_mode = 1
    · rw [if_pos (by simp [hf]), if_pos hf, time_setFreq, time_stateNoted]
      rfl
    · rw [if_neg (by simpa using hf), if_neg hf, time_stateNoted]

theorem timeState_setTimeState {new : Nat} (hn : new < 4) (d : Dev) : (setTimeState new d).timeState = new := by
  by_cases h : d.timeState = new
  · rw [setTimeState_same h, timeState_updateTq, h]
  · have noted : (stateNoted new d).timeState = new :=
      ((logOnly_stateNoted new d).get TBS_STATE_state (by decide) (by decide) (by decide)).trans (Dev.get_set_fits d TBS_STATE_state rfl hn)
    rw [setTimeState_changes h, timeState_updateRefPpb, timeState_updateTq]
    split
    · rw [timeState_setFreq, noted]
    · exact noted

theorem cfgKept_setTimeState (new : Nat) (d : Dev) : CfgKept d (setTimeState new d) := by
  by_cases h : d.timeState = new
  · rw [setTimeState_same h]
    exact cfgKept_updateTq d
  · have noted := cfgKept_stateNoted new d
    rw [setTimeState_changes h]
    exact (CfgKept.ite (noted.trans (cfgKept_setFreq _ _)) noted).trans ((cfgKept_updateTq _).trans (cfgKept_updateRefPpb _))

/-- The state of the time base without the marks of the time states. -/
def TimeSt.unmarked (t : TimeSt) : TimeSt :=
  { t with goodRun := 0, badRun := 0, newMaster := false, lockedLeft := none, holdFrom := 0, firstUpdate := false, stepped := false }

/-- A change of the time state that applies no correction leaves all but the marks. -/
theorem unmarked_setTimeState {new : Nat} {d : Dev} (h : ¬(new = 2 ∧ d.get TBS_CTRL_ptp_mode = 1)) :
    (setTimeState new d).time.unmarked = d.time.unmarked := by
  rw [time_setTimeState, if_neg h]
  split <;> rfl

/-- No state but INVALID awaits a first update again. -/
theorem firstUpdate_setTimeState {new : Nat} {d : Dev} (h : ¬(new = 2 ∧ d.get TBS_CTRL_ptp_mode = 1)) (h0 : new ≠ 0) :
    (setTimeState new d).time.firstUpdate = d.time.firstUpdate := by
  rw [time_setTimeState, if_neg h]
  split
  · rfl
  · simp [Dev.entering, h0]

/-- The masters that are known, and the one that is selected. -/
def TimeSt.masters (t : TimeSt) : List Foreign × Option MasterSel := (t.foreign, t.selected)

theorem TimeSt.foreign_of_masters {s t : TimeSt} (h : s.masters = t.masters) : s.foreign = t.foreign := congrArg Prod.fst h
theorem TimeSt.selected_of_masters {s t : TimeSt} (h : s.masters = t.masters) : s.selected = t.selected := congrArg Prod.snd h

theorem masters_setTimeState (new : Nat) (d : Dev) : (setTimeState new d).time.masters = d.time.masters := by
  rw [time_setTimeState]
  split
  · rfl
  · split <;> rfl

end Sys2Proof.Machine
end

section
/-! PROOF. The selection of the PTP master, and what it leaves of the time base (R58, R59). -/
namespace Sys2Proof.Machine

/-! ## The best of the known masters (R59) -/

/-- The identity by which a master is selected. -/
def Foreign.sel (f : Foreign) : MasterSel := { port := f.port, clockId := f.clockId, portNumber := f.portNumber }

/-- A master without the time of its last Sync, which the comparison of masters does not look at. -/
def Foreign.timeless (f : Foreign) : Foreign := { f with lastSync := 0 }

/-- The better of two masters. -/
def pickBetter (best : Option Foreign) (f : Foreign) : Option Foreign :=
  match best with
  | none => some f
  | some g => if betterMaster f g then some f else some g

theorem Dev.bestMaster_eq (d : Dev) : d.bestMaster = (d.time.foreign.filter (fun f => f.qualified && d.ptpRuns f.port)).foldl pickBetter none := rfl

theorem pickBetter_timeless (b : Option Foreign) (f : Foreign) :
    (pickBetter b f).map Foreign.timeless = pickBetter (b.map Foreign.timeless) f.timeless := by
  cases b with
  | none => rfl
  | some g =>
    have same : betterMaster f.timeless g.timeless = betterMaster f g := rfl
    simp only [pickBetter, Option.map_some, same]
    split <;> rfl

theorem foldl_pickBetter_timeless (xs : List Foreign) (b : Option Foreign) :
    (xs.foldl pickBetter b).map Foreign.timeless = (xs.map Foreign.timeless).foldl pickBetter (b.map Foreign.timeless) := by
  induction xs generalizing b with
  | nil => rfl
  | cons f fs ih => rw [List.foldl_cons, ih, List.map_cons, List.foldl_cons, pickBetter_timeless]

/-- Whom a device would select depends on the masters but for their last Sync, and on the ports where the engine runs. -/
theorem bestMaster_sel_congr {d e : Dev} (hp : ∀ p, e.ptpRuns p = d.ptpRuns p)
    (hf : e.time.foreign.map Foreign.timeless = d.time.foreign.map Foreign.timeless) :
    e.bestMaster.map Foreign.sel = d.bestMaster.map Foreign.sel := by
  have timeless (x : Dev) (hx : ∀ p, x.ptpRuns p = d.ptpRuns p) : x.bestMaster.map Foreign.timeless =
      ((x.time.foreign.map Foreign.timeless).filter (fun f => f.qualified && d.ptpRuns f.port)).foldl pickBetter none := by
    rw [Dev.bestMaster_eq, foldl_pickBetter_timeless, List.filter_map]
    simp only [hx]
    rfl
  have sel (o : Option Foreign) : o.map Foreign.sel = (o.map Foreign.timeless).map Foreign.sel := by cases o <;> rfl
  rw [sel, timeless e hp, hf, ← timeless d (fun _ => rfl), ← sel]

theorem CfgKept.ptpRuns {d e : Dev} (h : CfgKept d e) (p : Nat) : e.ptpRuns p = d.ptpRuns p := by
  unfold Dev.ptpRuns
  rw [h.get _ rfl, h.get _ rfl]

/-! ## Selecting it -/

theorem sameBut_showMaster (d : Dev) : d.SameBut (fun k => k = TBS_PTP_MASTER.key ∨ k = TBS_PTP_MID_LO.key ∨ k = TBS_PTP_MID_HI.key) (showMaster d) := by
  unfold showMaster
  split
  · exact (Dev.SameBut.refl _ d).set TBS_PTP_MASTER_valid (.inl rfl) _
  · exact ((((((Dev.SameBut.refl _ d).set TBS_PTP_MASTER_port (.inl rfl) _).set TBS_PTP_MASTER_valid (.inl rfl) _).set
      TBS_PTP_MASTER_steps_removed (.inl rfl) _).set TBS_PTP_MASTER_port_number (.inl rfl) _).set TBS_PTP_MID_LO (.inr (.inl rfl)) _).set
      TBS_PTP_MID_HI (.inr (.inr rfl)) _

theorem time_showMaster (d : Dev) : (showMaster d).time = d.time := by rw [(sameBut_showMaster d).2]

theorem cfgKept_showMaster (d : Dev) : CfgKept d (showMaster d) := fun k hk =>
  (sameBut_showMaster d).1 k (fun h => by rcases h with rfl | rfl | rfl <;> cases hk)

theorem timeState_showMaster (d : Dev) : (showMaster d).timeState = d.timeState := (sameBut_showMaster d).get (by decide)

/-- Another master is the selected one, and its Sync is awaited from now on. -/
def masterNamed (sel : Option MasterSel) (d : Dev) : Dev :=
  let e := awaitSync sel d
  { e with time := { e.time with
    selected := sel, waitSync := none, newMaster := sel.isSome && d.timeState == 2, goodRun := if d.timeState = 2 then 0 else d.time.goodRun } }

/-- A change of the selected master, with source 15. -/
def masterChanged (sel : Option MasterSel) (d : Dev) : Dev := showMaster (raise 15 (masterNamed sel d))

theorem selectMaster_stays {d : Dev} (h : d.bestMaster.map Foreign.sel = d.time.selected) : selectMaster d = showMaster d := if_pos h

theorem selectMaster_changes {d : Dev} (h : d.bestMaster.map Foreign.sel ≠ d.time.selected) :
    let x := masterChanged (d.bestMaster.map Foreign.sel) d
    selectMaster d = if (d.bestMaster.map Foreign.sel).isNone && x.timeState = 3 && x.get TBS_CTRL_ptp_mode = 1 then setTimeState 2 x
      else updateTq x := if_neg h

theorem time_masterChanged (sel : Option MasterSel) (d : Dev) : (masterChanged sel d).time = (masterNamed sel d).time :=
  (time_showMaster _).trans (eventOnly_raise _ (by decide)).time

theorem cfgKept_masterChanged (sel : Option MasterSel) (d : Dev) : CfgKept d (masterChanged sel d) := by
  have named : CfgKept d (masterNamed sel d) := fun _ _ => rfl
  exact (named.trans (logOnly_raise _ (by decide)).cfgKept).trans (cfgKept_showMaster _)

theorem timeState_masterChanged (sel : Option MasterSel) (d : Dev) : (masterChanged sel d).timeState = d.timeState :=
  (timeState_showMaster _).trans (get_raise _ _ (by decide) (by decide) (by decide))

theorem cfgKept_selectMaster (d : Dev) : CfgKept d (selectMaster d) := by
  by_cases h : d.bestMaster.map Foreign.sel = d.time.selected
  · rw [selectMaster_stays h]
    exact cfgKept_showMaster d
  · rw [selectMaster_changes h]
    exact (cfgKept_masterChanged _ d).trans (CfgKept.ite (cfgKept_setTimeState _ _) (cfgKept_updateTq _))

theorem masters_selectMaster (d : Dev) : (selectMaster d).time.masters =
    if d.bestMaster.map Foreign.sel = d.time.selected then d.time.masters
    else ((awaitSync (d.bestMaster.map Foreign.sel) d).time.foreign, d.bestMaster.map Foreign.sel) := by
  by_cases h : d.bestMaster.map Foreign.sel = d.time.selected
  · rw [selectMaster_stays h, if_pos h, time_showMaster]
  · rw [selectMaster_changes h, if_neg h]
    have changed := congrArg TimeSt.masters (time_masterChanged (d.bestMaster.map Foreign.sel) d)
    split
    · exact (masters_setTimeState ..).trans changed
    · exact changed

/-- The best one is selected. -/
theorem selected_selectMaster (d : Dev) : (selectMaster d).time.selected = d.bestMaster.map Foreign.sel := by
  refine (congrArg Prod.snd (masters_selectMaster d)).trans ?_
  split
  next h => exact h.symm
  · rfl

/-- Of a known master at most the time from which its Sync is awaited changes. -/
theorem foreign_selectMaster (d : Dev) : ∃ w : Foreign → Foreign, (∀ f, w f = f ∨ w f = { f with lastSync := d.now }) ∧
    (selectMaster d).time.foreign = d.time.foreign.map w := by
  by_cases h : d.bestMaster.map Foreign.sel = d.time.selected
  · exact ⟨id, fun _ => .inl rfl, (congrArg Prod.fst ((masters_selectMaster d).trans (if_pos h))).trans (List.map_id _).symm⟩
  · refine ⟨_, fun f => ?_, congrArg Prod.fst ((masters_selectMaster d).trans (if_neg h))⟩
    split
    · exact .inr rfl
    · exact .inl rfl

/-- After a selection the best master is the selected one. -/
theorem bestMaster_selectMaster (d : Dev) : (selectMaster d).bestMaster.map Foreign.sel = d.bestMaster.map Foreign.sel := by
  obtain ⟨w, hw, hf⟩ := foreign_selectMaster d
  refine bestMaster_sel_congr (cfgKept_selectMaster d).ptpRuns ?_
  rw [hf, List.map_map]
  refine List.map_congr_left fun f _ => ?_
  rcases hw f with h | h
  · exact congrArg Foreign.timeless h
  · exact (congrArg Foreign.timeless h).trans rfl

/-- Where the engine does not steer, a selection leaves the time state and the integral alone. -/
theorem selectMaster_unsteered {d : Dev} (h : d.get TBS_CTRL_ptp_mode ≠ 1) :
    (selectMaster d).timeState = d.timeState ∧ (selectMaster d).time.integ = d.time.integ := by
  by_cases hs : d.bestMaster.map Foreign.sel = d.time.selected
  · rw [selectMaster_stays hs, timeState_showMaster, time_showMaster]
    exact ⟨rfl, rfl⟩
  · have mode := (cfgKept_masterChanged (d.bestMaster.map Foreign.sel) d).get TBS_CTRL_ptp_mode rfl
    rw [selectMaster_changes hs, if_neg (by simp [mode, h]), timeState_updateTq, timeState_masterChanged, time_updateTq, time_masterChanged]
    exact ⟨rfl, rfl⟩

end Sys2Proof.Machine
end

section
/-! PROOF. The commands of the time counter, and the step that they set up (O31). -/
namespace Sys2Proof.Machine

/-! ## Reads and writes of the block (R54, R55, R62, R63) -/

/-- A read of TBS_NOW_LO, or of TBS_TIME_FRAC. -/
theorem busRead_capture {d : Dev} {m off : Nat} (ho : off = 0x40018 ∨ off = 0x40008) (h : d.readVerdict m off = .pass) :
    busRead m .bar0 off false d =
      ({ d with time := { d.time with shadows := insertKey m d.time.clock d.time.shadows } } : Dev).answer m { data := captureValue d.time.clock off } := by
  rw [busRead_of_pass false h (by omega) (by omega)]
  rcases ho with rfl | rfl <;> rfl

/-- The row of TBS_CTRL. -/
def row_timeCtrl : RegRow := ⟨0x40000, [], false, .none, [⟨0, 2, .wo, 0, []⟩, ⟨2, 2, .wo, 0, []⟩, ⟨8, 2, .rw, 0, [(0, 2)]⟩]⟩

theorem findRow_timeCtrl : findRow 0x40000 = some (row_timeCtrl, []) := by decide

/-- A write of one field of TBS_CTRL is a command with that field alone. -/
theorem regKeep_timeCtrl {d : Dev} {m lo w x : Nat} (h : d.WritesField m 0x40000 lo w x) :
    regKeep m 0x40000 lo w x d = timeCommand (putBits (d.rwHeld 0x40000) lo w x) d := regKeep_of_writes h (by decide) (by decide) (by decide)

theorem rwHeld_timeCtrl (d : Dev) : bits (d.rwHeld 0x40000) 0 2 = 0 ∧ bits (d.rwHeld 0x40000) 2 2 = 0 ∧
    bits (d.rwHeld 0x40000) 8 2 = d.get TBS_CTRL_ptp_mode :=
  ⟨bits_rwHeld findRow_timeCtrl d (f := ⟨0, 2, .wo, 0, []⟩) (by decide), bits_rwHeld findRow_timeCtrl d (f := ⟨2, 2, .wo, 0, []⟩) (by decide),
    bits_rwHeld findRow_timeCtrl d (f := ⟨8, 2, .rw, 0, [(0, 2)]⟩) (by decide)⟩

theorem ptpModeChange_same {v : Nat} {d : Dev} (h : v = d.get TBS_CTRL_ptp_mode) : ptpModeChange v d = d := if_pos (by simp [h])

theorem timeSetState_zero (d : Dev) : timeSetState 0 d = d := if_pos (by simp)

/-- A command that keeps the mode loses no master. -/
theorem timeCommand_of_mode {v : Nat} {d e : Dev} (he : timeCtrlWrite v d = e) (h : e.get TBS_CTRL_ptp_mode = d.get TBS_CTRL_ptp_mode) :
    timeCommand v d = e := by
  unfold timeCommand
  rw [he]
  exact if_neg (by simp [h])

/-- A command word without a set_state that keeps the mode. -/
theorem timeCtrlWrite_cmd {v : Nat} {d : Dev} (hm : bits v 8 2 = d.get TBS_CTRL_ptp_mode) (hs : bits v 2 2 = 0) :
    timeCtrlWrite v d = if bits v 0 2 = 1 then timeSetCmd d else if bits v 0 2 = 2 then timeAdjCmd d else d := by
  unfold timeCtrlWrite
  rw [ptpModeChange_same hm, hs]
  exact timeSetState_zero _

theorem timeCtrlWrite_state {v : Nat} {d : Dev} (hm : bits v 8 2 = d.get TBS_CTRL_ptp_mode) (hc : bits v 0 2 = 0) :
    timeCtrlWrite v d = timeSetState (bits v 2 2) d := by
  unfold timeCtrlWrite
  rw [ptpModeChange_same hm, hc]
  rfl

theorem timeCtrlWrite_mode {v : Nat} {d : Dev} (hc : bits v 0 2 = 0) (hs : bits v 2 2 = 0) : timeCtrlWrite v d = ptpModeChange (bits v 8 2) d := by
  unfold timeCtrlWrite
  rw [hc, hs]
  exact timeSetState_zero _

/-- A write of `cmd` alone. -/
theorem timeCtrlWrite_keepCmd {x : Nat} (hx : x < 4) (d : Dev) : timeCtrlWrite (putBits (d.rwHeld 0x40000) 0 2 x) d =
    if x = 1 then timeSetCmd d else if x = 2 then timeAdjCmd d else d := by
  obtain ⟨-, hst, hmode⟩ := rwHeld_timeCtrl d
  rw [timeCtrlWrite_cmd ((bits_putBits_above _ 0 2 x 8 2 (by decide)).trans hmode) ((bits_putBits_above _ 0 2 x 2 2 (by decide)).trans hst),
    bits_putBits_same, Nat.mod_eq_of_lt (show x < 2 ^ 2 from hx)]

/-- A write of `set_state` alone. -/
theorem timeCtrlWrite_keepState {x : Nat} (hx : x < 4) (d : Dev) :
    timeCtrlWrite (putBits (d.rwHeld 0x40000) 2 2 x) d = timeSetState x d := by
  obtain ⟨hcmd, -, hmode⟩ := rwHeld_timeCtrl d
  rw [timeCtrlWrite_state ((bits_putBits_above _ 2 2 x 8 2 (by decide)).trans hmode) ((bits_putBits_below _ 2 2 x 0 2 (by decide)).trans hcmd),
    bits_putBits_same, Nat.mod_eq_of_lt (show x < 2 ^ 2 from hx)]

/-- A write of `ptp_mode` alone. -/
theorem timeCtrlWrite_keepMode {x : Nat} (hx : x < 4) (d : Dev) :
    timeCtrlWrite (putBits (d.rwHeld 0x40000) 8 2 x) d = ptpModeChange x d := by
  obtain ⟨hcmd, hst, -⟩ := rwHeld_timeCtrl d
  rw [timeCtrlWrite_mode ((bits_putBits_below _ 8 2 x 0 2 (by decide)).trans hcmd) ((bits_putBits_below _ 8 2 x 2 2 (by decide)).trans hst),
    bits_putBits_same, Nat.mod_eq_of_lt (show x < 2 ^ 2 from hx)]

theorem cfgKept_timeSetCmd (d : Dev) : CfgKept d (timeSetCmd d) := by
  unfold timeSetCmd
  exact CfgKept.ite ((CfgKept.refl d).set TBS_STATE_cmd_refused _ rfl) (fun _ _ => rfl)

theorem cfgKept_timeAdjCmd (d : Dev) : CfgKept d (timeAdjCmd d) := by
  unfold timeAdjCmd
  exact CfgKept.ite ((CfgKept.refl d).set TBS_STATE_cmd_refused _ rfl) (fun _ _ => rfl)

theorem regKeep_timeSet {d : Dev} {m : Nat} (h : d.WritesField m 0x40000 0 2 1) : regKeep m 0x40000 0 2 1 d = timeSetCmd d :=
  (regKeep_timeCtrl h).trans (timeCommand_of_mode (timeCtrlWrite_keepCmd (by decide) d) ((cfgKept_timeSetCmd d).get _ rfl))

theorem regKeep_timeAdj {d : Dev} {m : Nat} (h : d.WritesField m 0x40000 0 2 2) : regKeep m 0x40000 0 2 2 d = timeAdjCmd d :=
  (regKeep_timeCtrl h).trans (timeCommand_of_mode (timeCtrlWrite_keepCmd (by decide) d) ((cfgKept_timeAdjCmd d).get _ rfl))

theorem cfgKept_timeSetState (v : Nat) (d : Dev) : CfgKept d (timeSetState v d) := by
  unfold timeSetState
  exact CfgKept.ite (CfgKept.refl d) (cfgKept_setTimeState v d)

theorem regKeep_timeSetState {d : Dev} {m x : Nat} (hx : x < 4) (h : d.WritesField m 0x40000 2 2 x) :
    regKeep m 0x40000 2 2 x d = timeSetState x d :=
  (regKeep_timeCtrl h).trans (timeCommand_of_mode (timeCtrlWrite_keepState hx d) ((cfgKept_timeSetState x d).get _ rfl))

theorem timeSetState_acts {v : Nat} {d : Dev} (h0 : v ≠ 0) (hm : d.get TBS_CTRL_ptp_mode ≠ 1) (hs : d.timeState ≠ 0) :
    timeSetState v d = setTimeState v d := if_neg (by simp [h0, hm, hs])

/-- Another mode of the engine, which loads the integral where it is ENGINE (R62). -/
theorem ptpModeChange_changes {v : Nat} {d : Dev} (h3 : v < 3) (hne : v ≠ d.get TBS_CTRL_ptp_mode) :
    (ptpModeChange v d).get TBS_CTRL_ptp_mode = v ∧ (ptpModeChange v d).timeState = d.timeState ∧
      (ptpModeChange v d).time.integ = if v = 1 then -d.currentFreq else d.time.integ := by
  have mode : (d.set TBS_CTRL_ptp_mode v).get TBS_CTRL_ptp_mode = v := Dev.get_set_fits d _ rfl (show v < 2 ^ 2 by omega)
  have state : (d.set TBS_CTRL_ptp_mode v).timeState = d.timeState := Dev.get_set_ne d _ _ _ (by decide)
  have freq : (d.set TBS_CTRL_ptp_mode v).currentFreq = d.currentFreq := by
    unfold Dev.currentFreq Dev.incrNom
    rw [Dev.get_set_ne _ _ _ _ (by decide), Dev.get_set_ne _ _ _ _ (by decide)]
    rfl
  unfold ptpModeChange
  rw [if_neg (by simp [hne]; omega), (cfgKept_updateRefPpb _).get _ rfl, timeState_updateRefPpb, time_updateRefPpb]
  split
  · exact ⟨mode, state, congrArg (-·) freq⟩
  · exact ⟨mode, state, rfl⟩

/-- A command that only changes the mode keeps the time state and the integral that the change has left. -/
theorem timeCommand_mode {v x : Nat} {d : Dev} (hv : timeCtrlWrite v d = ptpModeChange x d) (h3 : x < 3) (hne : x ≠ d.get TBS_CTRL_ptp_mode) :
    (timeCommand v d).get TBS_CTRL_ptp_mode = x ∧ (timeCommand v d).timeState = d.timeState ∧
      (timeCommand v d).time.integ = if x = 1 then -d.currentFreq else d.time.integ := by
  obtain ⟨mode, state, integ⟩ := ptpModeChange_changes h3 hne
  unfold timeCommand
  rw [hv]
  extract_lets e
  split
  next h =>
    rw [Bool.and_eq_true, decide_eq_true_eq] at h
    have engineOff : ({ ptpModeChange x d with time := { (ptpModeChange x d).time with foreign := [] } } : Dev).get TBS_CTRL_ptp_mode ≠ 1 := by
      intro h1
      exact absurd (h.1.symm.trans h1) (by decide)
    obtain ⟨hs, hi⟩ := selectMaster_unsteered engineOff
    unfold forgetMasters
    exact ⟨((cfgKept_selectMaster _).get _ rfl).trans mode, hs.trans state, hi.trans integ⟩
  · exact ⟨mode, state, integ⟩

theorem regCmd_incrHi {d : Dev} {m v : Nat} (h : d.Writes m 0x40034 v) : regCmd m 0x40034 v d = incrWrite true v d :=
  regCmd_of_writes h (by decide) (by decide) (by decide)

/-- A pair that is applied. -/
theorem incrWrite_applies (v : Nat) {d : Dev} (h : d.get TBS_CTRL_ptp_mode ≠ 1) :
    (incrWrite true v d).time.incr = d.get TBS_INCR_LO + 2 ^ 32 * (v % 256) ∧ (incrWrite true v d).get TBS_INCR_HI_value = v % 256 := by
  have hi : (d.set TBS_INCR_HI_value v).get TBS_INCR_HI_value = v % 256 := Dev.get_set_same d _ _ rfl
  have lo : (d.set TBS_INCR_HI_value v).get TBS_INCR_LO = d.get TBS_INCR_LO := Dev.get_set_ne d _ _ _ (by decide)
  unfold incrWrite
  rw [if_neg h, if_pos rfl]
  exact ⟨by rw [← hi, ← lo], hi⟩

theorem counterCommands : Rules.CounterCommands := by
  intro s m hr
  refine ⟨?_, fun h => settles_of rfl hr ((regKeep_timeSet h).trans ?_), fun h => settles_of rfl hr ((regKeep_timeAdj h).trans ?_),
    fun st h => ⟨fun hn => settles_of rfl hr ?_, fun h0 hm hs => ?_⟩, fun mode h => ⟨fun hn => settles_of rfl hr ?_, fun h3 hne => ?_⟩, fun v h => ?_⟩
  · intro b off h
    exact completes_of rfl hr (busRead_capture (by cases b <;> simp) h)
  · unfold timeSetCmd timeRefuse
    simp only [Bool.or_eq_true, decide_eq_true_eq, or_assoc]
  · unfold timeAdjCmd timeRefuse
    simp only [Bool.or_eq_true, decide_eq_true_eq]
    rfl
  · exact (regKeep_timeSetState st.isLt h).trans (if_pos (by simpa [or_assoc] using hn))
  · refine ⟨_, settles_of rfl hr ((regKeep_timeSetState st.isLt h).trans (timeSetState_acts h0 hm hs)), timeState_setTimeState st.isLt _, ?_⟩
    have time := unmarked_setTimeState (new := st.val) (d := s.dev) (fun hx => hm hx.2)
    exact ⟨(congrArg TimeSt.clock time :), (congrArg TimeSt.incr time :)⟩
  · have same : ptpModeChange mode.val s.dev = s.dev := if_pos (by simp; omega)
    exact (regKeep_timeCtrl h).trans (timeCommand_of_mode ((timeCtrlWrite_keepMode mode.isLt _).trans same) rfl)
  · exact ⟨_, settles_of rfl hr (regKeep_timeCtrl h), timeCommand_mode (timeCtrlWrite_keepMode mode.isLt _) h3 hne⟩
  · split
    next hm => exact settles_of rfl hr ((regCmd_incrHi h).trans (if_pos hm))
    next hm => exact ⟨_, settles_of rfl hr (regCmd_incrHi h), incrWrite_applies v.toNat hm⟩

/-! ## The step that waits (R55, R56) -/

/-- The counter, the elapsed time and the step that waits. -/
def TimeSt.counter (t : TimeSt) : Nat × Nat × Option TimeCmd := (t.clock, t.elapsed, t.pending)

theorem counter_ttoMiss (n k : Nat) (d : Dev) : (ttoMiss n k d).time.counter = d.time.counter := by
  unfold ttoMiss
  split
  · rfl
  · rw [(eventOnly_raise _ (by decide)).time]
    rfl

theorem counter_ttoAfterStep (before : Nat) (d : Dev) : (ttoAfterStep before d).time.counter = d.time.counter := by
  refine forN_keeps (P := fun e => e.time.counter = d.time.counter) (fun n _ e he => Eq.trans ?_ he) d rfl
  split
  · rfl
  · dsimp only
    split
    · split
      · split
        · exact counter_ttoMiss n 1 e
        · exact counter_ttoMiss ..
      · rfl
    · split <;> rfl

theorem counter_stepState (d : Dev) : (stepState d).time.counter = d.time.counter := by
  have freerun (e : Dev) : (setTimeState 1 e).time.counter = e.time.counter :=
    (congrArg TimeSt.counter (unmarked_setTimeState (new := 1) (d := e) (by simp)) :)
  unfold stepState
  dsimp only
  split
  · exact freerun _
  · split
    · exact freerun _
    · rfl

/-- A step is what its command does to the counter, and then the outputs, the masters and the state follow it. -/
theorem counter_counterStep {c : TimeCmd} {d : Dev} (hp : d.time.pending = some c) (ht : d.tbcRuns = true) :
    (counterStep d).time.counter = (applyStep c d).time.counter := by
  unfold counterStep
  rw [hp]
  dsimp only
  rw [if_neg (by simp [ht]), counter_stepState, counter_ttoAfterStep]
  have masters (e : Dev) : (mastersAfterStep d.now e).time.counter = e.time.counter := rfl
  rw [masters, (logOnly_gridLog ..).time, (eventOnly_raise _ (by decide)).time]
  rfl

theorem counter_applyStep {d : Dev} (ht : d.tbcRuns = true) (c : TimeCmd) : (applyStep c d).time.counter =
    (match c with
      | .set sec ns => (sec * 1000000000 + ns) * nsUnit % clockSpan
      | .adj δ => ((((d.time.clock + d.tickStep) % clockSpan : Nat) : Int) + δ * 65536).toNat % clockSpan,
      d.time.elapsed + d.tickElapsed, none) := by
  cases c with
  | set sec ns => rfl
  | adj δ =>
    unfold applyStep
    rw [tick_of_runs ht]
    rfl

/-- Nothing that has been received waits to be finished. -/
theorem finishEvery_idle {d : Dev} (h1 : d.eth.streamIn = []) (h2 : d.eth.svIn = []) (h3 : d.flt.queue = []) (h4 : d.col.inbox = []) :
    finishEvery d = d := by
  simp [finishEvery, placeUpTo, iterate, h1, h2, h3, h4]

theorem counterStepTakesEffect : Rules.CounterStepTakesEffect := by
  refine fun s hr => ⟨fun h => settles_of rfl hr ?_, fun hp ht => ⟨finishEvery_idle, fun c hc hw => ⟨counterStep (finishEvery s.dev), ?_⟩⟩⟩
  · refine if_pos ?_
    rcases h with h | h <;> simp [h]
  · have counter := (counter_counterStep hc hw).trans (counter_applyStep hw c)
    refine ⟨congrArg (·.2.2) counter, (congrArg Prod.fst counter).trans ?_, congrArg (·.2.1) counter, settles_of rfl hr ?_⟩
    · cases c <;> rfl
    · exact if_neg (by cases h : s.dev.time.pending <;> simp [h, ht] at hp ⊢)

/-- Settles O31: a command acts through the one field of its write, and a step that waits by what it does to the counter. -/
theorem theCounterIsCommanded : Obligations.TheCounterIsCommanded := ⟨counterCommands, counterStepTakesEffect⟩

end Sys2Proof.Machine
end

section
/-! PROOF. The peer delay, and the masters that are known and selected (O32). -/
namespace Sys2Proof.Machine

/-! ## Messages of the engine (R58) -/

section
variable {ty n : Nat} {f : RxFrame → Dev → Dev} {d x : Dev} {m : RxFrame}

theorem ptpHandle_none (h : ptpTake ty d = none) : ptpHandle ty n f d = d := by
  unfold ptpHandle
  rw [h]

/-- A message of a port where the engine does not run is discarded. -/
theorem ptpHandle_idle (h : ptpTake ty d = some (m, x)) (hr : x.ptpRuns m.port = false) : ptpHandle ty n f d = x := by
  unfold ptpHandle
  rw [h]
  exact if_pos (by simp [hr])

theorem ptpHandle_bad (h : ptpTake ty d = some (m, x)) (hr : x.ptpRuns m.port = true) (hg : x.ptpGood n m.payload = false) :
    ptpHandle ty n f d = ptpDrop x := by
  unfold ptpHandle
  rw [h]
  exact (if_neg (by simp [hr])).trans (if_neg (by simp [hg]))

theorem ptpHandle_good (h : ptpTake ty d = some (m, x)) (hr : x.ptpRuns m.port = true) (hg : x.ptpGood n m.payload = true) :
    ptpHandle ty n f d = f m x := by
  unfold ptpHandle
  rw [h]
  exact (if_neg (by simp [hr])).trans (if_pos hg)

end

/-- The five commands whose message may be dropped take it alike. -/
theorem exec_ptpHandle {c : Instr} {ty n : Nat} (h : (c, ty, n) ∈ [(Instr.pdelayReqRx, 2, 54), (Instr.pdelayRespRx, 3, 54),
    (Instr.pdelayRespFollowUpRx, 10, 54), (Instr.syncRx, 0, 44), (Instr.followUpRx, 8, 44)]) (s : State) :
    ∃ f, exec c s = s.acts (ptpHandle ty n f) := by
  simp only [List.mem_cons, Prod.mk.injEq, List.not_mem_nil, or_false] at h
  obtain ⟨rfl, rfl, rfl⟩ | ⟨rfl, rfl, rfl⟩ | ⟨rfl, rfl, rfl⟩ | ⟨rfl, rfl, rfl⟩ | ⟨rfl, rfl, rfl⟩ := h
  · exact ⟨_, rfl⟩
  · exact ⟨_, rfl⟩
  · exact ⟨_, rfl⟩
  · exact ⟨_, rfl⟩
  · exact ⟨_, rfl⟩

/-! ## The peer delay (R58, R60) -/

@[simp] theorem Dev.pdelay_putPdelay (p : Nat) (x : PdelaySt) (d : Dev) : (d.putPdelay p x).pdelay p = x := by
  unfold Dev.putPdelay Dev.pdelay
  rw [lookup_insertKey_same]
  rfl

theorem Dev.pdelay_passElapsed (e p : Nat) (d : Dev) : (passElapsed e d).pdelay p = d.pdelay p := by rw [passElapsed_rest]; rfl

theorem pdelayReqSend_idle {p : Nat} {d : Dev} (h : d.ptpRuns p = false) : pdelayReqSend p d = d := if_pos (by simp [h])

theorem pdelayReqSend_early {p : Nat} {d : Dev} (h : d.ptpRuns p = true) (he : (passElapsed (d.pdelayDue p) d).time.elapsed < d.pdelayDue p) :
    pdelayReqSend p d = passElapsed (d.pdelayDue p) d := (if_neg (by simp [h])).trans (if_pos he)

/-- The exchange of a port begins anew with the request that is sent. -/
def pdelayBegun (p : Nat) (d : Dev) : Dev := d.putPdelay p { seq := ((d.pdelay p).seq + 1) % 65536, last := some d.time.elapsed }

theorem pdelayReqSend_due {p : Nat} {d : Dev} (h : d.ptpRuns p = true) (he : d.pdelayDue p ≤ (passElapsed (d.pdelayDue p) d).time.elapsed) :
    let x := pdelayBegun p (passElapsed (d.pdelayDue p) d)
    pdelayReqSend p d = ptpSend p (x.ptpHeader p 2 54 0 0 (d.pdelay p).seq (x.logPdelay) ++ List.replicate 20 0) x := by
  rw [← Dev.pdelay_passElapsed (d.pdelayDue p) p d]
  exact (if_neg (by simp [h])).trans (if_neg (Nat.not_lt.mpr he))

/-- A sample moves the mean, or is dropped; the exchange stays as it is (R60). -/
theorem pdelay_delaySample (p q : Nat) (twice : Int) (d : Dev) : (delaySample p twice d).pdelay q = d.pdelay q := by
  unfold delaySample
  split <;> rfl

theorem delaySample_negative {p : Nat} {twice : Int} {d : Dev} (h : twice < 0) : delaySample p twice d = ptpDrop d := if_pos h

theorem meanDelay_delaySample {p : Nat} {twice : Int} {d : Dev} (h : 0 ≤ twice) : (delaySample p twice d).meanDelay p =
    if d.time.delayValid.contains p then
      d.meanDelay p + divHalfEven (divHalfEven twice 2 - d.meanDelay p) (2 ^ d.get TBS_PTP_CFG_delay_k)
    else divHalfEven twice 2 := by
  unfold delaySample
  rw [if_neg (by omega)]
  exact congrArg (·.getD 0) (lookup_insertKey_same p _ d.time.delays)

/-- A follow-up that completes the exchange gives its sample (R60). -/
theorem pdelayFollowUpRx_completes {d x : Dev} {m : RxFrame} {t1 t4 : Int} (ht : ptpTake 10 d = some (m, x)) (hx : x.ptpRuns m.port = true)
    (hg : x.ptpGood 54 m.payload = true) (h1 : (x.pdelay m.port).t1 = some t1) (h4 : (x.pdelay m.port).t4 = some t4)
    (hs : (ptpSeq m.payload + 1) % 65536 = (x.pdelay m.port).seq) : pdelayFollowUpRx d =
      delaySample m.port ((t4 - t1) - (ptpStamp m.payload 34 - (x.pdelay m.port).t2) - ((x.pdelay m.port).corr + ptpCorr m.payload))
        (x.putPdelay m.port { x.pdelay m.port with t1 := none, t4 := none }) := by
  refine (ptpHandle_good ht hx hg).trans ?_
  dsimp only
  rw [h1, h4]
  exact if_pos hs

theorem peerDelayExchange : Rules.PeerDelayExchange := by
  intro s hr
  refine ⟨fun p => ?_, fun c ty n hc => ?_, fun m x ht hx hg => settles_of rfl hr (ptpHandle_good ht hx hg), fun m x ht hx hg => ?_,
    fun m x t1 t4 ht hx hg h1 h4 hs => ?_⟩
  · refine ⟨fun h => settles_of rfl hr (pdelayReqSend_idle h), fun h he => settles_of rfl hr (pdelayReqSend_early h he), fun h he =>
      ⟨pdelayBegun p (passElapsed (s.dev.pdelayDue p) s.dev), ?_, ?_, ?_, rfl, settles_of rfl hr (pdelayReqSend_due h he)⟩⟩
    · unfold pdelayBegun
      rw [Dev.pdelay_putPdelay, Dev.pdelay_passElapsed]
    · unfold pdelayBegun
      rw [Dev.pdelay_putPdelay]
    · unfold pdelayBegun
      rw [Dev.pdelay_putPdelay]
  · obtain ⟨f, hf⟩ := exec_ptpHandle hc s
    exact ⟨fun h => settles_of hf hr (ptpHandle_none h), fun m x ht => ⟨fun hx => settles_of hf hr (ptpHandle_idle ht hx),
      fun hx hg => settles_of hf hr (ptpHandle_bad ht hx hg)⟩⟩
  · refine ⟨fun ⟨h1, h2, h3⟩ => ?_, fun h => settles_of rfl hr ((ptpHandle_good ht hx hg).trans (if_neg ?_))⟩
    · refine ⟨_, settles_of rfl hr ((ptpHandle_good ht hx hg).trans (if_pos (by simp [h1, h2, h3]))), ?_⟩
      simp only [Dev.pdelay_putPdelay, and_self]
    · simpa [and_assoc] using h
  · intro twice v
    refine ⟨_, settles_of rfl hr (pdelayFollowUpRx_completes ht hx hg h1 h4 hs), ?_, ?_, fun h => ?_, fun h hv => ?_, fun h hv => ?_⟩
    · rw [pdelay_delaySample, Dev.pdelay_putPdelay]
    · rw [pdelay_delaySample, Dev.pdelay_putPdelay]
    · rw [delaySample_negative h]
      exact ⟨rfl, rfl⟩
    · exact (meanDelay_delaySample h).trans (if_neg (Bool.eq_false_iff.mp hv))
    · exact (meanDelay_delaySample h).trans (if_pos hv)

/-! ## Announce messages (R59) -/

/-- A known master is the sender of a message. -/
def RxFrame.sentBy (m : RxFrame) (g : Foreign) : Bool :=
  g.port = m.port && g.clockId = beAt m.payload 20 8 && g.portNumber = beAt m.payload 28 2

theorem sentBy_iff {m : RxFrame} {g : Foreign} : m.sentBy g = true ↔
    g.port = m.port ∧ g.clockId = beAt m.payload 20 8 ∧ g.portNumber = beAt m.payload 28 2 := by
  simp [RxFrame.sentBy, and_assoc]

/-- A sender announced within four of its intervals before a message. -/
def RxFrame.recent (m : RxFrame) (g : Foreign) : Bool := g.seen.any (fun t => natOf (m.stamp / 65536) < t + 4 * ptpInterval m.payload)

/-- What is kept of an Announce message and of what its sender was known for. -/
def RxFrame.announces (m : RxFrame) (old : Option Foreign) : Foreign :=
  let b := m.payload
  { port := m.port, clockId := beAt b 20 8, portNumber := beAt b 28 2
    seen := natOf (m.stamp / 65536) :: (match old with | some g => g.seen.take 1 | none => [])
    qualified := (match old with | some g => m.recent g | none => false) || (match old with | some g => g.qualified | none => false)
    priority1 := byteAt b 47, clockClass := byteAt b 48, accuracy := byteAt b 49
    variance := beAt b 50 2, priority2 := byteAt b 52, grandmaster := beAt b 53 8, steps := beAt b 61 2
    utcOffset := beAt b 44 2, flags := byteAt b 7, interval := ptpInterval b
    lastSync := match old with | some g => g.lastSync | none => natOf (m.stamp / 65536) }

/-- The masters that are known after an Announce message. -/
def announced (m : RxFrame) (d : Dev) : Dev :=
  { d with time := { d.time with
    foreign := m.announces (d.time.foreign.find? m.sentBy) :: d.time.foreign.filter (fun g => !m.sentBy g) } }

/-- The UTC fields follow where the sender is the selected master (R66). -/
def announcedUtc (f : Foreign) (d : Dev) : Dev :=
  match d.time.selected with
  | some s => if s.port = f.port && s.clockId = f.clockId && s.portNumber = f.portNumber then announceUtc f d else d
  | none => d

theorem announceRx_good {d x : Dev} {m : RxFrame} (ht : ptpTake 11 d = some (m, x)) (hx : x.ptpRuns m.port = true)
    (hg : x.ptpGood 64 m.payload = true) :
    announceRx d = announcedUtc (m.announces (x.time.foreign.find? m.sentBy)) (selectMaster (announced m x)) := ptpHandle_good ht hx hg

theorem setLeap_masters (v : Nat) (d : Dev) : (setLeap v d).time.masters = d.time.masters ∧ CfgKept d (setLeap v d) := by
  unfold setLeap
  split
  · exact ⟨rfl, .refl d⟩
  · have kept : CfgKept d { d.set TBS_UTC_leap v with time := { d.time with leapSet := d.now } } := (CfgKept.refl d).set TBS_UTC_leap v rfl
    exact ⟨(congrArg TimeSt.masters (eventOnly_raise (s := 14) _ (by decide)).time :), kept.trans (logOnly_raise _ (by decide)).cfgKept⟩

theorem announcedUtc_masters (f : Foreign) (d : Dev) : (announcedUtc f d).time.masters = d.time.masters ∧ CfgKept d (announcedUtc f d) := by
  have utc (off leap : Nat) : (setUtc off leap d).time.masters = d.time.masters ∧ CfgKept d (setUtc off leap d) := by
    obtain ⟨hm, hk⟩ := setLeap_masters leap ((d.set TBS_UTC_utc_offset off).setFlag TBS_UTC_valid true)
    exact ⟨hm, CfgKept.trans (((CfgKept.refl d).set TBS_UTC_utc_offset off rfl).set TBS_UTC_valid _ rfl) hk⟩
  unfold announcedUtc announceUtc
  split
  · split
    · split
      · exact ⟨rfl, .refl d⟩
      · exact utc ..
    · exact ⟨rfl, .refl d⟩
  · exact ⟨rfl, .refl d⟩

/-- The best of the masters known after an Announce message is the selected one. -/
theorem selected_announced (f : Foreign) (d : Dev) : (announcedUtc f (selectMaster d)).time.selected =
    (announcedUtc f (selectMaster d)).bestMaster.map Foreign.sel := by
  obtain ⟨hm, hk⟩ := announcedUtc_masters f (selectMaster d)
  have best := bestMaster_sel_congr hk.ptpRuns (congrArg (List.map Foreign.timeless) (TimeSt.foreign_of_masters hm))
  exact (TimeSt.selected_of_masters hm).trans ((selected_selectMaster d).trans ((bestMaster_selectMaster d).symm.trans best.symm))

/-- A sender is qualified by an earlier Announce within four of its intervals (R59). -/
theorem qualified_announces (m : RxFrame) (l : List Foreign) : (m.announces (l.find? m.sentBy)).qualified = true ↔
    ∃ g ∈ l, l.find? m.sentBy = some g ∧ (g.qualified = true ∨ ∃ t ∈ g.seen, natOf (m.stamp / 65536) < t + 4 * ptpInterval m.payload) := by
  cases h : l.find? m.sentBy with
  | none => simp [RxFrame.announces]
  | some g =>
    have hg := List.mem_of_find?_eq_some h
    simp only [RxFrame.announces, RxFrame.recent, Bool.or_eq_true, List.any_eq_true, decide_eq_true_eq, Option.some.injEq]
    constructor
    · exact fun hq => ⟨g, hg, rfl, hq.symm⟩
    · rintro ⟨g', -, rfl, hq⟩
      exact hq.symm

/-! ## The selected master is lost (R59) -/

theorem atTime_early {t : Nat} {f : Dev → Dev} {d : Dev} (h : (passTo t d).now < t) : atTime t f d = passTo t d := if_pos h

/-- The masters that are there to be selected once `f` has been lost. -/
def withoutMaster (f : Foreign) (d : Dev) : Dev :=
  { d with time := { d.time with foreign := d.time.foreign.filter (fun g =>
    !(g.port = f.port && g.clockId = f.clockId && g.portNumber = f.portNumber)
      && d.now < g.seen.headD 0 + d.get TBS_PTP_CFG_announce_timeout * g.interval) } }

theorem masterLost_none {d : Dev} (h : d.selectedForeign = none) : masterLost d = d := by
  unfold masterLost
  rw [h]

/-- The device time at which master `f` is lost. -/
def Dev.lostAt (d : Dev) (f : Foreign) : Nat :=
  min (f.seen.headD 0 + d.get TBS_PTP_CFG_announce_timeout * f.interval) (f.lastSync + d.get TBS_PTP_CFG_announce_timeout * f.interval)

theorem masterLost_some {d : Dev} {f : Foreign} (h : d.selectedForeign = some f) :
    masterLost d = atTime (d.lostAt f) (fun d => selectMaster (withoutMaster f d)) d := by
  unfold masterLost
  rw [h]
  rfl

theorem mem_withoutMaster {f g : Foreign} {d : Dev} : g ∈ (withoutMaster f d).time.foreign ↔ g ∈ d.time.foreign ∧
    ¬(g.port = f.port ∧ g.clockId = f.clockId ∧ g.portNumber = f.portNumber) ∧
      d.now < g.seen.headD 0 + d.get TBS_PTP_CFG_announce_timeout * g.interval := by
  simp [withoutMaster]
  tauto

theorem settles_announce {s : State} {d : Dev} (hr : s.Running) (h : announceRx s.dev = d) :
    exec .announceRx s = .next (s.settling (enrEval false d)) :=
  settles_of (f := fun d => enrEval false (announceRx d)) rfl hr (congrArg (enrEval false) h)

/-- What the device knows of the masters once an Announce message has been taken. -/
theorem foreign_announceRx {d x : Dev} {m : RxFrame} (ht : ptpTake 11 d = some (m, x)) (hx : x.ptpRuns m.port = true)
    (hg : x.ptpGood 64 m.payload = true) : ∃ w : Foreign → Foreign, (∀ f, w f = f ∨ w f = { f with lastSync := x.now }) ∧
      (announceRx d).time.foreign = w (m.announces (x.time.foreign.find? m.sentBy)) :: (x.time.foreign.filter (fun g => !m.sentBy g)).map w := by
  obtain ⟨w, hw, hf⟩ := foreign_selectMaster (announced m x)
  refine ⟨w, hw, ?_⟩
  rw [announceRx_good ht hx hg, TimeSt.foreign_of_masters (announcedUtc_masters _ _).1, hf]
  rfl

/-- A master that differs at most in its last Sync keeps the rest. -/
theorem rest_of_moved {f g : Foreign} {t : Nat} (h : g = f ∨ g = { f with lastSync := t }) : g.port = f.port ∧ g.clockId = f.clockId ∧
    g.portNumber = f.portNumber ∧ g.seen = f.seen ∧ g.interval = f.interval ∧ g.qualified = f.qualified := by
  rcases h with rfl | rfl <;> exact ⟨rfl, rfl, rfl, rfl, rfl, rfl⟩

/-- The masters known before an Announce message are known after it, but for what its sender was known for. -/
theorem mem_foreign_announceRx {m : RxFrame} {x : Dev} {w : Foreign → Foreign} (hw : ∀ f, w f = f ∨ w f = { f with lastSync := x.now })
    {l : List Foreign} {f : Foreign} (hl : l = w f :: (x.time.foreign.filter (fun g => !m.sentBy g)).map w) {g : Foreign} (hg : g ∈ x.time.foreign)
    (hs : m.sentBy g = false) : g ∈ l ∨ { g with lastSync := x.now } ∈ l := by
  have hm : w g ∈ l := hl ▸ List.mem_cons_of_mem _ (List.mem_map_of_mem (List.mem_filter.mpr ⟨hg, by simp [hs]⟩))
  rcases hw g with h | h
  · exact .inl (h ▸ hm)
  · exact .inr (h ▸ hm)

/-- The masters left after one was lost (R59, log entry 163). -/
theorem foreign_masterLost (f : Foreign) (d : Dev) : ∃ w : Foreign → Foreign, (∀ g, w g = g ∨ w g = { g with lastSync := d.now }) ∧
    (selectMaster (withoutMaster f d)).time.foreign = (withoutMaster f d).time.foreign.map w := foreign_selectMaster (withoutMaster f d)

theorem masterLost_due {f : Foreign} {d : Dev} (h : d.selectedForeign = some f) (hd : d.lostAt f ≤ (passTo (d.lostAt f) d).now) :
    masterLost d = selectMaster (withoutMaster f (passTo (d.lostAt f) d)) := (masterLost_some h).trans (atTime_reached hd)

theorem foreign_passTo (t : Nat) (d : Dev) : (passTo t d).time.foreign = d.time.foreign := by rw [passTo_rest]

theorem mastersAreSelected : Rules.MastersAreSelected := by
  intro s hr
  refine ⟨fun h => ⟨_, settles_announce hr (ptpHandle_none h), rfl⟩, fun m x ht hx hg => ?_,
    fun h => settles_of rfl hr (masterLost_none h), fun f hf => ?_⟩
  · obtain ⟨w, hw, hl⟩ := foreign_announceRx ht hx hg
    generalize hold : x.time.foreign.find? m.sentBy = old at hl
    obtain ⟨port, clock, number, seen, -, qualified⟩ := rest_of_moved (hw (m.announces old))
    refine ⟨announceRx s.dev, _, settles_announce hr rfl, congrArg List.head? hl, port, clock, number, congrArg List.head? seen, fun g hg' => ?_, ?_, ?_⟩
    · rw [port, clock, number]
      cases hs : m.sentBy g with
      | true => exact .inl (sentBy_iff.mp hs)
      | false => exact .inr (mem_foreign_announceRx hw hl hg' hs)
    · rw [qualified, port, clock, number, ← hold]
      exact qualified_announces m x.time.foreign
    · rw [announceRx_good ht hx hg]
      exact selected_announced ..
  · intro n due y
    refine ⟨fun he => settles_of rfl hr ((masterLost_some hf).trans (atTime_early he)), fun hd => ?_⟩
    have timeout : y.get TBS_PTP_CFG_announce_timeout = s.dev.get TBS_PTP_CFG_announce_timeout := get_passTo ..
    obtain ⟨w, hw, hl⟩ := foreign_masterLost f y
    refine ⟨_, settles_of rfl hr (masterLost_due hf hd), fun g hg => ?_, fun g hg hne hlt => ?_, ?_⟩
    · obtain ⟨g', hg', rfl⟩ := List.mem_map.mp (hl ▸ hg)
      obtain ⟨-, hne, hlt⟩ := mem_withoutMaster.mp hg'
      obtain ⟨port, clock, number, seen, interval, -⟩ := rest_of_moved (hw g')
      rw [port, clock, number, seen, interval, ← timeout]
      exact ⟨hne, hlt⟩
    · have hm : w g ∈ (selectMaster (withoutMaster f y)).time.foreign :=
        hl ▸ List.mem_map_of_mem (mem_withoutMaster.mpr ⟨(foreign_passTo due s.dev).symm ▸ hg, hne, timeout.symm ▸ hlt⟩)
      rcases hw g with h | h
      · exact .inl (h ▸ hm)
      · exact .inr (h ▸ hm)
    · exact (selected_selectMaster _).trans (bestMaster_selectMaster _).symm

/-- Settles O32: the messages of the peer delay one by one, and the masters by what a selection leaves of them. -/
theorem ptpMastersAndDelays : Obligations.PtpMastersAndDelays := ⟨peerDelayExchange, mastersAreSelected⟩

end Sys2Proof.Machine
end

section
/-! PROOF. The servo: Sync and Follow_Up messages of the selected master, and what a run steers (O33). -/
namespace Sys2Proof.Machine

/-! ## A run of the servo (R61-R63) -/

/-- The Sync of the selected master is accepted at `now`, and the offset shown. -/
def syncMeasured (now : Nat) (o : Int) (d : Dev) : Dev :=
  showOffset o { d with time := { d.time with foreign := d.time.foreign.map (fun f =>
    match d.time.selected with
    | some s => if f.port = s.port && f.clockId = s.clockId && f.portNumber = s.portNumber then { f with lastSync := now } else f
    | none => f) } }

theorem get_syncMeasured (now : Nat) (o : Int) (d : Dev) {f : Fld} (h : f.key ≠ TBS_SERVO_OFS.key) : (syncMeasured now o d).get f = d.get f :=
  Dev.get_set_ne _ TBS_SERVO_OFS f _ h

/-- A run counted as good or bad for the time state (R63). -/
def runCounted (good : Prop) [Decidable good] (d : Dev) : Dev :=
  { d with time := { d.time with goodRun := if good then d.time.goodRun + 1 else 0, badRun := if good then 0 else d.time.badRun + 1 } }

theorem servoState_eq (o : Int) (d : Dev) : servoState o d =
    let e := runCounted (o.natAbs < 6553600) d
    if (e.timeState = 1 || (e.timeState = 2 && e.time.newMaster)) && e.get TBS_LOCK_CFG_lock_count ≤ e.time.goodRun then setTimeState 3 e
    else if e.timeState = 3 && e.get TBS_LOCK_CFG_unlock_count ≤ e.time.badRun then setTimeState 1 e
    else updateTq e := rfl

theorem unmarked_servoState (o : Int) (d : Dev) : (servoState o d).time.unmarked = d.time.unmarked := by
  have counted : (runCounted (o.natAbs < 6553600) d).time.unmarked = d.time.unmarked := rfl
  rw [servoState_eq, ← counted]
  generalize runCounted (o.natAbs < 6553600) d = e
  dsimp only
  split
  · exact unmarked_setTimeState (by simp)
  · split
    · exact unmarked_setTimeState (by simp)
    · rw [time_updateTq]

theorem firstUpdate_servoState (o : Int) (d : Dev) : (servoState o d).time.firstUpdate = d.time.firstUpdate := by
  have counted : (runCounted (o.natAbs < 6553600) d).time.firstUpdate = d.time.firstUpdate := rfl
  rw [servoState_eq, ← counted]
  generalize runCounted (o.natAbs < 6553600) d = e
  dsimp only
  split
  · exact firstUpdate_setTimeState (by simp) (by decide)
  · split
    · exact firstUpdate_setTimeState (by simp) (by decide)
    · rw [time_updateTq]

section
variable {p : Nat} {t1 t2 c : Int} {d : Dev}

/-- The offset of a Sync: receive time, origin time, correction and the mean link delay. -/
def Dev.syncOffset (d : Dev) (p : Nat) (t1 t2 c : Int) : Int := t2 - t1 - c - d.meanDelay p

/-- The device with the offset of a Sync measured. -/
def Dev.measured (d : Dev) (p : Nat) (t1 t2 c : Int) : Dev := syncMeasured (natOf (t2 / 65536)) (d.syncOffset p t1 t2 c) d

theorem servoRun_eq (p : Nat) (t1 t2 c : Int) (d : Dev) : servoRun p t1 t2 c d =
    if (d.measured p t1 t2 c).get TBS_CTRL_ptp_mode != 1 then updateTq (d.measured p t1 t2 c)
    else if (d.measured p t1 t2 c).coast then d.measured p t1 t2 c
    else if d.time.firstUpdate || (d.measured p t1 t2 c).get TBS_SERVO_LIM_step_ns * 65536 ≤ (d.syncOffset p t1 t2 c).natAbs then
      servoState (d.syncOffset p t1 t2 c) (servoStep (d.syncOffset p t1 t2 c) (d.measured p t1 t2 c))
    else servoState (d.syncOffset p t1 t2 c) (servoSteer (d.syncOffset p t1 t2 c) (d.measured p t1 t2 c)) := rfl

theorem Dev.get_measured {f : Fld} (h : f.key ≠ TBS_SERVO_OFS.key) : (d.measured p t1 t2 c).get f = d.get f := get_syncMeasured _ _ d h

theorem Dev.coast_measured : (d.measured p t1 t2 c).coast = d.coast := congrArg (· != 0) (Dev.get_measured (by decide))

/-- Outside ENGINE mode, and in COAST, the offset is measured and nothing is steered (R61, R62). -/
theorem time_servoRun_unsteered (h : d.get TBS_CTRL_ptp_mode ≠ 1 ∨ d.coast = true) :
    (servoRun p t1 t2 c d).time = (d.measured p t1 t2 c).time := by
  rw [servoRun_eq, Dev.get_measured (by decide)]
  by_cases hm : d.get TBS_CTRL_ptp_mode = 1
  · rw [if_neg (by simp [hm]), if_pos (Dev.coast_measured.trans (h.resolve_left (not_not_intro hm)))]
  · rw [if_pos (by simpa using hm), time_updateTq]

/-- The first update and a large offset step the counter (R61). -/
theorem servoRun_steps (hm : d.get TBS_CTRL_ptp_mode = 1) (hc : d.coast = false)
    (h : d.time.firstUpdate = true ∨ d.get TBS_SERVO_LIM_step_ns * 65536 ≤ (d.syncOffset p t1 t2 c).natAbs) :
    servoRun p t1 t2 c d = servoState (d.syncOffset p t1 t2 c) (servoStep (d.syncOffset p t1 t2 c) (d.measured p t1 t2 c)) := by
  rw [servoRun_eq, Dev.get_measured (by decide), Dev.get_measured (by decide), if_neg (by simp [hm]),
    if_neg (Bool.eq_false_iff.mp (Dev.coast_measured.trans hc)), if_pos (by simpa using h)]

/-- Any other offset moves the integral and the frequency (R61). -/
theorem servoRun_steers (hm : d.get TBS_CTRL_ptp_mode = 1) (hc : d.coast = false) (h1 : d.time.firstUpdate = false)
    (h : (d.syncOffset p t1 t2 c).natAbs < d.get TBS_SERVO_LIM_step_ns * 65536) :
    servoRun p t1 t2 c d = servoState (d.syncOffset p t1 t2 c) (servoSteer (d.syncOffset p t1 t2 c) (d.measured p t1 t2 c)) := by
  rw [servoRun_eq, Dev.get_measured (by decide), Dev.get_measured (by decide), if_neg (by simp [hm]),
    if_neg (Bool.eq_false_iff.mp (Dev.coast_measured.trans hc)), if_neg (by simpa [h1] using h)]

/-- The clamp of the corrections, in 2⁻⁴ ppb. -/
theorem Dev.clamp16_eq (d : Dev) : d.clamp16 = d.get TBS_SERVO_LIM_clamp_ppm * 16000 := by
  unfold Dev.clamp16
  omega

/-- The integral that a run of the servo leaves. -/
def Dev.steeredInteg (d : Dev) (o : Int) : Int :=
  clampI (-(d.get TBS_SERVO_LIM_clamp_ppm * 16000)) (d.get TBS_SERVO_LIM_clamp_ppm * 16000)
    (d.time.integ + divHalfEven ((d.get TBS_SERVO_CFG_ki : Int) * o) (2 ^ 24))

/-- The correction that a run of the servo puts in force. -/
def Dev.steeredFreq (d : Dev) (o : Int) : Int :=
  clampI (-(d.get TBS_SERVO_LIM_clamp_ppm * 16000)) (d.get TBS_SERVO_LIM_clamp_ppm * 16000)
    (-(divHalfEven ((d.get TBS_SERVO_CFG_kp : Int) * o) (2 ^ 20)) - d.steeredInteg o)

theorem time_servoSteer (o : Int) (d : Dev) : ∃ i, (servoSteer o d).time = { d.time with integ := d.steeredInteg o, freq := d.steeredFreq o, incr := i } := by
  unfold servoSteer Dev.steeredFreq Dev.steeredInteg
  rw [← Dev.clamp16_eq, time_setFreq]
  exact ⟨_, rfl⟩

theorem steered_measured (o : Int) : (d.measured p t1 t2 c).steeredInteg o = d.steeredInteg o ∧
    (d.measured p t1 t2 c).steeredFreq o = d.steeredFreq o := by
  have integ : (d.measured p t1 t2 c).time.integ = d.time.integ := rfl
  unfold Dev.steeredFreq Dev.steeredInteg
  rw [Dev.get_measured (by decide), Dev.get_measured (by decide), Dev.get_measured (by decide), integ]
  exact ⟨rfl, rfl⟩

/-- What a run leaves of the time base (R61). -/
theorem servoRun_spec (p : Nat) (t1 t2 c : Int) (d : Dev) :
    let o := d.syncOffset p t1 t2 c
    let e := servoRun p t1 t2 c d
    e.time.waitSync = d.time.waitSync ∧ e.time.offset = o ∧
      (d.get TBS_CTRL_ptp_mode ≠ 1 ∨ d.coast = true → e.time.pending = d.time.pending ∧ e.time.integ = d.time.integ ∧ e.time.incr = d.time.incr) ∧
      (d.get TBS_CTRL_ptp_mode = 1 → d.coast = false → d.time.firstUpdate = true ∨ d.get TBS_SERVO_LIM_step_ns * 65536 ≤ o.natAbs →
        e.time.pending = some (.adj (-o)) ∧ e.time.incr = d.time.incr ∧ e.time.firstUpdate = false) ∧
      (d.get TBS_CTRL_ptp_mode = 1 → d.coast = false → d.time.firstUpdate = false → o.natAbs < d.get TBS_SERVO_LIM_step_ns * 65536 →
        e.time.pending = d.time.pending ∧ e.time.integ = d.steeredInteg o ∧ e.time.freq = d.steeredFreq o) := by
  intro o e
  have unsteered (h : d.get TBS_CTRL_ptp_mode ≠ 1 ∨ d.coast = true) : e.time = (d.measured p t1 t2 c).time := time_servoRun_unsteered h
  have stepped (hm : d.get TBS_CTRL_ptp_mode = 1) (hc : d.coast = false)
      (h : d.time.firstUpdate = true ∨ d.get TBS_SERVO_LIM_step_ns * 65536 ≤ o.natAbs) :
      e.time.unmarked = (servoStep o (d.measured p t1 t2 c)).time.unmarked ∧ e.time.firstUpdate = false := by
    rw [show e = _ from servoRun_steps hm hc h]
    exact ⟨unmarked_servoState .., firstUpdate_servoState ..⟩
  have steered (hm : d.get TBS_CTRL_ptp_mode = 1) (hc : d.coast = false) (h1 : d.time.firstUpdate = false)
      (h : o.natAbs < d.get TBS_SERVO_LIM_step_ns * 65536) :
      ∃ i, e.time.unmarked = TimeSt.unmarked { (d.measured p t1 t2 c).time with integ := d.steeredInteg o, freq := d.steeredFreq o, incr := i } := by
    obtain ⟨i, hi⟩ := time_servoSteer o (d.measured p t1 t2 c)
    refine ⟨i, ?_⟩
    rw [show e = _ from servoRun_steers hm hc h1 h, unmarked_servoState, hi, (steered_measured o).1, (steered_measured o).2]
  by_cases hs : d.get TBS_CTRL_ptp_mode ≠ 1 ∨ d.coast = true
  · have he := unsteered hs
    have idle : ¬(d.get TBS_CTRL_ptp_mode = 1 ∧ d.coast = false) := by
      rintro ⟨hm, hc⟩
      simp [hm, hc] at hs
    exact ⟨(congrArg TimeSt.waitSync he :), (congrArg TimeSt.offset he :),
      fun _ => ⟨(congrArg TimeSt.pending he :), (congrArg TimeSt.integ he :), (congrArg TimeSt.incr he :)⟩,
      fun hm hc => absurd ⟨hm, hc⟩ idle, fun hm hc => absurd ⟨hm, hc⟩ idle⟩
  · obtain ⟨hm, hc⟩ : d.get TBS_CTRL_ptp_mode = 1 ∧ d.coast = false := by simpa using hs
    by_cases h : d.time.firstUpdate = true ∨ d.get TBS_SERVO_LIM_step_ns * 65536 ≤ o.natAbs
    · obtain ⟨he, h1⟩ := stepped hm hc h
      refine ⟨(congrArg TimeSt.waitSync he :), (congrArg TimeSt.offset he :), fun hs' => absurd hs' hs,
        fun _ _ _ => ⟨(congrArg TimeSt.pending he :), (congrArg TimeSt.incr he :), h1⟩, fun _ _ h1' h' => ?_⟩
      simp [h1', Nat.not_le.mpr h'] at h
    · obtain ⟨h1, h'⟩ : d.time.firstUpdate = false ∧ o.natAbs < d.get TBS_SERVO_LIM_step_ns * 65536 := by simpa using h
      obtain ⟨i, he⟩ := steered hm hc h1 h'
      exact ⟨(congrArg TimeSt.waitSync he :), (congrArg TimeSt.offset he :), fun hs' => absurd hs' hs, fun _ _ hd => absurd hd h,
        fun _ _ _ _ => ⟨(congrArg TimeSt.pending he :), (congrArg TimeSt.integ he :), (congrArg TimeSt.freq he :)⟩⟩
end

/-! ## Sync and Follow_Up (R61) -/

theorem servoRunsOnSync : Rules.ServoRunsOnSync := by
  intro s hr runs
  have ran (c : Instr) (p : Nat) (t1 t2 corr : Int) (x : Dev)
      (h : exec c s = .next (s.settling (servoRun p t1 t2 corr { x with time := { x.time with waitSync := none } }))) : runs c p t1 t2 corr x :=
    ⟨_, h, servoRun_spec p t1 t2 corr { x with time := { x.time with waitSync := none } }⟩
  refine ⟨fun m x hx hp hg => ?_, fun m x hx hp hg => ?_⟩
  · have rx {e : Dev} (h : _ = e) : exec .syncRx s = .next (s.settling e) := settles_of rfl hr ((ptpHandle_good hx hp hg).trans h)
    exact ⟨fun hs => rx (if_pos (by simp [hs])), fun hs h2 => rx ((if_neg (by simp [hs])).trans (if_pos h2)),
      fun hs h1 => ran _ _ _ _ _ x (rx ((if_neg (by simp [hs])).trans (if_neg (by simp [h1]))))⟩
  · have rx {e : Dev} (h : _ = e) : exec .followUpRx s = .next (s.settling e) := settles_of rfl hr ((ptpHandle_good hx hp hg).trans h)
    refine ⟨fun hs => rx ?_, fun hs hw => rx ?_, fun w hs hw => ⟨fun hd => rx ?_, fun h1 h2 => ran _ _ _ _ _ x (rx ?_)⟩⟩
    · split
      · exact if_neg (by simp [hs])
      · exact if_neg (by simp [hs])
    · simp only [hw]
      exact if_pos hs
    · simp only [hw]
      exact if_neg (by simpa [hs, Decidable.imp_iff_not_or] using hd)
    · simp only [hw]
      exact if_pos (by simp [hs, h1, h2])

end Sys2Proof.Machine
end

section
/-! PROOF. Register words that an operation leaves: the time base and the Ethernet ports, which the energy block does not write (R66, R361). -/
namespace Sys2Proof.Machine

/-! ## Words that are kept -/

/-- The register words that `S` names read the same. -/
structure Dev.Kept (S : Nat → Prop) (d e : Dev) : Prop where
  word : ∀ k, S k → e.word k = d.word k

/-- The words of the time base and of the Ethernet ports. -/
def timeAndPorts (k : Nat) : Prop := 0x40000 ≤ k ∧ k < 0x60000

section
variable {S : Nat → Prop}

theorem Dev.Kept.refl (d : Dev) : Dev.Kept S d d := ⟨fun _ _ => rfl⟩

theorem Dev.Kept.trans {a b c : Dev} (h : Dev.Kept S a b) (g : Dev.Kept S b c) : Dev.Kept S a c :=
  ⟨fun k hk => (g.word k hk).trans (h.word k hk)⟩

theorem Dev.Kept.ite {c : Prop} [Decidable c] {d x y : Dev} (hx : Dev.Kept S d x) (hy : Dev.Kept S d y) : Dev.Kept S d (if c then x else y) := by
  split
  · exact hx
  · exact hy

theorem Dev.Kept.get {d e : Dev} (h : Dev.Kept S d e) {f : Fld} (hf : S f.key) : e.get f = d.get f := by
  unfold Dev.get
  rw [h.word _ hf]

theorem Dev.Kept.set {d e : Dev} (h : Dev.Kept S d e) {f : Fld} (hf : ¬S f.key) (v : Nat) : Dev.Kept S d (e.set f v) :=
  h.trans ⟨fun _ hk => Dev.word_set_ne e f v (fun he => hf (he ▸ hk))⟩

/-- Words are kept by what changes no register. -/
theorem Dev.Kept.regs {d e x : Dev} (h : Dev.Kept S d e) (hr : x.regs = e.regs) : Dev.Kept S d x :=
  h.trans ⟨fun k _ => by unfold Dev.word; rw [hr]⟩

theorem Dev.Kept.forL {α : Type} {f : α → Dev → Dev} (h : ∀ a d, Dev.Kept S d (f a d)) (xs : List α) (d : Dev) : Dev.Kept S d (forL xs f d) :=
  forL_keeps (P := Dev.Kept S d) (fun a e he => he.trans (h a e)) xs d (.refl d)

theorem Dev.Kept.forN {f : Nat → Dev → Dev} (h : ∀ i d, Dev.Kept S d (f i d)) (n : Nat) (d : Dev) : Dev.Kept S d (forN n f d) :=
  forN_keeps (P := Dev.Kept S d) (fun i _ e he => he.trans (h i e)) d (.refl d)

end

theorem timeAndPorts_block {k : Nat} (h : timeAndPorts k) : keyBlock k = 4 ∨ keyBlock k = 5 := by
  obtain ⟨h1, h2⟩ := h
  simp only [keyBlock, masterSpan]
  omega

/-- Neither is the count of dropped crossings. -/
theorem timeAndPorts_ne_xdrop {k : Nat} (h : timeAndPorts k) : k ≠ GCTL_XDROP.key := by
  rintro rfl
  exact absurd h.1 (by decide)

theorem TrafficOnly.kept {d e : Dev} (h : TrafficOnly d e) : Dev.Kept timeAndPorts d e := by
  refine ⟨fun k hk => ?_⟩
  have hb := timeAndPorts_block hk
  exact h.word k (by omega) (by omega) (by omega) (timeAndPorts_ne_xdrop hk)

theorem LogOnly.kept {d e : Dev} (h : LogOnly d e) : Dev.Kept timeAndPorts d e := by
  refine ⟨fun k hk => ?_⟩
  have hb := timeAndPorts_block hk
  exact h.word k (by omega) (by omega) (timeAndPorts_ne_xdrop hk)

/-! ## The energy block writes its own words (R359-R365) -/

theorem not_timeAndPorts_of_le {k : Nat} (h : 0x60000 ≤ k) : ¬timeAndPorts k := fun hk => by
  have := hk.2
  omega

theorem kept_set2 {lo hi : Fld} (h1 : 0x60000 ≤ lo.key) (h2 : 0x60000 ≤ hi.key) (v : Nat) (d : Dev) : Dev.Kept timeAndPorts d (d.set2 lo hi v) :=
  ((Dev.Kept.refl d).set (not_timeAndPorts_of_le h1) _).set (not_timeAndPorts_of_le h2) _

theorem kept_putIvl (c q v : Nat) (d : Dev) : Dev.Kept timeAndPorts d (d.putIvl c q v) :=
  kept_set2 (by simp only [ENR_IVL_LO]; omega) (by simp only [ENR_IVL_HI]; omega) _ d

theorem kept_putAcc (c q v : Nat) (d : Dev) : Dev.Kept timeAndPorts d (d.putAcc c q v) :=
  kept_set2 (by simp only [ENR_ACC_LO]; omega) (by simp only [ENR_ACC_HI]; omega) _ d

theorem kept_showChannel (c : Nat) (d : Dev) : Dev.Kept timeAndPorts d (showChannel c d) :=
  (((Dev.Kept.refl d).set (f := ENR_CH_STAT_level_a c) (not_timeAndPorts_of_le (by simp only [ENR_CH_STAT_level_a]; omega)) _).set
    (f := ENR_CH_STAT_level_b c) (not_timeAndPorts_of_le (by simp only [ENR_CH_STAT_level_b]; omega)) _).set
    (f := ENR_CH_PULSES c) (not_timeAndPorts_of_le (by simp only [ENR_CH_PULSES]; omega)) _

theorem kept_ivRecord (code c flags len off start imp exp : Nat) (d : Dev) : Dev.Kept timeAndPorts d (ivRecord code c flags len off start imp exp d) :=
  .ite (trafficOnly_queueRecord (d.force_lt ENR_CFG_queue) _ d).kept (.refl d)

theorem kept_applyOffsets (c : Nat) (d : Dev) : Dev.Kept timeAndPorts d (applyOffsets c d) := by
  refine Dev.Kept.forL (fun q d => ?_) _ d
  have put (t a : Nat) : Dev.Kept timeAndPorts d ((d.putIvl c q t).putAcc c q a) := (kept_putIvl c q t d).trans (kept_putAcc c q a _)
  exact .ite ((put _ _).regs rfl) (put _ _)

theorem kept_ivCloseCh (start c : Nat) (d : Dev) : Dev.Kept timeAndPorts d (ivCloseCh start c d) :=
  .ite (.refl d) (Dev.Kept.trans (.ite (.refl d) (kept_applyOffsets c d)) (kept_ivRecord ..))

theorem kept_ivClose (start : Nat) (d : Dev) : Dev.Kept timeAndPorts d (ivClose start d) := by
  have cleared (d : Dev) : Dev.Kept timeAndPorts d (forN 16 (fun c d => forN 4 (fun q d => d.putIvl c q 0) d) d) :=
    .forN (fun c d => .forN (fun q d => kept_putIvl c q 0 d) 4 d) 16 d
  unfold ivClose
  extract_lets d1 d2 enr
  have h2 : Dev.Kept timeAndPorts d d2 := (Dev.Kept.forN (kept_ivCloseCh start) 16 d).trans (cleared d1)
  clear_value d2
  refine Dev.Kept.trans ?_ (logOnly_raise (s := 114) _ (by decide)).kept
  exact h2.regs rfl

theorem kept_ivApply (hour : Bool) (d : Dev) : Dev.Kept timeAndPorts d (ivApply hour d) := by
  unfold ivApply
  extract_lets cfg all chs enr e
  have he : Dev.Kept timeAndPorts d e := (Dev.Kept.refl d).regs rfl
  exact he.trans (.forN kept_showChannel 16 e)

theorem kept_ivJump (start : Nat) (step : Bool) (d : Dev) : Dev.Kept timeAndPorts d (ivJump start step d) := by
  unfold ivJump
  extract_lets e cal d1 d2 fwd old d3 len cur hour gap off d4
  have h1 (b : Bool) : Dev.Kept timeAndPorts d (if b then ivFlagAll 3 d1 else d1) := .ite ((Dev.Kept.refl d).regs rfl) ((Dev.Kept.refl d).regs rfl)
  have h3 : Dev.Kept timeAndPorts d2 d3 := .ite (kept_ivApply _ d2) (.refl _)
  have h4 : Dev.Kept timeAndPorts d3 d4 := .ite (.forN (fun c d => .ite (kept_ivRecord ..) (.refl d)) 16 d3) (.refl _)
  exact (((h1 step).trans (kept_ivClose start _)).trans (h3.trans h4)).regs rfl

/-- The evaluation of the open interval leaves the words of the time base. -/
theorem kept_enrEval (step : Bool) (d : Dev) : Dev.Kept timeAndPorts d (enrEval step d) := by
  have same {x : Dev} (h : x.regs = d.regs) : Dev.Kept timeAndPorts d x := (Dev.Kept.refl d).regs h
  unfold enrEval
  extract_lets step' enr d1 cur enr' d2 d3 d4 src
  split
  · exact same rfl
  · split
    · exact same rfl
    · have h2 : Dev.Kept timeAndPorts d d2 := .ite (same rfl) (same rfl)
      have h3 : Dev.Kept timeAndPorts d d3 := .ite (h2.regs rfl) h2
      have h4 : Dev.Kept timeAndPorts d d4 := .ite (h3.regs rfl) h3
      exact .ite (h4.regs rfl) (h2.trans (kept_ivJump ..))

end Sys2Proof.Machine
end

section
/-! PROOF. Holdover, UTC and leap seconds (O33). -/
namespace Sys2Proof.Machine

/-! ## Holdover (R63, R64) -/

theorem get_updateTq_sinceLocked (d : Dev) : (updateTq d).get TBS_TQ_since_locked = d.sinceLocked % 65536 :=
  (Dev.get_set_ne _ TBS_HOLD_EST TBS_TQ_since_locked _ (by decide)).trans (Dev.get_set_same _ TBS_TQ_since_locked _ rfl)

theorem get_updateTq_holdEst (d : Dev) : (updateTq d).get TBS_HOLD_EST = d.holdEst % 2 ^ 32 := Dev.get_set_same _ TBS_HOLD_EST _ rfl

theorem holdoverTimeout_idle {d : Dev} (h : d.timeState ≠ 2 ∨ d.get TBS_CTRL_ptp_mode ≠ 1) : holdoverTimeout d = d :=
  if_neg (by simpa [Decidable.imp_iff_not_or] using h)

section
variable {d : Dev} (hs : d.timeState = 2) (hm : d.get TBS_CTRL_ptp_mode = 1)
include hs hm

theorem holdoverTimeout_early
    (h : (passElapsed (d.time.holdFrom + d.get TBS_LOCK_CFG_holdover_s * 4000000000) d).time.elapsed < d.time.holdFrom + d.get TBS_LOCK_CFG_holdover_s * 4000000000) :
    holdoverTimeout d = passElapsed (d.time.holdFrom + d.get TBS_LOCK_CFG_holdover_s * 4000000000) d :=
  (if_pos (by simp [hs, hm])).trans (if_pos h)

theorem holdoverTimeout_due
    (h : d.time.holdFrom + d.get TBS_LOCK_CFG_holdover_s * 4000000000 ≤ (passElapsed (d.time.holdFrom + d.get TBS_LOCK_CFG_holdover_s * 4000000000) d).time.elapsed) :
    holdoverTimeout d = setTimeState 1 (updateTq (passElapsed (d.time.holdFrom + d.get TBS_LOCK_CFG_holdover_s * 4000000000) d)) :=
  (if_pos (by simp [hs, hm])).trans (if_neg (Nat.not_lt.mpr h))

end

/-- The mark whose next second `b` names: the entry into HOLDOVER, or the end of LOCKED. -/
def Dev.secondMark (d : Dev) (b : Bool) : Option Nat := if b then some d.time.holdFrom else d.time.lockedLeft

theorem holdoverSecond_eq (b : Bool) (d : Dev) : holdoverSecond b d = match d.secondMark b with
    | none => d
    | some m => if d.timeState = 3 || (b && d.timeState != 2) then d else updateTq (passElapsed (m + (d.elapsedSince m + 1) * 4000000000) d) := rfl

theorem holdoverSecond_idle {b : Bool} {d : Dev} (h : d.secondMark b = none ∨ d.timeState = 3 ∨ (b = true ∧ d.timeState ≠ 2)) :
    holdoverSecond b d = d := by
  rw [holdoverSecond_eq]
  split
  next => rfl
  next hm =>
    rw [hm] at h
    exact if_pos (by simpa using h)

theorem holdoverSecond_counts {b : Bool} {d : Dev} {t : Nat} (ht : d.secondMark b = some t) (h3 : d.timeState ≠ 3) (h2 : b = true → d.timeState = 2) :
    holdoverSecond b d = updateTq (passElapsed (t + (d.elapsedSince t + 1) * 4000000000) d) := by
  rw [holdoverSecond_eq, ht]
  exact if_neg (by simpa [h3] using h2)

/-! ## The source of UTC (R66) -/

theorem EventOnly.get_utc {d e : Dev} (h : EventOnly d e) {f : Fld} (hf : f.key = 0x40070) : e.get f = d.get f :=
  h.get f (by rw [hf]; decide) (by rw [hf]; decide)

/-- The leap field is set, and the rest of the word stands. -/
theorem get_setLeap (v : Nat) (hv : v < 4) (d : Dev) : (setLeap v d).get TBS_UTC_leap = v ∧ (setLeap v d).get TBS_UTC_utc_offset = d.get TBS_UTC_utc_offset ∧
    (setLeap v d).get TBS_UTC_valid = d.get TBS_UTC_valid ∧ (setLeap v d).get TBS_UTC_src = d.get TBS_UTC_src := by
  unfold setLeap
  split
  next h => exact ⟨h.symm, rfl, rfl, rfl⟩
  · extract_lets e
    have raised {f : Fld} (hf : f.key = 0x40070) : (raise 14 { e with time := { d.time with leapSet := d.now } }).get f = e.get f :=
      (eventOnly_raise (s := 14) _ (by decide)).get_utc hf
    refine ⟨(raised rfl).trans (Dev.get_set_fits d TBS_UTC_leap rfl hv), (raised rfl).trans ?_, (raised rfl).trans ?_, (raised rfl).trans ?_⟩
    · exact Dev.get_set_apart d TBS_UTC_leap _ v rfl rfl
    · exact Dev.get_set_apart d TBS_UTC_leap _ v rfl rfl
    · exact Dev.get_set_apart d TBS_UTC_leap _ v rfl rfl

theorem get_setUtc (off leap : Nat) (hl : leap < 4) (d : Dev) : (setUtc off leap d).get TBS_UTC_leap = leap ∧
    (setUtc off leap d).get TBS_UTC_utc_offset = off % 65536 ∧ (setUtc off leap d).flag TBS_UTC_valid = true ∧
    (setUtc off leap d).get TBS_UTC_src = d.get TBS_UTC_src := by
  obtain ⟨hleap, hoff, hvalid, hsrc⟩ := get_setLeap leap hl ((d.set TBS_UTC_utc_offset off).setFlag TBS_UTC_valid true)
  refine ⟨hleap, hoff.trans ?_, (congrArg (· != 0) hvalid).trans (Dev.flag_setFlag_same _ TBS_UTC_valid true rfl rfl), hsrc.trans ?_⟩
  · exact (Dev.get_set_apart _ TBS_UTC_valid TBS_UTC_utc_offset _ rfl rfl).trans (Dev.get_set_same d TBS_UTC_utc_offset off rfl)
  · exact (Dev.get_set_apart _ TBS_UTC_valid TBS_UTC_src _ rfl rfl).trans (Dev.get_set_apart d TBS_UTC_utc_offset TBS_UTC_src _ rfl rfl)

/-- A write with src = 0 sets src alone. -/
theorem utcWrite_host {v : Nat} (h : bitAt v 20 = false) (d : Dev) : utcWrite v d = d.set TBS_UTC_src (bits v 20 1) := if_neg (by simp [h])

theorem utcWrite_own {v : Nat} (h : bitAt v 20 = true) (d : Dev) : utcWrite v d =
    setUtc (bits v 0 16) (if bits v 16 2 = 3 then d.get TBS_UTC_leap else bits v 16 2) (d.set TBS_UTC_src (bits v 20 1)) := by
  have leap : (d.set TBS_UTC_src (bits v 20 1)).get TBS_UTC_leap = d.get TBS_UTC_leap := Dev.get_set_apart d TBS_UTC_src TBS_UTC_leap _ rfl rfl
  rw [← leap]
  exact if_pos h

theorem flag_set_src (v : Nat) (d : Dev) : (d.set TBS_UTC_src (bits v 20 1)).flag TBS_UTC_src = bitAt v 20 := by
  rw [Dev.flag_eq, Dev.get_set_fits d TBS_UTC_src rfl (bits_lt v 20 1), bitAt_eq]
  have h : bits v 20 1 < 2 := bits_lt v 20 1
  interval_cases bits v 20 1 <;> rfl

/-- What a write of TBS_UTC leaves in the register (R66). -/
theorem utcWrite_fields (v : Nat) (d : Dev) : (utcWrite v d).flag TBS_UTC_src = bitAt v 20 ∧
    (bitAt v 20 = false → (utcWrite v d).get TBS_UTC_utc_offset = d.get TBS_UTC_utc_offset ∧ (utcWrite v d).get TBS_UTC_leap = d.get TBS_UTC_leap) ∧
    (bitAt v 20 = true → (utcWrite v d).get TBS_UTC_utc_offset = v % 65536 ∧ (utcWrite v d).flag TBS_UTC_valid = true ∧
      (utcWrite v d).get TBS_UTC_leap = if v / 65536 % 4 = 3 then d.get TBS_UTC_leap else v / 65536 % 4) := by
  cases hb : bitAt v 20 with
  | false =>
    rw [utcWrite_host hb]
    refine ⟨(flag_set_src v d).trans hb, fun _ => ⟨?_, ?_⟩, nofun⟩
    · exact Dev.get_set_apart d TBS_UTC_src _ _ rfl rfl
    · exact Dev.get_set_apart d TBS_UTC_src _ _ rfl rfl
  | true =>
    have fits : (if bits v 16 2 = 3 then d.get TBS_UTC_leap else bits v 16 2) < 4 := by
      split
      · exact d.get_lt TBS_UTC_leap
      · exact bits_lt v 16 2
    obtain ⟨hleap, hoff, hvalid, hsrc⟩ := get_setUtc (bits v 0 16) _ fits (d.set TBS_UTC_src (bits v 20 1))
    have low : bits v 0 16 % 65536 = v % 65536 := by simp [bits]
    have two : bits v 16 2 = v / 65536 % 4 := rfl
    rw [utcWrite_own hb]
    exact ⟨(congrArg (· != 0) hsrc).trans ((flag_set_src v d).trans hb), nofun, fun _ => ⟨hoff.trans low, hvalid, two ▸ hleap⟩⟩

/-! ## Leap seconds (R67) -/

/-- The leap is shown: the offset moves, leap clears and leap_occurred stands. -/
def leapShown (k : Nat) (d : Dev) : Dev :=
  let e := d.setI TBS_UTC_utc_offset (d.getI TBS_UTC_utc_offset + (if k = 1 then 1 else -1))
  ((e.set TBS_UTC_leap 0).set TBS_UTC_leap_dir (if k = 1 then 0 else 1)).setFlag TBS_UTC_leap_occurred true

/-- The instant of a leap is kept. -/
def leapMarked (now : Nat) (d : Dev) : Dev := { d with time := { d.time with leapAt := some now } }

theorem get_leapMarked (now : Nat) (d : Dev) (f : Fld) : (leapMarked now d).get f = d.get f := rfl

/-- The leap is applied. -/
def leapTaken (k : Nat) (d : Dev) : Dev := raise 14 (leapMarked d.now (leapShown k d))

theorem leapApply_none {d : Dev} (h : d.get TBS_UTC_leap = 0) : leapApply d = d := if_pos h

theorem leapApply_pending {d : Dev} (h : d.get TBS_UTC_leap ≠ 0) : leapApply d = atTime d.leapDue (leapTaken (d.get TBS_UTC_leap)) d := if_neg h

theorem leapShown_fields (k : Nat) (d : Dev) : (leapShown k d).get TBS_UTC_leap = 0 ∧ (leapShown k d).flag TBS_UTC_leap_occurred = true ∧
    (leapShown k d).get TBS_UTC_utc_offset = ofInt 16 (toInt 16 (d.get TBS_UTC_utc_offset) + if k = 1 then 1 else -1) := by
  refine ⟨?_, Dev.flag_setFlag_same _ TBS_UTC_leap_occurred true rfl rfl, ?_⟩
  · exact (Dev.get_set_apart _ TBS_UTC_leap_occurred TBS_UTC_leap _ rfl rfl).trans ((Dev.get_set_apart _ TBS_UTC_leap_dir TBS_UTC_leap _ rfl rfl).trans
      (Dev.get_set_fits _ TBS_UTC_leap rfl (by decide)))
  · refine (Dev.get_set_apart _ TBS_UTC_leap_occurred TBS_UTC_utc_offset _ rfl rfl).trans ((Dev.get_set_apart _ TBS_UTC_leap_dir TBS_UTC_utc_offset _ rfl rfl).trans
      ((Dev.get_set_apart _ TBS_UTC_leap TBS_UTC_utc_offset _ rfl rfl).trans ?_))
    exact Dev.get_set_fits d TBS_UTC_utc_offset rfl (ofInt_lt _ _)

theorem eventOnly_leapTaken (k : Nat) (d : Dev) : EventOnly (leapMarked d.now (leapShown k d)) (leapTaken k d) := by
  unfold leapTaken
  exact eventOnly_raise _ (by decide)

theorem get_leapTaken (k : Nat) (d : Dev) {f : Fld} (hf : f.key = 0x40070) : (leapTaken k d).get f = (leapShown k d).get f :=
  ((eventOnly_leapTaken k d).get_utc hf).trans (get_leapMarked ..)

theorem leapAt_leapTaken (k : Nat) (d : Dev) : (leapTaken k d).time.leapAt = some d.now := by
  rw [(eventOnly_leapTaken k d).time]
  rfl

theorem exec_leapApply {s : State} (hr : s.Running) {e : Dev} (h : leapApply s.dev = e) :
    exec .leapApply s = .next (s.settling (enrEval false (ivCatchUp e))) :=
  settles_of (f := fun d => enrEval false (ivCatchUp (leapApply d))) rfl hr (congrArg (fun e => enrEval false (ivCatchUp e)) h)

theorem leapExpire_none {d : Dev} (h : d.time.leapAt = none) : leapExpire d = d := by
  unfold leapExpire
  rw [h]

/-- The mark of a leap is taken back. -/
def leapForgotten (d : Dev) : Dev := { d.setFlag TBS_UTC_leap_occurred false with time := { d.time with leapAt := none } }

theorem leapExpire_marked {d : Dev} {t : Nat} (h : d.time.leapAt = some t) : leapExpire d = atTime (t + 86400000000000) leapForgotten d := by
  unfold leapExpire
  rw [h]
  rfl

/-! ## The rule -/

theorem regCmd_utc {d : Dev} {m v : Nat} (h : d.Writes m 0x40070 v) : regCmd m 0x40070 v d = utcCommand v d :=
  regCmd_of_writes h (by decide) (by decide) (by decide)

theorem holdoverAndLeapSeconds : Rules.HoldoverAndLeapSeconds := by
  intro s hr
  refine ⟨?_, fun b => ?_, fun m v h => ?_, ?_, fun h => settles_of rfl hr (leapExpire_none h), fun t ht => ?_⟩
  · intro due x
    refine ⟨fun h => settles_of rfl hr (holdoverTimeout_idle h), fun hs hm h => settles_of rfl hr (holdoverTimeout_early hs hm h), fun hs hm h => ?_⟩
    exact ⟨_, settles_of rfl hr (holdoverTimeout_due hs hm h), timeState_setTimeState (by decide) _⟩
  · intro mark
    refine ⟨fun h => settles_of rfl hr (holdoverSecond_idle h), fun t ht h3 h2 => ?_⟩
    exact ⟨_, settles_of rfl hr (holdoverSecond_counts ht h3 h2), get_updateTq_sinceLocked _, get_updateTq_holdEst _, time_updateTq _⟩
  · obtain ⟨hsrc, hhost, hown⟩ := utcWrite_fields v.toNat s.dev
    have kept (f : Fld) (hf : f.key = 0x40070) : (utcCommand v.toNat s.dev).get f = (utcWrite v.toNat s.dev).get f :=
      (kept_enrEval false _).get (by rw [hf]; exact ⟨by decide, by decide⟩)
    refine ⟨_, settles_of rfl hr (regCmd_utc h), (congrArg (· != 0) (kept TBS_UTC_src rfl)).trans hsrc, fun hb => ?_, fun hb => ?_⟩
    · rw [kept TBS_UTC_utc_offset rfl, kept TBS_UTC_leap rfl]
      exact hhost hb
    · rw [kept TBS_UTC_utc_offset rfl, kept TBS_UTC_leap rfl, Dev.flag_eq, kept TBS_UTC_valid rfl]
      exact hown hb
  · intro x
    refine ⟨fun h => exec_leapApply hr (leapApply_none h), fun h he => exec_leapApply hr ((leapApply_pending h).trans (atTime_early he)), fun h he => ?_⟩
    obtain ⟨hleap, hocc, hoff⟩ := leapShown_fields (s.dev.get TBS_UTC_leap) x
    refine ⟨_, exec_leapApply hr ((leapApply_pending h).trans (atTime_reached he)), (get_leapTaken _ x rfl).trans hleap,
      (congrArg (· != 0) (get_leapTaken _ x rfl)).trans hocc, leapAt_leapTaken _ x, (get_leapTaken _ x rfl).trans ?_⟩
    rw [hoff, get_passTo]
  · intro x
    refine ⟨fun he => settles_of rfl hr ((leapExpire_marked ht).trans (atTime_early he)), fun he => ?_⟩
    exact ⟨_, settles_of rfl hr ((leapExpire_marked ht).trans (atTime_reached he)), Dev.flag_setFlag_same _ TBS_UTC_leap_occurred false rfl rfl, rfl⟩

/-- Settles O33: a run of the servo by its three branches, and the elapsed time, the source and the midnight that keep UTC. -/
theorem timeIsSteeredAndKept : Obligations.TimeIsSteeredAndKept := ⟨servoRunsOnSync, holdoverAndLeapSeconds⟩

end Sys2Proof.Machine
end

section
/-! PROOF. Transmit stamps, and the enables of the time-trigger outputs (O34). -/
namespace Sys2Proof.Machine

/-! ## Transmit stamps (R70) -/

theorem txq_set (d : Dev) (f : Fld) (v p : Nat) : (d.set f v).txq p = d.txq p := rfl

theorem txq_putTxq (p : Nat) (q : List TxStamp) (d : Dev) : (d.putTxq p q).txq p = q :=
  (congrArg (fun x => x.getD []) (lookup_insertKey_same p q d.time.txq) :)

theorem busRead_txqId {d : Dev} {m : Nat} {p : Port} (h : d.readVerdict m (0x40110 + 0x20 * p.val) = .pass) :
    busRead m .bar0 (0x40110 + 0x20 * p.val) false d = (txqPop p m d).2.answer m { data := (txqPop p m d).1 } := by
  have hp := p.isLt
  have read : regRead m (0x40110 + 0x20 * p.val) d = txqPop p m d := by
    unfold regRead
    rw [findRow_txqId]
    dsimp only
    rw [if_neg (by simp; omega)]
    rfl
  rw [busRead_of_pass false h (by omega) (by omega), read]

theorem txqPop_nil {p m : Nat} {d : Dev} (h : d.txq p = []) : txqPop p m d = (0, d) := by
  unfold txqPop
  rw [h]

/-- The device once a stamp is captured for the master that reads it. -/
def stampTaken (p m : Nat) (t : TxStamp) (q : List TxStamp) (d : Dev) : Dev :=
  (((d.putTxq p q).set (TBS_P_TXQ_NS m p) (t.stamp % 1000000000)).set (TBS_P_TXQ_SEC_LO m p) (t.stamp / 1000000000)).set
    (TBS_P_TXQ_SEC_HI_value m p) (t.stamp / 1000000000 / 2 ^ 32)

theorem txqPop_cons {p m : Nat} {d : Dev} {t : TxStamp} {q : List TxStamp} (h : d.txq p = t :: q) : txqPop p m d = (t.id, stampTaken p m t q d) := by
  unfold txqPop
  rw [h]
  rfl

theorem get_ns_stampTaken (p m : Nat) (t : TxStamp) (q : List TxStamp) (d : Dev) :
    (stampTaken p m t q d).get (TBS_P_TXQ_NS m p) = t.stamp % 1000000000 := by
  unfold stampTaken
  rw [Dev.get_set_ne _ (TBS_P_TXQ_SEC_HI_value m p) _ _ (by simp only [TBS_P_TXQ_NS, TBS_P_TXQ_SEC_HI_value]; omega),
    Dev.get_set_ne _ (TBS_P_TXQ_SEC_LO m p) _ _ (by simp only [TBS_P_TXQ_NS, TBS_P_TXQ_SEC_LO]; omega)]
  exact Dev.get_set_fits _ (TBS_P_TXQ_NS m p) rfl (Nat.lt_trans (Nat.mod_lt _ (by decide)) (show 1000000000 < 2 ^ 32 by decide))

theorem get_sec_stampTaken (p m : Nat) (t : TxStamp) (q : List TxStamp) (d : Dev) :
    (stampTaken p m t q d).get (TBS_P_TXQ_SEC_LO m p) = t.stamp / 1000000000 % 2 ^ 32 := by
  unfold stampTaken
  rw [Dev.get_set_ne _ (TBS_P_TXQ_SEC_HI_value m p) _ _ (by simp only [TBS_P_TXQ_SEC_LO, TBS_P_TXQ_SEC_HI_value]; omega)]
  exact Dev.get_set_same _ (TBS_P_TXQ_SEC_LO m p) _ rfl

theorem txq_stampTaken (p m : Nat) (t : TxStamp) (q : List TxStamp) (d : Dev) : (stampTaken p m t q d).txq p = q := by
  unfold stampTaken
  rw [txq_set, txq_set, txq_set, txq_putTxq]

/-! ## The registers of a time-trigger output (R72-R74) -/

section
variable (n : Nat) (d : Dev)

theorem ttoStat_ne_ctrl : 0x40204 + n * 0x20 ≠ 0x40200 + n * 0x20 := by omega

/-- A field of TBS_TTOn_CTRL does not show in TBS_TTOn_STAT. -/
theorem get_stat_set_ctrl (v lo w lo' w' : Nat) : (d.set ⟨0x40200 + n * 0x20, lo, w⟩ v).get ⟨0x40204 + n * 0x20, lo', w'⟩ = d.get ⟨0x40204 + n * 0x20, lo', w'⟩ :=
  Dev.get_set_ne d _ _ v (ttoStat_ne_ctrl n)

theorem get_ctrl_set_stat (v lo w lo' w' : Nat) : (d.set ⟨0x40204 + n * 0x20, lo, w⟩ v).get ⟨0x40200 + n * 0x20, lo', w'⟩ = d.get ⟨0x40200 + n * 0x20, lo', w'⟩ :=
  Dev.get_set_ne d _ _ v (ttoStat_ne_ctrl n).symm

theorem get_state_set {v : Nat} (hv : v < 4) : (d.set (TBS_TTO_STAT_state n) v).get (TBS_TTO_STAT_state n) = v :=
  Dev.get_set_fits d (TBS_TTO_STAT_state n) rfl hv

@[simp] theorem get_ttoPlan (t : Option Nat) (f : Fld) : (d.ttoPlan n t).get f = d.get f := rfl

theorem lookup_ttoPlan (t : Option Nat) : lookup n (d.ttoPlan n t).time.ttoNext = t := by
  cases t with
  | none => exact lookup_eraseKey_same n _
  | some x => exact lookup_insertKey_same n x _

end

section
variable {n : Nat} (d : Dev)

theorem timeAndPorts_tto (hn : n < 8) : timeAndPorts (0x40200 + n * 0x20) ∧ timeAndPorts (0x40204 + n * 0x20) := by
  unfold timeAndPorts
  omega

theorem kept_ttoMiss : Dev.Kept timeAndPorts (d.add (TBS_TTO_STAT_miss_count n) 1) (ttoMiss n 1 d) := (logOnly_raise _ (by decide)).kept

theorem time_ttoMiss : (ttoMiss n 1 d).time = d.time := (logOnly_raise (s := 19) (d.add (TBS_TTO_STAT_miss_count n) 1) (by decide)).time

variable (hn : n < 8)
include hn

theorem get_miss_ttoMiss : (ttoMiss n 1 d).get (TBS_TTO_STAT_miss_count n) = min (d.get (TBS_TTO_STAT_miss_count n) + 1) 65535 :=
  ((kept_ttoMiss d).get (f := TBS_TTO_STAT_miss_count n) (timeAndPorts_tto hn).2).trans
    (Dev.get_add_same d (TBS_TTO_STAT_miss_count n) 1 rfl)

theorem get_state_ttoMiss : (ttoMiss n 1 d).get (TBS_TTO_STAT_state n) = d.get (TBS_TTO_STAT_state n) :=
  ((kept_ttoMiss d).get (f := TBS_TTO_STAT_state n) (timeAndPorts_tto hn).2).trans
    (Dev.get_set_sameWord d _ (by decide) (by decide))

theorem get_ctrl_ttoMiss (lo w : Nat) : (ttoMiss n 1 d).get ⟨0x40200 + n * 0x20, lo, w⟩ = d.get ⟨0x40200 + n * 0x20, lo, w⟩ :=
  ((kept_ttoMiss d).get (f := ⟨0x40200 + n * 0x20, lo, w⟩) (timeAndPorts_tto hn).1).trans (get_ctrl_set_stat n d _ _ _ _ _)

end

/-! ## Enables (R72, R73) -/

/-- Period and width are in range. -/
def Dev.ttoGood (d : Dev) (n : Nat) : Prop :=
  if d.get (TBS_TTO_PERIOD n) = 0 then 4 ≤ d.get (TBS_TTO_WIDTH n)
  else 100 ≤ d.get (TBS_TTO_PERIOD n) ∧ 4 ≤ d.get (TBS_TTO_WIDTH n) ∧ d.get (TBS_TTO_WIDTH n) + 4 ≤ d.get (TBS_TTO_PERIOD n)

theorem ttoOpen_bad {n : Nat} {d : Dev} (h : ¬d.ttoGood n) : ttoOpen n d = (d.setFlag (TBS_TTO_STAT_cfg_err n) true).setFlag (TBS_TTO_CTRL_enable n) false := by
  unfold Dev.ttoGood at h
  refine if_pos ?_
  split
  next hp => simpa [hp] using h
  next hp =>
    rw [if_neg hp] at h
    simp
    omega

theorem ttoOpen_good {n : Nat} {d : Dev} (h : d.ttoGood n) : ttoOpen n d =
    if d.get (TBS_TTO_PERIOD n) = 0 && d.ttoStart n < d.now then ttoMiss n 1 (d.setFlag (TBS_TTO_CTRL_enable n) false)
    else ((d.set (TBS_TTO_STAT_state n) 1).setFlag (TBS_TTO_CTRL_enable n) true).ttoPlan n (d.ttoFrom n d.now) := by
  unfold Dev.ttoGood at h
  refine if_neg ?_
  split
  next hp => simpa [hp] using h
  next hp => simpa [hp, and_assoc] using h

/-- An output is opened with values out of range. -/
theorem ttoOpen_refuses {n : Nat} {d : Dev} (h : ¬d.ttoGood n) : (ttoOpen n d).flag (TBS_TTO_STAT_cfg_err n) = true ∧
    (ttoOpen n d).flag (TBS_TTO_CTRL_enable n) = false ∧ (ttoOpen n d).get (TBS_TTO_STAT_state n) = d.get (TBS_TTO_STAT_state n) := by
  rw [ttoOpen_bad h]
  refine ⟨(congrArg (· != 0) (get_stat_set_ctrl ..)).trans (Dev.flag_setFlag_same d (TBS_TTO_STAT_cfg_err n) true rfl rfl),
    Dev.flag_setFlag_same _ (TBS_TTO_CTRL_enable n) false rfl rfl, (get_stat_set_ctrl ..).trans ?_⟩
  exact Dev.get_set_sameWord d _ (by decide) (by decide)

theorem ttoOpen_on {n : Nat} {d : Dev} (h : d.ttoGood n) (hp : d.get (TBS_TTO_PERIOD n) = 0 → d.now ≤ d.ttoStart n) :
    (ttoOpen n d).get (TBS_TTO_STAT_state n) = 1 ∧ (ttoOpen n d).flag (TBS_TTO_CTRL_enable n) = true ∧
      lookup n (ttoOpen n d).time.ttoNext = d.ttoFrom n d.now := by
  rw [ttoOpen_good h, if_neg (by simpa using hp)]
  refine ⟨(get_stat_set_ctrl ..).trans (get_state_set n d (by decide)), ?_, lookup_ttoPlan ..⟩
  exact Dev.flag_setFlag_same _ (TBS_TTO_CTRL_enable n) true rfl rfl

theorem ttoOpen_missed {n : Nat} (hn : n < 8) {d : Dev} (h : d.ttoGood n) (hp : d.get (TBS_TTO_PERIOD n) = 0) (hs : d.ttoStart n < d.now) :
    (ttoOpen n d).get (TBS_TTO_STAT_state n) = d.get (TBS_TTO_STAT_state n) ∧ (ttoOpen n d).flag (TBS_TTO_CTRL_enable n) = false ∧
      (ttoOpen n d).get (TBS_TTO_STAT_miss_count n) = min (d.get (TBS_TTO_STAT_miss_count n) + 1) 65535 := by
  rw [ttoOpen_good h, if_pos (by simp [hp, hs])]
  refine ⟨(get_state_ttoMiss _ hn).trans (get_stat_set_ctrl ..), ?_, (get_miss_ttoMiss _ hn).trans ?_⟩
  · exact (congrArg (· != 0) (get_ctrl_ttoMiss _ hn _ _)).trans (Dev.flag_setFlag_same d (TBS_TTO_CTRL_enable n) false rfl rfl)
  · exact congrArg (fun x => min (x + 1) 65535) (get_stat_set_ctrl ..)

theorem ttoEnable_off {n : Nat} {d : Dev} (h : d.get (TBS_TTO_STAT_state n) = 0) : ttoEnable n d = ttoOpen n d := if_pos h

theorem ttoEnable_on {n : Nat} {d : Dev} (h : d.get (TBS_TTO_STAT_state n) = 1) : ttoEnable n d = d := by
  unfold ttoEnable
  rw [h]
  rfl

theorem ttoEnable_disabling {n : Nat} {d : Dev} (h : d.get (TBS_TTO_STAT_state n) = 2) :
    ttoEnable n d = (d.setFlag (TBS_TTO_STAT_enable_pending n) true).setFlag (TBS_TTO_CTRL_enable n) true := by
  unfold ttoEnable
  rw [h]
  rfl

/-- An enable during DISABLING waits. -/
theorem ttoEnable_waits {n : Nat} {d : Dev} (h : d.get (TBS_TTO_STAT_state n) = 2) :
    (ttoEnable n d).get (TBS_TTO_STAT_state n) = 2 ∧ (ttoEnable n d).flag (TBS_TTO_STAT_enable_pending n) = true := by
  rw [ttoEnable_disabling h]
  refine ⟨(get_stat_set_ctrl ..).trans ((Dev.get_set_sameWord d _ (by decide) (by decide)).trans h), ?_⟩
  exact (congrArg (· != 0) (get_stat_set_ctrl ..)).trans (Dev.flag_setFlag_same d (TBS_TTO_STAT_enable_pending n) true rfl rfl)

/-! ## Disables (R74) -/

/-- The enable and the waiting enable are taken back. -/
def ttoCleared (n : Nat) (d : Dev) : Dev := (d.setFlag (TBS_TTO_CTRL_enable n) false).setFlag (TBS_TTO_STAT_enable_pending n) false

theorem ttoCleared_fields (n : Nat) (d : Dev) : (ttoCleared n d).get (TBS_TTO_STAT_state n) = d.get (TBS_TTO_STAT_state n) ∧
    (ttoCleared n d).flag (TBS_TTO_CTRL_enable n) = false ∧ (ttoCleared n d).flag (TBS_TTO_STAT_enable_pending n) = false := by
  refine ⟨(Dev.get_set_sameWord _ _ (by decide) (by decide)).trans (get_stat_set_ctrl ..), ?_, ?_⟩
  · exact (congrArg (· != 0) (get_ctrl_set_stat ..)).trans (Dev.flag_setFlag_same d (TBS_TTO_CTRL_enable n) false rfl rfl)
  · exact Dev.flag_setFlag_same _ (TBS_TTO_STAT_enable_pending n) false rfl rfl

theorem ttoDisable_eq (n : Nat) (d : Dev) : ttoDisable n d =
    if (ttoCleared n d).get (TBS_TTO_STAT_state n) = 1 then
      if (ttoCleared n d).ttoActive n then ((ttoCleared n d).set (TBS_TTO_STAT_state n) 2).ttoPlan n none else ttoOff n (ttoCleared n d)
    else ttoCleared n d := rfl

theorem get_state_ttoOff (n : Nat) (d : Dev) : (ttoOff n d).get (TBS_TTO_STAT_state n) = 0 :=
  (get_stat_set_ctrl ..).trans (get_state_set n d (by decide))

theorem flag_enable_ttoOff (n : Nat) (d : Dev) : (ttoOff n d).flag (TBS_TTO_CTRL_enable n) = false :=
  Dev.flag_setFlag_same _ (TBS_TTO_CTRL_enable n) false rfl rfl

theorem get_stat_ttoOff (n : Nat) (d : Dev) {lo w : Nat} (h : 2 ≤ lo) : (ttoOff n d).get ⟨0x40204 + n * 0x20, lo, w⟩ = d.get ⟨0x40204 + n * 0x20, lo, w⟩ :=
  (get_stat_set_ctrl ..).trans (Dev.get_set_sameWord d _ (by decide) (.inl h))

/-- What a disable leaves of the output (R74). -/
theorem ttoDisable_fields (n : Nat) (d : Dev) : (ttoDisable n d).flag (TBS_TTO_CTRL_enable n) = false ∧
    (ttoDisable n d).flag (TBS_TTO_STAT_enable_pending n) = false ∧
    (ttoDisable n d).get (TBS_TTO_STAT_state n) =
      (if d.get (TBS_TTO_STAT_state n) = 1 then if d.ttoActive n then 2 else 0 else d.get (TBS_TTO_STAT_state n)) ∧
    (d.get (TBS_TTO_STAT_state n) = 1 → lookup n (ttoDisable n d).time.ttoNext = none) := by
  obtain ⟨hstate, henable, hpending⟩ := ttoCleared_fields n d
  have active : (ttoCleared n d).ttoActive n = d.ttoActive n := rfl
  rw [ttoDisable_eq, hstate, active]
  by_cases h1 : d.get (TBS_TTO_STAT_state n) = 1
  · rw [if_pos h1, if_pos h1]
    split
    · refine ⟨(congrArg (· != 0) (get_ctrl_set_stat ..)).trans henable, ?_, ?_, fun _ => lookup_ttoPlan ..⟩
      · exact (congrArg (· != 0) (Dev.get_set_sameWord _ _ (by decide) (by decide))).trans hpending
      · exact get_state_set n _ (by decide)
    · exact ⟨flag_enable_ttoOff .., (congrArg (· != 0) (get_stat_ttoOff n _ (by decide))).trans hpending, get_state_ttoOff .., fun _ => lookup_ttoPlan ..⟩
  · rw [if_neg h1, if_neg h1]
    exact ⟨henable, hpending, hstate, fun h => absurd h h1⟩

/-! ## A write of the enable alone (R72, R74) -/

theorem regWrite_ttoCtrl (m v : Nat) (n : Fin 8) (d : Dev) : regWrite {} m (0x40200 + 0x20 * n.val) v d =
    ttoCtrlWrite n v (if bitAt v 1 = d.flag (TBS_TTO_CTRL_polarity n) || d.get (TBS_TTO_STAT_state n) = 0 then d
      else d.setFlag (TBS_TTO_STAT_wr_drop n) true) := by
  have hn := n.isLt
  unfold regWrite
  rw [findRow_ttoCtrl]
  dsimp only
  rw [if_neg (by simp; omega), if_neg (by omega), if_pos (by omega)]
  rfl

/-- Polarity and gate of a word that holds them. -/
theorem ttoHeld (n : Fin 8) (x : Nat) (d : Dev) :
    bits (putBits (d.rwHeld (0x40200 + 0x20 * n.val)) 0 1 x) 1 1 = d.get (TBS_TTO_CTRL_polarity n) ∧
      bits (putBits (d.rwHeld (0x40200 + 0x20 * n.val)) 0 1 x) 2 1 = d.get (TBS_TTO_CTRL_gate n) := by
  have key : 0x40200 + 0x20 * n.val = 0x40200 + n.val * 0x20 := by omega
  rw [bits_putBits_above _ _ _ _ _ _ (by decide), bits_putBits_above _ _ _ _ _ _ (by decide)]
  refine ⟨(bits_rwHeld (findRow_ttoCtrl n) d (f := ⟨1, 1, .rw, 0, []⟩) (by decide)).trans ?_,
    (bits_rwHeld (findRow_ttoCtrl n) d (f := ⟨2, 1, .rw, 1, []⟩) (by decide)).trans ?_⟩
  · rw [key]
    rfl
  · rw [key]
    rfl

/-- A write of the enable alone acts on the enable alone. -/
theorem regKeep_ttoCtrl {m x : Nat} {n : Fin 8} {d : Dev} (h : d.WritesField m (0x40200 + 0x20 * n.val) 0 1 x) (hx : x < 2) :
    ∃ e, d.SameBut (fun _ => False) e ∧ regKeep m (0x40200 + 0x20 * n.val) 0 1 x d = if x = 1 then ttoEnable n e else ttoDisable n e := by
  have hn := n.isLt
  obtain ⟨hpol, hgate⟩ := ttoHeld n x d
  have enable : bitAt (putBits (d.rwHeld (0x40200 + 0x20 * n.val)) 0 1 x) 0 = (x == 1) := by
    rw [bitAt_eq, bits_putBits_same, Nat.mod_eq_of_lt (show x < 2 ^ 1 from hx)]
  have same := Dev.SameBut.refl (fun _ => False) d
  have polarity : d.SameBut (fun _ => False) (if d.get (TBS_TTO_STAT_state n) = 0 then
      d.set (TBS_TTO_CTRL_polarity n) (bits (putBits (d.rwHeld (0x40200 + 0x20 * n.val)) 0 1 x) 1 1) else d) := by
    split
    · exact same.set_self (TBS_TTO_CTRL_polarity n) rfl hpol.symm
    · exact same
  refine ⟨_, polarity.set_self (TBS_TTO_CTRL_gate n) rfl ((polarity.get (fun h => h)).trans hgate.symm), ?_⟩
  rw [regKeep_of_writes h (by omega) (by omega) (by omega), regWrite_ttoCtrl]
  have drop : bitAt (putBits (d.rwHeld (0x40200 + 0x20 * n.val)) 0 1 x) 1 = d.flag (TBS_TTO_CTRL_polarity n) := by
    rw [bitAt_eq, hpol, Dev.flag_eq]
    have hb : d.get (TBS_TTO_CTRL_polarity n) < 2 := d.get_lt _
    interval_cases d.get (TBS_TTO_CTRL_polarity n) <;> rfl
  rw [if_pos (by simp [drop])]
  unfold ttoCtrlWrite
  rw [enable]
  dsimp only
  by_cases h1 : x = 1
  · rw [if_pos h1, if_pos (by simp [h1])]
  · rw [if_neg h1, if_neg (by simp [h1])]

section
variable {d e : Dev} (h : d.SameBut (fun _ => False) e) (n : Nat)
include h

theorem get_alike (f : Fld) : e.get f = d.get f := h.get (fun hf => hf)

theorem time_alike : e.time = d.time := by rw [h.2]

theorem ttoGood_alike : e.ttoGood n ↔ d.ttoGood n := by
  unfold Dev.ttoGood
  rw [get_alike h, get_alike h]

theorem ttoStart_alike : e.ttoStart n = d.ttoStart n := by
  unfold Dev.ttoStart Dev.get2
  rw [get_alike h, get_alike h]

theorem now_alike : e.now = d.now := by
  unfold Dev.now
  rw [time_alike h]

theorem ttoFrom_alike (t : Nat) : e.ttoFrom n t = d.ttoFrom n t := by
  unfold Dev.ttoFrom
  rw [ttoStart_alike h, get_alike h]

end

/-- A read of TXQ_ID (R70). -/
theorem exec_txqPop {s : State} (hr : s.Running) {m : Master} {p : Port} (hp : s.dev.readVerdict m (0x40110 + 0x20 * p.val) = .pass) {v : Nat} {e : Dev}
    (h : txqPop p m s.dev = (v, e)) : exec (.txqPop m p) s = .next (s.leaving (e.answer m { data := v })) :=
  completes_of rfl hr ((busRead_txqId hp).trans (by rw [h]))

theorem stampsAndTriggerEnables : Rules.StampsAndTriggerEnables := by
  intro s m hr
  refine ⟨fun p hp => ⟨fun hq => ?_, fun t q hq => ?_⟩, fun n h => ?_, fun n h => ?_⟩
  · exact exec_txqPop hr hp (txqPop_nil hq)
  · exact ⟨_, exec_txqPop hr hp (txqPop_cons hq), txq_stampTaken .., get_ns_stampTaken .., get_sec_stampTaken ..⟩
  · intro p w good
    obtain ⟨e, he, hk⟩ := regKeep_ttoCtrl h (by decide)
    have exec_eq : exec (.ttoEnable m n) s = .next (s.settling (ttoEnable n e)) := settles_of rfl hr (hk.trans (if_pos rfl))
    have state (v : Nat) (hv : s.dev.get (TBS_TTO_STAT_state n) = v) : e.get (TBS_TTO_STAT_state n) = v := (get_alike he _).trans hv
    have good_e : e.ttoGood n ↔ good := ttoGood_alike he n
    refine ⟨fun h0 hg => ⟨_, exec_eq, ?_⟩, fun h0 hg hp => ⟨_, exec_eq, ?_⟩, fun h0 hg hp hs => ⟨_, exec_eq, ?_⟩, fun h1 => ⟨_, exec_eq, ?_⟩,
      fun h2 => ⟨_, exec_eq, ttoEnable_waits (state 2 h2)⟩⟩
    · obtain ⟨herr, hen, hst⟩ := ttoOpen_refuses (fun hb => hg (good_e.mp hb))
      rw [ttoEnable_off (state 0 h0)]
      exact ⟨herr, hen, hst.trans (state 0 h0)⟩
    · rw [ttoEnable_off (state 0 h0), ← now_alike he, ← ttoFrom_alike he]
      refine ttoOpen_on (good_e.mpr hg) (fun hp0 => ?_)
      rw [now_alike he, ttoStart_alike he]
      exact hp ((get_alike he _).symm.trans hp0)
    · obtain ⟨hst, hen, hmiss⟩ := ttoOpen_missed n.isLt (good_e.mpr hg) ((get_alike he _).trans hp) (by rwa [now_alike he, ttoStart_alike he])
      rw [ttoEnable_off (state 0 h0)]
      exact ⟨hst.trans (state 0 h0), hen, hmiss.trans (by rw [get_alike he])⟩
    · rw [ttoEnable_on (state 1 h1)]
      exact ⟨state 1 h1, congrArg TimeSt.ttoNext (time_alike he)⟩
  · obtain ⟨e, he, hk⟩ := regKeep_ttoCtrl h (by decide)
    obtain ⟨hen, hpend, hst, hnext⟩ := ttoDisable_fields n e
    have active : e.ttoActive n = s.dev.ttoActive n := congrArg (fun t : TimeSt => (lookup n.val t.ttoPulse).isSome) (time_alike he)
    rw [get_alike he] at hst hnext
    rw [active] at hst
    exact ⟨_, settles_of rfl hr (hk.trans (if_neg (by decide))), hen, hpend, hst, hnext⟩

end Sys2Proof.Machine
end

section
/-! PROOF. The edges of the time-trigger outputs, and the digital inputs (O34). -/
namespace Sys2Proof.Machine

/-! ## What an open or a closed output leaves of the pulses -/

theorem ttoPulse_ttoOpen (n : Nat) (d : Dev) : (ttoOpen n d).time.ttoPulse = d.time.ttoPulse := by
  by_cases h : d.ttoGood n
  · rw [ttoOpen_good h]
    split
    · rw [time_ttoMiss]
      rfl
    · rfl
  · rw [ttoOpen_bad h]
    rfl

theorem ttoPulse_ttoOff (n : Nat) (d : Dev) : (ttoOff n d).time.ttoPulse = d.time.ttoPulse := rfl

/-! ## An instant is reached (R72, R73) -/

/-- The tick at which instant `t` is due. -/
def edgeDue (t : Nat) : Nat := (t + 3) / 4 * 4

/-- The instant is not emitted. -/
def Dev.ttoGated (d : Dev) (n t : Nat) : Bool := (d.flag (TBS_TTO_CTRL_gate n) && decide (d.timeState ≤ 1)) || d.tickPassed (edgeDue t)

/-- The next instant of the output is planned. -/
def ttoNextPlanned (n t : Nat) (d : Dev) : Dev :=
  d.ttoPlan n (if d.get (TBS_TTO_PERIOD n) = 0 then none else some (t + d.get (TBS_TTO_PERIOD n)))

/-- What reaching the instant `t` does. -/
def ttoReached (n t : Nat) (d : Dev) : Dev :=
  let e := ttoNextPlanned n t d
  if d.ttoGated n t then
    if d.get (TBS_TTO_PERIOD n) = 0 then ttoOff n (ttoMiss n 1 e) else ttoMiss n 1 e
  else { e with time := { e.time with ttoPulse := insertKey n (e.time.elapsed + 4 * e.get (TBS_TTO_WIDTH n)) e.time.ttoPulse } }

theorem ttoInstant_none {n : Nat} {d : Dev} (h : lookup n d.time.ttoNext = none) : ttoInstant n d = d := by
  unfold ttoInstant
  rw [h]

theorem ttoInstant_planned {n t : Nat} {d : Dev} (h : lookup n d.time.ttoNext = some t) : ttoInstant n d = atTime (edgeDue t) (ttoReached n t) d := by
  unfold ttoInstant
  rw [h]
  rfl

theorem lookup_ttoNextPlanned (n t : Nat) (d : Dev) : lookup n (ttoNextPlanned n t d).time.ttoNext =
    if d.get (TBS_TTO_PERIOD n) = 0 then none else some (t + d.get (TBS_TTO_PERIOD n)) := lookup_ttoPlan ..

theorem get_ttoNextPlanned (n t : Nat) (d : Dev) (f : Fld) : (ttoNextPlanned n t d).get f = d.get f := rfl
theorem ttoPulse_ttoNextPlanned (n t : Nat) (d : Dev) : (ttoNextPlanned n t d).time.ttoPulse = d.time.ttoPulse := rfl

/-- A gated instant is a miss (R73). -/
theorem ttoReached_gated {n t : Nat} (hn : n < 8) {d : Dev} (h : d.ttoGated n t = true) :
    lookup n (ttoReached n t d).time.ttoNext = (if d.get (TBS_TTO_PERIOD n) = 0 then none else some (t + d.get (TBS_TTO_PERIOD n))) ∧
      (ttoReached n t d).time.ttoPulse = d.time.ttoPulse ∧
      (ttoReached n t d).get (TBS_TTO_STAT_miss_count n) = min (d.get (TBS_TTO_STAT_miss_count n) + 1) 65535 := by
  have miss : (ttoMiss n 1 (ttoNextPlanned n t d)).get (TBS_TTO_STAT_miss_count n) = min (d.get (TBS_TTO_STAT_miss_count n) + 1) 65535 :=
    get_miss_ttoMiss _ hn
  unfold ttoReached
  rw [if_pos h]
  split
  next hp =>
    rw [ttoPulse_ttoOff, time_ttoMiss, ttoPulse_ttoNextPlanned]
    exact ⟨lookup_ttoPlan .., rfl, (get_stat_ttoOff n _ (by decide)).trans miss⟩
  next hp =>
    rw [time_ttoMiss, lookup_ttoNextPlanned, if_neg hp, ttoPulse_ttoNextPlanned]
    exact ⟨rfl, rfl, miss⟩

/-- Any other is emitted. -/
theorem ttoReached_emits {n t : Nat} {d : Dev} (h : d.ttoGated n t = false) :
    lookup n (ttoReached n t d).time.ttoNext = (if d.get (TBS_TTO_PERIOD n) = 0 then none else some (t + d.get (TBS_TTO_PERIOD n))) ∧
      lookup n (ttoReached n t d).time.ttoPulse = some (d.time.elapsed + 4 * d.get (TBS_TTO_WIDTH n)) := by
  unfold ttoReached
  rw [if_neg (by simp [h])]
  exact ⟨lookup_ttoNextPlanned .., lookup_insertKey_same ..⟩

theorem timeState_passTo (t : Nat) (d : Dev) : (passTo t d).timeState = d.timeState := get_passTo t d TBS_STATE_state

theorem ttoPulse_passTo (t : Nat) (d : Dev) : (passTo t d).time.ttoPulse = d.time.ttoPulse := by rw [passTo_rest]

theorem ttoGated_passTo (n t : Nat) (d : Dev) : (passTo (edgeDue t) d).ttoGated n t = true ↔
    (d.flag (TBS_TTO_CTRL_gate n) = true ∧ d.timeState ≤ 1) ∨
      edgeDue t * 2 ^ 32 + (passTo (edgeDue t) d).tickStep ≤ (passTo (edgeDue t) d).time.clock := by
  unfold Dev.ttoGated Dev.tickPassed
  rw [Dev.flag_eq, get_passTo, timeState_passTo, ← Dev.flag_eq, Bool.or_eq_true, Bool.and_eq_true, decide_eq_true_eq, decide_eq_true_eq]
  rfl

/-! ## The trailing edge (R72, R74) -/

/-- The pulse of the output ends. -/
def pulseEnded (n : Nat) (d : Dev) : Dev := { d with time := { d.time with ttoPulse := eraseKey n d.time.ttoPulse } }

/-- A DISABLING output is OFF. -/
def ttoDisabled (n : Nat) (d : Dev) : Dev :=
  let e := d.set (TBS_TTO_STAT_state n) 0
  if e.flag (TBS_TTO_STAT_enable_pending n) then
    let e := e.setFlag (TBS_TTO_STAT_enable_pending n) false
    if e.flag (TBS_TTO_CTRL_enable n) then ttoOpen n e else e
  else e

/-- What the trailing edge does to the output. -/
def ttoTrailed (n : Nat) (d : Dev) : Dev :=
  if d.get (TBS_TTO_STAT_state n) = 2 then ttoDisabled n d else if d.get (TBS_TTO_PERIOD n) = 0 then ttoOff n d else d

theorem ttoTrailing_none {n : Nat} {d : Dev} (h : lookup n d.time.ttoPulse = none) : ttoTrailing n d = d := by
  unfold ttoTrailing
  rw [h]

theorem ttoTrailing_active {n e : Nat} {d : Dev} (h : lookup n d.time.ttoPulse = some e) :
    ttoTrailing n d = atElapsed e (fun d => ttoTrailed n (pulseEnded n d)) d := by
  unfold ttoTrailing
  rw [h]
  rfl

theorem atElapsed_early {e : Nat} {f : Dev → Dev} {d : Dev} (h : (passElapsed e d).time.elapsed < e) : atElapsed e f d = passElapsed e d := if_pos h

theorem atElapsed_reached {e : Nat} {f : Dev → Dev} {d : Dev} (h : e ≤ (passElapsed e d).time.elapsed) : atElapsed e f d = f (passElapsed e d) :=
  if_neg (Nat.not_lt.mpr h)

theorem ttoPulse_ttoTrailed (n : Nat) (d : Dev) : (ttoTrailed n d).time.ttoPulse = d.time.ttoPulse := by
  have disabled : (ttoDisabled n d).time.ttoPulse = d.time.ttoPulse := by
    unfold ttoDisabled
    dsimp only
    split
    · split
      · exact ttoPulse_ttoOpen ..
      · rfl
    · rfl
  unfold ttoTrailed
  split
  · exact disabled
  · split
    · exact ttoPulse_ttoOff ..
    · rfl

theorem ttoDisabled_idle {n : Nat} {d : Dev} (h : d.flag (TBS_TTO_STAT_enable_pending n) = false) : ttoDisabled n d = d.set (TBS_TTO_STAT_state n) 0 := by
  have pending : (d.set (TBS_TTO_STAT_state n) 0).flag (TBS_TTO_STAT_enable_pending n) = false :=
    (congrArg (· != 0) (Dev.get_set_sameWord d _ (by decide) (by decide))).trans h
  exact if_neg (by rw [pending]; decide)

/-- The states that a trailing edge ends in (R74). -/
theorem get_state_ttoTrailed (n : Nat) (d : Dev) :
    (d.get (TBS_TTO_STAT_state n) = 2 → d.flag (TBS_TTO_STAT_enable_pending n) = false → (ttoTrailed n d).get (TBS_TTO_STAT_state n) = 0) ∧
    (d.get (TBS_TTO_STAT_state n) = 1 → d.get (TBS_TTO_PERIOD n) = 0 → (ttoTrailed n d).get (TBS_TTO_STAT_state n) = 0) ∧
    (d.get (TBS_TTO_STAT_state n) = 1 → d.get (TBS_TTO_PERIOD n) ≠ 0 → (ttoTrailed n d).get (TBS_TTO_STAT_state n) = 1) := by
  unfold ttoTrailed
  refine ⟨fun h2 hp => ?_, fun h1 hp => ?_, fun h1 hp => ?_⟩
  · rw [if_pos h2, ttoDisabled_idle hp]
    exact get_state_set n d (by decide)
  · rw [if_neg (by omega), if_pos hp]
    exact get_state_ttoOff n d
  · rw [if_neg (by omega), if_neg hp, h1]

/-! ## Digital inputs (R75) -/

/-- The edge is shown: level, uncertainty and the time of the sample. -/
def dinShown (n : Nat) (level : Bool) (t : Nat) (d : Dev) : Dev :=
  let e := d.set DIO_DIN_LEVEL_level (setBit (d.get DIO_DIN_LEVEL_level) n level)
  let e := e.set DIO_DIN_LEVEL_unc (setBit (e.get DIO_DIN_LEVEL_unc) n (e.timeState != 3))
  e.set2 (DIO_DIN_TIME_LO n) (DIO_DIN_TIME_HI n) t

/-- The logic engine sees the edge. -/
def dinSeen (n : Nat) (level : Bool) (d : Dev) : Dev :=
  { d with le := { d.le with
    rise := if level then setBit d.le.rise n true else d.le.rise, fall := if level then d.le.fall else setBit d.le.fall n true
    edges := modAt d.le.edges n (fun c => min 255 (c + 1)) } }

theorem get_dinSeen (n : Nat) (level : Bool) (d : Dev) (f : Fld) : (dinSeen n level d).get f = d.get f := rfl

/-- A run of samples confirms an edge. -/
def dinSampled (n : Nat) (level : Bool) (run t : Nat) (d : Dev) : Dev :=
  if run < d.get DIO_DIN_FILT_filt_us + 1 || bitAt (d.get DIO_DIN_LEVEL_level) n = level then d else dinSeen n level (dinShown n level t d)

theorem dinConfirm_eq (n : Nat) (level : Bool) (run t : Nat) (d : Dev) :
    dinConfirm n level run t d = atTime (t / 1000 * 1000) (dinSampled n level run (t / 1000 * 1000)) d := rfl

theorem dinConfirm_same {n : Nat} {level : Bool} {run t : Nat} {d : Dev} (h : bitAt (d.get DIO_DIN_LEVEL_level) n = level) :
    dinConfirm n level run t d = passTo (t / 1000 * 1000) d := by
  have same : dinSampled n level run (t / 1000 * 1000) (passTo (t / 1000 * 1000) d) = passTo (t / 1000 * 1000) d :=
    if_pos (by rw [get_passTo, get_passTo, h]; simp)
  rw [dinConfirm_eq]
  unfold atTime
  dsimp only
  rw [same, ite_self]

theorem dinConfirm_edge {n : Nat} {level : Bool} {run t : Nat} {d : Dev} (ht : t / 1000 * 1000 ≤ (passTo (t / 1000 * 1000) d).now)
    (hr : d.get DIO_DIN_FILT_filt_us < run) (h : bitAt (d.get DIO_DIN_LEVEL_level) n ≠ level) :
    dinConfirm n level run t d = dinSeen n level (dinShown n level (t / 1000 * 1000) (passTo (t / 1000 * 1000) d)) := by
  rw [dinConfirm_eq, atTime_reached ht]
  refine if_neg ?_
  rw [get_passTo, get_passTo]
  simp [h]
  omega

theorem dinKey_ne (n : Nat) : 0x130140 + n * 0x8 ≠ 0x130104 ∧ 0x130144 + n * 0x8 ≠ 0x130104 := by omega

theorem get_dinShown {n : Nat} {level : Bool} {t : Nat} {d : Dev} (lo w : Nat) : (dinShown n level t d).get ⟨0x130104, lo, w⟩ =
    ((d.set DIO_DIN_LEVEL_level (setBit (d.get DIO_DIN_LEVEL_level) n level)).set DIO_DIN_LEVEL_unc
      (setBit ((d.set DIO_DIN_LEVEL_level (setBit (d.get DIO_DIN_LEVEL_level) n level)).get DIO_DIN_LEVEL_unc) n
        ((d.set DIO_DIN_LEVEL_level (setBit (d.get DIO_DIN_LEVEL_level) n level)).timeState != 3))).get ⟨0x130104, lo, w⟩ :=
  (Dev.get_set_ne _ (DIO_DIN_TIME_HI n) _ _ (dinKey_ne n).2.symm).trans (Dev.get_set_ne _ (DIO_DIN_TIME_LO n) _ _ (dinKey_ne n).1.symm)

theorem level_dinShown {n : Nat} (hn : n < 16) (level : Bool) (t : Nat) (d : Dev) (k : Nat) :
    bitAt ((dinShown n level t d).get DIO_DIN_LEVEL_level) k = if k = n then level else bitAt (d.get DIO_DIN_LEVEL_level) k := by
  refine (congrArg (bitAt · k) ((get_dinShown 0 16).trans ?_)).trans (Dev.bitAt_get_setBit d DIO_DIN_LEVEL_level n level rfl hn k)
  exact Dev.get_set_sameWord _ _ (by decide) (by decide)

theorem unc_dinShown {n : Nat} (hn : n < 16) (level : Bool) (t : Nat) (d : Dev) :
    bitAt ((dinShown n level t d).get DIO_DIN_LEVEL_unc) n = (d.timeState != 3) := by
  have state (v : Nat) : (d.set DIO_DIN_LEVEL_level v).timeState = d.timeState := Dev.get_set_ne d DIO_DIN_LEVEL_level TBS_STATE_state v (by decide)
  refine (congrArg (bitAt · n) (get_dinShown 16 16)).trans ((Dev.bitAt_get_setBit _ DIO_DIN_LEVEL_unc n _ rfl hn n).trans ?_)
  rw [if_pos rfl, state]

theorem time_dinShown (n : Nat) (level : Bool) (t : Nat) (d : Dev) : (dinShown n level t d).get (DIO_DIN_TIME_LO n) = t % 2 ^ 32 :=
  (Dev.get_set_ne _ (DIO_DIN_TIME_HI n) _ _ (by simp only [DIO_DIN_TIME_LO, DIO_DIN_TIME_HI]; omega)).trans
    (Dev.get_set_same _ (DIO_DIN_TIME_LO n) _ rfl)

theorem edge_dinSeen (n : Nat) (level : Bool) (d : Dev) : bitAt (if level then (dinSeen n level d).le.rise else (dinSeen n level d).le.fall) n = true := by
  cases level with
  | true => exact (bitAt_setBit d.le.rise n n true).trans (if_pos rfl)
  | false => exact (bitAt_setBit d.le.fall n n true).trans (if_pos rfl)

/-! ## The rule -/

theorem triggersAndInputs : Rules.TriggersAndInputs := by
  intro s hr
  refine ⟨fun n h => settles_of rfl hr (ttoInstant_none h), fun n t h => ?_, fun n h => settles_of rfl hr (ttoTrailing_none h), fun n e h => ?_,
    fun n level run t => ?_⟩
  · intro x gated
    refine ⟨fun he => settles_of rfl hr ((ttoInstant_planned h).trans (atTime_early he)), fun he =>
      ⟨_, settles_of rfl hr ((ttoInstant_planned h).trans (atTime_reached he)), ?_⟩⟩
    have hg : x.ttoGated n t = true ↔ gated := ttoGated_passTo n t s.dev
    have period : x.get (TBS_TTO_PERIOD n) = s.dev.get (TBS_TTO_PERIOD n) := get_passTo ..
    by_cases hx : x.ttoGated n t = true
    · obtain ⟨hnext, hpulse, hmiss⟩ := ttoReached_gated n.isLt hx
      rw [period] at hnext
      exact ⟨hnext, fun _ => ⟨hpulse.trans (ttoPulse_passTo ..), hmiss.trans (by rw [get_passTo])⟩, fun hng => absurd (hg.mp hx) hng⟩
    · obtain ⟨hnext, hpulse⟩ := ttoReached_emits (Bool.eq_false_iff.mpr hx)
      rw [period] at hnext
      exact ⟨hnext, fun hg' => absurd (hg.mpr hg') hx, fun _ => hpulse.trans (by rw [get_passTo])⟩
  · intro x
    refine ⟨fun he => settles_of rfl hr ((ttoTrailing_active h).trans (atElapsed_early he)), fun he =>
      ⟨_, settles_of rfl hr ((ttoTrailing_active h).trans (atElapsed_reached he)), ?_⟩⟩
    have same (f : Fld) : (pulseEnded n x).get f = s.dev.get f := get_passElapsed e s.dev f
    have states := get_state_ttoTrailed n (pulseEnded n x)
    rw [same, same, Dev.flag_eq, same, ← Dev.flag_eq] at states
    refine ⟨?_, states⟩
    rw [ttoPulse_ttoTrailed]
    exact lookup_eraseKey_same _ _
  · intro x
    refine ⟨fun ht hrun hl => ⟨_, settles_of rfl hr (dinConfirm_edge ht hrun hl), ?_⟩, fun _ hl => settles_of rfl hr (dinConfirm_same hl)⟩
    have hn := n.isLt
    refine ⟨?_, ?_, time_dinShown .., fun k _ hk => ?_, edge_dinSeen ..⟩
    · rw [get_dinSeen, level_dinShown hn, if_pos rfl]
    · rw [get_dinSeen, unc_dinShown hn, timeState_passTo]
      rw [Bool.eq_iff_iff, bne_iff_ne, decide_eq_true_eq]
    · rw [get_dinSeen, level_dinShown hn, if_neg hk, get_passTo]

/-- Settles O34: the stamp queue's head, and each write, instant and edge of an output and each confirmed edge of an input by its cases. -/
theorem stampsTriggersAndInputs : Obligations.StampsTriggersAndInputs := ⟨stampsAndTriggerEnables, triggersAndInputs⟩

end Sys2Proof.Machine
end

section
/-! PROOF. What sending leaves of a port's registers: its preemption, its threshold and the counters of what it has sent (R339-R350). -/
namespace Sys2Proof.Machine

/-! ## Words outside the ports -/

section
variable {S T : Nat → Prop}

theorem Dev.Kept.mono {d e : Dev} (h : Dev.Kept T d e) (hst : ∀ k, S k → T k) : Dev.Kept S d e := ⟨fun k hk => h.word k (hst k hk)⟩

theorem Dev.Kept.inc {d e : Dev} (h : Dev.Kept S d e) {f : Fld} (hf : ¬S f.key) : Dev.Kept S d (e.inc f) := h.set hf _

end

theorem not_timeAndPorts_of_lt {k : Nat} (h : k < 0x40000) : ¬timeAndPorts k := fun hk => absurd hk.1 (by omega)

theorem kept_hostWrite (h a : Nat) (bs : List Byte) (d : Dev) : Dev.Kept timeAndPorts d (d.hostWrite h a bs) :=
  (eventOnly_hostWrite h a bs d).logOnly.kept

theorem kept_outStart (p : Nat) (i : TxItem) (d : Dev) : Dev.Kept timeAndPorts d (outStart p i d) := by
  unfold outStart
  split
  · refine .ite (Dev.Kept.trans ?_ (logOnly_raiseMs (s := 50) _ (by decide)).kept) (.refl d)
    exact (Dev.Kept.refl d).inc (not_timeAndPorts_of_le (by simp only [COL_OS_LATE]; omega))
  · exact .refl d

theorem kept_putPort {S : Nat → Prop} {d e : Dev} (h : Dev.Kept S d e) (p : Nat) (x : EthPort) : Dev.Kept S d (e.putPort p x) := h.regs rfl

theorem kept_txStart (p : Nat) (d : Dev) : Dev.Kept timeAndPorts d (txStart p d) := by
  unfold txStart
  dsimp only
  split
  · exact .refl d
  · split
    · exact kept_putPort (.refl d) p _
    · split
      · exact kept_putPort (.refl d) p _
      · split
        · exact (kept_putPort (.refl d) p _).trans (kept_outStart ..)
        · exact .refl d

theorem kept_txUncount (i : TxItem) (d : Dev) : Dev.Kept timeAndPorts d (txUncount i d) := by
  unfold txUncount
  split
  · exact ((Dev.Kept.refl d).set (not_timeAndPorts_of_le (by simp only [COL_OS_SENT]; omega)) _).inc
      (not_timeAndPorts_of_le (by simp only [COL_OS_NOT_SENT]; omega))
  · exact ((Dev.Kept.refl d).set (f := DET_NOTICE_SENT) (not_timeAndPorts_of_le (by decide)) _).inc (f := DET_NOTICE_NOT_SENT)
      (not_timeAndPorts_of_le (by decide))
  · exact .refl d

/-! ## Words of a port -/

/-- ETHn_MM, ETHn_MM_STAT and ETHn_TXCFG of port `p`, and its counters 14 to 17. -/
def portKept (p k : Nat) : Prop :=
  (0x50018 + p * 0x4000 ≤ k ∧ k ≤ 0x50020 + p * 0x4000) ∨ (0x50238 + p * 0x4000 ≤ k ∧ k ≤ 0x50244 + p * 0x4000)

section
variable {p : Nat}

theorem not_portKept_low {k : Nat} (h : k < 0x50018) : ¬portKept p k := by
  unfold portKept
  omega

theorem not_portKept_cfg : ¬portKept p (ETH_CFG p).key := by
  simp only [portKept, ETH_CFG]
  omega

theorem not_portKept_stat : ¬portKept p (ETH_STAT p).key := by
  simp only [portKept, ETH_STAT]
  omega

theorem not_portKept_evt : ¬portKept p (ETH_EVT p).key := by
  simp only [portKept, ETH_EVT]
  omega

theorem not_portKept_cnt {k : Nat} (h : 18 ≤ k) : ¬portKept p (ETH_CNT p k).key := by
  simp only [portKept, ETH_CNT]
  omega

theorem not_portKept_head (h : Nat) : ¬portKept p (ETH_TXR_HEAD p h).key := by
  simp only [portKept, ETH_TXR_HEAD]
  omega

theorem kept_ethCount {k : Nat} (hk : 18 ≤ k) (d : Dev) : Dev.Kept (portKept p) d (ethCount p k d) :=
  (Dev.Kept.refl d).inc (not_portKept_cnt hk)

theorem kept_ethOpen (d : Dev) : Dev.Kept (portKept p) d (ethOpen p d) := by
  have shown : Dev.Kept (portKept p) d (d.set (ETH_CFG_result p) (ethEnableCode p d)) := (Dev.Kept.refl d).set (f := ETH_CFG_result p) not_portKept_cfg _
  exact .ite ((shown.set (f := ETH_CFG_state p) not_portKept_cfg _).set (f := ETH_CFG_enable p) not_portKept_cfg _)
    (shown.set (f := ETH_CFG_enable p) not_portKept_cfg _)

variable (hp : p < 4)
include hp

theorem portKept_timeAndPorts (k : Nat) (hk : portKept p k) : timeAndPorts k := by
  simp only [portKept] at hk
  unfold timeAndPorts
  omega

/-- What leaves the words of all ports leaves those of one. -/
theorem Dev.Kept.port {d e : Dev} (h : Dev.Kept timeAndPorts d e) : Dev.Kept (portKept p) d e := h.mono (portKept_timeAndPorts hp)

theorem not_portKept_of_le {k : Nat} (h : 0x60000 ≤ k) : ¬portKept p k := fun hk => not_timeAndPorts_of_le h (portKept_timeAndPorts hp k hk)

theorem kept_ethEvent {cause : Nat} (d : Dev) : Dev.Kept (portKept p) d (ethEvent p cause d) := by
  have raised (x : Nat) (hx : x < 4) (e : Dev) : Dev.Kept (portKept p) e (raiseMs (20 + 4 * p + x) e) :=
    (logOnly_raiseMs e (by omega)).kept.port hp
  unfold ethEvent
  dsimp only
  refine ((Dev.Kept.refl d).set (f := ETH_EVT_cause p) not_portKept_evt _).trans (raised _ ?_ _)
  split
  · decide
  · split
    · decide
    · split <;> decide

theorem kept_holdStart (ns : Nat) (d : Dev) : Dev.Kept (portKept p) d (holdStart p ns d) := by
  unfold holdStart
  extract_lets e held tot d1
  have h1 : Dev.Kept (portKept p) d d1 := (Dev.Kept.refl d).set (f := ETH_CNT p 21) (not_portKept_cnt (by decide)) _
  refine .ite (Dev.Kept.trans ?_ ((kept_txStart p _).port hp)) ?_
  · exact (kept_putPort h1 p _).set (f := ETH_STAT_paused p) not_portKept_stat _
  · exact (kept_putPort h1 p _).set (f := ETH_STAT_paused p) not_portKept_stat _

theorem kept_txHold (d : Dev) : Dev.Kept (portKept p) d (txHold p d) := by
  unfold txHold
  split
  · exact kept_holdStart hp _ d
  · exact .refl d

theorem kept_txPreempt (d : Dev) : Dev.Kept (portKept p) d (txPreempt p d) := by
  unfold txPreempt
  dsimp only
  split
  · split
    · have drawn : Dev.Kept (portKept p) d d.drawNat.2 := (Dev.Kept.refl d).regs rfl
      split
      · exact drawn
      · have counted (c : TxItem) : Dev.Kept (portKept p) d.drawNat.2 (if c.preempted then d.drawNat.2 else ethCount p 20 d.drawNat.2) :=
          .ite (.refl _) (kept_ethCount (by decide) _)
        exact (((kept_putPort (drawn.trans (counted _)) p _).trans (kept_txHold hp _))).trans ((kept_txStart p _).port hp)
    · exact .refl d
  · exact .refl d

theorem kept_txWriteBack (h first count status stamp : Nat) (ts irq : Bool) (d : Dev) :
    Dev.Kept (portKept p) d (txWriteBack p h first count status stamp ts irq d) := by
  unfold txWriteBack
  extract_lets d1 d2 d3
  have h1 : Dev.Kept (portKept p) d d1 := .forN (fun k d => (kept_hostWrite ..).port hp) count d
  have h2 : Dev.Kept (portKept p) d1 d2 := .ite ((kept_hostWrite ..).port hp) (.refl d1)
  have h3 : Dev.Kept (portKept p) d d3 := (h1.trans h2).set (f := ETH_TXR_HEAD_head p h) (not_portKept_head h) _
  exact .ite (h3.trans (kept_ethEvent hp d3)) h3

theorem kept_txDrop (i : TxItem) (d : Dev) : Dev.Kept (portKept p) d (txDrop p i d) := by
  have counted : Dev.Kept (portKept p) d (if d.xingDead (1 + p) then xdrop d else ethCount p 19 d) :=
    .ite ((Dev.Kept.refl d).inc (f := GCTL_XDROP) (not_portKept_low (by decide))) (kept_ethCount (by decide) d)
  unfold txDrop
  dsimp only
  split
  · exact counted.trans (kept_txWriteBack hp ..)
  · exact counted

theorem kept_txDiscard (i : TxItem) (d : Dev) : Dev.Kept (portKept p) d (txDiscard p i d) := by
  unfold txDiscard
  dsimp only
  split
  · exact (kept_txDrop hp i d).inc (not_portKept_of_le hp (by simp only [COL_OS_NOT_SENT]; omega))
  · exact (kept_txDrop hp i d).inc (f := DET_NOTICE_NOT_SENT) (not_portKept_of_le hp (by decide))
  · exact kept_txDrop hp i d

theorem kept_ethSend (i : TxItem) (d : Dev) : Dev.Kept (portKept p) d (ethSend p i d) := by
  unfold ethSend
  dsimp only
  split
  · exact kept_txDiscard hp i d
  · refine Dev.Kept.trans (Dev.Kept.trans (kept_putPort ?_ p _) ((kept_txStart p _).port hp)) (kept_txPreempt hp _)
    split
    · exact (Dev.Kept.refl d).inc (not_portKept_of_le hp (by simp only [COL_OS_SENT]; omega))
    · exact (Dev.Kept.refl d).inc (f := DET_NOTICE_SENT) (not_portKept_of_le hp (by decide))
    · exact .refl d

theorem kept_txFlush (d : Dev) : Dev.Kept (portKept p) d (txFlush p d) := by
  unfold txFlush
  extract_lets e its d1
  have dropped (d : Dev) : Dev.Kept (portKept p) d (forL its (fun i d => txUncount i (txDrop p i d)) d) :=
    .forL (fun i d => (kept_txDrop hp i d).trans ((kept_txUncount i _).port hp)) its d
  exact ((kept_putPort (.refl d) p _).trans (dropped d1)).trans (kept_txHold hp _)

theorem kept_txFetch (h fuel : Nat) (d : Dev) : Dev.Kept (portKept p) d (txFetch p h fuel d) := by
  induction fuel generalizing d with
  | zero => exact .refl d
  | succ fuel ih =>
    unfold txFetch
    dsimp only
    split
    · exact .refl d
    · split
      · exact .refl d
      · split
        · have counted : Dev.Kept (portKept p) d (ethCount p 18 d) := kept_ethCount (by decide) d
          exact ((counted.trans (kept_txWriteBack hp ..)).trans (kept_ethEvent hp _)).trans (ih _)
        · exact (kept_ethSend hp _ d).trans (ih _)

theorem kept_portFlush (d : Dev) : Dev.Kept (portKept p) d (portFlush p d) :=
  (kept_txFlush hp d).trans (.forN (fun h d => kept_txFetch hp h _ d) 2 _)

theorem kept_ethReachOff (d : Dev) : Dev.Kept (portKept p) d (ethReachOff p d) := by
  unfold ethReachOff
  dsimp only
  split
  · have flushed : Dev.Kept (portKept p) d (portFlush p (d.set (ETH_CFG_state p) 0)) :=
      ((Dev.Kept.refl d).set (f := ETH_CFG_state p) not_portKept_cfg 0).trans (kept_portFlush hp _)
    have taken := flushed.set (f := ETH_CFG_enable_pending p) not_portKept_cfg (b2n false)
    exact .ite (.ite (taken.trans (kept_ethOpen _)) taken) flushed
  · exact .refl d

theorem kept_putTxq (q : List TxStamp) (d : Dev) : Dev.Kept (portKept p) d (d.putTxq p q) := by
  have stat : ¬portKept p (TBS_P_TXQ_STAT p).key := not_portKept_low (by simp only [TBS_P_TXQ_STAT]; omega)
  unfold Dev.putTxq
  refine Dev.Kept.set ?_ (f := TBS_P_TXQ_STAT_count p) stat _
  exact (Dev.Kept.refl d).regs rfl

theorem kept_txqPush (t : TxStamp) (d : Dev) : Dev.Kept (portKept p) d (txqPush p t d) := by
  have stat : ¬portKept p (TBS_P_TXQ_STAT p).key := not_portKept_low (by simp only [TBS_P_TXQ_STAT]; omega)
  have raised {s : Nat} (hs : s < 128) (e : Dev) : Dev.Kept (portKept p) e (raise s e) := (logOnly_raise e hs).kept.port hp
  unfold txqPush
  extract_lets q d1
  refine .ite (Dev.Kept.trans ?_ (raised (by decide) _)) ?_
  · exact ((Dev.Kept.refl d).set (f := TBS_P_TXQ_STAT_overflow p) stat _).inc (f := TBS_P_TXQ_STAT_ovf_count p) stat
  · have h1 : Dev.Kept (portKept p) d d1 := kept_putTxq hp _ d
    exact .ite (h1.trans (raised (by decide) _)) h1

theorem kept_ptpSend (bs : List Byte) (d : Dev) : Dev.Kept (portKept p) d (ptpSend p bs d) := kept_ethSend hp _ d

theorem kept_ptpTxStamped (frame : List Byte) (stamp : Int) (d : Dev) : Dev.Kept (portKept p) d (ptpTxStamped p frame stamp d) := by
  unfold ptpTxStamped
  extract_lets tagged b x t3 mine corr
  split
  · exact (Dev.Kept.refl d).regs rfl
  · split
    · refine Dev.Kept.trans ?_ (kept_ptpSend hp _ _)
      exact (Dev.Kept.refl d).regs rfl
    · exact .refl d

theorem kept_txComplete (i : TxItem) (stamp : Int) (d : Dev) : Dev.Kept (portKept p) d (txComplete p i stamp d) := by
  unfold txComplete
  extract_lets queueStamp
  have queued (d : Dev) : Dev.Kept (portKept p) d (queueStamp d) := by
    unfold queueStamp
    split
    · exact kept_txqPush hp _ d
    · exact .refl d
  split
  · exact Dev.Kept.trans (.ite (queued d) (.refl d)) (kept_ptpTxStamped hp ..)
  · exact (queued d).trans (kept_txWriteBack hp ..)
  · exact .refl d

end

end Sys2Proof.Machine
end

section
/-! PROOF. Frames that are received and frames that are sent (O36). -/
namespace Sys2Proof.Machine

/-! ## Frames and bytes are counted (R334, R339) -/

theorem Dev.get2_set2_same (d : Dev) {lo hi : Fld} (h : lo.key ≠ hi.key) (hl : lo.inWord = true) (hh : hi.inWord = true) (wl : lo.width = 32)
    (wh : hi.width = 32) {v : Nat} (hv : v < 2 ^ 64) : (d.set2 lo hi v).get2 lo hi = v := by
  unfold Dev.get2
  rw [Dev.set2_eq, Dev.get_set_ne _ hi lo _ h, Dev.get_set_same d lo v hl, Dev.get_set_same _ hi _ hh, wl, wh]
  omega

theorem ethCnt_ne (p : Nat) {j k : Nat} (h : j ≠ k) : (ETH_CNT p j).key ≠ (ETH_CNT p k).key := by
  simp only [ETH_CNT]
  omega

/-- A frame of `n` bytes with its FCS is counted in counter `k` and the pair behind it. -/
def frameCounted (p k n : Nat) (d : Dev) : Dev := ethCount2 p (k + 1) n (ethCount p k d)

section
variable (p k n : Nat) (d : Dev)

theorem sameBut_frameCounted : d.SameBut (fun j => j = (ETH_CNT p k).key ∨ j = (ETH_CNT p (k + 1)).key ∨ j = (ETH_CNT p (k + 2)).key) (frameCounted p k n d) :=
  (((Dev.SameBut.refl _ d).set (ETH_CNT p k) (.inl rfl) _).set (ETH_CNT p (k + 1)) (.inr (.inl rfl)) _).set (ETH_CNT p (k + 2)) (.inr (.inr rfl)) _

theorem get_frameCounted : (frameCounted p k n d).get (ETH_CNT p k) = min (d.get (ETH_CNT p k) + 1) 4294967295 :=
  (Dev.get_set_ne _ (ETH_CNT p (k + 2)) _ _ (ethCnt_ne p (by omega))).trans
    ((Dev.get_set_ne _ (ETH_CNT p (k + 1)) _ _ (ethCnt_ne p (by omega))).trans (Dev.get_inc_same d (ETH_CNT p k) rfl))

theorem get2_frameCounted : (frameCounted p k n d).get2 (ETH_CNT p (k + 1)) (ETH_CNT p (k + 2)) =
    min (d.get2 (ETH_CNT p (k + 1)) (ETH_CNT p (k + 2)) + n) (2 ^ 64 - 1) := by
  have counted (j : Nat) (hj : j ≠ k) : (ethCount p k d).get (ETH_CNT p j) = d.get (ETH_CNT p j) := Dev.get_set_ne d (ETH_CNT p k) _ _ (ethCnt_ne p hj)
  have before : (ethCount p k d).get2 (ETH_CNT p (k + 1)) (ETH_CNT p (k + 2)) = d.get2 (ETH_CNT p (k + 1)) (ETH_CNT p (k + 2)) := by
    unfold Dev.get2
    rw [counted _ (by omega), counted _ (by omega)]
  unfold frameCounted ethCount2
  rw [before]
  exact Dev.get2_set2_same _ (ethCnt_ne p (by omega)) rfl rfl rfl rfl (by omega)

end

/-! ## Reception (R334-R336) -/

/-- The frame as it is handed over. -/
def rxFrameOf (p capture : Nat) (bs : List Byte) (d : Dev) : RxFrame :=
  { port := p, stamp := d.rxStamp p capture, bytes := (untag bs).2.2.2, raw := bs, tci := (untag bs).2.1, tagged := (untag bs).2.2.1,
    locked := d.timeState == 3, utc := d.getI TBS_UTC_utc_offset }

section
variable {p capture : Nat} {bs : List Byte} {e : RxError} {d : Dev}

theorem frameRx_lost (h : (passTo capture d).get (ETH_CFG_state p) ≠ 1 ∨ (passTo capture d).flag (ETH_STAT_link p) = false) :
    frameRx p bs e capture d = passTo capture d := if_pos (by simpa using h)

variable (hs : (passTo capture d).get (ETH_CFG_state p) = 1) (hl : (passTo capture d).flag (ETH_STAT_link p) = true)
include hs hl

theorem frameRx_dropped {k : Nat} (hk : rxDropCounter p bs e (passTo capture d) = some k) :
    frameRx p bs e capture d = (passTo capture d).inc (ETH_CNT p k) := by
  refine (if_neg (by simp [hs, hl])).trans ?_
  rw [hk]
  rfl

theorem frameRx_accepted (hk : rxDropCounter p bs e (passTo capture d) = none) :
    frameRx p bs e capture d = classify p (rxFrameOf p capture bs (frameCounted p 0 (bs.length + 4) (passTo capture d)))
      (frameCounted p 0 (bs.length + 4) (passTo capture d)) := by
  refine (if_neg (by simp [hs, hl])).trans ?_
  rw [hk]
  rfl

end

/-- The counters stand behind the registers that a stamp or a time state reads. -/
theorem frameCounted_shown (p k n : Nat) (d : Dev) (f : Fld) (hf : f.key < 0x50200 + p * 0x4000) :
    (frameCounted p k n d).get f = d.get f := by
  refine (sameBut_frameCounted p k n d).get ?_
  simp only [ETH_CNT]
  omega

theorem stamp_rxFrameOf (p capture : Nat) (bs : List Byte) (n : Nat) (d : Dev) (hp : p < 4) :
    (rxFrameOf p capture bs (frameCounted p 0 n d)).stamp = ((capture : Int) - (d.fixedCorr p).1) * 65536 - toInt 32 (d.get (TBS_P_RXADJ p)) * 4096 := by
  have same := frameCounted_shown p 0 n d
  have corr : (frameCounted p 0 n d).fixedCorr p = d.fixedCorr p := by
    unfold Dev.fixedCorr
    rw [same (ETH_CFG_speed p) (by simp only [ETH_CFG_speed]; omega), Dev.flag_eq, same (ETH_CFG_fec p) (by simp only [ETH_CFG_fec]; omega), ← Dev.flag_eq]
  unfold rxFrameOf Dev.rxStamp Dev.getI
  rw [corr, same (TBS_P_RXADJ p) (by simp only [TBS_P_RXADJ]; omega)]
  rfl

theorem locked_rxFrameOf (p capture : Nat) (bs : List Byte) (n : Nat) (d : Dev) :
    (rxFrameOf p capture bs (frameCounted p 0 n d)).locked = decide (d.timeState = 3) := by
  have state : (frameCounted p 0 n d).timeState = d.timeState := frameCounted_shown p 0 n d TBS_STATE_state (by simp only [TBS_STATE_state]; omega)
  unfold rxFrameOf
  rw [state]
  rfl

/-! ## The end of a PAUSE hold (R342) -/

theorem port_putPort (p : Nat) (x : EthPort) (d : Dev) : (d.putPort p x).port p = x :=
  (congrArg (fun o => o.getD {}) (lookup_insertKey_same p x d.eth.ports) :)

theorem eth_outStart (p : Nat) (i : TxItem) (d : Dev) : (outStart p i d).eth = d.eth := by
  unfold outStart
  split
  · split
    · exact (eventOnly_raiseMs (s := 50) _ (by decide)).eth
    · rfl
  · rfl

/-- The PAUSE hold of a port: its end and the time held. -/
def Dev.holdOf (d : Dev) (p : Nat) : Option Nat × Nat := ((d.port p).holdEnd, (d.port p).held)

theorem holdOf_outStart (p : Nat) (i : TxItem) (d : Dev) : (outStart p i d).holdOf p = d.holdOf p := by
  unfold Dev.holdOf Dev.port
  rw [eth_outStart]

theorem holdOf_putPort (p : Nat) (x : EthPort) (d : Dev) : (d.putPort p x).holdOf p = (x.holdEnd, x.held) := by
  unfold Dev.holdOf
  rw [port_putPort]

/-- A frame that starts changes no hold. -/
theorem holdOf_txStart (p : Nat) (d : Dev) : (txStart p d).holdOf p = d.holdOf p := by
  unfold txStart
  dsimp only
  split
  · rfl
  · split
    · exact holdOf_putPort ..
    · split
      · exact holdOf_putPort ..
      · split
        · exact (holdOf_outStart ..).trans (holdOf_putPort ..)
        · rfl

/-- The hold of a port is over, before the next frame starts. -/
def holdEnded (p : Nat) (d : Dev) : Dev :=
  let e := d.port p
  let tot := e.held + match e.holdEnd with | some _ => d.time.elapsed - e.holdFrom | none => 0
  (((d.set (ETH_CNT p 21) (min (tot / 4000) (2 ^ 32 - 1))).putPort p { e with holdEnd := none, holdNext := none, held := tot }).setFlag (ETH_STAT_paused p) false)

theorem holdStart_zero (p : Nat) (d : Dev) : holdStart p 0 d = txStart p (holdEnded p d) := rfl

theorem holdOf_holdEnded {p t : Nat} {d : Dev} (h : (d.port p).holdEnd = some t) :
    (holdEnded p d).holdOf p = (none, (d.port p).held + (d.time.elapsed - (d.port p).holdFrom)) := by
  have put (e : Dev) (b : Bool) : (e.setFlag (ETH_STAT_paused p) b).holdOf p = e.holdOf p := rfl
  unfold holdEnded
  rw [put, holdOf_putPort, h]

theorem paused_holdStart {p : Nat} (hp : p < 4) (d : Dev) : (holdStart p 0 d).flag (ETH_STAT_paused p) = false := by
  have range : timeAndPorts (ETH_STAT_paused p).key := by
    simp only [timeAndPorts, ETH_STAT_paused]
    omega
  rw [holdStart_zero, Dev.flag_eq, (kept_txStart p _).get range]
  exact Dev.flag_setFlag_same _ (ETH_STAT_paused p) false rfl rfl

theorem port_passElapsed (t p : Nat) (d : Dev) : (passElapsed t d).port p = d.port p := by rw [passElapsed_rest]; rfl

theorem pauseHoldEnd_none {p : Nat} {d : Dev} (h : (d.port p).holdEnd = none) : pauseHoldEnd p d = d := by
  unfold pauseHoldEnd
  rw [h]

theorem pauseHoldEnd_some {p t : Nat} {d : Dev} (h : (d.port p).holdEnd = some t) : pauseHoldEnd p d = atElapsed t (holdStart p 0) d := by
  unfold pauseHoldEnd
  rw [h]

theorem framesAreReceived : Rules.FramesAreReceived := by
  intro s p hr
  refine ⟨fun bytes err capture => ?_, fun h => settles_of rfl hr (pauseHoldEnd_none h),
    fun t h ht => settles_of rfl hr ((pauseHoldEnd_some h).trans (atElapsed_early (Nat.not_le.mp ht))), fun t h ht => ?_⟩
  · intro x
    refine ⟨fun h => settles_of rfl hr (frameRx_lost h), fun hs hl k hk => settles_of rfl hr (frameRx_dropped hs hl hk), fun hs hl hk => ?_⟩
    refine ⟨frameCounted p 0 (bytes.length + 4) x, rxFrameOf p capture bytes (frameCounted p 0 (bytes.length + 4) x),
      settles_of rfl hr (frameRx_accepted hs hl hk), get_frameCounted p 0 _ x, get2_frameCounted p 0 _ x, sameBut_frameCounted p 0 _ x, rfl, rfl, ?_, ?_⟩
    · exact locked_rxFrameOf ..
    · exact stamp_rxFrameOf _ _ _ _ _ p.isLt
  · have ended := (holdOf_txStart p.val (holdEnded p (passElapsed t s.dev))).trans (holdOf_holdEnded ((congrArg _ (port_passElapsed t p s.dev)).trans h))
    rw [port_passElapsed] at ended
    exact ⟨_, settles_of rfl hr ((pauseHoldEnd_some h).trans (atElapsed_reached ht)), congrArg Prod.fst ended, paused_holdStart p.isLt _, congrArg Prod.snd ended⟩

/-! ## The end of a transmission (R68, R339) -/

/-- The words of a device and of what becomes of it, counted before. -/
theorem sent_of_kept {p n : Nat} {d e : Dev} (h : Dev.Kept (portKept p) (frameCounted p 14 n d) e) :
    e.get (ETH_CNT p 14) = min (d.get (ETH_CNT p 14) + 1) 4294967295 ∧
      e.get2 (ETH_CNT p 15) (ETH_CNT p 16) = min (d.get2 (ETH_CNT p 15) (ETH_CNT p 16) + n) (2 ^ 64 - 1) := by
  have counter {j : Nat} (h1 : 14 ≤ j) (h2 : j ≤ 17) : portKept p (ETH_CNT p j).key := by
    simp only [portKept, ETH_CNT]
    omega
  refine ⟨(h.get (counter (by decide) (by decide))).trans (get_frameCounted p 14 n d), ?_⟩
  rw [← get2_frameCounted p 14 n d]
  unfold Dev.get2
  rw [h.get (counter (by decide) (by decide)), h.get (counter (by decide) (by decide))]

theorem txFrameEnd_idle {p capture : Nat} {d : Dev} (h : ((passTo capture d).port p).current = none) : txFrameEnd p capture d = passTo capture d := by
  unfold txFrameEnd
  dsimp only
  rw [h]

/-- The port is free again. -/
def Dev.portFreed (d : Dev) (p : Nat) : Dev := d.putPort p { d.port p with current := none }

theorem get_portFreed (d : Dev) (p : Nat) (f : Fld) : (d.portFreed p).get f = d.get f := rfl

theorem txFrameEnd_keeps {p capture : Nat} (hp : p < 4) {d : Dev} {i : TxItem} (h : ((passTo capture d).port p).current = some i) :
    Dev.Kept (portKept p) (frameCounted p 14 (i.bytes.length + 4) ((passTo capture d).portFreed p)) (txFrameEnd p capture d) := by
  have fetched (e : Dev) : Dev.Kept (portKept p) e (match i.kind with
      | .host h _ _ _ _ _ => txFetch p h (2 ^ e.get (ETH_TXR_CTRL_log2_ndesc p h)) e
      | _ => e) := by
    split
    · exact kept_txFetch hp _ _ e
    · exact .refl e
  unfold txFrameEnd
  dsimp only
  rw [h]
  refine Dev.Kept.trans ?_ (((kept_txStart p _).port hp).trans (kept_ethReachOff hp _))
  exact ((kept_txHold hp _).trans (kept_txComplete hp ..)).trans (fetched _)

/-! ## An underrun (R350) -/

section
variable {p : Nat} {d : Dev}

theorem txUnderrun_none (h : (d.port p).current = none) : txUnderrun p d = d := by
  unfold txUnderrun
  dsimp only
  rw [h]

theorem txUnderrun_own {i : TxItem} (h : (d.port p).current = some i) (hk : ∀ h first count ts irq ev, i.kind ≠ .host h first count ts irq ev) :
    txUnderrun p d = d := by
  unfold txUnderrun
  dsimp only
  rw [h]
  dsimp only
  split
  next hh => exact absurd hh (hk _ _ _ _ _ _)
  next => rfl

/-- The frame ends with an inverted FCS, and its descriptors say so. -/
def underrunShown (p h first count : Nat) (irq : Bool) (d : Dev) : Dev :=
  txWriteBack p h first count 1 0 false irq (ethCount p 17 (txHold p (d.portFreed p)))

/-- The threshold rises. -/
def thresholdRaised (p : Nat) (d : Dev) : Dev := d.set (ETH_TXCFG_cut_thr p) (min (d.get (ETH_TXCFG_cut_thr p) + 1) 36)

theorem txUnderrun_host {i : TxItem} {h first count : Nat} {ts irq ev : Bool} (hc : (d.port p).current = some i)
    (hk : i.kind = .host h first count ts irq ev) : txUnderrun p d = if i.hostLen ≤ 256 * i.thr then d else
      let e := ethEvent p 4 (thresholdRaised p (underrunShown p h first count irq d))
      ethReachOff p (txStart p (txFetch p h (2 ^ e.get (ETH_TXR_CTRL_log2_ndesc p h)) e)) := by
  unfold txUnderrun
  dsimp only
  rw [hc]
  dsimp only
  rw [hk]
  rfl

theorem portKept_cnt17 : portKept p (ETH_CNT p 17).key := by
  simp only [portKept, ETH_CNT]
  omega

theorem portKept_txcfg : portKept p (ETH_TXCFG_cut_thr p).key := by
  simp only [portKept, ETH_TXCFG_cut_thr]
  omega

theorem cnt17_ne_txcfg : (ETH_CNT p 17).key ≠ (ETH_TXCFG_cut_thr p).key := by
  simp only [ETH_CNT, ETH_TXCFG_cut_thr]
  omega

variable (hp : p < 4) (h first count : Nat) (irq : Bool)
include hp

theorem kept_underrunShown : Dev.Kept (portKept p) (ethCount p 17 (txHold p (d.portFreed p))) (underrunShown p h first count irq d) := kept_txWriteBack hp ..

/-- The counter and the threshold after an underrun (R350). -/
theorem underrun_fields :
    (thresholdRaised p (underrunShown p h first count irq d)).get (ETH_CNT p 17) = min (d.get (ETH_CNT p 17) + 1) 4294967295 ∧
      (thresholdRaised p (underrunShown p h first count irq d)).get (ETH_TXCFG_cut_thr p) = min (d.get (ETH_TXCFG_cut_thr p) + 1) 36 := by
  have held := kept_txHold hp (d.portFreed p)
  have shown := kept_underrunShown (d := d) hp h first count irq
  have thr : (underrunShown p h first count irq d).get (ETH_TXCFG_cut_thr p) = d.get (ETH_TXCFG_cut_thr p) :=
    (shown.get portKept_txcfg).trans ((Dev.get_set_ne _ (ETH_CNT p 17) _ _ cnt17_ne_txcfg.symm).trans (held.get portKept_txcfg))
  unfold thresholdRaised
  refine ⟨(Dev.get_set_ne _ (ETH_TXCFG_cut_thr p) _ _ cnt17_ne_txcfg).trans ?_, ?_⟩
  · refine (shown.get portKept_cnt17).trans ((Dev.get_inc_same _ (ETH_CNT p 17) rfl).trans ?_)
    rw [held.get portKept_cnt17]
    rfl
  · rw [thr]
    exact Dev.get_set_fits _ (ETH_TXCFG_cut_thr p) rfl (show min _ 36 < 2 ^ 6 by omega)

end

theorem transmissionEnds : Rules.TransmissionEnds := by
  intro s p hr
  refine ⟨fun capture => ?_, fun h => settles_of rfl hr (txUnderrun_none h), fun it h hk => settles_of rfl hr (txUnderrun_own h hk),
    fun it h first count ts irq ev hc hk _ => ?_⟩
  · intro x
    refine ⟨fun h => settles_of rfl hr (txFrameEnd_idle h), fun it h => ⟨_, settles_of rfl hr rfl, ?_⟩⟩
    exact sent_of_kept (txFrameEnd_keeps p.isLt h)
  · refine ⟨fun hl => settles_of rfl hr ((txUnderrun_host hc hk).trans (if_pos hl)), fun hl =>
      ⟨_, settles_of rfl hr ((txUnderrun_host hc hk).trans (if_neg (Nat.not_le.mpr hl))), ?_⟩⟩
    obtain ⟨hcnt, hthr⟩ := underrun_fields (d := s.dev) p.isLt h first count irq
    have rest (e : Dev) (n : Nat) : Dev.Kept (portKept p) e (ethReachOff p (txStart p (txFetch p h n (ethEvent p 4 e)))) :=
      ((kept_ethEvent p.isLt e).trans (kept_txFetch p.isLt ..)).trans (((kept_txStart p.val _).port p.isLt).trans (kept_ethReachOff p.isLt _))
    exact ⟨((rest _ _).get portKept_cnt17).trans hcnt, ((rest _ _).get portKept_txcfg).trans hthr⟩

end Sys2Proof.Machine
end

section
/-! PROOF. Preemption is verified, and frames come and go (O36). -/
namespace Sys2Proof.Machine

/-! ## Attempts and responses (R340) -/

section
variable {p : Nat} {d : Dev}

theorem mmAttempt_idle (h1 : d.get (ETH_MM_STAT_verify p) ≠ 1) (h2 : d.get (ETH_MM_STAT_verify p) ≠ 2) : mmAttempt p d = d :=
  if_neg (by simp [h1, h2])

/-- The device at the instant of the next attempt. -/
def Dev.atAttempt (d : Dev) (p : Nat) : Dev := match (d.port p).verifyDue with
  | some t => passElapsed t d
  | none => d

/-- The attempt is made, or the verification has failed. -/
def mmAttempted (p : Nat) (d : Dev) : Dev :=
  if 3 ≤ (d.port p).attempts then d.set (ETH_MM_STAT_verify p) MmVerify.failed.code
  else (d.putPort p { d.port p with
    attempts := (d.port p).attempts + 1, verifyDue := some (d.time.elapsed + 4000000 * d.get (ETH_MM_verify_ms p)) }).set
      (ETH_MM_STAT_verify p) MmVerify.verifying.code

theorem mmAttempt_eq (h : d.get (ETH_MM_STAT_verify p) = 1 ∨ d.get (ETH_MM_STAT_verify p) = 2) : mmAttempt p d =
    if (d.atAttempt p).tbcRuns && decide ((d.atAttempt p).time.elapsed < ((d.atAttempt p).port p).verifyDue.getD 0) then d.atAttempt p
    else mmAttempted p (d.atAttempt p) := if_pos (by simpa using h)

theorem port_atAttempt : (d.atAttempt p).port p = d.port p := by
  unfold Dev.atAttempt
  split
  · exact port_passElapsed ..
  · rfl

theorem tbcRuns_passElapsed (t : Nat) : (passElapsed t d).tbcRuns = d.tbcRuns := by rw [passElapsed_rest]; rfl

theorem mmAttempt_early {t : Nat} (h : d.get (ETH_MM_STAT_verify p) = 1 ∨ d.get (ETH_MM_STAT_verify p) = 2) (hv : (d.port p).verifyDue = some t)
    (hr : d.tbcRuns = true) (ht : ¬d.ReachesElapsed t) : mmAttempt p d = passElapsed t d := by
  have due : d.atAttempt p = passElapsed t d := by
    unfold Dev.atAttempt
    rw [hv]
  rw [mmAttempt_eq h, due, port_passElapsed, hv, tbcRuns_passElapsed, hr]
  exact if_pos (by simpa using ht)

theorem mmAttempt_due (h : d.get (ETH_MM_STAT_verify p) = 1 ∨ d.get (ETH_MM_STAT_verify p) = 2)
    (hd : ∀ t, (d.port p).verifyDue = some t → d.tbcRuns = false ∨ d.ReachesElapsed t) : mmAttempt p d = mmAttempted p (d.atAttempt p) := by
  rw [mmAttempt_eq h, port_atAttempt]
  refine if_neg ?_
  unfold Dev.atAttempt
  cases hv : (d.port p).verifyDue with
  | none => simp
  | some t =>
    rcases hd t hv with hr | ht
    · simp [tbcRuns_passElapsed, hr]
    · simp [ht]

theorem mmAttempted_fields (p : Nat) (d : Dev) : if 3 ≤ (d.port p).attempts then (mmAttempted p d).get (ETH_MM_STAT_verify p) = 4
    else (mmAttempted p d).get (ETH_MM_STAT_verify p) = 2 ∧ ((mmAttempted p d).port p).attempts = (d.port p).attempts + 1 := by
  have port (e : Dev) (v : Nat) : (e.set (ETH_MM_STAT_verify p) v).port p = e.port p := rfl
  unfold mmAttempted
  split
  · exact Dev.get_set_fits d (ETH_MM_STAT_verify p) rfl (show 4 < 2 ^ 3 by decide)
  · refine ⟨Dev.get_set_fits _ (ETH_MM_STAT_verify p) rfl (show 2 < 2 ^ 3 by decide), ?_⟩
    rw [port, port_putPort]

theorem mmResponse_idle (h : d.get (ETH_MM_STAT_verify p) ≠ 2) : mmResponse p d = d := if_neg h

/-- The verification of port `p` ends in state `v`, and preemption is active or not. -/
def mmShown (p v : Nat) (active : Bool) (d : Dev) : Dev := (d.set (ETH_MM_STAT_verify p) v).setFlag (ETH_MM_STAT_active p) active

theorem mmResponse_verifying (h : d.get (ETH_MM_STAT_verify p) = 2) : mmResponse p d = txPreempt p (mmShown p 3 true d) := if_pos h

theorem get_verify_mmShown {v : Nat} (hv : v < 8) (active : Bool) (d : Dev) : (mmShown p v active d).get (ETH_MM_STAT_verify p) = v :=
  (Dev.get_set_sameWord _ _ (by decide) (by decide)).trans (Dev.get_set_fits d (ETH_MM_STAT_verify p) rfl (show v < 2 ^ 3 from hv))

theorem flag_active_mmShown (v : Nat) (active : Bool) (d : Dev) : (mmShown p v active d).flag (ETH_MM_STAT_active p) = active :=
  Dev.flag_setFlag_same _ (ETH_MM_STAT_active p) active rfl rfl

theorem sameBut_mmShown (p v : Nat) (active : Bool) (d : Dev) : d.SameBut (fun k => k = (ETH_MM_STAT p).key) (mmShown p v active d) :=
  ((Dev.SameBut.refl (fun k => k = (ETH_MM_STAT p).key) d).set (ETH_MM_STAT_verify p) rfl v).set (ETH_MM_STAT_active p) rfl _

end

/-! ## A write of ETHn_MM (R340) -/

/-- The fields of ETHn_MM beside the interval. -/
def mmFields (p v : Nat) (d : Dev) : Dev :=
  ((d.set (ETH_MM_pre_en p) (bits v 0 1)).set (ETH_MM_verify_dis p) (bits v 1 1)).set (ETH_MM_add_frag p) (bits v 2 2)

/-- The register as it is written: an interval out of range leaves the field. -/
def mmStored (p v : Nat) (d : Dev) : Dev :=
  if 1 ≤ bits v 4 8 && bits v 4 8 ≤ 128 then (mmFields p v d).set (ETH_MM_verify_ms p) (bits v 4 8) else mmFields p v d

/-- Verification starts again. -/
def mmRestart (p : Nat) (d : Dev) : Dev := d.putPort p { d.port p with attempts := 0, verifyDue := none }

theorem mmWrite_eq (p v : Nat) (d : Dev) : mmWrite p v d =
    if !(bits v 0 1 != d.get (ETH_MM_pre_en p) || bits v 1 1 != d.get (ETH_MM_verify_dis p)) then mmStored p v d
    else if bits v 0 1 = 0 then mmShown p 0 false (mmRestart p (mmStored p v d))
    else if bits v 1 1 = 1 then txPreempt p (mmShown p 0 true (mmRestart p (mmStored p v d)))
    else mmShown p 1 false (mmRestart p (mmStored p v d)) := rfl

section
variable (p v : Nat) (d : Dev)

theorem sameBut_mmStored : d.SameBut (fun k => k = (ETH_MM p).key) (mmStored p v d) := by
  have fields : d.SameBut (fun k => k = (ETH_MM p).key) (mmFields p v d) :=
    (((Dev.SameBut.refl (fun k => k = (ETH_MM p).key) d).set (ETH_MM_pre_en p) rfl _).set (ETH_MM_verify_dis p) rfl _).set (ETH_MM_add_frag p) rfl _
  unfold mmStored
  split
  · exact fields.set (ETH_MM_verify_ms p) rfl _
  · exact fields

theorem mmStat_ne_mm : (ETH_MM_STAT p).key ≠ (ETH_MM p).key := by
  simp only [ETH_MM_STAT, ETH_MM]
  omega

/-- What the register holds after the write. -/
theorem mmStored_fields : (mmStored p v d).get (ETH_MM_pre_en p) = v % 2 ∧ (mmStored p v d).get (ETH_MM_verify_dis p) = v / 2 % 2 ∧
    (mmStored p v d).get (ETH_MM_add_frag p) = v / 4 % 4 := by
  have fields : (mmFields p v d).get (ETH_MM_pre_en p) = v % 2 ∧ (mmFields p v d).get (ETH_MM_verify_dis p) = v / 2 % 2 ∧
      (mmFields p v d).get (ETH_MM_add_frag p) = v / 4 % 4 := by
    refine ⟨?_, ?_, ?_⟩
    · refine (Dev.get_set_sameWord _ _ (by decide) (by decide)).trans ((Dev.get_set_sameWord _ _ (by decide) (by decide)).trans ?_)
      refine (Dev.get_set_fits d (ETH_MM_pre_en p) rfl (bits_lt v 0 1)).trans ?_
      simp [bits]
    · refine (Dev.get_set_sameWord _ _ (by decide) (by decide)).trans ?_
      exact Dev.get_set_fits _ (ETH_MM_verify_dis p) rfl (bits_lt v 1 1)
    · exact Dev.get_set_fits _ (ETH_MM_add_frag p) rfl (bits_lt v 2 2)
  unfold mmStored
  split
  · have below {lo w : Nat} (h : lo + w ≤ 4) (x : Nat) : ((mmFields p v d).set (ETH_MM_verify_ms p) x).get ⟨0x50018 + p * 0x4000, lo, w⟩ =
        (mmFields p v d).get ⟨0x50018 + p * 0x4000, lo, w⟩ := Dev.get_set_sameWord _ _ (by decide) (.inr h)
    exact ⟨(below (by decide) _).trans fields.1, (below (by decide) _).trans fields.2.1, (below (by decide) _).trans fields.2.2⟩
  · exact fields

theorem get_mmRestart (f : Fld) : (mmRestart p d).get f = d.get f := rfl

/-- A verification that is shown leaves the register. -/
theorem get_mm_mmShown (x : Nat) (active : Bool) (lo w : Nat) :
    (mmShown p x active (mmRestart p d)).get ⟨0x50018 + p * 0x4000, lo, w⟩ = d.get ⟨0x50018 + p * 0x4000, lo, w⟩ :=
  (sameBut_mmShown p x active (mmRestart p d)).get (f := ⟨0x50018 + p * 0x4000, lo, w⟩) (mmStat_ne_mm p).symm

end

/-- What a write of ETHn_MM leaves of the register and of the verification. -/
structure MmAfter (p pre dis frag verify : Nat) (active : Bool) (e : Dev) : Prop where
  preEn : e.get (ETH_MM_pre_en p) = pre
  verifyDis : e.get (ETH_MM_verify_dis p) = dis
  addFrag : e.get (ETH_MM_add_frag p) = frag
  verify : e.get (ETH_MM_STAT_verify p) = verify
  active : e.flag (ETH_MM_STAT_active p) = active

theorem mmAfter_mmShown (p v : Nat) {x : Nat} (hx : x < 8) (active : Bool) (d : Dev) :
    MmAfter p (v % 2) (v / 2 % 2) (v / 4 % 4) x active (mmShown p x active (mmRestart p (mmStored p v d))) := by
  obtain ⟨hpre, hdis, hfrag⟩ := mmStored_fields p v d
  exact ⟨(get_mm_mmShown ..).trans hpre, (get_mm_mmShown ..).trans hdis, (get_mm_mmShown ..).trans hfrag, get_verify_mmShown hx .., flag_active_mmShown ..⟩

/-- A waiting express frame that may now preempt leaves these registers. -/
theorem MmAfter.txPreempt {p pre dis frag verify : Nat} {active : Bool} {e : Dev} (hp : p < 4) (h : MmAfter p pre dis frag verify active e) :
    MmAfter p pre dis frag verify active (txPreempt p e) := by
  have kept := kept_txPreempt hp e
  have mm (lo w : Nat) : (Machine.txPreempt p e).get ⟨0x50018 + p * 0x4000, lo, w⟩ = e.get ⟨0x50018 + p * 0x4000, lo, w⟩ :=
    kept.get (f := ⟨0x50018 + p * 0x4000, lo, w⟩) (.inl ⟨Nat.le_refl _, by simp only []; omega⟩)
  have stat (lo w : Nat) : (Machine.txPreempt p e).get ⟨0x5001C + p * 0x4000, lo, w⟩ = e.get ⟨0x5001C + p * 0x4000, lo, w⟩ :=
    kept.get (f := ⟨0x5001C + p * 0x4000, lo, w⟩) (.inl ⟨by simp only []; omega, by simp only []; omega⟩)
  exact ⟨(mm ..).trans h.preEn, (mm ..).trans h.verifyDis, (mm ..).trans h.addFrag, (stat ..).trans h.verify,
    (congrArg (· != 0) (stat ..)).trans h.active⟩

section
variable {p : Nat} (v : Nat) (d : Dev)

theorem mmWrite_same (h1 : v % 2 = d.get (ETH_MM_pre_en p)) (h2 : v / 2 % 2 = d.get (ETH_MM_verify_dis p)) : mmWrite p v d = mmStored p v d := by
  have pre : bits v 0 1 = v % 2 := by simp [bits]
  have dis : bits v 1 1 = v / 2 % 2 := rfl
  rw [mmWrite_eq]
  exact if_pos (by simp [pre, dis, h1, h2])

/-- A change restarts the verification (R340). -/
theorem mmWrite_changed (hp : p < 4) (h : v % 2 ≠ d.get (ETH_MM_pre_en p) ∨ v / 2 % 2 ≠ d.get (ETH_MM_verify_dis p)) :
    MmAfter p (v % 2) (v / 2 % 2) (v / 4 % 4) (if v % 2 = 1 ∧ v / 2 % 2 = 0 then 1 else 0) (decide (v % 2 = 1 ∧ v / 2 % 2 = 1)) (mmWrite p v d) := by
  have pre : bits v 0 1 = v % 2 := by simp [bits]
  have dis : bits v 1 1 = v / 2 % 2 := rfl
  have restarted : mmWrite p v d =
      if v % 2 = 0 then mmShown p 0 false (mmRestart p (mmStored p v d))
      else if v / 2 % 2 = 1 then txPreempt p (mmShown p 0 true (mmRestart p (mmStored p v d)))
      else mmShown p 1 false (mmRestart p (mmStored p v d)) := by
    rw [mmWrite_eq, pre, dis]
    exact if_neg (by simpa [Decidable.imp_iff_not_or] using h)
  rw [restarted]
  by_cases h0 : v % 2 = 0
  · rw [if_pos h0, if_neg (show ¬(v % 2 = 1 ∧ _) by omega), decide_eq_false (by omega)]
    exact mmAfter_mmShown p v (by decide) false d
  · by_cases h1 : v / 2 % 2 = 1
    · rw [if_neg h0, if_pos h1, if_neg (show ¬(v % 2 = 1 ∧ _) by omega), decide_eq_true (by omega)]
      exact (mmAfter_mmShown p v (by decide) true d).txPreempt hp
    · rw [if_neg h0, if_neg h1, if_pos (show v % 2 = 1 ∧ v / 2 % 2 = 0 by omega), decide_eq_false (by omega)]
      exact mmAfter_mmShown p v (by decide) false d

end

theorem regWrite_ethMm (m v : Nat) (p : Fin 4) (d : Dev) : regWrite {} m (0x50018 + 0x4000 * p.val) v d = mmWrite p v d := by
  have hp := p.isLt
  unfold regWrite
  rw [findRow_ethMm]
  dsimp only
  rw [if_neg (by simp; omega), if_neg (by omega), if_pos (by omega)]
  rfl

theorem regCmd_ethMm {d : Dev} {m v : Nat} {p : Port} (h : d.Writes m (0x50018 + 0x4000 * p.val) v) :
    regCmd m (0x50018 + 0x4000 * p.val) v d = mmWrite p v d := by
  have hp := p.isLt
  exact (regCmd_of_writes h (by omega) (by omega) (by omega)).trans (regWrite_ethMm m v p d)

theorem preemptionIsVerified : Rules.PreemptionIsVerified := by
  intro s p hr
  refine ⟨fun st hst => ?_, fun m v h => ⟨mmWrite p v.toNat s.dev, settles_of rfl hr (regCmd_ethMm h), ?_⟩⟩
  · subst hst
    refine ⟨fun h1 h2 => settles_of rfl hr (mmAttempt_idle h1 h2), fun h t hv ht hn => settles_of rfl hr (mmAttempt_early h hv ht hn),
      fun h hd => ⟨_, settles_of rfl hr (mmAttempt_due h hd), ?_⟩, fun h => settles_of rfl hr (mmResponse_idle h), fun h => ?_⟩
    · have fields := mmAttempted_fields p (s.dev.atAttempt p)
      rwa [port_atAttempt] at fields
    · exact ⟨mmShown p 3 true s.dev, get_verify_mmShown (by decide) .., flag_active_mmShown .., sameBut_mmShown .., settles_of rfl hr (mmResponse_verifying h)⟩
  · intro pre dis
    by_cases hc : pre = s.dev.get (ETH_MM_pre_en p) ∧ dis = s.dev.get (ETH_MM_verify_dis p)
    · obtain ⟨hpre, hdis, hfrag⟩ := mmStored_fields p v.toNat s.dev
      have same := sameBut_mmStored p v.toNat s.dev
      rw [mmWrite_same _ _ hc.1 hc.2]
      refine ⟨hpre, hdis, hfrag, fun _ _ => ⟨same.get (mmStat_ne_mm p), ?_⟩, fun h => ?_⟩
      · rw [same.2]
      · exact absurd h (by simp [hc.1, hc.2])
    · have after := mmWrite_changed v.toNat s.dev p.isLt (Decidable.not_and_iff_not_or_not.mp hc)
      exact ⟨after.preEn, after.verifyDis, after.addFrag, fun h1 h2 => absurd ⟨h1, h2⟩ hc, fun _ => ⟨after.verify, after.active⟩⟩

/-- Settles O36: the drop counter or the class of a frame, what the end of one leaves of the counters, and the verification's states. -/
theorem framesComeAndGo : Obligations.FramesComeAndGo := ⟨framesAreReceived, transmissionEnds, preemptionIsVerified⟩

end Sys2Proof.Machine
end

section
/-! PROOF. What the conditions looked at after a command leave alone, but for a teardown: the streams, the filter groups and the Collator. -/
namespace Sys2Proof.Machine

/-- The stream table, the filter groups, and the Collator but for the FINAL gatherings that DET takes from it. -/
def Dev.intake (d : Dev) : StrSt × FltSt × ColSt := (d.str, d.flt, { d.col with finals := [] })

section
variable {d e : Dev}

theorem TrafficOnly.intake (h : TrafficOnly d e) : e.intake = d.intake := by
  unfold Dev.intake
  rw [h.rest]

theorem intake_ite {c : Prop} [Decidable c] {a b : Dev} (ha : a.intake = d.intake) (hb : b.intake = d.intake) :
    (if c then a else b).intake = d.intake := by
  split
  · exact ha
  · exact hb

theorem intake_forN {f : Nat → Dev → Dev} (h : ∀ i d, (f i d).intake = d.intake) (n : Nat) (d : Dev) : (forN n f d).intake = d.intake :=
  forN_keeps (P := fun e => e.intake = d.intake) (fun i _ e he => (h i e).trans he) d rfl

theorem intake_forL {α : Type} {f : α → Dev → Dev} (h : ∀ a d, (f a d).intake = d.intake) (xs : List α) (d : Dev) :
    (forL xs f d).intake = d.intake :=
  forL_keeps (P := fun e => e.intake = d.intake) (fun a e he => (h a e).trans he) xs d rfl

theorem intake_iterate {f : Dev → Option Dev} (h : ∀ d e, f d = some e → e.intake = d.intake) (n : Nat) (d : Dev) :
    (iterate n f d).intake = d.intake := by
  induction n generalizing d with
  | zero => rfl
  | succ n ih =>
    unfold iterate
    split
    · rfl
    · next e he => exact (ih e).trans (h d e he)

end

section
variable (d : Dev)

/-! ## Events -/

theorem intake_hostWrite (e a : Nat) (bs : List Byte) : (d.hostWrite e a bs).intake = d.intake := (eventOnly_hostWrite e a bs d).traffic.intake

theorem intake_evPend (t s : Nat) : (evPend t s d).intake = d.intake := by
  unfold evPend msixSend
  exact intake_ite (intake_ite rfl (intake_hostWrite ..)) rfl

theorem intake_raise (s : Nat) : (raise s d).intake = d.intake := by
  have pend (c : Bool) (t : Nat) (e : Dev) : (if c then evPend t s e else e).intake = e.intake := intake_ite (intake_evPend ..) rfl
  unfold raise
  extract_lets d1 d2 d3
  have all : d3.intake = d.intake := (pend _ _ _).trans ((pend _ _ _).trans (pend _ _ _))
  exact intake_ite all all

theorem intake_raiseMs (s : Nat) : (raiseMs s d).intake = d.intake := by
  have merged : (raiseMerged s d).intake = d.intake := by
    unfold raiseMerged
    split
    · rfl
    · exact intake_ite rfl (intake_raise ..)
  unfold raiseMs
  exact intake_ite (intake_ite merged merged) ((intake_raise ..).trans merged)

/-! ## Sending over Ethernet -/

theorem intake_txStart (p : Nat) : (txStart p d).intake = d.intake := by
  have begun (i : TxItem) (e : Dev) : (outStart p i e).intake = e.intake := by
    unfold outStart
    split
    · exact intake_ite (intake_raiseMs ..) rfl
    · rfl
  unfold txStart
  refine intake_ite rfl ?_
  split
  · rfl
  · split
    · rfl
    · split
      · exact begun ..
      · rfl

theorem intake_txHold (p : Nat) : (txHold p d).intake = d.intake := by
  unfold txHold holdStart
  split
  · exact intake_ite (intake_txStart ..) rfl
  · rfl

theorem intake_txPreempt (p : Nat) : (txPreempt p d).intake = d.intake := by
  have counted (c : TxItem) (e : Dev) : (if c.preempted then e else ethCount p 20 e).intake = e.intake := intake_ite rfl rfl
  unfold txPreempt
  dsimp only
  split
  · exact intake_ite (intake_ite rfl ((intake_txStart ..).trans ((intake_txHold ..).trans (counted ..)))) rfl
  · rfl

theorem intake_txDrop (p : Nat) (i : TxItem) : (txDrop p i d).intake = d.intake := by
  have counted : (if d.xingDead (1 + p) then xdrop d else ethCount p 19 d).intake = d.intake := intake_ite rfl rfl
  have returned (h first count status stamp : Nat) (ts irq : Bool) (e : Dev) :
      (txWriteBack p h first count status stamp ts irq e).intake = e.intake := by
    unfold txWriteBack
    extract_lets e1 e2 e3
    have h1 : e1.intake = e.intake := intake_forN (fun _ _ => intake_hostWrite ..) _ _
    have h3 : e3.intake = e.intake := Eq.trans (b := e2.intake) rfl ((intake_ite (intake_hostWrite ..) rfl).trans h1)
    exact intake_ite ((intake_raiseMs ..).trans h3) h3
  unfold txDrop
  dsimp only
  split
  · exact (returned ..).trans counted
  · exact counted

theorem intake_ethSend (p : Nat) (i : TxItem) : (ethSend p i d).intake = d.intake := by
  unfold ethSend
  refine intake_ite ?_ ?_
  · unfold txDiscard
    dsimp only
    split
    · exact intake_txDrop ..
    · exact intake_txDrop ..
    · exact intake_txDrop ..
  · refine (intake_txPreempt ..).trans ((intake_txStart ..).trans ?_)
    dsimp only [Dev.putPort]
    split
    · rfl
    · rfl
    · rfl

/-! ## The spine and the pair -/

theorem intake_spnStart (m : SpnMsg) : (spnStart m d).intake = d.intake := by
  have viaB (bs : List Byte) (e : Dev) : (spineB bs e).intake = e.intake := intake_ite rfl (intake_ethSend ..)
  unfold spnStart
  extract_lets bs src d1 d2 src' d3
  have h1 : d1.intake = d.intake := intake_ite rfl rfl
  have h3 : d3.intake = d.intake := Eq.trans (b := d2.intake) (intake_ite rfl (intake_ite rfl rfl)) h1
  exact intake_ite ((viaB ..).trans h3) h3

theorem intake_spnSend (ty : Nat) (last : Bool) (ref : Nat) (body : List Byte) : (spnSend ty last ref body d).intake = d.intake := by
  have next (e : Dev) : (spnNext e).intake = e.intake := by
    refine intake_iterate (fun x y h => ?_) _ e
    split at h
    · cases h
    · split at h
      · cases h
        exact intake_spnStart ..
      · cases h
  unfold spnSend
  exact intake_ite (intake_spnStart ..) (next _)

theorem intake_pairEnter (st : Nat) : (pairEnter st d).intake = d.intake := by
  have ended (e : Dev) : (actingEnd e).intake = e.intake := intake_ite rfl (intake_raise ..)
  unfold pairEnter spnEval
  exact intake_ite rfl (intake_ite rfl (ended _))

theorem intake_pairRelease (cause : Nat) : (pairRelease cause d).intake = d.intake := by
  unfold pairRelease
  exact (intake_raise ..).trans (intake_ite ((intake_spnSend ..).trans (intake_pairEnter ..)) (intake_pairEnter ..))

theorem intake_pairRebind : (pairRebind d).intake = d.intake := by
  unfold pairRebind
  exact intake_ite ((intake_spnSend ..).trans (intake_pairEnter ..)) (intake_pairEnter ..)

theorem intake_diagEval : (diagEval d).intake = d.intake := by
  unfold diagEval
  extract_lets old new d1 fresh d2
  have h2 : d2.intake = d.intake := intake_ite rfl rfl
  exact intake_ite ((intake_pairRelease ..).trans h2) h2

theorem intake_returnEval : (returnEval d).intake = d.intake := intake_ite (intake_ite rfl rfl) (intake_ite rfl rfl)

/-! ## Acquisition and energy -/

theorem intake_acqNotice : (acqNotice d).intake = d.intake := by
  have noticed : (timeNotice d).intake = d.intake := by
    unfold timeNotice
    split
    · exact intake_ite rfl rfl
    · rfl
  have event (x : AcqEv) (e : Dev) : (acqEvent x e).intake = e.intake :=
    Eq.trans (b := (if e.stepOf x.time < e.stepOpen then raiseMs 66 (e.inc ACQ_TRIG_LATE) else e).intake) rfl (intake_ite (intake_raiseMs ..) rfl)
  unfold acqNotice
  refine intake_ite (intake_ite noticed noticed) ((intake_forN (fun k e => ?_) _ _).trans noticed)
  exact intake_ite rfl (intake_ite (event ..) rfl)

theorem intake_ivRecord (code c flags len off start imp exp : Nat) : (ivRecord code c flags len off start imp exp d).intake = d.intake :=
  intake_ite (trafficOnly_queueRecord (d.force_lt ENR_CFG_queue) _ d).intake rfl

theorem intake_ivClose (start : Nat) : (ivClose start d).intake = d.intake := by
  have offsets (c : Nat) (e : Dev) : (applyOffsets c e).intake = e.intake := by
    refine intake_forL (fun q e => ?_) _ e
    dsimp only
    exact intake_ite rfl rfl
  have closed (c : Nat) (e : Dev) : (ivCloseCh start c e).intake = e.intake :=
    intake_ite rfl ((intake_ivRecord ..).trans (intake_ite rfl (offsets c e)))
  have emptied (x : EnrSt) (e : Dev) : ({ e with enr := x } : Dev).intake = e.intake := rfl
  have put (c q : Nat) (e : Dev) : (e.putIvl c q 0).intake = e.intake := rfl
  have cleared (e : Dev) : (forN 16 (fun c d => forN 4 (fun q d => d.putIvl c q 0) d) e).intake = e.intake :=
    intake_forN (fun c e => intake_forN (fun q e => put c q e) 4 e) 16 e
  unfold ivClose
  exact (intake_raise ..).trans ((emptied ..).trans ((cleared _).trans (intake_forN closed 16 d)))

theorem intake_ivJump (start : Nat) (step : Bool) : (ivJump start step d).intake = d.intake := by
  have shown (c : Nat) (e : Dev) : (showChannel c e).intake = e.intake := rfl
  have applied (hour : Bool) (e : Dev) : (ivApply hour e).intake = e.intake := by
    unfold ivApply
    exact (intake_forN shown 16 _).trans rfl
  have opened (start : Int) (e : Dev) : (ivOpen start true e).intake = e.intake := rfl
  unfold ivJump
  extract_lets e cal d1 d2 fwd old d3 len cur hour gap off d4
  have h2 : d2.intake = d.intake := (intake_ivClose ..).trans (intake_ite rfl rfl)
  have h3 : d3.intake = d2.intake := intake_ite (applied ..) rfl
  have h4 : d4.intake = d3.intake := by
    refine intake_ite (intake_forN (fun c e => ?_) 16 d3) rfl
    exact intake_ite (intake_ivRecord ..) rfl
  exact (opened ..).trans (h4.trans (h3.trans h2))

theorem intake_enrEval (step : Bool) : (enrEval step d).intake = d.intake := by
  unfold enrEval
  extract_lets step' enr d1 cur enr' d2 d3 d4 src
  refine intake_ite rfl ?_
  split
  · rfl
  · extract_lets e
    have h2 : d2.intake = d.intake := intake_ite rfl rfl
    have h3 : d3.intake = d.intake := intake_ite h2 h2
    have h4 : d4.intake = d.intake := intake_ite h3 h3
    exact intake_ite h4 ((intake_ivJump ..).trans h2)

theorem intake_enrSettle : (enrSettle d).intake = d.intake := by
  have flag (c : Bool) (i : Nat) (e : Dev) : (if c then ivFlagAll i e else e).intake = e.intake := intake_ite rfl rfl
  exact (flag ..).trans ((flag ..).trans (intake_ite (intake_enrEval ..) rfl))

/-! ## Alarms -/

theorem intake_detPublish : (detPublish d).intake = d.intake := by
  have shown (e : Dev) (alm : Nat) (token : Bool) : ((e.set DET_ALM_STAT_alm alm).setFlag DET_ALM_STAT_token token).intake = e.intake := rfl
  unfold detPublish
  refine (shown ..).trans (intake_forN (fun c e => ?_) 12 d)
  rfl

theorem intake_almOut (rs : List AlmRec) : (almOut rs d).intake = d.intake := by
  have sent (ns : List AlmRec) (e : Dev) : (noticeSend ns e).intake = e.intake :=
    intake_ite ((intake_ethSend ..).trans (intake_ite rfl rfl)) rfl
  have recorded (r : AlmRec) (e : Dev) :
      (if e.flag (DET_CLASS_CFG_rec_en r.cls) then queueRecord (e.get (DET_CLASS_CFG_queue r.cls)) r.bytes e else e).intake = e.intake :=
    intake_ite (trafficOnly_queueRecord (e.get_lt (DET_CLASS_CFG_queue r.cls)) _ e).intake rfl
  have all := intake_forL recorded rs d
  exact intake_ite ((intake_forL sent _ _).trans all) all

theorem intake_pendFinal (x : PendPoint) (arrived : Nat) (acc : List AlmRec × Dev) : (pendFinal x arrived acc).2.intake = acc.2.intake := by
  have resolved (outcome extra : Nat) (acc : List AlmRec × Dev) : (pendResolve x outcome extra acc).2.intake = acc.2.intake := by
    unfold pendResolve almForm Dev.putAst
    exact intake_ite (intake_ite rfl rfl) rfl
  unfold pendFinal
  dsimp only
  split
  · split
    · split
      · exact resolved ..
      · exact resolved ..
    · rfl
  · rfl

theorem intake_pendFinals (xs : List PendPoint) (arrived : Nat) (acc : List AlmRec × Dev) :
    (forL xs (fun x acc => pendFinal x arrived acc) acc).2.intake = acc.2.intake := by
  induction xs generalizing acc with
  | nil => rfl
  | cons x xs ih => exact (ih _).trans (intake_pendFinal ..)

theorem intake_detFinals : (detFinals d).intake = d.intake := by
  refine (intake_forL (fun nt e => ?_) _ _).trans rfl
  have finals := intake_pendFinals (e.det.pend.partition (fun x => x.grid == nt.grid && x.g == nt.g && x.until_.isNone)).1 nt.arrived
  unfold detFinalOne
  exact intake_ite (finals _) ((intake_detPublish _).trans ((intake_almOut ..).trans (finals _)))

/-! ## The logic engine -/

theorem intake_gooseSync : (gooseSync d).intake = d.intake := by
  have sent (b t : Nat) (e : Dev) : (gooseSend b t e).intake = e.intake := intake_ite (intake_ethSend ..) rfl
  have state (b : Nat) (ms : List Nat) (e : Dev) : (gooseState b ms e).intake = e.intake := (sent ..).trans rfl
  unfold gooseSync
  exact intake_ite rfl (intake_forN (fun _ _ => intake_ite (intake_ite (state ..) rfl) rfl) _ _)

theorem intake_leStopped : (leStopped d).intake = d.intake := by
  have started (warm : Bool) (e : Dev) : (leStart warm e).intake = e.intake := by
    unfold leStart
    split
    · rfl
    · rfl
    · rfl
    · exact intake_ite rfl (Eq.trans rfl (intake_ite rfl rfl))
  have released (e : Dev) : (leRelease e).intake = e.intake := by
    refine Eq.trans (intake_forN (fun b e => ?_) _ _) rfl
    exact intake_ite rfl rfl
  have raised := (intake_raise (leRelease (d.set LGE_STAT_state 0)) 102).trans (released _)
  exact intake_ite ((started ..).trans raised) raised

theorem intake_saveStart : (saveStart d).intake = d.intake := by
  unfold saveStart
  dsimp only
  split
  · rfl
  · exact intake_ite rfl rfl

theorem intake_shutRelease : (shutRelease d).intake = d.intake := by
  have left : (if d.paired then pairRelease 7 d else if d.pairState = 1 then pairEnter 0 d else d).intake = d.intake :=
    intake_ite (intake_pairRelease ..) (intake_ite (intake_pairEnter ..) rfl)
  have disarmed (e : Dev) : (swapDisarm e).intake = e.intake := intake_ite (intake_raise ..) rfl
  unfold shutRelease
  extract_lets d1 st
  exact (intake_saveStart _).trans (Eq.trans (b := d1.intake) (intake_ite ((intake_leStopped _).trans (disarmed _)) rfl) left)

/-! ## Teardown -/

/-- A teardown leaves the reset values. -/
theorem intake_teardown : (teardown d).intake = ({}, {}, {}) := by
  have mode (m : Nat) (e : Dev) : (if m = 0 then e else e.set QUE_POOL_mode 1).intake = e.intake := intake_ite rfl rfl
  unfold teardown
  exact (mode ..).trans rfl

theorem rebindRelease_intake : (rebindRelease d).intake = d.intake ∨ (rebindRelease d).intake = ({}, {}, {}) := by
  unfold rebindRelease rebindSaved
  split
  · exact .inl rfl
  · dsimp only
    split
    · exact .inr (intake_teardown _)
    · exact .inl ((intake_saveStart _).trans (intake_pairRebind d))

theorem intake_startupSettle : (startupSettle d).intake = d.intake := by
  have step (c : Bool) (n : Nat) (e : Dev) : (if c then stepDone n e else e).intake = e.intake := intake_ite (intake_ite rfl rfl) rfl
  unfold startupSettle
  extract_lets d1 d2 d3
  have steps : d3.intake = d.intake := (step ..).trans ((step ..).trans (step ..))
  exact intake_ite steps steps

/-- The conditions looked at after a command leave the streams, the filter groups and the Collator as they are, or tear all down. -/
theorem settle_intake : (settle d).intake = d.intake ∨ (settle d).intake = ({}, {}, {}) := by
  have shut (e : Dev) : (if e.pwr.shut = 1 then shutRelease e else e).intake = e.intake := intake_ite (intake_shutRelease e) rfl
  have cycle (e : Dev) : (cycleSettle e).intake = e.intake ∨ (cycleSettle e).intake = ({}, {}, {}) := by
    unfold cycleSettle
    split
    · exact .inl rfl
    · exact (rebindRelease_intake e).imp (shut _).trans (shut _).trans
  have conflict (e : Dev) : (leConflict e).intake = e.intake := rfl
  have before : (gooseSync (leConflict (detPublish (detFinals d)))).intake = d.intake :=
    (intake_gooseSync _).trans ((conflict _).trans ((intake_detPublish _).trans (intake_detFinals d)))
  have after (e : Dev) : (enrSettle (acqNotice (returnEval (diagEval (startupSettle e))))).intake = e.intake :=
    (intake_enrSettle _).trans ((intake_acqNotice _).trans ((intake_returnEval _).trans ((intake_diagEval _).trans (intake_startupSettle e))))
  unfold settle
  exact (cycle _).imp (fun h => (after _).trans (h.trans before)) (after _).trans

end

/-- So does the end of a command. -/
theorem settling_intake (s : State) (d : Dev) : (s.settling d).dev.intake = d.intake ∨ (s.settling d).dev.intake = ({}, {}, {}) := by
  have published (e : Dev) : (publish e).intake = e.intake := by
    rw [publish_rest]
    rfl
  unfold State.settling watch
  split
  · exact .inl (published d)
  · exact (settle_intake d).imp (published _).trans (published _).trans

end Sys2Proof.Machine
end

section
/-! PROOF. A frame that moves its source lets the Collator place what came before it (O38). -/
namespace Sys2Proof.Machine

/-- The end of a command leaves the frames that wait for the Collator, or a teardown none. -/
theorem settling_inbox (s : State) (d : Dev) : (s.settling d).dev.col.inbox = d.col.inbox ∨ (s.settling d).dev.col.inbox = [] :=
  (settling_intake s d).imp (congrArg (ColSt.inbox ∘ Prod.snd ∘ Prod.snd)) (congrArg (ColSt.inbox ∘ Prod.snd ∘ Prod.snd))

/-- A UDP payload from 10.0.0.1 port 4712 in a frame that arrives at a port. -/
def phasorFrame (port : Nat) (stamp : Int) (payload : List Byte) : RxFrame :=
  { port := port, stamp := stamp, raw := [], bytes := List.replicate 12 0 ++ [8, 0] ++ udpPacket 0 4712 4712 [10, 0, 0, 1] [10, 0, 0, 2] payload }

/-- The entry of that sender: kind 1, enabled, rate 50, IDCODE 7, TIME_BASE 1,000,000 and no channel. -/
def phasorEntry : Ent :=
  ⟨[1, 1] ++ toLe 2 50 ++ toLe 4 0 ++ [10, 0, 0, 1] ++ toLe 2 4712 ++ toLe 2 7 ++ toLe 4 1000000 ++ List.replicate 54 0 ++ [1, 0] ++ toLe 2 1000 ++
    List.replicate 50 0⟩

/-- Its data frame of second 100, with a good CRC. -/
def phasorPayload : List Byte :=
  let body : List Byte := [0xAA, 1] ++ toBe 2 22 ++ toBe 2 7 ++ toBe 4 100 ++ List.replicate 10 0
  body ++ toBe 2 (crcCcitt body)

/-- Source 5 is STALLED, and its data frame has come 10 ns after time 0; a frame of source 6 that came at 5 ns waits for the Collator. -/
def stalledSource : State := { State.reset with dev := { State.reset.dev with
  eth := { streamIn := [phasorFrame 0 (10 * 65536) phasorPayload] }
  str := { working := [(5, phasorEntry)], src := [(5, { state := 3 })] }
  col := { inbox := [{ src := 6, t := 0, arr := 5 }] } } }

/-- The device before the frame is taken: no frame of source 5 waits for the Collator, so nothing has been finished. -/
theorem stalledSource_before : placeUpTo (fun f => f.src == 5) stalledSource.dev = stalledSource.dev := by decide +kernel

/-- The frame passes every check up to its match, and its lane runs. -/
theorem stalledSource_matched : udpPayload (phasorFrame 0 (10 * 65536) phasorPayload).bytes = some phasorPayload ∧ syncOk phasorPayload = true ∧
    bits (byteAt phasorPayload 1) 4 3 = 0 ∧
    (let bs := (phasorFrame 0 (10 * 65536) phasorPayload).bytes
     stalledSource.dev.matchC37 (slice bs 26 4 ++ toLe 2 (beAt bs (14 + byteAt bs 14 % 16 * 4 + 2) 2) ++ toLe 2 (beAt phasorPayload 4 2)) = some 5) ∧
    stalledSource.dev.laneRuns 1 (5 / 1024) = true := by decide +kernel

/-- It passes every check of its source. -/
theorem stalledSource_good : crcCcitt (phasorPayload.take (phasorPayload.length - 2)) = beAt phasorPayload (phasorPayload.length - 2) 2 ∧
    (stalledSource.dev.srcSt 5).state ≠ 5 ∧ phasorPayload.length = (stalledSource.dev.ent 5).frameSize ∧
    ((stalledSource.dev.srcSt 5).stat10 = true → bitAt (beAt phasorPayload 14 2) 10 = true) ∧
    beAt phasorPayload 11 3 < (stalledSource.dev.ent 5).timeBase ∧
    withheld (stalledSource.dev.ent 5) (beAt phasorPayload 14 2) (c37Tq phasorPayload) = false := by decide +kernel

/-- The good frame takes source 5 from STALLED to REQUALIFYING, and so the frame of source 6, stamped before it, is placed first: one frame is left. -/
theorem stalledSource_places : (stalledSource.settling (phasorFrameRx stalledSource.dev)).dev.col.inbox.length = 1 := by decide +kernel

/-- Refutes O38: a good frame that moves its STALLED source to REQUALIFYING lets the Collator place every frame stamped before it (R105, R112), so
those that waited are not all left. -/
theorem not_streamFramesAreChecked : ¬ Obligations.StreamFramesAreChecked := by
  intro h
  have hr : stalledSource.Running := rfl
  obtain ⟨hp, hs, ht, hm, hl⟩ := stalledSource_matched
  obtain ⟨hcrc, hst, hsize, hbit, hbase, hheld⟩ := stalledSource_good
  have checked := ((h.1 stalledSource hr).2.2 _ [] phasorPayload 5 rfl hp hs ht hm hl).2
  rw [stalledSource_before] at checked
  obtain ⟨d, he, -, -, -, -, hin⟩ := checked hcrc hst hsize hbit hbase hheld
  rw [settles_of rfl hr rfl] at he
  injection he with he
  have one : (stalledSource.settling d).dev.col.inbox.length = 1 := by
    rw [← he]
    exact stalledSource_places
  have two : d.col.inbox.length = 2 := by rw [hin]; rfl
  rcases settling_inbox stalledSource d with hk | hk
  · rw [hk, two] at one
    exact absurd one (by decide)
  · rw [hk] at one
    exact absurd one (by decide)

end Sys2Proof.Machine
end

section
/-! PROOF. A frame of a port that there is not disturbs a NOTE_CFGCNT (O37). -/
namespace Sys2Proof.Machine

/-- The end of a command leaves the stream table, or a teardown leaves it empty. -/
theorem settling_str (s : State) (d : Dev) : (s.settling d).dev.str = d.str ∨ (s.settling d).dev.str = {} :=
  (settling_intake s d).imp (congrArg Prod.fst) (congrArg Prod.fst)

/-- Source 5 is ACTIVE with an entry whose cfg_ref is 0, as STR_CMD_ARG is, and a frame of it that came at 5 ns waits for the Collator; a
configuration frame has come at time 0 through port 4, whose ETH_EVT is the word of STR_CMD_ARG, and a ring with irq_en takes it. -/
def strayPort : State := { State.reset with dev :=
  { State.reset.dev.setFlag (ETH_RXROUTE_to_ha 4) true |>.setFlag (ETH_RXR_CTRL_on 4 0) true |>.setFlag (ETH_RXR_CTRL_irq_en 4 0) true with
    eth := { streamIn := [phasorFrame 4 0 ([0xAA, 0x31] ++ List.replicate 20 0)] }
    str := { working := [(5, phasorEntry)], src := [(5, { state := 1 })] }
    col := { inbox := [{ src := 5, t := 0, arr := 5 }] } } }

theorem strayPort_premises : strayPort.Running ∧ strayPort.dev.Writes 2 0x60020 (3 + 16 * 5) ∧ strayPort.dev.flag STR_CMD_STAT_busy = false := by
  decide +kernel

/-- The register holds what the entry holds, and the source is ACTIVE once its frame is finished. -/
theorem strayPort_agrees : ¬(if (strayPort.dev.ent 5).kind = 2 then strayPort.dev.get STR_CMD_ARG ≠ (strayPort.dev.ent 5).cfgRef
      else strayPort.dev.get STR_CMD_ARG % 65536 ≠ (strayPort.dev.ent 5).cfgRef % 65536) ∧
    ((finishAll 5 strayPort.dev).srcSt 5).state = 1 := by decide +kernel

/-- The event of port 4 sets bit 1 of STR_CMD_ARG before it is compared, and the source goes to CFG_STALE. -/
theorem strayPort_stale : ((strayPort.settling (regCmd 2 0x60020 (3 + 16 * 5) strayPort.dev)).dev.srcSt 5).state = 5 := by decide +kernel

/-- Refutes O37: what the end of the parsed frames writes for a port beyond the four is STR_CMD_ARG, so that a NOTE_CFGCNT of the value of cfg_ref
moves its source to CFG_STALE. -/
theorem not_streamTableIsCommanded : ¬ Obligations.StreamTableIsCommanded := by
  intro h
  obtain ⟨hr, hw, hfree⟩ := strayPort_premises
  obtain ⟨hsame, hactive⟩ := strayPort_agrees
  obtain ⟨d, he, -, -, -, -, hnote⟩ := ((h.1 strayPort 2 5 hr) 3 _ (.inr (.inr ⟨rfl, rfl⟩)) hw).2 hfree
  have kept : d.srcSt 5 = (finishAll 5 strayPort.dev).srcSt 5 := (hnote rfl).2 (.inr (.inr hsame))
  rw [settles_of rfl hr rfl] at he
  injection he with he
  have stale : ((strayPort.settling d).dev.srcSt 5).state = 5 := by
    rw [← he]
    exact strayPort_stale
  unfold Dev.srcSt at stale kept
  rcases settling_str strayPort d with hk | hk
  · rw [hk, kept] at stale
    exact absurd (stale.symm.trans hactive) (by decide)
  · rw [hk] at stale
    exact absurd stale (by decide)

end Sys2Proof.Machine
end

section
/-! PROOF. A source that there is not lengthens a reader's wait (O39). -/
namespace Sys2Proof.Machine

/-- A gathering at instant 0 whose one due source, 6, has not come, with the OPEN view of reader 32. -/
def openGathering : Gathering := { k := 0, g := 0, due := [6], views := [{ reader := 32 }] }

/-- Grid 0 holds it, 5 ms after its instant, where reader 32's wait of 5,000 µs ends. A data frame came 1 µs after the instant: its STAT has bit
10 clear where the frame before had it set, and it matches an entry of the index 532,525, whose word of STR_ALERT_MAP is that of
COL_RD_WAIT of reader 32 (its alert bit adds 8,192 µs to the wait). -/
def strayEntry : State := { State.reset with dev :=
  { State.reset.dev.set (COL_GRID_CTRL_state 0) 1 |>.set (COL_GRID_CTRL_rate 0) 50 |>.set (COL_RD_CTRL_state 32) 1 |>.set (COL_RD_WAIT_wait_us 32) 5000 with
    time := { clock := 5000000 * nsUnit }
    eth := { streamIn := [phasorFrame 0 (1000 * 65536) phasorPayload] }
    str := { working := [(532525, phasorEntry)], src := [(6, { state := 1 }), (532525, { state := 1, stat10 := true })] }
    col := { grids := [(0, { next := 1, held := [openGathering] })] } } }

/-- The Collator runs, and the view's wait ends now. -/
theorem strayEntry_premises : strayEntry.Running ∧ strayEntry.dev.blockRuns 58 = true ∧ strayEntry.dev.gath 0 0 = some openGathering ∧
    strayEntry.dev.get (COL_RD_WAIT_wait_us 32) = 5000 ∧ strayEntry.dev.Reaches 5000000 := by decide +kernel

/-- The frame stamped before the end of the wait leaves the view OPEN. -/
theorem strayEntry_before :
    (placeBefore 5000000 (passTo 5000000 strayEntry.dev)).gath 0 0 = some openGathering := by decide +kernel

/-- At the end of the wait that the register held, the view is not closed. -/
theorem strayEntry_stays : (strayEntry.settling (colRun (viewWait (0 : Fin 8) 0 (32 : Fin 64)) strayEntry.dev)).dev.col.grids =
    [(0, { next := 1, held := [openGathering] })] := by decide +kernel

/-- Refutes O39: a frame that sends the source of an entry beyond the 8,192 to CFG_STALE sets its alert bit in the reader's COL_RD_WAIT, and the
view, still OPEN when the wait ends that the reader had before the frame, is not closed. -/
theorem not_gatheringsAreFilled : ¬ Obligations.GatheringsAreFilled := by
  intro h
  obtain ⟨hr, hruns, hheld, hwait, hreach⟩ := strayEntry_premises
  have ends : (5000000 : Nat) = openGathering.g + strayEntry.dev.get (COL_RD_WAIT_wait_us 32) * 1000 := by simp [openGathering, hwait]
  obtain ⟨-, -, -, closes⟩ := ((h.2.2 strayEntry 0 0 32 hr hruns).2 openGathering hheld (.viewWaitExpire 0 0 32) 5000000
    (.inr (.inr ⟨rfl, ends⟩))).2 hreach openGathering { reader := 32 } strayEntry_before rfl rfl rfl
  obtain ⟨d, y, w, he, hy, hw, hclosed⟩ := closes rfl
  rw [settles_of rfl hr rfl] at he
  injection he with he
  have stays : (strayEntry.settling d).dev.col.grids = [(0, { next := 1, held := [openGathering] })] := by
    rw [← he]
    exact strayEntry_stays
  have held : d.col.grids = [(0, { next := 1, held := [openGathering] })] := by
    rcases settling_core strayEntry d with hc | ht
    · exact (congrArg Prod.fst hc).symm.trans stays
    · exact absurd (stays.symm.trans ht.1) (by decide)
  have same : d.gath 0 0 = some openGathering := by
    unfold Dev.gath Dev.grid
    rw [held]
    rfl
  obtain rfl : openGathering = y := Option.some.inj (same.symm.trans hy)
  obtain rfl : { reader := 32 } = w := Option.some.inj hw
  exact absurd hclosed (by decide)

end Sys2Proof.Machine
end

section
/-! PROOF. A stopped scheduler enables no entry of the analysis (O45). -/
namespace Sys2Proof.Machine

/-- A stopped scheduler takes no write of SCH_INST_CTRL (R16). -/
theorem regWrite_instCtrl_stopped {d : Dev} (h : d.blockRuns 57 = false) (m : Nat) (i : Fin 1024) (v : Nat) :
    regWrite {} m (0xA6000 + 4 * i.val) v d = d := by
  have gate (f : Dev → Dev) : schRun f d = d := by
    unfold schRun
    rw [h]
    rfl
  unfold regWrite
  rw [findRow_instCtrl]
  dsimp only
  have hi := i.isLt
  rw [if_neg (by simp; omega), if_neg (by omega), if_neg (by omega), if_neg (by omega), if_pos (by omega)]
  exact gate _

/-- Instance 0 is OFF with an entry that its enable accepts, seven tasks have been created, and a fabric timeout has stopped the scheduler. -/
def stoppedInstance : State := { State.reset with dev :=
  { State.reset.dev.set (SCH_INST0_kernel_id 0) 1 |>.set (SCH_INST1_deadline 0) 1 |>.set (SCH_INST1_affinity 0) 1 with
    stopped := [57], sch := { next := 7 } } }

theorem stoppedInstance_premises : stoppedInstance.Running ∧ stoppedInstance.dev.WritesField (2 : Master) (0xA6000 + 4 * (0 : Fin 1024).val) 0 1 1 ∧
    stoppedInstance.dev.get (SCH_INST_CTRL_state (0 : Fin 1024)) = 0 ∧ stoppedInstance.dev.blockRuns 57 = false ∧
    instCode (0 : Fin 1024) stoppedInstance.dev = 0 := by decide +kernel

theorem exec_instanceEnable_stoppedInstance :
    exec (.instanceEnable 2 0) stoppedInstance = .next (stoppedInstance.settling stoppedInstance.dev) := by
  obtain ⟨hr, hw, -, hs, -⟩ := stoppedInstance_premises
  exact settles_of rfl hr ((regKeep_of_writes hw (by decide) (by decide) (by decide)).trans (regWrite_instCtrl_stopped hs _ 0 _))

/-- No state_reset is pending. -/
theorem stoppedInstance_keeps : (stoppedInstance.settling stoppedInstance.dev).dev.sch = { next := 7 } := by decide +kernel

/-- Refutes O45: with the scheduler stopped by a fabric timeout (R16), the enable of one of the instances, OFF and with an entry that passes every
check does nothing: no state_reset is pending. -/
theorem not_enginesAndInstances : ¬ Obligations.EnginesAndInstances := by
  rintro ⟨-, instances, -⟩
  obtain ⟨hr, hw, hoff, -, hcode⟩ := stoppedInstance_premises
  obtain ⟨d, he, -, -, -, -, pending⟩ := ((instances stoppedInstance 2 0 hr).1 hw).1 hoff
  rw [exec_instanceEnable_stoppedInstance] at he
  injection he with he
  have same : (stoppedInstance.settling d).dev.sch = { next := 7 } := by
    rw [← he]
    exact stoppedInstance_keeps
  have kept : d.sch = { next := 7 } := by
    rcases settling_core stoppedInstance d with hc | ⟨-, hnext, -⟩
    · exact (congrArg Prod.snd hc).symm.trans same
    · exact absurd ((congrArg SchSt.next same).symm.trans hnext) (by decide)
  have noReset := pending hcode
  rw [kept] at noReset
  exact absurd noReset (by decide)

end Sys2Proof.Machine
end

section
/-! PROOF. The status fields that follow other state are true, at reset and after every step (O5, O6). -/
namespace Sys2Proof.Machine

/-! ## The pins of QUE_FC (R408) -/

/-- Bits that are added up, each at its own place, are found there. -/
theorem bitAt_sum_pins (p : Nat → Bool) {k : Nat} (hk : k < 4) :
    bitAt ((List.range 4).foldl (fun a k => a + b2n (p k) * 2 ^ k) 0) k = p k := by
  have four (b : Fin 4 → Bool) (j : Fin 4) :
      bitAt (b2n (b 0) * 2 ^ 0 + b2n (b 1) * 2 ^ 1 + b2n (b 2) * 2 ^ 2 + b2n (b 3) * 2 ^ 3) j = b j := by
    revert b j
    decide
  simpa [List.range_succ] using four (fun j => p j) ⟨k, hk⟩

theorem sum_pins_lt (p : Nat → Bool) : (List.range 4).foldl (fun a k => a + b2n (p k) * 2 ^ k) 0 < 2 ^ 4 := by
  have le (b : Bool) : b2n b ≤ 1 := by cases b <;> decide
  have h0 := le (p 0)
  have h1 := le (p 1)
  have h2 := le (p 2)
  have h3 := le (p 3)
  simp only [List.range_succ, List.range_zero, List.nil_append, List.cons_append, List.foldl_cons, List.foldl_nil]
  omega

/-- The pins follow the watermarks of the queues, which the end of a command leaves. -/
theorem fcAsserted_of_queues {d e : Dev} (h : ∀ f : Fld, 0x110100 ≤ f.key → f.key < 0x110900 → e.get f = d.get f) (k : Nat) :
    e.fcAsserted k = d.fcAsserted k := by
  unfold Dev.fcAsserted
  rw [Bool.eq_iff_iff]
  simp only [List.any_eq_true, List.mem_range]
  refine exists_congr fun n => and_congr_right fun hn => ?_
  rw [Dev.flag_eq, Dev.flag_eq, Dev.flag_eq, Dev.flag_eq]
  rw [h (QUE_Q_WM_fc_en n) (by simp only [QUE_Q_WM_fc_en]; omega) (by simp only [QUE_Q_WM_fc_en]; omega),
    h (QUE_Q_WM_fc_pin n) (by simp only [QUE_Q_WM_fc_pin]; omega) (by simp only [QUE_Q_WM_fc_pin]; omega),
    h (QUE_Q_OCC_wm_state n) (by simp only [QUE_Q_OCC_wm_state]; omega) (by simp only [QUE_Q_OCC_wm_state]; omega)]

theorem fcAsserted_set (d : Dev) (f : Fld) (v : Nat) (hf : f.key < 0x110100) (k : Nat) : (d.set f v).fcAsserted k = d.fcAsserted k :=
  fcAsserted_of_queues (fun g h1 _ => Dev.get_set_ne d f g v (by omega)) k

/-! ## The fields that the end of a command writes -/

section
variable (d : Dev)

/-- The number of COMPLETE segments of the recorder (R313). -/
def Dev.completeSegments : Nat := ((List.range 64).filter (fun s => d.get (ACQ_SEG_state s) == 3)).length

theorem completeSegments_le : d.completeSegments ≤ 64 := (List.length_filter_le _ _).trans (by simp)

theorem completeSegments_of_segments {d e : Dev} (h : ∀ f : Fld, 0x90100 ≤ f.key → f.key < 0x90200 → e.get f = d.get f) :
    e.completeSegments = d.completeSegments := by
  unfold Dev.completeSegments
  congr 1
  refine List.filter_congr fun s hs => ?_
  rw [List.mem_range] at hs
  rw [h (ACQ_SEG_state s) (by simp only [ACQ_SEG_state]; omega) (by simp only [ACQ_SEG_state]; omega)]

theorem complete_publish : (publish d).get ACQ_STATUS_complete = d.completeSegments := by
  have shown : (d.setFlag TBS_STATE_coast d.coast).completeSegments = d.completeSegments :=
    completeSegments_of_segments fun f h1 _ => Dev.get_set_ne d TBS_STATE_coast f _ (by rw [show TBS_STATE_coast.key = 0x40004 from rfl]; omega)
  rw [get_publish_eq]
  unfold showStatus queueFc detPendShow
  rw [Dev.setFlag_eq, Dev.get_set_ne _ _ _ _ (by decide), Dev.get_set_ne _ _ _ _ (by decide), Dev.get_set_ne _ _ _ _ (by decide)]
  unfold segCount
  rw [Dev.get_set_same _ _ _ (by decide), ← shown]
  exact Nat.mod_eq_of_lt (Nat.lt_of_le_of_lt (completeSegments_le _) (by decide))

theorem fc_publish {k : Nat} (hk : k < 4) : bitAt ((publish d).get QUE_FC_fc) k = d.fcAsserted k := by
  rw [get_publish_eq]
  unfold showStatus detPendShow
  rw [Dev.setFlag_eq, Dev.get_set_ne _ _ _ _ (by decide), Dev.get_set_ne _ _ _ _ (by decide)]
  unfold queueFc
  rw [Dev.get_set_same _ _ _ (by decide), show QUE_FC_fc.width = 4 from rfl, Nat.mod_eq_of_lt (sum_pins_lt _), bitAt_sum_pins _ hk]
  unfold segCount
  rw [fcAsserted_set _ _ _ (by decide), Dev.setFlag_eq, fcAsserted_set _ _ _ (by decide)]

theorem pending_publish : (publish d).get DET_PEND_pending = d.det.pend.length % 2048 := by
  rw [get_publish_eq]
  unfold showStatus
  rw [Dev.setFlag_eq, Dev.get_set_ne _ _ _ _ (by decide)]
  exact Dev.get_set_same _ DET_PEND_pending _ rfl

theorem token_publish : (publish d).flag DET_ALM_STAT_token = d.acting := by
  rw [Dev.flag_eq, get_publish_eq, ← Dev.flag_eq]
  refine (Dev.flag_setFlag_same _ DET_ALM_STAT_token _ rfl rfl).trans ?_
  unfold Dev.acting queueFc segCount
  rw [Dev.flag_eq, Dev.setFlag_eq, Dev.get_set_ne _ _ _ _ (by decide), Dev.get_set_ne _ _ _ _ (by decide), Dev.get_set_ne _ _ _ _ (by decide), ← Dev.flag_eq]

/-- What the fields follow is what the device holds after the end of the command too. -/
theorem mirrors_publish : (publish d).Mirrors where
  complete := by
    rw [complete_publish]
    refine (completeSegments_of_segments fun f h1 h2 => get_publish d f ?_).symm
    simp only [followKey, Bool.or_eq_false_iff, beq_eq_false_iff_ne]
    omega
  pins := fun k hk => by
    rw [fc_publish d hk]
    refine (fcAsserted_of_queues (fun f h1 h2 => get_publish d f ?_) k).symm
    simp only [followKey, Bool.or_eq_false_iff, beq_eq_false_iff_ne]
    omega
  points := by
    have same : (publish d).det = d.det := by rw [publish_rest]
    rw [pending_publish, same]
  token := by
    rw [token_publish]
    exact (congrArg (· != 0) (get_publish d SPN_STAT_acting rfl)).symm

end

/-- Settles O5: at reset no segment is COMPLETE, no queue has its watermark state set, no point waits and the unit does not act. -/
theorem invariantAtReset : Obligations.InvariantAtReset := by
  intro _
  have segments : State.reset.dev.completeSegments = 0 := by decide +kernel
  have asserted : ∀ k < 4, State.reset.dev.fcAsserted k = false := by decide +kernel
  have pins : ∀ k < 4, bitAt (State.reset.dev.get QUE_FC_fc) k = false := by decide +kernel
  exact ⟨segments.symm, fun k hk => (pins k hk).trans (asserted k hk).symm, rfl, rfl⟩

/-- Settles O6: a step after which the device runs ends with the status fields, which then agree with what they follow. -/
theorem invariantOfEveryStep : Obligations.InvariantOfEveryStep := by
  intro s t h hr
  obtain ⟨d, hd⟩ := step_publishes h hr
  rw [hd]
  exact mirrors_publish d

end Sys2Proof.Machine
end

section
/-! PROOF. What the device's own express frames leave of a port, and that the port carries them (R333, R339, R340). -/
namespace Sys2Proof.Machine

/-! ## The frames on their way -/

/-- An express frame of an alarm notice with these bytes is in transmission or waits. -/
def EthPort.Carries (e : EthPort) (bs : List Byte) : Prop :=
  ∃ i, (e.current = some i ∨ i ∈ e.express) ∧ i.kind = .alarm ∧ i.express = true ∧ i.bytes = bs

theorem EthPort.Carries.mono {e x : EthPort} {bs : List Byte} (h : e.Carries bs)
    (hx : ∀ i, i.express = true → e.current = some i ∨ i ∈ e.express → x.current = some i ∨ i ∈ x.express) : x.Carries bs := by
  obtain ⟨i, hi, hk, he, hb⟩ := h
  exact ⟨i, hx i he hi, hk, he, hb⟩

theorem port_putPort_ne {p q : Nat} (h : q ≠ p) (x : EthPort) (d : Dev) : (d.putPort p x).port q = d.port q :=
  congrArg (fun o => o.getD {}) (lookup_insertKey_ne x d.eth.ports h)

/-- Where express frames wait one of them is next, and the others wait on. -/
theorem nextExpress_some {xs : List TxItem} (h : xs ≠ []) : ∃ i ys, nextExpress xs = some (i, ys) ∧ ∀ x ∈ xs, x = i ∨ x ∈ ys := by
  cases xs with
  | nil => exact absurd rfl h
  | cons a as =>
    dsimp only [nextExpress]
    split
    · next k hk =>
      obtain ⟨hlt, -⟩ := List.findIdx?_eq_some_iff_getElem.mp hk
      rw [List.getElem?_eq_getElem hlt]
      exact ⟨_, _, rfl, fun x hx => List.mem_cons.mp ((List.getElem_cons_eraseIdx_perm hlt).mem_iff.mpr hx)⟩
    · exact ⟨_, _, rfl, fun x hx => List.mem_cons.mp hx⟩

/-! ## What sending writes -/

/-- The words that the sending of an express frame of the device at port `p` can write: ETHn_STAT, three of the port's counters, and the
counts of frames that were sent or discarded. -/
def sentWord (p k : Nat) : Prop :=
  k = (ETH_STAT p).key ∨ k = (ETH_CNT p 19).key ∨ k = (ETH_CNT p 20).key ∨ k = (ETH_CNT p 21).key ∨
    k = GCTL_XDROP.key ∨ k = DET_NOTICE_SENT.key ∨ k = DET_NOTICE_NOT_SENT.key

/-- `e` differs from `d` in nothing but those words, the ports and the count of free values; every link stays as it is, and every notice frame
on its way is still on it. -/
structure SendOnly (p : Nat) (d e : Dev) : Prop where
  word : ∀ k, ¬sentWord p k → e.word k = d.word k
  link : ∀ q, e.get (ETH_STAT_link q) = d.get (ETH_STAT_link q)
  carries : ∀ q bs, (d.port q).Carries bs → (e.port q).Carries bs
  rest : e = { d with regs := e.regs, eth := e.eth, free := e.free }

section
variable {p : Nat}

theorem SendOnly.refl (d : Dev) : SendOnly p d d := ⟨fun _ _ => rfl, fun _ => rfl, fun _ _ h => h, rfl⟩

theorem SendOnly.trans {a b c : Dev} (h : SendOnly p a b) (g : SendOnly p b c) : SendOnly p a c :=
  ⟨fun k hk => (g.word k hk).trans (h.word k hk), fun q => (g.link q).trans (h.link q), fun q bs hc => g.carries q bs (h.carries q bs hc), by
    rw [g.rest, h.rest]⟩

theorem SendOnly.get {d e : Dev} (h : SendOnly p d e) {f : Fld} (hf : ¬sentWord p f.key) : e.get f = d.get f := by
  unfold Dev.get
  rw [h.word _ hf]

theorem sendOnly_set {d : Dev} (f : Fld) (v : Nat) (hf : sentWord p f.key) (hw : f.inWord = true) (hl : ∀ q, f.apart (ETH_STAT_link q) = true) :
    SendOnly p d (d.set f v) :=
  ⟨fun _ hk => Dev.word_set_ne d f v (fun e => hk (e ▸ hf)), fun q => Dev.get_set_apart d f _ v hw (hl q), fun _ _ h => h, rfl⟩

theorem sendOnly_count {d : Dev} {k : Nat} (hk : k = 19 ∨ k = 20 ∨ k = 21) (v : Nat) : SendOnly p d (d.set (ETH_CNT p k) v) := by
  refine sendOnly_set _ v ?_ rfl (fun q => ?_)
  · unfold sentWord
    rcases hk with rfl | rfl | rfl <;> simp
  · simp only [Fld.apart, ETH_CNT, ETH_STAT_link, Bool.or_eq_true, bne_iff_ne]
    omega

theorem sendOnly_paused (b : Bool) (d : Dev) : SendOnly p d (d.setFlag (ETH_STAT_paused p) b) :=
  sendOnly_set _ _ (.inl rfl) rfl fun q => by simp [Fld.apart, ETH_STAT_paused, ETH_STAT_link]

theorem sendOnly_putPort {d : Dev} {x : EthPort} (h : ∀ bs, (d.port p).Carries bs → x.Carries bs) : SendOnly p d (d.putPort p x) := by
  refine ⟨fun _ _ => rfl, fun _ => rfl, fun q bs hc => ?_, rfl⟩
  by_cases hq : q = p
  · subst hq
    rw [port_putPort]
    exact h bs hc
  · rwa [port_putPort_ne hq]

theorem sendOnly_drawNat (d : Dev) : SendOnly p d d.drawNat.2 := ⟨fun _ _ => rfl, fun _ => rfl, fun _ _ h => h, rfl⟩

/-- A port's state and enable are none of the words that sending writes. -/
theorem not_sentWord_cfg (q : Nat) : ¬sentWord p (ETH_CFG q).key := by
  simp only [sentWord, ETH_CFG, ETH_STAT, ETH_CNT, GCTL_XDROP, DET_NOTICE_SENT, DET_NOTICE_NOT_SENT]
  omega

theorem SendOnly.state {d e : Dev} (h : SendOnly p d e) (q : Nat) : e.get (ETH_CFG_state q) = d.get (ETH_CFG_state q) := h.get (not_sentWord_cfg q)

end

/-! ## A port that is ON and has an express frame starts no other (R339, R340) -/

/-- A frame is in transmission, a PAUSE hold runs, or an express frame waits: no frame of another class starts. -/
def EthPort.Busy (e : EthPort) : Prop := e.current.isSome = true ∨ e.holdEnd.isSome = true ∨ e.express ≠ []

section
variable {p : Nat} {d : Dev}

/-- At a busy port either no frame starts or an express frame does, and the others wait on. -/
theorem txStart_busy (hs : d.get (ETH_CFG_state p) = 1) (hb : (d.port p).Busy) :
    txStart p d = d ∨ ∃ i xs, (d.port p).current = none ∧ (∀ x ∈ (d.port p).express, x = i ∨ x ∈ xs) ∧
      txStart p d = d.putPort p { d.port p with current := some { i with thr := d.get (ETH_TXCFG_cut_thr p) }, express := xs } := by
  by_cases hh : ((d.port p).current.isSome || (d.port p).holdEnd.isSome) = true
  · exact .inl (if_pos hh)
  · have idle := hh
    rw [Bool.or_eq_true, not_or] at idle
    obtain ⟨hcur, hhold⟩ := idle
    obtain ⟨i, xs, hn, hmem⟩ := nextExpress_some ((hb.resolve_left hcur).resolve_left hhold)
    refine .inr ⟨i, xs, by simpa using hcur, hmem, (if_neg hh).trans ?_⟩
    rw [if_pos hs, hn]

theorem sendOnly_txStart (hs : d.get (ETH_CFG_state p) = 1) (hb : (d.port p).Busy) :
    SendOnly p d (txStart p d) ∧ ((txStart p d).port p).Busy := by
  rcases txStart_busy hs hb with he | ⟨i, xs, hcur, hmem, he⟩
  · rw [he]
    exact ⟨.refl d, hb⟩
  · rw [he, port_putPort]
    refine ⟨sendOnly_putPort fun bs hc => ?_, .inl rfl⟩
    obtain ⟨j, hj, hk, hx, hbs⟩ := hc
    rcases hmem j (hj.resolve_left (by simp [hcur])) with rfl | hj
    · exact ⟨_, .inl rfl, hk, hx, hbs⟩
    · exact ⟨j, .inr hj, hk, hx, hbs⟩

/-- The start of a PAUSE hold keeps an express frame that waits; after a hold of no quanta the frame starts (R342). -/
theorem sendOnly_holdStart (ns : Nat) (hs : d.get (ETH_CFG_state p) = 1) (hx : (d.port p).express ≠ []) :
    SendOnly p d (holdStart p ns d) ∧ ((holdStart p ns d).port p).Busy := by
  have same (x : EthPort) (hc : x.current = (d.port p).current) (he : x.express = (d.port p).express) (b : Bool) (v : Nat) :
      SendOnly p d (((d.set (ETH_CNT p 21) v).putPort p x).setFlag (ETH_STAT_paused p) b) := by
    refine (sendOnly_count (.inr (.inr rfl)) v).trans ((sendOnly_putPort fun bs h => ?_).trans (sendOnly_paused b _))
    exact EthPort.Carries.mono h fun i _ hi => by rw [hc, he]; exact hi
  unfold holdStart
  extract_lets e held tot d1
  split
  · have before := same { e with holdEnd := none, holdNext := none, held := tot } rfl rfl false (min (tot / 4000) (2 ^ 32 - 1))
    obtain ⟨sent, busy⟩ := sendOnly_txStart ((before.state p).trans hs) (.inr (.inr ((port_putPort ..).symm ▸ hx)))
    exact ⟨before.trans sent, busy⟩
  · have held := same { e with holdEnd := some (d1.time.elapsed + 4 * ns), holdFrom := d1.time.elapsed, holdNext := none, held := tot } rfl rfl true
      (min (tot / 4000) (2 ^ 32 - 1))
    exact ⟨held, .inr (.inl ((port_putPort ..).symm ▸ rfl))⟩

theorem sendOnly_txHold (hs : d.get (ETH_CFG_state p) = 1) (hx : (d.port p).express ≠ []) :
    SendOnly p d (txHold p d) ∧ ((txHold p d).port p).Busy := by
  unfold txHold
  split
  · exact sendOnly_holdStart _ hs hx
  · exact ⟨.refl d, .inr (.inr hx)⟩

/-- A frame that is preempted is no express frame (R340). -/
theorem sendOnly_txPreempt (hs : d.get (ETH_CFG_state p) = 1) : SendOnly p d (txPreempt p d) := by
  unfold txPreempt
  extract_lets e
  split
  · next c hc =>
    split
    · next hcond =>
      simp only [Bool.and_eq_true, Bool.not_eq_true', decide_eq_true_eq] at hcond
      obtain ⟨⟨⟨-, slow⟩, waits⟩, -⟩ := hcond
      dsimp only
      split
      · exact sendOnly_drawNat d
      · have counted : SendOnly p d (if c.preempted then d.drawNat.2 else ethCount p 20 d.drawNat.2) := by
          split
          · exact sendOnly_drawNat d
          · exact (sendOnly_drawNat d).trans (sendOnly_count (.inr (.inl rfl)) _)
        have same : (if c.preempted then d.drawNat.2 else ethCount p 20 d.drawNat.2).port p = d.port p := by split <;> rfl
        generalize (if c.preempted then d.drawNat.2 else ethCount p 20 d.drawNat.2) = x at counted same
        have freed : SendOnly p x (x.putPort p { x.port p with current := none, suspended := some { c with preempted := true } }) := by
          refine sendOnly_putPort fun bs h => EthPort.Carries.mono h fun i hi hj => .inr (hj.resolve_left fun hcur => ?_)
          rw [same, hc] at hcur
          rw [Option.some.inj hcur, hi] at slow
          exact absurd slow (by decide)
        have before := counted.trans freed
        have hx : (d.port p).express ≠ [] := by simpa [e] using waits
        obtain ⟨held, busy⟩ := sendOnly_txHold ((before.state p).trans hs) (by rw [port_putPort, same]; exact hx)
        have after := before.trans held
        exact after.trans (sendOnly_txStart ((after.state p).trans hs) busy).1
    · exact .refl d
  · exact .refl d

end

/-! ## An express frame is offered to a port (R333, R339) -/

section
variable {p : Nat} {it : TxItem}

/-- The port takes the frame, and starts it where it can. -/
theorem sendOnly_taken {d : Dev} (hs : d.get (ETH_CFG_state p) = 1) (hx : it.express = true) :
    let e := txPreempt p (txStart p (d.putPort p { d.port p with express := (d.port p).express ++ [it] }))
    SendOnly p d e ∧ (it.kind = .alarm → (e.port p).Carries it.bytes) := by
  have queued : SendOnly p d (d.putPort p { d.port p with express := (d.port p).express ++ [it] }) :=
    sendOnly_putPort fun bs h => h.mono fun i _ hi => hi.imp id (List.mem_append_left _)
  have waits : it ∈ ((d.putPort p { d.port p with express := (d.port p).express ++ [it] }).port p).express := by
    rw [port_putPort]
    exact List.mem_append_right _ (List.mem_singleton_self it)
  generalize d.putPort p { d.port p with express := (d.port p).express ++ [it] } = x at queued waits
  have started := (sendOnly_txStart ((queued.state p).trans hs) (.inr (.inr (List.ne_nil_of_mem waits)))).1
  have after := started.trans (sendOnly_txPreempt (((queued.trans started).state p).trans hs))
  exact ⟨queued.trans after, fun hk => after.carries p _ ⟨it, .inr waits, hk, hx, rfl⟩⟩

theorem sendOnly_inc {d : Dev} {f : Fld} (hf : f = GCTL_XDROP ∨ f = DET_NOTICE_SENT ∨ f = DET_NOTICE_NOT_SENT) : SendOnly p d (d.inc f) := by
  rw [Dev.inc_eq]
  refine sendOnly_set f _ ?_ ?_ fun q => ?_
  · unfold sentWord
    rcases hf with rfl | rfl | rfl <;> simp
  · rcases hf with rfl | rfl | rfl <;> rfl
  · simp only [Fld.apart, ETH_STAT_link, Bool.or_eq_true, bne_iff_ne]
    rcases hf with rfl | rfl | rfl <;> simp only [GCTL_XDROP, DET_NOTICE_SENT, DET_NOTICE_NOT_SENT] <;> omega

variable (hk : it.kind = .alarm ∨ it.kind = .spineB) (hx : it.express = true)
include hk

theorem sendOnly_txDiscard (d : Dev) : SendOnly p d (txDiscard p it d) := by
  have dropped : SendOnly p d (txDrop p it d) := by
    have counted : SendOnly p d (if d.xingDead (1 + p) then xdrop d else ethCount p 19 d) := by
      split
      · exact sendOnly_inc (.inl rfl)
      · exact sendOnly_count (.inl rfl) _
    unfold txDrop
    rcases hk with hk | hk <;> rw [hk] <;> exact counted
  unfold txDiscard
  rcases hk with hk | hk <;> rw [hk]
  · exact dropped.trans (sendOnly_inc (.inr (.inr rfl)))
  · exact dropped

include hx

/-- An express frame of the device leaves all but the words of sending; where the port transmits, a notice frame is on its way. -/
theorem sendOnly_ethSend (d : Dev) :
    SendOnly p d (ethSend p it d) ∧
      (it.kind = .alarm → d.portSends p = true → d.xingDead (1 + p) = false → ((ethSend p it d).port p).Carries it.bytes) := by
  unfold ethSend
  split
  · next h =>
    refine ⟨sendOnly_txDiscard hk d, fun _ hp hd => ?_⟩
    rw [hp, hd] at h
    exact absurd h (by decide)
  · next h =>
    have hs : d.get (ETH_CFG_state p) = 1 := by
      simp only [Dev.portSends, Bool.or_eq_true, Bool.not_eq_true', not_or, Bool.not_eq_false, Bool.and_eq_true, beq_iff_eq] at h
      exact h.1.1
    extract_lets d1 e i e'
    have counted : SendOnly p d d1 := by
      unfold d1
      rcases hk with hk | hk <;> rw [hk]
      · exact sendOnly_inc (.inr (.inl rfl))
      · exact .refl d
    have taken := sendOnly_taken (it := i) ((counted.state p).trans hs) hx
    have queued : e' = { d1.port p with express := (d1.port p).express ++ [i] } := if_pos hx
    rw [queued]
    exact ⟨counted.trans taken.1, fun hk _ _ => taken.2 hk⟩

end

end Sys2Proof.Machine
end

section
/-! PROOF. Notice frames are repeated (O46). -/
namespace Sys2Proof.Machine

/-! ## The earliest instant of a list (R232, R236) -/

/-- The least of a list is found from any of its elements on. -/
theorem foldl_min_eq {α : Type} (f : α → Nat) {m : Nat} (xs : List α) (a : Nat) (ha : m ≤ a) (hall : ∀ x ∈ xs, m ≤ f x)
    (hex : a = m ∨ ∃ x ∈ xs, f x = m) : xs.foldl (fun a x => min a (f x)) a = m := by
  induction xs generalizing a with
  | nil => simpa using hex
  | cons x xs ih =>
    have hx := hall x List.mem_cons_self
    refine ih (min a (f x)) (by omega) (fun y hy => hall y (List.mem_cons_of_mem x hy)) ?_
    rcases hex with h | ⟨y, hy, h⟩
    · exact .inl (by omega)
    · rcases List.mem_cons.mp hy with rfl | hy
      · exact .inl (by omega)
      · exact .inr ⟨y, hy, h⟩

/-! ## A notice frame that is due -/

/-- The frame is sent again by an acting unit, and counted as not sent by another (R235). -/
def noticeAgain (y : NoticeRep) (d : Dev) : Dev :=
  if d.acting then ethSend y.port { kind := .alarm, bytes := y.bytes, express := true } d else d.inc DET_NOTICE_NOT_SENT

/-- The frames that wait beyond `t`, and those due that are sent once more yet. -/
def repeatsAfter (t : Nat) (ys : List NoticeRep) : List NoticeRep :=
  ys.filter (fun y => !decide (y.due ≤ t)) ++
    ((ys.filter (fun y => decide (y.due ≤ t))).map (fun y => { y with left := y.left - 1, due := y.due + 1000000 })).filter (fun y => decide (0 < y.left))

/-- The frames due at `t` are sent again. -/
def noticesDue (t : Nat) (d : Dev) : Dev :=
  forL (d.det.repeats.filter (fun y => decide (y.due ≤ t))) noticeAgain { d with det := { d.det with repeats := repeatsAfter t d.det.repeats } }

theorem noticeRepeat_none {d : Dev} (h : d.det.repeats = []) : noticeRepeat d = d := by
  unfold noticeRepeat
  rw [h]

theorem noticeRepeat_due {d : Dev} {t : Nat} (hex : ∃ y ∈ d.det.repeats, y.due = t) (hall : ∀ y ∈ d.det.repeats, t ≤ y.due) :
    noticeRepeat d = atTime t (noticesDue t) d := by
  unfold noticeRepeat
  split
  · next h =>
    obtain ⟨y, hy, -⟩ := hex
    rw [h] at hy
    cases hy
  · next x xs h =>
    rw [h] at hex hall
    have earliest : xs.foldl (fun a y => min a y.due) x.due = t := by
      refine foldl_min_eq NoticeRep.due xs x.due (hall x List.mem_cons_self) (fun y hy => hall y (List.mem_cons_of_mem x hy)) ?_
      obtain ⟨y, hy, ht⟩ := hex
      rcases List.mem_cons.mp hy with rfl | hy
      · exact .inl ht
      · exact .inr ⟨y, hy, ht⟩
    dsimp only
    rw [earliest]
    refine congrFun (congrArg (atTime t) (funext fun e => ?_)) d
    rw [List.partition_eq_filter_filter]
    rfl

/-! ### What waits afterwards -/

theorem due_of_mem_repeatsAfter {t : Nat} {ys : List NoticeRep} (hall : ∀ y ∈ ys, t ≤ y.due) {y : NoticeRep} (hy : y ∈ repeatsAfter t ys) :
    t < y.due := by
  unfold repeatsAfter at hy
  rcases List.mem_append.mp hy with hy | hy
  · have later := (List.mem_filter.mp hy).2
    simpa using later
  · obtain ⟨z, hz, rfl⟩ := List.mem_map.mp (List.mem_filter.mp hy).1
    have := hall z (List.mem_filter.mp hz).1
    dsimp only
    omega

theorem mem_repeatsAfter {t : Nat} {ys : List NoticeRep} {y : NoticeRep} (hy : y ∈ ys) (ht : y.due = t) (hl : 1 < y.left) :
    { y with left := y.left - 1, due := t + 1000000 } ∈ repeatsAfter t ys := by
  refine List.mem_append_right _ (List.mem_filter.mpr ⟨List.mem_map.mpr ⟨y, List.mem_filter.mpr ⟨hy, ?_⟩, ?_⟩, ?_⟩)
  · exact decide_eq_true ht.le
  · rw [ht]
  · exact decide_eq_true (show 0 < y.left - 1 by omega)

/-! ### What is sent -/

/-- A frame at port `p` goes: the unit acts, and the port transmits (R235, R333). -/
def Dev.noticesGo (d : Dev) (p : Nat) : Bool := d.acting && d.portSends p && !d.xingDead (1 + p)

section
variable (y : NoticeRep) (d : Dev)

theorem sendOnly_noticeAgain : SendOnly y.port d (noticeAgain y d) := by
  unfold noticeAgain
  split
  · exact (sendOnly_ethSend (.inl rfl) rfl d).1
  · exact sendOnly_inc (.inr (.inr rfl))

/-- The frame goes: it is on its way. -/
theorem carries_noticeAgain (hg : d.noticesGo y.port = true) : ((noticeAgain y d).port y.port).Carries y.bytes := by
  simp only [Dev.noticesGo, Bool.and_eq_true, Bool.not_eq_true'] at hg
  obtain ⟨⟨ha, hp⟩, hd⟩ := hg
  unfold noticeAgain
  rw [if_pos ha]
  exact (sendOnly_ethSend (.inl rfl) rfl d).2 rfl hp hd

theorem det_noticeAgain : (noticeAgain y d).det = d.det := by rw [(sendOnly_noticeAgain y d).rest]

end

/-- Whether the unit acts is none of the words that sending writes, nor is the crossing of a port. -/
theorem not_sentWord_unit {p k : Nat} (h : k = SPN_STAT_acting.key ∨ k = GCTL_FAB_STAT_dead_xing.key) : ¬sentWord p k := by
  simp only [sentWord, SPN_STAT_acting, GCTL_FAB_STAT_dead_xing, ETH_STAT, ETH_CNT, GCTL_XDROP, DET_NOTICE_SENT, DET_NOTICE_NOT_SENT] at h ⊢
  omega

theorem SendOnly.acting {p : Nat} {d e : Dev} (h : SendOnly p d e) : e.acting = d.acting :=
  congrArg (· != 0) (h.get (not_sentWord_unit (.inl rfl)))

theorem SendOnly.noticesGo {p : Nat} {d e : Dev} (h : SendOnly p d e) (q : Nat) : e.noticesGo q = d.noticesGo q := by
  unfold Dev.noticesGo Dev.portSends Dev.xingDead
  rw [h.acting, h.state q, Dev.flag_eq, h.link q, ← Dev.flag_eq, h.get (f := GCTL_FAB_STAT_dead_xing) (not_sentWord_unit (.inr rfl))]

section
variable (ys : List NoticeRep) (d : Dev)

theorem det_forL_noticeAgain : (forL ys noticeAgain d).det = d.det :=
  forL_keeps (P := fun e => e.det = d.det) (fun y e he => (det_noticeAgain y e).trans he) ys d rfl

/-- A frame that goes is still on its way when the others have been sent. -/
theorem carries_forL_noticeAgain {y : NoticeRep} (hy : y ∈ ys) (hg : d.noticesGo y.port = true) :
    ((forL ys noticeAgain d).port y.port).Carries y.bytes := by
  induction ys generalizing d with
  | nil => cases hy
  | cons z zs ih =>
    rcases List.mem_cons.mp hy with rfl | hy
    · exact forL_keeps (P := fun e => (e.port y.port).Carries y.bytes) (fun w e => (sendOnly_noticeAgain w e).carries _ _) zs _
        (carries_noticeAgain y d hg)
    · exact ih (noticeAgain z d) hy (((sendOnly_noticeAgain z d).noticesGo _).trans hg)

/-- A unit that does not act counts every frame. -/
theorem notSent_forL_noticeAgain (ha : d.acting = false) :
    (forL ys noticeAgain d).get DET_NOTICE_NOT_SENT = min (d.get DET_NOTICE_NOT_SENT + ys.length) 4294967295 := by
  induction ys generalizing d with
  | nil => exact (Nat.min_eq_left (Nat.le_of_lt_succ (d.get_lt DET_NOTICE_NOT_SENT))).symm
  | cons y ys ih =>
    have counted : (noticeAgain y d).get DET_NOTICE_NOT_SENT = min (d.get DET_NOTICE_NOT_SENT + 1) 4294967295 := by
      unfold noticeAgain
      rw [if_neg (by simp [ha])]
      exact Dev.get_inc_same d DET_NOTICE_NOT_SENT rfl
    refine (ih (noticeAgain y d) ((sendOnly_noticeAgain y d).acting.trans ha)).trans ?_
    rw [counted, List.length_cons]
    omega

end

/-! ### The frames due are sent -/

section
variable (t : Nat) (d : Dev)

theorem repeats_noticesDue : (noticesDue t d).det.repeats = repeatsAfter t d.det.repeats :=
  congrArg DetSt.repeats (det_forL_noticeAgain ..)

theorem carries_noticesDue {y : NoticeRep} (hy : y ∈ d.det.repeats) (ht : y.due ≤ t) (hg : d.noticesGo y.port = true) :
    ((noticesDue t d).port y.port).Carries y.bytes :=
  carries_forL_noticeAgain _ _ (List.mem_filter.mpr ⟨hy, decide_eq_true ht⟩) hg

theorem notSent_noticesDue (ha : d.acting = false) :
    (noticesDue t d).get DET_NOTICE_NOT_SENT =
      min (d.get DET_NOTICE_NOT_SENT + (d.det.repeats.filter (fun y => decide (y.due ≤ t))).length) 4294967295 :=
  notSent_forL_noticeAgain _ _ ha

end

/-- A notice frame on its way is one of the frames that the port holds. -/
theorem EthPort.Carries.item {e : EthPort} {bs : List Byte} (h : e.Carries bs) :
    ∃ it ∈ e.current.toList ++ e.suspended.toList ++ e.express, it.kind = .alarm ∧ it.bytes = bs := by
  obtain ⟨i, hi, hk, -, hb⟩ := h
  refine ⟨i, ?_, hk, hb⟩
  rcases hi with hc | hx
  · exact List.mem_append_left _ (List.mem_append_left _ (Option.mem_toList.mpr hc))
  · exact List.mem_append_right _ hx

/-- Passing time leaves DET and what decides whether a frame goes. -/
theorem det_passTo (t : Nat) (d : Dev) : (passTo t d).det = d.det := by rw [passTo_rest]

theorem noticesGo_passTo (t p : Nat) (d : Dev) : (passTo t d).noticesGo p = d.noticesGo p := by rw [passTo_rest]; rfl

theorem acting_passTo (t : Nat) (d : Dev) : (passTo t d).acting = d.acting := by rw [passTo_rest]; rfl

end Sys2Proof.Machine
end

section
/-! PROOF. The alarm state table: what records, notice frames and summaries leave of it (O46). -/
namespace Sys2Proof.Machine

/-! ## What records and notice frames leave -/

/-- The words of the alarm state table, and DET_SEQ. -/
def alarmWord (k : Nat) : Prop := k = DET_SEQ.key ∨ 0xB8000 ≤ k ∧ k < 0xC0000

/-- The alarm state table, DET_SEQ, the results that wait and the pending points stay. -/
structure AlarmsKept (d e : Dev) : Prop where
  words : Dev.Kept alarmWord d e
  inbox : e.det.inbox = d.det.inbox
  pend : e.det.pend = d.det.pend

theorem AlarmsKept.refl (d : Dev) : AlarmsKept d d := ⟨.refl d, rfl, rfl⟩

theorem AlarmsKept.trans {a b c : Dev} (h : AlarmsKept a b) (g : AlarmsKept b c) : AlarmsKept a c :=
  ⟨h.words.trans g.words, g.inbox.trans h.inbox, g.pend.trans h.pend⟩

theorem AlarmsKept.ite {c : Prop} [Decidable c] {d x y : Dev} (hx : AlarmsKept d x) (hy : AlarmsKept d y) : AlarmsKept d (if c then x else y) := by
  split
  · exact hx
  · exact hy

theorem alarmsKept_set {f : Fld} (hf : ¬alarmWord f.key) (v : Nat) (d : Dev) : AlarmsKept d (d.set f v) := ⟨(Dev.Kept.refl d).set hf v, rfl, rfl⟩

theorem alarmsKept_forL {α : Type} {f : α → Dev → Dev} (h : ∀ a d, AlarmsKept d (f a d)) (xs : List α) (d : Dev) : AlarmsKept d (forL xs f d) :=
  forL_keeps (P := AlarmsKept d) (fun a e he => he.trans (h a e)) xs d (.refl d)

theorem alarmWord_block {k : Nat} (h : alarmWord k) : keyBlock k = 0xB := by
  simp only [alarmWord, DET_SEQ, keyBlock, masterSpan] at h ⊢
  omega

theorem TrafficOnly.alarms {d e : Dev} (h : TrafficOnly d e) : AlarmsKept d e := by
  refine ⟨⟨fun k hk => ?_⟩, by rw [h.rest], by rw [h.rest]⟩
  have hb := alarmWord_block hk
  refine h.word k (by omega) (by omega) (by omega) ?_
  rintro rfl
  exact absurd hb (by decide)

/-- The words of sending at one of the ports are none of them. -/
theorem SendOnly.alarms {p : Nat} (hp : p < 4) {d e : Dev} (h : SendOnly p d e) : AlarmsKept d e := by
  refine ⟨⟨fun k hk => h.word k ?_⟩, by rw [h.rest], by rw [h.rest]⟩
  simp only [alarmWord, sentWord, DET_SEQ, ETH_STAT, ETH_CNT, GCTL_XDROP, DET_NOTICE_SENT, DET_NOTICE_NOT_SENT] at hk ⊢
  omega

theorem alarmsKept_noticeSend (rs : List AlmRec) (d : Dev) : AlarmsKept d (noticeSend rs d) := by
  unfold noticeSend
  extract_lets p payload udp bs det d1 n det' d2
  have counted : AlarmsKept d d1 := ⟨⟨fun _ _ => rfl⟩, rfl, rfl⟩
  split
  · have noted : AlarmsKept d1 d2 := .ite (.refl d1) ⟨⟨fun _ _ => rfl⟩, rfl, rfl⟩
    exact (counted.trans noted).trans ((sendOnly_ethSend (.inl rfl) rfl d2).1.alarms (d.get_lt DET_NOTICE_CFG_port))
  · exact counted.trans (alarmsKept_set (f := DET_NOTICE_NOT_SENT) (by simp [alarmWord, DET_NOTICE_NOT_SENT, DET_SEQ]) _ d1)

/-- Records go to queues and notice frames, and leave the table. -/
theorem alarmsKept_almOut (rs : List AlmRec) (d : Dev) : AlarmsKept d (almOut rs d) := by
  unfold almOut
  extract_lets d1 ns
  have written : AlarmsKept d d1 := by
    refine alarmsKept_forL (fun r d => .ite ?_ (.refl d)) rs d
    exact (trafficOnly_queueRecord (d.get_lt (DET_CLASS_CFG_queue r.cls)) _ d).alarms
  exact .ite (written.trans (alarmsKept_forL alarmsKept_noticeSend _ d1)) written

theorem alarmsKept_detPublish (d : Dev) : AlarmsKept d (detPublish d) := by
  unfold detPublish
  extract_lets es of d1 pin alm
  have summed : AlarmsKept d d1 := by
    refine forN_keeps (P := AlarmsKept d) (fun c hc e he => he.trans ?_) d (.refl d)
    have apart : ¬alarmWord (DET_CLASS_STAT c).key := by
      simp only [alarmWord, DET_CLASS_STAT, DET_SEQ]
      omega
    exact ((alarmsKept_set (f := DET_CLASS_STAT_active c) apart _ e).trans (alarmsKept_set (f := DET_CLASS_STAT_latched c) apart _ _)).trans
      (alarmsKept_set (f := DET_CLASS_STAT_unacked c) apart _ _)
  have apart : ¬alarmWord DET_ALM_STAT.key := by simp [alarmWord, DET_ALM_STAT, DET_SEQ]
  exact (summed.trans (alarmsKept_set (f := DET_ALM_STAT_alm) apart _ d1)).trans (alarmsKept_set (f := DET_ALM_STAT_token) apart _ _)

/-- The end of a decision: its records go out, and the summaries and the pins follow. -/
def alarmsDone (acc : List AlmRec × Dev) : Dev := detPublish (almOut acc.1 acc.2)

theorem alarmsKept_alarmsDone (acc : List AlmRec × Dev) : AlarmsKept acc.2 (alarmsDone acc) :=
  (alarmsKept_almOut acc.1 acc.2).trans (alarmsKept_detPublish _)

/-! ## Entries of the table (R227) -/

section
variable (p v : Nat) (d : Dev)

theorem ast_putAst_same : (d.putAst p v).ast p = v % 65536 := by
  unfold Dev.putAst Dev.ast
  split
  · exact Dev.get_set_same d (DET_AST_entry_even (p / 2)) v rfl
  · exact Dev.get_set_same d (DET_AST_entry_odd (p / 2)) v rfl

theorem ast_putAst_ne {q : Nat} (h : q ≠ p) : (d.putAst p v).ast q = d.ast q := by
  unfold Dev.putAst Dev.ast
  split <;> split <;> refine Dev.get_set_apart d _ _ v (by rfl) ?_
  all_goals simp only [Fld.apart, DET_AST_entry_even, DET_AST_entry_odd, Bool.or_eq_true, bne_iff_ne]
  · omega
  · exact .inr rfl
  · exact .inl (.inr rfl)
  · omega

theorem ast_lt : d.ast p < 65536 := by
  unfold Dev.ast
  split
  · exact d.get_lt (DET_AST_entry_even (p / 2))
  · exact d.get_lt (DET_AST_entry_odd (p / 2))

end

theorem Dev.Kept.ast {d e : Dev} (h : Dev.Kept alarmWord d e) {q : Nat} (hq : q < 16384) : e.ast q = d.ast q := by
  have table : alarmWord (DET_AST (q / 2)).key := .inr (by simp only [DET_AST]; omega)
  unfold Dev.ast
  rw [h.get (f := DET_AST_entry_even (q / 2)) table, h.get (f := DET_AST_entry_odd (q / 2)) table]

theorem ast_set {f : Fld} (hf : f.key < 0xB8000) (v q : Nat) (d : Dev) : (d.set f v).ast q = d.ast q := by
  unfold Dev.ast
  rw [Dev.get_set_ne d f _ v (by simp only [DET_AST_entry_even]; omega), Dev.get_set_ne d f _ v (by simp only [DET_AST_entry_odd]; omega)]

theorem ast_almForm (a : AlmData) (q : Nat) (d : Dev) : (almForm a d).2.ast q = d.ast q := ast_set (f := DET_SEQ) (by decide) _ q d

theorem ast_detPendShow (q : Nat) (d : Dev) : (detPendShow d).ast q = d.ast q := ast_set (f := DET_PEND_pending) (by decide) _ q d

end Sys2Proof.Machine
end

section
/-! PROOF. Pending points resolve, and results decide alarms (O46). -/
namespace Sys2Proof.Machine

/-! ## The confirm field of a pending point (R232, R233) -/

/-- The outcome of a pending point goes to the confirm field of its entry, where it still speaks of the latest set; the other entries stay. -/
theorem ast_pendResolve (x : PendPoint) (outcome extra : Nat) (acc : List AlmRec × Dev) (q : Nat) :
    (pendResolve x outcome extra acc).2.ast q =
      if x.current = true ∧ q = x.point then putBits (acc.2.ast q) 4 2 outcome else acc.2.ast q := by
  have formed (a : AlmData) (q : Nat) : (almForm a acc.2).2.ast q = acc.2.ast q := ast_almForm a q acc.2
  unfold pendResolve
  dsimp only
  split
  · next hc =>
    by_cases hq : q = x.point
    · subst hq
      rw [if_pos ⟨hc, rfl⟩, ast_putAst_same, formed]
      exact Nat.mod_eq_of_lt (putBits_lt _ 4 2 outcome 16 (by decide) (ast_lt ..))
    · rw [if_neg (fun h => hq h.2), ast_putAst_ne _ _ _ hq, formed]
  · next hc => rw [if_neg (fun h => hc h.1), formed]

theorem det_pendResolve (x : PendPoint) (outcome extra : Nat) (acc : List AlmRec × Dev) : (pendResolve x outcome extra acc).2.det = acc.2.det := by
  unfold pendResolve Dev.putAst
  dsimp only
  split
  · split <;> rfl
  · rfl

/-- Points resolve one after the other. -/
def resolves (f : PendPoint → Nat × Nat) (xs : List PendPoint) (acc : List AlmRec × Dev) : List AlmRec × Dev :=
  forL xs (fun x acc => pendResolve x (f x).1 (f x).2 acc) acc

theorem pendResolveAll_eq (sel : PendPoint → Bool) (f : PendPoint → Nat × Nat) (acc : List AlmRec × Dev) :
    pendResolveAll sel f acc = resolves f (acc.2.det.pend.filter sel)
      (acc.1, detPendShow { acc.2 with det := { acc.2.det with pend := acc.2.det.pend.filter (fun x => !sel x) } }) := by
  unfold pendResolveAll
  dsimp only
  rw [List.partition_eq_filter_filter]
  rfl

/-- What each resolution keeps, all of them keep. -/
theorem resolves_keeps {P : Dev → Prop} {f : PendPoint → Nat × Nat} {xs : List PendPoint} {acc : List AlmRec × Dev}
    (h : ∀ x acc, P acc.2 → P (pendResolve x (f x).1 (f x).2 acc).2) (h0 : P acc.2) : P (resolves f xs acc).2 := by
  unfold resolves forL
  induction xs generalizing acc with
  | nil => exact h0
  | cons x xs ih => exact ih (h x acc h0)

theorem det_resolves (f : PendPoint → Nat × Nat) (xs : List PendPoint) (acc : List AlmRec × Dev) : (resolves f xs acc).2.det = acc.2.det :=
  resolves_keeps (P := fun e => e.det = acc.2.det) (fun x a ha => (det_pendResolve x _ _ a).trans ha) rfl

/-- The confirm field reads the outcome, once the point has been resolved. -/
theorem confirm_resolves {o : Nat × Nat} (ho : o.1 < 4) {xs : List PendPoint} {acc : List AlmRec × Dev} {x : PendPoint} (hx : x ∈ xs)
    (hc : x.current = true) : bits ((resolves (fun _ => o) xs acc).2.ast x.point) 4 2 = o.1 := by
  have resolved (y : PendPoint) (a : List AlmRec × Dev) (h : y.current = true ∧ x.point = y.point ∨ bits (a.2.ast x.point) 4 2 = o.1) :
      bits ((pendResolve y o.1 o.2 a).2.ast x.point) 4 2 = o.1 := by
    rw [ast_pendResolve]
    split
    · rw [bits_putBits_same]
      exact Nat.mod_eq_of_lt ho
    · next hn => exact h.resolve_left hn
  induction xs generalizing acc with
  | nil => cases hx
  | cons y ys ih =>
    rcases List.mem_cons.mp hx with rfl | hx
    · exact resolves_keeps (f := fun _ => o) (acc := pendResolve x o.1 o.2 acc) (P := fun e => bits (e.ast x.point) 4 2 = o.1)
        (fun y a ha => resolved y a (.inr ha)) (resolved x acc (.inl ⟨hc, rfl⟩))
    · exact ih hx

/-! ## Points that have waited for confirm_ms (R232) -/

/-- The wait of a point for a re-run ends by `t`. -/
def waitedUntil (t : Nat) (x : PendPoint) : Bool := match x.until_ with | some u => decide (u ≤ t) | none => false

/-- The points whose wait ends by `t` resolve as UNVERIFIED. -/
def pointsUnverified (t : Nat) (d : Dev) : Dev := alarmsDone (pendResolveAll (waitedUntil t) (fun _ => (3, 0)) ([], d))

theorem confirmTimeout_none {d : Dev} (h : ∀ x ∈ d.det.pend, x.until_ = none) : confirmTimeout d = d := by
  unfold confirmTimeout
  rw [List.filterMap_eq_nil_iff.mpr h]

theorem confirmTimeout_due {d : Dev} {t : Nat} (hex : ∃ x ∈ d.det.pend, x.until_ = some t) (hall : ∀ x ∈ d.det.pend, ∀ u, x.until_ = some u → t ≤ u) :
    confirmTimeout d = atTime t (pointsUnverified t) d := by
  have instants (u : Nat) : u ∈ d.det.pend.filterMap (fun x => x.until_) ↔ ∃ x ∈ d.det.pend, x.until_ = some u := List.mem_filterMap
  have least : ∀ u ∈ d.det.pend.filterMap (fun x => x.until_), t ≤ u := fun u hu => by
    obtain ⟨x, hx, hu⟩ := (instants u).mp hu
    exact hall x hx u hu
  have first := (instants t).mpr hex
  unfold confirmTimeout
  split
  · next h => rw [h] at first; cases first
  · next v vs h =>
    rw [h] at first least
    have earliest : vs.foldl min v = t := by
      refine foldl_min_eq (fun u => u) vs v (least v List.mem_cons_self) (fun u hu => least u (List.mem_cons_of_mem v hu)) ?_
      exact (List.mem_cons.mp first).imp Eq.symm (fun hm => ⟨t, hm, rfl⟩)
    dsimp only
    rw [earliest]
    rfl

theorem waitedUntil_eq {t : Nat} {x : PendPoint} (h : ∀ u, x.until_ = some u → t ≤ u) : waitedUntil t x = decide (x.until_ = some t) := by
  unfold waitedUntil
  cases hu : x.until_ with
  | none => rfl
  | some u =>
    have := h u hu
    exact decide_eq_decide.mpr (by rw [Option.some.injEq]; omega)

section
variable {d : Dev} {t : Nat}

theorem pend_pointsUnverified (hall : ∀ x ∈ d.det.pend, ∀ u, x.until_ = some u → t ≤ u) :
    (pointsUnverified t d).det.pend = d.det.pend.filter (fun x => decide (x.until_ ≠ some t)) := by
  refine (alarmsKept_alarmsDone _).pend.trans ?_
  rw [pendResolveAll_eq, det_resolves]
  refine List.filter_congr fun x hx => ?_
  rw [waitedUntil_eq (hall x hx), decide_not]

theorem confirm_pointsUnverified (hall : ∀ x ∈ d.det.pend, ∀ u, x.until_ = some u → t ≤ u) {x : PendPoint} (hx : x ∈ d.det.pend)
    (ht : x.until_ = some t) (hc : x.current = true) (hp : x.point < 16384) : bits ((pointsUnverified t d).ast x.point) 4 2 = 3 := by
  unfold pointsUnverified
  rw [(alarmsKept_alarmsDone _).words.ast hp, pendResolveAll_eq]
  refine confirm_resolves (o := (3, 0)) (by decide) (List.mem_filter.mpr ⟨hx, ?_⟩) hc
  rw [waitedUntil_eq (hall x hx), ht]
  exact decide_eq_true rfl

end

/-! ## The rule -/

theorem alarmsWaitAndRepeat : Rules.AlarmsWaitAndRepeat := by
  intro s hr
  refine ⟨fun h => settles_of rfl hr (confirmTimeout_none h), fun due hex hall => ?_, fun h => settles_of rfl hr (noticeRepeat_none h),
    fun due hex hall => ?_⟩
  · intro z
    have held : z.det = s.dev.det := det_passTo due s.dev
    refine ⟨fun he => settles_of rfl hr ((confirmTimeout_due hex hall).trans (atTime_early he)), fun he =>
      ⟨pointsUnverified due z, settles_of rfl hr ((confirmTimeout_due hex hall).trans (atTime_reached he)), ?_⟩⟩
    rw [← held] at hall ⊢
    exact ⟨pend_pointsUnverified hall, fun x hx ht hc hp => confirm_pointsUnverified hall hx ht hc hp⟩
  · intro z
    have held : z.det = s.dev.det := det_passTo due s.dev
    refine ⟨fun he => settles_of rfl hr ((noticeRepeat_due hex hall).trans (atTime_early he)), fun he =>
      ⟨noticesDue due z, settles_of rfl hr ((noticeRepeat_due hex hall).trans (atTime_reached he)), ?_⟩⟩
    rw [repeats_noticesDue, held]
    refine ⟨fun x hx => due_of_mem_repeatsAfter hall hx, fun x hx ht hl => mem_repeatsAfter hx ht hl, fun ha x hx ht hp hd => ?_, fun ha => ?_⟩
    · have goes : z.noticesGo x.port = true := by
        rw [noticesGo_passTo, Dev.noticesGo, ha, hp, hd]
        rfl
      exact (carries_noticesDue due z (held ▸ hx) ht.le goes).item
    · have now : s.dev.det.repeats.filter (fun x => decide (x.due ≤ due)) = s.dev.det.repeats.filter (fun x => decide (x.due = due)) :=
        List.filter_congr fun x hx => by
          have := hall x hx
          exact decide_eq_decide.mpr (by omega)
      rw [notSent_noticesDue due z ((acting_passTo due s.dev).trans ha), held, now, get_passTo]

end Sys2Proof.Machine
end

section
/-! PROOF. Results decide alarms, and acknowledgements (O46). -/
namespace Sys2Proof.Machine

/-! ## What leaves the points as active as they were (R228, R233) -/

/-- Every point is as active as before, and the same results wait. -/
structure SameActive (d e : Dev) : Prop where
  active : ∀ q < 16384, bitAt (e.ast q) 0 = bitAt (d.ast q) 0
  inbox : e.det.inbox = d.det.inbox

theorem SameActive.refl (d : Dev) : SameActive d d := ⟨fun _ _ => rfl, rfl⟩

theorem SameActive.trans {a b c : Dev} (h : SameActive a b) (g : SameActive b c) : SameActive a c :=
  ⟨fun q hq => (g.active q hq).trans (h.active q hq), g.inbox.trans h.inbox⟩

theorem AlarmsKept.sameActive {d e : Dev} (h : AlarmsKept d e) : SameActive d e := ⟨fun _ hq => by rw [h.words.ast hq], h.inbox⟩

theorem sameActive_almForm (a : AlmData) (d : Dev) : SameActive d (almForm a d).2 := ⟨fun q _ => by rw [ast_almForm], rfl⟩

/-- Another list of pending points, and its number. -/
theorem sameActive_detPendShow (d : Dev) (x : DetSt) (h : x.inbox = d.det.inbox) : SameActive d (detPendShow { d with det := x }) :=
  ⟨fun q _ => congrArg (bitAt · 0) (ast_detPendShow q { d with det := x }), h⟩

/-- The confirm field lies apart from the active bit. -/
theorem sameActive_pendResolve (x : PendPoint) (outcome extra : Nat) (acc : List AlmRec × Dev) :
    SameActive acc.2 (pendResolve x outcome extra acc).2 := by
  refine ⟨fun q _ => ?_, by rw [det_pendResolve]⟩
  rw [ast_pendResolve]
  split
  · rw [bitAt_eq, bitAt_eq, bits_putBits_apart _ _ _ _ _ _ (.inr (by decide))]
  · rfl

theorem sameActive_pendResolveAll (sel : PendPoint → Bool) (f : PendPoint → Nat × Nat) (acc : List AlmRec × Dev) :
    SameActive acc.2 (pendResolveAll sel f acc).2 := by
  rw [pendResolveAll_eq]
  exact resolves_keeps (P := SameActive acc.2) (fun x a ha => ha.trans (sameActive_pendResolve x _ _ a)) (sameActive_detPendShow acc.2 _ rfl)

theorem sameActive_pendFinal (x : PendPoint) (arrived : Nat) (acc : List AlmRec × Dev) : SameActive acc.2 (pendFinal x arrived acc).2 := by
  unfold pendFinal
  dsimp only
  split
  · split
    · split
      · exact sameActive_pendResolve x _ _ acc
      · exact sameActive_pendResolve x _ _ acc
    · exact sameActive_detPendShow acc.2 _ rfl
  · exact sameActive_detPendShow acc.2 _ rfl

/-! ## A point is decided (R228) -/

section
variable {r : DetResult} (b : Nat) (acc : List AlmRec × Dev)

/-- The entry of a point that a result sets: active, latched and unacked, with PROV and the class (R227). -/
def setEntry (r : DetResult) : Nat := 7 + b2n r.prov * 8 + r.cls * 64

theorem active_setEntry (r : DetResult) : bitAt (setEntry r % 65536) 0 = true := by
  simp only [setEntry, bitAt, beq_iff_eq]
  omega

/-- The record, the event and the pending points of a set follow its entry. -/
theorem sameActive_pointSet (hc : r.cls ≤ 11) : SameActive (acc.2.putAst (16 * r.inst + b) (setEntry r)) (pointSet r b acc).2 := by
  have recorded (d : Dev) (x : DetSt) (a : AlmData) (y : AcqSt) (hx : x.inbox = d.det.inbox) :
      SameActive d (raiseMs (88 + r.cls) { (almForm a { d with det := x }).2 with acq := y }) := by
    refine SameActive.trans ?_ (eventOnly_raiseMs _ (by omega)).traffic.alarms.sameActive
    exact ⟨fun q _ => congrArg (bitAt · 0) (ast_almForm a q { d with det := x }), hx⟩
  unfold pointSet
  dsimp only
  generalize he : raiseMs (88 + r.cls) _ = e
  have entered : SameActive (acc.2.putAst (16 * r.inst + b) (setEntry r)) e := he ▸ recorded _ _ _ _ rfl
  split
  · split
    · refine entered.trans (SameActive.trans ?_ (sameActive_pendResolve ..))
      exact (alarmsKept_set (f := DET_PEND_overflow) (by simp [alarmWord, DET_PEND_overflow, DET_SEQ]) _ e).sameActive
    · split
      · exact entered.trans (sameActive_pendFinal _ _ (_, e))
      · exact entered.trans (sameActive_detPendShow e _ rfl)
  · exact entered

theorem sameActive_pointClear (i flags instant value : Nat) :
    SameActive (acc.2.putAst (16 * i + b) (setBit (acc.2.ast (16 * i + b)) 0 false)) (pointClear i b flags instant value acc).2 := by
  unfold pointClear
  dsimp only
  exact sameActive_almForm _ _

end

theorem inbox_putAst (p v : Nat) (d : Dev) : (d.putAst p v).det.inbox = d.det.inbox := by
  unfold Dev.putAst
  split <;> rfl

/-- One point of a first run is compared with its bit: it is set, it is cleared, or it stays. -/
def pointDecided (r : DetResult) (b : Nat) (acc : List AlmRec × Dev) : List AlmRec × Dev :=
  let active := bitAt (acc.2.ast (16 * r.inst + b)) 0
  if bitAt r.bits b && !active then pointSet r b acc
  else if !bitAt r.bits b && active then
    pointClear r.inst b (b2n r.memLost * 32 + b2n r.isLocal * 64) r.instant ((lookup b r.vals).getD fNaN) acc
  else acc

/-- The point `p` is active as `a` says, the others are as they were, and the same results wait. -/
structure Decided (p : Nat) (a : Bool) (d e : Dev) : Prop where
  point : bitAt (e.ast p) 0 = a
  others : ∀ q < 16384, q ≠ p → bitAt (e.ast q) 0 = bitAt (d.ast q) 0
  inbox : e.det.inbox = d.det.inbox

theorem decided_of_putAst {p v : Nat} (hp : p < 16384) {a : Bool} (hv : bitAt (v % 65536) 0 = a) {d e : Dev} (h : SameActive (d.putAst p v) e) :
    Decided p a d e where
  point := by rw [h.active p hp, ast_putAst_same, hv]
  others := fun q hq hne => by rw [h.active q hq, ast_putAst_ne _ _ _ hne]
  inbox := h.inbox.trans (inbox_putAst p v d)

section
variable {r : DetResult} (hi : r.inst < 1024) (hc : r.cls ≤ 11)
include hi hc

/-- The point is active afterwards exactly where its bit says. -/
theorem decided_pointDecided {b : Nat} (hb : b < 16) (acc : List AlmRec × Dev) :
    Decided (16 * r.inst + b) (bitAt r.bits b) acc.2 (pointDecided r b acc).2 := by
  have hp : 16 * r.inst + b < 16384 := by omega
  unfold pointDecided
  extract_lets active
  split
  · next h =>
    rw [Bool.and_eq_true] at h
    exact decided_of_putAst hp ((active_setEntry r).trans h.1.symm) (sameActive_pointSet b acc hc)
  · next hset =>
    split
    · next h =>
      rw [Bool.and_eq_true, Bool.not_eq_true'] at h
      refine decided_of_putAst hp ?_ (sameActive_pointClear b acc r.inst _ _ _)
      have fits : setBit (acc.2.ast (16 * r.inst + b)) 0 false < 65536 := putBits_lt _ 0 1 _ 16 (by decide) (ast_lt ..)
      rw [Nat.mod_eq_of_lt fits, bitAt_setBit, if_pos rfl, h.1]
    · next hclear =>
      have same : active = bitAt r.bits b := by
        revert hset hclear
        cases active <;> cases bitAt r.bits b <;> decide
      exact ⟨same, fun _ _ _ => rfl, rfl⟩

/-- After the sixteen points each is active exactly where its bit says. -/
theorem decided_points (acc : List AlmRec × Dev) :
    (∀ b < 16, bitAt ((forN 16 (pointDecided r) acc).2.ast (16 * r.inst + b)) 0 = bitAt r.bits b) ∧
      (forN 16 (pointDecided r) acc).2.det.inbox = acc.2.det.inbox := by
  have upto (n : Nat) (hn : n ≤ 16) : (∀ b < n, bitAt ((forN n (pointDecided r) acc).2.ast (16 * r.inst + b)) 0 = bitAt r.bits b) ∧
      (forN n (pointDecided r) acc).2.det.inbox = acc.2.det.inbox := by
    induction n with
    | zero => exact ⟨fun b hb => absurd hb (Nat.not_lt_zero b), rfl⟩
    | succ n ih =>
      obtain ⟨before, waits⟩ := ih (by omega)
      have last : forN (n + 1) (pointDecided r) acc = pointDecided r n (forN n (pointDecided r) acc) := by
        unfold forN
        rw [List.range_succ, List.foldl_append]
        rfl
      have now := decided_pointDecided hi hc (b := n) (by omega) (forN n (pointDecided r) acc)
      rw [last]
      refine ⟨fun b hb => ?_, now.inbox.trans waits⟩
      rcases Nat.lt_succ_iff_lt_or_eq.mp hb with hb | rfl
      · exact (now.others _ (by omega) (by omega)).trans (before b hb)
      · exact now.point
  exact upto 16 (Nat.le_refl 16)

end

/-! ## A result (R228) -/

section
variable {r : DetResult} {d : Dev} (hs : r.signal = false) (hc : r.cls ≤ 11)
include hs hc

/-- A re-run resolves pending points. -/
theorem detHandle_rerun (hr : r.rerun = true) : ∃ sel f, detHandle r d = alarmsDone (pendResolveAll sel f ([], detNote r d)) := by
  unfold detHandle
  rw [if_neg (by simp [hs]), if_neg (by omega)]
  dsimp only
  rw [if_pos hr]
  exact ⟨_, _, rfl⟩

/-- A first run decides its sixteen points; with RESTRUCT it resolves the points that were pending before it (R234). -/
theorem detHandle_first (hr : r.rerun = false) : ∃ sel, detHandle r d =
    alarmsDone (if r.restruct then pendResolveAll sel (fun _ => (3, 4096)) (forN 16 (pointDecided r) ([], detNote r d))
      else forN 16 (pointDecided r) ([], detNote r d)) := by
  unfold detHandle
  rw [if_neg (by simp [hs]), if_neg (by omega)]
  dsimp only
  rw [if_neg (by simp [hr])]
  exact ⟨_, rfl⟩

theorem detHandle_decides (hi : r.inst < 1024) : (detHandle r d).det.inbox = d.det.inbox ∧
    ∀ b < 16, bitAt ((detHandle r d).ast (16 * r.inst + b)) 0 = if r.rerun then bitAt (d.ast (16 * r.inst + b)) 0 else bitAt r.bits b := by
  have noted : SameActive d (detNote r d) := ⟨fun _ _ => rfl, rfl⟩
  have finished (acc : List AlmRec × Dev) : SameActive acc.2 (alarmsDone acc) := (alarmsKept_alarmsDone acc).sameActive
  cases hr : r.rerun with
  | true =>
    obtain ⟨sel, f, he⟩ := detHandle_rerun (d := d) hs hc hr
    have same := (noted.trans (sameActive_pendResolveAll sel f ([], detNote r d))).trans (finished _)
    rw [he]
    exact ⟨same.inbox, fun b hb => same.active _ (by omega)⟩
  | false =>
    obtain ⟨sel, he⟩ := detHandle_first (d := d) hs hc hr
    obtain ⟨decided, waits⟩ := decided_points hi hc ([], detNote r d)
    generalize forN 16 (pointDecided r) ([], detNote r d) = acc at he decided waits
    have same : SameActive acc.2 (detHandle r d) := by
      rw [he]
      split
      · exact (sameActive_pendResolveAll sel _ acc).trans (finished _)
      · exact finished acc
    exact ⟨same.inbox.trans (waits.trans noted.inbox), fun b hb => (same.active _ (by omega)).trans (decided b hb)⟩

end

end Sys2Proof.Machine
end

section
/-! PROOF. Acknowledgements, and the alarms of the detectors (O46). -/
namespace Sys2Proof.Machine

/-! ## An entry that is acknowledged (R230) -/

theorem bitAt_ackEntry (e i : Nat) :
    bitAt (ackEntry e) i = (bitAt e i && !decide (i = 2) && (!decide (i = 1) || bitAt e 0)) := by
  have zero : bitAt (setBit e 2 false) 0 = bitAt e 0 := by rw [bitAt_setBit, if_neg (by decide)]
  unfold ackEntry
  dsimp only
  rw [zero]
  by_cases h0 : bitAt e 0 = true
  · rw [if_pos h0, bitAt_setBit, h0]
    by_cases h2 : i = 2 <;> simp [h2]
  · rw [if_neg h0, bitAt_setBit, bitAt_setBit]
    rw [Bool.not_eq_true] at h0
    by_cases h1 : i = 1 <;> by_cases h2 : i = 2 <;> simp [h0, h1, h2]

theorem ackEntry_lt {e : Nat} (h : e < 65536) : ackEntry e < 65536 := by
  have cleared {v i : Nat} (hi : i < 16) (hv : v < 65536) : setBit v i false < 65536 := putBits_lt v i 1 _ 16 hi hv
  unfold ackEntry
  dsimp only
  split
  · exact cleared (by decide) h
  · exact cleared (by decide) (cleared (by decide) h)

/-- The class of an entry lies above the bits that an acknowledgement clears. -/
theorem class_ackEntry (e : Nat) : bits (ackEntry e) 6 4 = bits e 6 4 := by
  have above (v i : Nat) (hi : i < 6) : bits (setBit v i false) 6 4 = bits v 6 4 := bits_putBits_above v i 1 _ 6 4 (by omega)
  unfold ackEntry
  dsimp only
  split
  · exact above e 2 (by decide)
  · rw [above _ 1 (by decide), above e 2 (by decide)]

/-- Clearing a bit that is clear changes nothing. -/
theorem setBit_false {v i : Nat} (h : bitAt v i = false) : setBit v i false = v := by
  have clear : bits v i 1 = b2n false := by
    rw [bitAt_eq, beq_eq_false_iff_ne] at h
    have := bits_lt v i 1
    have : b2n false = 0 := rfl
    omega
  unfold setBit
  rw [← clear]
  exact putBits_self v i 1

/-- An acknowledged entry has been acknowledged. -/
theorem ackEntry_ackEntry (e : Nat) : ackEntry (ackEntry e) = ackEntry e := by
  have unacked : setBit (ackEntry e) 2 false = ackEntry e := setBit_false (by simp [bitAt_ackEntry])
  show (let x := setBit (ackEntry e) 2 false; if bitAt x 0 then x else setBit x 1 false) = ackEntry e
  rw [unacked]
  dsimp only
  split
  · rfl
  · next h =>
    have inactive : bitAt e 0 = false := by simpa [bitAt_ackEntry] using h
    exact setBit_false (by simp [bitAt_ackEntry, inactive])

/-! ## The entries of a class (R230) -/

section
variable (c : Nat)

/-- An entry after the acknowledgement of class `c`. -/
def ackOfClass (e : Nat) : Nat := if bits e 6 4 = c then ackEntry e else e

theorem ackOfClass_lt {e : Nat} (h : e < 65536) : ackOfClass c e < 65536 := by
  unfold ackOfClass
  split
  · exact ackEntry_lt h
  · exact h

theorem ackOfClass_ackOfClass (e : Nat) : ackOfClass c (ackOfClass c e) = ackOfClass c e := by
  unfold ackOfClass
  by_cases h : bits e 6 4 = c
  · rw [if_pos h, if_pos ((class_ackEntry e).trans h), ackEntry_ackEntry]
  · rw [if_neg h, if_neg h]

/-- The two entries of a word after it. -/
def ackWord (w : Word) : Word := BitVec.ofNat 32 (ackOfClass c (w.toNat % 65536) + ackOfClass c (w.toNat / 65536) * 65536)

theorem ackWord_toNat (w : Word) : (ackWord c w).toNat = ackOfClass c (w.toNat % 65536) + ackOfClass c (w.toNat / 65536) * 65536 := by
  have low := ackOfClass_lt c (e := w.toNat % 65536) (by omega)
  have high := ackOfClass_lt c (e := w.toNat / 65536) (by have := w.isLt; omega)
  unfold ackWord
  rw [BitVec.toNat_ofNat]
  omega

theorem ackWord_halves (w : Word) :
    (ackWord c w).toNat % 65536 = ackOfClass c (w.toNat % 65536) ∧ (ackWord c w).toNat / 65536 = ackOfClass c (w.toNat / 65536) := by
  have low := ackOfClass_lt c (e := w.toNat % 65536) (by omega)
  rw [ackWord_toNat]
  omega

theorem ackWord_ackWord (w : Word) : ackWord c (ackWord c w) = ackWord c w := by
  obtain ⟨low, high⟩ := ackWord_halves c w
  apply BitVec.eq_of_toNat_eq
  rw [ackWord_toNat c (ackWord c w), low, high, ackOfClass_ackOfClass, ackOfClass_ackOfClass, ackWord_toNat]

theorem ackWord_zero : ackWord c 0 = 0 := by
  have zero : ackOfClass c 0 = 0 := by
    unfold ackOfClass
    split <;> rfl
  apply BitVec.eq_of_toNat_eq
  rw [ackWord_toNat, show (0 : Word).toNat = 0 from rfl, Nat.zero_mod, Nat.zero_div, zero]

/-- Every listed word is acknowledged. -/
def ackWords (cells : List (Nat × Word)) (d : Dev) : Dev := forL cells (fun x d => d.putWord x.1 (ackWord c (d.word x.1))) d

/-- A word listed more than once is acknowledged once and for all. -/
theorem word_ackWords (cells : List (Nat × Word)) (d : Dev) (k : Nat) :
    (ackWords c cells d).word k = if ∃ x ∈ cells, x.1 = k then ackWord c (d.word k) else d.word k := by
  unfold ackWords forL
  induction cells generalizing d with
  | nil => simp
  | cons x xs ih =>
    rw [List.foldl_cons, ih]
    by_cases hx : x.1 = k
    · subst hx
      rw [Dev.word_putWord_same, ackWord_ackWord, ite_self, if_pos ⟨x, List.mem_cons_self, rfl⟩]
    · rw [Dev.word_putWord_ne _ _ (Ne.symm hx)]
      simp [hx]

end

/-! ### The words of the table -/

/-- The row of DET_AST. -/
def row_alarmTable : RegRow := ⟨0xB8000, [(8192, 0x4)], false, .none, [⟨0, 16, .ro, 0, []⟩, ⟨16, 16, .ro, 0, []⟩]⟩

theorem findRow_alarmTable {i : Nat} (hi : i < 8192) : findRow (0xB8000 + 0x4 * i) = some (row_alarmTable, [i]) := by
  refine findRow_split (r := row_alarmTable) (blk := 11) (pre := (blockRows 11).take 15) (post := (blockRows 11).drop 16) rfl (lo := 0xB8000) (by omega) (by omega) (by decide) ?_
  simp only [row_alarmTable, dimIndex]
  rw [if_neg (by omega), if_pos (by omega), if_pos (by omega)]
  simp only [Option.map_some]
  congr
  omega

theorem resetOf_alarmTable {i : Nat} (hi : i < 8192) : resetOf (0xB8000 + 0x4 * i) = 0 := by
  unfold resetOf resetAt
  rw [show masterSpan = 0x4000000 from rfl, Nat.mod_eq_of_lt (by omega), findRow_alarmTable hi]
  dsimp only
  unfold indexedReset
  rw [if_neg (by omega), if_neg (by omega), if_neg (by omega), if_neg (by omega)]
  rfl

/-- A word that is not listed reads its reset value. -/
theorem word_unlisted {d : Dev} {k : Nat} (h : ∀ x ∈ d.regs, x.1 ≠ k) : d.word k = resetOf k := by
  unfold Dev.word
  generalize d.regs = xs at h
  induction xs with
  | nil => rfl
  | cons x xs ih => exact (if_neg (h x List.mem_cons_self)).trans (ih fun y hy => h y (List.mem_cons_of_mem x hy))

/-- The listed words of the table. -/
def Dev.tableCells (d : Dev) : List (Nat × Word) := d.regs.filter (fun x => 0xB8000 ≤ x.1 && x.1 < 0xC0000)

theorem word_ackTable (c : Nat) (d : Dev) {i : Nat} (hi : i < 8192) :
    (ackWords c d.tableCells d).word (0xB8000 + i * 0x4) = ackWord c (d.word (0xB8000 + i * 0x4)) := by
  rw [word_ackWords]
  split
  · rfl
  · next h =>
    have unlisted : ∀ x ∈ d.regs, x.1 ≠ 0xB8000 + i * 0x4 := fun x hx he =>
      h ⟨x, List.mem_filter.mpr ⟨hx, by simp only [he, Bool.and_eq_true, decide_eq_true_eq]; omega⟩, he⟩
    rw [word_unlisted unlisted, Nat.mul_comm, resetOf_alarmTable hi, ackWord_zero]

theorem ast_ackTable (c : Nat) (d : Dev) {q : Nat} (hq : q < 16384) : (ackWords c d.tableCells d).ast q = ackOfClass c (d.ast q) := by
  have table := word_ackTable c d (i := q / 2) (by omega)
  obtain ⟨low, high⟩ := ackWord_halves c (d.word (0xB8000 + q / 2 * 0x4))
  have word : (d.word (0xB8000 + q / 2 * 0x4)).toNat < 2 ^ 32 := BitVec.isLt _
  unfold Dev.ast Dev.get bits
  simp only [DET_AST_entry_even, DET_AST_entry_odd, table, Nat.pow_zero, Nat.div_one]
  split
  · exact low
  · have := ackOfClass_lt c (e := (d.word (0xB8000 + q / 2 * 0x4)).toNat / 65536) (by omega)
    rw [show (2 : Nat) ^ 16 = 65536 from rfl, high, Nat.mod_eq_of_lt this, Nat.mod_eq_of_lt (by omega)]

theorem seq_ackTable (c : Nat) (d : Dev) : (ackWords c d.tableCells d).get DET_SEQ = d.get DET_SEQ := by
  unfold Dev.get
  rw [word_ackWords, if_neg]
  rintro ⟨x, hx, he⟩
  have := (List.mem_filter.mp hx).2
  rw [he] at this
  exact absurd this (by decide)

/-! ## The command and its copy for the peer (R230, R303) -/

theorem alarmsKept_spn (x : SpnSt) (d : Dev) : AlarmsKept d { d with spn := x } := ⟨⟨fun _ _ => rfl⟩, rfl, rfl⟩

theorem alarmsKept_spnStart (m : SpnMsg) (d : Dev) : AlarmsKept d (spnStart m d) := by
  have copied (bs : List Byte) (d : Dev) : AlarmsKept d (spineB bs d) :=
    .ite (.refl d) ((sendOnly_ethSend (.inr rfl) rfl d).1.alarms (d.get_lt SPN_CFG_spine_b_port))
  unfold spnStart
  extract_lets bs spn d1 d2 spn2 d3
  have granted : AlarmsKept d d1 := .ite (alarmsKept_spn _ d) (.refl d)
  have counted : AlarmsKept d1 d2 := alarmsKept_spn _ d1
  have placed : AlarmsKept d2 d3 := .ite (trafficOnly_xdrop d2).alarms (.ite (.refl d2) (alarmsKept_spn _ d2))
  have started := granted.trans (counted.trans placed)
  exact .ite (started.trans (copied bs d3)) started

theorem alarmsKept_iterate {f : Dev → Option Dev} (h : ∀ d e, f d = some e → AlarmsKept d e) (n : Nat) (d : Dev) : AlarmsKept d (iterate n f d) := by
  induction n generalizing d with
  | zero => exact .refl d
  | succ n ih =>
    unfold iterate
    split
    · exact .refl d
    · next e he => exact (h d e he).trans (ih e)

theorem alarmsKept_spnNext (d : Dev) : AlarmsKept d (spnNext d) := by
  refine alarmsKept_iterate (fun d e h => ?_) _ d
  split at h
  · cases h
  · split at h
    · cases h
      exact (alarmsKept_spn _ d).trans (alarmsKept_spnStart ..)
    · cases h

theorem alarmsKept_ackcmdSend (m v : Nat) (d : Dev) : AlarmsKept d (ackcmdSend m v d) := by
  refine .ite ?_ (.refl d)
  unfold spnSend
  exact .ite ((alarmsKept_spn _ d).trans (alarmsKept_spnStart ..)) ((alarmsKept_spn _ d).trans (alarmsKept_spnNext _))

theorem regCmd_detCmd {d : Dev} {m v : Nat} (h : d.Writes m 0xB0004 v) (hv : v % 16 = 1 ∨ v % 16 = 2) :
    regCmd m 0xB0004 v d = ackcmdSend m v (detCmd m v d) := by
  have command : regCmd m 0xB0004 v d = detCommand m v d := regCmd_of_writes h (by decide) (by decide) (by decide)
  rw [command]
  exact if_pos (by simpa using hv)

/-- The acknowledgement forms one record, counted in DET_SEQ, after the entries have changed. -/
theorem acknowledged {m v : Nat} {x y : Dev} {a : AlmData} (h : y = ackcmdSend m v (alarmsDone ([(almForm a x).1], (almForm a x).2))) :
    (∀ q < 16384, y.ast q = x.ast q) ∧ y.get DET_SEQ = (x.get DET_SEQ + 1) % 2 ^ 32 := by
  have kept : AlarmsKept (almForm a x).2 y := h ▸ (alarmsKept_alarmsDone ([(almForm a x).1], (almForm a x).2)).trans (alarmsKept_ackcmdSend m v _)
  refine ⟨fun q hq => (kept.words.ast hq).trans (ast_almForm a q x), (kept.words.get (f := DET_SEQ) (.inl rfl)).trans ?_⟩
  exact Dev.get_set_same x DET_SEQ _ rfl

theorem detCmd_ackPoint (m : Nat) (p : Fin 16384) (d : Dev) : ∃ a : AlmData,
    let e := d.putAst p (ackEntry (d.ast p))
    detCmd m (1 + 16 * p.val) d = alarmsDone ([(almForm a e).1], (almForm a e).2) := by
  have hp := p.isLt
  have code : bits (1 + 16 * p.val) 0 4 = 1 := by simp only [bits]; omega
  have index : bits (1 + 16 * p.val) 4 14 = p.val := by simp only [bits]; omega
  unfold detCmd
  rw [code, index]
  dsimp only
  unfold ackPoint
  rw [Nat.mod_eq_of_lt hp]
  exact ⟨_, rfl⟩

theorem detCmd_ackClass (m : Nat) (c : Fin 16) (hc : c.val ≤ 11) (d : Dev) : ∃ a : AlmData,
    let e := ackWords c d.tableCells d
    detCmd m (2 + 16 * c.val) d = alarmsDone ([(almForm a e).1], (almForm a e).2) := by
  have code : bits (2 + 16 * c.val) 0 4 = 2 := by simp only [bits]; omega
  have index : bits (2 + 16 * c.val) 4 14 = c.val := by simp only [bits]; omega
  unfold detCmd
  rw [code, index]
  dsimp only
  unfold ackClass
  rw [if_neg (by omega)]
  exact ⟨_, rfl⟩

theorem seq_putAst (p v : Nat) (d : Dev) : (d.putAst p v).get DET_SEQ = d.get DET_SEQ := by
  unfold Dev.putAst
  split
  · exact Dev.get_set_ne d (DET_AST_entry_even (p / 2)) _ v (by simp only [DET_AST_entry_even, DET_SEQ]; omega)
  · exact Dev.get_set_ne d (DET_AST_entry_odd (p / 2)) _ v (by simp only [DET_AST_entry_odd, DET_SEQ]; omega)

/-! ## The rule -/

theorem alarmsAreDecided : Rules.AlarmsAreDecided := by
  intro s hr
  refine ⟨fun h => settles_of rfl hr ?_, fun r rs h hi hc hs => ?_, fun m p hw => ?_, fun m c hw hc => ?_⟩
  · unfold detResult
    rw [h]
  · have taken : detResult s.dev = detHandle r { s.dev with det := { s.dev.det with inbox := rs } } := by
      unfold detResult
      rw [h]
    exact ⟨_, settles_of rfl hr taken, detHandle_decides hs hc hi⟩
  · obtain ⟨a, he⟩ := detCmd_ackPoint m p s.dev
    obtain ⟨entries, count⟩ := acknowledged (m := m) (v := 1 + 16 * p.val) (congrArg _ he)
    have entry := (entries p p.isLt).trans ((ast_putAst_same ..).trans (Nat.mod_eq_of_lt (ackEntry_lt (ast_lt ..))))
    refine ⟨_, settles_of rfl hr (regCmd_detCmd hw (.inl (by omega))), ?_, ?_, ?_, fun q hq hne => ?_, count.trans (by rw [seq_putAst])⟩
    · rw [entry, bitAt_ackEntry]
      simp
    · rw [entry, bitAt_ackEntry]
      simp
    · rw [entry, bitAt_ackEntry]
      simp
    · exact (entries q hq).trans (ast_putAst_ne _ _ _ hne)
  · obtain ⟨a, he⟩ := detCmd_ackClass m c hc s.dev
    obtain ⟨entries, count⟩ := acknowledged (m := m) (v := 2 + 16 * c.val) (congrArg _ he)
    exact ⟨_, settles_of rfl hr (regCmd_detCmd hw (.inr (by omega))), fun q hq => (entries q hq).trans (ast_ackTable c s.dev hq),
      count.trans (by rw [seq_ackTable])⟩

/-- Settles O46: results and acknowledgements by the entries they change, pending points and repeats by the instants they fall due. -/
theorem alarmsOfTheDetectors : Obligations.AlarmsOfTheDetectors := ⟨alarmsAreDecided, alarmsWaitAndRepeat⟩

end Sys2Proof.Machine
end

section
/-! PROOF. No condition looked at after a command delivers an output of the logic engine (O47, O48). -/
namespace Sys2Proof.Machine

/-- The outputs of the logic engine are withheld: no OUTPUT has ended since its start or since the take (R299). -/
def Dev.Withheld (d : Dev) : Prop := d.le.outOk = false

theorem withheld_of_le {d e : Dev} (hd : d.Withheld) (h : e.le = d.le) : e.Withheld := by
  unfold Dev.Withheld
  rw [h]
  exact hd

theorem TrafficOnly.withheld {d e : Dev} (h : TrafficOnly d e) : d.Withheld → e.Withheld := (withheld_of_le · (by rw [h.rest]))

theorem SendOnly.withheld {p : Nat} {d e : Dev} (h : SendOnly p d e) : d.Withheld → e.Withheld := (withheld_of_le · (by rw [h.rest]))

theorem withheld_ite {c : Prop} [Decidable c] {x y : Dev} (hx : x.Withheld) (hy : y.Withheld) : (if c then x else y).Withheld := by
  split
  · exact hx
  · exact hy

theorem withheld_iterate {f : Dev → Option Dev} (hf : ∀ d e, f d = some e → d.Withheld → e.Withheld) (n : Nat) {d : Dev} (h : d.Withheld) :
    (iterate n f d).Withheld := by
  induction n generalizing d with
  | zero => exact h
  | succ n ih =>
    unfold iterate
    split
    · exact h
    · next e he => exact ih (hf d e he h)

section
variable {d : Dev} (h : d.Withheld)
include h

theorem withheld_set (f : Fld) (v : Nat) : (d.set f v).Withheld := h

theorem withheld_spn (x : SpnSt) : ({ d with spn := x } : Dev).Withheld := h

theorem withheld_enr (x : EnrSt) : ({ d with enr := x } : Dev).Withheld := h

theorem withheld_putPub (b : Nat) (x : PubSt) : (d.putPub b x).Withheld := h

theorem withheld_forN {n : Nat} {f : Nat → Dev → Dev} (hf : ∀ i e, e.Withheld → (f i e).Withheld) : (forN n f d).Withheld :=
  forN_keeps (P := Dev.Withheld) (fun i _ => hf i) d h

theorem withheld_forL {α : Type} {xs : List α} {f : α → Dev → Dev} (hf : ∀ a e, e.Withheld → (f a e).Withheld) : (forL xs f d).Withheld :=
  forL_keeps (P := Dev.Withheld) hf xs d h

theorem withheld_raise {s : Nat} (hs : s < 128) : (raise s d).Withheld := (trafficOnly_raise d hs).withheld h

theorem withheld_raiseMs {s : Nat} (hs : s < 128) : (raiseMs s d).Withheld := (trafficOnly_raiseMs d hs).withheld h

/-! ## Alarms -/

theorem withheld_detPublish : (detPublish d).Withheld :=
  withheld_set (withheld_set (withheld_forN h fun _ _ he => withheld_set (withheld_set (withheld_set he _ _) _ _) _ _) _ _) _ _

theorem withheld_noticeSend (rs : List AlmRec) : (noticeSend rs d).Withheld :=
  withheld_ite ((sendOnly_ethSend (.inl rfl) rfl _).1.withheld (withheld_ite h h)) h

theorem withheld_almOut (rs : List AlmRec) : (almOut rs d).Withheld := by
  unfold almOut
  extract_lets e ns
  have recorded : e.Withheld := withheld_forL h fun r e he =>
    withheld_ite ((trafficOnly_queueRecord (e.get_lt (DET_CLASS_CFG_queue r.cls)) _ e).withheld he) he
  exact withheld_ite (withheld_forL recorded fun ns _ he => withheld_noticeSend he ns) recorded

omit h in
theorem withheld_pendFinal (x : PendPoint) (arrived : Nat) (acc : List AlmRec × Dev) (ha : acc.2.Withheld) : (pendFinal x arrived acc).2.Withheld := by
  have resolved (outcome extra : Nat) : (pendResolve x outcome extra acc).2.Withheld := by
    unfold pendResolve almForm Dev.putAst
    exact withheld_ite (withheld_ite ha ha) ha
  unfold pendFinal
  dsimp only
  split
  · split
    · split
      · exact resolved ..
      · exact resolved ..
    · exact ha
  · exact ha

omit h in
theorem withheld_pendFinals (xs : List PendPoint) (arrived : Nat) (acc : List AlmRec × Dev) (ha : acc.2.Withheld) :
    (forL xs (fun x acc => pendFinal x arrived acc) acc).2.Withheld := by
  induction xs generalizing acc with
  | nil => exact ha
  | cons x xs ih => exact ih _ (withheld_pendFinal x arrived acc ha)

theorem withheld_detFinals : (detFinals d).Withheld := by
  refine withheld_forL (d := { d with col := { d.col with finals := [] } }) h fun nt e he => ?_
  have finals := withheld_pendFinals (e.det.pend.partition (fun x => x.grid == nt.grid && x.g == nt.g && x.until_.isNone)).1 nt.arrived
  unfold detFinalOne
  exact withheld_ite (finals _ he) (withheld_detPublish (withheld_almOut (finals _ he) _))

/-! ## The logic engine -/

/-- Where the outputs are withheld a publication is composed and not sent (R255, R299). -/
theorem withheld_gooseSend (b t : Nat) : (gooseSend b t d).Withheld := by
  unfold gooseSend
  extract_lets x bs e
  have silent : e.le.outOk = false := h
  rw [silent, Bool.and_false, if_neg Bool.false_ne_true]
  exact h

theorem withheld_gooseState (b : Nat) (ms : List Nat) : (gooseState b ms d).Withheld :=
  withheld_gooseSend (withheld_putPub (withheld_set (withheld_set h _ _) _ _) _ _) _ _

theorem withheld_gooseSync : (gooseSync d).Withheld :=
  withheld_ite h (withheld_forN h fun _ _ he => withheld_ite (withheld_ite (withheld_gooseState he _ _) he) he)

theorem withheld_leConflict : (leConflict d).Withheld := withheld_set h _ _

theorem withheld_swapDisarm : (swapDisarm d).Withheld :=
  withheld_ite (withheld_raise (withheld_set (withheld_set h _ _) _ _) (by decide)) h

theorem withheld_leStart (warm : Bool) : (leStart warm d).Withheld := by
  have banked (c : Prop) [Decidable c] (e x : Dev) (he : e.Withheld) (hx : x.Withheld) : (if c then e else x).le.outOk = false := withheld_ite he hx
  unfold leStart
  split
  · exact h
  · exact h
  · exact h
  · exact withheld_ite h (banked _ _ _ h h)

omit h in
/-- A release withholds the outputs (R244, R256). -/
theorem withheld_leRelease (d : Dev) : (leRelease d).Withheld :=
  withheld_forN (d := { d with le := { d.le with outOk := false, dout := 0 } }) rfl fun _ _ he => withheld_ite he he

omit h in
theorem withheld_leStopped (d : Dev) : (leStopped d).Withheld := by
  have released := withheld_raise (withheld_leRelease (d.set LGE_STAT_state 0)) (s := 102) (by decide)
  exact withheld_ite (withheld_leStart (withheld_set released _ _) _) released

/-! ## The spine and the pair -/

theorem withheld_spnStart (m : SpnMsg) : (spnStart m d).Withheld := by
  have viaB (bs : List Byte) (e : Dev) (he : e.Withheld) : (spineB bs e).Withheld :=
    withheld_ite he ((sendOnly_ethSend (.inr rfl) rfl e).1.withheld he)
  unfold spnStart
  extract_lets bs spn d1 d2 spn' d3
  have granted : d1.Withheld := withheld_ite (withheld_spn h _) h
  have counted : d2.Withheld := withheld_spn granted _
  have placed : d3.Withheld := withheld_ite (withheld_set counted _ _) (withheld_ite counted (withheld_spn counted _))
  exact withheld_ite (viaB _ _ placed) placed

theorem withheld_spnNext : (spnNext d).Withheld := by
  refine withheld_iterate (fun e x hx he => ?_) _ h
  split at hx
  · cases hx
  · split at hx
    · cases hx
      exact withheld_spnStart (withheld_spn he _) _
    · cases hx

theorem withheld_spnSend (ty : Nat) (last : Bool) (ref : Nat) (body : List Byte) : (spnSend ty last ref body d).Withheld :=
  withheld_ite (withheld_spnStart (withheld_spn h _) _) (withheld_spnNext (withheld_spn h _))

omit h in
/-- A unit that stops acting withholds the outputs (R299). -/
theorem withheld_actingEnd (d : Dev) : (actingEnd d).Withheld := by
  unfold actingEnd
  extract_lets purged le spn det e
  have cut : e.Withheld := rfl
  exact withheld_ite cut (withheld_raise cut (by decide))

theorem withheld_pairEnter (st : Nat) : (pairEnter st d).Withheld :=
  withheld_ite h (withheld_ite h (withheld_actingEnd _))

theorem withheld_pairRelease (cause : Nat) : (pairRelease cause d).Withheld := by
  unfold pairRelease
  extract_lets sends d1 spn d2 d3 d4
  have noted : d2.Withheld := h
  have entered : d3.Withheld := withheld_pairEnter noted 7
  exact withheld_raise (withheld_ite (withheld_spnSend entered ..) entered) (by decide)

theorem withheld_pairRebind : (pairRebind d).Withheld := by
  unfold pairRebind
  extract_lets sends d1 spn d2
  have entered : d2.Withheld := withheld_pairEnter (withheld_spn (d := d1) h _) 0
  exact withheld_ite (withheld_spnSend entered ..) entered

theorem withheld_diagEval : (diagEval d).Withheld := by
  unfold diagEval
  extract_lets old new d1 fresh d2
  have noted : d2.Withheld := withheld_ite h h
  exact withheld_ite (withheld_pairRelease noted _) noted

theorem withheld_returnEval : (returnEval d).Withheld := withheld_ite (withheld_ite h h) (withheld_ite h h)

/-! ## Saves, the shutdown and a teardown -/

theorem withheld_saveStart : (saveStart d).Withheld := by
  unfold saveStart
  dsimp only
  split
  · exact h
  · exact withheld_ite h h

theorem withheld_shutRelease : (shutRelease d).Withheld := by
  unfold shutRelease
  extract_lets e st
  have left : e.Withheld := withheld_ite (withheld_pairRelease h 7) (withheld_ite (withheld_pairEnter h 0) h)
  have stopped : (if st = 1 || st = 2 || st = 3 then leStopped (swapDisarm ((e.set LGE_STAT_state 3).setFlag LGE_STAT_start_pending false)) else e).Withheld :=
    withheld_ite (withheld_leStopped _) left
  exact withheld_saveStart (withheld_of_le stopped rfl)

omit h in
theorem withheld_teardown (d : Dev) : (teardown d).Withheld := by
  have mode (c : Prop) [Decidable c] (e : Dev) (he : e.Withheld) : (if c then e else e.set QUE_POOL_mode 1).Withheld := withheld_ite he he
  unfold teardown
  exact mode _ _ rfl

theorem withheld_rebindRelease : (rebindRelease d).Withheld := by
  unfold rebindRelease
  extract_lets e
  have saved : (saveStart e).Withheld := withheld_saveStart (withheld_of_le (withheld_pairRebind h) rfl)
  exact withheld_ite h (withheld_ite (withheld_teardown _) saved)

theorem withheld_cycleSettle : (cycleSettle d).Withheld := by
  have released := withheld_rebindRelease h
  exact withheld_ite h (withheld_ite (withheld_shutRelease released) released)

theorem withheld_startupSettle : (startupSettle d).Withheld := by
  have step (c : Bool) (n : Nat) (e : Dev) (he : e.Withheld) : (if c then stepDone n e else e).Withheld :=
    withheld_ite (withheld_ite he he) he
  unfold startupSettle
  extract_lets d1 d2 d3
  have steps : d3.Withheld := step _ 9 d2 (step _ 7 d1 (step _ 3 d h))
  exact withheld_ite steps steps

/-! ## Acquisition and energy -/

theorem withheld_acqNotice : (acqNotice d).Withheld := by
  have noticed : (timeNotice d).Withheld := by
    unfold timeNotice
    split
    · exact withheld_ite h h
    · exact h
  have event (x : AcqEv) (e : Dev) (he : e.Withheld) : (acqEvent x e).Withheld := by
    unfold acqEvent
    extract_lets i late e1 x1
    have raised : e1.Withheld := withheld_ite (withheld_raiseMs (withheld_set he _ _) (by decide)) he
    exact withheld_of_le raised rfl
  unfold acqNotice
  extract_lets d1 sets acq d2
  have taken : d2.Withheld := withheld_of_le noticed rfl
  refine withheld_ite (withheld_ite noticed (withheld_of_le noticed rfl)) (withheld_forN taken fun k e he => ?_)
  exact withheld_ite he (withheld_ite (event _ _ he) he)

theorem withheld_ivRecord (code c flags len off start imp exp : Nat) : (ivRecord code c flags len off start imp exp d).Withheld :=
  withheld_ite ((trafficOnly_queueRecord (d.force_lt ENR_CFG_queue) _ d).withheld h) h

theorem withheld_putIvl (c q v : Nat) : (d.putIvl c q v).Withheld := withheld_of_le h rfl

theorem withheld_ivFlag (c i : Nat) : (ivFlag c i d).Withheld := withheld_of_le h rfl

theorem withheld_applyOffsets (c : Nat) : (applyOffsets c d).Withheld := by
  refine withheld_forL h fun q e he => ?_
  extract_lets
  have put (v w : Nat) : ((e.putIvl c q v).putAcc c q w).Withheld := withheld_of_le he rfl
  exact withheld_ite (withheld_ivFlag (put _ _) _ _) (put _ _)

theorem withheld_ivCloseCh (start c : Nat) : (ivCloseCh start c d).Withheld :=
  withheld_ite h (withheld_ivRecord (withheld_ite h (withheld_applyOffsets h c)) ..)

theorem withheld_ivClose (start : Nat) : (ivClose start d).Withheld := by
  unfold ivClose
  extract_lets d1 d2
  have closed : d1.Withheld := withheld_forN h fun c _ he => withheld_ivCloseCh he start c
  have cleared : d2.Withheld := withheld_forN closed fun c _ hc => withheld_forN hc fun q _ hq => withheld_putIvl hq c q 0
  exact withheld_raise (withheld_enr cleared _) (by decide)

theorem withheld_ivApply (hour : Bool) : (ivApply hour d).Withheld :=
  withheld_forN (withheld_enr h _) fun _ _ he => withheld_set (withheld_set (withheld_set he _ _) _ _) _ _

theorem withheld_ivJump (start : Nat) (step : Bool) : (ivJump start step d).Withheld := by
  have flagged (i : Nat) (e : Dev) (he : e.Withheld) : (ivFlagAll i e).Withheld := withheld_enr he _
  unfold ivJump
  extract_lets e cal d1 d2 fwd old d3 len cur hour gap off d4
  have h1 : d1.Withheld := flagged 2 d h
  have h2 : d2.Withheld := withheld_ivClose (withheld_ite (flagged 3 d1 h1) h1) start
  have h3 : d3.Withheld := withheld_ite (withheld_ivApply h2 _) h2
  have h4 : d4.Withheld := withheld_ite (withheld_forN h3 fun _ _ he => withheld_ite (withheld_ivRecord he ..) he) h3
  exact withheld_enr h4 _

theorem withheld_enrEval (step : Bool) : (enrEval step d).Withheld := by
  unfold enrEval
  extract_lets step' enr d1 cur enr' d2 d3 d4 src
  refine withheld_ite h ?_
  split
  · exact h
  · extract_lets e
    have h2 : d2.Withheld := withheld_ite h h
    have h3 : d3.Withheld := withheld_ite h2 h2
    have h4 : d4.Withheld := withheld_ite h3 h3
    exact withheld_ite h4 (withheld_ivJump h2 ..)

theorem withheld_enrSettle : (enrSettle d).Withheld := by
  have flag (c : Bool) (i : Nat) (e : Dev) (he : e.Withheld) : (if c then ivFlagAll i e else e).Withheld :=
    withheld_ite (withheld_enr he _) he
  unfold enrSettle
  extract_lets e1 e2 opened e3
  have shown : e1.Withheld := withheld_set (withheld_set h _ _) _ _
  have evaluated : e2.Withheld := withheld_ite (withheld_enrEval shown false) shown
  exact flag _ _ e3 (flag _ _ e2 evaluated)

/-! ## After a command -/

theorem withheld_settle : (settle d).Withheld := by
  have goose := withheld_gooseSync (withheld_leConflict (withheld_detPublish (withheld_detFinals h)))
  exact withheld_enrSettle (withheld_acqNotice (withheld_returnEval (withheld_diagEval (withheld_startupSettle (withheld_cycleSettle goose)))))

theorem withheld_publish : (publish d).Withheld := withheld_ite h h

/-- The end of a command withholds the outputs where its own effect does. -/
theorem settling_withheld (s : State) : (s.settling d).dev.Withheld := withheld_publish (withheld_ite h (withheld_settle h))

end

end Sys2Proof.Machine
end

section
/-! PROOF. A waiting task of a level that there is not ends the cycles of the logic engine, so that its watchdog does not halt it (O47, O48). -/
namespace Sys2Proof.Machine

/-! ## Cycles and halts -/

/-- A pass of an engine without a program ends at once, whatever its bound. -/
theorem leRun_of_empty {d : Dev} (h : d.activeProg.codeCount = 0) (n : Nat) : leRun n d = leCommit d.leEnv d := by
  have ends : LEnv.run (d.progInstr d.activeProg) d.activeProg.codeCount n 0 d.leEnv = d.leEnv := by
    cases n with
    | zero => rfl
    | succ n => exact if_pos (by rw [h])
  unfold leRun
  rw [ends]

/-- A HALTED engine is not halted again. -/
theorem leHalt_halted {d : Dev} (h : d.get LGE_STAT_state = 4) (cause pc : Nat) : leHalt cause pc d = d := by
  unfold leHalt
  rw [h]
  rfl

/-- A cycle that reaches watchdog_us is the watchdog's (R246). -/
theorem leCycle_of_reached {d : Dev} {ns : Nat} (h : d.get LGE_CFG_watchdog_us * 1000 ≤ d.ticked ns) (xns : Nat) : leCycle ns xns d = leWatchdog d := by
  unfold leCycle
  rw [if_pos h]
  split
  · next idle =>
    unfold leWatchdog
    rw [idle]
    rfl
  · rfl

/-- The INPUT of the cycle that the watchdog ends, with the two free values taken. -/
def Dev.watchdogInput (d : Dev) : Dev :=
  let x := cycleInput (counterStepAll d)
  { x with free := x.free + 1 + 1 }

/-- An empty program's pass, and the time up to watchdog_us. -/
def Dev.emptyPass (d : Dev) : Dev :=
  doutEdges d.now (passElapsed (d.time.elapsed + d.get LGE_CFG_watchdog_us * 4000) (leCommit d.leEnv d))

/-- Where the engine is HALTED by the end of the pass, the watchdog leaves it as it is (R246). -/
theorem leWatchdog_halted {d : Dev} (hc : d.leCycles = true) (ht : d.tbcRuns = true) (hp : d.watchdogInput.activeProg.codeCount = 0)
    (hs : d.watchdogInput.emptyPass.get LGE_STAT_state = 4) : leWatchdog d = raise 101 d.watchdogInput.emptyPass := by
  have pass (n : Nat) : leRun n d.watchdogInput = leCommit d.watchdogInput.leEnv d.watchdogInput := leRun_of_empty hp n
  have ended (pc n : Nat) : leHalt 2 pc (doutEdges d.watchdogInput.now (passElapsed (d.watchdogInput.time.elapsed +
      d.watchdogInput.get LGE_CFG_watchdog_us * 4000) (leRun n d.watchdogInput))) = d.watchdogInput.emptyPass := by
    rw [pass]
    exact leHalt_halted hs 2 pc
  unfold leWatchdog
  rw [hc, ht]
  exact congrArg (raise 101) (ended _ _)

/-! ## The counterexample -/

/-- The engine is STOPPING with its outputs delivered and no program, TBC runs and a SET of the counter is pending. At the head of level 0
stands a host's task, past its deadline, whose own level is 16352: its count of overruns is the low half of LGE_STAT. -/
def strayCycle : State := { State.reset with dev :=
  { State.reset.dev.set LGE_STAT_state 3 |>.domPut 0 .on with
    time := { pending := some (.set 0 0) }
    le := { outOk := true }
    sch := { ready := [(0, [{ kernel := 1, prio := 16352, host := true, inst := 0, affinity := 65535, deadline := 0, ready := 0 }])] } } }

theorem strayCycle_premises : strayCycle.Running ∧ strayCycle.dev.get LGE_STAT_state = 3 ∧ strayCycle.dev.leCycles = true ∧ strayCycle.dev.tbcRuns = true ∧
    strayCycle.dev.get LGE_CFG_watchdog_us * 1000 ≤ strayCycle.dev.ticked 1000000 := by decide +kernel

/-- The step of the counter ends the stray task as an overrun, which counts the state from STOPPING on to HALTED. So the watchdog halts nothing,
and the outputs stay delivered. -/
theorem strayCycle_ends :
    let x := strayCycle.dev.watchdogInput
    x.activeProg.codeCount = 0 ∧ x.emptyPass.get LGE_STAT_state = 4 ∧ (strayCycle.settling (raise 101 x.emptyPass)).dev.le.outOk = true := by
  decide +kernel

/-- No effect that withholds the outputs ends as the watchdog's does. -/
theorem leWatchdog_strayCycle_delivers {d : Dev} (he : strayCycle.acts leWatchdog = .next (strayCycle.settling d)) : ¬d.Withheld := by
  intro hd
  obtain ⟨hr, -, hc, ht, -⟩ := strayCycle_premises
  obtain ⟨hp, hs, delivered⟩ := strayCycle_ends
  rw [State.acts_of_running hr, leWatchdog_halted hc ht hp hs] at he
  injection he with ends
  have same : strayCycle.settling (raise 101 strayCycle.dev.watchdogInput.emptyPass) = strayCycle.settling d := ends
  rw [same] at delivered
  exact absurd (delivered.symm.trans (settling_withheld hd strayCycle)) (by decide)

/-- Refutes O47: a cycle that reaches watchdog_us does not withhold the outputs, where the pending step of the counter before it ends a stray
task whose count of overruns is written over the engine's state. -/
theorem not_logicEngineCycles : ¬ Obligations.LogicEngineCycles := by
  rintro ⟨cycle, -⟩
  obtain ⟨hr, hs, -, ht, hw⟩ := strayCycle_premises
  obtain ⟨d, he, -, -, withheld, -⟩ := ((cycle strayCycle 1000000 0 hr).2 (.inr hs)).1 ht hw
  have watchdog : strayCycle.acts (leCycle 1000000 0) = strayCycle.acts leWatchdog := by
    rw [State.acts_of_running hr, State.acts_of_running hr, leCycle_of_reached hw]
  exact leWatchdog_strayCycle_delivers (watchdog.symm.trans he) withheld

/-- Refutes O48: the watchdog of a STOPPING engine does not withhold the outputs, where the pending step of the counter before it ends a
stray task whose count of overruns is written over the engine's state. -/
theorem not_logicEngineIsControlled : ¬ Obligations.LogicEngineIsControlled := by
  rintro ⟨halts, -⟩
  obtain ⟨hr, hs, -, ht, -⟩ := strayCycle_premises
  obtain ⟨d, he, -, -, -, -, -, withheld, -⟩ := (halts strayCycle .leWatchdog 2 0 hr (.inr (.inl ⟨rfl, rfl, rfl⟩))).2 (.inl ⟨.inr hs, .inr ht⟩)
  exact leWatchdog_strayCycle_delivers he withheld

end Sys2Proof.Machine
end

section
/-! PROOF. Resets and the thermal monitor (O21). -/
namespace Sys2Proof.Machine

/-! ## What a store that is cut short leaves (R468) -/

/-- `e` differs from `d` in nothing but registers, the NVM and the count of free values. -/
def StoreOnly (d e : Dev) : Prop := e = { d with regs := e.regs, nvm := e.nvm, free := e.free }

theorem StoreOnly.ite {c : Prop} [Decidable c] {d x y : Dev} (hx : StoreOnly d x) (hy : StoreOnly d y) : StoreOnly d (if c then x else y) := by
  split
  · exact hx
  · exact hy

theorem storeOnly_slotWrite (st : StoreSt) (n : Nat) (d : Dev) : StoreOnly d (slotWrite st n d) := by
  unfold slotWrite
  extract_lets put nvm x
  have written : StoreOnly d x := .ite rfl rfl
  clear_value x
  have marked : StoreOnly d (x.setFlag BND_STAT_slot_changed true) := by
    unfold StoreOnly at *
    rw [written]
    rfl
  exact .ite marked written

theorem storeOnly_nvmEffect (st : StoreSt) (d : Dev) : StoreOnly d (nvmEffect st d) := by
  unfold nvmEffect
  split
  · exact storeOnly_slotWrite st _ d
  · exact storeOnly_slotWrite st _ d
  all_goals rfl

theorem storeOnly_storeCut (d : Dev) : StoreOnly d (storeCut d) := by
  unfold storeCut
  split
  · rfl
  · next st _ =>
    have drawn {e : Dev} (h : StoreOnly d.drawNat.2 e) : StoreOnly d e := by
      unfold StoreOnly at *
      rw [h]
      rfl
    exact .ite (drawn (storeOnly_slotWrite ..)) (.ite rfl (drawn (storeOnly_nvmEffect ..)))

/-- The hosts' memories and the standby island are none of it. -/
theorem StoreOnly.outside {d e : Dev} (h : StoreOnly d e) : e.hostA = d.hostA ∧ e.hostB = d.hostB ∧ e.island = d.island ∧ e.pwr = d.pwr := by
  unfold StoreOnly at h
  rw [h]
  exact ⟨rfl, rfl, rfl, rfl⟩

/-! ## The device after a reset (R8, R462) -/

/-- The device whose store, where one is being written, is cut short. -/
def Dev.storeEnded (d : Dev) : Dev := if d.nvmOwner = some .store then storeCut d else d

theorem storeOnly_storeEnded (d : Dev) : StoreOnly d d.storeEnded := .ite (storeOnly_storeCut d) rfl

theorem resetFrom_deviceReset (c : Nat) (d : Dev) : d.ResetFrom (deviceReset (some c) d) (setBit d.island.causes c true) := by
  obtain ⟨hostA, hostB, island, -⟩ := (storeOnly_storeEnded d).outside
  refine ⟨rfl, ⟨rfl, rfl, rfl, rfl, rfl⟩, fun _ => rfl, by simp [deviceReset], ⟨hostA, hostB⟩, fun hn => ?_, ?_⟩
  · unfold deviceReset
    rw [if_neg hn]
    dsimp only
    split <;> exact ⟨rfl, rfl, rfl, rfl, rfl, rfl⟩
  · have kept : (deviceReset (some c) d).island = { d.storeEnded.island with causes := setBit d.storeEnded.island.causes c true } := rfl
    rw [kept, island]

/-- What the island records of an orderly shutdown is not fixed by a reset. -/
theorem Dev.ResetFrom.orderly {d e : Dev} {causes : Nat} (h : d.ResetFrom e causes) (b : Bool) :
    d.ResetFrom { e with island := { e.island with orderly := b } } causes :=
  ⟨h.held, h.idle, h.word, h.empty, h.hosts, h.nvm, by dsimp only; rw [h.island]⟩

/-- A reset keeps that record, and the thermal hold. -/
theorem deviceReset_keeps (c : Nat) (d : Dev) : (deviceReset (some c) d).island.orderly = d.island.orderly ∧
    (deviceReset (some c) d).pwr.thermHold = d.pwr.thermHold := by
  obtain ⟨-, -, island, pwr⟩ := (storeOnly_storeEnded d).outside
  have recorded := congrArg IslandSt.orderly island
  have held := congrArg PwrSt.thermHold pwr
  exact ⟨recorded, held⟩

theorem supplyTrip_resets (d : Dev) : d.ResetFrom (supplyTrip d) (setBit d.island.causes 1 true) ∧
    (supplyTrip d).island.orderly = (d.island.orderly && !d.island.pwrEn) := by
  have reset := resetFrom_deviceReset 1 d
  have powered : (deviceReset (some 1) d).island.pwrEn = d.island.pwrEn := by rw [reset.island]
  obtain ⟨recorded, -⟩ := deviceReset_keeps 1 d
  unfold supplyTrip
  generalize deviceReset (some 1) d = e at reset powered recorded
  dsimp only
  rw [powered]
  split
  · next h => exact ⟨powered ▸ reset.orderly false, by simp [h]⟩
  · next h => exact ⟨reset, by simp [recorded, h]⟩

/-! ## CKP_RESET (R428, R462) -/

/-- A write of CKP_RESET that passes has administer right. -/
theorem granted_of_writes_reset {d : Dev} {m v : Nat} (h : d.Writes m 0x10808 v) : d.granted .admin 1 m = true := by
  have arrives := Dev.arrives_of_pass h.1
  cases hg : d.granted .admin 1 m with
  | true => rfl
  | false =>
    have denied : d.writeVerdict m 0x10808 v true ≠ .pass := by
      cases hf : d.fixedWrite m 0x10808 v <;> simp [Dev.writeVerdict, targetOf_reg, arrives, hf, writeNeed, Dev.check, hg]
    exact absurd h.1 denied

theorem regCmd_reset {d : Dev} {m v : Nat} (h : d.Writes m 0x10808 v) :
    regCmd m 0x10808 v d = if v % 256 = 0x5E then deviceReset (some 3) d else d := by
  have command : regCmd m 0x10808 v d = softReset m v d := regCmd_of_writes h (by decide) (by decide) (by decide)
  rw [command]
  unfold softReset
  rw [granted_of_writes_reset h]
  by_cases hv : v % 256 = 0x5E <;> simp [hv]

theorem resetsStartAllOver : Rules.ResetsStartAllOver := by
  intro s
  refine ⟨⟨_, rfl, resetFrom_deviceReset 0 s.dev, (deviceReset_keeps 0 s.dev).1⟩, ?_, fun m c hr ha hf hg => ?_, fun m c hr hw => ⟨fun hc => ?_, fun hc => ?_⟩⟩
  · obtain ⟨reset, orderly⟩ := supplyTrip_resets s.dev
    refine ⟨supplyTrip s.dev, ?_, reset, orderly⟩
    show Host.Outcome.next { s with dev := if (supplyTrip s.dev).pwr.held then supplyTrip s.dev else publish (supplyTrip s.dev) } = _
    rw [if_pos reset.held]
  · exact completes_of rfl hr (regCmd_of_admin_denied ha hf rfl (by decide) (by decide) hg)
  · exact completes_of rfl hr ((regCmd_reset hw).trans (if_neg hc))
  · exact ⟨_, completes_of rfl hr ((regCmd_reset hw).trans (if_pos hc)), resetFrom_deviceReset 3 s.dev⟩

/-! ## The thermal monitor (R460) -/

theorem exec_tjMeasure (tj : Int) (s : State) : exec (.tjMeasure tj) s = .next (s.ending (watch (tjMeasure tj s.dev))) := rfl

/-- A device that a reset holds is not watched, and its status fields stay. -/
theorem ending_watch_held {d : Dev} (h : d.pwr.held = true) (s : State) : s.ending (watch d) = { s with dev := d } := by
  unfold State.ending
  rw [watch_held h, if_pos h]

theorem tjMeasure_held {d : Dev} (h : d.pwr.held = true) (tj : Int) :
    tjMeasure tj d = { d with pwr := { d.pwr with thermHold := d.pwr.thermHold && decide (460 ≤ tj) } } := by
  unfold tjMeasure
  rw [if_pos h]
  split
  · next hc => rw [decide_eq_false (by omega), Bool.and_false]
  · next hc => rw [decide_eq_true (by omega), Bool.and_true]

/-- The third measurement in a row at or above 125 °C resets the device, which the monitor then holds. -/
theorem tjMeasure_hot {d : Dev} (h : d.pwr.held = false) {tj : Int} (ht : 500 ≤ tj) (hn : 2 ≤ d.pwr.thermRun) :
    tjMeasure tj d = deviceReset (some 2) { d with pwr := { d.pwr with thermHold := true } } := by
  unfold tjMeasure
  rw [if_neg (by simp [h])]
  dsimp only
  rw [if_pos (show (125 : Int) * 4 ≤ tj by omega), if_pos (by omega)]

/-- Tj is shown, and the run of hot measurements is counted. -/
def tjShown (tj : Int) (d : Dev) : Dev :=
  { d with pwr := { d.pwr with thermRun := if 500 ≤ tj then d.pwr.thermRun + 1 else 0 } }.setI CKP_THERM_tj tj

/-- Cause 6 stands from trip_c on, and until a measurement below trip_c - 5 °C. -/
def Dev.tripsAt (d : Dev) (tj : Int) : Bool :=
  let trip : Int := d.get CKP_THERM_CFG_trip_c
  if d.flag CKP_THERM_trip then decide ((trip - 5) * 4 ≤ tj) else decide (trip * 4 ≤ tj)

theorem tripsAt_tjShown (tj : Int) (d : Dev) : (tjShown tj d).tripsAt tj = d.tripsAt tj := by
  have config : (tjShown tj d).get CKP_THERM_CFG_trip_c = d.get CKP_THERM_CFG_trip_c := Dev.get_set_ne _ CKP_THERM_tj _ _ (by decide)
  have trip : (tjShown tj d).get CKP_THERM_trip = d.get CKP_THERM_trip := Dev.get_set_apart _ CKP_THERM_tj _ _ rfl rfl
  unfold Dev.tripsAt Dev.flag
  rw [config, trip]

theorem tjMeasure_shows {d : Dev} (h : d.pwr.held = false) {tj : Int} (hn : tj < 500 ∨ d.pwr.thermRun < 2) :
    let x := tjShown tj d
    tjMeasure tj d = if x.flag CKP_THERM_trip = x.tripsAt tj then x else raise 7 (x.setFlag CKP_THERM_trip (x.tripsAt tj)) := by
  unfold tjMeasure
  rw [if_neg (by simp [h])]
  dsimp only
  rw [if_neg]
  · rfl
  · split <;> omega

/-- A measurement that does not reset changes CKP_THERM, the run of hot measurements, and what the event of cause 6 reaches. -/
theorem tjMeasure_keeps {d : Dev} (h : d.pwr.held = false) {tj : Int} (hn : tj < 500 ∨ d.pwr.thermRun < 2) :
    (tjMeasure tj d).pwr = (tjShown tj d).pwr ∧ (tjMeasure tj d).get CKP_THERM_tj = ofInt 16 tj ∧
      (tjMeasure tj d).flag CKP_THERM_trip = d.tripsAt tj ∧
      ∀ k, keyBlock k ≠ 0x12 → k ≠ GCTL_XDROP.key → k ≠ CKP_THERM.key → (tjMeasure tj d).word k = d.word k := by
  have shown : (tjShown tj d).get CKP_THERM_tj = ofInt 16 tj := Dev.get_set_fits _ CKP_THERM_tj rfl (ofInt_lt 16 tj)
  have words (k : Nat) (hk : k ≠ CKP_THERM.key) : (tjShown tj d).word k = d.word k := Dev.word_set_ne _ CKP_THERM_tj _ hk
  rw [tjMeasure_shows h hn, tripsAt_tjShown]
  generalize tjShown tj d = x at shown words
  split
  · next same => exact ⟨rfl, shown, same, fun k _ _ hk => words k hk⟩
  · have event := eventOnly_raise (s := 7) (x.setFlag CKP_THERM_trip (d.tripsAt tj)) (by decide)
    refine ⟨event.pwr, ?_, ?_, fun k h1 h2 hk => ?_⟩
    · rw [event.get CKP_THERM_tj (by decide) (by decide)]
      exact (Dev.get_set_apart x CKP_THERM_trip _ _ rfl rfl).trans shown
    · rw [Dev.flag_eq, event.get CKP_THERM_trip (by decide) (by decide), ← Dev.flag_eq]
      exact Dev.flag_setFlag_same x CKP_THERM_trip _ rfl rfl
    · rw [event.word k h1 h2]
      exact (Dev.word_set_ne x CKP_THERM_trip _ hk).trans (words k hk)

theorem temperatureTripsAndResets : Rules.TemperatureTripsAndResets := by
  intro s tj
  refine ⟨fun hh => ⟨_, ?_, rfl⟩, fun hr ht hn => ?_, fun hr hn => ?_⟩
  · have measured := tjMeasure_held hh tj
    rw [exec_tjMeasure, ending_watch_held (by rw [measured]; exact hh), measured]
  · have reset := resetFrom_deviceReset 2 { s.dev with pwr := { s.dev.pwr with thermHold := true } }
    refine ⟨_, ?_, ⟨reset.held, reset.idle, reset.word, reset.empty, reset.hosts, reset.nvm, reset.island⟩, (deviceReset_keeps 2 _).2⟩
    rw [exec_tjMeasure, tjMeasure_hot hr ht hn, ending_watch_held reset.held]
  · obtain ⟨pwr, shown, trip, words⟩ := tjMeasure_keeps hr hn
    exact ⟨_, exec_tjMeasure tj s, by rw [pwr]; exact hr, by rw [pwr]; rfl, shown, trip, words⟩

/-- Settles O21: the registers and blocks of a reset device are those of its definition, and a measurement of Tj resets, or shows Tj and its trip. -/
theorem resetsAndTemperatures : Obligations.ResetsAndTemperatures := ⟨resetsStartAllOver, temperatureTripsAndResets⟩

end Sys2Proof.Machine
end

section
/-! PROOF. What the messages of the pair leave alone, and how they take the line (R287, R292, O49). -/
namespace Sys2Proof.Machine

/-! ## Messages, frames and events -/

/-- The words of events, ports and alarms, which an event or a frame can write. -/
def outWord (k : Nat) : Prop := keyBlock k = 5 ∨ keyBlock k = 0xB ∨ keyBlock k = 0x12 ∨ k = GCTL_XDROP.key

/-- `e` differs from `d` in nothing but those words, the host interface and host memory, the ports, the count of free values, and what the pair
sends: its sequence number, its line, the messages that wait and the GRANTs sent. -/
structure MessageOnly (d e : Dev) : Prop where
  words : Dev.Kept (¬outWord ·) d e
  rest : e = { d with regs := e.regs, hostA := e.hostA, hostB := e.hostB, host := e.host, eth := e.eth, free := e.free,
                      spn := { d.spn with seq := e.spn.seq, line := e.spn.line, queue := e.spn.queue, grants := e.spn.grants } }

theorem MessageOnly.refl (d : Dev) : MessageOnly d d := ⟨.refl d, rfl⟩

theorem MessageOnly.trans {a b c : Dev} (h : MessageOnly a b) (g : MessageOnly b c) : MessageOnly a c :=
  ⟨h.words.trans g.words, by rw [g.rest, h.rest]⟩

theorem MessageOnly.ite {c : Prop} [Decidable c] {d x y : Dev} (hx : MessageOnly d x) (hy : MessageOnly d y) : MessageOnly d (if c then x else y) := by
  split
  · exact hx
  · exact hy

theorem EventOnly.message {d e : Dev} (h : EventOnly d e) : MessageOnly d e := by
  refine ⟨⟨fun k hk => h.word k (fun hb => hk (.inr (.inr (.inl hb)))) (fun hx => hk (.inr (.inr (.inr hx))))⟩, ?_⟩
  rw [h.rest]

/-- The words of sending at one of the ports are among them. -/
theorem SendOnly.message {p : Nat} (hp : p < 4) {d e : Dev} (h : SendOnly p d e) : MessageOnly d e := by
  refine ⟨⟨fun k hk => h.word k fun hs => hk ?_⟩, ?_⟩
  · simp only [sentWord, outWord, keyBlock, masterSpan, ETH_STAT, ETH_CNT, GCTL_XDROP, DET_NOTICE_SENT, DET_NOTICE_NOT_SENT] at hs ⊢
    omega
  · rw [h.rest]

theorem messageOnly_xdrop (d : Dev) : MessageOnly d (xdrop d) :=
  ⟨(Dev.Kept.refl d).inc (f := GCTL_XDROP) (fun h => h (.inr (.inr (.inr rfl)))), rfl⟩

theorem messageOnly_spineB (bs : List Byte) (d : Dev) : MessageOnly d (spineB bs d) :=
  .ite (.refl d) ((sendOnly_ethSend (.inr rfl) rfl d).1.message (d.get_lt SPN_CFG_spine_b_port))

/-- What an event or a frame changes is none of what the pair sends. -/
theorem spn_spineB (bs : List Byte) (d : Dev) : (spineB bs d).spn = d.spn := by
  unfold spineB
  split
  · rfl
  · rw [(sendOnly_ethSend (.inr rfl) rfl d).1.rest]

section
variable {d e : Dev} (h : MessageOnly d e)
include h

theorem MessageOnly.get {f : Fld} (hf : keyBlock f.key = 1 ∨ keyBlock f.key = 0xD ∨ f.key = GCTL_FAB_STAT.key) : e.get f = d.get f := by
  refine h.words.get ?_
  simp only [outWord, keyBlock, masterSpan, GCTL_FAB_STAT, GCTL_XDROP] at hf ⊢
  omega

theorem MessageOnly.spn : e.spn = { d.spn with seq := e.spn.seq, line := e.spn.line, queue := e.spn.queue, grants := e.spn.grants } := by
  have := congrArg Dev.spn h.rest
  exact this

theorem MessageOnly.pairState : e.pairState = d.pairState := h.get (.inr (.inl rfl))

end

/-! ## A message starts (R287, R292, R444) -/

/-- A message that starts goes onto the line: the crossing of the lane works, and its PHY is not held. -/
def Dev.laneSends (d : Dev) : Bool := !d.xingDead 8 && !d.phyHeld 8

theorem MessageOnly.laneSends {d e : Dev} (h : MessageOnly d e) : e.laneSends = d.laneSends := by
  have dead : e.xingDead 8 = d.xingDead 8 := congrArg (bitAt · 8) (h.get (f := GCTL_FAB_STAT_dead_xing) (.inr (.inr rfl)))
  have coast : e.flag CKP_STAT_coast = d.flag CKP_STAT_coast := congrArg (· != 0) (h.get (f := CKP_STAT_coast) (.inl rfl))
  have bypass : e.onRef 8 = d.onRef 8 := congrArg (· != 0) (h.get (f := CKP_DOM_CTRL_source 8) (.inl rfl))
  unfold Dev.laneSends Dev.phyHeld
  rw [dead, coast, bypass]

/-- What the pair sends, once a message has started. -/
def Dev.spnStarted (m : SpnMsg) (d : Dev) : SpnSt :=
  { d.spn with
    seq := (d.spn.seq + 1) % 2 ^ 32
    grants := if m.ty = 2 then d.spn.grants ++ [(d.spn.seq, (d.time.elapsed, leAt m.body 0 2))] else d.spn.grants
    line := if d.laneSends then some { m with bytes := d.spnBytes m.ty m.last m.ref m.body } else d.spn.line }

/-- The start of a message is that, and its frame on Spine-B. -/
theorem spnStart_eq (m : SpnMsg) (d : Dev) : ∃ x, MessageOnly d x ∧ x.spn = d.spnStarted m ∧
    spnStart m d = if m.viaB then spineB (d.spnBytes m.ty m.last m.ref m.body) x else x := by
  unfold spnStart
  extract_lets bs spn d1 d2 spn' d3
  refine ⟨d3, ?_, ?_, rfl⟩
  · have granted : MessageOnly d d1 := .ite ⟨⟨fun _ _ => rfl⟩, rfl⟩ (.refl d)
    have counted : MessageOnly d1 d2 := ⟨⟨fun _ _ => rfl⟩, rfl⟩
    exact (granted.trans counted).trans (.ite (messageOnly_xdrop d2) (.ite (.refl d2) ⟨⟨fun _ _ => rfl⟩, rfl⟩))
  · have dead : d2.xingDead 8 = d.xingDead 8 := by unfold d2 d1; split <;> rfl
    have held : d2.phyHeld 8 = d.phyHeld 8 := by unfold d2 d1; split <;> rfl
    have counted : d2.spn = { d.spnStarted m with line := d.spn.line } := by
      unfold d2 d1 spnCount Dev.spnStarted
      split <;> rfl
    unfold d3 Dev.spnStarted Dev.laneSends
    rw [dead, held]
    cases d.xingDead 8 with
    | true => exact counted
    | false =>
      cases d.phyHeld 8 with
      | true => exact counted
      | false => exact congrArg (fun x : SpnSt => { x with line := some { m with bytes := bs } }) counted

theorem messageOnly_spnStart (m : SpnMsg) (d : Dev) : MessageOnly d (spnStart m d) := by
  obtain ⟨x, hx, -, he⟩ := spnStart_eq m d
  rw [he]
  exact .ite (hx.trans (messageOnly_spineB _ x)) hx

theorem spn_spnStart (m : SpnMsg) (d : Dev) : (spnStart m d).spn = d.spnStarted m := by
  obtain ⟨x, -, hx, he⟩ := spnStart_eq m d
  rw [he, ← hx]
  split
  · exact spn_spineB _ x
  · rfl

end Sys2Proof.Machine
end

section
/-! PROOF. Messages of the pair wait for the line and take it (R287, R302, O49). -/
namespace Sys2Proof.Machine

/-! ## The message that is next -/

theorem spnPick_lt {q : List SpnMsg} {k : Nat} (h : spnPick q = some k) : k < q.length := by
  have found {p : SpnMsg → Bool} {i : Nat} (hi : q.findIdx? p = some i) : i < q.length := (List.findIdx?_eq_some_iff_getElem.mp hi).1
  unfold spnPick at h
  dsimp only at h
  split at h
  · next hi => exact Option.some.inj h ▸ found hi
  · split at h
    · exact found h
    · split at h
      · cases h
      · next hq => exact Option.some.inj h ▸ List.length_pos_of_ne_nil (by simpa using hq)

/-- A message that waits alone is next. -/
theorem spnPick_single (m : SpnMsg) : spnPick [m] = some 0 := by
  by_cases hl : 7 ≤ m.ty
  · have other : m.ty ≠ 6 := by omega
    simp [spnPick, SpnMsg.low, List.findIdx?_cons, hl, other]
  · have other : m.ty ≠ 7 := by omega
    simp [spnPick, SpnMsg.low, List.findIdx?_cons, hl, other]

/-- The device with other messages that wait. -/
def Dev.withQueue (d : Dev) (q : List SpnMsg) : Dev := { d with spn := { d.spn with queue := q } }

/-- The device whose message at a place of the queue has left the queue. -/
def Dev.dequeued (d : Dev) (k : Nat) : Dev := d.withQueue (d.spn.queue.eraseIdx k)

/-- One round of the line: nothing where a message is in transmission or none waits, else the next message starts. -/
def spnRound (d : Dev) : Option Dev :=
  if d.spn.line.isSome then none
  else match (spnPick d.spn.queue).bind (fun k => d.spn.queue[k]?.map (fun m => (k, m))) with
    | some (k, m) => some (spnStart m (d.dequeued k))
    | none => none

theorem spnNext_eq (d : Dev) : spnNext d = iterate d.spn.queue.length spnRound d := rfl

section
variable {d : Dev}

theorem spnRound_busy (h : d.spn.line.isSome = true) : spnRound d = none := if_pos h

theorem spnRound_idle (h : spnPick d.spn.queue = none) : spnRound d = none := by
  unfold spnRound
  rw [h]
  exact ite_self _

theorem spnRound_starts {k : Nat} {m : SpnMsg} (hl : d.spn.line = none) (hk : spnPick d.spn.queue = some k) (hm : d.spn.queue[k]? = some m) :
    spnRound d = some (spnStart m (d.dequeued k)) := by
  unfold spnRound
  rw [hl, hk, Option.bind_some, hm]
  rfl

theorem spnRound_some {e : Dev} (h : spnRound d = some e) : d.spn.line = none ∧ ∃ k m, e = spnStart m (d.dequeued k) := by
  unfold spnRound at h
  split at h
  · cases h
  · next hl =>
    split at h
    · next k m _ => exact ⟨by simpa using hl, k, m, (Option.some.inj h).symm⟩
    · cases h

end

theorem iterate_of_none {σ : Type} {f : σ → Option σ} {s : σ} (h : f s = none) (n : Nat) : iterate n f s = s := by
  cases n with
  | zero => rfl
  | succ n => simp only [iterate, h]

theorem iterate_of_some {σ : Type} {f : σ → Option σ} {s t : σ} (h : f s = some t) (n : Nat) : iterate (n + 1) f s = iterate n f t := by
  simp only [iterate, h]

/-- What each round keeps, all of them keep. -/
theorem iterate_keeps {σ : Type} {P : σ → Prop} {f : σ → Option σ} (h : ∀ s t, f s = some t → P s → P t) (n : Nat) {s : σ} (hs : P s) :
    P (iterate n f s) := by
  induction n generalizing s with
  | zero => exact hs
  | succ n ih =>
    cases hf : f s with
    | none => rwa [iterate_of_none hf]
    | some t =>
      rw [iterate_of_some hf]
      exact ih (h s t hf hs)

/-! ## The next messages start -/

theorem messageOnly_withQueue (q : List SpnMsg) (d : Dev) : MessageOnly d (d.withQueue q) := ⟨⟨fun _ _ => rfl⟩, rfl⟩

theorem messageOnly_spnNext (d : Dev) : MessageOnly d (spnNext d) := by
  rw [spnNext_eq]
  refine iterate_keeps (P := MessageOnly d) (fun x e h hx => ?_) _ (.refl d)
  obtain ⟨-, k, m, rfl⟩ := spnRound_some h
  exact (hx.trans (messageOnly_withQueue _ x)).trans (messageOnly_spnStart m (x.dequeued k))

section
variable {d : Dev}

theorem spnNext_busy (h : d.spn.line.isSome = true) : spnNext d = d := iterate_of_none (spnRound_busy h) _

theorem spnNext_idle (h : spnPick d.spn.queue = none) : spnNext d = d := iterate_of_none (spnRound_idle h) _

/-- The message that takes the line lets no other start. -/
theorem spnNext_starts {k : Nat} {m : SpnMsg} (hl : d.spn.line = none) (hs : d.laneSends = true) (hk : spnPick d.spn.queue = some k)
    (hm : d.spn.queue[k]? = some m) : spnNext d = spnStart m (d.dequeued k) := by
  obtain ⟨n, hn⟩ := Nat.exists_eq_add_of_lt (spnPick_lt hk)
  have sends : (d.dequeued k).laneSends = true := hs
  rw [spnNext_eq, hn, iterate_of_some (spnRound_starts hl hk hm)]
  refine iterate_of_none (spnRound_busy ?_) _
  rw [spn_spnStart]
  unfold Dev.spnStarted
  rw [if_pos sends]
  rfl

/-- A message that waits alone starts, also where the lane sends nothing. -/
theorem spnNext_single {m : SpnMsg} (hl : d.spn.line = none) (hq : d.spn.queue = [m]) : spnNext d = spnStart m (d.dequeued 0) := by
  rw [spnNext_eq, hq, List.length_singleton, iterate_of_some (spnRound_starts hl (by rw [hq, spnPick_single]) (by rw [hq]; rfl))]
  rfl

/-- On a lane that sends nothing the line stays free. -/
theorem spnNext_silent (hs : d.laneSends = false) (hl : d.spn.line = none) : (spnNext d).spn.line = none := by
  rw [spnNext_eq]
  refine And.left (iterate_keeps (P := fun x : Dev => x.spn.line = none ∧ x.laneSends = false) (fun x e h hx => ?_) _ ⟨hl, hs⟩)
  obtain ⟨-, k, m, rfl⟩ := spnRound_some h
  have silent : (x.dequeued k).laneSends = false := hx.2
  refine ⟨?_, (messageOnly_spnStart m _).laneSends.trans silent⟩
  rw [spn_spnStart]
  unfold Dev.spnStarted
  rw [if_neg (by simp [silent])]
  exact hx.1

end

/-! ## A message is sent -/

/-- A message of a type is sent: on a free line it takes its sequence number at once, and behind one in transmission it waits. -/
structure Sent (ty : Nat) (d e : Dev) : Prop where
  free : d.spn.line = none → d.spn.queue = [] → e.spn.seq = (d.spn.seq + 1) % 2 ^ 32 ∧ e.spn.queue = []
  busy : d.spn.line ≠ none → ∃ m : SpnMsg, m.ty = ty ∧ e.spn.queue = d.spn.queue ++ [m]

section
variable (m : SpnMsg) (d : Dev)

/-- A message joins those that wait, and starts where it can. -/
def spnPost : Dev := spnNext (d.withQueue (d.spn.queue ++ [m]))

theorem messageOnly_spnPost : MessageOnly d (spnPost m d) := (messageOnly_withQueue _ d).trans (messageOnly_spnNext _)

theorem spnPost_busy (h : d.spn.line ≠ none) : spnPost m d = d.withQueue (d.spn.queue ++ [m]) :=
  spnNext_busy (Option.isSome_iff_ne_none.mpr h)

theorem spnPost_free (hl : d.spn.line = none) (hq : d.spn.queue = []) : (spnPost m d).spn = (d.withQueue []).spnStarted m := by
  have alone : (d.withQueue (d.spn.queue ++ [m])).spn.queue = [m] := by
    show d.spn.queue ++ [m] = [m]
    rw [hq, List.nil_append]
  unfold spnPost
  rw [spnNext_single (d := d.withQueue (d.spn.queue ++ [m])) hl alone, spn_spnStart]
  unfold Dev.dequeued
  rw [alone]
  rfl

theorem sent_spnPost : Sent m.ty d (spnPost m d) where
  free hl hq := by
    rw [spnPost_free m d hl hq]
    exact ⟨rfl, rfl⟩
  busy h := by
    rw [spnPost_busy m d h]
    exact ⟨m, rfl, rfl⟩

end

/-- A message other than RELEASE joins those that wait. -/
theorem spnSend_eq {ty : Nat} (h : ty ≠ 4) (last : Bool) (ref : Nat) (body : List Byte) (d : Dev) : ∃ viaB,
    spnSend ty last ref body d = spnPost { ty := ty, last := last, ref := ref, body := body, viaB := viaB } d := ⟨_, if_neg h⟩

section
variable (ty : Nat) (last : Bool) (ref : Nat) (body : List Byte) (d : Dev)

theorem messageOnly_spnSend (h : ty ≠ 4) : MessageOnly d (spnSend ty last ref body d) := by
  obtain ⟨viaB, he⟩ := spnSend_eq h last ref body d
  exact he ▸ messageOnly_spnPost _ d

theorem sent_spnSend (h : ty ≠ 4) : Sent ty d (spnSend ty last ref body d) := by
  obtain ⟨viaB, he⟩ := spnSend_eq h last ref body d
  exact he ▸ sent_spnPost { ty := ty, last := last, ref := ref, body := body, viaB := viaB } d

end

/-- A GRANT that starts at once is kept with its send instant and its lease (R292). -/
theorem grants_spnSend (last : Bool) (ref : Nat) (body : List Byte) (d : Dev) (hl : d.spn.line = none) (hq : d.spn.queue = []) :
    (d.spn.seq, (d.time.elapsed, leAt body 0 2)) ∈ (spnSend 2 last ref body d).spn.grants := by
  obtain ⟨viaB, he⟩ := spnSend_eq (ty := 2) (by decide) last ref body d
  rw [he, spnPost_free _ d hl hq]
  exact List.mem_append_right _ (List.mem_singleton_self _)

section
variable (onB : Bool) (ref : Nat) (body : List Byte) (d : Dev)

theorem messageOnly_spnAnswer : MessageOnly d (spnAnswer onB ref body d) := by
  have counted : MessageOnly d (spnCount d) := ⟨⟨fun _ _ => rfl⟩, rfl⟩
  exact .ite (counted.trans (messageOnly_spineB _ _)) (messageOnly_spnPost _ d)

/-- An ACK takes its sequence number at once on Spine-B, and on a free Spine-A. -/
theorem seq_spnAnswer (h : onB = true ∨ (d.spn.line = none ∧ d.spn.queue = [])) : (spnAnswer onB ref body d).spn.seq = (d.spn.seq + 1) % 2 ^ 32 := by
  unfold spnAnswer
  split
  · rw [spn_spineB]
    rfl
  · next hb =>
    obtain ⟨hl, hq⟩ := h.resolve_left hb
    exact ((sent_spnPost _ d).free hl hq).1

/-- On Spine-A it waits while the line is busy. -/
theorem queue_spnAnswer (h : d.spn.line ≠ none) :
    ∃ m : SpnMsg, (spnAnswer false ref body d).spn.queue = d.spn.queue ++ [m] ∧ m.ty = 3 ∧ m.ref = ref := by
  have waits := spnPost_busy { ty := 3, last := false, ref := ref, body := body, viaB := false } d h
  exact ⟨_, congrArg (fun e : Dev => e.spn.queue) waits, rfl, rfl⟩

end

end Sys2Proof.Machine
end

section
/-! PROOF. What a change of the pair's state leaves of its registers and of what it keeps (R286, R293-R296, O49). -/
namespace Sys2Proof.Machine

/-! ## Fields of the pair -/

/-- The fields of the pair's registers read the same, but for those that `gs` lists. -/
structure PairKept (gs : List Fld) (d e : Dev) : Prop where
  get : ∀ f : Fld, keyBlock f.key = 0xD → (∀ g ∈ gs, g.apart f = true) → e.get f = d.get f

section
variable {gs : List Fld}

theorem PairKept.refl (d : Dev) : PairKept gs d d := ⟨fun _ _ _ => rfl⟩

theorem PairKept.trans {a b c : Dev} (h : PairKept gs a b) (g : PairKept gs b c) : PairKept gs a c :=
  ⟨fun f hf ha => (g.get f hf ha).trans (h.get f hf ha)⟩

theorem PairKept.ite {c : Prop} [Decidable c] {d x y : Dev} (hx : PairKept gs d x) (hy : PairKept gs d y) : PairKept gs d (if c then x else y) := by
  split
  · exact hx
  · exact hy

theorem PairKept.mono {hs : List Fld} {d e : Dev} (h : PairKept gs d e) (hsub : gs ⊆ hs) : PairKept hs d e :=
  ⟨fun f hf ha => h.get f hf fun g hg => ha g (hsub hg)⟩

/-- Fields are kept by what changes no register. -/
theorem PairKept.regs {d e x : Dev} (h : PairKept gs d e) (hr : x.regs = e.regs) : PairKept gs d x :=
  h.trans ⟨fun _ _ _ => by unfold Dev.get Dev.word; rw [hr]⟩

theorem PairKept.set {d e : Dev} (h : PairKept gs d e) {g : Fld} (hg : g ∈ gs) (hw : g.inWord = true) (v : Nat) : PairKept gs d (e.set g v) :=
  h.trans ⟨fun f _ ha => Dev.get_set_apart e g f v hw (ha g hg)⟩

theorem PairKept.ofWords {d e : Dev} (h : Dev.Kept (keyBlock · = 0xD) d e) : PairKept gs d e := ⟨fun _ hf _ => h.get hf⟩

theorem MessageOnly.pairKept {d e : Dev} (h : MessageOnly d e) : PairKept gs d e := ⟨fun _ hf _ => h.get (.inr (.inl hf))⟩

theorem EventOnly.pairKept {d e : Dev} (h : EventOnly d e) : PairKept gs d e := h.message.pairKept

end

/-! ## Acting follows its conditions (R286, R299) -/

/-- The field that an evaluation of acting writes. -/
def actingField : List Fld := [SPN_STAT_acting]

/-- Nothing that the pair keeps changes but the gap to be measured. -/
def SpnSt.SameButGap (x y : SpnSt) : Prop := y = { x with gapRef := y.gapRef }

theorem SpnSt.SameButGap.leases {x y : SpnSt} (h : x.SameButGap y) : y.leaseEnd = x.leaseEnd ∧ y.grantLease = x.grantLease := by
  unfold SpnSt.SameButGap at h
  rw [h]
  exact ⟨rfl, rfl⟩

theorem actingEnd_keeps (d : Dev) : PairKept actingField d (actingEnd d) ∧ d.spn.SameButGap (actingEnd d).spn := by
  unfold actingEnd
  extract_lets purged le spn det x
  have cut : PairKept actingField d x := ((PairKept.refl d).set (g := SPN_STAT_acting) (List.mem_singleton_self _) rfl (b2n false)).regs rfl
  have kept : d.spn.SameButGap x.spn := rfl
  split
  · exact ⟨cut, kept⟩
  · have event := eventOnly_raise (s := 109) x (by decide)
    exact ⟨cut.trans event.pairKept, event.spn ▸ kept⟩

/-- An evaluation of acting changes SPN_STAT.acting, and forgets the gap to be measured where acting ends. -/
theorem spnEval_keeps (d : Dev) : PairKept actingField d (spnEval d) ∧ d.spn.SameButGap (spnEval d).spn := by
  have begun : PairKept actingField d (actingBegin d) := ((PairKept.refl d).set (g := SPN_STAT_acting) (List.mem_singleton_self _) rfl (b2n true)).regs rfl
  unfold spnEval
  dsimp only
  split
  · exact ⟨.refl d, rfl⟩
  · split
    · exact ⟨begun, rfl⟩
    · exact actingEnd_keeps d

theorem get_spnEval (d : Dev) {f : Fld} (hf : keyBlock f.key = 0xD) (ha : SPN_STAT_acting.apart f = true) : (spnEval d).get f = d.get f :=
  (spnEval_keeps d).1.get f hf fun g hg => by rwa [List.mem_singleton.mp hg]

/-! ## Changes of state (R293-R296) -/

/-- The fields that a change of state writes. -/
def stateFields : List Fld := [SPN_STAT_state, SPN_STAT_acting, SPN_STAT_lease_valid, SPN_TAKES]

theorem spnEval_kept (d : Dev) : PairKept stateFields d (spnEval d) := (spnEval_keeps d).1.mono (by simp [actingField, stateFields])

theorem spn_spnEval (d : Dev) : d.spn.SameButGap (spnEval d).spn := (spnEval_keeps d).2

section
variable (d : Dev)

theorem pairEnter_kept (st : Nat) : PairKept stateFields d (pairEnter st d) :=
  ((PairKept.refl d).set (g := SPN_STAT_state) (by simp [stateFields]) rfl st).trans (spnEval_kept _)

theorem pairState_pairEnter {st : Nat} (h : st < 16) : (pairEnter st d).pairState = st :=
  (get_spnEval _ rfl rfl).trans (Dev.get_set_fits d SPN_STAT_state rfl h)

theorem spn_pairEnter (st : Nat) : d.spn.SameButGap (pairEnter st d).spn := spn_spnEval (d.set SPN_STAT_state st)

/-- The device without a lease, before it enters JOINING. -/
def Dev.leaseLost (d : Dev) : Dev :=
  let x := d.setFlag SPN_STAT_lease_valid false
  { x with spn := { x.spn with
    joinFrom := x.time.elapsed, noted := false, sendLast := none, leaseEnd := none, ackedAt := none, grants := [], handover := false } }

theorem pairJoining_kept : PairKept stateFields d (pairJoining d) := by
  have lost : PairKept stateFields d d.leaseLost :=
    ((PairKept.refl d).set (g := SPN_STAT_lease_valid) (by simp [stateFields]) rfl (b2n false)).regs rfl
  exact lost.trans (pairEnter_kept d.leaseLost 2)

theorem pairState_pairJoining : (pairJoining d).pairState = 2 := pairState_pairEnter _ (by decide)

/-- The device in HOLDER, its take counted, before its event and the evaluation of acting. -/
def Dev.holding (d : Dev) : Dev := (d.set SPN_STAT_state 5).inc SPN_TAKES

theorem pairHolder_eq : pairHolder d = spnEval (raise 108 d.holding) := rfl

theorem pairHolder_kept : PairKept stateFields d (pairHolder d) := by
  have entered : PairKept stateFields d d.holding :=
    ((PairKept.refl d).set (g := SPN_STAT_state) (by simp [stateFields]) rfl 5).set (g := SPN_TAKES) (by simp [stateFields]) rfl _
  exact (entered.trans (eventOnly_raise (s := 108) _ (by decide)).pairKept).trans (spnEval_kept _)

theorem get_pairHolder {f : Fld} (hf : keyBlock f.key = 0xD) (ha : SPN_STAT_acting.apart f = true) : (pairHolder d).get f = d.holding.get f := by
  rw [pairHolder_eq, get_spnEval _ hf ha]
  exact ((eventOnly_raise (s := 108) d.holding (by decide)).pairKept (gs := [])).get f hf (by simp)

theorem pairState_pairHolder : (pairHolder d).pairState = 5 := by
  refine (get_pairHolder d rfl rfl).trans ?_
  exact (Dev.get_set_ne _ SPN_TAKES _ _ (by decide)).trans (Dev.get_set_fits d SPN_STAT_state rfl (by decide))

theorem takes_pairHolder : (pairHolder d).get SPN_TAKES = min (d.get SPN_TAKES + 1) 4294967295 := by
  have before : (d.set SPN_STAT_state 5).get SPN_TAKES = d.get SPN_TAKES := Dev.get_set_ne d SPN_STAT_state _ _ (by decide)
  rw [get_pairHolder d rfl rfl, ← before]
  exact Dev.get_inc_same _ SPN_TAKES rfl

theorem spn_pairHolder : d.spn.SameButGap (pairHolder d).spn := by
  have event : (raise 108 d.holding).spn = d.spn := (eventOnly_raise (s := 108) _ (by decide)).spn
  exact event ▸ spn_spnEval (raise 108 d.holding)

theorem flag_lease_pairHolder : (pairHolder d).flag SPN_STAT_lease_valid = d.flag SPN_STAT_lease_valid := by
  refine congrArg (· != 0) ((get_pairHolder d rfl rfl).trans ?_)
  exact (Dev.get_set_ne _ SPN_TAKES _ _ (by decide)).trans (Dev.get_set_apart _ SPN_STAT_state _ _ rfl rfl)

/-- The device with the lease of a take, before it enters HOLDER. -/
def Dev.leased (ref : Nat) (d : Dev) : Dev :=
  let x := d.setFlag SPN_STAT_lease_valid true
  { x with spn := { x.spn with
    gapRef := some ref, leaseEnd := some (x.time.elapsed + usTicks x.leaseUs), ackedAt := none, grants := [], sendLast := none, handover := false } }

theorem pairTake_eq (ref : Nat) : pairTake ref d = pairHolder (d.leased ref) := rfl

theorem pairTake_kept (ref : Nat) : PairKept stateFields d (pairTake ref d) := by
  have valid : PairKept stateFields d (d.leased ref) :=
    ((PairKept.refl d).set (g := SPN_STAT_lease_valid) (by simp [stateFields]) rfl (b2n true)).regs rfl
  exact valid.trans (pairHolder_kept _)

theorem takes_pairTake (ref : Nat) : (pairTake ref d).get SPN_TAKES = min (d.get SPN_TAKES + 1) 4294967295 := by
  have before : (d.leased ref).get SPN_TAKES = d.get SPN_TAKES := Dev.get_set_ne d SPN_STAT_lease_valid _ _ (by decide)
  rw [pairTake_eq, takes_pairHolder, before]

/-- A take holds a valid lease, which ends lease_us later (R294; log entry 62). -/
theorem lease_pairTake (ref : Nat) :
    (pairTake ref d).flag SPN_STAT_lease_valid = true ∧ (pairTake ref d).spn.leaseEnd = some (d.time.elapsed + usTicks d.leaseUs) := by
  constructor
  · have valid : (d.leased ref).flag SPN_STAT_lease_valid = true := Dev.flag_setFlag_same d SPN_STAT_lease_valid true rfl rfl
    exact (flag_lease_pairHolder _).trans valid
  · have kept : (pairTake ref d).spn.leaseEnd = (d.leased ref).spn.leaseEnd := (spn_pairHolder (d.leased ref)).leases.1
    have lease : (d.setFlag SPN_STAT_lease_valid true).leaseUs = d.leaseUs := Dev.get_set_ne d SPN_STAT_lease_valid _ _ (by decide)
    rw [kept, ← lease]
    rfl

end

end Sys2Proof.Machine
end

section
/-! PROOF. A message of the pair arrives: what is noted of it, and what it moves (R288, R292-R296, O49). -/
namespace Sys2Proof.Machine

/-! ## Fields of a message -/

theorem ofLe_lt (bs : List Byte) : ofLe bs < 256 ^ bs.length := by
  induction bs with
  | nil => exact Nat.one_pos
  | cons b bs ih =>
    have hb : b.toNat < 256 := b.isLt
    rw [ofLe, List.length_cons, Nat.pow_succ]
    omega

/-- A field of `n` bytes fits in them. -/
theorem leAt_lt (bs : List Byte) (o n : Nat) : leAt bs o n < 256 ^ n :=
  Nat.lt_of_lt_of_le (ofLe_lt _) (Nat.pow_le_pow_right (by decide) (List.length_take_le n _))

/-! ## An arriving message is taken and noted (R288, R291) -/

/-- The message that is taken is one that was wanted, and only what Spine-B has received changes. -/
theorem spnTake_some {want : Bool → List Byte → Bool} {rx : SpineRx} {d e : Dev} {onB : Bool} {bs : List Byte}
    (h : spnTake want rx d = some (onB, bs, e)) : want onB bs = true ∧ e = { d with eth := e.eth } := by
  unfold spnTake at h
  split at h
  · split at h
    · next hw => cases h; exact ⟨hw, rfl⟩
    · cases h
  · cases h
  · dsimp only at h
    split at h
    · next f hf =>
      cases h
      obtain ⟨hlt, rfl⟩ := List.getElem?_eq_some_iff.mp hf
      exact ⟨List.findIdx_getElem (p := fun f => want true (spnOfFrame f)) (w := hlt), rfl⟩
    · cases h

/-- The fields that the arrival of a message writes. -/
def noteFields : List Fld := [SPN_STAT_peer_primary, SPN_PEER_unit_id, SPN_PEER_time, SPN_STAT_spa_alive, SPN_STAT_spb_alive]

/-- `x` is `d` with a message noted that arrived on a path: the path is alive, and the sequence numbers `seen` have arrived. -/
structure Heard (onB : Bool) (bs : List Byte) (seen : List (Nat × Bool)) (d x : Dev) : Prop where
  kept : PairKept noteFields d x
  word : ∀ k, keyBlock k ≠ 0x12 → keyBlock k ≠ 0xD → k ≠ GCTL_XDROP.key → x.word k = d.word k
  alive : x.flag (pathFld onB) = true
  unit : x.get SPN_PEER_unit_id = leAt bs 6 2
  spn : x.spn = { d.spn with lastA := x.spn.lastA, lastB := x.spn.lastB, noted := false, seen := seen }
  rest : x = { d with regs := x.regs, hostA := x.hostA, hostB := x.hostB, host := x.host, eth := x.eth, spn := x.spn }

/-- What the pair keeps of a message on a path, and when. -/
def SpnSt.heardOn (onB : Bool) (t : Nat) (x : SpnSt) : SpnSt :=
  if onB then { x with lastB := some t, noted := false } else { x with lastA := some t, noted := false }

/-- The device that knows the sender of a message, before its path is marked alive. -/
def Dev.peerShown (onB : Bool) (bs : List Byte) (d : Dev) : Dev :=
  ((({ d with spn := d.spn.heardOn onB d.time.elapsed } : Dev).setFlag SPN_STAT_peer_primary (bitAt (byteAt bs 1) 0)).set SPN_PEER_unit_id
    (leAt bs 6 2)).set SPN_PEER_time (bits (byteAt bs 1) 4 2)

theorem spnNote_eq (onB : Bool) (bs : List Byte) (d : Dev) : spnNote onB bs d =
    let x := d.peerShown onB bs
    if x.flag (pathFld onB) then x else raiseMs 110 (x.setFlag (pathFld onB) true) := by
  cases onB <;> rfl

theorem heardOn_eq (onB : Bool) (t : Nat) (x : SpnSt) :
    x.heardOn onB t = { x with lastA := (x.heardOn onB t).lastA, lastB := (x.heardOn onB t).lastB, noted := false } := by
  cases onB <;> rfl

/-- The fields that a message can move besides. -/
def moveFields : List Fld := SPN_PEER_state :: stateFields

section
variable (onB : Bool)

theorem pathFld_noted : pathFld onB ∈ noteFields ∧ keyBlock (pathFld onB).key = 0xD ∧ (pathFld onB).inWord = true ∧ (pathFld onB).width = 1 ∧
    (pathFld onB).apart SPN_PEER_unit_id = true ∧ ∀ g ∈ moveFields, g.apart (pathFld onB) = true := by
  cases onB <;> decide

/-- Until its path is marked alive, a message writes the fields of the peer. -/
theorem peerShown_keeps (bs : List Byte) (d : Dev) : PairKept noteFields d (d.peerShown onB bs) ∧
    (∀ k, keyBlock k ≠ 0xD → (d.peerShown onB bs).word k = d.word k) ∧ (d.peerShown onB bs).get SPN_PEER_unit_id = leAt bs 6 2 := by
  have began : PairKept noteFields d { d with spn := d.spn.heardOn onB d.time.elapsed } := (PairKept.refl d).regs rfl
  refine ⟨?_, fun k hk => ?_, ?_⟩
  · exact ((began.set (g := SPN_STAT_peer_primary) (by simp [noteFields]) rfl _).set (g := SPN_PEER_unit_id)
      (by simp [noteFields]) rfl _).set (g := SPN_PEER_time) (by simp [noteFields]) rfl _
  · have away {g : Fld} (hg : keyBlock g.key = 0xD) : k ≠ g.key := fun he => hk (by rw [he, hg])
    unfold Dev.peerShown
    rw [Dev.setFlag_eq, Dev.word_set_ne _ SPN_PEER_time _ (away rfl), Dev.word_set_ne _ SPN_PEER_unit_id _ (away rfl),
      Dev.word_set_ne _ SPN_STAT_peer_primary _ (away rfl)]
    rfl
  · refine (Dev.get_set_apart _ SPN_PEER_time _ _ rfl rfl).trans ?_
    exact Dev.get_set_fits _ SPN_PEER_unit_id rfl (leAt_lt bs 6 2)

/-- A path that was silent is alive from now on, with its event. -/
def pathWoken (d : Dev) : Dev := if d.flag (pathFld onB) then d else raiseMs 110 (d.setFlag (pathFld onB) true)

theorem pathWoken_keeps (d : Dev) : PairKept [pathFld onB] d (pathWoken onB d) ∧ (pathWoken onB d).flag (pathFld onB) = true ∧
    (∀ k, keyBlock k ≠ 0x12 → keyBlock k ≠ 0xD → k ≠ GCTL_XDROP.key → (pathWoken onB d).word k = d.word k) ∧
    pathWoken onB d = { d with regs := (pathWoken onB d).regs, hostA := (pathWoken onB d).hostA, hostB := (pathWoken onB d).hostB,
                               host := (pathWoken onB d).host } := by
  obtain ⟨-, block, inside, one, -, -⟩ := pathFld_noted onB
  unfold pathWoken
  split
  · next alive => exact ⟨.refl d, alive, fun _ _ _ _ => rfl, rfl⟩
  · have event := eventOnly_raiseMs (s := 110) (d.setFlag (pathFld onB) true) (by decide)
    refine ⟨((PairKept.refl d).set (List.mem_singleton_self _) inside (b2n true)).trans event.pairKept, ?_, fun k h12 hk hx => ?_, event.rest⟩
    · rw [Dev.flag_eq, (event.pairKept (gs := [])).get _ block (by simp), ← Dev.flag_eq]
      exact Dev.flag_setFlag_same d (pathFld onB) true inside one
    · rw [event.word k h12 hx]
      exact Dev.word_set_ne d (pathFld onB) _ (fun he => hk (by rw [he, block]))

theorem heard_spnNote (bs : List Byte) (d : Dev) : Heard onB bs d.spn.seen d (spnNote onB bs d) := by
  obtain ⟨listed, -, -, -, unitApart, -⟩ := pathFld_noted onB
  obtain ⟨shown, words, unit⟩ := peerShown_keeps onB bs d
  obtain ⟨woken, alive, kept, rest⟩ := pathWoken_keeps onB (d.peerShown onB bs)
  have noted : spnNote onB bs d = pathWoken onB (d.peerShown onB bs) := spnNote_eq onB bs d
  have spn : (pathWoken onB (d.peerShown onB bs)).spn = d.spn.heardOn onB d.time.elapsed := by rw [rest]; rfl
  rw [noted]
  refine ⟨shown.trans (woken.mono (by simpa using listed)), fun k h12 hk hx => (kept k h12 hk hx).trans (words k hk), alive, ?_, ?_, ?_⟩
  · exact (woken.get SPN_PEER_unit_id rfl (by simpa using unitApart)).trans unit
  · rw [spn]
    exact heardOn_eq onB _ _
  · rw [rest]
    rfl

end

/-- The first copy of a message is noted, and acted on. -/
theorem spnReceive_arrives {ty : Nat} {rx : SpineRx} {d : Dev} {onB : Bool} {bs : List Byte} (h : MessageArrives ty rx d onB bs)
    (act : Bool → List Byte → Dev → Dev) :
    ∃ x, Heard onB bs (((leAt bs 8 4, onB) :: d.spn.seen).take seenKept) d x ∧ spnReceive ty act rx d = act onB bs x := by
  obtain ⟨⟨e, taken⟩, crc, foreign, copy⟩ := h
  obtain ⟨-, rest⟩ := spnTake_some taken
  have heard := heard_spnNote onB bs e
  have spn : e.spn = d.spn := by rw [rest]
  have foreign' : e.spnForeign bs = false := by rw [rest]; exact foreign
  have copy' : e.spnCopy bs = false := by rw [rest]; exact copy
  generalize hy : spnNote onB bs e = y at heard
  refine ⟨{ y with spn := { y.spn with seen := ((leAt bs 8 4, onB) :: d.spn.seen).take seenKept } }, ?_, ?_⟩
  · have regs : e.regs = d.regs := by rw [rest]
    have same (k : Nat) : e.word k = d.word k := by
      unfold Dev.word
      rw [regs]
    refine ⟨((PairKept.refl d).regs regs |>.trans heard.kept).regs rfl, fun k h1 h2 h3 => (heard.word k h1 h2 h3).trans (same k), heard.alive,
      heard.unit, ?_, ?_⟩
    · rw [heard.spn, spn]
    · rw [heard.rest, rest]
  · have seen : y.spn.seen = d.spn.seen := by rw [heard.spn, spn]
    unfold spnReceive
    rw [taken]
    dsimp only
    unfold spnAccept
    rw [crc, foreign', copy', hy, ← seen]
    rfl

theorem spnReceive_none {ty : Nat} {rx : SpineRx} {d : Dev} (h : spnTake (fun _ b => byteAt b 0 == ty) rx d = none)
    (act : Bool → List Byte → Dev → Dev) : spnReceive ty act rx d = d := by
  unfold spnReceive
  rw [h]

end Sys2Proof.Machine
end

section
/-! PROOF. Messages move the state of the pair (R292-R296, O49). -/
namespace Sys2Proof.Machine

/-! ## What a message leaves for its effect -/

section
variable {onB : Bool} {bs : List Byte} {seen : List (Nat × Bool)} {d x : Dev} (h : Heard onB bs seen d x)
include h

theorem Heard.get {f : Fld} (hf : keyBlock f.key = 0xD) (ha : noteFields.all (·.apart f) = true) : x.get f = d.get f :=
  h.kept.get f hf fun g hg => List.all_eq_true.mp ha g hg

theorem Heard.getOutside {f : Fld} (h1 : keyBlock f.key ≠ 0x12) (h2 : keyBlock f.key ≠ 0xD) (h3 : f.key ≠ GCTL_XDROP.key) : x.get f = d.get f := by
  unfold Dev.get
  rw [h.word _ h1 h2 h3]

theorem Heard.pairState : x.pairState = d.pairState := h.get rfl rfl

theorem Heard.primary : x.primary = d.primary := congrArg (· != 0) (h.get (f := SPN_CFG_role) rfl rfl)

theorem Heard.time : x.time = d.time := by rw [h.rest]

theorem Heard.leRunning : x.leRunning = d.leRunning :=
  congrArg (· == 2) (h.getOutside (f := LGE_STAT_state) (by decide) (by decide) (by decide))

theorem Heard.retainIdNow : x.retainIdNow = d.retainIdNow := by
  have bank : x.get LGE_STAT_bank = d.get LGE_STAT_bank := h.getOutside (by decide) (by decide) (by decide)
  have win : x.win = d.win := by rw [h.rest]
  unfold Dev.retainIdNow Dev.activeProg Dev.progHdr
  rw [bank, win]

/-- The path and the sender stay noted through what a message moves. -/
theorem Heard.after {e : Dev} (hk : PairKept moveFields x e) : e.flag (pathFld onB) = true ∧ e.get SPN_PEER_unit_id = leAt bs 6 2 := by
  obtain ⟨-, block, -, -, -, apart⟩ := pathFld_noted onB
  refine ⟨?_, (hk.get SPN_PEER_unit_id rfl (by decide)).trans h.unit⟩
  rw [Dev.flag_eq, hk.get _ block apart, ← Dev.flag_eq]
  exact h.alive

end

theorem PairKept.moves {d e : Dev} (h : PairKept stateFields d e) : PairKept moveFields d e := h.mono (List.subset_cons_self ..)

/-! ## JOIN (R296) -/

/-- The receiver wins over the sender of a JOIN. -/
def Dev.winsJoin (d : Dev) (bs : List Byte) : Bool :=
  (d.primary && !bitAt (byteAt bs 1) 0) || (d.primary == bitAt (byteAt bs 1) 0 && decide (d.get SPN_CFG_unit_id < leAt bs 6 2))

theorem onJoin_eq (onB : Bool) (bs : List Byte) (d : Dev) : onJoin onB bs d = if d.pairState = 2 && d.winsJoin bs then pairHolder d else d := rfl

theorem onJoin_kept (onB : Bool) (bs : List Byte) (d : Dev) : PairKept moveFields d (onJoin onB bs d) := .ite (pairHolder_kept d).moves (.refl d)

theorem Heard.winsJoin {onB : Bool} {bs : List Byte} {seen : List (Nat × Bool)} {d x : Dev} (h : Heard onB bs seen d x) (m : List Byte) :
    x.winsJoin m = d.winsJoin m := by
  have unit : x.get SPN_CFG_unit_id = d.get SPN_CFG_unit_id := h.get rfl rfl
  unfold Dev.winsJoin
  rw [h.primary, unit]

/-! ## GRANT (R292, R295) -/

section
variable (onB : Bool) (bs : List Byte) (d : Dev)

/-- The unit keeps the lease of the GRANT. -/
def Dev.grantKept : Dev := { d with spn := { d.spn with grantLease := some (leAt (spnBody bs) 0 2) } }

/-- The unit answers with an ACK. -/
def grantAck : Dev := spnAnswer onB (leAt bs 8 4) (toLe 1 d.pairState ++ toLe 3 0) d

/-- A JOINING unit that a GRANT finds forgets the sets of the mirror. -/
def Dev.setsForgotten : Dev := { d with spn := { d.spn with opened := none, sets := [] } }

theorem messageOnly_grantAck : MessageOnly d (grantAck onB bs d) := messageOnly_spnAnswer ..

/-- The unit as a GRANT finds it: it keeps its lease in JOINING, SYNCING and STANDBY. -/
def grantFound : Dev := if 2 ≤ d.pairState && d.pairState ≤ 4 then d.grantKept bs else d

section
variable {bs d}

theorem grantFound_kept (h : 2 ≤ d.pairState ∧ d.pairState ≤ 4) : grantFound bs d = d.grantKept bs := if_pos (by simpa using h)

theorem grantFound_same (h : d.pairState < 2 ∨ 4 < d.pairState) : grantFound bs d = d := if_neg (by simp; omega)

end

section
variable {onB bs d} {x : Dev} (found : grantFound bs d = x)
include found

theorem onGrant_joining (h : x.pairState = 2) : onGrant onB bs d = spnSend 8 false 0 [] (grantAck onB bs (pairEnter 3 x.setsForgotten)) := by
  subst found
  unfold onGrant
  extract_lets b ack spn y
  rw [show y.pairState = 2 from h]
  rfl

theorem onGrant_syncing (h : x.pairState = 3) :
    onGrant onB bs d = grantAck onB bs (if leAt (spnBody bs) 4 4 != x.retainIdNow then pairEnter 4 x else x) := by
  subst found
  unfold onGrant
  extract_lets b ack spn y
  rw [show y.pairState = 3 from h]
  rfl

theorem onGrant_standby (h : x.pairState = 4) : onGrant onB bs d = grantAck onB bs x := by
  subst found
  unfold onGrant
  extract_lets b ack spn y
  rw [show y.pairState = 4 from h]
  rfl

theorem onGrant_holder (h : x.pairState = 5) :
    onGrant onB bs d = if bitAt (byteAt bs 1) 0 && bitAt (byteAt bs 1) 1 && !x.primary then pairJoining x else x := by
  subst found
  unfold onGrant
  extract_lets b ack spn y
  rw [show y.pairState = 5 from h]
  rfl

theorem onGrant_other (h : x.pairState < 2 ∨ 5 < x.pairState) : onGrant onB bs d = x := by
  subst found
  unfold onGrant
  extract_lets b ack spn y
  have state : y.pairState < 2 ∨ 5 < y.pairState := h
  split
  case h_1 hy | h_2 hy | h_3 hy | h_4 hy => omega
  case h_5 => rfl

end

end

end Sys2Proof.Machine
end

section
/-! PROOF. A GRANT is answered and moves the state of the pair (R292, R295, O49). -/
namespace Sys2Proof.Machine

theorem MessageOnly.grantLease {d e : Dev} (h : MessageOnly d e) : e.spn.grantLease = d.spn.grantLease := by rw [h.spn]

section
variable {onB : Bool} {bs : List Byte} {d : Dev}

theorem pairState_grantAck (d : Dev) : (grantAck onB bs d).pairState = d.pairState := (messageOnly_grantAck onB bs d).pairState

/-- A JOINING unit is SYNCING from now on, and keeps the lease. -/
theorem onGrant_moves_joining (h : d.pairState = 2) :
    (onGrant onB bs d).pairState = 3 ∧ (onGrant onB bs d).spn.grantLease = some (leAt (spnBody bs) 0 2) := by
  have joining : (d.grantKept bs).pairState = 2 := h
  have asks (x : Dev) : MessageOnly x (spnSend 8 false 0 [] x) := messageOnly_spnSend 8 false 0 [] x (by decide)
  rw [onGrant_joining (grantFound_kept (by omega)) joining]
  constructor
  · rw [(asks _).pairState, pairState_grantAck, pairState_pairEnter _ (by decide)]
  · rw [(asks _).grantLease, (messageOnly_grantAck ..).grantLease, (spn_pairEnter _ 3).leases.2]
    rfl

/-- A SYNCING unit is STANDBY where the retained areas differ (log entry 70). -/
theorem onGrant_moves_syncing (h : d.pairState = 3) :
    (onGrant onB bs d).pairState = if leAt (spnBody bs) 4 4 ≠ d.retainIdNow then 4 else 3 := by
  have syncing : (d.grantKept bs).pairState = 3 := h
  have retain : (d.grantKept bs).retainIdNow = d.retainIdNow := rfl
  rw [onGrant_syncing (grantFound_kept (by omega)) syncing, pairState_grantAck, retain]
  by_cases hr : leAt (spnBody bs) 4 4 = d.retainIdNow
  · rw [if_neg (by simpa using hr), if_neg (by simpa using hr), syncing]
  · rw [if_pos (by simpa using hr), if_pos hr, pairState_pairEnter _ (by decide)]

/-- A HOLDER that an acting PRIMARY grants to leaves to JOINING, unless it is PRIMARY itself. -/
theorem onGrant_moves_holder (h : d.pairState = 5) :
    (onGrant onB bs d).pairState = if bitAt (byteAt bs 1) 0 && bitAt (byteAt bs 1) 1 && !d.primary then 2 else 5 := by
  rw [onGrant_holder (grantFound_same (by omega)) h]
  split
  · exact pairState_pairJoining d
  · exact h

theorem onGrant_moves_other (h : d.pairState < 2 ∨ 5 < d.pairState) : onGrant onB bs d = d :=
  onGrant_other (grantFound_same (by omega)) h

/-- A STANDBY unit answers, and stays STANDBY. -/
theorem onGrant_moves_standby (h : d.pairState = 4) : onGrant onB bs d = grantAck onB bs (d.grantKept bs) :=
  onGrant_standby (grantFound_kept (by omega)) h

theorem grantAck_kept {gs : List Fld} (d : Dev) : PairKept gs d (grantAck onB bs d) := (messageOnly_grantAck onB bs d).pairKept

theorem onGrant_kept (onB : Bool) (bs : List Byte) (d : Dev) : PairKept stateFields d (onGrant onB bs d) := by
  have granted : PairKept stateFields d (d.grantKept bs) := (PairKept.refl d).regs rfl
  have other (h : d.pairState < 2 ∨ 5 < d.pairState) : PairKept stateFields d (onGrant onB bs d) := by
    rw [onGrant_moves_other h]
    exact .refl d
  match h : d.pairState with
  | 0 | 1 => exact other (by omega)
  | 2 =>
    rw [onGrant_joining (grantFound_kept (by omega)) h]
    have forgot : PairKept stateFields d (d.grantKept bs).setsForgotten := granted.regs rfl
    have synced := (forgot.trans (pairEnter_kept _ 3)).trans (grantAck_kept (onB := onB) (bs := bs) _)
    exact synced.trans (messageOnly_spnSend 8 false 0 [] _ (by decide)).pairKept
  | 3 =>
    rw [onGrant_syncing (grantFound_kept (by omega)) h]
    exact (PairKept.ite (granted.trans (pairEnter_kept _ 4)) granted).trans (grantAck_kept _)
  | 4 =>
    rw [onGrant_moves_standby h]
    exact granted.trans (grantAck_kept _)
  | 5 =>
    rw [onGrant_holder (grantFound_same (by omega)) h]
    exact .ite (pairJoining_kept d) (.refl d)
  | n + 6 => exact other (by omega)

end

/-! ## RELEASE and HANDOVER (R294) -/

theorem onRelease_eq (onB : Bool) (bs : List Byte) (d : Dev) : onRelease onB bs d = if d.pairState = 4 then pairTake d.time.elapsed d else d := rfl

theorem onRelease_kept (onB : Bool) (bs : List Byte) (d : Dev) : PairKept stateFields d (onRelease onB bs d) :=
  .ite (pairTake_kept d _) (.refl d)

theorem pairState_pairTake (d : Dev) (ref : Nat) : (pairTake ref d).pairState = 5 := pairState_pairHolder _

/-! ## ACK (R292) -/

section
variable (bs : List Byte) (d : Dev)

/-- The unit that knows the state of its peer from an ACK. -/
def Dev.peerStateShown : Dev :=
  { (d.set SPN_PEER_state (byteAt bs 16)) with spn := { d.spn with peerTime := bits (byteAt bs 1) 4 2 } }

/-- The lease that an ACK renews: to the send instant of its GRANT plus the lease granted. -/
def Dev.ackRenewed : Dev :=
  match lookup (leAt bs 12 4) d.spn.grants with
  | some (t, l) =>
    if d.leRunning && (d.spn.ackedAt.all (fun a => decide (a < t))) then
      { d with spn := { d.spn with ackedAt := some t, leaseEnd := some (t + usTicks l) } }
    else d
  | none => d

/-- A unit that has the token lives on by its lease. -/
def leaseEval : Dev :=
  let ok := d.spn.leaseEnd.any (fun e => decide (d.time.elapsed < e))
  let x := d.setFlag SPN_STAT_lease_valid ok
  if x.pairState = 6 && ok then pairHolder x else spnEval x

theorem onAck_eq (onB : Bool) : onAck onB bs d =
    let x := d.peerStateShown bs
    if x.pairState != 5 && x.pairState != 6 then x else leaseEval (x.ackRenewed bs) := rfl

theorem ackRenewed_of_grant {t l : Nat} (hg : lookup (leAt bs 12 4) d.spn.grants = some (t, l)) (hr : d.leRunning = true)
    (ha : ∀ a, d.spn.ackedAt = some a → a < t) :
    d.ackRenewed bs = { d with spn := { d.spn with ackedAt := some t, leaseEnd := some (t + usTicks l) } } := by
  have newer : (d.spn.ackedAt.all fun a => decide (a < t)) = true := by
    cases h : d.spn.ackedAt with
    | none => rfl
    | some a => simpa using ha a h
  unfold Dev.ackRenewed
  rw [hg]
  dsimp only
  rw [hr, newer]
  rfl

theorem ackRenewed_regs : (d.ackRenewed bs).regs = d.regs := by
  unfold Dev.ackRenewed
  split
  · split <;> rfl
  · rfl

theorem leaseEval_kept : PairKept stateFields d (leaseEval d) := by
  have valid (v : Bool) : PairKept stateFields d (d.setFlag SPN_STAT_lease_valid v) :=
    (PairKept.refl d).set (g := SPN_STAT_lease_valid) (by simp [stateFields]) rfl (b2n v)
  exact .ite ((valid _).trans (pairHolder_kept _)) ((valid _).trans (spnEval_kept _))

theorem onAck_kept (onB : Bool) : PairKept stateFields (d.peerStateShown bs) (onAck onB bs d) := by
  rw [onAck_eq]
  exact .ite (.refl _) (((PairKept.refl _).regs (ackRenewed_regs bs _)).trans (leaseEval_kept _))

/-- An ACK shows the state of its sender. -/
theorem peerState_onAck (onB : Bool) : (onAck onB bs d).get SPN_PEER_state = byteAt bs 16 % 16 := by
  rw [(onAck_kept bs d onB).get SPN_PEER_state rfl (by decide)]
  exact Dev.get_set_same d SPN_PEER_state _ rfl

theorem pairState_peerStateShown : (d.peerStateShown bs).pairState = d.pairState :=
  Dev.get_set_ne d SPN_PEER_state SPN_STAT_state _ (by decide)

/-- A unit without the token keeps its state. -/
theorem pairState_onAck (onB : Bool) (h5 : d.pairState ≠ 5) (h6 : d.pairState ≠ 6) : (onAck onB bs d).pairState = d.pairState := by
  have state := pairState_peerStateShown bs d
  rw [onAck_eq]
  dsimp only
  rw [if_pos (by simp [state, h5, h6]), state]

end

/-- A lease that ends at `t` is valid before, and a HOLDER or ISOLATED unit is HOLDER while it is. -/
theorem leaseEval_ends {d : Dev} {t : Nat} (ht : d.spn.leaseEnd = some t) (hs : d.pairState = 5 ∨ d.pairState = 6) :
    (leaseEval d).spn.leaseEnd = some t ∧ (leaseEval d).flag SPN_STAT_lease_valid = decide (d.time.elapsed < t) ∧
    (d.time.elapsed < t → (leaseEval d).pairState = 5) := by
  have ok : d.spn.leaseEnd.any (fun e => decide (d.time.elapsed < e)) = decide (d.time.elapsed < t) := by rw [ht]; rfl
  unfold leaseEval
  rw [ok]
  extract_lets v x
  have state : x.pairState = d.pairState := Dev.get_set_apart d SPN_STAT_lease_valid _ _ rfl rfl
  have valid : x.flag SPN_STAT_lease_valid = decide (d.time.elapsed < t) := Dev.flag_setFlag_same d SPN_STAT_lease_valid _ rfl rfl
  have ends : x.spn.leaseEnd = some t := ht
  split
  · refine ⟨(spn_pairHolder x).leases.1.trans ends, ?_, fun _ => pairState_pairHolder x⟩
    rw [flag_lease_pairHolder, valid]
  · next hn =>
    refine ⟨(spn_spnEval x).leases.1.trans ends, ?_, fun hlt => ?_⟩
    · rw [Dev.flag_eq, get_spnEval x rfl rfl, ← Dev.flag_eq, valid]
    · have holds : x.pairState ≠ 6 := fun h6 => hn (by simp [h6, v, hlt])
      have kept : (spnEval x).pairState = x.pairState := get_spnEval x rfl rfl
      omega

end Sys2Proof.Machine
end

section
/-! PROOF. Messages that move the state of the pair settle so on every device (R292-R296, O49). -/
namespace Sys2Proof.Machine

/-! ## What the messages find on a device that heard them -/

section
variable {onB : Bool} {bs : List Byte} {seen : List (Nat × Bool)} {d x : Dev} (h : Heard onB bs seen d x)
include h

theorem Heard.takes : x.get SPN_TAKES = d.get SPN_TAKES := h.get rfl rfl

theorem Heard.lease : x.time.elapsed + usTicks x.leaseUs = d.time.elapsed + 4000 * d.leaseUs := by
  have lease : x.leaseUs = d.leaseUs := h.get rfl rfl
  rw [h.time, lease, usTicks, Nat.mul_comm]

/-- A take of a unit that heard a message. -/
theorem Heard.pairTake (ref : Nat) : ((pairTake ref x).pairState = 5 ∧ (pairTake ref x).get SPN_TAKES = min (d.get SPN_TAKES + 1) 4294967295) ∧
    (pairTake ref x).flag SPN_STAT_lease_valid = true ∧ (pairTake ref x).spn.leaseEnd = some (d.time.elapsed + 4000 * d.leaseUs) := by
  obtain ⟨valid, ends⟩ := lease_pairTake x ref
  refine ⟨⟨pairState_pairTake x ref, ?_⟩, valid, ?_⟩
  · rw [takes_pairTake, h.takes]
  · rw [ends, h.lease]

theorem Heard.onJoin_wins (h2 : d.pairState = 2) (hw : d.winsJoin bs = true) :
    (onJoin onB bs x).pairState = 5 ∧ (onJoin onB bs x).get SPN_TAKES = min (d.get SPN_TAKES + 1) 4294967295 := by
  rw [onJoin_eq, if_pos (by simp [h.pairState, h2, h.winsJoin bs, hw]), ← h.takes]
  exact ⟨pairState_pairHolder x, takes_pairHolder x⟩

theorem Heard.onJoin_stays (hn : d.pairState ≠ 2 ∨ d.winsJoin bs = false) : (onJoin onB bs x).pairState = d.pairState := by
  rw [onJoin_eq, if_neg, h.pairState]
  rw [h.pairState, h.winsJoin bs]
  rcases hn with hn | hn <;> simp [hn]

/-- The ACK of a STANDBY unit takes a sequence number, or waits behind the message in transmission. -/
theorem Heard.onGrant_standby (h4 : d.pairState = 4) :
    (onGrant onB bs x).pairState = 4 ∧
    (onB = true ∨ (d.spn.line = none ∧ d.spn.queue = []) → (onGrant onB bs x).spn.seq = (d.spn.seq + 1) % 2 ^ 32) ∧
    (onB = false → d.spn.line ≠ none → ∃ m : SpnMsg, (onGrant onB bs x).spn.queue = d.spn.queue ++ [m] ∧ m.ty = 3 ∧ m.ref = leAt bs 8 4) := by
  have line : x.spn.line = d.spn.line := by rw [h.spn]
  have queue : x.spn.queue = d.spn.queue := by rw [h.spn]
  have seq : x.spn.seq = d.spn.seq := by rw [h.spn]
  have state : x.pairState = 4 := h.pairState.trans h4
  rw [onGrant_moves_standby state, ← line, ← queue, ← seq]
  refine ⟨(pairState_grantAck _).trans state, fun free => seq_spnAnswer onB _ _ (x.grantKept bs) free, fun hb busy => ?_⟩
  subst hb
  exact queue_spnAnswer _ _ (x.grantKept bs) busy

/-- An ACK that renews the lease of a unit with the token. -/
theorem Heard.onAck_renews {t l : Nat} (hs : d.pairState = 5 ∨ d.pairState = 6) (hg : lookup (leAt bs 12 4) d.spn.grants = some (t, l))
    (hr : d.leRunning = true) (ha : ∀ a, d.spn.ackedAt = some a → a < t) :
    (onAck onB bs x).spn.leaseEnd = some (t + 4000 * l) ∧
    (onAck onB bs x).flag SPN_STAT_lease_valid = decide (d.time.elapsed < t + 4000 * l) ∧
    (d.time.elapsed < t + 4000 * l → (onAck onB bs x).pairState = 5) := by
  have shown : (x.peerStateShown bs).pairState = d.pairState := (pairState_peerStateShown bs x).trans h.pairState
  have running : (x.peerStateShown bs).leRunning = true :=
    ((congrArg (· == 2) (Dev.get_set_ne x SPN_PEER_state LGE_STAT_state _ (by decide))).trans h.leRunning).trans hr
  have grants : (x.peerStateShown bs).spn.grants = d.spn.grants := by
    show x.spn.grants = _
    rw [h.spn]
  have acked : (x.peerStateShown bs).spn.ackedAt = d.spn.ackedAt := by
    show x.spn.ackedAt = _
    rw [h.spn]
  have time : (x.peerStateShown bs).time = d.time := h.time
  have ends : t + usTicks l = t + 4000 * l := by rw [usTicks, Nat.mul_comm]
  rw [onAck_eq]
  dsimp only
  rw [if_neg (by rcases hs with hs | hs <;> simp [shown, hs]), ackRenewed_of_grant bs _ (grants ▸ hg) running (acked ▸ ha), ← ends, ← time]
  exact leaseEval_ends (d := { x.peerStateShown bs with spn := { (x.peerStateShown bs).spn with ackedAt := some t, leaseEnd := some (t + usTicks l) } })
    rfl (shown ▸ hs)

end

/-! ## Statement -/

theorem messagesMoveThePair : Rules.MessagesMoveThePair := by
  intro s rx onB bs hr st takes
  refine ⟨fun ha => ?_, fun ha => ?_, fun i hi => ?_, fun ha => ?_⟩
  · obtain ⟨x, hx, he⟩ := spnReceive_arrives ha onJoin
    exact ⟨_, settles_of rfl hr he, hx.onJoin_wins, hx.onJoin_stays⟩
  · obtain ⟨x, hx, he⟩ := spnReceive_arrives ha onGrant
    have state : x.pairState = st := hx.pairState
    refine ⟨_, settles_of rfl hr he, fun h2 => onGrant_moves_joining (state.trans h2), fun h3 => ?_, hx.onGrant_standby, fun h5 => ?_, fun hn => ?_⟩
    · rw [onGrant_moves_syncing (state.trans h3), hx.retainIdNow]
    · rw [onGrant_moves_holder (state.trans h5), hx.primary]
    · rw [onGrant_moves_other (by rwa [state]), state]
  · have released (ty : Nat) (ha : MessageArrives ty rx s.dev onB bs) (hi : exec i s = s.acts (spnReceive ty onRelease rx)) :
        ∃ d, exec i s = .next (s.settling d) ∧
          (st = 4 → takes d ∧ d.flag SPN_STAT_lease_valid = true ∧ d.spn.leaseEnd = some (s.dev.time.elapsed + 4000 * s.dev.leaseUs)) ∧
          (st ≠ 4 → d.pairState = st) := by
      obtain ⟨x, hx, he⟩ := spnReceive_arrives ha onRelease
      have state : x.pairState = st := hx.pairState
      refine ⟨_, settles_of hi hr he, fun h4 => ?_, fun hn => ?_⟩
      · rw [onRelease_eq, if_pos (state.trans h4)]
        exact hx.pairTake _
      · rw [onRelease_eq, if_neg (by rwa [state]), state]
    rcases hi with ⟨ha, rfl⟩ | ⟨ha, rfl⟩
    · exact released 4 ha rfl
    · exact released 6 ha rfl
  · obtain ⟨x, hx, he⟩ := spnReceive_arrives ha onAck
    have state : x.pairState = st := hx.pairState
    refine ⟨_, settles_of rfl hr he, peerState_onAck bs x onB, fun h5 h6 => ?_, fun t l hs hg hrun hack => hx.onAck_renews hs hg hrun hack⟩
    rw [pairState_onAck bs x onB (by rwa [state]) (by rwa [state]), state]

end Sys2Proof.Machine
end

section
/-! PROOF. What an ACKCMD and a PUBSYNC do on the unit that takes them (R230, R255, R302, O49). -/
namespace Sys2Proof.Machine

/-! ## Alarms leave the words of the pair -/

/-- The words of the pair. -/
abbrev pairWord (k : Nat) : Prop := keyBlock k = 0xD

theorem MessageOnly.pairWords {d e : Dev} (h : MessageOnly d e) : Dev.Kept pairWord d e := by
  refine h.words.mono fun k hk => ?_
  simp only [pairWord, outWord, keyBlock, masterSpan, GCTL_XDROP] at hk ⊢
  omega

theorem TrafficOnly.pairWords {d e : Dev} (h : TrafficOnly d e) : Dev.Kept pairWord d e := by
  refine ⟨fun k hk => ?_⟩
  unfold pairWord at hk
  refine h.word k (by omega) (by omega) (by omega) ?_
  rintro rfl
  exact absurd hk (by decide)

theorem pairWords_noticeSend (rs : List AlmRec) (d : Dev) : Dev.Kept pairWord d (noticeSend rs d) := by
  unfold noticeSend
  extract_lets p payload udp bs det d1 n det' d2
  have counted : Dev.Kept pairWord d d1 := (Dev.Kept.refl d).regs rfl
  have noted : Dev.Kept pairWord d d2 := .ite counted (counted.regs rfl)
  refine .ite (noted.trans ?_) (counted.inc (f := DET_NOTICE_NOT_SENT) (by decide))
  exact ((sendOnly_ethSend (.inl rfl) rfl d2).1.message (d.get_lt DET_NOTICE_CFG_port)).pairWords

theorem pairWords_almOut (rs : List AlmRec) (d : Dev) : Dev.Kept pairWord d (almOut rs d) := by
  unfold almOut
  extract_lets d1 ns
  have written : Dev.Kept pairWord d d1 := by
    refine Dev.Kept.forL (fun r e => .ite ?_ (.refl e)) rs d
    exact (trafficOnly_queueRecord (e.get_lt (DET_CLASS_CFG_queue r.cls)) _ e).pairWords
  exact .ite (written.trans (Dev.Kept.forL pairWords_noticeSend _ d1)) written

theorem pairWords_detPublish (d : Dev) : Dev.Kept pairWord d (detPublish d) := by
  unfold detPublish
  extract_lets es of d1 pin alm
  have summed : Dev.Kept pairWord d d1 := by
    refine forN_keeps (P := Dev.Kept pairWord d) (fun c hc e he => ?_) d (.refl d)
    have apart : ¬pairWord (DET_CLASS_STAT c).key := by
      simp only [pairWord, keyBlock, masterSpan, DET_CLASS_STAT]
      omega
    exact ((he.set (f := DET_CLASS_STAT_active c) apart _).set (f := DET_CLASS_STAT_latched c) apart _).set (f := DET_CLASS_STAT_unacked c) apart _
  exact (summed.set (f := DET_ALM_STAT_alm) (by decide) _).set (f := DET_ALM_STAT_token) (by decide) _

theorem pairWords_alarmsDone (acc : List AlmRec × Dev) : Dev.Kept pairWord acc.2 (alarmsDone acc) :=
  (pairWords_almOut acc.1 acc.2).trans (pairWords_detPublish _)

theorem pairWords_almForm (a : AlmData) (d : Dev) : Dev.Kept pairWord d (almForm a d).2 := (Dev.Kept.refl d).set (f := DET_SEQ) (by decide) _

/-- A record is formed, and the decision ends with it. -/
theorem pairWords_recorded (a : AlmData) (d : Dev) : Dev.Kept pairWord d (alarmsDone ([(almForm a d).1], (almForm a d).2)) :=
  (pairWords_almForm a d).trans (pairWords_alarmsDone ([(almForm a d).1], (almForm a d).2))

/-! ## A command of the alarms (R230) -/

theorem pairWords_putAst {p : Nat} (hp : p < 16384) (v : Nat) (d : Dev) : Dev.Kept pairWord d (d.putAst p v) := by
  have apart : ¬pairWord (DET_AST (p / 2)).key := by
    simp only [pairWord, keyBlock, masterSpan, DET_AST]
    omega
  exact .ite ((Dev.Kept.refl d).set (f := DET_AST_entry_even (p / 2)) apart v) ((Dev.Kept.refl d).set (f := DET_AST_entry_odd (p / 2)) apart v)

theorem pairWords_ackPoint (m p : Nat) (d : Dev) : Dev.Kept pairWord d (ackPoint m p d) :=
  (pairWords_putAst (Nat.mod_lt p (by decide)) _ d).trans (pairWords_recorded _ _)

theorem pairWords_ackTable (c : Nat) (d : Dev) : Dev.Kept pairWord d (ackWords c d.tableCells d) := by
  refine ⟨fun k hk => ?_⟩
  rw [word_ackWords, if_neg]
  rintro ⟨x, hx, he⟩
  have listed := (List.mem_filter.mp hx).2
  simp only [he, Bool.and_eq_true, decide_eq_true_eq] at listed
  simp only [pairWord, keyBlock, masterSpan] at hk
  omega

theorem pairWords_ackClass (m c : Nat) (d : Dev) : Dev.Kept pairWord d (ackClass m c d) :=
  .ite (.refl d) ((pairWords_ackTable c d).trans (pairWords_recorded _ _))

theorem pairWords_detCmd (m v : Nat) (d : Dev) : Dev.Kept pairWord d (detCmd m v d) := by
  unfold detCmd
  split
  · exact pairWords_ackPoint m _ d
  · exact pairWords_ackClass m _ d
  · exact .refl d

/-- The acknowledgement of a point clears what it has not acknowledged, and not what is active. -/
theorem detCmd_acknowledges {p : Nat} (hp : p < 16384) (m : Nat) (d : Dev) :
    bitAt ((detCmd m (1 + 16 * p) d).ast p) 2 = false ∧ bitAt ((detCmd m (1 + 16 * p) d).ast p) 0 = bitAt (d.ast p) 0 := by
  obtain ⟨a, he⟩ := detCmd_ackPoint m ⟨p, hp⟩ d
  dsimp only at he
  have done : (detCmd m (1 + 16 * p) d).ast p = ackEntry (d.ast p) := by
    rw [he, (alarmsKept_alarmsDone _).words.ast hp, ast_almForm, ast_putAst_same, Nat.mod_eq_of_lt (ackEntry_lt (ast_lt ..))]
  rw [done, bitAt_ackEntry, bitAt_ackEntry]
  simp

theorem onAckcmd_eq (onB : Bool) (bs : List Byte) (d : Dev) :
    onAckcmd onB bs d = if d.pairState = 3 || d.pairState = 4 then detCmd (byteAt bs 20) (leAt bs 16 4) d else d := rfl

theorem pairWords_onAckcmd (onB : Bool) (bs : List Byte) (d : Dev) : Dev.Kept pairWord d (onAckcmd onB bs d) :=
  .ite (pairWords_detCmd _ _ d) (.refl d)

/-! ## The counters of the publications (R255) -/

/-- A publication takes its counters from a PUBSYNC. -/
def pubTaken (bs : List Byte) (p : Nat) (d : Dev) : Dev :=
  (d.set (LGE_GPUB_STNUM p) (leAt bs (16 + 8 * p) 4)).set (LGE_GPUB_SQNUM p) (leAt bs (20 + 8 * p) 4)

theorem onPubsync_eq (onB : Bool) (bs : List Byte) (d : Dev) :
    onPubsync onB bs d = if d.pairState = 3 || d.pairState = 4 then forN 32 (pubTaken bs) d else d := rfl

section
variable (bs : List Byte) (p : Nat) (d : Dev)

theorem counters_pubTaken : (pubTaken bs p d).get (LGE_GPUB_STNUM p) = leAt bs (16 + 8 * p) 4 ∧
    (pubTaken bs p d).get (LGE_GPUB_SQNUM p) = leAt bs (20 + 8 * p) 4 := by
  constructor
  · refine (Dev.get_set_ne _ (LGE_GPUB_SQNUM p) _ _ (by simp only [LGE_GPUB_STNUM, LGE_GPUB_SQNUM]; omega)).trans ?_
    exact Dev.get_set_fits d (LGE_GPUB_STNUM p) rfl (leAt_lt bs _ 4)
  · exact Dev.get_set_fits _ (LGE_GPUB_SQNUM p) rfl (leAt_lt bs _ 4)

theorem counters_pubTaken_ne {q : Nat} (h : q ≠ p) : (pubTaken bs p d).get (LGE_GPUB_STNUM q) = d.get (LGE_GPUB_STNUM q) ∧
    (pubTaken bs p d).get (LGE_GPUB_SQNUM q) = d.get (LGE_GPUB_SQNUM q) := by
  constructor <;>
  · refine (Dev.get_set_ne _ (LGE_GPUB_SQNUM p) _ _ ?_).trans (Dev.get_set_ne d (LGE_GPUB_STNUM p) _ _ ?_)
    all_goals
      simp only [LGE_GPUB_STNUM, LGE_GPUB_SQNUM]
      omega

end

/-- Every publication has its counters from the PUBSYNC. -/
theorem counters_pubsTaken (bs : List Byte) (d : Dev) : ∀ p < 32,
    (forN 32 (pubTaken bs) d).get (LGE_GPUB_STNUM p) = leAt bs (16 + 8 * p) 4 ∧
    (forN 32 (pubTaken bs) d).get (LGE_GPUB_SQNUM p) = leAt bs (20 + 8 * p) 4 := by
  refine forN_ind (P := fun n e => ∀ p < n, e.get (LGE_GPUB_STNUM p) = leAt bs (16 + 8 * p) 4 ∧ e.get (LGE_GPUB_SQNUM p) = leAt bs (20 + 8 * p) 4)
    (fun p hp => absurd hp (Nat.not_lt_zero p)) (fun i _ e ih p hp => ?_)
  by_cases h : p = i
  · exact h ▸ counters_pubTaken bs i e
  · obtain ⟨st, sq⟩ := counters_pubTaken_ne bs i e h
    rw [st, sq]
    exact ih p (by omega)

theorem pairWords_onPubsync (onB : Bool) (bs : List Byte) (d : Dev) : Dev.Kept pairWord d (onPubsync onB bs d) := by
  refine .ite (forN_keeps (P := Dev.Kept pairWord d) (fun p hp e he => ?_) d (.refl d)) (.refl d)
  exact (he.set (f := LGE_GPUB_STNUM p) (by simp only [pairWord, keyBlock, masterSpan, LGE_GPUB_STNUM]; omega) _).set (f := LGE_GPUB_SQNUM p)
    (by simp only [pairWord, keyBlock, masterSpan, LGE_GPUB_SQNUM]; omega) _

end Sys2Proof.Machine
end

section
/-! PROOF. Messages of the pair are taken (R288, R291, R301, R302, O49). -/
namespace Sys2Proof.Machine

/-! ## What the messages leave of the arrival -/

theorem onAck_moves (onB : Bool) (bs : List Byte) (d : Dev) : PairKept moveFields d (onAck onB bs d) := by
  have shown : PairKept moveFields d (d.peerStateShown bs) :=
    ((PairKept.refl d).set (g := SPN_PEER_state) (by simp [moveFields]) rfl (byteAt bs 16)).regs rfl
  exact shown.trans (onAck_kept bs d onB).moves

theorem onRequest_kept (onB : Bool) (bs : List Byte) (d : Dev) : PairKept moveFields d (onRequest onB bs d) :=
  .ite ((PairKept.refl d).regs rfl) (.refl d)

theorem onSnapReq_kept (onB : Bool) (bs : List Byte) (d : Dev) : PairKept moveFields d (onSnapReq onB bs d) :=
  .ite ((PairKept.refl d).regs rfl) (.refl d)

/-! ## MIRROR (R301) -/

section
variable (bs : List Byte) (d : Dev)

/-- The blocks of a MIRROR. -/
def mirrorBlocks : List (Nat × List Byte) :=
  (List.range (leAt (spnBody bs) 10 2)).map (fun i => (leAt (spnBody bs) 8 2 + i, slice (spnBody bs) (12 + 64 * i) 64))

/-- The set that a MIRROR begins. -/
def Dev.mirrorBegun : MirrorSet where
  cycle := leAt (spnBody bs) 0 4
  retain := leAt (spnBody bs) 4 4
  blocks := mirrorBlocks bs
  seq := leAt bs 8 4
  whole := (lookup ((leAt bs 8 4 + 2 ^ 32 - 1) % 2 ^ 32) d.spn.seen).isSome

/-- The set that a MIRROR belongs to, its blocks included. -/
def Dev.mirrorJoined : MirrorSet :=
  match d.spn.opened with
  | some o => if o.cycle = leAt (spnBody bs) 0 4 && o.retain = leAt (spnBody bs) 4 4 then
      { o with blocks := o.blocks ++ mirrorBlocks bs, seq := leAt bs 8 4, whole := o.whole && d.spnGapless o.seq (leAt bs 8 4) } else d.mirrorBegun bs
  | none => d.mirrorBegun bs

/-- A set goes on, or is complete with the last of its messages. -/
def mirrorFiled (m : MirrorSet) : Dev :=
  if bitAt (byteAt bs 1) 3 then { d with spn := { d.spn with opened := none, sets := if m.whole then d.spn.sets ++ [m] else d.spn.sets } }
  else { d with spn := { d.spn with opened := some m } }

theorem onMirror_eq (onB : Bool) :
    onMirror onB bs d = if d.pairState != 3 && d.pairState != 4 then d else mirrorFiled bs d (d.mirrorJoined bs) := rfl

theorem onMirror_kept (onB : Bool) : PairKept moveFields d (onMirror onB bs d) := by
  rw [onMirror_eq]
  exact .ite (.refl d) (.ite ((PairKept.refl d).regs rfl) ((PairKept.refl d).regs rfl))

variable {bs d}

theorem onMirror_takes {onB : Bool} (h : d.pairState = 3 ∨ d.pairState = 4) : onMirror onB bs d = mirrorFiled bs d (d.mirrorJoined bs) := by
  rw [onMirror_eq, if_neg]
  rcases h with h | h <;> simp [h]

theorem mirrorJoined_begins (h : ∀ o, d.spn.opened = some o → o.cycle ≠ leAt (spnBody bs) 0 4 ∨ o.retain ≠ leAt (spnBody bs) 4 4) :
    d.mirrorJoined bs = d.mirrorBegun bs := by
  unfold Dev.mirrorJoined
  split
  · next o ho =>
    have other := h o ho
    rw [if_neg]
    simpa [← not_and_or] using other
  · rfl

/-- The message that follows a set's last one loses none. -/
theorem mirrorJoined_continues {o : MirrorSet} (ho : d.spn.opened = some o) (hc : o.cycle = leAt (spnBody bs) 0 4)
    (hr : o.retain = leAt (spnBody bs) 4 4) (hq : (leAt bs 8 4 + 2 ^ 32 - o.seq) % 2 ^ 32 = 1) :
    d.mirrorJoined bs = { o with blocks := o.blocks ++ mirrorBlocks bs, seq := leAt bs 8 4 } := by
  have gapless : d.spnGapless o.seq (leAt bs 8 4) = true := by
    unfold Dev.spnGapless
    rw [hq]
    rfl
  unfold Dev.mirrorJoined
  rw [ho]
  dsimp only
  rw [if_pos (by simp [hc, hr]), gapless, Bool.and_true]

theorem spn_mirrorFiled (m : MirrorSet) :
    if bitAt (byteAt bs 1) 3 then
      (mirrorFiled bs d m).spn.opened = none ∧ (mirrorFiled bs d m).spn.sets = (if m.whole then d.spn.sets ++ [m] else d.spn.sets)
    else (mirrorFiled bs d m).spn.opened = some m ∧ (mirrorFiled bs d m).spn.sets = d.spn.sets := by
  unfold mirrorFiled
  split <;> exact ⟨rfl, rfl⟩

end

/-! ## Each message has its effect -/

/-- A message marks its path and its sender, and where none arrives nothing happens. -/
theorem message_taken {ty : Nat} {act : Bool → List Byte → Dev → Dev} {i : Instr} {s : State} {rx : SpineRx} {onB : Bool} {bs : List Byte}
    (hi : exec i s = s.acts (spnReceive ty act rx)) (hk : ∀ onB bs d, PairKept moveFields d (act onB bs d)) (hr : s.Running) :
    (spnTake (fun _ b => byteAt b 0 == ty) rx s.dev = none → exec i s = .next (s.settling s.dev)) ∧
    (MessageArrives ty rx s.dev onB bs → ∃ d, exec i s = .next (s.settling d) ∧ d.flag (pathFld onB) = true ∧ d.get SPN_PEER_unit_id = leAt bs 6 2) := by
  refine ⟨fun hn => settles_of hi hr (spnReceive_none hn act), fun ha => ?_⟩
  obtain ⟨x, hx, he⟩ := spnReceive_arrives ha act
  exact ⟨_, settles_of hi hr he, hx.after (hk onB bs x)⟩

section
variable {onB : Bool} {bs : List Byte} {seen : List (Nat × Bool)} {d x : Dev} (h : Heard onB bs seen d x)
include h

theorem Heard.ast (p : Nat) (hp : p < 16384) : x.ast p = d.ast p := by
  refine Dev.Kept.ast ⟨fun k hk => h.word k ?_ ?_ ?_⟩ hp <;>
  · simp only [alarmWord, keyBlock, masterSpan, DET_SEQ, GCTL_XDROP] at hk ⊢
    omega

theorem Heard.onRequest : (onRequest onB bs x).spn.handover = (d.spn.handover || (d.pairState == 5 && !d.primary)) := by
  have before : x.spn.handover = d.spn.handover := by rw [h.spn]
  unfold Machine.onRequest
  rw [← before, ← h.pairState, ← h.primary]
  split
  · next hc => rw [show (x.pairState == 5 && !x.primary) = true from by simpa using hc, Bool.or_true]
  · next hc => rw [show (x.pairState == 5 && !x.primary) = false from by simpa using hc, Bool.or_false]

theorem Heard.onSnapReq : (onSnapReq onB bs x).spn.snapReq = (d.spn.snapReq || d.pairState == 5 || d.pairState == 6) := by
  have before : x.spn.snapReq = d.spn.snapReq := by rw [h.spn]
  unfold Machine.onSnapReq
  rw [← before, ← h.pairState, Bool.or_assoc]
  split
  · next hc => rw [show (x.pairState == 5 || x.pairState == 6) = true from by simpa using hc, Bool.or_true]
  · next hc => rw [show (x.pairState == 5 || x.pairState == 6) = false from by simpa using hc, Bool.or_false]

end

/-! ## Statement -/

theorem messagesAreTaken : Rules.MessagesAreTaken := by
  intro s rx onB bs hr st
  refine ⟨fun ty i hi => ?_, fun ha => ?_, fun ha => ?_, fun ha => ?_, fun ha => ?_, fun ha => ?_⟩
  · simp only [List.mem_cons, Prod.mk.injEq, List.not_mem_nil, or_false] at hi
    rcases hi with ⟨rfl, rfl⟩ | ⟨rfl, rfl⟩ | ⟨rfl, rfl⟩ | ⟨rfl, rfl⟩ | ⟨rfl, rfl⟩ | ⟨rfl, rfl⟩ | ⟨rfl, rfl⟩ | ⟨rfl, rfl⟩ | ⟨rfl, rfl⟩ | ⟨rfl, rfl⟩
    · exact message_taken rfl onJoin_kept hr
    · exact message_taken rfl (fun onB bs d => (onGrant_kept onB bs d).moves) hr
    · exact message_taken rfl onAck_moves hr
    · exact message_taken rfl (fun onB bs d => (onRelease_kept onB bs d).moves) hr
    · exact message_taken rfl onRequest_kept hr
    · exact message_taken (act := onHandover) rfl (fun onB bs d => (onRelease_kept onB bs d).moves) hr
    · exact message_taken rfl (fun onB bs d => onMirror_kept bs d onB) hr
    · exact message_taken rfl onSnapReq_kept hr
    · exact message_taken rfl (fun onB bs d => .ofWords (pairWords_onAckcmd onB bs d)) hr
    · exact message_taken rfl (fun onB bs d => .ofWords (pairWords_onPubsync onB bs d)) hr
  · obtain ⟨x, hx, he⟩ := spnReceive_arrives ha onRequest
    exact ⟨_, settles_of rfl hr he, hx.onRequest⟩
  · obtain ⟨x, hx, he⟩ := spnReceive_arrives ha onSnapReq
    exact ⟨_, settles_of rfl hr he, hx.onSnapReq⟩
  · obtain ⟨x, hx, he⟩ := spnReceive_arrives ha onMirror
    have state : x.pairState = st := hx.pairState
    have opened : x.spn.opened = s.dev.spn.opened := by rw [hx.spn]
    have sets : x.spn.sets = s.dev.spn.sets := by rw [hx.spn]
    have seen : x.spn.seen = ((leAt bs 8 4, onB) :: s.dev.spn.seen).take seenKept := by rw [hx.spn]
    refine ⟨_, settles_of rfl hr he, fun h3 h4 => ?_, fun hst hn => ?_, fun hst o ho hc hret hq => ?_⟩
    · rw [onMirror_eq, if_pos (by simp [state, h3, h4])]
      exact ⟨sets, opened⟩
    · rw [onMirror_takes (by rwa [state]), mirrorJoined_begins (by rwa [opened]), ← sets, ← seen]
      exact spn_mirrorFiled (x.mirrorBegun bs)
    · rw [onMirror_takes (by rwa [state]), mirrorJoined_continues (opened.trans ho) hc hret hq, ← sets]
      exact spn_mirrorFiled { o with blocks := o.blocks ++ mirrorBlocks bs, seq := leAt bs 8 4 }
  · obtain ⟨x, hx, he⟩ := spnReceive_arrives ha onAckcmd
    refine ⟨_, settles_of rfl hr he, fun p hp hst hv => ?_⟩
    rw [onAckcmd_eq, if_pos (by simpa [hx.pairState] using hst), hv, ← hx.ast p hp]
    exact detCmd_acknowledges hp _ x
  · obtain ⟨x, hx, he⟩ := spnReceive_arrives ha onPubsync
    refine ⟨_, settles_of rfl hr he, fun p hp hst => ?_⟩
    rw [onPubsync_eq, if_pos (by simpa [hx.pairState] using hst)]
    exact counters_pubsTaken bs x p hp

end Sys2Proof.Machine
end

section
/-! PROOF. Messages of the pair that are discarded, and messages that are sent (R287, R288, R292, R444, O49). -/
namespace Sys2Proof.Machine

/-! ## Discards (R288) -/

section
variable {bs : List Byte} {d : Dev}

theorem spnAccept_discards {onB : Bool} (h : spnCrcOk bs = false ∨ d.spnForeign bs = true) (act : Dev → Dev) :
    spnAccept onB bs act d = spnDiscard bs d := by
  refine if_pos ?_
  rcases h with h | h <;> simp [h]

/-- A later copy is noted, and does not act. -/
theorem spnAccept_copies {onB : Bool} (hc : spnCrcOk bs = true) (hf : d.spnForeign bs = false) (hy : d.spnCopy bs = true) (act : Dev → Dev) :
    spnAccept onB bs act d = spnNote onB bs d := by
  unfold spnAccept
  rw [hc, hf, hy]
  rfl

theorem spnDiscard_crc (h : spnCrcOk bs = false) : spnDiscard bs d = d.inc SPN_CRC_ERR := if_pos (by simp [h])

theorem joinConflict_keeps (bs : List Byte) (d : Dev) : PairKept [SPN_STAT_role_conflict] d (joinConflict bs d) ∧ (joinConflict bs d).spn = d.spn := by
  unfold joinConflict
  split
  · have event := eventOnly_raise (s := 113) (d.setFlag SPN_STAT_role_conflict true) (by decide)
    exact ⟨((PairKept.refl d).set (List.mem_singleton_self _) rfl (b2n true)).trans event.pairKept, event.spn⟩
  · exact ⟨.refl d, rfl⟩

/-- A message of another pair, from this unit itself or of no type is counted. -/
theorem spnDiscard_foreign (h : spnCrcOk bs = true) :
    (spnDiscard bs d).get SPN_FOREIGN = min (d.get SPN_FOREIGN + 1) 4294967295 ∧ (spnDiscard bs d).spn = d.spn := by
  have kept : PairKept [SPN_STAT_role_conflict] (d.inc SPN_FOREIGN) (spnDiscard bs d) ∧ (spnDiscard bs d).spn = d.spn := by
    unfold spnDiscard
    rw [if_neg (by simp [h])]
    dsimp only
    split
    · have event := eventOnly_raise (s := 113) (d.inc SPN_FOREIGN) (by decide)
      exact ⟨event.pairKept, event.spn⟩
    · exact joinConflict_keeps bs _
  refine ⟨?_, kept.2⟩
  rw [kept.1.get SPN_FOREIGN rfl (by decide)]
  exact Dev.get_inc_same d SPN_FOREIGN rfl

end

theorem spnMessageDiscard_none {rx : SpineRx} {d : Dev} (h : spnTake d.spnDiscarded rx d = none) : spnMessageDiscard rx d = d := by
  unfold spnMessageDiscard
  rw [h]

theorem spnMessageDiscard_some {rx : SpineRx} {onB : Bool} {bs : List Byte} {d y : Dev} (h : spnTake d.spnDiscarded rx d = some (onB, bs, y)) :
    spnMessageDiscard rx d = spnAccept onB bs id y := by
  unfold spnMessageDiscard
  rw [h]

/-- A later copy is discarded without a count. -/
theorem copy_keeps (onB : Bool) (bs : List Byte) (d : Dev) :
    (spnNote onB bs d).get SPN_FOREIGN = d.get SPN_FOREIGN ∧ (spnNote onB bs d).get SPN_CRC_ERR = d.get SPN_CRC_ERR ∧
    (spnNote onB bs d).pairState = d.pairState ∧ (spnNote onB bs d).spn.seen = d.spn.seen := by
  have heard := heard_spnNote onB bs d
  exact ⟨heard.get rfl rfl, heard.get rfl rfl, heard.pairState, by rw [heard.spn]⟩

/-- What is counted of a message that is discarded, and what is not. -/
theorem spnMessageDiscard_counts {rx : SpineRx} {onB : Bool} {bs : List Byte} {d y : Dev} (ht : spnTake d.spnDiscarded rx d = some (onB, bs, y)) :
    let e := spnMessageDiscard rx d
    if spnCrcOk bs = false then e.get SPN_CRC_ERR = min (d.get SPN_CRC_ERR + 1) 4294967295 ∧ e.spn = d.spn ∧ e.eth = y.eth
    else if d.spnForeign bs = true then e.get SPN_FOREIGN = min (d.get SPN_FOREIGN + 1) 4294967295 ∧ e.spn = d.spn
    else e.get SPN_FOREIGN = d.get SPN_FOREIGN ∧ e.get SPN_CRC_ERR = d.get SPN_CRC_ERR ∧ e.pairState = d.pairState ∧ e.spn.seen = d.spn.seen := by
  obtain ⟨want, rest⟩ := spnTake_some ht
  have same (f : Fld) : y.get f = d.get f := by rw [rest]; rfl
  have spn : y.spn = d.spn := by rw [rest]
  have foreign : y.spnForeign bs = d.spnForeign bs := by rw [rest]; rfl
  have copy : y.spnCopy bs = d.spnCopy bs := by rw [rest]; rfl
  rw [spnMessageDiscard_some ht]
  cases hc : spnCrcOk bs with
  | false =>
    rw [if_pos rfl, spnAccept_discards (.inl hc), spnDiscard_crc hc, ← same]
    exact ⟨Dev.get_inc_same y SPN_CRC_ERR rfl, spn, rfl⟩
  | true =>
    rw [if_neg (by decide)]
    cases hf : d.spnForeign bs with
    | true =>
      obtain ⟨count, kept⟩ := spnDiscard_foreign (d := y) hc
      rw [if_pos rfl, spnAccept_discards (.inr (foreign.trans hf)), ← same]
      exact ⟨count, kept.trans spn⟩
    | false =>
      have copied : y.spnCopy bs = true := copy.trans (by simpa [Dev.spnDiscarded, hc, hf] using want)
      obtain ⟨foreignCount, crcCount, state, seen⟩ := copy_keeps onB bs y
      rw [if_neg (by decide), spnAccept_copies hc (foreign.trans hf) copied, ← spn]
      exact ⟨foreignCount.trans (same _), crcCount.trans (same _), state.trans (same _), seen⟩

/-! ## The line (R287, R444) -/

/-- The device whose message in transmission has left. -/
def Dev.lineFreed (d : Dev) : Dev := { d with spn := { d.spn with line := none } }

theorem messageOnly_lineFreed (d : Dev) : MessageOnly d d.lineFreed := ⟨⟨fun _ _ => rfl⟩, rfl⟩

theorem spnTxDone_eq (d : Dev) : spnTxDone d = spnNext d.lineFreed := rfl

theorem pairState_spnTxDone (d : Dev) : (spnTxDone d).pairState = d.pairState :=
  ((messageOnly_lineFreed d).trans (messageOnly_spnNext _)).pairState

theorem laneSends_eq_false {d : Dev} (h : d.xingDead 8 = true ∨ d.phyHeld 8 = true) : d.laneSends = false := by
  unfold Dev.laneSends
  rcases h with h | h <;> simp [h]

theorem laneSends_eq_true {d : Dev} (hx : d.xingDead 8 = false) (hp : d.phyHeld 8 = false) : d.laneSends = true := by
  unfold Dev.laneSends
  rw [hx, hp]
  rfl

/-- On a lane that sends, the message that takes the line is the one picked. -/
theorem spn_spnTxDone {d : Dev} (hs : d.laneSends = true) {k : Nat} (hk : spnPick d.spn.queue = some k) :
    ∃ m, d.spn.queue[k]? = some m ∧ (spnTxDone d).spn = (d.lineFreed.dequeued k).spnStarted m := by
  have found := List.getElem?_eq_getElem (spnPick_lt hk)
  refine ⟨_, found, ?_⟩
  rw [spnTxDone_eq, spnNext_starts (d := d.lineFreed) rfl hs hk found, spn_spnStart]

/-! ## GRANT, JOIN and PUBSYNC (R292, R296, R302) -/

/-- A message is sent, and the unit notes when. -/
structure NotedSent (ty : Nat) (d e : Dev) : Prop where
  last : e.spn.sendLast = some d.time.elapsed
  state : e.pairState = d.pairState
  sent : Sent ty d e

/-- The unit notes that it sends, and keeps these GRANTs. -/
def Dev.sendNoted (grants : List (Nat × Nat × Nat)) (d : Dev) : Dev :=
  { d with spn := { d.spn with sendLast := some d.time.elapsed, grants := grants } }

theorem notedSent_spnSend {ty : Nat} (h : ty ≠ 4) (grants : List (Nat × Nat × Nat)) (last : Bool) (ref : Nat) (body : List Byte) (d : Dev) :
    NotedSent ty d (spnSend ty last ref body (d.sendNoted grants)) := by
  have kept := messageOnly_spnSend ty last ref body (d.sendNoted grants) h
  have sent := sent_spnSend ty last ref body (d.sendNoted grants) h
  refine ⟨?_, kept.pairState, ⟨sent.free, sent.busy⟩⟩
  rw [kept.spn]
  rfl

/-- A GRANT is sent; of those sent before, the ones are kept whose lease runs on. -/
def grantSent (d : Dev) : Dev :=
  spnSend 2 false 0 (toLe 2 d.leaseUs ++ toLe 2 0 ++ toLe 4 d.retainIdNow)
    (d.sendNoted (d.spn.grants.filter (fun g => d.time.elapsed < g.2.1 + usTicks g.2.2)))

/-- A JOIN is sent. -/
def joinSent (d : Dev) : Dev := spnSend 1 false 0 (toLe 4 d.retainIdNow ++ toLe 4 d.activeProg.progId) (d.sendNoted d.spn.grants)

/-- The next GRANT or JOIN is due. -/
def Dev.sendDue (d : Dev) : Nat := (d.spn.sendLast.map (fun t => t + usTicks (d.leaseUs / 6))).getD 0

theorem grantSend_eq (d : Dev) : grantSend d = if d.pairState = 5 || d.pairState = 6 then atElapsed d.sendDue grantSent d else d := rfl

theorem joinSend_eq (d : Dev) : joinSend d = if d.pairState = 2 then atElapsed d.sendDue joinSent d else d := rfl

/-- The lease of a GRANT stands at its start. -/
theorem leAt_lease (d : Dev) (rest : List Byte) : leAt (toLe 2 d.leaseUs ++ rest) 0 2 = d.leaseUs := by
  have first : ((toLe 2 d.leaseUs ++ rest).drop 0).take 2 = toLe 2 d.leaseUs := rfl
  have fits : d.leaseUs < 256 ^ 2 := Nat.lt_of_lt_of_le (d.get_lt SPN_LEASE_lease_us) (by decide)
  unfold leAt
  rw [first, ofLe_toLe, Nat.mod_eq_of_lt fits]

theorem grants_grantSent {d : Dev} (hl : d.spn.line = none) (hq : d.spn.queue = []) :
    (d.spn.seq, (d.time.elapsed, d.leaseUs)) ∈ (grantSent d).spn.grants := by
  have kept := grants_spnSend false 0 (toLe 2 d.leaseUs ++ toLe 2 0 ++ toLe 4 d.retainIdNow)
    (d.sendNoted (d.spn.grants.filter (fun g => d.time.elapsed < g.2.1 + usTicks g.2.2))) hl hq
  rwa [List.append_assoc, leAt_lease] at kept

/-- The counters of the publications are sent. -/
def pubsyncSent (d : Dev) : Dev :=
  spnSend 10 false 0 ((List.range 32).map (fun b => toLe 4 (d.get (LGE_GPUB_STNUM b)) ++ toLe 4 (d.get (LGE_GPUB_SQNUM b)))).flatten d

theorem pubsyncSend_eq (d : Dev) : pubsyncSend d = if d.pairState != 5 then d else atTime ((d.sec + 1) * 1000000000) pubsyncSent d := rfl

/-- What was sent after time had passed. -/
theorem Sent.passed {ty : Nat} {d x e : Dev} (h : Sent ty x e) (hx : x.spn = d.spn) : Sent ty d e := ⟨hx ▸ h.free, hx ▸ h.busy⟩

theorem spn_passElapsed (t : Nat) (d : Dev) : (passElapsed t d).spn = d.spn := by rw [passElapsed_rest]

theorem spn_passTo (t : Nat) (d : Dev) : (passTo t d).spn = d.spn := by rw [passTo_rest]

/-- A GRANT or JOIN is sent once it is due, and not before. -/
theorem send_settles {ty : Nat} {f g : Dev → Dev} {i : Instr} {s : State} (hr : s.Running) (hi : exec i s = s.acts g)
    (hg : g s.dev = atElapsed s.dev.sendDue f s.dev) (hf : ∀ d, NotedSent ty d (f d)) :
    let x := passElapsed s.dev.sendDue s.dev
    (¬s.dev.ReachesElapsed s.dev.sendDue → exec i s = .next (s.settling x)) ∧
    (s.dev.ReachesElapsed s.dev.sendDue → exec i s = .next (s.settling (f x)) ∧ (f x).spn.sendLast = some x.time.elapsed ∧
      (f x).pairState = s.dev.pairState ∧ Sent ty s.dev (f x)) := by
  intro x
  refine ⟨fun early => settles_of hi hr (hg.trans (atElapsed_early (Nat.lt_of_not_le early))), fun reached => ?_⟩
  refine ⟨settles_of hi hr (hg.trans (atElapsed_reached reached)), (hf x).last, ?_, (hf x).sent.passed (spn_passElapsed _ _)⟩
  exact (hf x).state.trans (get_passElapsed _ _ _)

/-! ## Statement -/

theorem messagesAreDiscardedAndSent : Rules.MessagesAreDiscardedAndSent := by
  intro s hr
  refine ⟨fun rx hn => ?_, fun rx onB bs y ht => ?_, fun hd => ?_, fun hx hp => ?_, ?_⟩
  · exact settles_of rfl hr (spnMessageDiscard_none hn)
  · exact ⟨_, settles_of rfl hr rfl, spnMessageDiscard_counts ht⟩
  · refine ⟨_, settles_of rfl hr rfl, ?_, pairState_spnTxDone s.dev⟩
    exact spnNext_silent (d := s.dev.lineFreed) (laneSends_eq_false hd) rfl
  · refine ⟨_, settles_of rfl hr rfl, ?_⟩
    have sends : s.dev.laneSends = true := laneSends_eq_true hx hp
    cases hk : spnPick s.dev.spn.queue with
    | none =>
      rw [spnTxDone_eq, spnNext_idle (d := s.dev.lineFreed) hk]
      rfl
    | some k =>
      obtain ⟨m, hm, spn⟩ := spn_spnTxDone sends hk
      have lane : (s.dev.lineFreed.dequeued k).laneSends = true := sends
      rw [spn]
      unfold Dev.spnStarted
      rw [if_pos lane]
      refine ⟨m, hm, rfl, rfl, rfl, fun h2 => ?_⟩
      rw [if_pos h2]
      exact List.mem_append_right _ (List.mem_singleton_self _)
  · intro sent
    refine ⟨?_, fun h5 h6 => ?_, fun h2 => ?_, fun h5 => ?_, fun h5 => ?_⟩
    · intro due x i hi
      rcases hi with ⟨rfl, hs⟩ | ⟨rfl, hs⟩
      · have granting : grantSend s.dev = atElapsed due grantSent s.dev := by
          rw [grantSend_eq, if_pos (by simpa using hs)]
          rfl
        obtain ⟨early, reached⟩ := send_settles (i := .spnGrantSend) hr rfl granting (fun d => notedSent_spnSend (by decide) _ _ _ _ d)
        refine ⟨early, fun h => ?_⟩
        obtain ⟨settles, last, state, noted⟩ := reached h
        refine ⟨_, settles, last, state, ⟨noted.free, noted.busy⟩, fun _ hl hq => ?_⟩
        have spn : x.spn = s.dev.spn := spn_passElapsed due s.dev
        have lease : x.leaseUs = s.dev.leaseUs := get_passElapsed due s.dev _
        rw [← spn, ← lease]
        exact grants_grantSent (spn ▸ hl) (spn ▸ hq)
      · have joining : joinSend s.dev = atElapsed due joinSent s.dev := by
          rw [joinSend_eq, if_pos hs]
          rfl
        obtain ⟨early, reached⟩ := send_settles (i := .spnJoinSend) hr rfl joining (fun d => notedSent_spnSend (by decide) _ _ _ _ d)
        refine ⟨early, fun h => ?_⟩
        obtain ⟨settles, last, state, noted⟩ := reached h
        exact ⟨_, settles, last, state, ⟨noted.free, noted.busy⟩, fun h => nomatch h⟩
    · exact settles_of rfl hr ((grantSend_eq _).trans (if_neg (by simp [h5, h6])))
    · exact settles_of rfl hr ((joinSend_eq _).trans (if_neg h2))
    · exact settles_of rfl hr ((pubsyncSend_eq _).trans (if_pos (by simp [h5])))
    · intro due x
      have syncing : pubsyncSend s.dev = atTime due pubsyncSent s.dev := (pubsyncSend_eq _).trans (if_neg (by simp [h5]))
      refine ⟨fun early => settles_of rfl hr (syncing.trans (atTime_early early)), fun reached => ?_⟩
      have sends : Sent 10 s.dev (pubsyncSent x) := (sent_spnSend 10 false 0 _ x (by decide)).passed (spn_passTo due s.dev)
      refine ⟨_, settles_of rfl hr (syncing.trans (atTime_reached reached)), ⟨sends.free, sends.busy⟩, ?_⟩
      exact ((messageOnly_spnSend 10 false 0 _ x (by decide)).pairState.trans (get_passTo due s.dev _)).trans h5

/-- Settles O49, by what each message does on a device that heard it, and by one account of the line for every message that is sent. -/
theorem pairExchangesMessages : Obligations.PairExchangesMessages :=
  ⟨messagesMoveThePair, messagesAreTaken, messagesAreDiscardedAndSent⟩

end Sys2Proof.Machine
end

section
/-! PROOF. A re-binding that waits for the end of a logic cycle takes the token before the self-diagnosis does (O50). -/
namespace Sys2Proof.Machine

/-- A JOINING unit whose re-binding waits to release the token, while no logic cycle runs. -/
def rebindWaits : State := { State.reset with dev := { State.reset.dev.set SPN_STAT_state 2 with bnd := { releasing := true } } }

/-- At the end of ECC_CRIT the re-binding goes on first, and returns the pair to START (R49, R295), where a standing cause releases nothing. -/
theorem pairState_eccCrit_rebindWaits : (rebindWaits.settling (eccCrit rebindWaits.dev)).dev.pairState = 0 := by decide +kernel

/-- Refutes O50: an uncorrectable error of the pair's tables does not leave a paired unit RELEASED where the release of a re-binding is due at the
same time. -/
theorem not_pairKeepsItsTime : ¬ Obligations.PairKeepsItsTime := by
  rintro ⟨-, -, starts⟩
  obtain ⟨-, -, -, -, -, -, -, -, t, he, -, -, released⟩ := starts rebindWaits rfl
  have ends : exec .eccCrit rebindWaits = .next (rebindWaits.settling (eccCrit rebindWaits.dev)) := settles_of rfl rfl rfl
  obtain rfl : rebindWaits.settling (eccCrit rebindWaits.dev) = t := by
    rw [ends] at he
    exact Host.Outcome.next.inj he
  have paired : rebindWaits.dev.paired = true := by decide +kernel
  obtain ⟨state, -⟩ := released paired
  exact absurd (pairState_eccCrit_rebindWaits.symm.trans state) (by decide)

end Sys2Proof.Machine
end

section
/-! PROOF. The segments and the status word of the recorder, and what arming and ending leave of them (R311, R313, O42, O43). -/
namespace Sys2Proof.Machine

/-! ## The words of the recorder -/

theorem seg_ne_status (k : Nat) : (ACQ_SEG_state k).key ≠ ACQ_STATUS.key := by
  simp only [ACQ_SEG_state, ACQ_STATUS]
  omega

theorem keyBlock_seg {k : Nat} (h : k < 64) : keyBlock (ACQ_SEG_state k).key = 9 := by
  simp only [ACQ_SEG_state, keyBlock, masterSpan]
  omega

theorem seg_ne_seg {j k : Nat} (h : j ≠ k) : (ACQ_SEG_state j).key ≠ (ACQ_SEG_state k).key := by
  simp only [ACQ_SEG_state]
  omega

theorem Dev.acqSeg_lt (d : Dev) : d.acqSeg < 64 := d.get_lt ACQ_STATUS_segment

/-- Records, memory writes and events leave the words of the recorder. -/
theorem TrafficOnly.get_acq {d e : Dev} (h : TrafficOnly d e) {f : Fld} (hf : keyBlock f.key = 9) : e.get f = d.get f :=
  h.get f (by omega) (by omega) (by omega) (fun hx => absurd (hx ▸ hf) (by decide))

theorem TrafficOnly.acqState {d e : Dev} (h : TrafficOnly d e) : e.acqState = d.acqState := h.get_acq rfl

theorem TrafficOnly.acqSeg {d e : Dev} (h : TrafficOnly d e) : e.acqSeg = d.acqSeg := h.get_acq rfl

theorem TrafficOnly.acq {d e : Dev} (h : TrafficOnly d e) : e.acq = d.acq := by rw [h.rest]

theorem TrafficOnly.time {d e : Dev} (h : TrafficOnly d e) : e.time = d.time := by rw [h.rest]

theorem TrafficOnly.now {d e : Dev} (h : TrafficOnly d e) : e.now = d.now := by
  unfold Dev.now
  rw [h.time]

/-- The lowest FREE segment is one of the layout, and FREE. -/
theorem segFree_some {d : Dev} {k : Nat} (h : d.segFree = some k) : k < d.get ACQ_SEGSZ_n_seg ∧ d.get (ACQ_SEG_state k) = 0 :=
  ⟨List.mem_range.mp (List.mem_of_find?_eq_some h), by simpa using List.find?_some h⟩

theorem segFree_none {d : Dev} (h : d.segFree = none) : ∀ k < d.get ACQ_SEGSZ_n_seg, d.get (ACQ_SEG_state k) ≠ 0 := fun k hk => by
  simpa using List.find?_eq_none.mp h k (List.mem_range.mpr hk)

/-! ## Nothing is armed (R313) -/

section
variable (st : Nat) (d : Dev)

theorem acqIdle_kept : Dev.Kept (· ≠ ACQ_STATUS.key) d (acqIdle st d) :=
  (((Dev.Kept.refl d).set (f := ACQ_STATUS_state) (not_not_intro rfl) st).set (f := ACQ_STATUS_pre_full) (not_not_intro rfl) 0).regs rfl

theorem get_acqIdle {f : Fld} (hs : ACQ_STATUS_state.apart f = true) (hp : ACQ_STATUS_pre_full.apart f = true) :
    (acqIdle st d).get f = d.get f := (Dev.get_set_apart _ ACQ_STATUS_pre_full f _ rfl hp).trans (Dev.get_set_apart d ACQ_STATUS_state f _ rfl hs)

theorem state_acqIdle (h : st < 8) : (acqIdle st d).acqState = st :=
  (Dev.get_set_apart _ ACQ_STATUS_pre_full ACQ_STATUS_state _ rfl rfl).trans (Dev.get_set_fits d ACQ_STATUS_state rfl h)

end

/-- With no enable waiting, OFF is reached with its event. -/
theorem acqOff_eq {d : Dev} (h : d.flag ACQ_STATUS_enable_pending = false) : acqOff d = raise 67 (acqIdle 0 d) := by
  have waits : (raise 67 (acqIdle 0 d)).flag ACQ_STATUS_enable_pending = false := by
    rw [Dev.flag_eq, get_raise _ _ (by decide) (by decide) (by decide), get_acqIdle 0 d rfl rfl]
    exact h
  exact if_neg (by simp [waits])

theorem acqOff_events {d : Dev} (h : d.flag ACQ_STATUS_enable_pending = false) : EventOnly (acqIdle 0 d) (acqOff d) :=
  acqOff_eq h ▸ eventOnly_raise _ (by decide)

theorem state_acqOff {d : Dev} (h : d.flag ACQ_STATUS_enable_pending = false) : (acqOff d).acqState = 0 :=
  (acqOff_events h).traffic.acqState.trans (state_acqIdle 0 d (by decide))

/-- A word of the recorder but its status stays when OFF is reached. -/
theorem get_acqOff {d : Dev} (h : d.flag ACQ_STATUS_enable_pending = false) {f : Fld} (hf : keyBlock f.key = 9) (hs : f.key ≠ ACQ_STATUS.key) :
    (acqOff d).get f = d.get f := ((acqOff_events h).traffic.get_acq hf).trans ((acqIdle_kept 0 d).get hs)

/-! ## The tracks of a configuration (R309, R326) -/

/-- The words that the recorder's own operations write: its status, its counters and its segments. -/
def recorderWord (k : Nat) : Prop := k = ACQ_STATUS.key ∨ (0x90018 ≤ k ∧ k < 0x90200)

/-- The tracks are those of the channels, the times and the sources as they are configured. -/
theorem acqTracks_congr {d e : Dev} (h : Dev.Kept (fun k => ¬recorderWord k) d e) (hs : e.str = d.str) (t : Nat) : e.acqTracks t = d.acqTracks t := by
  have times {f : Fld} (hf : f.key = 0x90004 ∨ f.key = 0x90008) : e.get f = d.get f := h.get (by
    simp only [recorderWord, ACQ_STATUS]
    omega)
  have above {f : Fld} (hf : 0x91000 ≤ f.key) : e.get f = d.get f := h.get (by
    simp only [recorderWord, ACQ_STATUS]
    omega)
  have masks : e.acqMasks = d.acqMasks := congrArg (· != 0) (h.get (f := BND_CAP1_masks) (by
    simp only [recorderWord, ACQ_STATUS, BND_CAP1_masks]
    omega))
  have type (c : Nat) : e.get (ACQ_CH0_type c) = d.get (ACQ_CH0_type c) := above (Nat.le_add_right ..)
  have index (c : Nat) : e.get (ACQ_CH0_index c) = d.get (ACQ_CH0_index c) := above (Nat.le_add_right ..)
  have reductions (c : Nat) : e.get (ACQ_CH0_reductions c) = d.get (ACQ_CH0_reductions c) := above (Nat.le_add_right ..)
  have minmax (c : Nat) : e.get (ACQ_CH1_n_mm c) = d.get (ACQ_CH1_n_mm c) := above (by simp only [ACQ_CH1_n_mm]; omega)
  have mean (c : Nat) : e.get (ACQ_CH1_n_mean c) = d.get (ACQ_CH1_n_mean c) := above (by simp only [ACQ_CH1_n_mean]; omega)
  have mask (c : Nat) : e.get (ACQ_CH2_mask_mode c) = d.get (ACQ_CH2_mask_mode c) := above (by simp only [ACQ_CH2_mask_mode]; omega)
  have slot (m : Nat) : e.flag (ACQ_MEAS0_en m) = d.flag (ACQ_MEAS0_en m) := congrArg (· != 0) (above (by simp only [ACQ_MEAS0_en]; omega))
  have rate (ty idx : Nat) : e.srcRate ty idx = d.srcRate ty idx := by
    unfold Dev.srcRate Dev.groupSrc
    rw [hs]
  have span (c red : Nat) : e.redSpan c red = d.redSpan c red := by
    unfold Dev.redSpan
    rw [minmax, mean]
  have channels : e.acqChannels = d.acqChannels := by simp only [Dev.acqChannels, type]
  have areas : e.acqMeas = d.acqMeas := by simp only [Dev.acqMeas, Dev.maskChannels, Dev.measSlots, masks, mask, slot]
  have pre : e.get ACQ_TIME_pre_ms = d.get ACQ_TIME_pre_ms := times (.inl rfl)
  have post : e.get ACQ_POST_post_ms = d.get ACQ_POST_post_ms := times (.inr rfl)
  unfold Dev.acqTracks
  simp only [pre, post, channels, areas, type, index, reductions, rate, span]

/-! ## Arming (R313, R314) -/

/-- `e` is `d` ARMED on segment `n`, with the tracks of its configuration from now on. -/
structure Armed (n : Nat) (d e : Dev) : Prop where
  state : e.acqState = 2
  seg : e.acqSeg = n
  mark : e.get (ACQ_SEG_state n) = 1
  result : e.get ACQ_STATUS_arm_result = d.get ACQ_STATUS_arm_result
  from_ : e.acq.tArm = d.now
  tracks : e.acq.tracks = d.acqTracks d.now
  record : e.acq.recd = none
  word : ∀ k, k ≠ ACQ_STATUS.key → k ≠ (ACQ_SEG_state n).key → e.word k = d.word k

/-- The registers of a recorder that is ARMED on a segment. -/
def segArmed (seg : Nat) (d : Dev) : Dev :=
  (((d.set (ACQ_SEG_state seg) 1).set ACQ_STATUS_segment seg).set ACQ_STATUS_state 2).setFlag ACQ_STATUS_pre_full false

theorem regs_acqArmOn (fresh : Bool) (seg : Nat) (d : Dev) : (acqArmOn fresh seg d).regs = (segArmed seg d).regs := by cases fresh <;> rfl

theorem get_acqArmOn (fresh : Bool) (seg : Nat) (d : Dev) (f : Fld) : (acqArmOn fresh seg d).get f = (segArmed seg d).get f := by
  rw [← regGet_regs, regs_acqArmOn, regGet_regs]

theorem word_segArmed {seg : Nat} (d : Dev) {k : Nat} (h : k ≠ ACQ_STATUS.key) (hs : k ≠ (ACQ_SEG_state seg).key) : (segArmed seg d).word k = d.word k :=
  (Dev.word_set_ne _ ACQ_STATUS_pre_full _ h).trans ((Dev.word_set_ne _ ACQ_STATUS_state _ h).trans
    ((Dev.word_set_ne _ ACQ_STATUS_segment _ h).trans (Dev.word_set_ne d (ACQ_SEG_state seg) _ hs)))

/-- A field of another word, or of another part of the status word, reads as after the segment was marked. -/
theorem get_segArmed (seg : Nat) (d : Dev) {f : Fld} (hp : ACQ_STATUS_pre_full.apart f = true) (hs : ACQ_STATUS_state.apart f = true)
    (hg : ACQ_STATUS_segment.apart f = true) : (segArmed seg d).get f = (d.set (ACQ_SEG_state seg) 1).get f :=
  (Dev.get_set_apart _ ACQ_STATUS_pre_full f _ rfl hp).trans ((Dev.get_set_apart _ ACQ_STATUS_state f _ rfl hs).trans
    (Dev.get_set_apart _ ACQ_STATUS_segment f _ rfl hg))

theorem state_segArmed (seg : Nat) (d : Dev) : (segArmed seg d).acqState = 2 :=
  (Dev.get_set_apart _ ACQ_STATUS_pre_full ACQ_STATUS_state _ rfl rfl).trans (Dev.get_set_fits _ ACQ_STATUS_state rfl (by decide))

theorem acqSeg_segArmed {seg : Nat} (h : seg < 64) (d : Dev) : (segArmed seg d).acqSeg = seg :=
  (Dev.get_set_apart _ ACQ_STATUS_pre_full ACQ_STATUS_segment _ rfl rfl).trans
    ((Dev.get_set_apart _ ACQ_STATUS_state ACQ_STATUS_segment _ rfl rfl).trans (Dev.get_set_fits _ ACQ_STATUS_segment rfl h))

theorem mark_segArmed (seg : Nat) (d : Dev) : (segArmed seg d).get (ACQ_SEG_state seg) = 1 := by
  have apart (g : Fld) (hg : g.key = ACQ_STATUS.key) : g.apart (ACQ_SEG_state seg) = true := Fld.apart_of_key (hg ▸ (seg_ne_status seg).symm)
  exact (get_segArmed seg d (apart _ rfl) (apart _ rfl) (apart _ rfl)).trans (Dev.get_set_fits d (ACQ_SEG_state seg) rfl (by show 1 < 2 ^ 2; decide))

theorem segArmed_kept {seg : Nat} (h : seg < 64) (d : Dev) : Dev.Kept (fun k => ¬recorderWord k) d (segArmed seg d) := by
  refine ⟨fun k hk => word_segArmed d (fun hs => hk (.inl hs)) (fun hs => hk (.inr ?_))⟩
  rw [hs]
  simp only [ACQ_SEG_state]
  omega

theorem armed_acqArmOn (fresh : Bool) {seg : Nat} (h : seg < 64) (d : Dev) : Armed seg d (acqArmOn fresh seg d) where
  state := (get_acqArmOn ..).trans (state_segArmed seg d)
  seg := (get_acqArmOn ..).trans (acqSeg_segArmed h d)
  mark := (get_acqArmOn ..).trans (mark_segArmed seg d)
  result := (get_acqArmOn ..).trans ((get_segArmed seg d rfl rfl rfl).trans (Dev.get_set_ne d _ _ _ (seg_ne_status seg).symm))
  from_ := by cases fresh <;> rfl
  tracks := by
    have built : (acqArmOn fresh seg d).acq.tracks = (segArmed seg d).acqTracks d.now := by cases fresh <;> rfl
    exact built.trans (acqTracks_congr (segArmed_kept h d) rfl _)
  record := by cases fresh <;> rfl
  word k hk hs := by
    rw [← regWord_regs, regs_acqArmOn]
    exact word_segArmed d hk hs

/-! ## The count of COMPLETE segments (R313) -/

theorem get_segCount (d : Dev) {f : Fld} (h : ACQ_STATUS_complete.apart f = true) : (segCount d).get f = d.get f :=
  Dev.get_set_apart d ACQ_STATUS_complete f _ rfl h

end Sys2Proof.Machine
end

section
/-! PROOF. The recorder's enable (R311, R313, O42). -/
namespace Sys2Proof.Machine

/-! ## The layout of the segments (R311) -/

/-- A repetition whose steps each act on a field of their own. -/
theorem get_forN_own {n : Nat} {f : Nat → Dev → Dev} {g : Nat → Fld} {r : Nat → Nat} (own : ∀ i e, (f i e).get (g i) = r (e.get (g i)))
    (other : ∀ i j, j ≠ i → ∀ e, (f i e).get (g j) = e.get (g j)) {k : Nat} (hk : k < n) (d : Dev) : (forN n f d).get (g k) = r (d.get (g k)) := by
  have each := forN_ind (P := fun i e => ∀ j, e.get (g j) = if j < i then r (d.get (g j)) else d.get (g j)) (n := n) (f := f) (d := d)
    (fun j => (if_neg (Nat.not_lt_zero j)).symm) (fun i _ e he j => ?_)
  · exact (each k).trans (if_pos hk)
  · by_cases hj : j = i
    · subst hj
      rw [own, he, if_neg (Nat.lt_irrefl j), if_pos (Nat.lt_succ_self j)]
    · rw [other i j hj, he]
      exact if_congr (by omega) rfl rfl

/-- The segments after a layout that keeps the COMPLETE ones, or none. -/
def segsLaid (keep : Bool) (d : Dev) : Dev :=
  forN 64 (fun s d => if keep && d.get (ACQ_SEG_state s) = 3 then d else d.set (ACQ_SEG s) 0) d

/-- The layout into `n` segments. -/
def layoutShown (n : Nat) (d : Dev) : Dev := (d.set ACQ_SEGSZ_n_seg n).set ACQ_SEGSZ_seg_mib (d.get (BND_PART_size_mib 1) / n)

theorem acqLayout_eq (d : Dev) : acqLayout d =
    segCount (segsLaid (d.get ACQ_SEGSZ_n_seg == d.get ACQ_CFG_n_seg) (layoutShown (d.get ACQ_CFG_n_seg) d)) := rfl

section
variable (keep : Bool) (d : Dev)

theorem segsLaid_kept : Dev.Kept (fun k => k < 0x90100) d (segsLaid keep d) := by
  refine Dev.Kept.forN (fun i e => .ite (.refl e) ((Dev.Kept.refl e).set (f := ACQ_SEG i) ?_ 0)) 64 d
  exact Nat.not_lt.mpr (Nat.le_add_right ..)

theorem state_segsLaid {k : Nat} (hk : k < 64) :
    (segsLaid keep d).get (ACQ_SEG_state k) = if keep = true ∧ d.get (ACQ_SEG_state k) = 3 then 3 else 0 := by
  refine get_forN_own (g := ACQ_SEG_state) (r := fun v => if keep = true ∧ v = 3 then 3 else 0) (fun i e => ?_) (fun i j hj e => ?_) hk d
  · by_cases h : keep = true ∧ e.get (ACQ_SEG_state i) = 3
    · rw [if_pos (by simpa using h), if_pos h, h.2]
    · rw [if_neg (by simpa using h), if_neg h]
      unfold Dev.get
      rw [show (ACQ_SEG_state i).key = (ACQ_SEG i).key from rfl, Dev.word_set_same e (ACQ_SEG i) 0 rfl]
      have cleared : putBits (e.word (ACQ_SEG i).key).toNat 0 32 0 = 0 := by
        rw [putBits_eq, Nat.div_eq_of_lt (BitVec.isLt _)]
        simp [Nat.mod_one]
      exact (congrArg (fun v => bits v 0 2) cleared).trans (bits_zero 0 2)
  · split
    · rfl
    · exact Dev.get_set_ne e (ACQ_SEG i) _ _ (seg_ne_seg hj)

end

/-! ## An enable at OFF (R313) -/

section
variable {d : Dev}

/-- The enable is shown. -/
theorem get_enabled (b : Bool) {f : Fld} (hf : ACQ_CFG_enable.apart f = true) : (d.setFlag ACQ_CFG_enable b).get f = d.get f :=
  Dev.get_set_apart d ACQ_CFG_enable f _ rfl hf

/-- An enable without a partition leaves the recorder OFF. -/
theorem acqOpen_refused (h0 : d.acqState = 0) (h : d.get ACQ_CFG_n_seg = 0 ∨ d.get (BND_PART_size_mib 1) / d.get ACQ_CFG_n_seg = 0) :
    (acqOpen d).acqState = 0 ∧ (acqOpen d).get ACQ_STATUS_arm_result = 8 ∧ (acqOpen d).flag ACQ_CFG_enable = false := by
  have refused : acqOpen d = raise 63 ((d.setFlag ACQ_CFG_enable false).set ACQ_STATUS_arm_result 8) := if_pos (by simpa using h)
  have event (f : Fld) (hf : keyBlock f.key = 9) : (acqOpen d).get f = ((d.setFlag ACQ_CFG_enable false).set ACQ_STATUS_arm_result 8).get f :=
    refused ▸ (trafficOnly_raise _ (by decide)).get_acq hf
  refine ⟨?_, ?_, ?_⟩
  · exact (event ACQ_STATUS_state rfl).trans ((Dev.get_set_apart _ ACQ_STATUS_arm_result _ _ rfl rfl).trans ((get_enabled false rfl).trans h0))
  · exact (event _ rfl).trans (Dev.get_set_fits _ ACQ_STATUS_arm_result rfl (by decide))
  · rw [Dev.flag_eq, event _ rfl, Dev.get_set_apart _ ACQ_STATUS_arm_result _ _ rfl rfl]
    exact Dev.flag_setFlag_same d ACQ_CFG_enable false rfl rfl

/-- An enable with a partition lays the segments out. -/
theorem acqOpen_opens (h : ¬(d.get ACQ_CFG_n_seg = 0 ∨ d.get (BND_PART_size_mib 1) / d.get ACQ_CFG_n_seg = 0)) :
    let n := d.get ACQ_CFG_n_seg
    let e := acqOpen d
    e.acqState = 1 ∧ e.flag ACQ_CFG_enable = true ∧ e.get ACQ_SEGSZ_n_seg = n ∧ e.get ACQ_SEGSZ_seg_mib = d.get (BND_PART_size_mib 1) / n ∧
      ∀ k < 64, e.get (ACQ_SEG_state k) = if d.get ACQ_SEGSZ_n_seg = n ∧ d.get (ACQ_SEG_state k) = 3 then 3 else 0 := by
  intro n e
  set y := d.setFlag ACQ_CFG_enable true with hy
  have opened : e = acqIdle 1 (acqLayout y) := if_neg (by simpa using h)
  have segments : y.get ACQ_CFG_n_seg = n := get_enabled true rfl
  have size : y.get (BND_PART_size_mib 1) = d.get (BND_PART_size_mib 1) := get_enabled true rfl
  have laid {f : Fld} (hf : f.key ≠ ACQ_STATUS.key) : e.get f = (segsLaid (y.get ACQ_SEGSZ_n_seg == n) (layoutShown n y)).get f := by
    rw [opened, acqLayout_eq, segments]
    exact ((acqIdle_kept 1 _).get hf).trans (get_segCount _ (Fld.apart_of_key hf.symm))
  have word {f : Fld} (hf : f.key ≠ ACQ_STATUS.key) (hs : f.key < 0x90100) : e.get f = (layoutShown n y).get f :=
    (laid hf).trans ((segsLaid_kept _ _).get hs)
  have before (f : Fld) (hz : f.key ≠ ACQ_SEGSZ.key) : (layoutShown n y).get f = y.get f :=
    (Dev.get_set_ne _ ACQ_SEGSZ_seg_mib f _ hz).trans (Dev.get_set_ne y ACQ_SEGSZ_n_seg f _ hz)
  refine ⟨opened ▸ state_acqIdle 1 _ (by decide), ?_, ?_, ?_, fun k hk => ?_⟩
  · have shown : (layoutShown n y).flag ACQ_CFG_enable = y.flag ACQ_CFG_enable := congrArg (· != 0) (before _ (by decide))
    rw [Dev.flag_eq, word (by decide) (by decide)]
    exact shown.trans (Dev.flag_setFlag_same d ACQ_CFG_enable true rfl rfl)
  · exact (word (by decide) (by decide)).trans ((Dev.get_set_apart _ ACQ_SEGSZ_seg_mib _ _ rfl rfl).trans
      (Dev.get_set_fits y ACQ_SEGSZ_n_seg rfl (d.get_lt ACQ_CFG_n_seg)))
  · refine ((word (by decide) (by decide)).trans (Dev.get_set_fits _ ACQ_SEGSZ_seg_mib rfl ?_)).trans (by rw [size])
    exact Nat.lt_of_le_of_lt (Nat.div_le_self ..) (y.get_lt (BND_PART_size_mib 1))
  · rw [laid (seg_ne_status k), state_segsLaid _ _ hk, before _ (by simp only [ACQ_SEG_state, ACQ_SEGSZ]; omega), hy, get_enabled true rfl,
      get_enabled true (Fld.apart_of_key (by simp only [ACQ_SEG_state, ACQ_CFG_enable]; omega))]
    exact if_congr (by rw [beq_iff_eq]) rfl rfl

/-! ## A write of the enable (R313, R322) -/

theorem acqEnable_opens (h : d.acqState = 0) : acqEnable d = acqOpen d := by
  unfold acqEnable
  rw [h]
  rfl

/-- An enable in DISABLING waits. -/
theorem acqEnable_pends (h : d.acqState = 4) : (acqEnable d).acqState = 4 ∧ (acqEnable d).flag ACQ_STATUS_enable_pending = true := by
  have pends : acqEnable d = (d.setFlag ACQ_CFG_enable true).setFlag ACQ_STATUS_enable_pending true := by
    unfold acqEnable
    rw [h]
    rfl
  rw [pends]
  refine ⟨?_, Dev.flag_setFlag_same _ _ true rfl rfl⟩
  exact (Dev.get_set_apart _ ACQ_STATUS_enable_pending ACQ_STATUS_state _ rfl rfl).trans ((get_enabled true rfl).trans h)

/-- A disable reaches OFF from READY and, with its segment FREE, from ARMED; a record that runs goes on. -/
theorem acqDisable_does (h : d.flag ACQ_STATUS_enable_pending = false) :
    (acqDisable d).flag ACQ_CFG_enable = false ∧ (d.acqState = 1 → (acqDisable d).acqState = 0) ∧
      (d.acqState = 2 → (acqDisable d).acqState = 0 ∧ (acqDisable d).get (ACQ_SEG_state d.acqSeg) = 0) ∧
      (d.acqState = 3 → (acqDisable d).acqState = 4 ∧ (acqDisable d).acq = d.acq) := by
  set y := d.setFlag ACQ_CFG_enable false with hy
  have off : y.flag ACQ_CFG_enable = false := Dev.flag_setFlag_same d ACQ_CFG_enable false rfl rfl
  have status {f : Fld} (hf : f.key ≠ ACQ_CFG.key) : y.get f = d.get f := Dev.get_set_ne d ACQ_CFG_enable f _ hf
  have state : y.acqState = d.acqState := status (by decide)
  have seg : y.acqSeg = d.acqSeg := status (by decide)
  have waits : y.flag ACQ_STATUS_enable_pending = false := (congrArg (· != 0) (status (by decide))).trans h
  set z := y.set (ACQ_SEG_state d.acqSeg) 0 with hz
  have freed {f : Fld} (hf : f.key < 0x90100) : z.get f = y.get f := Dev.get_set_ne y _ f _ (by simp only [ACQ_SEG_state]; omega)
  have waitsToo : z.flag ACQ_STATUS_enable_pending = false := (congrArg (· != 0) (freed (by decide))).trans waits
  refine ⟨?_, fun h1 => ?_, fun h2 => ?_, fun h3 => ?_⟩
  · unfold acqDisable
    dsimp only
    rw [← hy, seg, ← hz]
    split
    · exact (congrArg (· != 0) (get_acqOff waits rfl (by decide))).trans off
    · exact (congrArg (· != 0) ((get_acqOff waitsToo rfl (by decide)).trans (freed (by decide)))).trans off
    · exact (congrArg (· != 0) (Dev.get_set_ne y ACQ_STATUS_state _ _ (by decide))).trans off
    · exact (congrArg (· != 0) (Dev.get_set_ne y ACQ_STATUS_enable_pending _ _ (by decide))).trans off
    · exact off
  · have ready : acqDisable d = acqOff y := by
      unfold acqDisable
      dsimp only
      rw [← hy, state, h1]
      rfl
    exact ready ▸ state_acqOff waits
  · have armed : acqDisable d = acqOff z := by
      unfold acqDisable
      dsimp only
      rw [← hy, seg, state, h2]
      rfl
    rw [armed]
    refine ⟨state_acqOff waitsToo, (get_acqOff waitsToo (keyBlock_seg d.acqSeg_lt) (seg_ne_status _)).trans ?_⟩
    exact Dev.get_set_fits y (ACQ_SEG_state d.acqSeg) rfl (Nat.two_pow_pos _)
  · have records : acqDisable d = y.set ACQ_STATUS_state 4 := by
      unfold acqDisable
      dsimp only
      rw [← hy, state, h3]
      rfl
    exact records ▸ ⟨Dev.get_set_fits y ACQ_STATUS_state rfl (by decide), rfl⟩

end

/-- The row of ACQ_CFG. -/
def row_acqCfg : RegRow :=
  ⟨0x90000, [], false, .acqCfg, [⟨0, 1, .rw, 0, []⟩, ⟨1, 1, .rw, 0, []⟩, ⟨2, 1, .rw, 0, []⟩, ⟨3, 1, .rw, 0, []⟩, ⟨4, 6, .rw, 0, []⟩,
    ⟨16, 7, .rw, 0x10, [(1, 64)]⟩]⟩

theorem findRow_acqCfg : findRow 0x90000 = some (row_acqCfg, []) := by decide

/-- Two fields that adjoin, as one. -/
theorem bits_adjoin (v lo w w' : Nat) : bits v lo (w + w') = bits v lo w + 2 ^ w * bits v (lo + w) w' := by
  unfold bits
  rw [Nat.pow_add, Nat.pow_add, ← Nat.div_div_eq_div_mul, Nat.mod_mul]

/-- Words that agree in the fields behind the enable agree in all of them as one. -/
theorem bits_cfg_congr {v w : Nat} (h1 : bits v 1 1 = bits w 1 1) (h2 : bits v 2 1 = bits w 2 1) (h3 : bits v 3 1 = bits w 3 1)
    (h4 : bits v 4 6 = bits w 4 6) : bits v 1 9 = bits w 1 9 := by
  have parts (x : Nat) : bits x 1 9 = bits x 1 1 + 2 ^ 1 * (bits x 2 1 + 2 ^ 1 * (bits x 3 1 + 2 ^ 1 * bits x 4 6)) := by
    rw [bits_adjoin x 1 1 8, bits_adjoin x 2 1 7, bits_adjoin x 3 1 6]
  rw [parts, parts, h1, h2, h3, h4]

/-- A write of the enable alone acts on the enable alone. -/
theorem regKeep_acqCfg {m x : Nat} {d : Dev} (on : Bool) (hx : x = b2n on) (h : d.WritesField m 0x90000 0 1 x) : regKeep m 0x90000 0 1 x d =
    if decide (on = d.flag ACQ_CFG_enable) && !(on && d.acqState == 4) then d else if on then acqEnable d else acqDisable d := by
  have held {f : FieldRow} (hf : f ∈ row_acqCfg.fields) (hlo : 1 ≤ f.lo) (hrw : f.acc = .rw) :
      bits (putBits (d.rwHeld 0x90000) 0 1 x) f.lo f.width = bits (d.word 0x90000).toNat f.lo f.width := by
    rw [bits_putBits_above _ _ _ _ _ _ hlo, bits_rwHeld findRow_acqCfg d hf, hrw]
    rfl
  have rest : bits (putBits (d.rwHeld 0x90000) 0 1 x) 1 9 = bits (d.get ACQ_CFG) 1 9 := by
    have word : d.get ACQ_CFG = (d.word 0x90000).toNat := by
      show (d.word 0x90000).toNat / 2 ^ 0 % 2 ^ 32 = _
      rw [Nat.pow_zero, Nat.div_one, Nat.mod_eq_of_lt (BitVec.isLt _)]
    rw [word]
    exact bits_cfg_congr (held (f := ⟨1, 1, .rw, 0, []⟩) (by decide) (by decide) rfl) (held (f := ⟨2, 1, .rw, 0, []⟩) (by decide) (by decide) rfl)
      (held (f := ⟨3, 1, .rw, 0, []⟩) (by decide) (by decide) rfl) (held (f := ⟨4, 6, .rw, 0, []⟩) (by decide) (by decide) rfl)
  have segments : bits (putBits (d.rwHeld 0x90000) 0 1 x) 16 7 = d.get ACQ_CFG_n_seg :=
    held (f := ⟨16, 7, .rw, 0x10, [(1, 64)]⟩) (by decide) (by decide) rfl
  have enable : bitAt (putBits (d.rwHeld 0x90000) 0 1 x) 0 = on := by
    rw [bitAt_eq, bits_putBits_same, hx]
    cases on <;> rfl
  have write : regWrite {} m 0x90000 (putBits (d.rwHeld 0x90000) 0 1 x) d = acqCfgWrite (putBits (d.rwHeld 0x90000) 0 1 x) d := rfl
  rw [regKeep_of_writes h (by decide) (by decide) (by decide), write]
  unfold acqCfgWrite
  rw [rest, segments, enable]
  dsimp only
  rw [if_pos rfl, if_pos rfl]

theorem recorderOpensAndCloses : Rules.RecorderOpensAndCloses := by
  intro s m hr
  refine ⟨fun hw => ⟨fun h0 hoff => ?_, fun h4 => ?_⟩, fun hw hon hp => ?_⟩
  · intro n size
    have opens : regKeep m 0x90000 0 1 1 s.dev = acqOpen s.dev := by
      rw [regKeep_acqCfg (x := 1) true rfl hw, hoff, if_neg (by simp), if_pos rfl, acqEnable_opens h0]
    refine ⟨_, settles_of rfl hr opens, ?_⟩
    split
    next h => exact acqOpen_refused h0 h
    next h => exact acqOpen_opens h
  · have enables : regKeep m 0x90000 0 1 1 s.dev = acqEnable s.dev := by
      rw [regKeep_acqCfg (x := 1) true rfl hw, h4, if_neg (by simp), if_pos rfl]
    exact ⟨_, settles_of rfl hr enables, acqEnable_pends h4⟩
  · have disables : regKeep m 0x90000 0 1 0 s.dev = acqDisable s.dev := by
      rw [regKeep_acqCfg (x := 0) false rfl hw, hon, if_neg (by simp), if_neg (by decide)]
    exact ⟨_, settles_of rfl hr disables, acqDisable_does hp⟩

end Sys2Proof.Machine
end

section
/-! PROOF. The commands of the recorder (R311, R313, R314, R319, O42). -/
namespace Sys2Proof.Machine

theorem regCmd_acqCmd {m v : Nat} {d : Dev} (h : d.Writes m 0x90010 v) : regCmd m 0x90010 v d = acqCmdWrite v d :=
  regCmd_of_writes h (by decide) (by decide) (by decide)

/-! ## ARM (R314) -/

/-- What holds of every code of R314 that can come about holds of the code of an ARM. -/
theorem armCode_ind {P : Nat → Prop} {d : Dev} (refused : ∀ c, 1 ≤ c → c ≤ 7 → P c) (armed : d.segFree ≠ none → P 0) : P (armCode d) := by
  unfold armCode
  extract_lets cs ts used group field slow
  iterate 6 refine iteInduction (motive := P) (fun _ => refused _ (by decide) (by decide)) (fun _ => ?_)
  exact iteInduction (motive := P) (fun _ => refused _ (by decide) (by decide)) (fun found => armed (by simpa using found))

theorem armCode_lt (d : Dev) : armCode d < 2 ^ 4 :=
  armCode_ind (P := (· < 2 ^ 4)) (fun _ _ h => Nat.lt_of_le_of_lt h (by decide)) (fun _ => by decide)

/-- An ARM that its checks pass finds a FREE segment. -/
theorem segFree_of_armCode {d : Dev} (h : armCode d = 0) : ∃ k, d.segFree = some k := by
  have found : armCode d = 0 → d.segFree ≠ none := armCode_ind (P := fun c => c = 0 → d.segFree ≠ none) (fun c h1 _ h0 => by omega) (fun hf _ => hf)
  exact Option.ne_none_iff_exists'.mp (found h)

section
variable {d : Dev}

theorem acqArmCmd_refused (h : armCode d ≠ 0) : acqArmCmd d = raise 63 (d.set ACQ_STATUS_arm_result (armCode d)) := by
  unfold acqArmCmd
  dsimp only
  split
  next hc _ => exact absurd hc h
  next => rfl

theorem acqArmCmd_arms {k : Nat} (h : armCode d = 0) (hk : d.segFree = some k) : acqArmCmd d = acqArmOn true k (d.set ACQ_STATUS_arm_result 0) := by
  unfold acqArmCmd
  rw [h, hk]
  rfl

/-- The tracks do not hang on the result of the last ARM. -/
theorem acqTracks_result (c t : Nat) (d : Dev) : (d.set ACQ_STATUS_arm_result c).acqTracks t = d.acqTracks t :=
  acqTracks_congr ((Dev.Kept.refl d).set (f := ACQ_STATUS_arm_result) (not_not_intro (.inl rfl)) c) rfl t

/-! ## DISARM and FREE (R311, R313) -/

theorem acqDisarmCmd_armed (h : d.acqState = 2) : (acqDisarmCmd d).acqState = 1 ∧ (acqDisarmCmd d).get (ACQ_SEG_state d.acqSeg) = 0 ∧
    (acqDisarmCmd d).acq.tracks = [] := by
  have idle : acqDisarmCmd d = acqIdle 1 (d.set (ACQ_SEG_state d.acqSeg) 0) := if_pos h
  rw [idle]
  refine ⟨state_acqIdle 1 _ (by decide), ((acqIdle_kept 1 _).get (seg_ne_status _)).trans ?_, rfl⟩
  exact Dev.get_set_fits d (ACQ_SEG_state d.acqSeg) rfl (Nat.two_pow_pos _)

theorem acqDisarmCmd_recording (h : d.acqState = 3) : acqDisarmCmd d = { d with acq := { d.acq with disarm := true } } :=
  (if_neg (by simp [h])).trans (if_pos h)

theorem acqDisarmCmd_other (h2 : d.acqState ≠ 2) (h3 : d.acqState ≠ 3) : acqDisarmCmd d = d := (if_neg h2).trans (if_neg h3)

variable {k : Nat}

theorem acqFreeCmd_free (h : d.get (ACQ_SEG_state k) = 0) : acqFreeCmd k d = d := by
  unfold acqFreeCmd
  rw [h]
  rfl

/-- A COMPLETE segment is emptied. -/
theorem acqFreeCmd_complete (h : d.get (ACQ_SEG_state k) = 3) : (acqFreeCmd k d).get (ACQ_SEG_state k) = 0 ∧ (acqFreeCmd k d).acq = d.acq ∧
    (acqFreeCmd k d).get ACQ_STATUS_arm_result = d.get ACQ_STATUS_arm_result := by
  have frees : acqFreeCmd k d = segCount (((d.set (ACQ_SEG_state k) 0).set (ACQ_SEG_flags k) 0).set (ACQ_SEG_seq k) 0) := by
    unfold acqFreeCmd
    rw [h]
    rfl
  have apart (f : Fld) (hf : f.key = (ACQ_SEG_state k).key) : f.apart ACQ_STATUS_arm_result = true := Fld.apart_of_key (hf ▸ seg_ne_status k)
  have flags : (ACQ_SEG_flags k).apart (ACQ_SEG_state k) = true := by simp [Fld.apart, ACQ_SEG_flags, ACQ_SEG_state]
  have seq : (ACQ_SEG_seq k).apart (ACQ_SEG_state k) = true := by simp [Fld.apart, ACQ_SEG_seq, ACQ_SEG_state]
  rw [frees]
  refine ⟨?_, rfl, ?_⟩
  · rw [get_segCount _ (Fld.apart_of_key (seg_ne_status k).symm), Dev.get_set_apart _ (ACQ_SEG_seq k) _ _ rfl seq,
      Dev.get_set_apart _ (ACQ_SEG_flags k) _ _ rfl flags]
    exact Dev.get_set_fits d (ACQ_SEG_state k) rfl (Nat.two_pow_pos _)
  · rw [get_segCount _ rfl, Dev.get_set_apart _ (ACQ_SEG_seq k) _ _ rfl (apart _ rfl),
      Dev.get_set_apart _ (ACQ_SEG_flags k) _ _ rfl (apart _ rfl), Dev.get_set_apart _ (ACQ_SEG_state k) _ _ rfl (apart _ rfl)]

/-- A segment in use is not freed. -/
theorem acqFreeCmd_inUse (h0 : d.get (ACQ_SEG_state k) ≠ 0) (h3 : d.get (ACQ_SEG_state k) ≠ 3) : acqFreeCmd k d = d.set ACQ_STATUS_arm_result 7 := by
  unfold acqFreeCmd
  split
  next h => exact absurd h h3
  next h => exact absurd h h0
  next => rfl

end

theorem acqCmdWrite_free (k : Fin 64) (d : Dev) : acqCmdWrite (4 + 16 * k.val) d = acqFreeCmd k d := by
  have hk := k.isLt
  have cmd : bits (4 + 16 * k.val) 0 4 = 4 := by simp only [bits]; omega
  have seg : bits (4 + 16 * k.val) 4 6 = k.val := by simp only [bits]; omega
  unfold acqCmdWrite
  rw [cmd, seg]
  rfl

/-! ## CLEAR_CNT -/

/-- The counters of the recorder. -/
def recorderCounters : List Fld := [ACQ_RECORDS, ACQ_TRIG_EARLY, ACQ_TRIG_LATE, ACQ_TRIG_BUSY, ACQ_FULL, ACQ_SKIP]

/-- Fields that are set to zero one after another. -/
def zeroed (fs : List Fld) (d : Dev) : Dev := fs.foldl (fun d f => d.set f 0) d

theorem acqClearCnt_eq (d : Dev) : acqClearCnt d = zeroed recorderCounters d := rfl

theorem zeroed_sameBut {K : Nat → Prop} {fs : List Fld} (hK : ∀ f ∈ fs, K f.key) {d e : Dev} (h : d.SameBut K e) : d.SameBut K (zeroed fs e) := by
  induction fs generalizing e with
  | nil => exact h
  | cons f fs ih => exact ih (fun g hg => hK g (List.mem_cons_of_mem f hg)) (h.set f (hK f List.mem_cons_self) 0)

/-- Each of them reads zero, where no word holds two. -/
theorem get_zeroed {f : Fld} {fs : List Fld} (hw : f.inWord = true) (words : ∀ g ∈ fs, g.key = f.key → g = f) {d : Dev} (h : f ∈ fs ∨ d.get f = 0) :
    (zeroed fs d).get f = 0 := by
  induction fs generalizing d with
  | nil => exact h.resolve_left List.not_mem_nil
  | cons g fs ih =>
    refine ih (fun x hx => words x (List.mem_cons_of_mem g hx)) ?_
    by_cases hg : f = g
    · subst hg
      exact .inr ((Dev.get_set_same d f 0 hw).trans (Nat.zero_mod _))
    · have other : f.key ≠ g.key := fun hk => hg (words g List.mem_cons_self hk.symm).symm
      rw [Dev.get_set_ne d g f 0 other]
      exact h.imp_left fun hf => (List.mem_cons.mp hf).resolve_left hg

theorem recorderCounters_words : ∀ f ∈ recorderCounters, f.inWord = true ∧ ∀ g ∈ recorderCounters, g.key = f.key → g = f := by decide

/-! ## The rule -/

theorem recorderCommands : Rules.RecorderCommands := by
  intro s m hr
  refine ⟨fun hw hn => ⟨fun hc => ?_, fun hc => ?_⟩, fun hw => ⟨fun h2 => ?_, fun h3 => ?_, fun h2 h3 => ?_⟩, fun hw => ?_, fun k hw => ?_, fun hw => ?_⟩
  · refine ⟨_, settles_of rfl hr ((regCmd_acqCmd hw).trans (acqArmCmd_refused hc)), Dev.get_set_fits s.dev ACQ_STATUS_arm_result rfl (armCode_lt s.dev), ?_⟩
    exact Dev.SameBut.set (K := (· = ACQ_STATUS.key)) (.refl _ s.dev) ACQ_STATUS_arm_result rfl _
  · obtain ⟨k, hk⟩ := segFree_of_armCode hc
    have inRange : k < 64 := Nat.lt_of_lt_of_le (segFree_some hk).1 hn
    have armed := armed_acqArmOn true inRange (s.dev.set ACQ_STATUS_arm_result 0)
    refine ⟨_, k, hk, settles_of rfl hr ((regCmd_acqCmd hw).trans (acqArmCmd_arms hc hk)), armed.state, armed.seg, armed.mark, ?_, armed.from_,
      armed.tracks.trans (acqTracks_result ..), armed.record⟩
    exact armed.result.trans (Dev.get_set_fits s.dev ACQ_STATUS_arm_result rfl (by decide))
  · exact ⟨_, settles_of rfl hr (regCmd_acqCmd hw), acqDisarmCmd_armed h2⟩
  · exact settles_of rfl hr ((regCmd_acqCmd hw).trans (acqDisarmCmd_recording h3))
  · exact settles_of rfl hr ((regCmd_acqCmd hw).trans (acqDisarmCmd_other h2 h3))
  · exact settles_of rfl hr (regCmd_acqCmd hw)
  · have frees := (regCmd_acqCmd hw).trans (acqCmdWrite_free k s.dev)
    refine ⟨fun h0 => settles_of rfl hr (frees.trans (acqFreeCmd_free h0)), fun h3 => ⟨_, settles_of rfl hr frees, acqFreeCmd_complete h3⟩, fun h0 h3 => ?_⟩
    refine ⟨_, settles_of rfl hr (frees.trans (acqFreeCmd_inUse h0 h3)), Dev.get_set_fits s.dev ACQ_STATUS_arm_result rfl (by decide), ?_⟩
    exact Dev.SameBut.set (K := (· = ACQ_STATUS.key)) (.refl _ s.dev) ACQ_STATUS_arm_result rfl 7
  · refine ⟨_, settles_of rfl hr ((regCmd_acqCmd hw).trans (acqClearCnt_eq s.dev)), fun f hf => ?_, ?_⟩
    · obtain ⟨inWord, words⟩ := recorderCounters_words f hf
      exact get_zeroed inWord words (.inl hf)
    · exact zeroed_sameBut (K := (· ∈ recorderCounters.map Fld.key)) (fun f hf => List.mem_map_of_mem (f := Fld.key) hf) (.refl _ s.dev)

/-- Settles O42: what an enable, a disable and each command do to the recorder. -/
theorem recorderIsCommanded : Obligations.RecorderIsCommanded := ⟨recorderOpensAndCloses, recorderCommands⟩

end Sys2Proof.Machine
end

section
/-! PROOF. What the tracks, the measurements and the queue records of the recorder leave alone (R309, R316, R320, R324, R329, O43). -/
namespace Sys2Proof.Machine

/-! ## Entries of a track (R309, R316) -/

theorem trafficOnly_drawWord (d : Dev) : TrafficOnly d d.drawWord.2 := trafficOnly_free ..

theorem trafficOnly_acqWrite (a : Nat) (bs : List Byte) (d : Dev) : TrafficOnly d (acqWrite a bs d) := by
  unfold acqWrite
  split
  · exact trafficOnly_dramWrite ..
  · exact trafficOnly_violation ..

/-- What each step of a repetition over a track and the device leaves alone, the repetition leaves alone. -/
theorem trafficOnly_forN {α : Type} {f : Nat → α × Dev → α × Dev} (h : ∀ i x, TrafficOnly x.2 (f i x).2) (n : Nat) {d : Dev} {x : α × Dev}
    (hx : TrafficOnly d x.2) : TrafficOnly d (forN n f x).2 :=
  List.foldlRecOn (motive := fun y : α × Dev => TrafficOnly d y.2) _ _ hx (fun y hy i _ => hy.trans (h i y))

theorem trafficOnly_foldl {α β : Type} {f : α × Dev → β → α × Dev} (h : ∀ x b, TrafficOnly x.2 (f x b).2) (bs : List β) {d : Dev} {x : α × Dev}
    (hx : TrafficOnly d x.2) : TrafficOnly d (bs.foldl f x).2 :=
  List.foldlRecOn (motive := fun y : α × Dev => TrafficOnly d y.2) _ _ hx (fun y hy b _ => hy.trans (h y b))

section
variable (seg : Nat) (x : AcqTrack × Dev)

theorem trafficOnly_trackEntry (ws : List Nat) : TrafficOnly x.2 (trackEntry seg ws x).2 := trafficOnly_acqWrite ..

theorem trafficOnly_trackFill (ord : Nat) : TrafficOnly x.2 (trackFill seg ord x).2 := by
  unfold trackFill
  exact trafficOnly_forN (fun _ y => trafficOnly_trackEntry seg y y.1.nanWords) _ (.refl x.2)

theorem trafficOnly_result (t : AcqTrack) (d : Dev) : TrafficOnly d (t.result d).2 := by
  unfold AcqTrack.result
  split
  · exact .refl d
  split
  · exact .refl d
  split
  · exact .refl d
  split
  · exact trafficOnly_drawWord d
  split
  · exact .refl d
  · exact .refl d

theorem trafficOnly_trackClose (lim : Option Nat) : TrafficOnly x.2 (trackClose seg lim x).2 := by
  unfold trackClose
  dsimp only
  split
  · exact .refl x.2
  · split
    · exact .refl x.2
    · exact (trafficOnly_result x.1 x.2).trans ((trafficOnly_trackFill seg (_, _) _).trans (trafficOnly_trackEntry seg _ _))

theorem trafficOnly_trackTake (lim : Option Nat) (v : AcqIn) : TrafficOnly x.2 (trackTake seg lim v x).2 := by
  unfold trackTake
  extract_lets t0 t w y1 y2 t2 y3
  have h1 : TrafficOnly x.2 y1.2 := by
    unfold y1
    split
    · exact trafficOnly_trackClose seg (t, x.2) lim
    · exact .refl x.2
  have h2 : TrafficOnly x.2 y2.2 := by
    unfold y2
    split
    · exact h1.trans (trafficOnly_trackFill seg y1 _)
    · exact h1
  split
  · exact .refl x.2
  split
  · exact .refl x.2
  split
  · exact h2
  split
  · exact h2.trans (trafficOnly_trackClose seg y3 lim)
  · exact h2

end

/-! ## A record that is written (R320, R324, R329) -/

theorem trafficOnly_trackFinish (r : AcqRec) (x : AcqTrack × Dev) : TrafficOnly x.2 (trackFinish r x).2 := by
  unfold trackFinish
  dsimp only
  split
  · exact .refl x.2
  · exact trafficOnly_trackFill ..

theorem trafficOnly_crossings (level : Int) (vs : List (Int × Nat)) (d : Dev) : TrafficOnly d (crossings level vs d).2 := by
  induction vs generalizing d with
  | nil => exact .refl d
  | cons a vs ih =>
    cases vs with
    | nil => exact .refl d
    | cons b vs =>
      unfold crossings
      dsimp only
      split
      · split
        · exact ih d
        · exact (trafficOnly_drawNat d).trans (ih _)
      · exact ih d

theorem trafficOnly_levelCrossings (base top w : Nat) (vs : List (Int × Nat)) (d : Dev) : TrafficOnly d (levelCrossings base top w vs d).2 := by
  unfold levelCrossings
  split
  · exact trafficOnly_crossings ..
  split
  · exact trafficOnly_crossings ..
  · exact .refl d

theorem trafficOnly_measEntry (r : AcqRec) (m : Nat) (d : Dev) : TrafficOnly d (measEntry r m d).2 := by
  unfold measEntry
  extract_lets c a b vs sq
  clear_value sq vs
  cases vs with
  | nil => exact .refl d
  | cons v vs =>
    have drawn : TrafficOnly d (if (v :: vs).any (fun v => fIsInf v.2) then d.drawWord else (rnSqrtQ sq ((v :: vs).length * 2 ^ 298), d)).2 := by
      split
      · exact trafficOnly_drawWord d
      · exact .refl d
    exact drawn.trans ((trafficOnly_crossings ..).trans ((trafficOnly_levelCrossings ..).trans (trafficOnly_levelCrossings ..)))

theorem trafficOnly_acqQueueRec (code flags done : Nat) (r : AcqRec) (d : Dev) : TrafficOnly d (acqQueueRec code flags done r d) := by
  unfold acqQueueRec
  split
  · exact trafficOnly_queueRecord (d.get_lt ACQ_CFG_queue) _ d
  · exact .refl d

end Sys2Proof.Machine
end

section
/-! PROOF. Records complete, and what the recorder does next (R313, R320, O43). -/
namespace Sys2Proof.Machine

/-! ## The parts of a completion (R320) -/

/-- The segment's registers and the counters after a record, and its event. -/
def recordCounted (seg flags : Nat) (r : AcqRec) (d : Dev) : Dev :=
  raise 61 ((segCount (((d.set (ACQ_SEG_state seg) 3).set (ACQ_SEG_flags seg) flags).set (ACQ_SEG_seq seg) r.seq)).inc ACQ_RECORDS)

/-- The same, and the queue record. -/
def recordShown (seg flags : Nat) (r : AcqRec) (d : Dev) : Dev :=
  acqQueueRec 0x0D02 flags (recordCounted seg flags r d).now r (recordCounted seg flags r d)

/-- What the recorder does after a record (R313). -/
def recorderGoesOn (r : AcqRec) (d : Dev) : Dev :=
  if d.acqState = 4 then acqOff d
  else if d.flag ACQ_CFG_rearm && !d.acq.disarm && !r.stop then
    match d.segFree with
    | some s => acqArmOn false s d
    | none => raise 62 (acqIdle 1 ((d.set ACQ_STATUS_arm_result 6).inc ACQ_FULL))
  else acqIdle 1 d

/-- A completion writes the record, shows it, and lets the recorder go on. -/
theorem acqComplete_parts (step : Bool) {r : AcqRec} {d : Dev} (h : d.acq.recd = some r) :
    ∃ flags w, TrafficOnly d w ∧ acqComplete step d = recorderGoesOn r (recordShown d.acqSeg flags r w) := by
  refine ⟨_, _, ?_, by unfold acqComplete; rw [h]; rfl⟩
  refine TrafficOnly.trans ?_ (trafficOnly_acqWrite ..)
  refine trafficOnly_foldl (f := fun y m => (y.1 ++ (measEntry r m y.2).1, (measEntry r m y.2).2)) (fun y m => trafficOnly_measEntry r m y.2) _ ?_
  exact trafficOnly_foldl (f := fun y t => (y.1 ++ [(trackFinish r (t, y.2)).1], (trackFinish r (t, y.2)).2))
    (fun y t => trafficOnly_trackFinish r (t, y.2)) _ (.refl d)

/-- The record `r` of segment `seg` is COMPLETE in `e`, and counted; the rest of the recorder is as in `d`. -/
structure RecordTaken (n : Nat) (r : AcqRec) (d e : Dev) : Prop where
  state : e.get (ACQ_SEG_state n) = 3
  seq : e.get (ACQ_SEG_seq n) = r.seq % 2 ^ (ACQ_SEG_seq n).width
  count : e.get ACQ_RECORDS = min (d.get ACQ_RECORDS + 1) 4294967295
  kept : ∀ f : Fld, keyBlock f.key = 9 → f.key ≠ ACQ_RECORDS.key → f.key ≠ (ACQ_SEG_state n).key → ACQ_STATUS_complete.apart f = true →
    e.get f = d.get f
  acq : e.acq = d.acq
  now : e.now = d.now

theorem recordTaken_recordShown {n : Nat} (hn : n < 64) (flags : Nat) (r : AcqRec) (d : Dev) : RecordTaken n r d (recordShown n flags r d) := by
  set a := d.set (ACQ_SEG_state n) 3 with ha
  set b := a.set (ACQ_SEG_flags n) flags with hb
  set c := b.set (ACQ_SEG_seq n) r.seq with hc
  set x := (segCount c).inc ACQ_RECORDS with hx
  have traffic : TrafficOnly x (recordShown n flags r d) := (trafficOnly_raise x (by decide)).trans (trafficOnly_acqQueueRec ..)
  have records : (ACQ_SEG_state n).key ≠ ACQ_RECORDS.key := by
    simp only [ACQ_SEG_state, ACQ_RECORDS]
    omega
  have shown {f : Fld} (h9 : keyBlock f.key = 9) (hr : f.key ≠ ACQ_RECORDS.key) (hs : ACQ_STATUS_complete.apart f = true) :
      (recordShown n flags r d).get f = c.get f :=
    (traffic.get_acq h9).trans ((Dev.get_set_ne _ ACQ_RECORDS f _ hr).trans (get_segCount c hs))
  have segment {f : Fld} (hf : f.key = (ACQ_SEG_state n).key) : (recordShown n flags r d).get f = c.get f :=
    shown (hf ▸ keyBlock_seg hn) (hf ▸ records) (Fld.apart_of_key (hf ▸ (seg_ne_status n).symm))
  have other {f : Fld} (hf : f.key ≠ (ACQ_SEG_state n).key) : c.get f = d.get f :=
    (Dev.get_set_ne b (ACQ_SEG_seq n) f _ hf).trans ((Dev.get_set_ne a (ACQ_SEG_flags n) f _ hf).trans (Dev.get_set_ne d (ACQ_SEG_state n) f _ hf))
  refine ⟨(segment rfl).trans ?_, (segment (f := ACQ_SEG_seq n) rfl).trans (Dev.get_set_same b (ACQ_SEG_seq n) r.seq rfl), ?_,
    fun f h9 hr hn hs => (shown h9 hr hs).trans (other hn), traffic.acq, traffic.now⟩
  · rw [hc, Dev.get_set_apart b (ACQ_SEG_seq n) _ _ rfl (by simp [Fld.apart, ACQ_SEG_seq, ACQ_SEG_state]), hb,
      Dev.get_set_apart a (ACQ_SEG_flags n) _ _ rfl (by simp [Fld.apart, ACQ_SEG_flags, ACQ_SEG_state])]
    exact Dev.get_set_fits d (ACQ_SEG_state n) rfl (by show 3 < 2 ^ 2; decide)
  · have before : (segCount c).get ACQ_RECORDS = d.get ACQ_RECORDS := (get_segCount c rfl).trans (other records.symm)
    rw [traffic.get_acq rfl, hx, Dev.get_inc_same _ ACQ_RECORDS rfl, before]
    rfl

/-! ## What the recorder does next (R313) -/

/-- `e` keeps the COMPLETE segments, the count of records and the layout of `d`, and records nothing. -/
structure GoneOn (d e : Dev) : Prop where
  complete : ∀ n < 64, d.get (ACQ_SEG_state n) = 3 → e.get (ACQ_SEG_state n) = 3
  seq : ∀ n < 64, d.get (ACQ_SEG_state n) = 3 → e.get (ACQ_SEG_seq n) = d.get (ACQ_SEG_seq n)
  count : e.get ACQ_RECORDS = d.get ACQ_RECORDS
  record : e.acq.recd = none

section
variable {r : AcqRec} {d : Dev}

theorem goneOn_of_kept {e : Dev} (h : ∀ f : Fld, keyBlock f.key = 9 → f.key ≠ ACQ_STATUS.key → f.key ≠ ACQ_FULL.key → e.get f = d.get f)
    (hr : e.acq.recd = none) : GoneOn d e := by
  have full (n : Nat) : (ACQ_SEG_state n).key ≠ ACQ_FULL.key := by
    simp only [ACQ_SEG_state, ACQ_FULL]
    omega
  exact ⟨fun n hn => (h (ACQ_SEG_state n) (keyBlock_seg hn) (seg_ne_status n) (full n)).trans,
    fun n hn _ => h (ACQ_SEG_seq n) (keyBlock_seg hn) (seg_ne_status n) (full n), h ACQ_RECORDS rfl (by decide) (by decide), hr⟩

/-- A disabled recorder reaches OFF. -/
theorem recorderGoesOn_off (hp : d.flag ACQ_STATUS_enable_pending = false) (h4 : d.acqState = 4) :
    GoneOn d (recorderGoesOn r d) ∧ (recorderGoesOn r d).acqState = 0 := by
  have off : recorderGoesOn r d = acqOff d := if_pos h4
  rw [off]
  refine ⟨goneOn_of_kept (fun f h9 hs _ => get_acqOff hp h9 hs) ?_, state_acqOff hp⟩
  rw [(acqOff_events hp).acq]
  rfl

variable (h4 : d.acqState ≠ 4)
include h4

/-- Without a rearm it is READY. -/
theorem recorderGoesOn_ready (h : (d.flag ACQ_CFG_rearm && !d.acq.disarm && !r.stop) = false) :
    GoneOn d (recorderGoesOn r d) ∧ (recorderGoesOn r d).acqState = 1 := by
  have ready : recorderGoesOn r d = acqIdle 1 d := (if_neg h4).trans (if_neg (by simp [h]))
  rw [ready]
  exact ⟨goneOn_of_kept (fun f _ hs _ => (acqIdle_kept 1 d).get hs) rfl, state_acqIdle 1 d (by decide)⟩

variable (h : (d.flag ACQ_CFG_rearm && !d.acq.disarm && !r.stop) = true)
include h

/-- A rearm takes the lowest FREE segment. -/
theorem recorderGoesOn_rearms {k : Nat} (hk : d.segFree = some k) (hn : d.get ACQ_SEGSZ_n_seg ≤ 64) :
    GoneOn d (recorderGoesOn r d) ∧ Armed k d (recorderGoesOn r d) := by
  have rearms : recorderGoesOn r d = acqArmOn false k d := by
    refine (if_neg h4).trans ((if_pos h).trans ?_)
    rw [hk]
  obtain ⟨layout, free⟩ := segFree_some hk
  have armed := armed_acqArmOn false (Nat.lt_of_lt_of_le layout hn) d
  rw [rearms]
  have kept {f : Fld} (hs : f.key ≠ ACQ_STATUS.key) (hf : f.key ≠ (ACQ_SEG_state k).key) : (acqArmOn false k d).get f = d.get f := by
    unfold Dev.get
    rw [armed.word _ hs hf]
  have other (n : Nat) (h3 : d.get (ACQ_SEG_state n) = 3) : (ACQ_SEG_state n).key ≠ (ACQ_SEG_state k).key := seg_ne_seg (fun hnk => by
    rw [hnk, free] at h3
    cases h3)
  have records : ACQ_RECORDS.key ≠ (ACQ_SEG_state k).key := by
    simp only [ACQ_RECORDS, ACQ_SEG_state]
    omega
  exact ⟨⟨fun n _ h3 => (kept (seg_ne_status n) (other n h3)).trans h3, fun n _ h3 => kept (seg_ne_status n) (other n h3),
    kept (by decide) records, armed.record⟩, armed⟩

/-- Without a FREE segment it is READY with FULL. -/
theorem recorderGoesOn_full (hk : d.segFree = none) :
    GoneOn d (recorderGoesOn r d) ∧ (recorderGoesOn r d).acqState = 1 ∧ (recorderGoesOn r d).get ACQ_STATUS_arm_result = 6 ∧
      ∀ k < 64, (recorderGoesOn r d).get (ACQ_SEG_state k) = d.get (ACQ_SEG_state k) := by
  set y := (d.set ACQ_STATUS_arm_result 6).inc ACQ_FULL with hy
  have full : recorderGoesOn r d = raise 62 (acqIdle 1 y) := by
    refine (if_neg h4).trans ((if_pos h).trans ?_)
    rw [hk]
  have event : EventOnly (acqIdle 1 y) (recorderGoesOn r d) := full ▸ eventOnly_raise _ (by decide)
  have kept (f : Fld) (h9 : keyBlock f.key = 9) (hs : f.key ≠ ACQ_STATUS.key) (hf : f.key ≠ ACQ_FULL.key) : (recorderGoesOn r d).get f = d.get f :=
    (event.traffic.get_acq h9).trans (((acqIdle_kept 1 y).get hs).trans ((Dev.get_set_ne _ ACQ_FULL f _ hf).trans (Dev.get_set_ne d ACQ_STATUS_arm_result f _ hs)))
  refine ⟨goneOn_of_kept kept ?_, event.traffic.acqState.trans (state_acqIdle 1 y (by decide)), ?_, fun k hk => kept _ (keyBlock_seg hk) (seg_ne_status k) ?_⟩
  · rw [event.acq]
    rfl
  · rw [event.traffic.get_acq rfl, get_acqIdle 1 y rfl rfl, hy, Dev.inc_eq, Dev.get_set_ne _ ACQ_FULL _ _ (by decide)]
    exact Dev.get_set_fits d ACQ_STATUS_arm_result rfl (by decide)
  · simp only [ACQ_SEG_state, ACQ_FULL]
    omega

end

/-! ## The rule -/

/-- What a completion leaves. -/
theorem acqComplete_does {d : Dev} {r : AcqRec} (h : d.acq.recd = some r) (hn : d.get ACQ_SEGSZ_n_seg ≤ 64)
    (hp : d.flag ACQ_STATUS_enable_pending = false) (step : Bool) :
    let e := acqComplete step d
    e.get (ACQ_SEG_state d.acqSeg) = 3 ∧ e.get (ACQ_SEG_seq d.acqSeg) = r.seq % 2 ^ (ACQ_SEG_seq d.acqSeg).width ∧
      e.get ACQ_RECORDS = min (d.get ACQ_RECORDS + 1) 4294967295 ∧ e.acq.recd = none ∧ (d.acqState = 4 → e.acqState = 0) ∧
      (d.acqState ≠ 4 → d.flag ACQ_CFG_rearm = true → d.acq.disarm = false → r.stop = false →
        (e.acqState = 2 ∧ e.acqSeg ≠ d.acqSeg ∧ e.get (ACQ_SEG_state e.acqSeg) = 1 ∧ e.acq.tArm = d.now) ∨
        (e.acqState = 1 ∧ e.get ACQ_STATUS_arm_result = 6 ∧ ∀ k < d.get ACQ_SEGSZ_n_seg, e.get (ACQ_SEG_state k) ≠ 0)) ∧
      (d.acqState ≠ 4 → d.flag ACQ_CFG_rearm = false ∨ d.acq.disarm = true ∨ r.stop = true → e.acqState = 1) := by
  intro e
  obtain ⟨flags, w, traffic, parts⟩ := acqComplete_parts step h
  set y := recordShown d.acqSeg flags r w with hy
  have taken : RecordTaken d.acqSeg r w y := recordTaken_recordShown d.acqSeg_lt flags r w
  have low {f : Fld} (hf : f.key < 0x90020) (h9 : keyBlock f.key = 9) (hs : ACQ_STATUS_complete.apart f = true) : y.get f = d.get f := by
    refine (taken.kept f h9 ?_ ?_ hs).trans (traffic.get_acq h9)
    · simp only [ACQ_RECORDS]
      omega
    · simp only [ACQ_SEG_state]
      omega
  have state : y.acqState = d.acqState := low (by decide) rfl rfl
  have layout : y.get ACQ_SEGSZ_n_seg = d.get ACQ_SEGSZ_n_seg := low (by decide) rfl rfl
  have waits : y.flag ACQ_STATUS_enable_pending = false := (congrArg (· != 0) (low (by decide) rfl rfl)).trans hp
  have rearm : y.flag ACQ_CFG_rearm = d.flag ACQ_CFG_rearm := congrArg (· != 0) (low (by decide) rfl rfl)
  have acq : y.acq = d.acq := taken.acq.trans traffic.acq
  have now : y.now = d.now := taken.now.trans traffic.now
  have records : w.get ACQ_RECORDS = d.get ACQ_RECORDS := traffic.get_acq rfl
  have whole (gone : GoneOn y e) : e.get (ACQ_SEG_state d.acqSeg) = 3 ∧ e.get (ACQ_SEG_seq d.acqSeg) = r.seq % 2 ^ (ACQ_SEG_seq d.acqSeg).width ∧
      e.get ACQ_RECORDS = min (d.get ACQ_RECORDS + 1) 4294967295 ∧ e.acq.recd = none :=
    ⟨gone.complete _ d.acqSeg_lt taken.state, (gone.seq _ d.acqSeg_lt taken.state).trans taken.seq,
      gone.count.trans (taken.count.trans (by rw [records])), gone.record⟩
  have goesOn : recorderGoesOn r y = e := parts.symm
  have next : (y.flag ACQ_CFG_rearm && !y.acq.disarm && !r.stop) = (d.flag ACQ_CFG_rearm && !d.acq.disarm && !r.stop) := by rw [rearm, acq]
  by_cases h4 : d.acqState = 4
  · obtain ⟨gone, off⟩ := recorderGoesOn_off (r := r) waits (state.trans h4)
    rw [goesOn] at gone off
    obtain ⟨complete, seq, count, record⟩ := whole gone
    exact ⟨complete, seq, count, record, fun _ => off, fun hne => absurd h4 hne, fun hne => absurd h4 hne⟩
  have y4 : y.acqState ≠ 4 := state ▸ h4
  cases hc : d.flag ACQ_CFG_rearm && !d.acq.disarm && !r.stop with
  | false =>
    obtain ⟨gone, ready⟩ := recorderGoesOn_ready (r := r) y4 (next.trans hc)
    rw [goesOn] at gone ready
    obtain ⟨complete, seq, count, record⟩ := whole gone
    exact ⟨complete, seq, count, record, fun h => absurd h h4, fun _ h1 h2 h3 => by simp [h1, h2, h3] at hc, fun _ _ => ready⟩
  | true =>
    have again : ¬(d.flag ACQ_CFG_rearm = false ∨ d.acq.disarm = true ∨ r.stop = true) := by
      simp only [Bool.and_eq_true, Bool.not_eq_true'] at hc
      simp [hc]
    cases hk : y.segFree with
    | some k =>
      obtain ⟨gone, armed⟩ := recorderGoesOn_rearms (r := r) y4 (next.trans hc) hk (layout ▸ hn)
      rw [goesOn] at gone armed
      obtain ⟨complete, seq, count, record⟩ := whole gone
      have other : k ≠ d.acqSeg := fun hkd => by
        have free := (segFree_some hk).2
        rw [hkd, taken.state] at free
        cases free
      exact ⟨complete, seq, count, record, fun h => absurd h h4,
        fun _ _ _ _ => .inl ⟨armed.state, armed.seg ▸ other, armed.seg.symm ▸ armed.mark, armed.from_.trans now⟩, fun _ h => absurd h again⟩
    | none =>
      obtain ⟨gone, ready, full, segments⟩ := recorderGoesOn_full (r := r) y4 (next.trans hc) hk
      rw [goesOn] at gone ready full segments
      obtain ⟨complete, seq, count, record⟩ := whole gone
      refine ⟨complete, seq, count, record, fun h => absurd h h4, fun _ _ _ _ => .inr ⟨ready, full, fun k hkn => ?_⟩, fun _ h => absurd h again⟩
      rw [segments k (Nat.lt_of_lt_of_le hkn hn)]
      exact segFree_none hk k (layout.symm ▸ hkn)

theorem acq_passTo (t : Nat) (d : Dev) : (passTo t d).acq = d.acq := by rw [passTo_rest]

section
variable {r : AcqRec} {d : Dev}

theorem acqRecordComplete_none (h : d.acq.recd = none) : acqRecordComplete d = d := by
  unfold acqRecordComplete
  rw [h]

theorem acqTailExpire_none (h : d.acq.recd = none) : acqTailExpire d = d := by
  unfold acqTailExpire
  rw [h]

variable (h : d.acq.recd = some r)
include h

theorem acqRecordComplete_some :
    acqRecordComplete d = if d.acq.tracks.all (fun t => t.done (r.tt + d.acqPost)) then acqComplete false d else d := by
  unfold acqRecordComplete
  rw [h]

theorem acqTailExpire_some : acqTailExpire d = atTime (r.tt + d.acqPost + d.acqTail) (acqComplete false) d := by
  unfold acqTailExpire
  rw [h]

end

theorem recordsComplete : Rules.RecordsComplete := by
  intro s hr hn hp
  refine ⟨fun h => ⟨settles_of rfl hr (acqRecordComplete_none h), settles_of rfl hr (acqTailExpire_none h)⟩, fun i r x h hi => ?_,
    fun r h he => ?_, fun r h ht => ?_⟩
  · rcases hi with ⟨rfl, rfl, done⟩ | ⟨rfl, rfl, reached⟩
    · exact ⟨_, settles_of rfl hr ((acqRecordComplete_some h).trans (if_pos done)), acqComplete_does h hn hp false⟩
    · set x := passTo (r.tt + s.dev.acqPost + s.dev.acqTail) s.dev with hx
      have same (f : Fld) : x.get f = s.dev.get f := get_passTo _ s.dev f
      have acq : x.acq = s.dev.acq := acq_passTo _ s.dev
      refine ⟨_, settles_of rfl hr ((acqTailExpire_some h).trans (atTime_reached reached)), ?_⟩
      have does := acqComplete_does (d := x) (acq ▸ h) (same ACQ_SEGSZ_n_seg ▸ hn) ((congrArg (· != 0) (same _)).trans hp) false
      simpa only [Dev.acqState, Dev.acqSeg, Dev.flag_eq, same, acq] using does
  · exact settles_of rfl hr ((acqTailExpire_some h).trans (atTime_early (Nat.lt_of_not_le he)))
  · exact settles_of rfl hr ((acqRecordComplete_some h).trans (if_neg (by simp [ht])))

end Sys2Proof.Machine
end

section
/-! PROOF. Trigger steps are evaluated (R317, R319, O43). -/
namespace Sys2Proof.Machine

/-! ## A trigger (R319) -/

/-- The record `r` starts on the armed segment. -/
def recordStarted (r : AcqRec) (d : Dev) : Dev :=
  { ((d.set (ACQ_SEG_state d.acqSeg) 2).set ACQ_STATUS_state 3).incWrap ACQ_SEQ with acq := { d.acq with recd := some r } }

theorem recordStarted_shows (r : AcqRec) (d : Dev) : (recordStarted r d).acqState = 3 ∧ (recordStarted r d).get (ACQ_SEG_state d.acqSeg) = 2 := by
  have seq : (ACQ_SEG_state d.acqSeg).key ≠ ACQ_SEQ.key := by
    simp only [ACQ_SEG_state, ACQ_SEQ]
    omega
  refine ⟨(Dev.get_set_ne _ ACQ_SEQ ACQ_STATUS_state _ (by decide)).trans (Dev.get_set_fits _ ACQ_STATUS_state rfl (by decide)), ?_⟩
  refine (Dev.get_set_ne _ ACQ_SEQ _ _ seq).trans ((Dev.get_set_ne _ ACQ_STATUS_state _ _ (seg_ne_status _)).trans ?_)
  exact Dev.get_set_fits d (ACQ_SEG_state d.acqSeg) rfl (by show 2 < 2 ^ 2; decide)

/-- A trigger starts a record at its step. -/
theorem acqTrigger_starts (tt mask states cause term : Nat) (forced : Bool) (d : Dev) :
    ∃ r : AcqRec, r.tt = tt ∧ r.forced = forced ∧ TrafficOnly (recordStarted r d) (acqTrigger tt mask states cause term forced d) :=
  ⟨_, rfl, rfl, (trafficOnly_raise _ (by decide)).trans (trafficOnly_acqQueueRec ..)⟩

/-! ## A step (R317) -/

/-- A set bit common to two words. -/
theorem and_ne_zero_of_bitAt {v w i : Nat} (hv : bitAt v i = true) (hw : bitAt w i = true) : v &&& w ≠ 0 := by
  have test (x : Nat) : bitAt x i = x.testBit i := by rw [Nat.testBit_eq_decide_div_mod_eq]; rfl
  intro h
  have both : (v &&& w).testBit i = true := by rw [Nat.testBit_and, ← test, ← test, hv, hw]; rfl
  rw [h, Nat.zero_testBit] at both
  cases both

/-- Step `i` is evaluated: these events and FORCEs wait for a later one, and the conditions have these states. -/
def stepTaken (i : Nat) (events : List AcqEv) (forces : List Nat) (states : Nat) (d : Dev) : Dev :=
  { d with acq := { d.acq with events := events, forces := forces, states := states, nextStep := i + 1 } }

/-- A FORCE lies before the end of step `i`, or the one event that waits does and fires for a term whose qualifiers hold. -/
def Dev.StepFires (d : Dev) (i : Nat) : Prop :=
  (∃ t ∈ d.acq.forces, t < d.stepStart (i + 1)) ∨
    ∃ e t, d.acq.events = [e] ∧ e.time < (d.stepStart (i + 1) : Int) ∧ e.fires = true ∧ e.cond < 32 ∧ t < 8 ∧
      bitAt (d.get (ACQ_TERM_T t)) e.cond = true ∧ d.get (ACQ_TERM_Q t) &&& setBit d.acq.states e.cond e.state = d.get (ACQ_TERM_Q t)

section
variable {i : Nat} {d : Dev}

/-- The evaluation of the next step, where no earlier one can be passed over. -/
theorem triggerStepEval_next (ha : d.acqActive = true) (hn : d.stepOf ((d.now - d.acqSettle : Nat) : Int) ≤ d.acq.nextStep + 1) :
    triggerStepEval d = atTime (d.stepDue d.acq.nextStep) (stepEval d.acq.nextStep) d := by
  unfold triggerStepEval
  rw [ha, if_neg (by decide)]
  extract_lets i0 last due timed held i
  have next : i = i0 := if_pos (by
    simp only [Bool.or_eq_true, decide_eq_true_eq]
    exact .inl (by omega))
  rw [next]

variable (untimed : ∀ k < 32, d.get (ACQ_COND0_kind k) ≠ 7)
include untimed

theorem no_timeInstants (a b : Nat) :
    (List.range 32).filter (fun k => d.get (ACQ_COND0_kind k) == 7 && d.timeInstant k (max a d.acq.timeFrom) b) = [] :=
  List.filter_eq_nil_iff.mpr fun k hk => by simp [untimed k (List.mem_range.mp hk)]

/-- With no event, FORCE or TIME condition a step changes nothing. -/
theorem stepEval_quiet (he : d.acq.events = []) (hf : d.acq.forces = []) :
    stepEval i d = { d with acq := { d.acq with nextStep := i + 1 } } := by
  unfold stepEval
  extract_lets a b evs times force states0 states fired terms mask acq y
  have hevs : evs = [] := by simp only [evs, he, List.filter_nil]
  have htimes : times = [] := no_timeInstants untimed a b
  have hfired : fired = 0 := by simp only [fired, htimes, hevs, List.filter_nil, List.foldl_nil]
  have hterms : terms = [] := List.filter_eq_nil_iff.mpr fun t _ => by simp [hfired]
  have hforce : force = false := by simp only [force, hf, List.any_nil]
  have hy : y = { d with acq := { d.acq with nextStep := i + 1 } } := by
    simp only [y, acq, states0, hevs, he, hf, List.filter_nil, List.foldl_nil]
  rw [hterms, hforce, if_pos (by rfl), hy]

/-- A step that fires starts a record or is counted. -/
theorem stepEval_fires (h : d.StepFires i) : ∃ events forces known mask states cause term,
    stepEval i d =
      let y := stepTaken i events forces known d
      if d.acqState = 2 then
        if d.stepStart i < d.acq.tArm + d.acqPre then y.inc ACQ_TRIG_EARLY
        else acqTrigger (d.stepStart i) mask states cause term (decide (∃ t ∈ d.acq.forces, t < d.stepStart (i + 1))) y
      else y.inc ACQ_TRIG_BUSY := by
  unfold stepEval
  extract_lets a b evs times force states0 states fired terms mask acq y
  have htimes : times = [] := no_timeInstants untimed a b
  have hforce : force = decide (∃ t ∈ d.acq.forces, t < d.stepStart (i + 1)) := by
    rw [Bool.eq_iff_iff, List.any_eq_true, decide_eq_true_eq]
    simp only [decide_eq_true_eq]
    rfl
  have fires : (terms.isEmpty && !force) = false := by
    rcases h with hf | ⟨e, t, he, hb, hfires, hc, ht, hT, hQ⟩
    · rw [hforce, decide_eq_true hf]
      exact Bool.and_false _
    · have hevs : evs = [e] := by
        simp only [evs, he, List.filter_cons, List.filter_nil]
        exact if_pos (decide_eq_true hb)
      have hfired : fired = setBit 0 e.cond true := by
        simp only [fired, htimes, hevs, List.filter_cons, List.filter_nil, hfires, if_true, List.foldl_cons, List.foldl_nil]
      have hstates : states = setBit d.acq.states e.cond e.state := by
        simp only [states, states0, htimes, hevs, List.foldl_cons, List.foldl_nil]
      have firing : d.get (ACQ_TERM_T t) &&& fired ≠ 0 := and_ne_zero_of_bitAt hT (by rw [hfired, bitAt_setBit, if_pos rfl])
      have term : t ∈ terms := List.mem_filter.mpr ⟨List.mem_range.mpr ht, by simp [firing, hstates, hQ]⟩
      rw [Bool.and_eq_false_iff]
      exact .inl (List.isEmpty_eq_false_iff.mpr (List.ne_nil_of_mem term))
  exact ⟨_, _, _, _, _, _, _, (if_neg (by simp [fires])).trans (by rw [hforce]; rfl)⟩

end

/-! ## The rule -/

section
variable {i : Nat} {d : Dev}

/-- What an evaluated step that fires does. -/
theorem stepEval_does (untimed : ∀ k < 32, d.get (ACQ_COND0_kind k) ≠ 7) (h : d.StepFires i) :
    let e := stepEval i d
    e.acq.nextStep = i + 1 ∧
      (d.acqState ≠ 2 → e.get ACQ_TRIG_BUSY = min (d.get ACQ_TRIG_BUSY + 1) 4294967295 ∧ e.acq.recd = d.acq.recd) ∧
      (d.acqState = 2 → d.stepStart i < d.acq.tArm + d.acqPre → e.acqState = 2 ∧ e.get ACQ_TRIG_EARLY = min (d.get ACQ_TRIG_EARLY + 1) 4294967295) ∧
      (d.acqState = 2 → d.acq.tArm + d.acqPre ≤ d.stepStart i → e.acqState = 3 ∧ e.get (ACQ_SEG_state d.acqSeg) = 2 ∧
        ∃ r, e.acq.recd = some r ∧ r.tt = d.stepStart i ∧ r.forced = decide (∃ t ∈ d.acq.forces, t < d.stepStart (i + 1))) := by
  intro e
  obtain ⟨events, forces, known, mask, states, cause, term, eval⟩ := stepEval_fires untimed h
  set y := stepTaken i events forces known d with hy
  dsimp only at eval
  by_cases h2 : d.acqState = 2
  · rw [if_pos h2] at eval
    by_cases early : d.stepStart i < d.acq.tArm + d.acqPre
    · have counted : e = y.inc ACQ_TRIG_EARLY := eval.trans (if_pos early)
      rw [counted]
      refine ⟨rfl, fun hne => absurd h2 hne, fun _ _ => ⟨?_, Dev.get_inc_same y ACQ_TRIG_EARLY rfl⟩, fun _ late => absurd early (Nat.not_lt.mpr late)⟩
      exact (Dev.get_set_ne y ACQ_TRIG_EARLY ACQ_STATUS_state _ (by decide)).trans h2
    · obtain ⟨r, tt, forced, traffic⟩ := acqTrigger_starts (d.stepStart i) mask states cause term (decide (∃ t ∈ d.acq.forces, t < d.stepStart (i + 1))) y
      rw [← eval.trans (if_neg early)] at traffic
      obtain ⟨state, segment⟩ := recordStarted_shows r y
      refine ⟨congrArg AcqSt.nextStep traffic.acq, fun hne => absurd h2 hne, fun _ h => absurd h early, fun _ _ => ?_⟩
      exact ⟨traffic.acqState.trans state, (traffic.get_acq (keyBlock_seg d.acqSeg_lt)).trans segment, r, congrArg AcqSt.recd traffic.acq, tt, forced⟩
  · have counted : e = y.inc ACQ_TRIG_BUSY := eval.trans (if_neg h2)
    rw [counted]
    exact ⟨rfl, fun _ => ⟨Dev.get_inc_same y ACQ_TRIG_BUSY rfl, rfl⟩, fun h => absurd h h2, fun h => absurd h h2⟩

end

theorem triggerStepsAreEvaluated : Rules.TriggerStepsAreEvaluated := by
  intro s hr
  refine ⟨fun ha => settles_of rfl hr ?_, fun ha => ?_⟩
  · unfold triggerStepEval
    rw [ha]
    rfl
  · intro i a b x hn untimed
    have next : triggerStepEval s.dev = atTime (s.dev.stepDue i) (stepEval i) s.dev := triggerStepEval_next ha hn
    have acq : x.acq = s.dev.acq := acq_passTo _ s.dev
    have same (f : Fld) : x.get f = s.dev.get f := get_passTo _ s.dev f
    have later : ∀ k < 32, x.get (ACQ_COND0_kind k) ≠ 7 := fun k hk => same _ ▸ untimed k hk
    have start (j : Nat) : x.stepStart j = s.dev.stepStart j := by simp only [Dev.stepStart, Dev.acqQ, same]
    have evaluated (h : s.dev.stepDue i ≤ x.now) : triggerStepEval s.dev = stepEval i x := next.trans (atTime_reached h)
    refine ⟨fun early => settles_of rfl hr (next.trans (atTime_early early)), fun due he hf => ?_, fun due fires => ?_⟩
    · exact settles_of rfl hr ((evaluated due).trans (stepEval_quiet later (acq ▸ he) (acq ▸ hf)))
    · refine ⟨_, settles_of rfl hr (evaluated due), ?_⟩
      have firing : x.StepFires i := by simpa only [Dev.StepFires, start, acq, same] using fires
      have does := stepEval_does later firing
      simpa only [start, acq, same, Dev.acqState, Dev.acqSeg, Dev.acqPre] using does

end Sys2Proof.Machine
end

section
/-! PROOF. The recorder takes values (R309, R310, R316, O43). -/
namespace Sys2Proof.Machine

/-! ## A track takes a value (R309) -/

/-- A value that enters the open window moves neither the window nor the entries. -/
theorem accept_keeps (t : AcqTrack) (v : Nat) : (t.accept v).cur = t.cur ∧ (t.accept v).count = t.count ∧ (t.accept v).chan = t.chan ∧
    (t.accept v).first = t.first ∧ (t.accept v).n = t.n ∧ (t.accept v).red = t.red := by
  unfold AcqTrack.accept
  split
  · exact ⟨rfl, rfl, rfl, rfl, rfl, rfl⟩
  · exact ⟨rfl, rfl, rfl, rfl, rfl, rfl⟩

/-- A window whose entry is the next one forms it. -/
theorem trackClose_forms (seg : Nat) {t : AcqTrack} {w : Nat} (hc : t.cur = some w) (hw : (w - t.first) / t.n = t.count) (d : Dev) :
    (trackClose seg none (t, d)).1.count = t.count + 1 ∧ (trackClose seg none (t, d)).1.chan = t.chan := by
  have last : max t.count (t.count - t.cap) = t.count := Nat.max_eq_left (Nat.sub_le ..)
  unfold trackClose
  simp only [hc, Option.any_none, Bool.false_eq_true, if_false, hw, trackFill, last, Nat.sub_self]
  exact ⟨rfl, rfl⟩

/-- A RAW track that is up to date forms its next entry from the next value of its source. -/
theorem trackTake_forms (seg : Nat) {v : AcqIn} {t : AcqTrack} (hred : t.red = 0) (hn : t.n = 1) (hend : t.ended = false) (hcur : t.cur = none)
    (hrate : t.rate = v.rate) (hfnom : t.fnom = v.fnom) (hk : v.k = t.first + t.count) (d : Dev) :
    (trackTake seg none v (t, d)).1.count = t.count + 1 ∧ (trackTake seg none v (t, d)).1.chan = t.chan := by
  unfold trackTake
  extract_lets t0 t' w y1 y2 t2 y3
  have window : w = v.k := by
    show (if t.red = 3 then windowOf t.fnom v.time else v.k / t.n * t.n) = v.k
    rw [hred, hn, if_neg (by decide), Nat.div_one, Nat.mul_one]
  have same1 : y1 = (t', d) := if_neg (by simp [t', t0, hcur])
  have same2 : y2 = (t', d) := same1
  obtain ⟨cur, count, chan, first, n, red⟩ := accept_keeps { y2.1 with cur := some w } v.val
  have track : y2.1 = t' := congrArg Prod.fst same2
  have entry : (w - t.first) / t.n = t.count := by
    rw [window, hk, hn]
    omega
  have closes : (trackClose seg none y3).1.count = t.count + 1 ∧ (trackClose seg none y3).1.chan = t.chan := by
    have open_ : ((y3.1).cur = some w) := cur
    have counted : y3.1.count = t.count := count.trans (by rw [track])
    have forms := trackClose_forms seg open_ (by
      show (w - y3.1.first) / y3.1.n = y3.1.count
      rw [counted, show y3.1.first = t.first from first.trans (by rw [track]), show y3.1.n = t.n from n.trans (by rw [track]), entry]) y3.2
    exact ⟨forms.1.trans (by rw [counted]), forms.2.trans (chan.trans (by rw [track]))⟩
  rw [if_neg (by simp [t', t0, hend]), if_neg (by simp [t', t0, hrate, hfnom]), if_neg, if_pos]
  · exact closes
  · simp [t', t0, hred, window, hn]
  · rw [track]
    show ¬(decide (w < t.first) || decide ((w - t.first) / t.n < t.count)) = true
    rw [entry, window, hk]
    simp

/-! ## The tracks of a channel take a value -/

/-- One track of the device, where its channel is the one that takes the value. -/
def trackStep (seg : Nat) (lim : Option Nat) (c : Nat) (v : AcqIn) (a : List AcqTrack × Dev) (t : AcqTrack) : List AcqTrack × Dev :=
  if t.chan = c then (a.1 ++ [(trackTake seg lim v (t, a.2)).1], (trackTake seg lim v (t, a.2)).2) else (a.1 ++ [t], a.2)

theorem tracksTake_eq (c : Nat) (v : AcqIn) (d : Dev) : tracksTake c v d =
    let r := d.acq.tracks.foldl (trackStep d.acqSeg (d.acq.recd.map (fun r => r.tt + d.acqPost)) c v) ([], d)
    { r.2 with acq := { r.2.acq with tracks := r.1 } } := rfl

/-- The tracks behind those that have been passed: each is as it was, or has taken the value. -/
theorem trackStep_all (seg : Nat) (lim : Option Nat) (c : Nat) (v : AcqIn) (ts us : List AcqTrack) (d : Dev) : ∃ vs : List AcqTrack,
    (ts.foldl (trackStep seg lim c v) (us, d)).1 = us ++ vs ∧ TrafficOnly d (ts.foldl (trackStep seg lim c v) (us, d)).2 ∧
      ∀ (j : Nat) (t : AcqTrack), ts[j]? = some t → ∃ e, vs[j]? = some (if t.chan = c then (trackTake seg lim v (t, e)).1 else t) := by
  induction ts generalizing us d with
  | nil => exact ⟨[], (List.append_nil us).symm, .refl d, fun j t h => by cases h⟩
  | cons t ts ih =>
    have step : ∃ u e, trackStep seg lim c v (us, d) t = (us ++ [u], e) ∧
        u = (if t.chan = c then (trackTake seg lim v (t, d)).1 else t) ∧ TrafficOnly d e := by
      unfold trackStep
      split
      · exact ⟨_, _, rfl, rfl, trafficOnly_trackTake seg (t, d) lim v⟩
      · exact ⟨_, _, rfl, rfl, .refl d⟩
    obtain ⟨u, e, hstep, hu, traffic⟩ := step
    obtain ⟨vs, all, rest, each⟩ := ih (us ++ [u]) e
    rw [List.foldl_cons, hstep]
    refine ⟨u :: vs, all.trans (List.append_assoc us [u] vs), traffic.trans rest, fun j x hx => ?_⟩
    cases j with
    | zero =>
      cases hx
      exact ⟨d, congrArg some hu⟩
    | succ j => exact each j x hx

/-- What every track of a channel's taking a value leaves. -/
theorem tracksTake_does (c : Nat) (v : AcqIn) (d : Dev) : ∃ vs,
    TrafficOnly { d with acq := { d.acq with tracks := vs } } (tracksTake c v d) ∧
      ∀ (j : Nat) (t : AcqTrack), d.acq.tracks[j]? = some t →
        ∃ e, vs[j]? = some (if t.chan = c then (trackTake d.acqSeg (d.acq.recd.map (fun r => r.tt + d.acqPost)) v (t, e)).1 else t) := by
  obtain ⟨vs, all, traffic, each⟩ := trackStep_all d.acqSeg (d.acq.recd.map (fun r => r.tt + d.acqPost)) c v d.acq.tracks [] d
  refine ⟨vs, ?_, each⟩
  rw [tracksTake_eq]
  dsimp only
  rw [all, List.nil_append]
  exact ⟨traffic.word, by rw [traffic.rest]⟩

/-! ## Conditions, mask tests and measurements (R318, R323, R324) -/

/-- `e` keeps the values that wait, the count of those skipped and the tracks, and has no record where `d` has none. -/
structure TestsOnly (d e : Dev) : Prop where
  inbox : e.acq.inbox = d.acq.inbox
  skip : e.get ACQ_SKIP = d.get ACQ_SKIP
  tracks : e.acq.tracks = d.acq.tracks
  record : d.acq.recd = none → e.acq.recd = none

theorem TestsOnly.refl (d : Dev) : TestsOnly d d := ⟨rfl, rfl, rfl, id⟩

theorem TestsOnly.trans {a b c : Dev} (h : TestsOnly a b) (g : TestsOnly b c) : TestsOnly a c :=
  ⟨g.inbox.trans h.inbox, g.skip.trans h.skip, g.tracks.trans h.tracks, fun hn => g.record (h.record hn)⟩

theorem TrafficOnly.tests {d e : Dev} (h : TrafficOnly d e) : TestsOnly d e := by
  refine ⟨?_, h.get_acq rfl, ?_, fun hn => ?_⟩ <;> rw [h.acq]
  exact hn

theorem testsOnly_set (d : Dev) (f : Fld) (v : Nat) (h : ACQ_SKIP.key ≠ f.key) : TestsOnly d (d.set f v) := ⟨rfl, Dev.get_set_ne d f _ v h, rfl, id⟩

theorem testsOnly_acqEvent (e : AcqEv) (d : Dev) : TestsOnly d (acqEvent e d) := by
  unfold acqEvent
  extract_lets i late d1 e1 acq
  have counted : TestsOnly d d1 := by
    unfold d1
    split
    · exact (testsOnly_set d ACQ_TRIG_LATE _ (by decide)).trans (trafficOnly_raiseMs _ (by decide)).tests
    · exact .refl d
  exact ⟨counted.inbox, counted.skip, counted.tracks, counted.record⟩

theorem testsOnly_condTake (c : Nat) (v : AcqIn) (k : Nat) (d : Dev) : TestsOnly d (condTake c v k d) := by
  unfold condTake
  extract_lets kind x acq d1 old m new
  split
  · exact .refl d
  · have noted : TestsOnly d d1 := by
      unfold d1
      split
      · exact ⟨rfl, rfl, rfl, id⟩
      · exact .refl d
    split
    · exact noted
    split
    · exact noted
    · exact noted.trans (testsOnly_acqEvent ..)

/-- A violation stops the rearm of the record. -/
def recordStopped (r : AcqRec) (d : Dev) : Dev :=
  ({ d with acq := { d.acq with recd := some { r with stop := true } } } : Dev).setFlag ACQ_STATUS_mask_stop true

theorem testsOnly_recordStopped (r : AcqRec) {d : Dev} (h : d.acq.recd = some r) : TestsOnly d (recordStopped r d) :=
  ⟨rfl, Dev.get_set_ne _ ACQ_STATUS_mask_stop ACQ_SKIP _ (by decide), rfl, fun hn => absurd (h.symm.trans hn) (by simp)⟩

theorem testsOnly_maskTake (c : Nat) (v : AcqIn) (d : Dev) : TestsOnly d (maskTake c v d) := by
  unfold maskTake
  extract_lets mode ws p up lo upper h acq d1 acq1
  split
  · exact .refl d
  split
  · have hit : TestsOnly d d1 :=
      TestsOnly.trans (b := { d with acq := { d.acq with hits := h :: d.acq.hits } }) ⟨rfl, rfl, rfl, id⟩ (trafficOnly_raiseMs _ (by decide)).tests
    split
    next r hr =>
      dsimp only
      split
      · exact hit.trans ((testsOnly_recordStopped r hr).trans (trafficOnly_raise (recordStopped r d1) (by decide)).tests)
      · exact hit
    next => exact hit
  · exact .refl d

theorem testsOnly_measTake (c : Nat) (v : AcqIn) (d : Dev) : TestsOnly d (measTake c v d) := by
  unfold measTake
  split
  · exact ⟨rfl, rfl, rfl, id⟩
  · exact .refl d

theorem testsOnly_acqPrune (d : Dev) : TestsOnly d (acqPrune d) := by
  unfold acqPrune
  split
  · exact .refl d
  · exact ⟨rfl, rfl, rfl, id⟩

/-! ## The oldest value that waits (R310) -/

/-- Everything of channel `c` takes a value. -/
def channelTake (v : AcqIn) (c : Nat) (d : Dev) : Dev := forN 32 (condTake c v) (measTake c v (maskTake c v (tracksTake c v d)))

theorem testsOnly_channelTake (v : AcqIn) (c : Nat) (d : Dev) : TestsOnly (tracksTake c v d) (channelTake v c d) :=
  forN_keeps (P := TestsOnly (tracksTake c v d)) (fun k _ e he => he.trans (testsOnly_condTake c v k e)) _
    ((testsOnly_maskTake c v _).trans (testsOnly_measTake c v _))

/-- The values that wait and the count of those skipped. -/
def Dev.waiting (d : Dev) : List AcqIn × Nat := (d.acq.inbox, d.get ACQ_SKIP)

theorem TestsOnly.waiting {d e : Dev} (h : TestsOnly d e) : e.waiting = d.waiting := Prod.ext h.inbox h.skip

theorem waiting_channelTake (v : AcqIn) (c : Nat) (d : Dev) : (channelTake v c d).waiting = d.waiting := by
  obtain ⟨vs, traffic, -⟩ := tracksTake_does c v d
  exact (testsOnly_channelTake v c d).waiting.trans traffic.tests.waiting

/-- Nothing is being recorded, and track `j` belongs to channel `c` and satisfies `P`. -/
def Dev.TrackAt (d : Dev) (j c : Nat) (P : AcqTrack → Prop) : Prop := d.acq.recd = none ∧ ∃ t, d.acq.tracks[j]? = some t ∧ t.chan = c ∧ P t

section
variable {v : AcqIn} {j c : Nat} {d : Dev}

/-- What a channel's taking a value makes of a track. -/
theorem trackAt_channelTake {P Q : AcqTrack → Prop} (b : Nat) (h : d.TrackAt j c P)
    (hq : ∀ t, t.chan = c → P t → ∀ e, let u := if t.chan = b then (trackTake d.acqSeg none v (t, e)).1 else t; u.chan = c ∧ Q u) :
    (channelTake v b d).TrackAt j c Q := by
  obtain ⟨hr, t, ht, hc, hP⟩ := h
  obtain ⟨vs, traffic, each⟩ := tracksTake_does b v d
  have tests := traffic.tests.trans (testsOnly_channelTake v b d)
  obtain ⟨e, he⟩ := each j t ht
  rw [hr, Option.map_none] at he
  obtain ⟨chan, holds⟩ := hq t hc hP e
  exact ⟨tests.record hr, _, (congrArg (·[j]?) tests.tracks).trans he, chan, holds⟩

/-- Another channel's taking a value leaves the track. -/
theorem trackAt_channelTake_other {P : AcqTrack → Prop} {b : Nat} (hb : b ≠ c) (h : d.TrackAt j c P) : (channelTake v b d).TrackAt j c P :=
  trackAt_channelTake b h fun t hc hP e => by
    rw [if_neg (fun h => hb (h.symm.trans hc))]
    exact ⟨hc, hP⟩

/-- In a list of channels that names the track's once, the track is treated once. -/
theorem trackAt_forL {P Q : AcqTrack → Prop} {cs : List Nat} (hc : c ∈ cs) (once : cs.Nodup)
    (own : ∀ d : Dev, d.TrackAt j c P → (channelTake v c d).TrackAt j c Q) (h : d.TrackAt j c P) : (forL cs (channelTake v) d).TrackAt j c Q := by
  induction cs generalizing d with
  | nil => cases hc
  | cons b cs ih =>
    obtain ⟨absent, rest⟩ := List.nodup_cons.mp once
    by_cases hb : b = c
    · subst hb
      have later : ∀ (xs : List Nat) (e : Dev), b ∉ xs → e.TrackAt j b Q → (forL xs (channelTake v) e).TrackAt j b Q := by
        intro xs
        induction xs with
        | nil => exact fun e _ he => he
        | cons x xs ihx =>
          intro e hx he
          rw [List.mem_cons, not_or] at hx
          exact ihx _ hx.2 (trackAt_channelTake_other (Ne.symm hx.1) he)
      exact later cs _ absent (own d h)
    · exact ih ((List.mem_cons.mp hc).resolve_left (Ne.symm hb)) rest (trackAt_channelTake_other hb h)

end

/-- The device whose lane has skipped values and taken the next. -/
def valuesTaken (lost : Nat) (rest : List AcqIn) (d : Dev) : Dev := { d.add ACQ_SKIP lost with acq := { d.acq with inbox := rest } }

section
variable {skip : Nat} {d : Dev}

/-- The channels whose lanes run and whose source the value is of. -/
def Dev.channelsOf (d : Dev) (v : AcqIn) : List Nat :=
  d.acqChannels.filter (fun c => d.get (ACQ_CH0_type c) == v.ty && d.get (ACQ_CH0_index c) == v.idx && d.laneRuns 4 (c / 32))

theorem acqValueTake_none (h : d.acq.inbox.drop (min skip d.acq.inbox.length) = []) :
    acqValueTake skip d = valuesTaken (min skip d.acq.inbox.length) [] d := by
  unfold acqValueTake
  extract_lets lost y
  rw [show y.acq.inbox.drop lost = [] from h]
  rfl

theorem acqValueTake_some {v : AcqIn} {rest : List AcqIn} (h : d.acq.inbox.drop (min skip d.acq.inbox.length) = v :: rest) :
    acqValueTake skip d =
      let y := valuesTaken (min skip d.acq.inbox.length) rest d
      if !y.acqActive then y else acqPrune (forL (y.channelsOf v) (channelTake v) y) := by
  unfold acqValueTake
  extract_lets lost y
  rw [show y.acq.inbox.drop lost = v :: rest from h]
  rfl

theorem waiting_valuesTaken (lost : Nat) (rest : List AcqIn) (d : Dev) :
    (valuesTaken lost rest d).waiting = (rest, min (d.get ACQ_SKIP + lost) 4294967295) := Prod.ext rfl (Dev.get_add_same d ACQ_SKIP lost rfl)

/-- What a lane's taking a value leaves of those that wait, and of the count of skipped ones. -/
theorem waiting_acqValueTake (skip : Nat) (d : Dev) : (acqValueTake skip d).waiting =
    ((d.acq.inbox.drop (min skip d.acq.inbox.length)).tail, min (d.get ACQ_SKIP + min skip d.acq.inbox.length) 4294967295) := by
  cases hd : d.acq.inbox.drop (min skip d.acq.inbox.length) with
  | nil => rw [acqValueTake_none hd, waiting_valuesTaken, List.tail_nil]
  | cons v rest =>
    rw [acqValueTake_some hd, ← waiting_valuesTaken, List.tail_cons]
    dsimp only
    split
    · rfl
    · refine (testsOnly_acqPrune _).waiting.trans ?_
      exact forL_keeps (P := fun e => e.waiting = (valuesTaken (min skip d.acq.inbox.length) rest d).waiting)
        (fun c e he => (waiting_channelTake v c e).trans he) _ _ rfl

/-- Skipped values move none of the channels, their sources and their lanes. -/
theorem mem_channelsOf {v : AcqIn} {c lost : Nat} {rest : List AcqIn} (hc : c ∈ d.acqChannels) (hl : d.laneRuns 4 (c / 32) = true)
    (ht : d.get (ACQ_CH0_type c) = v.ty) (hi : d.get (ACQ_CH0_index c) = v.idx) : c ∈ (valuesTaken lost rest d).channelsOf v := by
  have kept {f : Fld} (hf : f.key ≠ ACQ_SKIP.key) : (valuesTaken lost rest d).get f = d.get f := Dev.get_set_ne d ACQ_SKIP f _ hf
  have type (k : Nat) : (valuesTaken lost rest d).get (ACQ_CH0_type k) = d.get (ACQ_CH0_type k) := kept (by simp only [ACQ_CH0_type, ACQ_SKIP]; omega)
  have index (k : Nat) : (valuesTaken lost rest d).get (ACQ_CH0_index k) = d.get (ACQ_CH0_index k) := kept (by simp only [ACQ_CH0_index, ACQ_SKIP]; omega)
  have folio (n : Nat) : (valuesTaken lost rest d).laneFolio 4 n = d.laneFolio 4 n := by
    unfold Dev.laneFolio
    congr 2
    refine List.filter_congr fun f hf => ?_
    have := List.mem_range.mp hf
    rw [kept (by simp only [BND_FOLIO_MAP, ACQ_SKIP]; omega)]
  have runs (n : Nat) : (valuesTaken lost rest d).laneRuns 4 n = d.laneRuns 4 n := by
    unfold Dev.laneRuns
    rw [folio]
    rfl
  have channels : (valuesTaken lost rest d).acqChannels = d.acqChannels := by simp only [Dev.acqChannels, type]
  unfold Dev.channelsOf
  rw [channels, List.mem_filter, type, index, runs]
  exact ⟨hc, by simp [ht, hi, hl]⟩

theorem channelsOf_nodup (d : Dev) (v : AcqIn) : (d.channelsOf v).Nodup := (List.nodup_range.filter _).filter _

end

/-! ## The rule -/

/-- The pre-trigger part is full (R316). -/
theorem acqPreFull_armed {d : Dev} (h : d.acqState = 2) :
    acqPreFull d = atTime (d.acq.tArm + d.acqPre) (fun d => d.setFlag ACQ_STATUS_pre_full true) d := if_pos h

theorem recorderTakesValues : Rules.RecorderTakesValues := by
  intro s hr
  refine ⟨fun h => settles_of rfl hr (if_neg h), fun h2 => ?_, fun skip => ?_⟩
  · intro t x
    refine ⟨fun early => settles_of rfl hr ((acqPreFull_armed h2).trans (atTime_early early)), fun reached => ?_⟩
    refine ⟨_, settles_of rfl hr ((acqPreFull_armed h2).trans (atTime_reached reached)), Dev.flag_setFlag_same x ACQ_STATUS_pre_full true rfl rfl, ?_⟩
    exact Dev.SameBut.set (K := (· = ACQ_STATUS.key)) (.refl _ x) ACQ_STATUS_pre_full rfl 1
  · have waiting := waiting_acqValueTake skip s.dev
    refine ⟨_, settles_of rfl hr rfl, congrArg Prod.fst waiting, congrArg Prod.snd waiting, ?_⟩
    intro v j t hv h2 hn ht hc hl hty hix hred hone hend hcur hrate hfnom hcnt hk
    obtain ⟨rest, hd⟩ := List.head?_eq_some_iff.mp hv
    set y := valuesTaken (min skip s.dev.acq.inbox.length) rest s.dev with hy
    have state : y.acqState = 2 := (Dev.get_set_ne s.dev ACQ_SKIP ACQ_STATUS_state _ (by decide)).trans h2
    have active : y.acqActive = true := by
      unfold Dev.acqActive
      rw [state]
      rfl
    have before : y.TrackAt j t.chan (· = t) := ⟨hn, t, ht, rfl, rfl⟩
    have own (d : Dev) (h : d.TrackAt j t.chan (· = t)) : (channelTake v t.chan d).TrackAt j t.chan (fun u => u.count = t.count + 1) :=
      trackAt_channelTake t.chan h fun x _ hx e => by
        subst hx
        rw [if_pos rfl]
        exact (trackTake_forms d.acqSeg hred hone hend hcur hrate hfnom hk e).symm
    obtain ⟨-, u, hu, -, count⟩ := trackAt_forL (mem_channelsOf hc hl hty hix) (channelsOf_nodup y v) own before
    have taken : acqValueTake skip s.dev = acqPrune (forL (y.channelsOf v) (channelTake v) y) := (acqValueTake_some hd).trans (if_neg (by simp [← hy, active]))
    exact ⟨u, (congrArg (fun d : Dev => d.acq.tracks[j]?) taken).trans ((congrArg (·[j]?) (testsOnly_acqPrune _).tracks).trans hu), count⟩

/-- Settles O43: what a value, a trigger step and the end of a record do to the recorder. -/
theorem recordsAreTaken : Obligations.RecordsAreTaken := ⟨recorderTakesValues, triggerStepsAreEvaluated, recordsComplete⟩

end Sys2Proof.Machine
end
